-- ==== Sys2Proof/Word.lean ====
section
/-! DEFINITION. Sys2Proof/Word.lean: the plain words the model computes with. Registers of the
dictionary are held as raw unsigned values (R11, R14); a signed register is its two's complement. -/

namespace Sys2Proof

/-- One byte. -/
abbrev Byte := BitVec 8

/-- A raw register value: the unsigned reading of the entry's bytes, least significant first (R11). -/
abbrev Raw := Nat

end Sys2Proof
end

