-- ==== Sys2Proof/Config.lean ====
section
/-! DEFINITION. Sys2Proof/Config.lean: what a particular die or release fixes (R73, R74, R425) and
the free values. None of these constants has a body, so no proof can see a value of it. -/

namespace Sys2Proof

/-- The n-th free value drawn: a value the spec leaves open (notes/assumptions/5.md). The meaning
that draws it cuts it to the width it needs and advances the counter `State.free`. -/
opaque Config.freeValue : Nat → Nat

/-- The die serial of 0x1018:04, which varies by die (R74). -/
opaque Config.dieSerial : BitVec 32

/-- The die revision of R74, counted from 1, which varies by die. -/
opaque Config.dieRevision : Nat

/-- PortMacAddress of NP0, NP1 and NC, per die (R425). -/
opaque Config.macAddress : Nat → BitVec 48

/-- The 8-byte compatibility records of 0x2002:01 (R71), which vary by release, first record first. -/
opaque Config.compatibility : List (BitVec 64)

/-- The default of an entry whose default the spec leaves to the die or the release and that no
other constant covers, by its key (index × 256 + subindex). -/
opaque Config.dieEntry : Nat → Nat

/-- The 32-bit IDCODE that JTAG reads (R466); the spec gives no value. -/
opaque Config.idCode : BitVec 32

/-- The public key 0x40 of the boot ROM (R458): X then Y, 48 bytes each; the spec gives no value. -/
opaque Config.nugodarKey : List Nat

/-- The ControllerId of the peer of a Bridle pair (R441), which the spec does not say how a controller learns. -/
opaque Config.peerControllerId : Nat

/-- The number of boundary cells of the test port (R466), which the spec does not give. -/
opaque Config.boundaryLength : Nat

end Sys2Proof
end

