-- ==== Sys2Proof/Syntax.lean ====
section
/-! DEFINITION. Sys2Proof/Syntax.lean: the commands of the block, one constructor of `Instr` per row
of spec/opcode_table.json, in the table's order. Every command carries `t`, the instant at which it
happens, in ns of AON's free-running count (notes/assumptions/1.md); what comes from outside the
block (a written value, an edge's levels, a packet's bytes, a converted sample, the outcome of an
analogue search) is an operand. -/

namespace Sys2Proof

/-- The three paths to the dictionary (R56, R61): an application core through the memory window, the
CAN path, and a Tether session. -/
inductive WPath where
  | core (k : Nat)
  | can
  | session (i : Nat)
deriving DecidableEq, Repr

/-- A write as it arrives on a path: the byte offset within the slot (window only, 0 elsewhere), the
width in bytes and the raw little-endian value (R67, R68). -/
structure Wr where
  path : WPath
  off : Nat
  len : Nat
  val : Nat
deriving DecidableEq, Repr

/-- An operation a client asks for on the dictionary over CAN or Tether (R74, R412). -/
inductive DictOp where
  | read (idx sub : Nat)
  | write (idx sub len val : Nat)
deriving DecidableEq, Repr

/-- What the boot ROM finds in one image slot of the boot flash on the board: the header fields that
R462 checks (`present` is false for an empty slot) and whether the digest and the signature hold. -/
structure Image where
  present : Bool
  format : Bool
  kind : Nat
  keyId : Nat
  version : Nat
  dieSerial : Nat
  digestOk : Bool
  sigOk : Bool
deriving DecidableEq, Repr

/-- The far side of a datagram: the port it came in on (0 NP0, 1 NP1, 2 NC) and the sender's
IPv4 address and UDP port. -/
structure Host4 where
  nic : Nat
  ip : Nat
  udp : Nat
deriving DecidableEq, Repr

/-- The result of a Lissajous fit (R108): offsets, gain and phase trim in the
units of 0x2331–0x2334, and the fitted radius in codes. -/
structure SinCosTrim where
  sinOffset : Int
  cosOffset : Int
  cosGain : Nat
  phaseTrim : Int
  radius : Nat
deriving DecidableEq, Repr

/-- A CSI-2 packet as received (R290, R298): a short packet with data type 0 to 3, or a long packet
with its virtual channel, data type, payload bytes and what the receiver's checks found: the payload CRC, and the
header ECC (0 no error, 1 corrected, 2 not correctable). -/
structure CsiPacket where
  vc : Nat
  dataType : Nat
  word : Nat
  payload : List Nat
  crcOk : Bool
  ecc : Nat
deriving DecidableEq, Repr

/-- Who makes a memory access (R352, R361, R367). -/
inductive Initiator where
  | core (k : Nat)
  | realTime (k : Nat)
  | dma (c : Nat)
  | unit (island : Nat)
deriving DecidableEq, Repr

/-- One request waiting at a DRAM subchannel (R361): its class (1 print path, 2 cores and window, 3 DMA,
4 background), who made it and when, a mapped address, and the bytes it writes (none: a read of its
burst). -/
structure DramReq where
  cls : Nat
  who : Initiator
  since : Nat
  addr : Nat
  write : Option (List Nat)
deriving DecidableEq, Repr

/-- What the devices return for a read of one burst: the symbols that differ from the codeword, with
their differences, at the first read and at the re-read of R366. -/
structure BurstRead where
  errors : List (Nat × Nat)
  again : List (Nat × Nat)
deriving DecidableEq, Repr

/-- One complete training run of a subchannel (R371): every delay and every Vref it found, and whether
every lane had a passing window. -/
structure TrainRun where
  delays : List Nat
  vrefs : List Nat
  window : Bool
deriving DecidableEq, Repr
/-- The commands. -/
inductive Instr where
  | powerOnReset (t : Nat) (cold : Bool)
  | supplyMonitorTrip (t : Nat) (group : Nat)
  | islandReady (t : Nat) (isl : Nat)
  | firmwareVerified (t : Nat) (vendor : Image) (slotA : Image) (slotB : Image)
  | dictionaryReady (t : Nat)
  | canBootUp (t : Nat)
  | warmResetRequest (t : Nat) (w : Wr)
  | warmrstNLow (t : Nat) (width : Nat)
  | watchdogExpired (t : Nat) (realTime : Bool)
  | islandResetRequest (t : Nat) (w : Wr)
  | powerConditionRequest (t : Nat) (w : Wr)
  | wakeIn (t : Nat)
  | cfWakeActivity (t : Nat)
  | pgoodMainTimeout (t : Nat)
  | modeRequest (t : Nat) (w : Wr)
  | modeChangeAtBoundary (t : Nat)
  | modeTransitionEnd (t : Nat)
  | orderlyStopRequest (t : Nat) (w : Wr)
  | functionDisable (t : Nat) (f : Nat) (w : Wr)
  | functionEnable (t : Nat) (f : Nat) (w : Wr)
  | functionDrainComplete (t : Nat) (f : Nat) (queued : Nat)
  | linkInkWrite (t : Nat) (l : Nat) (w : Wr)
  | slackPeriodEnd (t : Nat) (c : Nat)
  | slackSlotGrant (t : Nat) (owner : Nat) (len : Nat) (boundary : Bool)
  | throttlePauseEnd (t : Nat) (c : Nat)
  | dictionaryWrite (t : Nat) (idx : Nat) (sub : Nat) (w : Wr)
  | stringStagingStore (t : Nat) (core : Nat) (addr : Nat) (val : Nat)
  | emcyInhibitExpiry (t : Nat)
  | eventPendingClear (t : Nat) (sub : Nat) (w : Wr)
  | eventMaskWrite (t : Nat) (sub : Nat) (w : Wr)
  | eventRouteWrite (t : Nat) (n : Nat) (w : Wr)
  | eventCountClear (t : Nat) (n : Nat) (w : Wr)
  | storeParameters (t : Nat) (w : Wr)
  | restoreDefaults (t : Nat) (w : Wr)
  | errorFieldCountClear (t : Nat) (w : Wr)
  | usdoRequest (t : Nat) (req : DictOp)
  | rpdoReceived (t : Nat) (n : Nat) (data : List Nat)
  | canSyncReceived (t : Nat)
  | tpdoEventTimer (t : Nat) (n : Nat)
  | tpdoTransmit (t : Nat) (n : Nat)
  | heartbeatProduce (t : Nat)
  | consumerHeartbeatTimeout (t : Nat) (k : Nat)
  | nmtStart (t : Nat) (node : Nat)
  | nmtStop (t : Nat) (node : Nat)
  | nmtEnterPreOperational (t : Nat) (node : Nat)
  | nmtResetCommunication (t : Nat) (node : Nat)
  | nmtResetNode (t : Nat) (node : Nat)
  | inputEdge (t : Nat) (ch : Nat) (a : Bool) (b : Bool) (nodes : List Nat)
  | analogueSample (t : Nat) (n : Nat) (sin : Int) (cos : Int) (mark : Bool) (nodes : List Nat)
  | sincosTrimCalibration (t : Nat) (n : Nat) (fit : SinCosTrim)
  | serialRead (t : Nat) (n : Nat) (datHigh : Bool)
  | serialWord (t : Nat) (n : Nat) (word : Nat) (nodes : List Nat)
  | serialTimeout (t : Nat) (n : Nat)
  | standstill (t : Nat) (ch : Nat)
  | copyLengthWrite (t : Nat) (ch : Nat) (w : Wr)
  | softLimitWrite (t : Nat) (ch : Nat) (high : Bool) (w : Wr)
  | positionPreset (t : Nat) (ch : Nat) (w : Wr)
  | channelTypeWrite (t : Nat) (ch : Nat) (w : Wr)
  | countingModeWrite (t : Nat) (ch : Nat) (w : Wr)
  | masterChannelWrite (t : Nat) (w : Wr)
  | compareValueWrite (t : Nat) (k : Nat) (w : Wr)
  | compareChannelWrite (t : Nat) (k : Nat) (w : Wr)
  | compareFiredClear (t : Nat) (w : Wr)
  | comparePulseEnd (t : Nat) (k : Nat)
  | emulationEdge (t : Nat) (k : Nat)
  | webPositionLatch (t : Nat) (path : WPath)
  | ingestData (t : Nat) (host : Host4) (data : List Nat)
  | ackInterval (t : Nat)
  | nackDelay (t : Nat) (flow : Nat)
  | nackRetry (t : Nat) (flow : Nat)
  | flowIdleTimeout (t : Nat) (flow : Nat)
  | refetchResend (t : Nat) (stream : Nat)
  | refetchDeadline (t : Nat) (stream : Nat)
  | jobDelete (t : Nat) (w : Wr)
  | stripDecodeStart (t : Nat) (lane : Nat) (stream : Nat) (strip : Nat)
  | stripDecodeEnd (t : Nat) (lane : Nat)
  | decodeResume (t : Nat) (lane : Nat)
  | inputSpoolResume (t : Nat) (lane : Nat) (w : Wr)
  | encodeCommand (t : Nat) (lane : Nat) (w : Wr)
  | encodeDone (t : Nat) (lane : Nat)
  | flushRequest (t : Nat) (lane : Nat) (w : Wr)
  | flushDone (t : Nat) (lane : Nat)
  | spoolResume (t : Nat) (lane : Nat) (w : Wr)
  | composeLine (t : Nat) (ink : Nat) (line : Nat) (parity : List Nat)
  | copyDecision (t : Nat)
  | layerCommit (t : Nat) (l : Nat) (w : Wr)
  | layerEmptyCommit (t : Nat) (l : Nat) (w : Wr)
  | fenceReached (t : Nat) (l : Nat) (w : Wr)
  | protectedLoad (t : Nat) (w : Wr)
  | protectedLayerLoaded (t : Nat)
  | decideDropLine (t : Nat) (ink : Nat) (parity : List Nat)
  | missingNozzleMark (t : Nat) (w : Wr)
  | missingNozzleClear (t : Nat) (w : Wr)
  | compensationBuild (t : Nat)
  | bankCopyRequest (t : Nat) (w : Wr)
  | bankCopyDone (t : Nat)
  | bankCommit (t : Nat) (w : Wr)
  | bankCommitChecked (t : Nat)
  | bankCommitCancel (t : Nat) (w : Wr)
  | screenArrayLoad (t : Nat) (w : Wr)
  | screenArrayCommitted (t : Nat)
  | screenArrayRelease (t : Nat) (w : Wr)
  | rowLineIssue (t : Nat)
  | telemetryTimeout (t : Nat) (l : Nat) (slot : Nat)
  | headRecovered (t : Nat) (l : Nat) (slot : Nat)
  | tickleReady (t : Nat)
  | wavePushRequest (t : Nat) (w : Wr)
  | waveAck (t : Nat) (l : Nat) (slot : Nat) (data : List Nat)
  | waveAckTimeout (t : Nat) (l : Nat) (slot : Nat)
  | wavePushCancel (t : Nat) (w : Wr)
  | waveBankSwitch (t : Nat) (ty : Nat) (w : Wr)
  | serviceSpit (t : Nat) (w : Wr)
  | servicePurge (t : Nat) (w : Wr)
  | serviceLadder (t : Nat) (w : Wr)
  | serviceCancel (t : Nat) (w : Wr)
  | spitPulse (t : Nat)
  | purgeEnd (t : Nat)
  | tempCurveWrite (t : Nat) (l : Nat) (slot : Nat) (w : Wr)
  | statusRecord (t : Nat) (l : Nat) (data : List Nat)
  | bankReport (t : Nat) (l : Nat) (slot : Nat) (data : List Nat)
  | lateRecord (t : Nat) (l : Nat) (slot : Nat) (data : List Nat)
  | rejectedRecord (t : Nat) (l : Nat) (slot : Nat) (data : List Nat)
  | nozzleFlag (t : Nat) (l : Nat) (slot : Nat) (data : List Nat)
  | cfgReply (t : Nat) (l : Nat) (slot : Nat) (data : List Nat)
  | syncEcho (t : Nat) (l : Nat) (data : List Nat) (arrival : Nat)
  | returnPacketRejected (t : Nat) (l : Nat) (cause : Nat)
  | markerLock (t : Nat) (l : Nat) (marker : Nat)
  | linkUpTimeout (t : Nat) (l : Nat)
  | trainingBlockReceived (t : Nat) (l : Nat) (block : Nat) (n : Nat)
  | linkLoss (t : Nat) (l : Nat) (cause : Nat)
  | linkRestart (t : Nat) (l : Nat) (w : Wr)
  | linkVersionLimitWrite (t : Nat) (l : Nat) (w : Wr)
  | prbsModeOn (t : Nat) (l : Nat) (w : Wr)
  | prbsModeOff (t : Nat) (l : Nat) (rx : Nat) (w : Wr)
  | amPeriod (t : Nat) (l : Nat) (errors : Nat)
  | claimSend (t : Nat)
  | headCfgRequest (t : Nat) (l : Nat) (w : Wr)
  | cfgTimeout (t : Nat) (l : Nat)
  | recalibrationRequest (t : Nat) (w : Wr)
  | recalibrationStep (t : Nat) (l : Nat) (margin : Nat)
  | csiPacket (t : Nat) (p : Nat) (pkt : CsiPacket)
  | frameEnd (t : Nat) (p : Nat)
  | frameTimeout (t : Nat) (p : Nat)
  | lineStage (t : Nat) (p : Nat)
  | frameStageTake (t : Nat) (p : Nat)
  | statisticsReady (t : Nat)
  | portCommit (t : Nat) (p : Nat) (w : Wr)
  | coefficientCommit (t : Nat) (p : Nat) (w : Wr)
  | cciRequest (t : Nat) (p : Nat) (w : Wr)
  | cciDone (t : Nat) (p : Nat) (status : Nat) (data : List Nat)
  | flatFieldCaptureRequest (t : Nat) (w : Wr)
  | flatFieldCapture (t : Nat) (p : Nat)
  | darkCapture (t : Nat) (p : Nat)
  | portRestart (t : Nat) (p : Nat) (w : Wr)
  | pulseEnd (t : Nat) (c : Nat) (sum : Nat) (n : Nat) (clip : Bool) (isns : Nat) (vsns : Nat) (vend : Nat)
  | stageCurrentFault (t : Nat) (c : Nat)
  | gapLinePulse (t : Nat)
  | diagnosticRound (t : Nat)
  | illuminationCommit (t : Nat) (w : Wr)
  | illuminationRestart (t : Nat) (w : Wr)
  | zoneCaptureRequest (t : Nat) (w : Wr)
  | overlapCalibrationRequest (t : Nat) (w : Wr)
  | substitutionCalibrationRequest (t : Nat) (w : Wr)
  | wasteVerdict (t : Nat)
  | dramAccess (t : Nat) (sc : Nat) (reqs : List DramReq) (read : BurstRead)
  | accessError (t : Nat) (who : Initiator) (addr : Nat) (write : Bool)
  | deviceMarkClear (t : Nat) (sc : Nat) (w : Wr)
  | alertN (t : Nat) (sc : Nat) (writeCrc : Bool)
  | refreshInterval (t : Nat) (sc : Nat) (busy : List Nat)
  | pageIdleTimer (t : Nat) (sc : Nat)
  | fullTraining (t : Nat) (sc : Nat) (point : Nat) (first : TrainRun) (second : TrainRun) (intact : Bool)
  | trackingStep (t : Nat) (sc : Nat) (drift : Int)
  | zqCalibration (t : Nat)
  | retrainRequest (t : Nat) (w : Wr)
  | frequencyChange (t : Nat) (took : Nat)
  | scrubUnit (t : Nat) (read : BurstRead)
  | ringAreaSizeWrite (t : Nat) (w : Wr)
  | channelStart (t : Nat) (c : Nat) (w : Wr)
  | dmaBurst (t : Nat) (bad : Option Nat)
  | move (t : Nat) (c : Nat)
  | fill (t : Nat) (c : Nat)
  | compare (t : Nat) (c : Nat)
  | loop (t : Nat) (c : Nat)
  | endloop (t : Nat) (c : Nat)
  | wait (t : Nat) (c : Nat)
  | waitEnd (t : Nat) (c : Nat)
  | waitTimeout (t : Nat) (c : Nat)
  | signal (t : Nat) (c : Nat)
  | stop (t : Nat) (c : Nat)
  | channelStop (t : Nat) (c : Nat) (w : Wr)
  | dmaTimer (t : Nat) (k : Nat)
  | softRequestWrite (t : Nat) (w : Wr)
  | ethernetFrame (t : Nat) (port : Nat) (data : List Nat) (dwell : List Nat) (fec : Nat) (fecBad : Nat)
  | arpRequest (t : Nat) (port : Nat) (mac : Nat) (ip : Nat) (target : Nat)
  | icmpEcho (t : Nat) (port : Nat) (src : Nat) (target : Nat) (ident : Nat) (seq : Nat) (data : List Nat) (fragment : Bool)
  | portLinkChange (t : Nat) (port : Nat) (up : Bool)
  | addressChange (t : Nat) (idx : Nat) (port : Nat) (w : Wr)
  | tetherHello (t : Nat) (host : Host4) (vmin : Nat) (vmax : Nat) (keyId : Nat) (nonce : List Nat) (client : Nat) (notify : Bool)
  | tetherOpen (t : Nat) (host : Host4) (data : List Nat)
  | challengeTimeout (t : Nat)
  | tetherRequest (t : Nat) (host : Host4) (data : List Nat)
  | tetherNotifyAck (t : Nat) (host : Host4) (data : List Nat)
  | notifyRetry (t : Nat) (session : Nat)
  | tetherKeepAlive (t : Nat) (host : Host4) (data : List Nat)
  | tetherClose (t : Nat) (host : Host4) (data : List Nat)
  | sessionTimeout (t : Nat) (session : Nat)
  | canBusOff (t : Nat) (txe : Nat) (rxe : Nat)
  | canAutoRecover (t : Nat)
  | canRecover (t : Nat) (w : Wr)
  | ptpSync (t : Nat) (port : Nat) (domain : Nat) (src : Nat) (logInt : Int) (origin : Nat) (corr : Int)
  | ptpAnnounce (t : Nat) (port : Nat) (domain : Nat) (src : Nat) (logInt : Int) (data : List Nat)
  | announceTimeout (t : Nat)
  | ptpDelayMessage (t : Nat) (port : Nat) (domain : Nat) (request : Bool) (sent : Nat) (remote : Nat) (corr : Int)
  | ptpMasterSync (t : Nat)
  | diodeASample (t : Nat) (code : Int)
  | diodeBSample (t : Nat) (code : Int)
  | thermalTrimReference (t : Nat) (w : Wr)
  | thermalTrimReading (t : Nat)
  | faultLogSave (t : Nat) (w : Wr)
  | calibrationRecordSave (t : Nat) (w : Wr)
  | calibrationAutoSave (t : Nat)
  | pairStart (t : Nat)
  | heartbeatSend (t : Nat)
  | heartbeatReceived (t : Nat) (nc : Bool) (data : List Nat)
  | mirrorFrame (t : Nat) (data : List Nat)
  | peerAbsent (t : Nat)
  | takeoverGuardEnd (t : Nat)
  | returnPair (t : Nat)
  | lifecycleAdvance (t : Nat) (w : Wr)
  | keyInstall (t : Nat) (w : Wr)
  | keyRevoke (t : Nat) (w : Wr)
  | tokenChallenge (t : Nat) (path : WPath)
  | roleToken (t : Nat) (w : Wr)
  | canRoleTimeout (t : Nat)
  | lockoutEnd (t : Nat) (path : Nat)
  | packageLoadFirmware (t : Nat) (w : Wr)
  | packageLoadDebugGrant (t : Nat) (w : Wr)
  | packageLoadLifecycle (t : Nat) (w : Wr)
  | packageCheckDone (t : Nat)
  | packageWriteDone (t : Nat) (readBackOk : Bool)
  | securityVersionCommit (t : Nat) (w : Wr)
  | debugLevelRequest (t : Nat) (w : Wr)
  | grantExpiry (t : Nat)
  | performanceCountersRead (t : Nat) (path : WPath)
  | jtagBypass (t : Nat) (tdi : Nat) (n : Nat)
  | jtagIdcode (t : Nat) (tdi : Nat) (n : Nat)
  | jtagSamplePreload (t : Nat) (tdi : Nat) (n : Nat)
  | jtagExtest (t : Nat) (tdi : Nat) (n : Nat) (resetLow : Bool)
  | jtagClamp (t : Nat) (tdi : Nat) (n : Nat) (resetLow : Bool)
  | jtagHighz (t : Nat) (tdi : Nat) (n : Nat) (resetLow : Bool)
  | returnClockValid (t : Nat) (l : Nat)
  | alertNDeasserted (t : Nat) (sc : Nat) (window : Nat)
  | pgoodMainHigh (t : Nat)
  | timeNowLatch (t : Nat) (path : WPath)
  | calibrationRecordWritten (t : Nat)
  | dramInitialised (t : Nat)
  | dmaTimerWidthEnd (t : Nat) (k : Nat)
deriving DecidableEq, Repr

end Sys2Proof
end

