-- ==== Sys2Proof/Machine/Entry.lean ====
section
/-! DEFINITION. Sys2Proof/Machine/Entry.lean: the form of a dictionary entry (R56): its place, type
(R14), access right (R57), write gate (R59), mode restriction (R62), default and value range (R63). -/

namespace Sys2Proof.Machine

/-- The data types of R14; the number is the width in bytes, of `domVar` the most it may have. -/
inductive Ty where
  | bool
  | u (bytes : Nat)
  | i (bytes : Nat)
  | str
  | dom (bytes : Nat)
  | domVar (most : Nat)
deriving DecidableEq, Repr

/-- Access rights (R57). -/
inductive Acc where
  | const | ro | rw | wo
deriving DecidableEq, Repr

/-- Write gates (R59). -/
inductive Gate where
  | o | i | p | v
deriving DecidableEq, Repr

/-- A default: one value, a line in the subindex or in the instance, a list over the subindices, one
value per part, or one that its own rule gives (`Machine/Defaults.lean`). -/
inductive Dflt where
  | k (v : Nat)
  | bySub (a b : Nat)
  | byInst (a b : Nat)
  | list (l : List Nat)
  | part (f h : Nat)
  | special
deriving DecidableEq, Repr

/-- A value range stated by the owning table (R63), over the unsigned or signed value. -/
inductive Rng where
  | any
  | nat (lo hi : Nat)
  | natOr (lo hi x : Nat)
  | int (lo hi : Int)
  | oneOf (l : List Nat)
  | mul (lo hi k : Nat)
  | mask (m : Nat)
deriving DecidableEq, Repr

/-- One row of the dictionary tables: indices `idx`, `idx + stride`, … (`n` of them), subindices
`s0` to `s1`. `std` marks entries restricted to Standby and Ready (S). -/
structure Entry where
  idx : Nat
  n : Nat
  stride : Nat
  s0 : Nat
  s1 : Nat
  ty : Ty
  acc : Acc
  gate : Gate
  std : Bool
  dflt : Dflt
  rng : Rng
deriving DecidableEq, Repr

/-- The row covers the coordinate. -/
def Entry.has (e : Entry) (idx sub : Nat) : Bool :=
  e.idx ≤ idx && (idx - e.idx) % e.stride == 0 && (idx - e.idx) / e.stride < e.n
    && e.s0 ≤ sub && sub ≤ e.s1

/-- Width of a type in bytes (R14); a string owns up to 2,040 bytes. -/
def Ty.bytes : Ty → Nat
  | .bool => 1
  | .u n => n
  | .i n => n
  | .str => 2040
  | .dom n => n
  | .domVar n => n

/-- The signed reading of a raw value of `bytes` bytes. -/
def signedOf (bytes v : Nat) : Int :=
  if v % 2 ^ (8 * bytes) < 2 ^ (8 * bytes - 1) then (v % 2 ^ (8 * bytes) : Nat)
  else ((v % 2 ^ (8 * bytes) : Nat) : Int) - (2 ^ (8 * bytes) : Nat)

/-- The raw value of `bytes` bytes that holds an integer in two's complement. -/
def rawOf (bytes : Nat) (v : Int) : Nat := (v % ((2 ^ (8 * bytes) : Nat) : Int)).toNat

/-- The value is one the type encodes (R14): BOOLEAN takes 0 and 1 only. -/
def Ty.encodes : Ty → Nat → Bool
  | .bool, v => v ≤ 1
  | _, _ => true

/-- The value lies in the stated range (R10, R63). -/
def Rng.admits (t : Ty) : Rng → Nat → Bool
  | .any, _ => true
  | .nat lo hi, v => lo ≤ v && v ≤ hi
  | .natOr lo hi x, v => (lo ≤ v && v ≤ hi) || v == x
  | .int lo hi, v => lo ≤ signedOf t.bytes v && signedOf t.bytes v ≤ hi
  | .oneOf l, v => l.contains v
  | .mul lo hi k, v => lo ≤ v && v ≤ hi && v % k == 0
  | .mask m, v => v &&& m == v

/-- The value of a default for instance `inst` (index blocks) and subindex offset `off`. -/
def Dflt.value (h : Bool) (inst off : Nat) : Dflt → Option Nat
  | .k v => some v
  | .bySub a b => some (a + b * off)
  | .byInst a b => some (a + b * inst)
  | .list l => some (l.getD off 0)
  | .part f hh => some (if h then hh else f)
  | .special => none

end Sys2Proof.Machine
end

