-- ==== Sys2Proof/Machine/Bits.lean ====
section
/-! DEFINITION. Sys2Proof/Machine/Bits.lean: fields, fixed point (R12, R13) and byte lists. -/

namespace Sys2Proof.Machine

/-- Bits `lo` … `lo + n - 1` of a raw value (R10). -/
def bits (v lo n : Nat) : Nat := v / 2 ^ lo % 2 ^ n

/-- Bit `i` of a raw value. -/
def bit (v i : Nat) : Bool := v / 2 ^ i % 2 == 1

/-- A raw value with bit `i` set to `b`. -/
def setBit (v i : Nat) (b : Bool) : Nat :=
  if bit v i == b then v else if b then v + 2 ^ i else v - 2 ^ i

/-- Reduces `n` fractional bits, rounding to nearest with ties toward plus infinity (R13). -/
def roundShift (v : Int) (n : Nat) : Int :=
  if n = 0 then v else (v + (2 ^ (n - 1) : Nat)) / ((2 ^ n : Nat) : Int)

/-- Divides, rounding to nearest with ties toward plus infinity (R13); a divisor of 0 gives 0. -/
def roundDiv (v : Int) (d : Nat) : Int := if d = 0 then 0 else (2 * v + d) / ((2 * d : Nat) : Int)

/-- Saturates to a range (R13). -/
def clampInt (lo hi v : Int) : Int := if v < lo then lo else if hi < v then hi else v

/-- Saturates a signed result to a natural range from 0. -/
def clampNat (hi : Nat) (v : Int) : Nat := (clampInt 0 hi v).toNat

/-- Ceiling of a quotient of naturals. -/
def ceilDiv (a b : Nat) : Nat := (a + b - 1) / b

/-- Little-endian value of a byte list (R11). -/
def leNat : List Nat → Nat
  | [] => 0
  | b :: bs => b % 256 + 256 * leNat bs

/-- Big-endian value of a byte list, for fields of published standards (R11). -/
def beNat (l : List Nat) : Nat := leNat l.reverse

/-- The `n` little-endian bytes of a value (R11). -/
def leBytes : Nat → Nat → List Nat
  | 0, _ => []
  | n + 1, v => v % 256 :: leBytes n (v / 256)

/-- The `n` big-endian bytes of a value. -/
def beBytes (n v : Nat) : List Nat := (leBytes n v).reverse

/-- The little-endian field of `n` bytes at offset `o` of a byte list; absent bytes are 0. -/
def field (l : List Nat) (o n : Nat) : Nat := leNat ((l.drop o).take n)

/-- A byte list of any length as one value: its little-endian value closed by a byte 1. -/
def closeBytes (l : List Nat) : Nat := leNat (l ++ [1])

/-- The byte list that a closed value holds; none in 0. -/
def openBytes (v : Nat) : List Nat := leBytes (v.log2 / 8) v

/-- The big-endian field of `n` bytes at offset `o`. -/
def fieldBE (l : List Nat) (o n : Nat) : Nat := beNat ((l.drop o).take n)

/-- One step of a counter of `bytes` bytes (notes/assumptions/10.md: it wraps). -/
def bump (bytes v : Nat) : Nat := (v + 1) % 2 ^ (8 * bytes)

/-- The i-th element of a list, changed by a function; no change past its end. -/
def modAt {α : Type} (l : List α) (i : Nat) (f : α → α) : List α :=
  match l[i]? with
  | some x => l.set i (f x)
  | none => l

/-- One byte into the reflected CRC-32 register, bit by bit (R147). -/
def crc32Bits : Nat → Nat → Nat
  | 0, r => r
  | n + 1, r => crc32Bits n (if r % 2 = 1 then (r / 2) ^^^ 0xEDB88320 else r / 2)

/-- CRC-32 register after a list of bytes. -/
def crc32Run : Nat → List Nat → Nat
  | r, [] => r
  | r, b :: bs => crc32Run (crc32Bits 8 (r ^^^ (b % 256))) bs

/-- The CRC-32 of R147: reflected polynomial 0x04C1_1DB7, initial and final all ones. -/
def crc32 (l : List Nat) : Nat := crc32Run 0xFFFFFFFF l ^^^ 0xFFFFFFFF

end Sys2Proof.Machine
end

