-- ==== Sys2Proof/Machine/Angle.lean ====
section
/-! DEFINITION. Sys2Proof/Machine/Angle.lean: the angle of a sine/cosine pair in 4096 steps per period,
rounded to nearest (R106), found exactly by comparing the pair with the step boundaries. -/

namespace Sys2Proof.Machine

/-- Fixed-point scale of the boundary directions: 2^192. -/
abbrev angScale : Nat := 2 ^ 192

/-- Cosine and sine of one boundary unit, a period ÷ 8192, scaled. -/
abbrev unitCos : Int := 6277099889058068300089942835818948477163147004921726560242
abbrev unitSin : Int := 4814476260804614006944526261363100386927528787742114652

/-- Product of two scaled directions. -/
def dirMul (x y : Int × Int) : Int × Int :=
  (roundShift (x.1 * y.1 - x.2 * y.2) 192, roundShift (x.1 * y.2 + x.2 * y.1) 192)

/-- The direction of `n` boundary units, by repeated squaring over `fuel` bits. -/
def dirPow : Nat → Nat → Int × Int → Int × Int → Int × Int
  | 0, _, _, acc => acc
  | fuel + 1, n, sq, acc =>
    dirPow fuel (n / 2) (dirMul sq sq) (if n % 2 = 1 then dirMul acc sq else acc)

/-- The boundary between steps k and k + 1: (2k + 1) units. -/
def boundaryDir (k : Nat) : Int × Int := dirPow 13 (2 * k + 1) (unitCos, unitSin) (angScale, 0)

/-- How many of the boundaries `lo` … `lo + 2^fuel - 1` a direction of the first quadrant has reached, by
bisection. -/
def stepsReached (x y : Int) : Nat → Nat → Nat
  | 0, lo =>
    let b := boundaryDir lo
    if y * b.1 - x * b.2 ≥ 0 then lo + 1 else lo
  | fuel + 1, lo =>
    let b := boundaryDir (lo + 2 ^ fuel - 1)
    if y * b.1 - x * b.2 ≥ 0 then stepsReached x y fuel (lo + 2 ^ fuel)
    else stepsReached x y fuel lo

/-- Steps of a direction in the first quadrant (x > 0, y ≥ 0): 0 to 1024. -/
def quadrantSteps (x y : Int) : Nat := min 1024 (stepsReached x y 10 0)

/-- atan2(s, c) in 4096 steps per period, rounded to nearest (R106). -/
def angleSteps (s c : Int) : Nat :=
  if 0 < c ∧ 0 ≤ s then quadrantSteps c s % 4096
  else if c ≤ 0 ∧ 0 < s then (1024 + quadrantSteps s (-c)) % 4096
  else if c < 0 ∧ s ≤ 0 then (2048 + quadrantSteps (-c) (-s)) % 4096
  else (3072 + quadrantSteps (-s) c) % 4096

/-- Rounded square root. -/
def roundSqrt (n : Nat) : Nat :=
  let r := Nat.sqrt n
  if r * r + r < n then r + 1 else r

end Sys2Proof.Machine
end

