-- ==== Sys2Proof/Machine/Crypto.lean ====
section
/-! DEFINITION. Sys2Proof/Machine/Crypto.lean: SHA-256, SHA-384, HMAC-SHA-256 and the ECDSA P-384 check that
R411, R458, R460 and R461 name. The functions themselves are the published standards', not the spec's
(notes/assumptions/27.md). -/

namespace Sys2Proof.Machine

/-- The first 80 primes, from which the standard takes its round constants. -/
def shaPrimes : List Nat :=
  ((List.range 410).filter fun n => 2 ≤ n && (List.range 21).all fun d => d < 2 || n ≤ d || n % d != 0).take 80

/-- The largest r below 2^(i+1) past `r` with r^k ≤ v, bit by bit. -/
def rootFrom (k v : Nat) : Nat → Nat → Nat
  | 0, r => r
  | i + 1, r => rootFrom k v i (if (r + 2 ^ i) ^ k ≤ v then r + 2 ^ i else r)

/-- 64 fraction bits of the k-th root of a prime. -/
def rootFrac (k p : Nat) : Nat := rootFrom k (p * 2 ^ (64 * k)) 72 0 % 2 ^ 64

/-- Parameters of a SHA-2 function: word bits, rounds, rotations of Σ0, Σ1, σ0, σ1 (the last of σ is a
shift). -/
structure Sha where
  bits : Nat
  rounds : Nat
  big0 : Nat × Nat × Nat
  big1 : Nat × Nat × Nat
  small0 : Nat × Nat × Nat
  small1 : Nat × Nat × Nat

def sha256Fn : Sha := ⟨32, 64, (2, 13, 22), (6, 11, 25), (7, 18, 3), (17, 19, 10)⟩
def sha512Fn : Sha := ⟨64, 80, (28, 34, 39), (14, 18, 41), (1, 8, 7), (19, 61, 6)⟩

/-- Rotation right of a word. -/
def rotr (w n x : Nat) : Nat := x / 2 ^ n + x % 2 ^ n * 2 ^ (w - n)

def Sha.bigS (h : Sha) (r : Nat × Nat × Nat) (x : Nat) : Nat :=
  rotr h.bits r.1 x ^^^ rotr h.bits r.2.1 x ^^^ rotr h.bits r.2.2 x

def Sha.smallS (h : Sha) (r : Nat × Nat × Nat) (x : Nat) : Nat :=
  rotr h.bits r.1 x ^^^ rotr h.bits r.2.1 x ^^^ (x / 2 ^ r.2.2)

/-- The message schedule, newest word first. -/
def Sha.schedule (h : Sha) : Nat → List Nat → List Nat
  | 0, ws => ws
  | n + 1, ws =>
    Sha.schedule h n
      (((h.smallS h.small1 (ws.getD 1 0) + ws.getD 6 0 + h.smallS h.small0 (ws.getD 14 0) + ws.getD 15 0)
        % 2 ^ h.bits) :: ws)

/-- One round on the eight working words. -/
def Sha.round (h : Sha) (v : List Nat) (kw : Nat) : List Nat :=
  match v with
  | [a, b, c, d, e, f, g, x] =>
    let t1 := x + h.bigS h.big1 e + ((e &&& f) ^^^ ((2 ^ h.bits - 1 - e) &&& g)) + kw
    let t2 := h.bigS h.big0 a + ((a &&& b) ^^^ (a &&& c) ^^^ (b &&& c))
    [(t1 + t2) % 2 ^ h.bits, a, b, c, (d + t1) % 2 ^ h.bits, e, f, g]
  | _ => v

/-- One block of 16 words. -/
def Sha.block (h : Sha) (ks st ws : List Nat) : List Nat :=
  let all := (h.schedule (h.rounds - 16) ws.reverse).reverse
  let out := (ks.zip all).foldl (fun v kw => h.round v (kw.1 + kw.2)) st
  (st.zip out).map fun p => (p.1 + p.2) % 2 ^ h.bits

/-- Big-endian words of a byte list, `n` of them. -/
def beWords (size : Nat) : Nat → List Nat → List Nat
  | 0, _ => []
  | n + 1, l => beNat (l.take size) :: beWords size n (l.drop size)

/-- The blocks of a padded message. -/
def Sha.blocks (h : Sha) (ks : List Nat) : Nat → List Nat → List Nat → List Nat
  | 0, st, _ => st
  | n + 1, st, l =>
    Sha.blocks h ks n (h.block ks st (beWords (h.bits / 8) 16 l)) (l.drop (2 * h.bits))

/-- The digest state of a message from an initial state. -/
def Sha.run (h : Sha) (st msg : List Nat) : List Nat :=
  let size := 2 * h.bits
  let tail := h.bits / 4
  let fill := (size - (msg.length + 1 + tail) % size) % size
  let l := msg ++ [0x80] ++ List.replicate fill 0 ++ beBytes tail (8 * msg.length)
  let ks := (shaPrimes.take h.rounds).map fun p => rootFrac 3 p / 2 ^ (64 - h.bits)
  h.blocks ks (l.length / size) st l

/-- SHA-256. -/
def sha256 (msg : List Nat) : List Nat :=
  (sha256Fn.run ((shaPrimes.take 8).map fun p => rootFrac 2 p / 2 ^ 32) msg).flatMap (beBytes 4)

/-- SHA-384. -/
def sha384 (msg : List Nat) : List Nat :=
  ((sha512Fn.run (((shaPrimes.drop 8).take 8).map (rootFrac 2)) msg).flatMap (beBytes 8)).take 48

/-- HMAC-SHA-256 under a key of at most 64 bytes. -/
def hmac256 (key msg : List Nat) : List Nat :=
  let k := key ++ List.replicate (64 - key.length) 0
  sha256 (k.map (· ^^^ 0x5C) ++ sha256 (k.map (· ^^^ 0x36) ++ msg))

/-- The prime, order, coefficient and base point of P-384. -/
def p384 : Nat := 2 ^ 384 - 2 ^ 128 - 2 ^ 96 + 2 ^ 32 - 1
def n384 : Nat := 0xFFFFFFFFFFFFFFFFFFFFFFFFFFFFFFFFFFFFFFFFFFFFFFFFC7634D81F4372DDF581A0DB248B0A77AECEC196ACCC52973
def b384 : Nat := 0xB3312FA7E23EE7E4988E056BE3F82D19181D9C6EFE8141120314088F5013875AC656398D8A2ED19D2A85C8EDD3EC2AEF
def gx384 : Nat := 0xAA87CA22BE8B05378EB1C71EF320AD746E1D3B628BA79B9859F741E082542A385502F25DBF55296C3A545E3872760AB7
def gy384 : Nat := 0x3617DE4A96262C6F5D9E98BF9292DC29F8F41DBD289A147CE9DA3113B5F0B8C00A60B1CE1D7E819D7A431D7C90EA0E5F

/-- Powers modulo m, over the exponent's `n` low bits from the top. -/
def powMod (m b e : Nat) : Nat → Nat → Nat
  | 0, acc => acc
  | n + 1, acc =>
    let sq := acc * acc % m
    powMod m b e n (if bit e n then sq * b % m else sq)

/-- Inverse modulo a prime of at most 384 bits. -/
def invMod (m a : Nat) : Nat := powMod m a (m - 2) 384 1

/-- A point in Jacobian coordinates; z = 0 is the point at infinity. -/
structure Jac where
  x : Nat
  y : Nat
  z : Nat

def mulP (a b : Nat) : Nat := a * b % p384
def subP (a b : Nat) : Nat := (a + p384 - b % p384) % p384

def Jac.double (q : Jac) : Jac :=
  if q.z = 0 || q.y = 0 then ⟨1, 1, 0⟩
  else
    let zz := mulP q.z q.z
    let m := mulP 3 (mulP (subP q.x zz) ((q.x + zz) % p384))
    let yy := mulP q.y q.y
    let s := mulP 4 (mulP q.x yy)
    let x := subP (mulP m m) (2 * s)
    ⟨x, subP (mulP m (subP s x)) (mulP 8 (mulP yy yy)), mulP 2 (mulP q.y q.z)⟩

def Jac.add (a b : Jac) : Jac :=
  if a.z = 0 then b
  else if b.z = 0 then a
  else
    let za := mulP a.z a.z
    let zb := mulP b.z b.z
    let u1 := mulP a.x zb
    let u2 := mulP b.x za
    let s1 := mulP a.y (mulP zb b.z)
    let s2 := mulP b.y (mulP za a.z)
    if u1 = u2 then (if s1 = s2 then a.double else ⟨1, 1, 0⟩)
    else
      let h := subP u2 u1
      let r := subP s2 s1
      let hh := mulP h h
      let hhh := mulP h hh
      let v := mulP u1 hh
      let x := subP (subP (mulP r r) hhh) (2 * v)
      ⟨x, subP (mulP r (subP v x)) (mulP s1 hhh), mulP h (mulP a.z b.z)⟩

/-- k × q, over the `n` low bits of k from the top. -/
def Jac.times (q : Jac) (k : Nat) : Nat → Jac → Jac
  | 0, acc => acc
  | n + 1, acc => Jac.times q k n (if bit k n then acc.double.add q else acc.double)

/-- A public key names a point of the curve. -/
def onCurve (x y : Nat) : Bool :=
  x < p384 && y < p384 && mulP y y == (mulP x (mulP x x) + subP b384 (mulP 3 x)) % p384

/-- The ECDSA P-384 check of a signature over a digest (R461). -/
def ecdsaHolds (key digest sig : List Nat) : Bool :=
  let qx := beNat (key.take 48)
  let qy := beNat ((key.drop 48).take 48)
  let r := beNat (sig.take 48)
  let s := beNat ((sig.drop 48).take 48)
  let w := invMod n384 s
  let u1 := beNat digest * w % n384
  let u2 := r * w % n384
  let q := (Jac.times ⟨gx384, gy384, 1⟩ u1 384 ⟨1, 1, 0⟩).add (Jac.times ⟨qx, qy, 1⟩ u2 384 ⟨1, 1, 0⟩)
  let zi := invMod p384 q.z
  onCurve qx qy && 0 < r && r < n384 && 0 < s && s < n384 && q.z != 0
    && mulP q.x (mulP zi zi) % n384 == r

end Sys2Proof.Machine
end

