-- ==== Sys2Proof/Machine/Keys.lean ====
section
/-! DEFINITION. Sys2Proof/Machine/Keys.lean: the coordinate of each dictionary entry, as index × 256 +
subindex (R56), under the entry's own name. Of an array or a per-instance block it is the coordinate
of the first: add the offset of the subindex, or the block stride × 256 (R65). -/

namespace Sys2Proof.Machine.K

abbrev DeviceType : Nat := 0x100000
abbrev ErrorRegister : Nat := 0x100100
abbrev ErrorFieldCount : Nat := 0x100300
abbrev PredefinedErrorField : Nat := 0x100301
abbrev SyncCobId : Nat := 0x100500
abbrev DeviceName : Nat := 0x100800
abbrev HardwareVersion : Nat := 0x100900
abbrev SoftwareVersion : Nat := 0x100A00
abbrev StoreParameters : Nat := 0x101001
abbrev RestoreDefaults : Nat := 0x101101
abbrev EmcyCobId : Nat := 0x101400
abbrev EmcyInhibitTime : Nat := 0x101500
abbrev ConsumerHeartbeatTime : Nat := 0x101601
abbrev ProducerHeartbeatTime : Nat := 0x101700
abbrev VendorId : Nat := 0x101801
abbrev ProductCode : Nat := 0x101802
abbrev RevisionNumber : Nat := 0x101803
abbrev SerialNumber : Nat := 0x101804
abbrev CommErrorBehaviour : Nat := 0x102901
abbrev RpdoCobId : Nat := 0x140001
abbrev RpdoTransmission : Nat := 0x140002
abbrev RpdoMappingCount : Nat := 0x160000
abbrev RpdoMapping : Nat := 0x160001
abbrev TpdoCobId : Nat := 0x180001
abbrev TpdoTransmission : Nat := 0x180002
abbrev TpdoInhibitTime : Nat := 0x180003
abbrev TpdoEventTimer : Nat := 0x180005
abbrev TpdoMappingCount : Nat := 0x1A0000
abbrev TpdoMapping : Nat := 0x1A0001
abbrev DictionaryVersion : Nat := 0x200101
abbrev PartVariant : Nat := 0x200102
abbrev CanClientDictionaryVersion : Nat := 0x200103
abbrev CompatibilityCount : Nat := 0x200104
abbrev DictionaryCompatibility : Nat := 0x200201
abbrev ModeRequest : Nat := 0x201001
abbrev ModeActual : Nat := 0x201002
abbrev ModePending : Nat := 0x201003
abbrev ModeRefusalCode : Nat := 0x201004
abbrev ModeChangeCopy : Nat := 0x201005
abbrev ModeLeadLines : Nat := 0x201006
abbrev OrderlyStopRequest : Nat := 0x201007
abbrev PowerConditionRequest : Nat := 0x201008
abbrev ModeTransitionActive : Nat := 0x201009
abbrev ModeQueued : Nat := 0x20100A
abbrev StopReason : Nat := 0x201101
abbrev StopCount : Nat := 0x201102
abbrev FunctionEnable : Nat := 0x202001
abbrev FunctionStatus : Nat := 0x202101
abbrev DiscardedUnits : Nat := 0x202201
abbrev FunctionRefusalCode : Nat := 0x202301
abbrev LinkInk : Nat := 0x203001
abbrev InkLinkMask : Nat := 0x203101
abbrev SlackSlotLength : Nat := 0x205001
abbrev SlackPeriod : Nat := 0x205101
abbrev SlackBacklog : Nat := 0x205201
abbrev SlackMissedPeriods : Nat := 0x205301
abbrev EventPending : Nat := 0x210001
abbrev EventMask : Nat := 0x210101
abbrev WindowAbortCode : Nat := 0x210201
abbrev EmcyDropped : Nat := 0x210301
abbrev TetherNotifyDropped : Nat := 0x210302
abbrev EventRoute : Nat := 0x211001
abbrev EventCount : Nat := 0x212001
abbrev FaultThreshold : Nat := 0x214001
abbrev FaultWindow : Nat := 0x214101
abbrev FaultLogIndex : Nat := 0x214201
abbrev FaultLogSave : Nat := 0x214202
abbrev LastFaultSource : Nat := 0x214203
abbrev TransientCount : Nat := 0x214204
abbrev PermanentCount : Nat := 0x214205
abbrev IslandReady : Nat := 0x220001
abbrev IslandReadyTime : Nat := 0x220101
abbrev ResetCause : Nat := 0x220201
abbrev WarmResetCount : Nat := 0x220202
abbrev DramRetained : Nat := 0x220203
abbrev DramTrained : Nat := 0x220204
abbrev WarmResetRequest : Nat := 0x220301
abbrev IslandResetRequest : Nat := 0x220302
abbrev NmtNodeResetMode : Nat := 0x220303
abbrev PreReadyFrames : Nat := 0x220401
abbrev PreReadyCameraFrames : Nat := 0x220404
abbrev MasterChannel : Nat := 0x230001
abbrev MasterBackupChannel : Nat := 0x230002
abbrev MinEdgeSpacing : Nat := 0x230003
abbrev WebPosition : Nat := 0x230101
abbrev WebTotal : Nat := 0x230102
abbrev CopyCount : Nat := 0x230103
abbrev WebSpeedActual : Nat := 0x230104
abbrev SpeedValid : Nat := 0x230105
abbrev SampleSeconds : Nat := 0x230106
abbrev SampleNanoseconds : Nat := 0x230107
abbrev SampleFraction : Nat := 0x230108
abbrev MasterStatus : Nat := 0x230109
abbrev ActiveMaster : Nat := 0x23010A
abbrev PositionEventChannel : Nat := 0x230201
abbrev ChannelType : Nat := 0x231001
abbrev CountingMode : Nat := 0x231101
abbrev CountPitch : Nat := 0x231201
abbrev CopyLength : Nat := 0x231301
abbrev SoftLimitLow : Nat := 0x231401
abbrev SoftLimitHigh : Nat := 0x231501
abbrev ReferenceMode : Nat := 0x231601
abbrev ReferenceAction : Nat := 0x231701
abbrev ReferenceValue : Nat := 0x231801
abbrev TeethPerReference : Nat := 0x231901
abbrev GapRatio : Nat := 0x231A01
abbrev InputFilter : Nat := 0x231B01
abbrev StandstillTimeout : Nat := 0x231C01
abbrev SpeedMinSpan : Nat := 0x231D01
abbrev DirectionInvert : Nat := 0x231E01
abbrev PositionPreset : Nat := 0x231F01
abbrev ChannelPosition : Nat := 0x232001
abbrev ChannelTotal : Nat := 0x232101
abbrev ChannelSpeed : Nat := 0x232201
abbrev PosChannelStatus : Nat := 0x232301
abbrev ReferenceDeviation : Nat := 0x232401
abbrev AxisOvertravel : Nat := 0x232501
abbrev ChannelCopyCount : Nat := 0x232601
abbrev AnalogueRadius : Nat := 0x233001
abbrev SinOffset : Nat := 0x233101
abbrev CosOffset : Nat := 0x233201
abbrev CosGain : Nat := 0x233301
abbrev PhaseTrim : Nat := 0x233401
abbrev ReferenceQuadrant : Nat := 0x233501
abbrev SerialClockDivider : Nat := 0x234001
abbrev SerialFrame : Nat := 0x234101
abbrev SerialCrcPolynomial : Nat := 0x234201
abbrev SerialCrcInit : Nat := 0x234301
abbrev SerialCrcFinalXor : Nat := 0x234401
abbrev SerialReadPeriod : Nat := 0x234501
abbrev SerialTimeout : Nat := 0x234601
abbrev SerialSampleDelay : Nat := 0x234701
abbrev SerialRecovery : Nat := 0x234801
abbrev CompareChannel : Nat := 0x235001
abbrev CompareValue : Nat := 0x235101
abbrev CompareControl : Nat := 0x235201
abbrev CompareStep : Nat := 0x235301
abbrev CompareTime : Nat := 0x235401
abbrev CompareFired : Nat := 0x235501
abbrev CompareBehindFlags : Nat := 0x235502
abbrev CompareArmed : Nat := 0x235503
abbrev ComparePulseWidth : Nat := 0x235601
abbrev EmulationSource : Nat := 0x236001
abbrev EmulationPitch : Nat := 0x236101
abbrev EmulationZMode : Nat := 0x236201
abbrev EmulationZInterval : Nat := 0x236301
abbrev EmulationBacklog : Nat := 0x236401
abbrev EmulationDroppedEdges : Nat := 0x236501
abbrev EmulationMaxLag : Nat := 0x236601
abbrev EmulationLatency : Nat := 0x236701
abbrev SkeinReadVersionMin : Nat := 0x240001
abbrev SkeinReadVersionMax : Nat := 0x240002
abbrev SkeinWriteVersion : Nat := 0x240003
abbrev DecodeLanesWorking : Nat := 0x240004
abbrev DecodeCapacity : Nat := 0x240005
abbrev StateSlotCount : Nat := 0x240006
abbrev JobStoreBase : Nat := 0x240101
abbrev JobStoreSize : Nat := 0x240102
abbrev JobStoreFree : Nat := 0x240103
abbrev JobCount : Nat := 0x240104
abbrev ExtentSize : Nat := 0x240105
abbrev JobDelete : Nat := 0x240106
abbrev StripsDecoded : Nat := 0x241001
abbrev StripCrcFailures : Nat := 0x241002
abbrev StripDecodeFailures : Nat := 0x241003
abbrev StripsRefetched : Nat := 0x241004
abbrev BandsBlanked : Nat := 0x241005
abbrev DecodeBehindCount : Nat := 0x241006
abbrev RawLinesDecoded : Nat := 0x241007
abbrev LastFailedStream : Nat := 0x241008
abbrev LastFailedStrip : Nat := 0x241009
abbrev LastFailReason : Nat := 0x24100A
abbrev DecodeLaneStatus : Nat := 0x241101
abbrev DecodeLaneStream : Nat := 0x241201
abbrev InputSpoolResume : Nat := 0x241301
abbrev DecodeLaneFaults : Nat := 0x241401
abbrev EncodeCommand : Nat := 0x242001
abbrev EncodeStatus : Nat := 0x242101
abbrev FlushRequest : Nat := 0x242201
abbrev SpoolResume : Nat := 0x242301
abbrev EncodeBitsOut : Nat := 0x242401
abbrev EncodeRawLines : Nat := 0x242501
abbrev StretchAcross : Nat := 0x250001
abbrev StretchAlong : Nat := 0x250002
abbrev StretchCentreAcross : Nat := 0x250003
abbrev StretchAcrossActual : Nat := 0x250004
abbrev StretchAlongActual : Nat := 0x250005
abbrev DecidedCopy : Nat := 0x250101
abbrev FlipCount : Nat := 0x250102
abbrev LateLayerCount : Nat := 0x250103
abbrev CompositorBehindCount : Nat := 0x250104
abbrev MinLeadLines : Nat := 0x250105
abbrev BankInForce : Nat := 0x260001
abbrev BankStaging : Nat := 0x260002
abbrev BankInForceVersion : Nat := 0x260003
abbrev BankInForceSince : Nat := 0x260004
abbrev NozzleCount : Nat := 0x260005
abbrev BankCommit : Nat := 0x260101
abbrev BankCommitCancel : Nat := 0x260102
abbrev BankCommitState : Nat := 0x260103
abbrev BankCommitRefusal : Nat := 0x260104
abbrev BankCommitCopy : Nat := 0x260105
abbrev BankCopyRequest : Nat := 0x260106
abbrev BankCopyBusy : Nat := 0x260107
abbrev BankWritesDiscarded : Nat := 0x260108
abbrev BankOwner : Nat := 0x260109
abbrev WaveMap2 : Nat := 0x260201
abbrev WaveMap4 : Nat := 0x260301
abbrev WaveMap2InForce : Nat := 0x260401
abbrev WaveMap4InForce : Nat := 0x260501
abbrev InkLimit : Nat := 0x260601
abbrev InkLimitTotal : Nat := 0x260701
abbrev InkLimitMask : Nat := 0x260702
abbrev InkLimitColumns : Nat := 0x260801
abbrev CompensationClipped : Nat := 0x260802
abbrev ToneParityErrors : Nat := 0x260803
abbrev LinesDecided : Nat := 0x260804
abbrev ScreenArrayLoad : Nat := 0x261001
abbrev ScreenArrayRelease : Nat := 0x261002
abbrev ScreenLoadState : Nat := 0x261003
abbrev ScreenLoadRefusal : Nat := 0x261004
abbrev ScreenUnitsFree : Nat := 0x261005
abbrev ScreenSlotState : Nat := 0x261101
abbrev ScreenSelect4State : Nat := 0x261401
abbrev ScreenSelect16State : Nat := 0x261501
abbrev AcrossPhase : Nat := 0x261601
abbrev AlongPhase : Nat := 0x261701
abbrev NeighbourGain : Nat := 0x263001
abbrev MissingCount : Nat := 0x263002
abbrev MissingNozzleMark : Nat := 0x263003
abbrev MissingNozzleClear : Nat := 0x263004
abbrev UncoveredGaps : Nat := 0x263005
abbrev SourceMask : Nat := 0x263006
abbrev SubstituteInk : Nat := 0x263101
abbrev SubstituteWeight : Nat := 0x263201
abbrev PrintOrigin : Nat := 0x270001
abbrev IssueLead : Nat := 0x270002
abbrev FireMinLead : Nat := 0x270003
abbrev PredictionWindow : Nat := 0x270004
abbrev PredictionAccelLimit : Nat := 0x270005
abbrev TelemetryTimeout : Nat := 0x270006
abbrev TickleReadyRate : Nat := 0x270007
abbrev HeadRecoverTime : Nat := 0x270008
abbrev HeadTempHysteresis : Nat := 0x270009
abbrev WaveAckTimeout : Nat := 0x27000A
abbrev RowLinesIssued : Nat := 0x270101
abbrev FireLateCount : Nat := 0x270102
abbrev LinesSkippedCount : Nat := 0x270103
abbrev PredictionFaultCount : Nat := 0x270104
abbrev RingUnderrunCount : Nat := 0x270105
abbrev LinesRejectedCount : Nat := 0x270106
abbrev PredictionErrorMaxCopy : Nat := 0x270107
abbrev PredictionErrorMax : Nat := 0x270108
abbrev AccelerationActual : Nat := 0x270109
abbrev FiringEventSlot : Nat := 0x270201
abbrev WavePushRequest : Nat := 0x271001
abbrev WavePushVersion : Nat := 0x271002
abbrev WavePushState : Nat := 0x271003
abbrev WavePushRefusal : Nat := 0x271004
abbrev WavePushFailSlot : Nat := 0x271005
abbrev WavePushCancel : Nat := 0x271006
abbrev WaveVersionInForce : Nat := 0x271101
abbrev WaveVersionStaged : Nat := 0x271201
abbrev WaveBankSwitch : Nat := 0x271301
abbrev WaveSwitchCopy : Nat := 0x271401
abbrev ServicePattern : Nat := 0x274001
abbrev ServiceState : Nat := 0x274002
abbrev ServiceInkMask : Nat := 0x274003
abbrev SpitCode : Nat := 0x274004
abbrev SpitCount : Nat := 0x274005
abbrev SpitRate : Nat := 0x274006
abbrev PurgeDuration : Nat := 0x274007
abbrev LadderPitch : Nat := 0x274008
abbrev LadderRungLines : Nat := 0x274009
abbrev LadderRungGap : Nat := 0x27400A
abbrev LadderCode : Nat := 0x27400B
abbrev LadderStartTotal : Nat := 0x27400C
abbrev ServiceLastResult : Nat := 0x27400D
abbrev NozzleFlagKindMask : Nat := 0x275001
abbrev NozzleFlagsReceived : Nat := 0x275002
abbrev NozzleFlagsAdded : Nat := 0x275003
abbrev HalyardVersionMin : Nat := 0x280001
abbrev HalyardVersionMax : Nat := 0x280002
abbrev AlignmentPeriod : Nat := 0x280003
abbrev LinkUpTimeout : Nat := 0x280004
abbrev LaneErrorLossLimit : Nat := 0x280005
abbrev EchoInterval : Nat := 0x280006
abbrev EchoTolerance : Nat := 0x280007
abbrev MarginLow : Nat := 0x280008
abbrev MarginMin : Nat := 0x280009
abbrev CfgTimeout : Nat := 0x28000A
abbrev LinksUp : Nat := 0x28000B
abbrev LinksRetired : Nat := 0x28000C
abbrev RecalibrationRequest : Nat := 0x28000D
abbrev CameraLinePitch : Nat := 0x290001
abbrev CameraOffset : Nat := 0x290002
abbrev FrameLines : Nat := 0x290003
abbrev FrameGapLines : Nat := 0x290004
abbrev BandSequence : Nat := 0x290005
abbrev MergeRatio : Nat := 0x290006
abbrev MergeThreshold : Nat := 0x290007
abbrev FlatTarget : Nat := 0x290008
abbrev ZoneWidth : Nat := 0x290009
abbrev RungMargin : Nat := 0x29000A
abbrev DarkLinesPerCapture : Nat := 0x29000B
abbrev DarkTolerance : Nat := 0x29000C
abbrev FlatFramesPerCapture : Nat := 0x29000D
abbrev FlatTolerance : Nat := 0x29000E
abbrev FlatFieldCaptureRequest : Nat := 0x29000F
abbrev CalibrationState : Nat := 0x290010
abbrev FrameTimeout : Nat := 0x290011
abbrev FramesInFrameStage : Nat := 0x290012
abbrev ColumnWriteIndex : Nat := 0x290013
abbrev InspectionEventPort : Nat := 0x290101
abbrev CoefficientCommit : Nat := 0x290301
abbrev CoefficientCommitRefusal : Nat := 0x290401
abbrev IlluminationState : Nat := 0x2A0001
abbrev IlluminationCommit : Nat := 0x2A0002
abbrev IlluminationCommitRefusal : Nat := 0x2A0003
abbrev PulseDelay : Nat := 0x2A0004
abbrev RowRelease : Nat := 0x2A0005
abbrev PrechargeTime : Nat := 0x2A0006
abbrev PrechargeTolerance : Nat := 0x2A0007
abbrev ExposureSplit : Nat := 0x2A0008
abbrev FlashWidth : Nat := 0x2A0009
abbrev OpenCurrentFraction : Nat := 0x2A000A
abbrev ShortVoltageFraction : Nat := 0x2A000B
abbrev VfTolerance : Nat := 0x2A000C
abbrev IlluminationRestart : Nat := 0x2A000D
abbrev OffCause : Nat := 0x2A000E
abbrev OffString : Nat := 0x2A000F
abbrev IlluminationInvalidSince : Nat := 0x2A0010
abbrev StageSenseGain : Nat := 0x2A0101
abbrev VoltageSenseGain : Nat := 0x2A0201
abbrev StageCurrentMax : Nat := 0x2A0301
abbrev UnlitLines : Nat := 0x2A0401
abbrev PrechargeFaults : Nat := 0x2A0402
abbrev LastUnlitLabel : Nat := 0x2A0403
abbrev DiagnosticPulses : Nat := 0x2A0404
abbrev SensorOutOfRangeCount : Nat := 0x2A0405
abbrev IlluminationEventString : Nat := 0x2A0501
abbrev LoopState : Nat := 0x2B0001
abbrev FreezeCause : Nat := 0x2B0002
abbrev LadderInterval : Nat := 0x2B0003
abbrev LadderStartLine : Nat := 0x2B0004
abbrev ZoneWindowStart : Nat := 0x2B0005
abbrev ZoneWindowEnd : Nat := 0x2B0006
abbrev LadderStep : Nat := 0x2B0007
abbrev ZoneStep : Nat := 0x2B0008
abbrev GainMin : Nat := 0x2B0009
abbrev GainMax : Nat := 0x2B000A
abbrev LadderAgreement : Nat := 0x2B000B
abbrev ZoneAgreement : Nat := 0x2B000C
abbrev ZoneMinAbsorbance : Nat := 0x2B000D
abbrev MissingDensity : Nat := 0x2B000E
abbrev DeviationLimit : Nat := 0x2B000F
abbrev LadderCode4State : Nat := 0x2B0010
abbrev LadderCode16State : Nat := 0x2B0011
abbrev ZoneCaptureRequest : Nat := 0x2B0012
abbrev OverlapCalibrationRequest : Nat := 0x2B0013
abbrev SubstitutionCalibrationRequest : Nat := 0x2B0014
abbrev OverlapCentroidLimit : Nat := 0x2B0015
abbrev SubstitutionTolerance : Nat := 0x2B0016
abbrev UpdatesInForce : Nat := 0x2B0101
abbrev MeasurementsDisagreed : Nat := 0x2B0102
abbrev StepLimitedCount : Nat := 0x2B0103
abbrev KnotsClipped : Nat := 0x2B0104
abbrev LadderSetsMeasured : Nat := 0x2B0105
abbrev LadderSetsSkipped : Nat := 0x2B0106
abbrev LastUpdateCopy : Nat := 0x2B0107
abbrev NozzlesMarkedByLadder : Nat := 0x2B0108
abbrev MeasureRow : Nat := 0x2B1001
abbrev RungTarget : Nat := 0x2B1101
abbrev RungMeasured : Nat := 0x2B1201
abbrev InkLoopState : Nat := 0x2B1301
abbrev BaseKnot : Nat := 0x2B2001
abbrev RejectDistance : Nat := 0x2B4001
abbrev RejectPulseLength : Nat := 0x2B4002
abbrev RejectActiveLow : Nat := 0x2B4003
abbrev WasteDeviation : Nat := 0x2B4004
abbrev VerdictWriteIndex : Nat := 0x2B4005
abbrev LastVerdictCopy : Nat := 0x2B4006
abbrev LastVerdictReasons : Nat := 0x2B4007
abbrev WasteCopyCount : Nat := 0x2B4008
abbrev RejectLateCount : Nat := 0x2B4009
abbrev RejectOverrunCount : Nat := 0x2B400A
abbrev DramOperatingPoint : Nat := 0x2C0001
abbrev PrintOperatingPoint : Nat := 0x2C0002
abbrev SubchannelsWorking : Nat := 0x2C0003
abbrev MappedCapacity : Nat := 0x2C0004
abbrev DramBandwidth : Nat := 0x2C0005
abbrev RingAreaSize : Nat := 0x2C0006
abbrev DeviceDensity : Nat := 0x2C0007
abbrev RanksPerSubchannel : Nat := 0x2C0008
abbrev PageIdleTimer : Nat := 0x2C0009
abbrev TrainingTolerance : Nat := 0x2C000A
abbrev TrainingAttempts : Nat := 0x2C000B
abbrev DeviceMarkThreshold : Nat := 0x2C000C
abbrev ScrubRate : Nat := 0x2C000D
abbrev DriftLimit : Nat := 0x2C000E
abbrev RetrainRequest : Nat := 0x2C000F
abbrev WriteCrcEnable : Nat := 0x2C0010
abbrev CaParityEnable : Nat := 0x2C0011
abbrev ProtectedAccessRefused : Nat := 0x2C0012
abbrev FrequencyChangeTime : Nat := 0x2C0013
abbrev ScrubPassCount : Nat := 0x2C0014
abbrev ScrubPosition : Nat := 0x2C0015
abbrev InitialisedUpTo : Nat := 0x2C0016
abbrev SubchannelsFitted : Nat := 0x2C0017
abbrev SubchannelState : Nat := 0x2C1001
abbrev PointsTrained : Nat := 0x2C1101
abbrev RetrainNeeded : Nat := 0x2C1201
abbrev EccCorrectedCount : Nat := 0x2C1301
abbrev EccUncorrectableCount : Nat := 0x2C1401
abbrev PoisonedReads : Nat := 0x2C1501
abbrev AlertReplays : Nat := 0x2C1601
abbrev MarkedDevice : Nat := 0x2C1701
abbrev DeviceMarkClear : Nat := 0x2C1801
abbrev ForcedRefreshes : Nat := 0x2C1901
abbrev StoreParityErrors : Nat := 0x2C3001
abbrev MemoryEventSource : Nat := 0x2C4001
abbrev DmaChannelCount : Nat := 0x2D0001
abbrev ProgramBufferSize : Nat := 0x2D0002
abbrev BurstsIssued : Nat := 0x2D0003
abbrev SoftRequest : Nat := 0x2D0101
abbrev RequestLineLevel : Nat := 0x2D0102
abbrev DmaTimerPeriod : Nat := 0x2D0201
abbrev DmaTimerWidth : Nat := 0x2D0301
abbrev PortMacAddress : Nat := 0x2E0001
abbrev Ipv4Address : Nat := 0x2E0101
abbrev Ipv4Netmask : Nat := 0x2E0201
abbrev Ipv4Gateway : Nat := 0x2E0301
abbrev VlanId : Nat := 0x2E0401
abbrev PortLinkUp : Nat := 0x2E0501
abbrev EthFramesReceived : Nat := 0x2E0601
abbrev FramesDiscarded : Nat := 0x2E0701
abbrev FecCorrected : Nat := 0x2E0801
abbrev FecUncorrected : Nat := 0x2E0901
abbrev NcInterfaceMode : Nat := 0x2E0A01
abbrev IngestUdpPort : Nat := 0x2E1001
abbrev AckInterval : Nat := 0x2E1002
abbrev NackDelay : Nat := 0x2E1003
abbrev NackInterval : Nat := 0x2E1004
abbrev NackRetries : Nat := 0x2E1005
abbrev RefetchTimeout : Nat := 0x2E1006
abbrev ReorderDepth : Nat := 0x2E1007
abbrev IngestSpoolBuffers : Nat := 0x2E1008
abbrev FlowIdleTimeout : Nat := 0x2E1009
abbrev IngestBytes : Nat := 0x2E100A
abbrev DatagramsDropped : Nat := 0x2E100B
abbrev NacksSent : Nat := 0x2E100C
abbrev FlowRestarts : Nat := 0x2E100D
abbrev ObjectsDiscarded : Nat := 0x2E100E
abbrev FlowState : Nat := 0x2E1101
abbrev TetherUdpPort : Nat := 0x2E2001
abbrev TetherPorts : Nat := 0x2E2002
abbrev TetherVersionMin : Nat := 0x2E2003
abbrev TetherVersionMax : Nat := 0x2E2004
abbrev SessionTimeout : Nat := 0x2E2005
abbrev NotifyRetry : Nat := 0x2E2006
abbrev SessionsOpen : Nat := 0x2E2007
abbrev AuthFailures : Nat := 0x2E2008
abbrev RequestsDropped : Nat := 0x2E2009
abbrev CanNodeId : Nat := 0x2E3001
abbrev NominalPrescaler : Nat := 0x2E3002
abbrev NominalSeg1 : Nat := 0x2E3003
abbrev NominalSeg2 : Nat := 0x2E3004
abbrev NominalSjw : Nat := 0x2E3005
abbrev DataPrescaler : Nat := 0x2E3006
abbrev DataSeg1 : Nat := 0x2E3007
abbrev DataSeg2 : Nat := 0x2E3008
abbrev DataSjw : Nat := 0x2E3009
abbrev TdcOffset : Nat := 0x2E300A
abbrev CanAutoRecover : Nat := 0x2E300B
abbrev CanRecover : Nat := 0x2E300C
abbrev CanState : Nat := 0x2E300D
abbrev CanTxErrorCount : Nat := 0x2E300E
abbrev CanRxErrorCount : Nat := 0x2E300F
abbrev PtpPort : Nat := 0x2E4001
abbrev PtpDomain : Nat := 0x2E4002
abbrev PtpTransport : Nat := 0x2E4003
abbrev PtpDelayMechanism : Nat := 0x2E4004
abbrev PtpPriority1 : Nat := 0x2E4005
abbrev PtpPriority2 : Nat := 0x2E4006
abbrev PtpSlaveOnly : Nat := 0x2E4007
abbrev TransparentPorts : Nat := 0x2E4008
abbrev PtpStepThreshold : Nat := 0x2E4009
abbrev PtpLockThreshold : Nat := 0x2E400A
abbrev PrintSlewLimit : Nat := 0x2E400B
abbrev PtpState : Nat := 0x2E400C
abbrev PtpOffset : Nat := 0x2E400D
abbrev PtpMeanPathDelay : Nat := 0x2E400E
abbrev GrandmasterIdentity : Nat := 0x2E400F
abbrev TimeNowSeconds : Nat := 0x2E4010
abbrev TimeNowNanoseconds : Nat := 0x2E4011
abbrev TimeNowFraction : Nat := 0x2E4012
abbrev TcResidenceMax : Nat := 0x2E4013
abbrev PtpAsymmetry : Nat := 0x2E4101
abbrev PtpIngressLatency : Nat := 0x2E4201
abbrev PtpEgressLatency : Nat := 0x2E4301
abbrev NetworkEventPort : Nat := 0x2E5001
abbrev DieTemperature : Nat := 0x2F0001
abbrev DieSensorA : Nat := 0x2F0002
abbrev DieSensorB : Nat := 0x2F0003
abbrev ThermalState : Nat := 0x2F0004
abbrev DieTemperatureMax : Nat := 0x2F0005
abbrev WarningThreshold : Nat := 0x2F0101
abbrev ThrottleThreshold : Nat := 0x2F0102
abbrev ShutdownThreshold : Nat := 0x2F0103
abbrev HardTripThreshold : Nat := 0x2F0104
abbrev ThresholdHysteresis : Nat := 0x2F0105
abbrev ThrottleFactor : Nat := 0x2F0108
abbrev ThermalShutdownCount : Nat := 0x2F0201
abbrev LastShutdownKind : Nat := 0x2F0202
abbrev LastShutdownTemperature : Nat := 0x2F0203
abbrev WarmTriggersIgnored : Nat := 0x2F0204
abbrev ThrottleTime : Nat := 0x2F0205
abbrev ThermalTrimReference : Nat := 0x2F0301
abbrev ThermalTrim : Nat := 0x2F0302
abbrev ThermalTrimState : Nat := 0x2F0304
abbrev CalibrationRecordSave : Nat := 0x2F1001
abbrev CalibrationRecordState : Nat := 0x2F1002
abbrev CalibrationRecordsValid : Nat := 0x2F1003
abbrev CalibrationRecordLoadMask : Nat := 0x2F1004
abbrev CalibrationRecordSequence : Nat := 0x2F1005
abbrev CalibrationCount : Nat := 0x2F4001
abbrev CalibrationTime : Nat := 0x2F4101
abbrev CalibrationDiscarded : Nat := 0x2F4201
abbrev BridleEnable : Nat := 0x300001
abbrev ConfiguredClaim : Nat := 0x300002
abbrev ClaimInterval : Nat := 0x300003
abbrev TakeoverGuard : Nat := 0x300004
abbrev ReturnEnable : Nat := 0x300005
abbrev ReturnHealthyTime : Nat := 0x300006
abbrev SerialTakeoverSkip : Nat := 0x300007
abbrev PeerMacAddress : Nat := 0x300008
abbrev MirrorPositionTolerance : Nat := 0x300009
abbrev BridleRole : Nat := 0x300101
abbrev ClaimActual : Nat := 0x300102
abbrev PeerClaim : Nat := 0x300103
abbrev PairReady : Nat := 0x300104
abbrev MirrorCompleteFlag : Nat := 0x300105
abbrev PairConflict : Nat := 0x300106
abbrev ReturnCopyPending : Nat := 0x300107
abbrev MirrorPositionError : Nat := 0x300108
abbrev TakeoverCount : Nat := 0x300201
abbrev LastTakeoverGap : Nat := 0x300202
abbrev HeartbeatsMissed : Nat := 0x300203
abbrev HeartbeatsRejected : Nat := 0x300205
abbrev MirrorResyncs : Nat := 0x300206
abbrev ReturnCount : Nat := 0x300207
abbrev LifecycleState : Nat := 0x310001
abbrev LifecycleAdvance : Nat := 0x310002
abbrev BootStatus : Nat := 0x310101
abbrev BootSlotRun : Nat := 0x310102
abbrev BootSlotPreferred : Nat := 0x310103
abbrev FirmwareSecurityVersion : Nat := 0x310104
abbrev SecurityVersionFloor : Nat := 0x310105
abbrev SecurityVersionCommit : Nat := 0x310106
abbrev PackageLoad : Nat := 0x310201
abbrev PackageState : Nat := 0x310202
abbrev PackageRefusal : Nat := 0x310203
abbrev TokenChallenge : Nat := 0x311001
abbrev RoleToken : Nat := 0x311002
abbrev CanRole : Nat := 0x311003
abbrev CanRoleTimeout : Nat := 0x311004
abbrev DebugLevelRequest : Nat := 0x312001
abbrev DebugLevelActual : Nat := 0x312002
abbrev TraceSources : Nat := 0x312003
abbrev TraceDropped : Nat := 0x312004
abbrev GrantExpiry : Nat := 0x312005
abbrev KeyInstall : Nat := 0x313001
abbrev KeyRevoke : Nat := 0x313002
abbrev KeyStatus : Nat := 0x313101
abbrev AuthenticationFailures : Nat := 0x314001
abbrev LockoutRemaining : Nat := 0x314002
abbrev LinkState : Nat := 0x400001
abbrev LinkVersion : Nat := 0x400002
abbrev PartnerVersionMax : Nat := 0x400003
abbrev PartnerFeatures : Nat := 0x400004
abbrev LinkVersionLimit : Nat := 0x400005
abbrev LaneCorrection : Nat := 0x400006
abbrev TxPreset : Nat := 0x400007
abbrev LinkUpTime : Nat := 0x400008
abbrev LinkUpCount : Nat := 0x400009
abbrev LinkLossCount : Nat := 0x40000A
abbrev PathDelay : Nat := 0x40000B
abbrev LinkAsymmetry : Nat := 0x40000C
abbrev ConfiguredPathDelay : Nat := 0x40000D
abbrev FarEndClaimHolder : Nat := 0x40000E
abbrev LinkRestart : Nat := 0x40000F
abbrev LaneErrors : Nat := 0x400101
abbrev ReturnPacketsRejected : Nat := 0x400104
abbrev ForwardPacketsLost : Nat := 0x400105
abbrev EchoesDiscarded : Nat := 0x400106
abbrev PrbsMode : Nat := 0x400107
abbrev PrbsErrors : Nat := 0x400108
abbrev EyeMargin : Nat := 0x40010B
abbrev RecalibrationNeeded : Nat := 0x40010C
abbrev HeadCfgRequest : Nat := 0x400201
abbrev HeadCfgReply : Nat := 0x400202
abbrev HeadCfgState : Nat := 0x400203
abbrev FarEndIdentity : Nat := 0x400204
abbrev SlotConfigured : Nat := 0x410001
abbrev HeadType : Nat := 0x410002
abbrev SlotFirstNozzle : Nat := 0x410003
abbrev SlotNozzleCount : Nat := 0x410004
abbrev RowCount : Nat := 0x410005
abbrev RowLayout : Nat := 0x410006
abbrev RowInterleaveMask : Nat := 0x410007
abbrev RowOffset : Nat := 0x410008
abbrev LandingDelay : Nat := 0x41000C
abbrev SlotGain : Nat := 0x41000D
abbrev TickleLineMask : Nat := 0x41000E
abbrev TempCurve : Nat := 0x41000F
abbrev HeadTempLimit : Nat := 0x410010
abbrev HeadTemperature : Nat := 0x410011
abbrev HeadState : Nat := 0x410012
abbrev Bank0Version : Nat := 0x410013
abbrev Bank1Version : Nat := 0x410014
abbrev BankStatus : Nat := 0x410015
abbrev HeadLinesRejected : Nat := 0x410016
abbrev HeadLinesSkipped : Nat := 0x410017
abbrev NozzleFlagsFromHead : Nat := 0x410018
abbrev AmplitudeScale : Nat := 0x410019
abbrev PortEnable : Nat := 0x420001
abbrev LaneCount : Nat := 0x420002
abbrev LaneRate : Nat := 0x420003
abbrev DataType : Nat := 0x420004
abbrev ImageVirtualChannel : Nat := 0x420005
abbrev DarkVirtualChannel : Nat := 0x420006
abbrev Width : Nat := 0x420007
abbrev PortOriginAcross : Nat := 0x420008
abbrev AlongTrim : Nat := 0x420009
abbrev CciClock : Nat := 0x42000A
abbrev PortCommit : Nat := 0x42000B
abbrev PortRestart : Nat := 0x42000C
abbrev PortState : Nat := 0x420101
abbrev PortCommitRefusal : Nat := 0x420102
abbrev PortFramesReceived : Nat := 0x420103
abbrev FramesFrayed : Nat := 0x420104
abbrev FramesDropped : Nat := 0x420105
abbrev CrcErrors : Nat := 0x420106
abbrev EccErrors : Nat := 0x420107
abbrev LinesPadded : Nat := 0x420108
abbrev LinesCut : Nat := 0x420109
abbrev LinesDiscarded : Nat := 0x42010A
abbrev FrameNumberGaps : Nat := 0x42010B
abbrev FrameTimeouts : Nat := 0x42010C
abbrev DefectPixelCount : Nat := 0x42010D
abbrev CoefficientBankInForce : Nat := 0x42010E
abbrev StatisticsWriteIndex : Nat := 0x42010F
abbrev CciRequest : Nat := 0x420201
abbrev CciReply : Nat := 0x420202
abbrev CciState : Nat := 0x420203
abbrev JobId : Nat := 0x430001
abbrev SourceLineOffset : Nat := 0x430002
abbrev LineAdvance : Nat := 0x430003
abbrev ExtentAlong : Nat := 0x430004
abbrev OriginAcross : Nat := 0x430005
abbrev OriginAlong : Nat := 0x430006
abbrev KernelAcross : Nat := 0x430007
abbrev KernelAlong : Nat := 0x430008
abbrev Opacity : Nat := 0x430009
abbrev LayerCommit : Nat := 0x430101
abbrev LayerEmptyCommit : Nat := 0x430102
abbrev FenceReached : Nat := 0x430103
abbrev NotReadyPolicy : Nat := 0x430104
abbrev FlipGroup : Nat := 0x430105
abbrev RequiredFence : Nat := 0x430106
abbrev LayerState : Nat := 0x430201
abbrev ActiveJobId : Nat := 0x430202
abbrev ActiveSince : Nat := 0x430203
abbrev PendingCopy : Nat := 0x430204
abbrev CommitRefusal : Nat := 0x430205
abbrev LateCount : Nat := 0x430206
abbrev ActiveSourceLine : Nat := 0x430207
abbrev NextSerial : Nat := 0x438301
abbrev SerialLast : Nat := 0x438302
abbrev LastIssuedSerial : Nat := 0x438303
abbrev LastIssuedCopy : Nat := 0x438304
abbrev ProgramAddress : Nat := 0x440001
abbrev Priority : Nat := 0x440002
abbrev Background : Nat := 0x440003
abbrev RequestLine : Nat := 0x440004
abbrev RetryLimit : Nat := 0x440005
abbrev ChannelStart : Nat := 0x440006
abbrev ChannelStop : Nat := 0x440007
abbrev DmaChannelStatus : Nat := 0x440101
abbrev LastCause : Nat := 0x440102
abbrev ProgramCounter : Nat := 0x440103
abbrev RemainingCount : Nat := 0x440104
abbrev CompareOffset : Nat := 0x440105
abbrev LastSignalCode : Nat := 0x440106
abbrev FaultAddress : Nat := 0x440107
abbrev ProgramFaultReason : Nat := 0x440108
abbrev BurstsCompleted : Nat := 0x440109
abbrev BusErrors : Nat := 0x44010A
abbrev WithdrawnRequests : Nat := 0x44010B
abbrev DiscardedBursts : Nat := 0x44010C
abbrev StringEnable : Nat := 0x460001
abbrev PulseWidth : Nat := 0x460002
abbrev CurrentInitial : Nat := 0x460003
abbrev CurrentLimit : Nat := 0x460004
abbrev LightTarget : Nat := 0x460005
abbrev ForwardVoltageRef : Nat := 0x460006
abbrev CurrentActual : Nat := 0x460007
abbrev LightMeasured : Nat := 0x460008
abbrev ForwardVoltage : Nat := 0x460009
abbrev StringState : Nat := 0x46000A
abbrev JobDirectoryStoreAddress : Nat := 0x540001
abbrev JobDirectoryStoreSize : Nat := 0x540002
abbrev JobDirectoryStoreVersion : Nat := 0x540003
abbrev StreamTableStoreAddress : Nat := 0x540101
abbrev StreamTableStoreSize : Nat := 0x540102
abbrev StreamTableStoreVersion : Nat := 0x540103
abbrev StreamStateSlotsStoreAddress : Nat := 0x540201
abbrev StreamStateSlotsStoreSize : Nat := 0x540202
abbrev StreamStateSlotsStoreVersion : Nat := 0x540203
abbrev ProtectedPackageInboxStoreAddress : Nat := 0x550001
abbrev ProtectedPackageInboxStoreSize : Nat := 0x550002
abbrev ProtectedPackageInboxStoreVersion : Nat := 0x550003
abbrev KernelTablesStoreAddress : Nat := 0x550101
abbrev KernelTablesStoreSize : Nat := 0x550102
abbrev KernelTablesStoreVersion : Nat := 0x550103
abbrev NozzleBankStoreAddress : Nat := 0x560001
abbrev NozzleBankStoreSize : Nat := 0x560002
abbrev NozzleBankStoreVersion : Nat := 0x560003
abbrev MissingSetStoreAddress : Nat := 0x560201
abbrev MissingSetStoreSize : Nat := 0x560202
abbrev MissingSetStoreVersion : Nat := 0x560203
abbrev StitchBaseStoreAddress : Nat := 0x560301
abbrev StitchBaseStoreSize : Nat := 0x560302
abbrev StitchBaseStoreVersion : Nat := 0x560303
abbrev ScreenArrayInboxStoreAddress : Nat := 0x561001
abbrev ScreenArrayInboxStoreSize : Nat := 0x561002
abbrev ScreenArrayInboxStoreVersion : Nat := 0x561003
abbrev ScreenSlotStoreAddress : Nat := 0x561101
abbrev ScreenSlotStoreSize : Nat := 0x561102
abbrev ScreenSlotStoreVersion : Nat := 0x561103
abbrev WaveTableStoreAddress : Nat := 0x570001
abbrev WaveTableStoreSize : Nat := 0x570002
abbrev WaveTableStoreVersion : Nat := 0x570003
abbrev CoefficientStagingStoreAddress : Nat := 0x590001
abbrev CoefficientStagingStoreSize : Nat := 0x590002
abbrev CoefficientStagingStoreVersion : Nat := 0x590003
abbrev CoefficientInForceStoreAddress : Nat := 0x590801
abbrev CoefficientInForceStoreSize : Nat := 0x590802
abbrev CoefficientInForceStoreVersion : Nat := 0x590803
abbrev FrameShareStoreAddress : Nat := 0x591001
abbrev FrameShareStoreSize : Nat := 0x591002
abbrev FrameShareStoreVersion : Nat := 0x591003
abbrev StatisticsRingStoreAddress : Nat := 0x591801
abbrev StatisticsRingStoreSize : Nat := 0x591802
abbrev StatisticsRingStoreVersion : Nat := 0x591803
abbrev ColumnMeasurementRingStoreAddress : Nat := 0x592001
abbrev ColumnMeasurementRingStoreSize : Nat := 0x592002
abbrev ColumnMeasurementRingStoreVersion : Nat := 0x592003
abbrev LadderRequestsStoreAddress : Nat := 0x592101
abbrev LadderRequestsStoreSize : Nat := 0x592102
abbrev LadderRequestsStoreVersion : Nat := 0x592103
abbrev NozzleTermStoreAddress : Nat := 0x5B0001
abbrev NozzleTermStoreSize : Nat := 0x5B0002
abbrev NozzleTermStoreVersion : Nat := 0x5B0003
abbrev NozzleDensityStoreAddress : Nat := 0x5B0101
abbrev NozzleDensityStoreSize : Nat := 0x5B0102
abbrev NozzleDensityStoreVersion : Nat := 0x5B0103
abbrev ZoneStateStoreAddress : Nat := 0x5B0201
abbrev ZoneStateStoreSize : Nat := 0x5B0202
abbrev ZoneStateStoreVersion : Nat := 0x5B0203
abbrev VerdictRingStoreAddress : Nat := 0x5B0301
abbrev VerdictRingStoreSize : Nat := 0x5B0302
abbrev VerdictRingStoreVersion : Nat := 0x5B0303
abbrev PackageInboxStoreAddress : Nat := 0x5D0001
abbrev PackageInboxStoreSize : Nat := 0x5D0002
abbrev PackageInboxStoreVersion : Nat := 0x5D0003
abbrev PerformanceCountersStoreAddress : Nat := 0x5D1001
abbrev PerformanceCountersStoreSize : Nat := 0x5D1002
abbrev PerformanceCountersStoreVersion : Nat := 0x5D1003
abbrev FaultLogStoreAddress : Nat := 0x5F0001
abbrev FaultLogStoreSize : Nat := 0x5F0002
abbrev FaultLogStoreVersion : Nat := 0x5F0003
abbrev SavedFaultLogStoreAddress : Nat := 0x5F0101
abbrev SavedFaultLogStoreSize : Nat := 0x5F0102
abbrev SavedFaultLogStoreVersion : Nat := 0x5F0103
abbrev FaultSourceTableStoreAddress : Nat := 0x5F0201
abbrev FaultSourceTableStoreSize : Nat := 0x5F0202
abbrev FaultSourceTableStoreVersion : Nat := 0x5F0203
abbrev CalibrationRecordStoreAddress : Nat := 0x5F1001
abbrev CalibrationRecordStoreSize : Nat := 0x5F1002
abbrev CalibrationRecordStoreVersion : Nat := 0x5F1003

end Sys2Proof.Machine.K
end

