-- ==== Sys2Proof/Machine/PowerOn.lean ====
section
/-! DEFINITION. Sys2Proof/Machine/PowerOn.lean: what a byte of memory that nothing has written reads as (R86,
R302, R332, R360; notes/assumptions/8.md). -/

namespace Sys2Proof.Machine

/-- DOMAIN 0x5B00 NozzleTerm and 0x5B02 ZoneState (R350), and the coefficient blocks of the camera ports
(R302, R353). -/
abbrev nozzleTermAt : Nat := 0x200B000000
abbrev zoneStateAt : Nat := 0x200D000000
abbrev coefficientBase : Nat := 0x01980000

/-- A byte of the neutral coefficient block but for its CRC (R302). -/
def neutralField (width off : Nat) : Nat :=
  if off < 2 then (if off = 0 then 0x43 else 0x46)
  else if off = 2 then 0x10
  else if 4 ≤ off && off < 6 then width / 256 ^ (off - 4) % 256
  else if 32 ≤ off && off < 1060 then
    min (256 * ((off - 32) % 514 / 2)) 65534 / 256 ^ (off % 2) % 256
  else if 26624 ≤ off && off < 124928 then (if off % 2 = 1 then 0x40 else 0)
  else 0

/-- The CRC of the neutral block: over bytes 0–27 and 32 onward (R302). -/
def neutralCrc (width : Nat) : Nat :=
  crc32 (((List.range 131072).filter fun o => o < 28 || 32 ≤ o).map (neutralField width))

/-- A byte of the neutral coefficient block of a width (R302). -/
def neutralByte (width off : Nat) : Nat :=
  if 28 ≤ off && off < 32 then neutralCrc width / 256 ^ (off - 28) % 256 else neutralField width off

/-- The power-on content of an address: the neutral blocks of the default width, the colour loop's terms at
16,384, and 0 everywhere else. -/
def powerOnByte (a : Nat) : Nat :=
  if coefficientBase ≤ a && a < coefficientBase + 0x200000 then neutralByte 5906 ((a - coefficientBase) % 131072)
  else if nozzleTermAt ≤ a && a < nozzleTermAt + 1572864 then (if a % 2 = 1 then 0x40 else 0)
  else if zoneStateAt ≤ a && a < zoneStateAt + 393216 then (if a % 8 = 3 then 0x40 else 0)
  else 0

end Sys2Proof.Machine
end

