-- ==== Sys2Proof/Machine/State.lean ====
section
/-! DEFINITION. Sys2Proof/Machine/State.lean: the state of the block, as plain data. Dictionary
registers stand in `dict` under their coordinate (Machine/Keys.lean) unless a named field below is
their home; the fields of the sub-structures are the state the rules give the machine beside its
dictionary. -/

namespace Sys2Proof.Machine

/-- A finite map from naturals to naturals: pairs with strictly rising keys. -/
abbrev SMap := List (Nat × Nat)

/-- The two parts of R1. -/
inductive Part where
  | f | h
deriving DecidableEq, Repr

/-- An EMCY of R81: error code, event, low 16 bits of its counter, nanoseconds of its time. -/
structure Emcy where
  code : Nat
  event : Nat
  count : Nat
  ns : Nat
deriving DecidableEq, Repr

/-- A Tether notification record of R82. -/
structure NotifyRec where
  event : Nat
  lost : Bool
  count : Nat
  sec : Nat
  ns : Nat
  frac : Nat
deriving DecidableEq, Repr

/-- The notification queue of one Tether session (R82, R413): enabled, the records not yet covered by
an acknowledgement (oldest first), whether an overflow is open and the Lost flag still owed. -/
structure Notify where
  on : Bool := false
  q : List NotifyRec := []
  lost : Bool := false
deriving DecidableEq, Repr

/-- The event unit (R77–R84). `held` are the events held in AON, oldest first; `totals` counts the occurrences of
each event, for a DMA channel that waits on one (R383). -/
structure Ev where
  pending : BitVec 256 := 0#256
  mask : BitVec 256 := 0#256
  counts : SMap := []
  totals : SMap := []
  routes : SMap := []
  held : List Nat := []
  emcyQueue : List Emcy := []
  emcyLast : Option Nat := none
  emcyDropped : Nat := 0
  errorHist : List Nat := []
  notify : List Notify := List.replicate 8 {}
  notifyDropped : Nat := 0
deriving DecidableEq, Repr

/-- The balls the block drives (R479, R480) that the outputs name. -/
inductive Ball where
  | claimOut | pwrenMain | thermtripN | rejectOut
  | cmpOut (k : Nat)
  | em (k : Nat)
  | camTrig (p : Nat)
  | camRstN (p : Nat)
  | gate (c : Nat)
  | row (r : Nat)
  | dchg (c : Nat)
  | saClk (n : Nat)
  | tdo
  | trace
  | bridleHb
deriving DecidableEq, Repr

/-- What leaves the block during a command. -/
inductive Out where
  | ball (b : Ball) (level : Nat)
  | reply (p : WPath) (val : Nat) (len : Nat)
  | abort (p : WPath) (code : Nat)
  | can (cob : Nat) (data : List Nat)
  | emcy (cob : Nat) (e : Emcy) (register : Nat)
  | packet (link : Nat) (kind : Nat) (data : List Nat)
  | blocks (link : Nat) (kind : Nat)
  | udp (h : Host4) (via : Nat) (data : List Nat)
  | ip (port via dst proto : Nat) (data : List Nat)
  | ptp (port kind : Nat) (seq : Nat) (stamp : Nat) (corr : Int)
  | eth (port : Nat) (data : List Nat)
  | cci (port : Nat) (data : List Nat)
  | bridle (wire : Bool) (data : List Nat)
  | pins (cells : Option Nat)
  | accessFault (core : Nat) (addr : Nat)
  | busError (channel : Nat) (addr : Nat)
  | loaded (who : Initiator) (addr : Nat) (data : List Nat)
deriving DecidableEq, Repr

/-- Power, bring-up and modes (R36–R55, R86–R97): what the dictionary entries do not show.
`releaseAt` is the instant of the last reset release; `dictReady` the dictionary-ready moment has
passed; `served` a customer image runs, so that every island's entries are served (R463); `deep` the
power condition Deep; `wakeAt` a wake waiting for PGOOD_MAIN (R475); `hold` the islands held by a
thermal shutdown; `locked` the pending mode request is locked (R47); `warming` a
warm reset is under way (R93); `bootRefused` the boot ROM refused an image (R463); `saved`, `savedRoutes` and `savedMask` the
configuration area of the boot flash (R76); `transFrom` the mode being left while ModeTransitionActive (R44);
`speedOver` the speed lies over the maximum of R48 or R49; `staging` each core's staging copy (R69); per background
client `slackNext` the end of its period, `slackLen` and `slackPeriod` in force, `slackHad` it has had a slot,
`slackForced` it is owed a forced one, `pauseUntil` its pause ends (R33–R35, R429); `slackRound` the client last
served; `gapFor` the client a slot is granted to. -/
structure Sys where
  releaseAt : Nat := 0
  dictReady : Bool := false
  verified : Bool := false
  served : Bool := false
  deep : Bool := false
  wakeAt : Option Nat := none
  hold : Bool := false
  locked : Bool := false
  transFrom : Option Nat := none
  preReadyRaised : Bool := false
  warming : Bool := false
  bootRefused : Bool := false
  staging : List (Option (Nat × Nat × Nat)) := List.replicate 8 none
  saved : SMap := []
  savedRoutes : SMap := []
  savedMask : BitVec 256 := 0#256
  speedOver : Bool := false
  slackNext : List Nat := List.replicate 8 0
  slackLen : SMap := []
  slackPeriod : SMap := []
  slackHad : List Bool := List.replicate 8 false
  slackForced : List Bool := List.replicate 8 false
  slackRound : Nat := 0
  gapFor : Option Nat := none
  pauseUntil : List Nat := List.replicate 8 0
deriving DecidableEq, Repr

/-- NMT states of the CAN path (R92, R96). -/
inductive Nmt where
  | initialising | preOperational | operational | stopped
deriving DecidableEq, Repr

/-- The CAN path (R74, R92, R96, R416, R417, R460): boot-up sent, NMT state, node-ID in force, the
value each TPDO last sent, the instant each was last sent, received RPDOs waiting for SYNC, and until when a role token holds, and the bit timing in force (R415). -/
structure CanSt where
  booted : Bool := false
  nmt : Nmt := .initialising
  nodeId : Nat := 0x10
  tpdoSent : List (Option (List Nat)) := List.replicate 8 none
  tpdoAt : List (Option Nat) := List.replicate 8 none
  tpdoSync : List Nat := List.replicate 8 0
  rpdoHeld : List (Option (List Nat)) := List.replicate 8 none
  roleUntil : Option Nat := none
  timing : List Nat := [1, 63, 16, 16, 1, 11, 4, 4, 12]
deriving DecidableEq, Repr

/-- The timekeeper and the PTP clock (R418–R424). Time is `base` + elapsed × (1 + trim), in units of
2^-32 ns, where elapsed runs from the instant `anchor` and `trim` is in units of 2^-32 ns per ns; `deferred` a
step that waits, in 2^-32 ns. `latches` the latched nanoseconds and fraction of each reader; `linkDelay` the mean
link delay of each port, `pathDelay` the request-response one and `syncDelta` the last Sync's receipt less its
origin, in 2^-16 ns; `parent` the master followed; `foreign` the Announces heard as (sender, data set, latest
instant, the one before, interval in ns); `announceAt` the last Announce of the parent and `announceEvery` its
interval. -/
structure TimeSt where
  running : Bool := false
  base : Nat := 0
  anchor : Nat := 0
  trim : Int := 0
  inLock : Nat := 0
  outLock : Nat := 0
  deferred : Option Int := none
  latches : List (WPath × List Nat) := []
  linkDelay : List Int := List.replicate 3 0
  pathDelay : Int := 0
  syncDelta : Option Int := none
  parent : Option Nat := none
  foreign : List (Nat × List Nat × Nat × Option Nat × Nat) := []
  announceAt : Option Nat := none
  announceEvery : Nat := 1000000000
  masterSeq : Nat := 0
  announceSeq : Nat := 0
deriving DecidableEq, Repr

/-- One input channel of the position unit (R100–R122). Positions and totals are in 2^-32 nm (R101).
`len` is the copy length in force, `lenNext` a length waiting for a wrap (with the copy it waits for,
if any); `hist` the edge history of R120, newest first; `interval` the previous edge interval of R104;
`sinceRef` the counts since the previous reference point of R105; `limit` the soft limit held
(true: the high one); `serialOpen` the instant a word in progress was latched. -/
structure Chan where
  pos : Int := 0
  raw : Int := 0
  total : Int := 0
  copies : Int := 0
  copiesMax : Int := 0
  len : Nat := 1000000000
  lenNext : Option (Nat × Option Int) := none
  dir : Int := 0
  valid : Bool := false
  standing : Bool := false
  speed : Int := 0
  hist : List (Int × Nat) := []
  lastEdge : Option Nat := none
  interval : Option Nat := none
  refFound : Bool := false
  sinceRef : Int := 0
  refSeen : Bool := false
  refMissed : Bool := false
  deviation : Int := 0
  signalFault : Bool := false
  limit : Option Bool := none
  a : Bool := false
  b : Bool := false
  angle : Option Nat := none
  inMark : Bool := false
  word : Option Nat := none
  serialOpen : Option Nat := none
  lastRead : Option Nat := none
  sampleAt : Nat := 0
deriving DecidableEq, Repr

/-- One emulation output (R126, R127): its count, the edges dropped so far (signed), the last edge's
instant, an overrun in progress, and the counts at which Z marks a copy boundary. -/
structure Emu where
  count : Int := 0
  short : Int := 0
  lastAt : Option Nat := none
  overrun : Bool := false
  zAt : List Int := []
deriving DecidableEq, Repr

/-- The position unit. `onBackup` the backup channel is the active master (R119); `run` is then the
master's own position, total and copy count; `bases` the measured Base(m) of R222, newest first;
`samples` the master's samples (instant, total, speed), newest first; `latches` the latched values of
each reader of 0x2301 (R131); `trimFirst`, `trimNext` the sine/cosine fits waiting (R108). -/
structure Pos where
  chans : List Chan := List.replicate 14 {}
  emus : List Emu := List.replicate 4 {}
  cmpUntil : List (Option Nat) := List.replicate 4 none
  onBackup : Bool := false
  run : Chan := {}
  bases : List (Int × Int) := []
  samples : List (Nat × Int × Int) := []
  latches : List (WPath × List Nat) := []
  trimFirst : List (Option SinCosTrim) := [none, none]
  trimNext : List (Option SinCosTrim) := [none, none]
deriving DecidableEq, Repr

/-- Parameters of a JPEG-LS stream (R148): precision, NEAR, thresholds, RESET. -/
structure JlsParams where
  bits : Nat
  near : Nat
  t1 : Nat
  t2 : Nat
  t3 : Nat
  reset : Nat
deriving DecidableEq, Repr

/-- One context: A, B, C (Nn in contexts 365 and 366), N (R151). -/
structure JlsCtx where
  a : Nat
  b : Int
  c : Int
  n : Nat
deriving DecidableEq, Repr

/-- The history of a stream (R150): contexts, run index, reference line, and the sample the standard
takes as Rc at the next line's start (notes/assumptions/23.md). -/
structure JlsState where
  ctx : List JlsCtx := []
  run : Nat := 0
  ref : List Nat := []
  corner : Nat := 0
deriving DecidableEq, Repr

/-- A line being coded. -/
structure JlsLine where
  st : JlsState
  ra : Nat
  rc : Nat
  rest : List Nat
  done : List Nat
  clocks : Nat
  last : Option Nat
deriving DecidableEq, Repr

/-- A line as an encoder writes it. -/
structure CodedLine where
  bytes : List Nat
  samples : List Nat
  st : JlsState
  clocks : Nat
  raw : Bool
deriving DecidableEq, Repr

/-- A strip that has arrived: its header's FirstLine, LineCount and Flags. -/
structure Placed where
  idx : Nat
  first : Nat
  count : Nat
  flags : Nat
deriving DecidableEq, Repr

/-- A stream of the job store (R132–R135): its job, its header, its strip table, strips present and
lost, and the strips that have arrived. -/
structure Stream where
  id : Nat
  job : Nat
  hdr : List Nat
  table : Nat := 0
  present : Nat := 0
  lost : Nat := 0
  placed : List Placed := []
deriving DecidableEq, Repr

/-- A job (R135, R136): record number, state (1 Loading, 2 Complete, 3 Incomplete), load time, bytes
held, extents held and bytes used in the first of them. -/
structure Job where
  id : Nat
  place : Nat
  state : Nat := 1
  loadTime : Nat := 0
  stored : Nat := 0
  extents : List Nat := []
  fill : Nat := 0
deriving DecidableEq, Repr

/-- A decoded source line on its way to the compositor (R149): stream, pass, line, the instant it leaves the
lane, its samples and the strip it came from. -/
structure DecLine where
  stream : Nat
  pass : Nat
  line : Nat
  at' : Nat
  samples : List Nat
  strip : Nat
deriving DecidableEq, Repr

/-- A stream that is decoding (R149–R152, R162, R165): its state slot, the pass over its strips, the next
strip, history lost, the strip to be refetched with the lane that failed it, the strips failed and not passed
since as (pass, strip), and what the previous strip's header said, if it held: FirstLine + LineCount, and
whether it was short. -/
structure DecStream where
  id : Nat
  slot : Nat
  pass : Nat := 0
  next : Nat := 0
  lost : Bool := false
  retry : Option (Nat × Nat) := none
  failed : List (Nat × Nat) := []
  tail : Option (Nat × Bool) := none
deriving DecidableEq, Repr

/-- A strip on a lane: stream, strip, pass, whether a refetch, its bytes so far and in all, lines put out,
clocks spent, raw lines read, the verdict (none while it lacks data, else 0 or the reason of R161), and the
state at its end with the line it ends before. -/
structure LaneWork where
  stream : Nat
  strip : Nat
  pass : Nat
  refetch : Bool
  got : List Nat
  size : Nat
  lines : Nat := 0
  clocks : Nat := 0
  raws : Nat := 0
  verdict : Option Nat := none
  final : JlsState := {}
  endLine : Nat := 0
  first : Nat := 0
deriving DecidableEq, Repr

/-- A decode lane (R149, R151, R154): its work, the stream whose state it holds live, retirement waiting for
the strip's end, retired. -/
structure Lane where
  work : Option LaneWork := none
  live : Option (Nat × JlsState) := none
  retiring : Bool := false
  retired : Bool := false
deriving DecidableEq, Repr

/-- The input chain of a streamed stream (R157–R160, R404): its spool buffers with the bytes the producer
placed and the bytes consumed in each, the strips queued as (index, bytes still to be consumed), bytes of
the queued strips not yet placed, bytes to be thrown away first, and a refetched strip that has arrived (R407). -/
structure Chain where
  stream : Nat
  bufs : List (Nat × Nat × Nat) := []
  strips : List (Nat × Nat) := []
  wait : List Nat := []
  drop : Nat := 0
  again : Option (Nat × List Nat) := none
deriving DecidableEq, Repr

/-- An encode lane at work (R155–R158): its command, history, lines done, StripIndex and FirstLine of the
strip in progress, its records and samples, Flush owed to it, the spool descriptor and bytes written
in its buffer, bytes held in a stall, clocks spent by the instant `at'`, and a flush ending the strip. -/
structure Enc where
  cmd : List Nat := []
  st : JlsState := {}
  done : Nat := 0
  strip : Nat := 0
  first : Nat := 0
  recs : List Nat := []
  samples : List Nat := []
  count : Nat := 0
  flush : Bool := false
  desc : Nat := 0
  fill : Nat := 0
  held : List Nat := []
  clocks : Nat := 0
  at' : Nat := 0
  short : Bool := false
deriving DecidableEq, Repr

/-- The job store and the strip codec (R132–R166). `corners` the corner sample of each slot's state. -/
structure Codec where
  jobs : List Job := []
  streams : List Stream := []
  decs : List DecStream := []
  lines : List DecLine := []
  lanes : List Lane := List.replicate 32 {}
  chains : List Chain := []
  encs : List Enc := List.replicate 4 {}
  corners : SMap := []
deriving DecidableEq, Repr

/-- A layer descriptor as snapshot at its commit (R181): job, SourceLineOffset, LineAdvance, extent,
origins, kernels, opacity, RequiredFence, an empty layer; `flush` the offset whose strip must carry
Flush (R182 code 6). -/
structure Desc where
  job : Nat
  offset : Nat
  advance : Nat
  extent : Nat
  originX : Int
  originY : Int
  kernelX : Nat
  kernelY : Nat
  opacity : Nat
  fence : Nat
  blank : Bool
  flush : Nat
deriving DecidableEq, Repr

/-- A layer (R181, R185): its active content and its pending commit with the target copy. -/
structure Layer where
  active : Option Desc := none
  pending : Option (Desc × Nat) := none
deriving DecidableEq, Repr

/-- A layer's content on one ink for one copy (R173, R176): its tiles as (first sample, width, stream), bits
per sample, source width, extent in lines, and the steps. -/
structure InkView where
  tiles : List (Nat × Nat × Nat)
  bits : Nat
  width : Nat
  lines : Nat
  s0X : Int
  sX : Int
  s0Y : Int
  sY : Int
deriving DecidableEq, Repr

/-- What one copy prints (R185): per layer V0–G3 the descriptor (none: empty) and the view of each ink,
the package of P with the serial issued, the stretch centre. -/
structure Content where
  num : Int
  layers : List (Option (Desc × List (Option InkView)))
  package : Option (Nat × Nat)
  centre : Nat
deriving DecidableEq, Repr

/-- The pass of a stream that a copy takes its lines from, with the SourceLineOffset it starts at. -/
structure Bind where
  copy : Int
  stream : Nat
  pass : Nat
  offset : Nat
deriving DecidableEq, Repr

/-- The compositor (R167–R195): layers V0–G3, contents of the copies decided, the pass of each stream that
a copy takes, the P packages held by version, the version in force and accepted, a verification running, and
the number of the next package. -/
structure Comp where
  layers : List Layer := List.replicate 8 {}
  contents : List Content := []
  binds : List Bind := []
  packages : List (Nat × List Nat) := []
  inForce : Option Nat := none
  accepted : Option Nat := none
  checking : Bool := false
  nextPackage : Nat := 1
deriving DecidableEq, Repr

/-- A threshold array being copied (R210): slot, format and unit offset. -/
structure ScreenLoad where
  slot : Nat
  format : Nat
  unit : Nat
deriving DecidableEq, Repr

/-- The tone pipeline (R196–R221). `wanted` a change that calls for a build has arrived (R207), `curves`
the curve updates the colour loop has ready (nozzle, knots), `copying` a bank copy runs (R216), `load` an
array copy runs, `builder` the commit under way is the builder's own, `late` its target was
decided or past when it was named, `loopUpdate` it carries curve updates. -/
structure Tone where
  wanted : Bool := false
  curves : List (Nat × Nat) := []
  copying : Bool := false
  load : Option ScreenLoad := none
  builder : Bool := false
  late : Bool := false
  loopUpdate : Bool := false
deriving DecidableEq, Repr

/-- A copy decided for printing (R185): its number, mode, number of lines, the sequence number of its
line 0 within the rings of its mode, per ink the lines its lane has taken and the compositor has
composed, the bands decided (ink, band, blanked), lines never written (ink, line), waste reasons (R346), whether
every row has fired or skipped its last line, its largest prediction error in ps (R234), and what its
decision took: bank, wave maps, limits, screen selection, waveform versions and bank per type, row
interleave masks by slot, BankInForceVersion, and whether a V or G layer flipped. `ladder` is its ladder set (R334): start line, pitch, rung lines,
gap, code, then the passes of each ink. -/
structure Copy where
  num : Int
  mode : Nat
  lines : Nat
  seq : Nat := 0
  written : List Nat := List.replicate 8 0
  composed : List Nat := List.replicate 8 0
  bands : List (Nat × Nat × Bool) := []
  dropped : List (Nat × Nat) := []
  waste : Nat := 0
  done : Bool := false
  errorPs : Nat := 0
  predictionFault : Bool := false
  limited : Bool := false
  bank : Nat := 0
  maps : List Nat := []
  limits : List Nat := []
  screens : List Nat := []
  versions : List Nat := []
  masks : SMap := []
  closed : Bool := false
  verdict : Option Nat := none
  deviation : Nat := 0
  ladder : Option (List Nat) := none
  measuredBy : List Nat := []
  bankVer : Nat := 0
  flipped : Bool := false
deriving DecidableEq, Repr

/-- A row-delay ring (R23, R42): its ink, its mode, its place, bytes per line and lines. -/
structure Ring where
  ink : Nat
  mode : Nat
  base : Nat
  lineBytes : Nat
  depth : Nat
deriving DecidableEq, Repr

/-- One row of a head slot: the next line it is due, its RowSequence (R235) and its last stamp, in
2^-16 ns of PTP time (R231). -/
structure RowAt where
  next : Option (Int × Nat) := none
  seq : Nat := 0
  last : Option Nat := none
deriving DecidableEq, Repr

/-- A head slot as the sequencer follows it (R244): the last report, its own inhibit, over-temperature,
lost telemetry, and since when it has been good. -/
structure Head where
  rows : List RowAt := List.replicate 4 {}
  reportAt : Option Nat := none
  own : Bool := false
  hot : Bool := false
  lost : Bool := false
  goodSince : Option Nat := none
deriving DecidableEq, Repr

/-- A row line issued and not yet measured (R234): its copy, landing total (2^-32 nm) and predicted
landing (2^-16 ns). -/
structure Issued where
  num : Int
  q : Int
  land : Nat
deriving DecidableEq, Repr

/-- What a waveform table says of a type (R238): drop states, MinFirePeriod, TickleWaveform. -/
structure WaveFacts where
  four : Bool := false
  sixteen : Bool := false
  period : Nat := 0
  tickle : Nat := 0xFF
deriving DecidableEq, Repr

/-- A waveform push (R247): its types and version, the table snapshots by type, the slots (12L+S) still
to be loaded, those waiting for an acknowledgement with the instant their packet left, those
acknowledged, and those whose token is unacknowledged. -/
structure Push where
  mask : Nat
  version : Nat
  tables : List (Nat × List Nat)
  todo : List Nat
  waiting : List (Nat × Nat) := []
  acked : List Nat := []
  tokens : List Nat := []
deriving DecidableEq, Repr

/-- A Service pattern in progress (R253, R254): the spit packets left and when the next is due, the
end of a purge, the ladder's two passes or one, and the next ladder line of each row (12L+S)×4+r. -/
structure Service where
  pattern : Nat
  slots : List Nat
  left : Nat := 0
  nextAt : Nat := 0
  endAt : Nat := 0
  passes : Nat := 1
  rows : SMap := []
deriving DecidableEq, Repr

/-- The firing sequencer (R222–R254). `facts` and `factsStaged` are of the versions in force and staged
per head type, `adopted` the types whose version has been adopted since the versions were cleared (R250). -/
structure Fire where
  copies : List Copy := []
  rings : List Ring := []
  heads : List Head := List.replicate 192 {}
  issued : List Issued := []
  push : Option Push := none
  facts : List WaveFacts := List.replicate 8 {}
  factsStaged : List WaveFacts := List.replicate 8 {}
  adopted : List Bool := List.replicate 8 false
  service : Option Service := none
  tickleAt : Nat := 0
deriving DecidableEq, Repr

/-- One packet of the log of R268: sequence, kind, slot, row, RowSequence and copy (of a LINE). -/
structure Sent where
  seq : Nat
  kind : Nat
  slot : Nat
  row : Nat := 0
  rowSeq : Nat := 0
  copy : Int := 0
deriving DecidableEq, Repr

/-- A CFG request pending (R273, R277): slot, op, count, address, data, present tag, the tries made, the
instant of the last, and what it is for (0 HeadCfgRequest, 1 PrbsControl, 2 PrbsErrors, 3 EyeMargin, 4 FarEndIdentity). -/
structure CfgReq where
  slot : Nat
  op : Nat
  count : Nat
  addr : Nat
  data : List Nat
  tag : Nat
  tries : Nat
  since : Nat
  use : Nat
deriving DecidableEq, Repr

/-- Recalibration of one link (R287): the margins of the pass under way as (lane, preset, margin), and
the picks and margins of the first pass. -/
structure Recal where
  got : List (Nat × Nat × Nat) := []
  first : Option (List (Nat × Nat)) := none
deriving DecidableEq, Repr

/-- One head link (R256–R288). `clock` the return clock is valid, since `clockAt`; `lock` marker lock;
`startAt` the start of this bring-up; `old` the last partner was 1.2; `sent` the log, newest first;
`present` and `flags` the last Status; `echoes` the accepted round trips in 2^-16 ns, newest first;
`echoWait` SYNCs with EchoRequest not yet answered, with their AM departure. -/
structure LinkSt where
  clock : Bool := false
  clockAt : Nat := 0
  lock : Bool := false
  startAt : Nat := 0
  old : Bool := false
  ts2In : Nat := 0
  ts2Out : Bool := false
  seqOut : Nat := 0
  sent : List Sent := []
  seqIn : Option Nat := none
  lost : Bool := true
  present : Nat := 0
  flags : List Nat := List.replicate 12 0
  syncSeq : Nat := 0
  syncCount : Nat := 0
  amAt : Nat := 0
  echoes : List Int := []
  accepted : Nat := 0
  echoWait : List (Nat × Nat) := []
  timeValid : Bool := false
  amErrors : Nat := 0
  hadError : Bool := false
  amFresh : Bool := false
  cfgs : List CfgReq := []
  tag : Nat := 0
  prbs : Bool := false
  recal : Option Recal := none
  marginAt : Nat := 0
  seenCopy : Int := 0
  reports : Nat := 0
deriving DecidableEq, Repr

/-- The head links. `claimSeq` is the HeartbeatSequence of R275. -/
structure Links where
  links : List LinkSt := List.replicate 16 {}
  claimSeq : Nat := 0
deriving DecidableEq, Repr

/-- The triggers of one frame of one port (R291, R295–R297): line number k of its first line, the mode, bands,
exposures and BandSequence it is taken with, the label of its first line (2^-32 nm), its first trigger's PTP
time (2^-16 ns), the instant of its last line's trigger once made, the PTP time of its latest trigger, and
whether a line went unlit (R319). -/
structure Shot where
  k0 : Int
  mode : Nat
  bands : Nat
  exps : Nat
  rows : Nat
  label : Int
  stamp : Nat
  latest : Nat
  last : Option Nat := none
  unlit : Bool := false
deriving DecidableEq, Repr

/-- A frame as a port receives it (R298, R303): its shot, CSI frame number, sequence, lines assigned, the short
line of an open pair, the receive conditions, saturated pixels as (line, pixel), whether it is the first on
a new coefficient bank and that bank's number, the instant it ended, and its pixels once taken. -/
structure Frame where
  shot : Shot
  number : Nat
  seq : Nat
  lines : Nat := 0
  odd : Option (List Nat) := none
  frayed : Bool := false
  padded : Bool := false
  cut : Bool := false
  sat : List (Nat × Nat) := []
  fresh : Bool := false
  bank : Nat := 0
  endAt : Nat := 0
  pix : List (List Nat) := []
deriving DecidableEq, Repr

/-- A completed camera line waiting for the line stage (R300): its line, its exposures (65,536 for a pixel that
did not arrive), whether they are two, its position, and the instant it was complete. -/
structure RawLine where
  line : Nat
  short : List Nat
  long : Option (List Nat)
  pos : Nat
  at' : Nat
deriving DecidableEq, Repr

/-- Partial sums of a rung on a port (R307, R308): the request's entry, per column lines used, S and Sx, a NoData
met, the usable lines, the frame they were carried from, and whether a frame of it was frayed or dropped. -/
structure RungSum where
  entry : List Nat
  cols : List (Nat × Nat × Int × Bool)
  used : Nat
  seq : Nat
  bad : Bool := false
deriving DecidableEq, Repr

/-- The configuration of a port in force (R293). -/
structure PortConf where
  enable : Bool := false
  lanes : Nat := 4
  rate : Nat := 2500
  dataType : Nat := 0x2C
  image : Nat := 0
  dark : Nat := 1
  width : Nat := 5906
  origin : Int := 0
  trim : Int := 0
  cci : Nat := 400000
deriving DecidableEq, Repr

/-- A camera port (R289–R313): its configuration, the shots made and not yet received, the frame being received,
whether it is dropped whole, lines for the line stage, the untaken frame, the frame in the frame stage, the
last CSI frame number, a pending coefficient commit with the copy it waits for, the count of bank changes,
whether the next frame is the first on a bank, rungs carried over, whether a frame was dropped since the last
record with the labels of the frames dropped, the dark line received, and the captures: dark lines summed with their count, the previous capture,
flat sums per position as (sum, count) per pixel with the frames, and the previous gains. -/
structure Port where
  conf : PortConf := {}
  shots : List Shot := []
  frame : Option Frame := none
  dropping : Bool := false
  ready : List RawLine := []
  ended : Option Frame := none
  staged : Option Frame := none
  number : Option Nat := none
  pend : Option (List Nat × Option Int) := none
  banks : Nat := 0
  fresh : Bool := true
  carry : List RungSum := []
  lost : Bool := false
  droppedAt : List Int := []
  darkLines : List (List Nat) := []
  darkOpen : Bool := false
  darkSum : List (List Nat) := []
  darkCount : Nat := 0
  darkPrior : Option (List (List Nat)) := none
  flatOn : Bool := false
  flatSum : List (List (Nat × Nat)) := []
  flatFrames : Nat := 0
  flatPrior : Option (List (List Nat)) := none
deriving DecidableEq, Repr

/-- The inspection pipeline: its ports, the highest line triggered, the frame being triggered (its label without AlongTrim), the ports whose frame is in the frame stage
in the order taken, and the CCI request in progress per port. -/
structure Cam where
  ports : List Port := List.replicate 8 {}
  lastLine : Option Int := none
  now : Option Shot := none
  stage : List Nat := []
  cci : List (List Nat) := List.replicate 8 []
deriving DecidableEq, Repr

/-- One string's configuration in force or staged by an accepted commit (R321). -/
structure StrConf where
  enable : Bool := false
  width : Nat := 4000
  initial : Nat := 500
  limit : Nat := 1000
  target : Nat := 0
  vref : Nat := 0
deriving DecidableEq, Repr

/-- The illumination configuration of a commit (R321): timing, MergeRatio, and the 128 strings. -/
structure IllConf where
  delay : Nat := 100
  release : Nat := 200
  precharge : Nat := 1000
  tol : Nat := 100
  split : Nat := 12000
  merge : Nat := 0x0400
  strings : List StrConf := []
deriving DecidableEq, Repr

/-- A string at work (R323–R325): light values summed and counted, the current for the next frame it lights,
whether its limit has been reported, and the condition its last diagnosing pulse showed (1 open, 2 short)
with the PTP time of that pulse's trigger. -/
structure Str where
  sum : Nat := 0
  count : Nat := 0
  next : Option Nat := none
  held : Bool := false
  shown : Option (Nat × Nat) := none
deriving DecidableEq, Repr

/-- A gate pulse under way on a column (R317, R320): its row, its width, its kind (0 image line, 1 diagnostic,
2 flash), and the PTP time of its trigger. -/
structure Pulse where
  row : Nat
  width : Nat
  kind : Nat
  stamp : Nat
deriving DecidableEq, Repr

/-- The illumination driver (R314–R330): the configuration in force, one accepted and waiting for the next
frame, the strings, the pulses of each column in order, the instant the last row opens, rows queued for
diagnosis, strings to be confirmed, scan lines since the last round, and the flash calibration: the next
row, the values so far by string, the previous pass, and references waiting for the next frame. -/
structure Illum where
  conf : Option IllConf := none
  next : Option IllConf := none
  strings : List Str := List.replicate 128 {}
  pulses : List (List Pulse) := List.replicate 16 []
  openAt : Nat := 0
  queue : List Nat := []
  confirm : List Nat := []
  flashRow : Nat := 0
  flashGot : SMap := []
  flashPrior : Option SMap := none
  vrefNext : Option SMap := none
  roundAt : Int := 0
deriving DecidableEq, Repr

/-- A zone measurement of a copy on a port (R338): per (ink × 1024 + zone) the sums of Mean × Count and of Count;
void; the mode and coefficient bank of its records, the PTP time (ns) of its latest trigger, the freeze causes
counted by its end, whether it is complete, and whether a zone of it disagreed. -/
structure ZoneMeas where
  copy : Int
  port : Nat
  sums : List (Nat × Nat × Nat) := []
  void : Bool := false
  mode : Nat := 0
  coef : Nat := 0
  latest : Nat := 0
  broken : Nat := 0
  done : Bool := false
  disagreed : Bool := false
deriving DecidableEq, Repr

/-- A ladder set (R334–R336): its copy and mode, the entries of its requests, the ports whose frames have
passed it, the pass-0 rung means as (ink, RungMean), the results as (nozzle, port, density, centroid), rung means
for the substitution calibration as (ink, substitute, RungMean), the coefficient banks met as (port, bank), the
previous ladder copy, `extras` the requests for the substitution calibration with the ink they serve, the freeze causes counted when it was measured, its first and last line, whether the last
has been issued, and whether it is measured. -/
structure LadderSet where
  copy : Int
  mode : Nat
  rungs : List (List Nat)
  extras : List (Nat × List Nat) := []
  past : List Nat := []
  means : List (Nat × Nat) := []
  results : List (Nat × Nat × Nat × Int) := []
  subst : List (Nat × Nat × Nat) := []
  banks : List (Nat × Nat) := []
  prev : Option Int := none
  broken : Nat := 0
  firstLine : Nat := 0
  lastLine : Nat := 0
  printed : Bool := false
  done : Bool := false
deriving DecidableEq, Repr

/-- The colour loop (R332–R345) and the verdict stream (R346–R348); its terms and references stand in the
DOMAINs of R350. Zone keys are (ink × 8 + port) × 768 + zone. `held` the zones whose reference stands;
`captureFrom` per ink the copy from which a capture waits; `captured` the (ink, port) that have given the
capture an agreeing pair; `missing` the inks whose TargetMissing has been raised; `zones` measurements by copy and
port; `sets` the latest ladder sets, newest first; `lastLadder` the latest ladder copy; `broken` counts the freeze causes;
`agreedAt` the PTP time (ns) of the last agreeing pair; `portFault` ports with a void measurement since; `undo` the
update handed to the builder: (address, value before) of its terms and the PTP time (ns) of the latest trigger it
used; `overlapOn` and `substOn` the calibrations under way, `overlapFirst` the first stitch result; `staged` writes that wait for
the next decision; `pulses` the REJECT_OUT pulses due as (start, end) totals in 2^-32 nm, `rejecting` the end of the
one under way. -/
structure Loop where
  held : List Nat := []
  captureFrom : List (Option Int) := List.replicate 8 (some 0)
  captured : List (Nat × Nat) := []
  missing : List Nat := []
  zones : List ZoneMeas := []
  sets : List LadderSet := []
  lastLadder : Option Int := none
  broken : Nat := 0
  agreedAt : Nat := 0
  portFault : List Nat := []
  undo : Option (List (Nat × Nat) × Nat) := none
  overlapOn : Bool := false
  overlapFirst : Option (List (Nat × Nat)) := none
  substOn : Bool := false
  staged : SMap := []
  pulses : List (Int × Int) := []
  rejecting : Option Int := none
deriving DecidableEq, Repr

/-- The DRAM controller (R351–R377, R493): the operating point a frequency change goes to, the open rows
as (subchannel, bank key, row, last use), refreshes owed as (subchannel, rank × 4 + bank number, count),
the retry buffers as (subchannel, instant, address, bytes) newest first, per subchannel the replays tried
of an open alert and whether ALERT_n is asserted, poisoned bursts, corrected bursts as (subchannel, rank,
device, instant) newest first (device 5: more than one), shadow timing sets as (subchannel, point, delays
then Vrefs), disagreeing pairs and tracked drift per subchannel, the last ZQ calibration, the count of
retention records, whether self-refresh spanned a reset of MEM, whether the fixed and ring areas are
initialised and the job store swept, and whether a full training is asked for. -/
structure Dram where
  freqNext : Option Nat := none
  openRows : List (Nat × Nat × Nat × Nat) := []
  owed : List (Nat × Nat × Nat) := []
  retry : List (Nat × Nat × Nat × List Nat) := []
  alert : List (Option Nat) := List.replicate 4 none
  asserted : List Bool := List.replicate 4 false
  poison : List Nat := []
  marks : List (Nat × Nat × Nat × Nat) := []
  shadow : List (Nat × Nat × List Nat) := []
  disagreed : List Nat := List.replicate 4 0
  drift : List Int := List.replicate 4 0
  zqAt : Nat := 0
  retention : Nat := 0
  kept : Bool := false
  initialised : Bool := false
  swept : Bool := false
  wantTraining : Bool := true
deriving DecidableEq, Repr

/-- An open loop level (R383, R384): the instruction after its LOOP, Count, index, SourceStride, DestinationStride. -/
structure DmaLevel where
  back : Nat
  count : Nat
  index : Nat := 0
  src : Int
  dst : Int
deriving DecidableEq, Repr

/-- A DMA channel (R379–R392): its program buffer, open loop levels, innermost first; whether a MOVE, FILL or
COMPARE is in progress, its bytes done, the bytes of the burst in flight, the errors the burst has taken, and a
WAIT's beginning with the event's occurrences so far. -/
structure DmaChan where
  prog : List (List Nat) := []
  levels : List DmaLevel := []
  active : Bool := false
  done : Nat := 0
  flight : Option Nat := none
  tries : Nat := 0
  wait : Option (Nat × Nat) := none
deriving DecidableEq, Repr

/-- The DMA engine: its channels, the channel last granted at each priority, the end of the slack slot of client 08,
and the period multiple at which each timer's line was last asserted with whether it still is. -/
structure Dma where
  chans : List DmaChan := List.replicate 16 {}
  last : List Nat := List.replicate 8 15
  slotUntil : Nat := 0
  timers : List (Nat × Bool) := List.replicate 4 (0, false)
deriving DecidableEq, Repr

/-- A Tether session awaiting its Open, or open (R409–R414): its far side, SessionId, KeyId, the key's role, version,
session key, client dictionary version, NotifyEnable, the instant of its Challenge or of its last valid message,
the last Request's Sequence with the kept Reply, the Sequence of the next Notify, and the Notifies not yet
covered as (Sequence, records, instant sent), oldest first. -/
structure Session where
  host : Host4
  id : Nat
  keyId : Nat
  role : Nat
  version : Nat
  key : List Nat
  client : Nat
  notify : Bool
  lastAt : Nat
  seq : Nat := 0
  reply : List Nat := []
  nextNotify : Nat := 1
  sent : List (Nat × Nat × Nat) := []
deriving DecidableEq, Repr

/-- A datagram held ahead of a missing one (R402): Sequence, End set, payload. -/
structure HeldData where
  seq : Nat
  last : Bool
  data : List Nat
deriving DecidableEq, Repr

/-- An ingest flow (R399–R408): where its latest datagram came from, the next Sequence, the offset taken,
bytes not yet parsed, datagrams held, the last CreditOffset sent, StreamIds refused on it, streams it
carries, the last datagram's instant, datagrams since the last Ack, the gap's instant and the Nacks sent for
it, whether the last datagram was dropped for credit, End taken, and the instant of the last Nack. -/
structure Flow where
  host : Host4 := ⟨0, 0, 0⟩
  next : Nat := 0
  taken : Nat := 0
  buf : List Nat := []
  held : List HeldData := []
  credit : Option Nat := none
  refused : List Nat := []
  streams : List Nat := []
  lastAt : Nat := 0
  sinceAck : Nat := 0
  gapAt : Nat := 0
  nacks : Nat := 0
  starved : Bool := false
  ending : Bool := false
  nackAt : Nat := 0
deriving DecidableEq, Repr

/-- An outstanding Refetch (R407): stream, strip, deadline in 2^-16 ns of PTP time, and the instant it was
last sent. -/
structure Refetch where
  stream : Nat
  strip : Nat
  deadline : Nat
  sentAt : Nat
deriving DecidableEq, Repr

/-- Ingest and Tether (R395–R414). Flow f of NP0 is number f, of NP1 64 + f. `sessions` are the open ones, `challenges`
those whose Open has not come (R411). -/
structure Net where
  flows : List Flow := List.replicate 128 {}
  refetches : List Refetch := []
  sessions : List (Option Session) := List.replicate 8 none
  challenges : List (Option Session) := List.replicate 8 none
deriving DecidableEq, Repr

/-- A calibration record of the boot flash (R438): the part and the camera widths it was saved with, the registers
it holds, and the cells of the object it holds that differ from its power-on content, by address. -/
structure CalRecord where
  part : Part
  widths : List Nat := []
  regs : SMap := []
  cells : List Host.Cell := []
deriving DecidableEq, Repr

/-- A save of calibration records being written (R438): the records by kind, the counts and times stored with
them, and whether it was made automatically. -/
structure SaveJob where
  recs : List (Nat × CalRecord)
  counts : SMap
  auto : Bool
deriving DecidableEq, Repr

/-- Die temperature, fault manager and calibration records (R426–R438, R492): the last samples of each
diode with trim applied (newest first), the last raw reading of each, the crossed thresholds, the
shutdown states (`shutAt` when the F part's sequence began, `hardReset`: RESET_N has come while the hard-trip latch was set), the fault windows by source, retired sources, throttling since, the trim reading
in progress, the boot flash's saved log and calibration records, and the saves being written, oldest first; `overlapDue` the overlap record waits for DRAM. -/
structure Health where
  samplesA : List Int := []
  samplesB : List Int := []
  rawA : Int := 0
  rawB : Int := 0
  warn : Bool := false
  throttle : Bool := false
  shutdown : Bool := false
  shuttingDown : Bool := false
  shutAt : Nat := 0
  latchH : Bool := false
  hardLatch : Bool := false
  hardReset : Bool := false
  disagree : Bool := false
  outOfRange : Bool := false
  windows : List (Nat × List Nat) := []
  retired : List Nat := []
  throttleSince : Option Nat := none
  trimFirst : Option (Int × Int × Int) := none
  trimAt : Nat := 0
  savedLog : List Nat := []
  records : List (Option CalRecord) := List.replicate 8 none
  savedCounts : SMap := []
  writing : List SaveJob := []
  overlapDue : Bool := false
  countsChanged : Bool := false
  countsSavedAt : Option Nat := none
deriving DecidableEq, Repr

/-- The Bridle pair (R440–R455). `resumeFrom` the PTP instant (2^-16 ns) before which a new holder issues
no line (R449); `startAt` when the wait of R441 began; `lostClaim` the claim was lost (R452); `heard` the instant of the last valid
heartbeat on the wire and on NC, `missing` the paths counted as missing, `peer` the bytes of the last valid one, `absent` the peer's loss has been announced
(R445); `hbSeq` and `mirrorSeq` the numbers of the next heartbeat and mirror frame; `mirrorIn` the Sequence of the last
frame taken in order, none where the full state is wanted, `aligned` a Position record has aligned the master since, `resync` ResyncRequest is asked (R446, R447);
`fullAt` the Sequence of the last full state sent, `sent` the records as last mirrored; `guardEnd` the end of the guard of a takeover
and `cleared` the links whose Status has since shown ClaimHolder 0 (R449); `healthySince` since when the conditions of a return hold
(R454). -/
structure Bridle where
  resumeFrom : Nat := 0
  startAt : Nat := 0
  lostClaim : Bool := false
  heard : List (Option Nat) := [none, none]
  missing : List Bool := [false, false]
  peer : List Nat := []
  absent : Bool := false
  hbSeq : Nat := 0
  mirrorSeq : Nat := 1
  mirrorIn : Option Nat := none
  aligned : Bool := false
  resync : Bool := false
  fullAt : Option Nat := none
  sent : List (List Nat) := []
  guardEnd : Option Nat := none
  cleared : List Nat := []
  healthySince : Option Nat := none
deriving DecidableEq, Repr

/-- Security, lifecycle and debug (R456–R472). `keys` the key material by KeyId (R458); `signed` the running
customer image was accepted by signature; `loading` the kind of package being checked or written and the slot
it is written to; `nonce` the CAN token nonce with the instant it was read; `fails` failed proofs as (path,
instant) and `lockedUntil` refused paths as (path, instant), path 1 CAN and 2 Tether; `grant` a debug grant:
TraceSources and the AON instant it ends at the latest; `debugBy` the path whose debug request stands; `vendorFloor` the kind 0x80 floor in fuses (R464); `boundary` the boundary cells' latch of the
test port (R466); `vendorVersion` the SecurityVersion of the vendor services image that runs (R74). -/
structure Sec where
  keys : List (Nat × List Nat) := []
  signed : Bool := false
  loading : Option Nat := none
  nonce : Option (List Nat × Nat) := none
  fails : List (Nat × Nat) := []
  lockedUntil : List (Nat × Nat) := []
  grant : Option (Nat × Nat) := none
  debugBy : Option WPath := none
  vendorFloor : Nat := 0
  boundary : Nat := 0
  vendorVersion : Nat := 0
deriving DecidableEq, Repr

/-- The block: the queue of waiting commands (first in, first out), the part, the present instant, the
outputs of the last command, the counter of free values drawn (the model's own,
notes/assumptions/5.md), the dictionary registers, the byte memory, the event unit, and one
sub-structure per chapter. -/
structure State where
  pending : List Instr
  part : Part
  now : Nat
  out : List Out
  free : Nat
  dict : SMap
  mem : List Host.Cell
  ev : Ev
  sys : Sys
  can : CanSt
  pos : Pos
  codec : Codec
  comp : Comp
  tone : Tone
  fire : Fire
  link : Links
  cam : Cam
  ill : Illum
  loop : Loop
  dram : Dram
  dma : Dma
  net : Net
  time : TimeSt
  health : Health
  bridle : Bridle
  sec : Sec
deriving DecidableEq, Repr

/-- Faults of the model. No command of this block stops the machine: the spec turns every failure
into a refusal code, an event or a counted fault occurrence, which are effects on State. -/
inductive Fault where
  /-- Raised by no command; safe. -/
  | none
deriving DecidableEq, Repr

/-- Refusals of the model. -/
inductive Refusal where
  /-- A command of the table that has no meaning yet, by its mnemonic; safe. Raised by no arm once
  every command has its meaning. -/
  | notModelled (mnemonic : String)
deriving DecidableEq, Repr

/-- The block right after RESET_N is released at instant 0: no island ready, every dictionary entry at
its default, memory with nothing listed, no command waiting, PowerOnReset held in AON (R84, R93;
notes/assumptions/3.md). -/
def State.reset : State :=
  { pending := [], part := .f, now := 0, out := [], free := 0, dict := [], mem := [], ev := { held := [0] },
    sys := {},
    can := {},
    pos := {},
    codec := {},
    comp := {},
    tone := {},
    fire := {},
    link := {},
    cam := {},
    ill := {},
    loop := {},
    dram := {},
    dma := {},
    net := {},
    time := {},
    health := {},
    bridle := {},
    sec := {} }

end Sys2Proof.Machine
end

