-- ==== Sys2Proof/Machine/Maps.lean ====
section
/-! DEFINITION. Sys2Proof/Machine/Maps.lean: finite maps with rising keys (dictionary, event counters,
routes) and the byte memory of the 40-bit map, both as canonical lists. -/

namespace Sys2Proof.Machine

/-- The value under a key. -/
def SMap.find : SMap → Nat → Option Nat
  | [], _ => none
  | (k, v) :: m, q => if k = q then some v else if q < k then none else SMap.find m q

/-- Sets the value under a key, keeping keys rising. -/
def SMap.put : SMap → Nat → Nat → SMap
  | [], q, w => [(q, w)]
  | (k, v) :: m, q, w =>
    if q < k then (q, w) :: (k, v) :: m
    else if q = k then (k, w) :: m
    else (k, v) :: SMap.put m q w

/-- Removes a key. -/
def SMap.drop (m : SMap) (q : Nat) : SMap := m.filter fun p => p.1 != q

/-- Keeps the keys that satisfy a test. -/
def SMap.keep (m : SMap) (p : Nat → Bool) : SMap := m.filter fun x => p x.1

/-- Puts every pair of the second map over the first. -/
def SMap.over (m : SMap) : SMap → SMap
  | [] => m
  | (k, v) :: r => SMap.over (SMap.put m k v) r

/-- Keys rise strictly, all above a bound. -/
def SMap.above (b : Nat) : SMap → Bool
  | [] => true
  | (k, _) :: m => b ≤ k && SMap.above (k + 1) m

/-- The canonical form of a map: strictly rising keys. -/
def SMap.wf (m : SMap) : Bool := SMap.above 0 m

/-- Byte memory: cells at rising addresses, none equal to what its unlisted address reads as
(notes/assumptions/8.md). -/
abbrev Memory := List Host.Cell

/-- What an unlisted address reads as: its power-on content. -/
def Memory.unlisted (a : Nat) : Byte := BitVec.ofNat 8 (powerOnByte a)

/-- One byte of memory. -/
def Memory.byte : Memory → Nat → Byte
  | [], a => Memory.unlisted a
  | (k, v) :: m, a => if k = a then v else if a < k then Memory.unlisted a else Memory.byte m a

/-- Stores one byte, keeping the canonical form: a byte that an unlisted address reads as removes the cell. -/
def Memory.store : Memory → Nat → Byte → Memory
  | [], a, b => if b = Memory.unlisted a then [] else [(a, b)]
  | (k, v) :: m, a, b =>
    if a < k then (if b = Memory.unlisted a then (k, v) :: m else (a, b) :: (k, v) :: m)
    else if a = k then (if b = Memory.unlisted a then m else (k, b) :: m)
    else (k, v) :: Memory.store m a b

/-- Cells rise strictly from `lo` and hold no byte that their unlisted address reads as. -/
def Memory.wfFrom (lo : Nat) : Memory → Bool
  | [] => true
  | (k, v) :: m => lo ≤ k && v != Memory.unlisted k && Memory.wfFrom (k + 1) m

/-- The canonical form of memory. -/
def Memory.wf (m : Memory) : Bool := Memory.wfFrom 0 m

/-- The cells of a range of `n` bytes from `a`, in order. -/
def Memory.slice (m : Memory) (a n : Nat) : Memory := m.filter fun c => a ≤ c.1 && c.1 < a + n

/-- Returns a range to its power-on content. -/
def Memory.erase (m : Memory) (a n : Nat) : Memory := m.filter fun c => !(a ≤ c.1 && c.1 < a + n)

/-- The little-endian value of `n` bytes from `a` (R11). -/
def Memory.value (m : Memory) (a : Nat) : Nat → Nat
  | 0 => 0
  | n + 1 => (m.byte a).toNat + 256 * Memory.value m (a + 1) n

/-- Stores `n` bytes of a value, least significant first (R11). -/
def Memory.storeValue (m : Memory) (a : Nat) : Nat → Nat → Memory
  | 0, _ => m
  | n + 1, v => Memory.storeValue (m.store a (BitVec.ofNat 8 v)) (a + 1) n (v / 256)

/-- Stores a list of bytes from `a`. -/
def Memory.storeBytes (m : Memory) (a : Nat) : List Nat → Memory
  | [] => m
  | b :: bs => Memory.storeBytes (m.store a (BitVec.ofNat 8 b)) (a + 1) bs

/-- Stores the cells of a list, each moved by an offset. -/
def Memory.storeCells (m : Memory) (delta : Int) : Memory → Memory
  | [] => m
  | c :: cs => Memory.storeCells (m.store ((c.1 : Int) + delta).toNat c.2) delta cs

/-- Copies `n` bytes from `src` to `dst`, where both ranges have power-on content 0: the nozzle table banks
and the screen arrays. The range at `dst` takes the bytes read at `src` before the copy. -/
def Memory.copy (m : Memory) (src dst n : Nat) : Memory :=
  Memory.storeCells (m.erase dst n) ((dst : Int) - src) (m.slice src n)

end Sys2Proof.Machine
end

