-- ==== Sys2Proof/Machine/Table.lean ====
section
/-! DEFINITION. Sys2Proof/Machine/Table.lean: the entries of the object dictionary, transcribed from
the entry tables of spec/01 … spec/19 (each row's rule in its comment), by index page (R65). Subindex
00 follows R56; the PDO records of R74 have the subindices of CiA 301 (notes/assumptions/9.md). -/

namespace Sys2Proof.Machine

/-- Page 0x10xx. -/
def page10 : List Entry := [
  ⟨0x1000, 1, 1, 0, 0, (.u 4), .const, .i, false, (.k 0), .any⟩, -- DeviceType, R74
  ⟨0x1001, 1, 1, 0, 0, (.u 1), .ro, .i, false, (.k 0), .any⟩, -- ErrorRegister, R74
  ⟨0x1003, 1, 1, 0, 0, (.u 1), .rw, .i, false, (.k 0), (.oneOf [0])⟩, -- ErrorFieldCount, R74
  ⟨0x1003, 1, 1, 1, 16, (.u 4), .ro, .i, false, (.k 0), .any⟩, -- PredefinedErrorField, R74
  ⟨0x1005, 1, 1, 0, 0, (.u 4), .rw, .i, false, (.k 128), (.mask 0xBFFFFFFF)⟩, -- SyncCobId, R74
  ⟨0x1008, 1, 1, 0, 0, .str, .const, .i, false, .special, .any⟩, -- DeviceName, R74
  ⟨0x1009, 1, 1, 0, 0, .str, .const, .i, false, .special, .any⟩, -- HardwareVersion, R74
  ⟨0x100A, 1, 1, 0, 0, .str, .const, .i, false, .special, .any⟩, -- SoftwareVersion, R74
  ⟨0x1010, 1, 1, 0, 0, (.u 1), .const, .i, false, (.k 1), .any⟩, -- HighestSub, R56
  ⟨0x1010, 1, 1, 1, 1, (.u 4), .rw, .i, false, (.k 1), .any⟩, -- StoreParameters, R74
  ⟨0x1011, 1, 1, 0, 0, (.u 1), .const, .i, false, (.k 1), .any⟩, -- HighestSub, R56
  ⟨0x1011, 1, 1, 1, 1, (.u 4), .rw, .i, false, (.k 1), .any⟩, -- RestoreDefaults, R74
  ⟨0x1014, 1, 1, 0, 0, (.u 4), .rw, .i, false, .special, .any⟩, -- EmcyCobId, R74
  ⟨0x1015, 1, 1, 0, 0, (.u 2), .rw, .i, false, (.k 10), .any⟩, -- EmcyInhibitTime, R74
  ⟨0x1016, 1, 1, 0, 0, (.u 1), .const, .i, false, (.k 4), .any⟩, -- HighestSub, R56
  ⟨0x1016, 1, 1, 1, 4, (.u 4), .rw, .i, false, (.k 0), .any⟩, -- ConsumerHeartbeatTime, R74
  ⟨0x1017, 1, 1, 0, 0, (.u 2), .rw, .i, false, (.k 0), .any⟩, -- ProducerHeartbeatTime, R74
  ⟨0x1018, 1, 1, 0, 0, (.u 1), .const, .i, false, (.k 4), .any⟩, -- HighestSub, R56
  ⟨0x1018, 1, 1, 1, 1, (.u 4), .const, .i, false, (.k 3399), .any⟩, -- VendorId, R74
  ⟨0x1018, 1, 1, 2, 2, (.u 4), .const, .i, false, (.k 2080), .any⟩, -- ProductCode, R74
  ⟨0x1018, 1, 1, 3, 3, (.u 4), .const, .i, false, .special, .any⟩, -- RevisionNumber, R74
  ⟨0x1018, 1, 1, 4, 4, (.u 4), .const, .i, false, .special, .any⟩, -- SerialNumber, R74
  ⟨0x1029, 1, 1, 0, 0, (.u 1), .const, .i, false, (.k 1), .any⟩, -- HighestSub, R56
  ⟨0x1029, 1, 1, 1, 1, (.u 1), .rw, .i, false, (.k 0), (.oneOf [0, 1])⟩] -- CommErrorBehaviour, R74

/-- Page 0x14xx. -/
def page14 : List Entry := [
  ⟨0x1400, 8, 1, 0, 0, (.u 1), .const, .i, false, (.k 2), .any⟩, -- RpdoHighestSub, R74
  ⟨0x1400, 8, 1, 1, 1, (.u 4), .rw, .i, false, (.k 2147483648), .any⟩, -- RpdoCobId, R74
  ⟨0x1400, 8, 1, 2, 2, (.u 1), .rw, .i, false, (.k 255), .any⟩] -- RpdoTransmission, R74

/-- Page 0x16xx. -/
def page16 : List Entry := [
  ⟨0x1600, 8, 1, 0, 0, (.u 1), .rw, .i, false, (.k 0), (.nat 0 16)⟩, -- RpdoMappingCount, R74
  ⟨0x1600, 8, 1, 1, 16, (.u 4), .rw, .i, false, (.k 0), .any⟩] -- RpdoMapping, R74

/-- Page 0x18xx. -/
def page18 : List Entry := [
  ⟨0x1800, 8, 1, 0, 0, (.u 1), .const, .i, false, (.k 5), .any⟩, -- TpdoHighestSub, R74
  ⟨0x1800, 8, 1, 1, 1, (.u 4), .rw, .i, false, (.k 2147483648), .any⟩, -- TpdoCobId, R74
  ⟨0x1800, 8, 1, 2, 2, (.u 1), .rw, .i, false, (.k 254), .any⟩, -- TpdoTransmission, R74
  ⟨0x1800, 8, 1, 3, 3, (.u 2), .rw, .i, false, (.k 0), .any⟩, -- TpdoInhibitTime, R74
  ⟨0x1800, 8, 1, 5, 5, (.u 2), .rw, .i, false, (.k 0), .any⟩] -- TpdoEventTimer, R74

/-- Page 0x1Axx. -/
def page1A : List Entry := [
  ⟨0x1A00, 8, 1, 0, 0, (.u 1), .rw, .i, false, (.k 0), (.nat 0 16)⟩, -- TpdoMappingCount, R74
  ⟨0x1A00, 8, 1, 1, 16, (.u 4), .rw, .i, false, (.k 0), .any⟩] -- TpdoMapping, R74

/-- Page 0x20xx, part 0. -/
def page20_0 : List Entry := [
  ⟨0x2001, 1, 1, 0, 0, (.u 1), .const, .i, false, (.k 4), .any⟩, -- SystemEntryCount, R73
  ⟨0x2001, 1, 1, 1, 1, (.u 2), .const, .i, false, (.k 513), .any⟩, -- DictionaryVersion, R73
  ⟨0x2001, 1, 1, 2, 2, (.u 1), .const, .i, false, .special, .any⟩, -- PartVariant, R73
  ⟨0x2001, 1, 1, 3, 3, (.u 2), .rw, .i, false, (.k 513), (.nat 256 513)⟩, -- CanClientDictionaryVersion, R73
  ⟨0x2001, 1, 1, 4, 4, (.u 2), .const, .i, false, (.k 0), .any⟩, -- CompatibilityCount, R73
  ⟨0x2002, 1, 1, 0, 0, (.u 1), .const, .i, false, (.k 1), .any⟩, -- CompatibilityEntryCount, R73
  ⟨0x2002, 1, 1, 1, 1, (.dom 8), .ro, .i, false, (.k 0), .any⟩, -- DictionaryCompatibility, R73
  ⟨0x2010, 1, 1, 0, 0, (.u 1), .const, .i, false, (.k 10), .any⟩, -- ModeEntryCount, R54
  ⟨0x2010, 1, 1, 1, 1, (.u 1), .rw, .o, false, (.k 1), .any⟩, -- ModeRequest, R54
  ⟨0x2010, 1, 1, 2, 2, (.u 1), .ro, .i, false, (.k 1), .any⟩, -- ModeActual, R54
  ⟨0x2010, 1, 1, 3, 3, (.u 1), .ro, .i, false, (.k 255), .any⟩, -- ModePending, R54
  ⟨0x2010, 1, 1, 4, 4, (.u 1), .ro, .i, false, (.k 0), .any⟩, -- ModeRefusalCode, R54
  ⟨0x2010, 1, 1, 5, 5, (.u 8), .ro, .i, false, (.k 0), .any⟩, -- ModeChangeCopy, R54
  ⟨0x2010, 1, 1, 6, 6, (.u 2), .const, .i, false, (.k 192), .any⟩, -- ModeLeadLines, R54
  ⟨0x2010, 1, 1, 7, 7, .bool, .wo, .o, false, (.k 0), .any⟩, -- OrderlyStopRequest, R54
  ⟨0x2010, 1, 1, 8, 8, (.u 1), .wo, .o, false, (.k 0), (.oneOf [1])⟩, -- PowerConditionRequest, R54
  ⟨0x2010, 1, 1, 9, 9, .bool, .ro, .i, false, (.k 0), .any⟩, -- ModeTransitionActive, R54
  ⟨0x2010, 1, 1, 10, 10, (.u 1), .ro, .i, false, (.k 255), .any⟩, -- ModeQueued, R54
  ⟨0x2011, 1, 1, 0, 0, (.u 1), .const, .i, false, (.k 2), .any⟩, -- StopEntryCount, R54
  ⟨0x2011, 1, 1, 1, 1, (.u 1), .ro, .i, false, (.k 0), .any⟩, -- StopReason, R54
  ⟨0x2011, 1, 1, 2, 2, (.u 4), .ro, .i, false, (.k 0), .any⟩, -- StopCount, R54
  ⟨0x2020, 1, 1, 0, 0, (.u 1), .const, .i, false, (.k 11), .any⟩, -- HighestSub, R56
  ⟨0x2020, 1, 1, 1, 11, .bool, .rw, .i, false, (.k 1), .any⟩, -- FunctionEnable, R54
  ⟨0x2021, 1, 1, 0, 0, (.u 1), .const, .i, false, (.k 11), .any⟩] -- HighestSub, R56

/-- Page 0x20xx, part 1. -/
def page20_1 : List Entry := [
  ⟨0x2021, 1, 1, 1, 11, (.u 1), .ro, .i, false, (.k 3), .any⟩, -- FunctionStatus, R54
  ⟨0x2022, 1, 1, 0, 0, (.u 1), .const, .i, false, (.k 11), .any⟩, -- HighestSub, R56
  ⟨0x2022, 1, 1, 1, 11, (.u 4), .ro, .i, false, (.k 0), .any⟩, -- DiscardedUnits, R54
  ⟨0x2023, 1, 1, 0, 0, (.u 1), .const, .i, false, (.k 11), .any⟩, -- HighestSub, R56
  ⟨0x2023, 1, 1, 1, 11, (.u 1), .ro, .i, false, (.k 0), .any⟩, -- FunctionRefusalCode, R54
  ⟨0x2030, 1, 1, 0, 0, (.u 1), .const, .i, false, (.part 16 8), .any⟩, -- LinkInkCount, R55
  ⟨0x2030, 1, 1, 1, 16, (.u 1), .rw, .i, false, .special, (.natOr 0 7 255)⟩, -- LinkInk, R55
  ⟨0x2031, 1, 1, 0, 0, (.u 1), .const, .i, false, (.k 8), .any⟩, -- InkCount, R55
  ⟨0x2031, 1, 1, 1, 8, (.u 2), .ro, .i, false, .special, .any⟩, -- InkLinkMask, R55
  ⟨0x2050, 1, 1, 0, 0, (.u 1), .const, .i, false, (.k 8), .any⟩, -- SlackClientCount, R35
  ⟨0x2050, 1, 1, 1, 8, (.u 4), .rw, .i, false, (.list [1000, 40000, 20000, 25400, 2000, 4000, 1000, 1000]), .any⟩, -- SlackSlotLength, R35
  ⟨0x2051, 1, 1, 0, 0, (.u 1), .const, .i, false, (.k 8), .any⟩, -- SlackClientCount, R35
  ⟨0x2051, 1, 1, 1, 8, (.u 8), .rw, .i, false, (.list [10000000, 10000000000, 10000000, 10000000, 10000000, 10000000, 10000000, 10000000]), (.nat 1000000 100000000000)⟩, -- SlackPeriod, R35
  ⟨0x2052, 1, 1, 0, 0, (.u 1), .const, .i, false, (.k 8), .any⟩, -- SlackClientCount, R35
  ⟨0x2052, 1, 1, 1, 8, (.u 4), .ro, .i, false, (.k 0), .any⟩, -- SlackBacklog, R35
  ⟨0x2053, 1, 1, 0, 0, (.u 1), .const, .i, false, (.k 8), .any⟩, -- SlackClientCount, R35
  ⟨0x2053, 1, 1, 1, 8, (.u 4), .ro, .i, false, (.k 0), .any⟩] -- SlackMissedPeriods, R35

/-- Page 0x20xx. -/
def page20 : List Entry := page20_0 ++ page20_1

/-- Page 0x21xx, part 0. -/
def page21_0 : List Entry := [
  ⟨0x2100, 1, 1, 0, 0, (.u 1), .const, .i, false, (.k 8), .any⟩, -- EventWordCount, R84
  ⟨0x2100, 1, 1, 1, 8, (.u 4), .rw, .o, false, (.k 0), .any⟩, -- EventPending, R84
  ⟨0x2101, 1, 1, 0, 0, (.u 1), .const, .i, false, (.k 8), .any⟩, -- EventWordCount, R84
  ⟨0x2101, 1, 1, 1, 8, (.u 4), .rw, .i, false, (.k 0), .any⟩, -- EventMask, R84
  ⟨0x2102, 1, 1, 0, 0, (.u 1), .const, .i, false, (.k 8), .any⟩, -- WindowCoreCount, R73
  ⟨0x2102, 1, 1, 1, 8, (.u 4), .rw, .o, false, (.k 0), (.oneOf [0])⟩, -- WindowAbortCode, R73
  ⟨0x2103, 1, 1, 0, 0, (.u 1), .const, .i, false, (.k 2), .any⟩, -- EventLossCount, R84
  ⟨0x2103, 1, 1, 1, 1, (.u 4), .ro, .i, false, (.k 0), .any⟩, -- EmcyDropped, R84
  ⟨0x2103, 1, 1, 2, 2, (.u 4), .ro, .i, false, (.k 0), .any⟩, -- TetherNotifyDropped, R84
  ⟨0x2110, 1, 1, 0, 0, (.u 1), .const, .i, false, (.k 128), .any⟩, -- EventRouteCount, R84
  ⟨0x2110, 1, 1, 1, 128, (.u 4), .rw, .o, false, (.k 0), .any⟩, -- EventRoute, R84
  ⟨0x2111, 1, 1, 0, 0, (.u 1), .const, .i, false, (.k 128), .any⟩, -- EventRouteCount, R84
  ⟨0x2111, 1, 1, 1, 128, (.u 4), .rw, .o, false, (.k 0), .any⟩, -- EventRoute, R84
  ⟨0x2120, 1, 1, 0, 0, (.u 1), .const, .i, false, (.k 128), .any⟩, -- EventCountCount, R84
  ⟨0x2120, 1, 1, 1, 128, (.u 4), .rw, .o, false, (.k 0), .any⟩, -- EventCount, R84
  ⟨0x2121, 1, 1, 0, 0, (.u 1), .const, .i, false, (.k 128), .any⟩, -- EventCountCount, R84
  ⟨0x2121, 1, 1, 1, 128, (.u 4), .rw, .o, false, (.k 0), .any⟩, -- EventCount, R84
  ⟨0x2140, 1, 1, 0, 0, (.u 1), .const, .i, false, (.k 9), .any⟩, -- HighestSub, R56
  ⟨0x2140, 1, 1, 1, 9, (.u 1), .rw, .i, false, (.k 3), (.nat 1 16)⟩, -- FaultThreshold, R439
  ⟨0x2141, 1, 1, 0, 0, (.u 1), .const, .i, false, (.k 9), .any⟩, -- HighestSub, R56
  ⟨0x2141, 1, 1, 1, 9, (.u 2), .rw, .i, false, (.k 1000), (.nat 10 60000)⟩, -- FaultWindow, R439
  ⟨0x2142, 1, 1, 0, 0, (.u 1), .const, .i, false, (.k 5), .any⟩, -- HighestSub, R56
  ⟨0x2142, 1, 1, 1, 1, (.u 4), .ro, .i, false, (.k 0), .any⟩, -- FaultLogIndex, R439
  ⟨0x2142, 1, 1, 2, 2, .bool, .wo, .i, false, (.k 0), .any⟩] -- FaultLogSave, R439

/-- Page 0x21xx, part 1. -/
def page21_1 : List Entry := [
  ⟨0x2142, 1, 1, 3, 3, (.u 2), .ro, .i, false, (.k 65535), .any⟩, -- LastFaultSource, R439
  ⟨0x2142, 1, 1, 4, 4, (.u 4), .ro, .i, false, (.k 0), .any⟩, -- TransientCount, R439
  ⟨0x2142, 1, 1, 5, 5, (.u 4), .ro, .i, false, (.k 0), .any⟩] -- PermanentCount, R439

/-- Page 0x21xx. -/
def page21 : List Entry := page21_0 ++ page21_1

/-- Page 0x22xx. -/
def page22 : List Entry := [
  ⟨0x2200, 1, 1, 0, 0, (.u 1), .const, .i, false, (.k 12), .any⟩, -- IslandCount, R98
  ⟨0x2200, 1, 1, 1, 12, .bool, .ro, .i, false, (.k 0), .any⟩, -- IslandReady, R98
  ⟨0x2201, 1, 1, 0, 0, (.u 1), .const, .i, false, (.k 12), .any⟩, -- IslandCount, R98
  ⟨0x2201, 1, 1, 1, 12, (.u 4), .ro, .i, false, (.k 0), .any⟩, -- IslandReadyTime, R98
  ⟨0x2202, 1, 1, 0, 0, (.u 1), .const, .i, false, (.k 4), .any⟩, -- ResetEntryCount, R98
  ⟨0x2202, 1, 1, 1, 1, (.u 1), .ro, .i, false, (.k 0), .any⟩, -- ResetCause, R98
  ⟨0x2202, 1, 1, 2, 2, (.u 4), .ro, .i, false, (.k 0), .any⟩, -- WarmResetCount, R98
  ⟨0x2202, 1, 1, 3, 3, .bool, .ro, .i, false, (.k 0), .any⟩, -- DramRetained, R98
  ⟨0x2202, 1, 1, 4, 4, .bool, .ro, .i, false, (.k 0), .any⟩, -- DramTrained, R98
  ⟨0x2203, 1, 1, 0, 0, (.u 1), .const, .i, false, (.k 3), .any⟩, -- ResetRequestCount, R98
  ⟨0x2203, 1, 1, 1, 1, .bool, .wo, .i, false, (.k 0), .any⟩, -- WarmResetRequest, R98
  ⟨0x2203, 1, 1, 2, 2, (.u 1), .wo, .i, false, (.k 0), (.nat 3 12)⟩, -- IslandResetRequest, R98
  ⟨0x2203, 1, 1, 3, 3, (.u 1), .rw, .i, false, (.k 0), (.oneOf [0, 1])⟩, -- NmtNodeResetMode, R98
  ⟨0x2204, 1, 1, 0, 0, (.u 1), .const, .i, false, (.part 11 7), .any⟩, -- PreReadyCount, R98
  ⟨0x2204, 1, 1, 1, 3, (.u 4), .ro, .i, false, (.k 0), .any⟩, -- PreReadyFrames, R98
  ⟨0x2204, 1, 1, 4, 11, (.u 4), .ro, .i, false, (.k 0), .any⟩] -- PreReadyCameraFrames, R98

/-- Page 0x23xx, part 0. -/
def page23_0 : List Entry := [
  ⟨0x2300, 1, 1, 0, 0, (.u 1), .const, .i, false, (.k 3), .any⟩, -- HighestSub, R56
  ⟨0x2300, 1, 1, 1, 1, (.u 1), .rw, .i, true, (.k 8), (.nat 0 13)⟩, -- MasterChannel, R131
  ⟨0x2300, 1, 1, 2, 2, (.u 1), .rw, .i, true, (.k 255), (.natOr 0 13 255)⟩, -- MasterBackupChannel, R131
  ⟨0x2300, 1, 1, 3, 3, (.u 2), .const, .i, false, (.k 80), .any⟩, -- MinEdgeSpacing, R131
  ⟨0x2301, 1, 1, 0, 0, (.u 1), .const, .i, false, (.k 10), .any⟩, -- HighestSub, R56
  ⟨0x2301, 1, 1, 1, 1, (.i 8), .ro, .i, false, (.k 0), .any⟩, -- WebPosition, R131
  ⟨0x2301, 1, 1, 2, 2, (.i 8), .ro, .i, false, (.k 0), .any⟩, -- WebTotal, R131
  ⟨0x2301, 1, 1, 3, 3, (.i 8), .ro, .i, false, (.k 0), .any⟩, -- CopyCount, R131
  ⟨0x2301, 1, 1, 4, 4, (.i 4), .ro, .i, false, (.k 0), .any⟩, -- WebSpeedActual, R131
  ⟨0x2301, 1, 1, 5, 5, .bool, .ro, .i, false, (.k 0), .any⟩, -- SpeedValid, R131
  ⟨0x2301, 1, 1, 6, 6, (.u 8), .ro, .i, false, (.k 0), .any⟩, -- SampleSeconds, R131
  ⟨0x2301, 1, 1, 7, 7, (.u 4), .ro, .i, false, (.k 0), .any⟩, -- SampleNanoseconds, R131
  ⟨0x2301, 1, 1, 8, 8, (.u 2), .ro, .i, false, (.k 0), .any⟩, -- SampleFraction, R131
  ⟨0x2301, 1, 1, 9, 9, (.u 2), .ro, .i, false, (.k 0), .any⟩, -- MasterStatus, R131
  ⟨0x2301, 1, 1, 10, 10, (.u 1), .ro, .i, false, (.k 255), .any⟩, -- ActiveMaster, R131
  ⟨0x2302, 1, 1, 0, 0, (.u 1), .const, .i, false, (.k 16), .any⟩, -- HighestSub, R56
  ⟨0x2302, 1, 1, 1, 16, (.u 1), .ro, .i, false, (.k 255), .any⟩, -- PositionEventChannel, R131
  ⟨0x2310, 1, 1, 0, 0, (.u 1), .const, .i, false, (.k 14), .any⟩, -- HighestSub, R56
  ⟨0x2310, 1, 1, 1, 14, (.u 1), .rw, .i, true, (.k 0), .any⟩, -- ChannelType, R131
  ⟨0x2311, 1, 1, 0, 0, (.u 1), .const, .i, false, (.k 14), .any⟩, -- HighestSub, R56
  ⟨0x2311, 1, 1, 1, 14, (.u 1), .rw, .i, true, (.k 0), (.oneOf [0, 1])⟩, -- CountingMode, R131
  ⟨0x2312, 1, 1, 0, 0, (.u 1), .const, .i, false, (.k 14), .any⟩, -- HighestSub, R56
  ⟨0x2312, 1, 1, 1, 14, (.u 8), .rw, .i, true, (.k 4294967296), .any⟩, -- CountPitch, R131
  ⟨0x2313, 1, 1, 0, 0, (.u 1), .const, .i, false, (.k 14), .any⟩] -- HighestSub, R56

/-- Page 0x23xx, part 1. -/
def page23_1 : List Entry := [
  ⟨0x2313, 1, 1, 1, 14, (.u 8), .rw, .i, false, (.k 1000000000), .any⟩, -- CopyLength, R131
  ⟨0x2314, 1, 1, 0, 0, (.u 1), .const, .i, false, (.k 14), .any⟩, -- HighestSub, R56
  ⟨0x2314, 1, 1, 1, 14, (.i 8), .rw, .i, false, (.k 18446744072709551616), .any⟩, -- SoftLimitLow, R131
  ⟨0x2315, 1, 1, 0, 0, (.u 1), .const, .i, false, (.k 14), .any⟩, -- HighestSub, R56
  ⟨0x2315, 1, 1, 1, 14, (.i 8), .rw, .i, false, (.k 1000000000), .any⟩, -- SoftLimitHigh, R131
  ⟨0x2316, 1, 1, 0, 0, (.u 1), .const, .i, false, (.k 14), .any⟩, -- HighestSub, R56
  ⟨0x2316, 1, 1, 1, 14, (.u 1), .rw, .i, true, (.k 0), (.nat 0 3)⟩, -- ReferenceMode, R131
  ⟨0x2317, 1, 1, 0, 0, (.u 1), .const, .i, false, (.k 14), .any⟩, -- HighestSub, R56
  ⟨0x2317, 1, 1, 1, 14, (.u 1), .rw, .i, false, (.k 1), .any⟩, -- ReferenceAction, R131
  ⟨0x2318, 1, 1, 0, 0, (.u 1), .const, .i, false, (.k 14), .any⟩, -- HighestSub, R56
  ⟨0x2318, 1, 1, 1, 14, (.i 8), .rw, .i, false, (.k 0), .any⟩, -- ReferenceValue, R131
  ⟨0x2319, 1, 1, 0, 0, (.u 1), .const, .i, false, (.k 14), .any⟩, -- HighestSub, R56
  ⟨0x2319, 1, 1, 1, 14, (.u 4), .rw, .i, false, (.k 0), .any⟩, -- TeethPerReference, R131
  ⟨0x231A, 1, 1, 0, 0, (.u 1), .const, .i, false, (.k 14), .any⟩, -- HighestSub, R56
  ⟨0x231A, 1, 1, 1, 14, (.u 2), .rw, .i, false, (.k 384), (.nat 288 768)⟩, -- GapRatio, R131
  ⟨0x231B, 1, 1, 0, 0, (.u 1), .const, .i, false, (.k 14), .any⟩, -- HighestSub, R56
  ⟨0x231B, 1, 1, 1, 14, (.u 2), .rw, .i, true, (.k 20), (.nat 0 1000)⟩, -- InputFilter, R131
  ⟨0x231C, 1, 1, 0, 0, (.u 1), .const, .i, false, (.k 14), .any⟩, -- HighestSub, R56
  ⟨0x231C, 1, 1, 1, 14, (.u 4), .rw, .i, false, (.k 50000000), (.nat 1000000 1000000000)⟩, -- StandstillTimeout, R131
  ⟨0x231D, 1, 1, 0, 0, (.u 1), .const, .i, false, (.k 14), .any⟩, -- HighestSub, R56
  ⟨0x231D, 1, 1, 1, 14, (.u 4), .rw, .i, false, (.k 100000), .any⟩, -- SpeedMinSpan, R131
  ⟨0x231E, 1, 1, 0, 0, (.u 1), .const, .i, false, (.k 14), .any⟩, -- HighestSub, R56
  ⟨0x231E, 1, 1, 1, 14, .bool, .rw, .i, true, (.k 0), .any⟩, -- DirectionInvert, R131
  ⟨0x231F, 1, 1, 0, 0, (.u 1), .const, .i, false, (.k 14), .any⟩] -- HighestSub, R56

/-- Page 0x23xx, part 2. -/
def page23_2 : List Entry := [
  ⟨0x231F, 1, 1, 1, 14, (.i 8), .wo, .i, false, (.k 0), .any⟩, -- PositionPreset, R131
  ⟨0x2320, 1, 1, 0, 0, (.u 1), .const, .i, false, (.k 14), .any⟩, -- HighestSub, R56
  ⟨0x2320, 1, 1, 1, 14, (.i 8), .ro, .i, false, (.k 0), .any⟩, -- ChannelPosition, R131
  ⟨0x2321, 1, 1, 0, 0, (.u 1), .const, .i, false, (.k 14), .any⟩, -- HighestSub, R56
  ⟨0x2321, 1, 1, 1, 14, (.i 8), .ro, .i, false, (.k 0), .any⟩, -- ChannelTotal, R131
  ⟨0x2322, 1, 1, 0, 0, (.u 1), .const, .i, false, (.k 14), .any⟩, -- HighestSub, R56
  ⟨0x2322, 1, 1, 1, 14, (.i 4), .ro, .i, false, (.k 0), .any⟩, -- ChannelSpeed, R131
  ⟨0x2323, 1, 1, 0, 0, (.u 1), .const, .i, false, (.k 14), .any⟩, -- HighestSub, R56
  ⟨0x2323, 1, 1, 1, 14, (.u 2), .ro, .i, false, (.k 0), .any⟩, -- ChannelStatus, R131
  ⟨0x2324, 1, 1, 0, 0, (.u 1), .const, .i, false, (.k 14), .any⟩, -- HighestSub, R56
  ⟨0x2324, 1, 1, 1, 14, (.i 4), .ro, .i, false, (.k 0), .any⟩, -- ReferenceDeviation, R131
  ⟨0x2325, 1, 1, 0, 0, (.u 1), .const, .i, false, (.k 14), .any⟩, -- HighestSub, R56
  ⟨0x2325, 1, 1, 1, 14, (.i 8), .ro, .i, false, (.k 0), .any⟩, -- AxisOvertravel, R131
  ⟨0x2326, 1, 1, 0, 0, (.u 1), .const, .i, false, (.k 14), .any⟩, -- HighestSub, R56
  ⟨0x2326, 1, 1, 1, 14, (.i 8), .ro, .i, false, (.k 0), .any⟩, -- ChannelCopyCount, R131
  ⟨0x2330, 1, 1, 0, 0, (.u 1), .const, .i, false, (.k 2), .any⟩, -- HighestSub, R56
  ⟨0x2330, 1, 1, 1, 2, (.u 2), .ro, .i, false, (.k 0), .any⟩, -- AnalogueRadius, R131
  ⟨0x2331, 1, 1, 0, 0, (.u 1), .const, .i, false, (.k 2), .any⟩, -- HighestSub, R56
  ⟨0x2331, 1, 1, 1, 2, (.i 2), .rw, .i, false, (.k 0), .any⟩, -- SinOffset, R131
  ⟨0x2332, 1, 1, 0, 0, (.u 1), .const, .i, false, (.k 2), .any⟩, -- HighestSub, R56
  ⟨0x2332, 1, 1, 1, 2, (.i 2), .rw, .i, false, (.k 0), .any⟩, -- CosOffset, R131
  ⟨0x2333, 1, 1, 0, 0, (.u 1), .const, .i, false, (.k 2), .any⟩, -- HighestSub, R56
  ⟨0x2333, 1, 1, 1, 2, (.u 2), .rw, .i, false, (.k 32768), .any⟩, -- CosGain, R131
  ⟨0x2334, 1, 1, 0, 0, (.u 1), .const, .i, false, (.k 2), .any⟩] -- HighestSub, R56

/-- Page 0x23xx, part 3. -/
def page23_3 : List Entry := [
  ⟨0x2334, 1, 1, 1, 2, (.i 2), .rw, .i, false, (.k 0), .any⟩, -- PhaseTrim, R131
  ⟨0x2335, 1, 1, 0, 0, (.u 1), .const, .i, false, (.k 2), .any⟩, -- HighestSub, R56
  ⟨0x2335, 1, 1, 1, 2, (.u 1), .rw, .i, false, (.k 0), (.nat 0 3)⟩, -- ReferenceQuadrant, R131
  ⟨0x2340, 1, 1, 0, 0, (.u 1), .const, .i, false, (.k 4), .any⟩, -- HighestSub, R56
  ⟨0x2340, 1, 1, 1, 4, (.u 2), .rw, .i, true, (.k 100), (.nat 50 5000)⟩, -- SerialClockDivider, R131
  ⟨0x2341, 1, 1, 0, 0, (.u 1), .const, .i, false, (.k 4), .any⟩, -- HighestSub, R56
  ⟨0x2341, 1, 1, 1, 4, (.u 4), .rw, .i, true, (.k 25), .any⟩, -- SerialFrame, R131
  ⟨0x2342, 1, 1, 0, 0, (.u 1), .const, .i, false, (.k 4), .any⟩, -- HighestSub, R56
  ⟨0x2342, 1, 1, 1, 4, (.u 2), .rw, .i, true, (.k 0), .any⟩, -- SerialCrcPolynomial, R131
  ⟨0x2343, 1, 1, 0, 0, (.u 1), .const, .i, false, (.k 4), .any⟩, -- HighestSub, R56
  ⟨0x2343, 1, 1, 1, 4, (.u 2), .rw, .i, true, (.k 0), .any⟩, -- SerialCrcInit, R131
  ⟨0x2344, 1, 1, 0, 0, (.u 1), .const, .i, false, (.k 4), .any⟩, -- HighestSub, R56
  ⟨0x2344, 1, 1, 1, 4, (.u 2), .rw, .i, true, (.k 0), .any⟩, -- SerialCrcFinalXor, R131
  ⟨0x2345, 1, 1, 0, 0, (.u 1), .const, .i, false, (.k 4), .any⟩, -- HighestSub, R56
  ⟨0x2345, 1, 1, 1, 4, (.u 4), .rw, .i, false, (.k 50000), .any⟩, -- SerialReadPeriod, R131
  ⟨0x2346, 1, 1, 0, 0, (.u 1), .const, .i, false, (.k 4), .any⟩, -- HighestSub, R56
  ⟨0x2346, 1, 1, 1, 4, (.u 4), .rw, .i, false, (.k 40000), .any⟩, -- SerialTimeout, R131
  ⟨0x2347, 1, 1, 0, 0, (.u 1), .const, .i, false, (.k 4), .any⟩, -- HighestSub, R56
  ⟨0x2347, 1, 1, 1, 4, (.u 2), .rw, .i, false, (.k 0), (.nat 0 1000)⟩, -- SerialSampleDelay, R131
  ⟨0x2348, 1, 1, 0, 0, (.u 1), .const, .i, false, (.k 4), .any⟩, -- HighestSub, R56
  ⟨0x2348, 1, 1, 1, 4, (.u 2), .rw, .i, false, (.k 20000), .any⟩, -- SerialRecovery, R131
  ⟨0x2350, 1, 1, 0, 0, (.u 1), .const, .i, false, (.k 32), .any⟩, -- HighestSub, R56
  ⟨0x2350, 1, 1, 1, 32, (.u 1), .rw, .i, false, (.k 255), (.natOr 0 13 255)⟩, -- CompareChannel, R131
  ⟨0x2351, 1, 1, 0, 0, (.u 1), .const, .i, false, (.k 32), .any⟩] -- HighestSub, R56

/-- Page 0x23xx, part 4. -/
def page23_4 : List Entry := [
  ⟨0x2351, 1, 1, 1, 32, (.i 8), .rw, .i, false, (.k 0), .any⟩, -- CompareValue, R131
  ⟨0x2352, 1, 1, 0, 0, (.u 1), .const, .i, false, (.k 32), .any⟩, -- HighestSub, R56
  ⟨0x2352, 1, 1, 1, 32, (.u 2), .rw, .i, false, (.k 1), .any⟩, -- CompareControl, R131
  ⟨0x2353, 1, 1, 0, 0, (.u 1), .const, .i, false, (.k 32), .any⟩, -- HighestSub, R56
  ⟨0x2353, 1, 1, 1, 32, (.i 8), .rw, .i, false, (.k 0), .any⟩, -- CompareStep, R131
  ⟨0x2354, 1, 1, 0, 0, (.u 1), .const, .i, false, (.k 32), .any⟩, -- HighestSub, R56
  ⟨0x2354, 1, 1, 1, 32, (.u 8), .ro, .i, false, (.k 0), .any⟩, -- CompareTime, R131
  ⟨0x2355, 1, 1, 0, 0, (.u 1), .const, .i, false, (.k 3), .any⟩, -- HighestSub, R56
  ⟨0x2355, 1, 1, 1, 1, (.u 4), .rw, .o, false, (.k 0), .any⟩, -- CompareFired, R131
  ⟨0x2355, 1, 1, 2, 2, (.u 4), .ro, .i, false, (.k 0), .any⟩, -- CompareBehindFlags, R131
  ⟨0x2355, 1, 1, 3, 3, (.u 4), .ro, .i, false, (.k 0), .any⟩, -- CompareArmed, R131
  ⟨0x2356, 1, 1, 0, 0, (.u 1), .const, .i, false, (.k 4), .any⟩, -- HighestSub, R56
  ⟨0x2356, 1, 1, 1, 4, (.u 4), .rw, .i, false, (.k 1000), (.nat 40 1000000)⟩, -- ComparePulseWidth, R131
  ⟨0x2360, 1, 1, 0, 0, (.u 1), .const, .i, false, (.k 4), .any⟩, -- HighestSub, R56
  ⟨0x2360, 1, 1, 1, 4, (.u 1), .rw, .i, true, (.k 255), (.natOr 0 13 255)⟩, -- EmulationSource, R131
  ⟨0x2361, 1, 1, 0, 0, (.u 1), .const, .i, false, (.k 4), .any⟩, -- HighestSub, R56
  ⟨0x2361, 1, 1, 1, 4, (.u 8), .rw, .i, true, (.k 42949672960000), .any⟩, -- EmulationPitch, R131
  ⟨0x2362, 1, 1, 0, 0, (.u 1), .const, .i, false, (.k 4), .any⟩, -- HighestSub, R56
  ⟨0x2362, 1, 1, 1, 4, (.u 1), .rw, .i, false, (.k 1), (.nat 0 2)⟩, -- EmulationZMode, R131
  ⟨0x2363, 1, 1, 0, 0, (.u 1), .const, .i, false, (.k 4), .any⟩, -- HighestSub, R56
  ⟨0x2363, 1, 1, 1, 4, (.u 4), .rw, .i, false, (.k 4), (.nat 4 4294967295)⟩, -- EmulationZInterval, R131
  ⟨0x2364, 1, 1, 0, 0, (.u 1), .const, .i, false, (.k 4), .any⟩, -- HighestSub, R56
  ⟨0x2364, 1, 1, 1, 4, (.u 4), .ro, .i, false, (.k 0), .any⟩, -- EmulationBacklog, R131
  ⟨0x2365, 1, 1, 0, 0, (.u 1), .const, .i, false, (.k 4), .any⟩] -- HighestSub, R56

/-- Page 0x23xx, part 5. -/
def page23_5 : List Entry := [
  ⟨0x2365, 1, 1, 1, 4, (.u 4), .ro, .i, false, (.k 0), .any⟩, -- EmulationDroppedEdges, R131
  ⟨0x2366, 1, 1, 0, 0, (.u 1), .const, .i, false, (.k 4), .any⟩, -- HighestSub, R56
  ⟨0x2366, 1, 1, 1, 4, (.u 4), .rw, .i, false, (.k 16), .any⟩, -- EmulationMaxLag, R131
  ⟨0x2367, 1, 1, 0, 0, (.u 1), .const, .i, false, (.k 4), .any⟩, -- HighestSub, R56
  ⟨0x2367, 1, 1, 1, 4, (.u 2), .const, .i, false, (.k 1000), .any⟩] -- EmulationLatency, R131

/-- Page 0x23xx. -/
def page23 : List Entry := page23_0 ++ page23_1 ++ page23_2 ++ page23_3 ++ page23_4 ++ page23_5

/-- Page 0x24xx, part 0. -/
def page24_0 : List Entry := [
  ⟨0x2400, 1, 1, 0, 0, (.u 1), .const, .i, false, (.k 6), .any⟩, -- CodecEntryCount, R166
  ⟨0x2400, 1, 1, 1, 1, (.u 2), .const, .i, false, (.k 512), .any⟩, -- SkeinReadVersionMin, R166
  ⟨0x2400, 1, 1, 2, 2, (.u 2), .const, .i, false, (.k 769), .any⟩, -- SkeinReadVersionMax, R166
  ⟨0x2400, 1, 1, 3, 3, (.u 2), .const, .i, false, (.k 769), .any⟩, -- SkeinWriteVersion, R166
  ⟨0x2400, 1, 1, 4, 4, (.u 1), .ro, .i, false, (.k 32), .any⟩, -- DecodeLanesWorking, R166
  ⟨0x2400, 1, 1, 5, 5, (.u 4), .ro, .i, false, (.k 20000), .any⟩, -- DecodeCapacity, R166
  ⟨0x2400, 1, 1, 6, 6, (.u 2), .const, .i, false, (.k 256), .any⟩, -- StateSlotCount, R166
  ⟨0x2401, 1, 1, 0, 0, (.u 1), .const, .i, false, (.k 6), .any⟩, -- JobStoreEntryCount, R166
  ⟨0x2401, 1, 1, 1, 1, (.u 8), .ro, .i, false, .special, .any⟩, -- JobStoreBase, R166
  ⟨0x2401, 1, 1, 2, 2, (.u 8), .ro, .i, false, .special, .any⟩, -- JobStoreSize, R166
  ⟨0x2401, 1, 1, 3, 3, (.u 8), .ro, .i, false, .special, .any⟩, -- JobStoreFree, R166
  ⟨0x2401, 1, 1, 4, 4, (.u 2), .ro, .i, false, (.k 0), .any⟩, -- JobCount, R166
  ⟨0x2401, 1, 1, 5, 5, (.u 4), .const, .i, false, (.k 2097152), .any⟩, -- ExtentSize, R166
  ⟨0x2401, 1, 1, 6, 6, (.u 4), .wo, .i, false, (.k 0), .any⟩, -- JobDelete, R166
  ⟨0x2410, 1, 1, 0, 0, (.u 1), .const, .i, false, (.k 10), .any⟩, -- DecodeCountEntryCount, R166
  ⟨0x2410, 1, 1, 1, 1, (.u 8), .ro, .i, false, (.k 0), .any⟩, -- StripsDecoded, R166
  ⟨0x2410, 1, 1, 2, 2, (.u 4), .ro, .i, false, (.k 0), .any⟩, -- StripCrcFailures, R166
  ⟨0x2410, 1, 1, 3, 3, (.u 4), .ro, .i, false, (.k 0), .any⟩, -- StripDecodeFailures, R166
  ⟨0x2410, 1, 1, 4, 4, (.u 4), .ro, .i, false, (.k 0), .any⟩, -- StripsRefetched, R166
  ⟨0x2410, 1, 1, 5, 5, (.u 4), .ro, .i, false, (.k 0), .any⟩, -- BandsBlanked, R166
  ⟨0x2410, 1, 1, 6, 6, (.u 4), .ro, .i, false, (.k 0), .any⟩, -- DecodeBehindCount, R166
  ⟨0x2410, 1, 1, 7, 7, (.u 8), .ro, .i, false, (.k 0), .any⟩, -- RawLinesDecoded, R166
  ⟨0x2410, 1, 1, 8, 8, (.u 4), .ro, .i, false, (.k 4294967295), .any⟩, -- LastFailedStream, R166
  ⟨0x2410, 1, 1, 9, 9, (.u 4), .ro, .i, false, (.k 0), .any⟩] -- LastFailedStrip, R166

/-- Page 0x24xx, part 1. -/
def page24_1 : List Entry := [
  ⟨0x2410, 1, 1, 10, 10, (.u 1), .ro, .i, false, (.k 0), .any⟩, -- LastFailReason, R166
  ⟨0x2411, 1, 1, 0, 0, (.u 1), .const, .i, false, (.k 32), .any⟩, -- HighestSub, R56
  ⟨0x2411, 1, 1, 1, 32, (.u 1), .ro, .i, false, (.k 0), .any⟩, -- DecodeLaneStatus, R166
  ⟨0x2412, 1, 1, 0, 0, (.u 1), .const, .i, false, (.k 32), .any⟩, -- HighestSub, R56
  ⟨0x2412, 1, 1, 1, 32, (.u 4), .ro, .i, false, (.k 4294967295), .any⟩, -- DecodeLaneStream, R166
  ⟨0x2413, 1, 1, 0, 0, (.u 1), .const, .i, false, (.k 32), .any⟩, -- HighestSub, R56
  ⟨0x2413, 1, 1, 1, 32, .bool, .wo, .i, false, (.k 0), .any⟩, -- InputSpoolResume, R166
  ⟨0x2414, 1, 1, 0, 0, (.u 1), .const, .i, false, (.k 32), .any⟩, -- HighestSub, R56
  ⟨0x2414, 1, 1, 1, 32, (.u 4), .ro, .i, false, (.k 0), .any⟩, -- DecodeLaneFaults, R166
  ⟨0x2420, 1, 1, 0, 0, (.u 1), .const, .i, false, (.k 4), .any⟩, -- HighestSub, R56
  ⟨0x2420, 1, 1, 1, 4, (.dom 48), .wo, .i, false, (.k 0), .any⟩, -- EncodeCommand, R166
  ⟨0x2421, 1, 1, 0, 0, (.u 1), .const, .i, false, (.k 4), .any⟩, -- HighestSub, R56
  ⟨0x2421, 1, 1, 1, 4, (.u 1), .ro, .i, false, (.k 0), .any⟩, -- EncodeStatus, R166
  ⟨0x2422, 1, 1, 0, 0, (.u 1), .const, .i, false, (.k 4), .any⟩, -- HighestSub, R56
  ⟨0x2422, 1, 1, 1, 4, .bool, .wo, .i, false, (.k 0), .any⟩, -- FlushRequest, R166
  ⟨0x2423, 1, 1, 0, 0, (.u 1), .const, .i, false, (.k 4), .any⟩, -- HighestSub, R56
  ⟨0x2423, 1, 1, 1, 4, .bool, .wo, .i, false, (.k 0), .any⟩, -- SpoolResume, R166
  ⟨0x2424, 1, 1, 0, 0, (.u 1), .const, .i, false, (.k 4), .any⟩, -- HighestSub, R56
  ⟨0x2424, 1, 1, 1, 4, (.u 8), .ro, .i, false, (.k 0), .any⟩, -- EncodeBitsOut, R166
  ⟨0x2425, 1, 1, 0, 0, (.u 1), .const, .i, false, (.k 4), .any⟩, -- HighestSub, R56
  ⟨0x2425, 1, 1, 1, 4, (.u 4), .ro, .i, false, (.k 0), .any⟩] -- EncodeRawLines, R166

/-- Page 0x24xx. -/
def page24 : List Entry := page24_0 ++ page24_1

/-- Page 0x25xx. -/
def page25 : List Entry := [
  ⟨0x2500, 1, 1, 0, 0, (.u 1), .const, .i, false, (.k 5), .any⟩, -- StretchEntryCount, R195
  ⟨0x2500, 1, 1, 1, 1, (.i 4), .rw, .i, false, (.k 0), .any⟩, -- StretchAcross, R195
  ⟨0x2500, 1, 1, 2, 2, (.i 4), .rw, .i, false, (.k 0), .any⟩, -- StretchAlong, R195
  ⟨0x2500, 1, 1, 3, 3, (.u 4), .rw, .i, false, (.k 47244), (.nat 0 98303)⟩, -- StretchCentreAcross, R195
  ⟨0x2500, 1, 1, 4, 4, (.i 4), .ro, .i, false, (.k 0), .any⟩, -- StretchAcrossActual, R195
  ⟨0x2500, 1, 1, 5, 5, (.i 4), .ro, .i, false, (.k 0), .any⟩, -- StretchAlongActual, R195
  ⟨0x2501, 1, 1, 0, 0, (.u 1), .const, .i, false, (.k 5), .any⟩, -- CompositorEntryCount, R195
  ⟨0x2501, 1, 1, 1, 1, (.u 8), .ro, .i, false, (.k 0), .any⟩, -- DecidedCopy, R195
  ⟨0x2501, 1, 1, 2, 2, (.u 4), .ro, .i, false, (.k 0), .any⟩, -- FlipCount, R195
  ⟨0x2501, 1, 1, 3, 3, (.u 4), .ro, .i, false, (.k 0), .any⟩, -- LateLayerCount, R195
  ⟨0x2501, 1, 1, 4, 4, (.u 4), .ro, .i, false, (.k 0), .any⟩, -- CompositorBehindCount, R195
  ⟨0x2501, 1, 1, 5, 5, (.u 2), .ro, .i, false, (.k 65535), .any⟩] -- MinLeadLines, R195

/-- Page 0x26xx, part 0. -/
def page26_0 : List Entry := [
  ⟨0x2600, 1, 1, 0, 0, (.u 1), .const, .i, false, (.k 5), .any⟩, -- HighestSub, R56
  ⟨0x2600, 1, 1, 1, 1, (.u 1), .ro, .i, false, (.k 0), .any⟩, -- BankInForce, R221
  ⟨0x2600, 1, 1, 2, 2, (.u 1), .ro, .i, false, (.k 1), .any⟩, -- BankStaging, R221
  ⟨0x2600, 1, 1, 3, 3, (.u 4), .ro, .i, false, (.k 0), .any⟩, -- BankInForceVersion, R221
  ⟨0x2600, 1, 1, 4, 4, (.u 8), .ro, .i, false, (.k 0), .any⟩, -- BankInForceSince, R221
  ⟨0x2600, 1, 1, 5, 5, (.u 4), .const, .i, false, (.part 786432 393216), .any⟩, -- NozzleCount, R221
  ⟨0x2601, 1, 1, 0, 0, (.u 1), .const, .i, false, (.k 9), .any⟩, -- HighestSub, R56
  ⟨0x2601, 1, 1, 1, 1, (.u 8), .wo, .i, false, (.k 0), .any⟩, -- BankCommit, R221
  ⟨0x2601, 1, 1, 2, 2, .bool, .wo, .i, false, (.k 0), .any⟩, -- BankCommitCancel, R221
  ⟨0x2601, 1, 1, 3, 3, (.u 1), .ro, .i, false, (.k 0), .any⟩, -- BankCommitState, R221
  ⟨0x2601, 1, 1, 4, 4, (.u 1), .ro, .i, false, (.k 0), .any⟩, -- BankCommitRefusal, R221
  ⟨0x2601, 1, 1, 5, 5, (.u 8), .ro, .i, false, (.k 18446744073709551615), .any⟩, -- BankCommitCopy, R221
  ⟨0x2601, 1, 1, 6, 6, .bool, .wo, .i, false, (.k 0), .any⟩, -- BankCopyRequest, R221
  ⟨0x2601, 1, 1, 7, 7, .bool, .ro, .i, false, (.k 0), .any⟩, -- BankCopyBusy, R221
  ⟨0x2601, 1, 1, 8, 8, (.u 4), .ro, .i, false, (.k 0), .any⟩, -- BankWritesDiscarded, R221
  ⟨0x2601, 1, 1, 9, 9, (.u 1), .rw, .i, true, (.k 1), .any⟩, -- BankOwner, R221
  ⟨0x2602, 1, 1, 0, 0, (.u 1), .const, .i, false, (.k 4), .any⟩, -- HighestSub, R56
  ⟨0x2602, 1, 1, 1, 4, (.u 1), .rw, .i, false, (.k 228), .any⟩, -- WaveMap2, R221
  ⟨0x2603, 1, 1, 0, 0, (.u 1), .const, .i, false, (.k 4), .any⟩, -- HighestSub, R56
  ⟨0x2603, 1, 1, 1, 4, (.u 8), .rw, .i, false, (.k 18364758544493064720), .any⟩, -- WaveMap4, R221
  ⟨0x2604, 1, 1, 0, 0, (.u 1), .const, .i, false, (.k 4), .any⟩, -- HighestSub, R56
  ⟨0x2604, 1, 1, 1, 4, (.u 1), .ro, .i, false, (.k 228), .any⟩, -- WaveMap2InForce, R221
  ⟨0x2605, 1, 1, 0, 0, (.u 1), .const, .i, false, (.k 4), .any⟩, -- HighestSub, R56
  ⟨0x2605, 1, 1, 1, 4, (.u 8), .ro, .i, false, (.k 18364758544493064720), .any⟩] -- WaveMap4InForce, R221

/-- Page 0x26xx, part 1. -/
def page26_1 : List Entry := [
  ⟨0x2606, 1, 1, 0, 0, (.u 1), .const, .i, false, (.k 8), .any⟩, -- HighestSub, R56
  ⟨0x2606, 1, 1, 1, 8, (.u 2), .rw, .i, false, (.k 65535), .any⟩, -- InkLimit, R221
  ⟨0x2607, 1, 1, 0, 0, (.u 1), .const, .i, false, (.k 2), .any⟩, -- HighestSub, R56
  ⟨0x2607, 1, 1, 1, 1, (.u 4), .rw, .i, false, (.k 524280), (.nat 65535 524280)⟩, -- InkLimitTotal, R221
  ⟨0x2607, 1, 1, 2, 2, (.u 1), .rw, .i, false, (.k 255), .any⟩, -- InkLimitMask, R221
  ⟨0x2608, 1, 1, 0, 0, (.u 1), .const, .i, false, (.k 4), .any⟩, -- HighestSub, R56
  ⟨0x2608, 1, 1, 1, 1, (.u 8), .ro, .i, false, (.k 0), .any⟩, -- InkLimitColumns, R221
  ⟨0x2608, 1, 1, 2, 2, (.u 8), .ro, .i, false, (.k 0), .any⟩, -- CompensationClipped, R221
  ⟨0x2608, 1, 1, 3, 3, (.u 4), .ro, .i, false, (.k 0), .any⟩, -- ToneParityErrors, R221
  ⟨0x2608, 1, 1, 4, 4, (.u 8), .ro, .i, false, (.k 0), .any⟩, -- LinesDecided, R221
  ⟨0x2610, 1, 1, 0, 0, (.u 1), .const, .i, false, (.k 5), .any⟩, -- HighestSub, R56
  ⟨0x2610, 1, 1, 1, 1, (.u 4), .wo, .i, false, (.k 0), .any⟩, -- ScreenArrayLoad, R221
  ⟨0x2610, 1, 1, 2, 2, (.u 1), .wo, .i, false, (.k 0), (.nat 0 7)⟩, -- ScreenArrayRelease, R221
  ⟨0x2610, 1, 1, 3, 3, (.u 1), .ro, .i, false, (.k 0), .any⟩, -- ScreenLoadState, R221
  ⟨0x2610, 1, 1, 4, 4, (.u 1), .ro, .i, false, (.k 0), .any⟩, -- ScreenLoadRefusal, R221
  ⟨0x2610, 1, 1, 5, 5, (.u 2), .ro, .i, false, (.k 320), .any⟩, -- ScreenUnitsFree, R221
  ⟨0x2611, 1, 1, 0, 0, (.u 1), .const, .i, false, (.k 8), .any⟩, -- HighestSub, R56
  ⟨0x2611, 1, 1, 1, 8, (.u 4), .ro, .i, false, (.k 0), .any⟩, -- ScreenSlotState, R221
  ⟨0x2614, 1, 1, 0, 0, (.u 1), .const, .i, false, (.k 8), .any⟩, -- HighestSub, R56
  ⟨0x2614, 1, 1, 1, 8, (.u 1), .rw, .i, false, (.bySub 0 1), (.nat 0 7)⟩, -- ScreenSelect4State, R221
  ⟨0x2615, 1, 1, 0, 0, (.u 1), .const, .i, false, (.k 8), .any⟩, -- HighestSub, R56
  ⟨0x2615, 1, 1, 1, 8, (.u 1), .rw, .i, false, (.list [0, 1, 2, 3, 4, 5, 6, 6]), (.nat 0 7)⟩, -- ScreenSelect16State, R221
  ⟨0x2616, 1, 1, 0, 0, (.u 1), .const, .i, false, (.k 8), .any⟩, -- HighestSub, R56
  ⟨0x2616, 1, 1, 1, 8, (.u 2), .rw, .i, false, (.k 0), (.nat 0 511)⟩] -- AcrossPhase, R221

/-- Page 0x26xx, part 2. -/
def page26_2 : List Entry := [
  ⟨0x2617, 1, 1, 0, 0, (.u 1), .const, .i, false, (.k 8), .any⟩, -- HighestSub, R56
  ⟨0x2617, 1, 1, 1, 8, (.u 2), .rw, .i, false, (.k 0), (.nat 0 511)⟩, -- AlongPhase, R221
  ⟨0x2630, 1, 1, 0, 0, (.u 1), .const, .i, false, (.k 6), .any⟩, -- HighestSub, R56
  ⟨0x2630, 1, 1, 1, 1, (.u 1), .rw, .i, false, (.k 32), (.nat 0 63)⟩, -- NeighbourGain, R221
  ⟨0x2630, 1, 1, 2, 2, (.u 4), .ro, .i, false, (.k 0), .any⟩, -- MissingCount, R221
  ⟨0x2630, 1, 1, 3, 3, (.u 4), .wo, .i, false, (.k 0), .any⟩, -- MissingNozzleMark, R221
  ⟨0x2630, 1, 1, 4, 4, (.u 4), .wo, .i, false, (.k 0), .any⟩, -- MissingNozzleClear, R221
  ⟨0x2630, 1, 1, 5, 5, (.u 4), .ro, .i, false, (.k 0), .any⟩, -- UncoveredGaps, R221
  ⟨0x2630, 1, 1, 6, 6, (.u 1), .rw, .i, false, (.k 3), (.mask 0x3)⟩, -- SourceMask, R221
  ⟨0x2631, 1, 1, 0, 0, (.u 1), .const, .i, false, (.k 8), .any⟩, -- HighestSub, R56
  ⟨0x2631, 1, 1, 1, 8, (.u 1), .rw, .i, false, (.k 255), (.natOr 0 7 255)⟩, -- SubstituteInk, R221
  ⟨0x2632, 1, 1, 0, 0, (.u 1), .const, .i, false, (.k 8), .any⟩, -- HighestSub, R56
  ⟨0x2632, 1, 1, 1, 8, (.u 1), .rw, .i, false, (.k 0), (.nat 0 63)⟩] -- SubstituteWeight, R221

/-- Page 0x26xx. -/
def page26 : List Entry := page26_0 ++ page26_1 ++ page26_2

/-- Page 0x27xx, part 0. -/
def page27_0 : List Entry := [
  ⟨0x2700, 1, 1, 0, 0, (.u 1), .const, .i, false, (.k 10), .any⟩, -- HighestSub, R56
  ⟨0x2700, 1, 1, 1, 1, (.u 8), .rw, .i, true, (.k 0), .any⟩, -- PrintOrigin, R255
  ⟨0x2700, 1, 1, 2, 2, (.u 4), .rw, .i, false, (.k 50000), (.nat 10000 200000)⟩, -- IssueLead, R255
  ⟨0x2700, 1, 1, 3, 3, (.u 4), .rw, .i, false, (.k 12000), (.nat 5000 4294967295)⟩, -- FireMinLead, R255
  ⟨0x2700, 1, 1, 4, 4, (.u 4), .rw, .i, false, (.k 1000000), (.nat 100000 10000000)⟩, -- PredictionWindow, R255
  ⟨0x2700, 1, 1, 5, 5, (.u 4), .rw, .i, false, (.k 20000000), (.nat 0 100000000)⟩, -- PredictionAccelLimit, R255
  ⟨0x2700, 1, 1, 6, 6, (.u 4), .rw, .i, false, (.k 10000000), (.nat 2000000 1000000000)⟩, -- TelemetryTimeout, R255
  ⟨0x2700, 1, 1, 7, 7, (.u 4), .rw, .i, false, (.k 2000), (.nat 0 20000)⟩, -- TickleReadyRate, R255
  ⟨0x2700, 1, 1, 8, 8, (.u 4), .rw, .i, false, (.k 100000000), .any⟩, -- HeadRecoverTime, R255
  ⟨0x2700, 1, 1, 9, 9, (.u 2), .rw, .i, false, (.k 32), .any⟩, -- HeadTempHysteresis, R255
  ⟨0x2700, 1, 1, 10, 10, (.u 4), .rw, .i, false, (.k 100000000), .any⟩, -- WaveAckTimeout, R255
  ⟨0x2701, 1, 1, 0, 0, (.u 1), .const, .i, false, (.k 9), .any⟩, -- HighestSub, R56
  ⟨0x2701, 1, 1, 1, 1, (.u 8), .ro, .i, false, (.k 0), .any⟩, -- RowLinesIssued, R255
  ⟨0x2701, 1, 1, 2, 2, (.u 4), .ro, .i, false, (.k 0), .any⟩, -- FireLateCount, R255
  ⟨0x2701, 1, 1, 3, 3, (.u 4), .ro, .i, false, (.k 0), .any⟩, -- LinesSkippedCount, R255
  ⟨0x2701, 1, 1, 4, 4, (.u 4), .ro, .i, false, (.k 0), .any⟩, -- PredictionFaultCount, R255
  ⟨0x2701, 1, 1, 5, 5, (.u 4), .ro, .i, false, (.k 0), .any⟩, -- RingUnderrunCount, R255
  ⟨0x2701, 1, 1, 6, 6, (.u 4), .ro, .i, false, (.k 0), .any⟩, -- LinesRejectedCount, R255
  ⟨0x2701, 1, 1, 7, 7, (.u 4), .ro, .i, false, (.k 0), .any⟩, -- PredictionErrorMaxCopy, R255
  ⟨0x2701, 1, 1, 8, 8, (.u 4), .rw, .i, false, (.k 0), (.nat 0 0)⟩, -- PredictionErrorMax, R255
  ⟨0x2701, 1, 1, 9, 9, (.i 4), .ro, .i, false, (.k 0), .any⟩, -- AccelerationActual, R255
  ⟨0x2702, 1, 1, 0, 0, (.u 1), .const, .i, false, (.k 15), .any⟩, -- HighestSub, R56
  ⟨0x2702, 1, 1, 1, 15, (.u 2), .ro, .i, false, (.k 65535), .any⟩, -- FiringEventSlot, R255
  ⟨0x2710, 1, 1, 0, 0, (.u 1), .const, .i, false, (.k 6), .any⟩] -- HighestSub, R56

/-- Page 0x27xx, part 1. -/
def page27_1 : List Entry := [
  ⟨0x2710, 1, 1, 1, 1, (.u 1), .wo, .i, false, (.k 0), .any⟩, -- WavePushRequest, R255
  ⟨0x2710, 1, 1, 2, 2, (.u 4), .rw, .i, false, (.k 1), .any⟩, -- WavePushVersion, R255
  ⟨0x2710, 1, 1, 3, 3, (.u 1), .ro, .i, false, (.k 0), .any⟩, -- WavePushState, R255
  ⟨0x2710, 1, 1, 4, 4, (.u 1), .ro, .i, false, (.k 0), .any⟩, -- WavePushRefusal, R255
  ⟨0x2710, 1, 1, 5, 5, (.u 2), .ro, .i, false, (.k 65535), .any⟩, -- WavePushFailSlot, R255
  ⟨0x2710, 1, 1, 6, 6, .bool, .wo, .i, false, (.k 0), .any⟩, -- WavePushCancel, R255
  ⟨0x2711, 1, 1, 0, 0, (.u 1), .const, .i, false, (.k 8), .any⟩, -- HighestSub, R56
  ⟨0x2711, 1, 1, 1, 8, (.u 4), .ro, .i, false, (.k 0), .any⟩, -- WaveVersionInForce, R255
  ⟨0x2712, 1, 1, 0, 0, (.u 1), .const, .i, false, (.k 8), .any⟩, -- HighestSub, R56
  ⟨0x2712, 1, 1, 1, 8, (.u 4), .ro, .i, false, (.k 0), .any⟩, -- WaveVersionStaged, R255
  ⟨0x2713, 1, 1, 0, 0, (.u 1), .const, .i, false, (.k 8), .any⟩, -- HighestSub, R56
  ⟨0x2713, 1, 1, 1, 8, (.u 8), .wo, .i, false, (.k 0), .any⟩, -- WaveBankSwitch, R255
  ⟨0x2714, 1, 1, 0, 0, (.u 1), .const, .i, false, (.k 8), .any⟩, -- HighestSub, R56
  ⟨0x2714, 1, 1, 1, 8, (.u 8), .ro, .i, false, (.k 18446744073709551615), .any⟩, -- WaveSwitchCopy, R255
  ⟨0x2740, 1, 1, 0, 0, (.u 1), .const, .i, false, (.k 13), .any⟩, -- HighestSub, R56
  ⟨0x2740, 1, 1, 1, 1, (.u 1), .wo, .i, false, (.k 0), (.nat 0 3)⟩, -- ServicePattern, R255
  ⟨0x2740, 1, 1, 2, 2, (.u 1), .ro, .i, false, (.k 0), .any⟩, -- ServiceState, R255
  ⟨0x2740, 1, 1, 3, 3, (.u 1), .rw, .i, false, (.k 255), .any⟩, -- ServiceInkMask, R255
  ⟨0x2740, 1, 1, 4, 4, (.u 1), .rw, .i, false, (.k 3), (.nat 1 15)⟩, -- SpitCode, R255
  ⟨0x2740, 1, 1, 5, 5, (.u 4), .rw, .i, false, (.k 1000), .any⟩, -- SpitCount, R255
  ⟨0x2740, 1, 1, 6, 6, (.u 4), .rw, .i, false, (.k 5000), (.nat 1 20000)⟩, -- SpitRate, R255
  ⟨0x2740, 1, 1, 7, 7, (.u 4), .rw, .i, false, (.k 2000000000), .any⟩, -- PurgeDuration, R255
  ⟨0x2740, 1, 1, 8, 8, (.u 1), .rw, .i, false, (.k 16), (.nat 8 64)⟩, -- LadderPitch, R255
  ⟨0x2740, 1, 1, 9, 9, (.u 1), .rw, .i, false, (.k 8), (.nat 1 64)⟩] -- LadderRungLines, R255

/-- Page 0x27xx, part 2. -/
def page27_2 : List Entry := [
  ⟨0x2740, 1, 1, 10, 10, (.u 1), .rw, .i, false, (.k 8), (.nat 0 64)⟩, -- LadderRungGap, R255
  ⟨0x2740, 1, 1, 11, 11, (.u 1), .rw, .i, false, (.k 3), (.nat 1 15)⟩, -- LadderCode, R255
  ⟨0x2740, 1, 1, 12, 12, (.i 8), .ro, .i, false, (.k 0), .any⟩, -- LadderStartTotal, R255
  ⟨0x2740, 1, 1, 13, 13, (.u 1), .ro, .i, false, (.k 0), .any⟩, -- ServiceLastResult, R255
  ⟨0x2750, 1, 1, 0, 0, (.u 1), .const, .i, false, (.k 3), .any⟩, -- HighestSub, R56
  ⟨0x2750, 1, 1, 1, 1, (.u 1), .rw, .i, false, (.k 1), (.mask 0x7)⟩, -- NozzleFlagKindMask, R255
  ⟨0x2750, 1, 1, 2, 2, (.u 4), .ro, .i, false, (.k 0), .any⟩, -- NozzleFlagsReceived, R255
  ⟨0x2750, 1, 1, 3, 3, (.u 4), .ro, .i, false, (.k 0), .any⟩] -- NozzleFlagsAdded, R255

/-- Page 0x27xx. -/
def page27 : List Entry := page27_0 ++ page27_1 ++ page27_2

/-- Page 0x28xx. -/
def page28 : List Entry := [
  ⟨0x2800, 1, 1, 0, 0, (.u 1), .const, .i, false, (.k 13), .any⟩, -- HighestSub, R56
  ⟨0x2800, 1, 1, 1, 1, (.u 1), .const, .i, false, (.k 18), .any⟩, -- HalyardVersionMin, R288
  ⟨0x2800, 1, 1, 2, 2, (.u 1), .const, .i, false, (.k 33), .any⟩, -- HalyardVersionMax, R288
  ⟨0x2800, 1, 1, 3, 3, (.u 2), .const, .i, false, (.k 16384), .any⟩, -- AlignmentPeriod, R288
  ⟨0x2800, 1, 1, 4, 4, (.u 4), .rw, .i, false, (.k 100000000), (.nat 20000000 1000000000)⟩, -- LinkUpTimeout, R288
  ⟨0x2800, 1, 1, 5, 5, (.u 2), .rw, .i, false, (.k 16), .any⟩, -- LaneErrorLossLimit, R288
  ⟨0x2800, 1, 1, 6, 6, (.u 1), .rw, .i, false, (.k 8), (.nat 1 64)⟩, -- EchoInterval, R288
  ⟨0x2800, 1, 1, 7, 7, (.u 4), .rw, .i, false, (.k 2000), .any⟩, -- EchoTolerance, R288
  ⟨0x2800, 1, 1, 8, 8, (.u 2), .rw, .i, false, (.k 150), .any⟩, -- MarginLow, R288
  ⟨0x2800, 1, 1, 9, 9, (.u 2), .rw, .i, false, (.k 100), .any⟩, -- MarginMin, R288
  ⟨0x2800, 1, 1, 10, 10, (.u 4), .rw, .i, false, (.k 1000000), .any⟩, -- CfgTimeout, R288
  ⟨0x2800, 1, 1, 11, 11, (.u 2), .ro, .i, false, (.k 0), .any⟩, -- LinksUp, R288
  ⟨0x2800, 1, 1, 12, 12, (.u 2), .ro, .i, false, (.k 0), .any⟩, -- LinksRetired, R288
  ⟨0x2800, 1, 1, 13, 13, (.u 2), .wo, .i, false, (.k 0), .any⟩] -- RecalibrationRequest, R288

/-- Page 0x29xx, part 0. -/
def page29_0 : List Entry := [
  ⟨0x2900, 1, 1, 0, 0, (.u 1), .const, .i, false, (.k 19), .any⟩, -- HighestSub, R56
  ⟨0x2900, 1, 1, 1, 1, (.u 8), .const, .i, false, (.k 181820282197333), .any⟩, -- CameraLinePitch, R313
  ⟨0x2900, 1, 1, 2, 2, (.i 8), .rw, .i, true, (.k 0), .any⟩, -- CameraOffset, R313
  ⟨0x2900, 1, 1, 3, 3, (.u 2), .rw, .i, true, (.k 256), (.mul 16 1024 8)⟩, -- FrameLines, R313
  ⟨0x2900, 1, 1, 4, 4, (.u 2), .rw, .i, true, (.k 8), (.mul 8 256 8)⟩, -- FrameGapLines, R313
  ⟨0x2900, 1, 1, 5, 5, (.u 4), .rw, .i, true, (.k 1985229328), .any⟩, -- BandSequence, R313
  ⟨0x2900, 1, 1, 6, 6, (.u 2), .rw, .i, false, (.k 1024), (.nat 512 4096)⟩, -- MergeRatio, R313
  ⟨0x2900, 1, 1, 7, 7, (.u 2), .rw, .i, false, (.k 60000), (.nat 1 65534)⟩, -- MergeThreshold, R313
  ⟨0x2900, 1, 1, 8, 8, (.u 2), .rw, .i, false, (.k 52428), (.nat 16384 65534)⟩, -- FlatTarget, R313
  ⟨0x2900, 1, 1, 9, 9, (.u 2), .rw, .i, true, (.k 64), (.mul 8 512 8)⟩, -- ZoneWidth, R313
  ⟨0x2900, 1, 1, 10, 10, (.u 4), .rw, .i, false, (.k 21167), (.nat 0 1000000)⟩, -- RungMargin, R313
  ⟨0x2900, 1, 1, 11, 11, (.u 2), .rw, .i, false, (.k 64), (.nat 8 4096)⟩, -- DarkLinesPerCapture, R313
  ⟨0x2900, 1, 1, 12, 12, (.u 2), .rw, .i, false, (.k 256), .any⟩, -- DarkTolerance, R313
  ⟨0x2900, 1, 1, 13, 13, (.u 1), .rw, .i, false, (.k 16), (.nat 1 64)⟩, -- FlatFramesPerCapture, R313
  ⟨0x2900, 1, 1, 14, 14, (.u 2), .rw, .i, false, (.k 164), .any⟩, -- FlatTolerance, R313
  ⟨0x2900, 1, 1, 15, 15, .bool, .wo, .i, false, (.k 0), .any⟩, -- FlatFieldCaptureRequest, R313
  ⟨0x2900, 1, 1, 16, 16, (.u 1), .ro, .i, false, (.k 0), .any⟩, -- CalibrationState, R313
  ⟨0x2900, 1, 1, 17, 17, (.u 4), .rw, .i, false, (.k 100000000), (.nat 1000000 1000000000)⟩, -- FrameTimeout, R313
  ⟨0x2900, 1, 1, 18, 18, (.u 1), .ro, .i, false, (.k 0), .any⟩, -- FramesInFrameStage, R313
  ⟨0x2900, 1, 1, 19, 19, (.u 4), .ro, .i, false, (.k 0), .any⟩, -- ColumnWriteIndex, R313
  ⟨0x2901, 1, 1, 0, 0, (.u 1), .const, .i, false, (.k 16), .any⟩, -- HighestSub, R56
  ⟨0x2901, 1, 1, 1, 16, (.u 1), .ro, .i, false, (.k 255), .any⟩, -- InspectionEventPort, R313
  ⟨0x2903, 1, 1, 0, 0, (.u 1), .const, .i, false, (.part 8 4), .any⟩, -- HighestSub, R56
  ⟨0x2903, 1, 1, 1, 8, .bool, .wo, .i, false, (.k 0), .any⟩] -- CoefficientCommit, R313

/-- Page 0x29xx, part 1. -/
def page29_1 : List Entry := [
  ⟨0x2904, 1, 1, 0, 0, (.u 1), .const, .i, false, (.part 8 4), .any⟩, -- HighestSub, R56
  ⟨0x2904, 1, 1, 1, 8, (.u 1), .ro, .i, false, (.k 0), .any⟩] -- CoefficientCommitRefusal, R313

/-- Page 0x29xx. -/
def page29 : List Entry := page29_0 ++ page29_1

/-- Page 0x2Axx, part 0. -/
def page2A_0 : List Entry := [
  ⟨0x2A00, 1, 1, 0, 0, (.u 1), .const, .i, false, (.k 16), .any⟩, -- HighestSub, R56
  ⟨0x2A00, 1, 1, 1, 1, (.u 1), .ro, .i, false, (.k 0), .any⟩, -- IlluminationState, R331
  ⟨0x2A00, 1, 1, 2, 2, .bool, .wo, .i, false, (.k 0), .any⟩, -- IlluminationCommit, R331
  ⟨0x2A00, 1, 1, 3, 3, (.u 1), .ro, .i, false, (.k 0), .any⟩, -- IlluminationCommitRefusal, R331
  ⟨0x2A00, 1, 1, 4, 4, (.u 2), .rw, .i, false, (.k 100), (.nat 50 1000)⟩, -- PulseDelay, R331
  ⟨0x2A00, 1, 1, 5, 5, (.u 2), .rw, .i, false, (.k 200), (.nat 100 1000)⟩, -- RowRelease, R331
  ⟨0x2A00, 1, 1, 6, 6, (.u 2), .rw, .i, false, (.k 1000), (.nat 200 5000)⟩, -- PrechargeTime, R331
  ⟨0x2A00, 1, 1, 7, 7, (.u 2), .rw, .i, false, (.k 100), (.nat 10 2000)⟩, -- PrechargeTolerance, R331
  ⟨0x2A00, 1, 1, 8, 8, (.u 4), .rw, .i, false, (.k 12000), (.nat 1000 40000)⟩, -- ExposureSplit, R331
  ⟨0x2A00, 1, 1, 9, 9, (.u 2), .rw, .i, false, (.k 5000), (.nat 2000 15000)⟩, -- FlashWidth, R331
  ⟨0x2A00, 1, 1, 10, 10, (.u 2), .rw, .i, false, (.k 8192), .any⟩, -- OpenCurrentFraction, R331
  ⟨0x2A00, 1, 1, 11, 11, (.u 2), .rw, .i, false, (.k 16384), .any⟩, -- ShortVoltageFraction, R331
  ⟨0x2A00, 1, 1, 12, 12, (.u 2), .rw, .i, false, (.k 50), .any⟩, -- VfTolerance, R331
  ⟨0x2A00, 1, 1, 13, 13, .bool, .wo, .i, false, (.k 0), .any⟩, -- IlluminationRestart, R331
  ⟨0x2A00, 1, 1, 14, 14, (.u 1), .ro, .i, false, (.k 0), .any⟩, -- OffCause, R331
  ⟨0x2A00, 1, 1, 15, 15, (.u 1), .ro, .i, false, (.k 255), .any⟩, -- OffString, R331
  ⟨0x2A00, 1, 1, 16, 16, (.u 8), .ro, .i, false, (.k 0), .any⟩, -- IlluminationInvalidSince, R331
  ⟨0x2A01, 1, 1, 0, 0, (.u 1), .const, .i, false, (.k 16), .any⟩, -- HighestSub, R56
  ⟨0x2A01, 1, 1, 1, 16, (.u 2), .rw, .i, false, (.k 1000), .any⟩, -- StageSenseGain, R331
  ⟨0x2A02, 1, 1, 0, 0, (.u 1), .const, .i, false, (.k 16), .any⟩, -- HighestSub, R56
  ⟨0x2A02, 1, 1, 1, 16, (.u 2), .rw, .i, false, (.k 14648), .any⟩, -- VoltageSenseGain, R331
  ⟨0x2A03, 1, 1, 0, 0, (.u 1), .const, .i, false, (.k 16), .any⟩, -- HighestSub, R56
  ⟨0x2A03, 1, 1, 1, 16, (.u 2), .rw, .i, false, (.k 2000), .any⟩, -- StageCurrentMax, R331
  ⟨0x2A04, 1, 1, 0, 0, (.u 1), .const, .i, false, (.k 5), .any⟩] -- HighestSub, R56

/-- Page 0x2Axx, part 1. -/
def page2A_1 : List Entry := [
  ⟨0x2A04, 1, 1, 1, 1, (.u 4), .ro, .i, false, (.k 0), .any⟩, -- UnlitLines, R331
  ⟨0x2A04, 1, 1, 2, 2, (.u 4), .ro, .i, false, (.k 0), .any⟩, -- PrechargeFaults, R331
  ⟨0x2A04, 1, 1, 3, 3, (.i 8), .ro, .i, false, (.k 0), .any⟩, -- LastUnlitLabel, R331
  ⟨0x2A04, 1, 1, 4, 4, (.u 4), .ro, .i, false, (.k 0), .any⟩, -- DiagnosticPulses, R331
  ⟨0x2A04, 1, 1, 5, 5, (.u 4), .ro, .i, false, (.k 0), .any⟩, -- SensorOutOfRangeCount, R331
  ⟨0x2A05, 1, 1, 0, 0, (.u 1), .const, .i, false, (.k 8), .any⟩, -- HighestSub, R56
  ⟨0x2A05, 1, 1, 1, 8, (.u 1), .ro, .i, false, (.k 255), .any⟩] -- IlluminationEventString, R331

/-- Page 0x2Axx. -/
def page2A : List Entry := page2A_0 ++ page2A_1

/-- Page 0x2Bxx, part 0. -/
def page2B_0 : List Entry := [
  ⟨0x2B00, 1, 1, 0, 0, (.u 1), .const, .i, false, (.k 22), .any⟩, -- HighestSub, R56
  ⟨0x2B00, 1, 1, 1, 1, (.u 1), .ro, .i, false, (.k 0), .any⟩, -- LoopState, R350
  ⟨0x2B00, 1, 1, 2, 2, (.u 1), .ro, .i, false, (.k 0), .any⟩, -- FreezeCause, R350
  ⟨0x2B00, 1, 1, 3, 3, (.u 2), .rw, .i, false, (.k 10), .any⟩, -- LadderInterval, R350
  ⟨0x2B00, 1, 1, 4, 4, (.u 4), .rw, .i, false, (.k 0), .any⟩, -- LadderStartLine, R350
  ⟨0x2B00, 1, 1, 5, 5, (.u 8), .rw, .i, false, (.k 20000000), .any⟩, -- ZoneWindowStart, R350
  ⟨0x2B00, 1, 1, 6, 6, (.u 8), .rw, .i, false, (.k 980000000), .any⟩, -- ZoneWindowEnd, R350
  ⟨0x2B00, 1, 1, 7, 7, (.u 2), .rw, .i, false, (.k 328), .any⟩, -- LadderStep, R350
  ⟨0x2B00, 1, 1, 8, 8, (.u 2), .rw, .i, false, (.k 328), .any⟩, -- ZoneStep, R350
  ⟨0x2B00, 1, 1, 9, 9, (.u 2), .rw, .i, false, (.k 8192), .any⟩, -- GainMin, R350
  ⟨0x2B00, 1, 1, 10, 10, (.u 2), .rw, .i, false, (.k 24576), .any⟩, -- GainMax, R350
  ⟨0x2B00, 1, 1, 11, 11, (.u 2), .rw, .i, false, (.k 123), .any⟩, -- LadderAgreement, R350
  ⟨0x2B00, 1, 1, 12, 12, (.u 2), .rw, .i, false, (.k 200), .any⟩, -- ZoneAgreement, R350
  ⟨0x2B00, 1, 1, 13, 13, (.u 2), .rw, .i, false, (.k 2000), .any⟩, -- ZoneMinAbsorbance, R350
  ⟨0x2B00, 1, 1, 14, 14, (.u 2), .rw, .i, false, (.k 1024), .any⟩, -- MissingDensity, R350
  ⟨0x2B00, 1, 1, 15, 15, (.u 1), .rw, .i, false, (.k 24), (.nat 1 127)⟩, -- DeviationLimit, R350
  ⟨0x2B00, 1, 1, 16, 16, (.u 1), .rw, .i, false, (.k 3), (.nat 1 3)⟩, -- LadderCode4State, R350
  ⟨0x2B00, 1, 1, 17, 17, (.u 1), .rw, .i, false, (.k 15), (.nat 1 15)⟩, -- LadderCode16State, R350
  ⟨0x2B00, 1, 1, 18, 18, .bool, .wo, .i, false, (.k 0), .any⟩, -- ZoneCaptureRequest, R350
  ⟨0x2B00, 1, 1, 19, 19, .bool, .wo, .i, false, (.k 0), .any⟩, -- OverlapCalibrationRequest, R350
  ⟨0x2B00, 1, 1, 20, 20, .bool, .wo, .i, false, (.k 0), .any⟩, -- SubstitutionCalibrationRequest, R350
  ⟨0x2B00, 1, 1, 21, 21, (.u 1), .rw, .i, false, (.k 16), .any⟩, -- OverlapCentroidLimit, R350
  ⟨0x2B00, 1, 1, 22, 22, (.u 1), .rw, .i, false, (.k 2), .any⟩, -- SubstitutionTolerance, R350
  ⟨0x2B01, 1, 1, 0, 0, (.u 1), .const, .i, false, (.k 8), .any⟩] -- HighestSub, R56

/-- Page 0x2Bxx, part 1. -/
def page2B_1 : List Entry := [
  ⟨0x2B01, 1, 1, 1, 1, (.u 4), .ro, .i, false, (.k 0), .any⟩, -- UpdatesInForce, R350
  ⟨0x2B01, 1, 1, 2, 2, (.u 4), .ro, .i, false, (.k 0), .any⟩, -- MeasurementsDisagreed, R350
  ⟨0x2B01, 1, 1, 3, 3, (.u 4), .ro, .i, false, (.k 0), .any⟩, -- StepLimitedCount, R350
  ⟨0x2B01, 1, 1, 4, 4, (.u 4), .ro, .i, false, (.k 0), .any⟩, -- KnotsClipped, R350
  ⟨0x2B01, 1, 1, 5, 5, (.u 4), .ro, .i, false, (.k 0), .any⟩, -- LadderSetsMeasured, R350
  ⟨0x2B01, 1, 1, 6, 6, (.u 4), .ro, .i, false, (.k 0), .any⟩, -- LadderSetsSkipped, R350
  ⟨0x2B01, 1, 1, 7, 7, (.u 8), .ro, .i, false, (.k 0), .any⟩, -- LastUpdateCopy, R350
  ⟨0x2B01, 1, 1, 8, 8, (.u 4), .ro, .i, false, (.k 0), .any⟩, -- NozzlesMarkedByLadder, R350
  ⟨0x2B10, 1, 1, 0, 0, (.u 1), .const, .i, false, (.k 8), .any⟩, -- HighestSub, R56
  ⟨0x2B10, 1, 1, 1, 8, (.u 1), .rw, .i, false, (.bySub 0 1), (.nat 0 7)⟩, -- MeasureRow, R350
  ⟨0x2B11, 1, 1, 0, 0, (.u 1), .const, .i, false, (.k 8), .any⟩, -- HighestSub, R56
  ⟨0x2B11, 1, 1, 1, 8, (.u 4), .rw, .i, false, (.k 0), .any⟩, -- RungTarget, R350
  ⟨0x2B12, 1, 1, 0, 0, (.u 1), .const, .i, false, (.k 8), .any⟩, -- HighestSub, R56
  ⟨0x2B12, 1, 1, 1, 8, (.u 4), .ro, .i, false, (.k 0), .any⟩, -- RungMeasured, R350
  ⟨0x2B13, 1, 1, 0, 0, (.u 1), .const, .i, false, (.k 8), .any⟩, -- HighestSub, R56
  ⟨0x2B13, 1, 1, 1, 8, (.u 1), .ro, .i, false, (.k 0), .any⟩, -- InkLoopState, R350
  ⟨0x2B20, 8, 1, 0, 0, (.u 1), .const, .i, false, (.k 8), .any⟩, -- HighestSub, R56
  ⟨0x2B20, 8, 1, 1, 8, (.u 4), .rw, .i, false, (.bySub 0 8192), (.nat 0 131071)⟩, -- BaseKnot, R350
  ⟨0x2B40, 1, 1, 0, 0, (.u 1), .const, .i, false, (.k 10), .any⟩, -- HighestSub, R56
  ⟨0x2B40, 1, 1, 1, 1, (.u 8), .rw, .i, false, (.k 3000000000), .any⟩, -- RejectDistance, R350
  ⟨0x2B40, 1, 1, 2, 2, (.u 4), .rw, .i, false, (.k 100000000), (.nat 1000000 1000000000)⟩, -- RejectPulseLength, R350
  ⟨0x2B40, 1, 1, 3, 3, .bool, .rw, .i, true, (.k 0), .any⟩, -- RejectActiveLow, R350
  ⟨0x2B40, 1, 1, 4, 4, (.u 2), .rw, .i, false, (.k 0), .any⟩, -- WasteDeviation, R350
  ⟨0x2B40, 1, 1, 5, 5, (.u 4), .ro, .i, false, (.k 0), .any⟩] -- VerdictWriteIndex, R350

/-- Page 0x2Bxx, part 2. -/
def page2B_2 : List Entry := [
  ⟨0x2B40, 1, 1, 6, 6, (.u 8), .ro, .i, false, (.k 0), .any⟩, -- LastVerdictCopy, R350
  ⟨0x2B40, 1, 1, 7, 7, (.u 2), .ro, .i, false, (.k 0), .any⟩, -- LastVerdictReasons, R350
  ⟨0x2B40, 1, 1, 8, 8, (.u 4), .ro, .i, false, (.k 0), .any⟩, -- WasteCopyCount, R350
  ⟨0x2B40, 1, 1, 9, 9, (.u 4), .ro, .i, false, (.k 0), .any⟩, -- RejectLateCount, R350
  ⟨0x2B40, 1, 1, 10, 10, (.u 4), .ro, .i, false, (.k 0), .any⟩] -- RejectOverrunCount, R350

/-- Page 0x2Bxx. -/
def page2B : List Entry := page2B_0 ++ page2B_1 ++ page2B_2

/-- Page 0x2Cxx, part 0. -/
def page2C_0 : List Entry := [
  ⟨0x2C00, 1, 1, 0, 0, (.u 1), .const, .i, false, (.k 23), .any⟩, -- HighestSub, R56
  ⟨0x2C00, 1, 1, 1, 1, (.u 2), .ro, .i, false, (.k 0), .any⟩, -- DramOperatingPoint, R378
  ⟨0x2C00, 1, 1, 2, 2, (.u 2), .rw, .i, true, (.k 6400), (.oneOf [4800, 6400])⟩, -- PrintOperatingPoint, R378
  ⟨0x2C00, 1, 1, 3, 3, (.u 1), .ro, .i, false, (.k 0), .any⟩, -- SubchannelsWorking, R378
  ⟨0x2C00, 1, 1, 4, 4, (.u 8), .ro, .i, false, (.k 0), .any⟩, -- MappedCapacity, R378
  ⟨0x2C00, 1, 1, 5, 5, (.u 4), .ro, .i, false, (.k 0), .any⟩, -- DramBandwidth, R378
  ⟨0x2C00, 1, 1, 6, 6, (.u 8), .rw, .i, true, (.k 1073741824), .any⟩, -- RingAreaSize, R378
  ⟨0x2C00, 1, 1, 7, 7, (.u 1), .rw, .i, true, (.k 32), (.oneOf [16, 24, 32])⟩, -- DeviceDensity, R378
  ⟨0x2C00, 1, 1, 8, 8, (.u 1), .rw, .i, true, (.k 2), (.oneOf [1, 2])⟩, -- RanksPerSubchannel, R378
  ⟨0x2C00, 1, 1, 9, 9, (.u 2), .rw, .i, false, (.k 200), (.nat 0 2000)⟩, -- PageIdleTimer, R378
  ⟨0x2C00, 1, 1, 10, 10, (.u 1), .rw, .i, false, (.k 2), (.nat 1 8)⟩, -- TrainingTolerance, R378
  ⟨0x2C00, 1, 1, 11, 11, (.u 1), .rw, .i, false, (.k 3), (.nat 1 8)⟩, -- TrainingAttempts, R378
  ⟨0x2C00, 1, 1, 12, 12, (.u 2), .rw, .i, false, (.k 8), (.nat 2 1000)⟩, -- DeviceMarkThreshold, R378
  ⟨0x2C00, 1, 1, 13, 13, (.u 4), .rw, .i, false, (.k 1000), (.nat 0 10000)⟩, -- ScrubRate, R378
  ⟨0x2C00, 1, 1, 14, 14, (.u 1), .rw, .i, false, (.k 4), .any⟩, -- DriftLimit, R378
  ⟨0x2C00, 1, 1, 15, 15, .bool, .wo, .i, false, (.k 0), .any⟩, -- RetrainRequest, R378
  ⟨0x2C00, 1, 1, 16, 16, .bool, .rw, .i, true, (.k 0), .any⟩, -- WriteCrcEnable, R378
  ⟨0x2C00, 1, 1, 17, 17, .bool, .rw, .i, true, (.k 0), .any⟩, -- CaParityEnable, R378
  ⟨0x2C00, 1, 1, 18, 18, (.u 4), .ro, .i, false, (.k 0), .any⟩, -- ProtectedAccessRefused, R378
  ⟨0x2C00, 1, 1, 19, 19, (.u 4), .ro, .i, false, (.k 0), .any⟩, -- FrequencyChangeTime, R378
  ⟨0x2C00, 1, 1, 20, 20, (.u 4), .ro, .i, false, (.k 0), .any⟩, -- ScrubPassCount, R378
  ⟨0x2C00, 1, 1, 21, 21, (.u 8), .ro, .i, false, (.k 0), .any⟩, -- ScrubPosition, R378
  ⟨0x2C00, 1, 1, 22, 22, (.u 8), .ro, .i, false, (.k 0), .any⟩, -- InitialisedUpTo, R378
  ⟨0x2C00, 1, 1, 23, 23, (.u 1), .rw, .i, true, (.k 15), (.nat 1 15)⟩] -- SubchannelsFitted, R378

/-- Page 0x2Cxx, part 1. -/
def page2C_1 : List Entry := [
  ⟨0x2C10, 1, 1, 0, 0, (.u 1), .const, .i, false, (.k 4), .any⟩, -- HighestSub, R56
  ⟨0x2C10, 1, 1, 1, 4, (.u 1), .ro, .i, false, (.k 0), .any⟩, -- SubchannelState, R378
  ⟨0x2C11, 1, 1, 0, 0, (.u 1), .const, .i, false, (.k 4), .any⟩, -- HighestSub, R56
  ⟨0x2C11, 1, 1, 1, 4, (.u 1), .ro, .i, false, (.k 0), .any⟩, -- PointsTrained, R378
  ⟨0x2C12, 1, 1, 0, 0, (.u 1), .const, .i, false, (.k 4), .any⟩, -- HighestSub, R56
  ⟨0x2C12, 1, 1, 1, 4, .bool, .ro, .i, false, (.k 0), .any⟩, -- RetrainNeeded, R378
  ⟨0x2C13, 1, 1, 0, 0, (.u 1), .const, .i, false, (.k 4), .any⟩, -- HighestSub, R56
  ⟨0x2C13, 1, 1, 1, 4, (.u 8), .ro, .i, false, (.k 0), .any⟩, -- EccCorrectedCount, R378
  ⟨0x2C14, 1, 1, 0, 0, (.u 1), .const, .i, false, (.k 4), .any⟩, -- HighestSub, R56
  ⟨0x2C14, 1, 1, 1, 4, (.u 4), .ro, .i, false, (.k 0), .any⟩, -- EccUncorrectableCount, R378
  ⟨0x2C15, 1, 1, 0, 0, (.u 1), .const, .i, false, (.k 4), .any⟩, -- HighestSub, R56
  ⟨0x2C15, 1, 1, 1, 4, (.u 4), .ro, .i, false, (.k 0), .any⟩, -- PoisonedReads, R378
  ⟨0x2C16, 1, 1, 0, 0, (.u 1), .const, .i, false, (.k 4), .any⟩, -- HighestSub, R56
  ⟨0x2C16, 1, 1, 1, 4, (.u 4), .ro, .i, false, (.k 0), .any⟩, -- AlertReplays, R378
  ⟨0x2C17, 1, 1, 0, 0, (.u 1), .const, .i, false, (.k 4), .any⟩, -- HighestSub, R56
  ⟨0x2C17, 1, 1, 1, 4, (.u 1), .ro, .i, false, (.k 255), .any⟩, -- MarkedDevice, R378
  ⟨0x2C18, 1, 1, 0, 0, (.u 1), .const, .i, false, (.k 4), .any⟩, -- HighestSub, R56
  ⟨0x2C18, 1, 1, 1, 4, .bool, .wo, .i, false, (.k 0), .any⟩, -- DeviceMarkClear, R378
  ⟨0x2C19, 1, 1, 0, 0, (.u 1), .const, .i, false, (.k 4), .any⟩, -- HighestSub, R56
  ⟨0x2C19, 1, 1, 1, 4, (.u 4), .ro, .i, false, (.k 0), .any⟩, -- ForcedRefreshes, R378
  ⟨0x2C30, 1, 1, 0, 0, (.u 1), .const, .i, false, (.k 7), .any⟩, -- HighestSub, R56
  ⟨0x2C30, 1, 1, 1, 7, (.u 4), .ro, .i, false, (.k 0), .any⟩, -- StoreParityErrors, R378
  ⟨0x2C40, 1, 1, 0, 0, (.u 1), .const, .i, false, (.k 16), .any⟩, -- HighestSub, R56
  ⟨0x2C40, 1, 1, 1, 16, (.u 1), .ro, .i, false, (.k 255), .any⟩] -- MemoryEventSource, R378

/-- Page 0x2Cxx. -/
def page2C : List Entry := page2C_0 ++ page2C_1

/-- Page 0x2Dxx. -/
def page2D : List Entry := [
  ⟨0x2D00, 1, 1, 0, 0, (.u 1), .const, .i, false, (.k 3), .any⟩, -- HighestSub, R56
  ⟨0x2D00, 1, 1, 1, 1, (.u 1), .const, .i, false, (.k 16), .any⟩, -- DmaChannelCount, R394
  ⟨0x2D00, 1, 1, 2, 2, (.u 2), .const, .i, false, (.k 256), .any⟩, -- ProgramBufferSize, R394
  ⟨0x2D00, 1, 1, 3, 3, (.u 8), .ro, .i, false, (.k 0), .any⟩, -- BurstsIssued, R394
  ⟨0x2D01, 1, 1, 0, 0, (.u 1), .const, .i, false, (.k 2), .any⟩, -- HighestSub, R56
  ⟨0x2D01, 1, 1, 1, 1, (.u 4), .rw, .i, false, (.k 0), .any⟩, -- SoftRequest, R394
  ⟨0x2D01, 1, 1, 2, 2, (.u 8), .ro, .i, false, (.k 0), .any⟩, -- RequestLineLevel, R394
  ⟨0x2D02, 1, 1, 0, 0, (.u 1), .const, .i, false, (.k 4), .any⟩, -- HighestSub, R56
  ⟨0x2D02, 1, 1, 1, 4, (.u 4), .rw, .i, false, (.k 1000000), (.nat 1000 1000000000)⟩, -- DmaTimerPeriod, R394
  ⟨0x2D03, 1, 1, 0, 0, (.u 1), .const, .i, false, (.k 4), .any⟩, -- HighestSub, R56
  ⟨0x2D03, 1, 1, 1, 4, (.u 4), .rw, .i, false, (.k 1000), (.nat 100 1000000000)⟩] -- DmaTimerWidth, R394

/-- Page 0x2Exx, part 0. -/
def page2E_0 : List Entry := [
  ⟨0x2E00, 1, 1, 0, 0, (.u 1), .const, .i, false, (.k 3), .any⟩, -- HighestSub, R56
  ⟨0x2E00, 1, 1, 1, 3, (.u 8), .const, .i, false, .special, .any⟩, -- PortMacAddress, R425
  ⟨0x2E01, 1, 1, 0, 0, (.u 1), .const, .i, false, (.k 3), .any⟩, -- HighestSub, R56
  ⟨0x2E01, 1, 1, 1, 3, (.u 4), .rw, .i, true, (.k 0), .any⟩, -- Ipv4Address, R425
  ⟨0x2E02, 1, 1, 0, 0, (.u 1), .const, .i, false, (.k 3), .any⟩, -- HighestSub, R56
  ⟨0x2E02, 1, 1, 1, 3, (.u 4), .rw, .i, true, (.k 4294967040), .any⟩, -- Ipv4Netmask, R425
  ⟨0x2E03, 1, 1, 0, 0, (.u 1), .const, .i, false, (.k 3), .any⟩, -- HighestSub, R56
  ⟨0x2E03, 1, 1, 1, 3, (.u 4), .rw, .i, true, (.k 0), .any⟩, -- Ipv4Gateway, R425
  ⟨0x2E04, 1, 1, 0, 0, (.u 1), .const, .i, false, (.k 3), .any⟩, -- HighestSub, R56
  ⟨0x2E04, 1, 1, 1, 3, (.u 2), .rw, .i, true, (.k 65535), (.natOr 0 4094 65535)⟩, -- VlanId, R425
  ⟨0x2E05, 1, 1, 0, 0, (.u 1), .const, .i, false, (.k 3), .any⟩, -- HighestSub, R56
  ⟨0x2E05, 1, 1, 1, 3, .bool, .ro, .i, false, (.k 0), .any⟩, -- PortLinkUp, R425
  ⟨0x2E06, 1, 1, 0, 0, (.u 1), .const, .i, false, (.k 3), .any⟩, -- HighestSub, R56
  ⟨0x2E06, 1, 1, 1, 3, (.u 8), .ro, .i, false, (.k 0), .any⟩, -- FramesReceived, R425
  ⟨0x2E07, 1, 1, 0, 0, (.u 1), .const, .i, false, (.k 3), .any⟩, -- HighestSub, R56
  ⟨0x2E07, 1, 1, 1, 3, (.u 8), .ro, .i, false, (.k 0), .any⟩, -- FramesDiscarded, R425
  ⟨0x2E08, 1, 1, 0, 0, (.u 1), .const, .i, false, (.part 2 1), .any⟩, -- HighestSub, R56
  ⟨0x2E08, 1, 1, 1, 2, (.u 8), .ro, .i, false, (.k 0), .any⟩, -- FecCorrected, R425
  ⟨0x2E09, 1, 1, 0, 0, (.u 1), .const, .i, false, (.part 2 1), .any⟩, -- HighestSub, R56
  ⟨0x2E09, 1, 1, 1, 2, (.u 8), .ro, .i, false, (.k 0), .any⟩, -- FecUncorrected, R425
  ⟨0x2E0A, 1, 1, 0, 0, (.u 1), .const, .i, false, (.k 1), .any⟩, -- HighestSub, R56
  ⟨0x2E0A, 1, 1, 1, 1, (.u 1), .rw, .i, true, (.k 0), (.oneOf [0, 1])⟩, -- NcInterfaceMode, R425
  ⟨0x2E10, 1, 1, 0, 0, (.u 1), .const, .i, false, (.k 14), .any⟩, -- HighestSub, R56
  ⟨0x2E10, 1, 1, 1, 1, (.u 2), .rw, .i, true, (.k 47000), .any⟩] -- IngestUdpPort, R425

/-- Page 0x2Exx, part 1. -/
def page2E_1 : List Entry := [
  ⟨0x2E10, 1, 1, 2, 2, (.u 4), .rw, .i, false, (.k 10000), (.nat 1000 1000000)⟩, -- AckInterval, R425
  ⟨0x2E10, 1, 1, 3, 3, (.u 4), .rw, .i, false, (.k 20000), (.nat 1000 1000000)⟩, -- NackDelay, R425
  ⟨0x2E10, 1, 1, 4, 4, (.u 4), .rw, .i, false, (.k 100000), (.nat 10000 10000000)⟩, -- NackInterval, R425
  ⟨0x2E10, 1, 1, 5, 5, (.u 1), .rw, .i, false, (.k 4), (.nat 1 16)⟩, -- NackRetries, R425
  ⟨0x2E10, 1, 1, 6, 6, (.u 4), .rw, .i, false, (.k 2000000), .any⟩, -- RefetchTimeout, R425
  ⟨0x2E10, 1, 1, 7, 7, (.u 2), .rw, .i, false, (.k 1024), (.nat 64 4096)⟩, -- ReorderDepth, R425
  ⟨0x2E10, 1, 1, 8, 8, (.u 2), .rw, .i, true, (.k 80), (.nat 8 96)⟩, -- IngestSpoolBuffers, R425
  ⟨0x2E10, 1, 1, 9, 9, (.u 4), .rw, .i, false, (.k 1000000000), .any⟩, -- FlowIdleTimeout, R425
  ⟨0x2E10, 1, 1, 10, 10, (.u 8), .ro, .i, false, (.k 0), .any⟩, -- IngestBytes, R425
  ⟨0x2E10, 1, 1, 11, 11, (.u 4), .ro, .i, false, (.k 0), .any⟩, -- DatagramsDropped, R425
  ⟨0x2E10, 1, 1, 12, 12, (.u 4), .ro, .i, false, (.k 0), .any⟩, -- NacksSent, R425
  ⟨0x2E10, 1, 1, 13, 13, (.u 4), .ro, .i, false, (.k 0), .any⟩, -- FlowRestarts, R425
  ⟨0x2E10, 1, 1, 14, 14, (.u 4), .ro, .i, false, (.k 0), .any⟩, -- ObjectsDiscarded, R425
  ⟨0x2E11, 1, 1, 0, 0, (.u 1), .const, .i, false, (.part 128 64), .any⟩, -- HighestSub, R56
  ⟨0x2E11, 1, 1, 1, 128, (.u 1), .ro, .i, false, (.k 0), .any⟩, -- FlowState, R425
  ⟨0x2E20, 1, 1, 0, 0, (.u 1), .const, .i, false, (.k 9), .any⟩, -- HighestSub, R56
  ⟨0x2E20, 1, 1, 1, 1, (.u 2), .rw, .i, true, (.k 47010), .any⟩, -- TetherUdpPort, R425
  ⟨0x2E20, 1, 1, 2, 2, (.u 1), .rw, .i, true, (.k 7), (.mask 0x7)⟩, -- TetherPorts, R425
  ⟨0x2E20, 1, 1, 3, 3, (.u 1), .const, .i, false, (.k 16), .any⟩, -- TetherVersionMin, R425
  ⟨0x2E20, 1, 1, 4, 4, (.u 1), .const, .i, false, (.k 33), .any⟩, -- TetherVersionMax, R425
  ⟨0x2E20, 1, 1, 5, 5, (.u 4), .rw, .i, false, (.k 10000), (.nat 100 600000)⟩, -- SessionTimeout, R425
  ⟨0x2E20, 1, 1, 6, 6, (.u 4), .rw, .i, false, (.k 1000000), .any⟩, -- NotifyRetry, R425
  ⟨0x2E20, 1, 1, 7, 7, (.u 1), .ro, .i, false, (.k 0), .any⟩, -- SessionsOpen, R425
  ⟨0x2E20, 1, 1, 8, 8, (.u 4), .ro, .i, false, (.k 0), .any⟩] -- AuthFailures, R425

/-- Page 0x2Exx, part 2. -/
def page2E_2 : List Entry := [
  ⟨0x2E20, 1, 1, 9, 9, (.u 4), .ro, .i, false, (.k 0), .any⟩, -- RequestsDropped, R425
  ⟨0x2E30, 1, 1, 0, 0, (.u 1), .const, .i, false, (.k 15), .any⟩, -- HighestSub, R56
  ⟨0x2E30, 1, 1, 1, 1, (.u 1), .rw, .i, false, (.k 16), (.nat 1 127)⟩, -- CanNodeId, R425
  ⟨0x2E30, 1, 1, 2, 2, (.u 1), .rw, .i, false, (.k 1), .any⟩, -- NominalPrescaler, R425
  ⟨0x2E30, 1, 1, 3, 3, (.u 1), .rw, .i, false, (.k 63), .any⟩, -- NominalSeg1, R425
  ⟨0x2E30, 1, 1, 4, 4, (.u 1), .rw, .i, false, (.k 16), .any⟩, -- NominalSeg2, R425
  ⟨0x2E30, 1, 1, 5, 5, (.u 1), .rw, .i, false, (.k 16), .any⟩, -- NominalSjw, R425
  ⟨0x2E30, 1, 1, 6, 6, (.u 1), .rw, .i, false, (.k 1), .any⟩, -- DataPrescaler, R425
  ⟨0x2E30, 1, 1, 7, 7, (.u 1), .rw, .i, false, (.k 11), .any⟩, -- DataSeg1, R425
  ⟨0x2E30, 1, 1, 8, 8, (.u 1), .rw, .i, false, (.k 4), .any⟩, -- DataSeg2, R425
  ⟨0x2E30, 1, 1, 9, 9, (.u 1), .rw, .i, false, (.k 4), .any⟩, -- DataSjw, R425
  ⟨0x2E30, 1, 1, 10, 10, (.u 1), .rw, .i, false, (.k 12), .any⟩, -- TdcOffset, R425
  ⟨0x2E30, 1, 1, 11, 11, .bool, .rw, .i, false, (.k 1), .any⟩, -- CanAutoRecover, R425
  ⟨0x2E30, 1, 1, 12, 12, .bool, .wo, .i, false, (.k 0), .any⟩, -- CanRecover, R425
  ⟨0x2E30, 1, 1, 13, 13, (.u 1), .ro, .i, false, (.k 0), .any⟩, -- CanState, R425
  ⟨0x2E30, 1, 1, 14, 14, (.u 1), .ro, .i, false, (.k 0), .any⟩, -- CanTxErrorCount, R425
  ⟨0x2E30, 1, 1, 15, 15, (.u 1), .ro, .i, false, (.k 0), .any⟩, -- CanRxErrorCount, R425
  ⟨0x2E40, 1, 1, 0, 0, (.u 1), .const, .i, false, (.k 19), .any⟩, -- HighestSub, R56
  ⟨0x2E40, 1, 1, 1, 1, (.u 1), .rw, .i, true, (.k 2), (.oneOf [0, 1, 2, 255])⟩, -- PtpPort, R425
  ⟨0x2E40, 1, 1, 2, 2, (.u 1), .rw, .i, true, (.k 0), .any⟩, -- PtpDomain, R425
  ⟨0x2E40, 1, 1, 3, 3, (.u 1), .rw, .i, true, (.k 0), (.oneOf [0, 1])⟩, -- PtpTransport, R425
  ⟨0x2E40, 1, 1, 4, 4, (.u 1), .rw, .i, true, (.k 0), (.oneOf [0, 1])⟩, -- PtpDelayMechanism, R425
  ⟨0x2E40, 1, 1, 5, 5, (.u 1), .rw, .i, false, (.k 255), .any⟩, -- PtpPriority1, R425
  ⟨0x2E40, 1, 1, 6, 6, (.u 1), .rw, .i, false, (.k 255), .any⟩] -- PtpPriority2, R425

/-- Page 0x2Exx, part 3. -/
def page2E_3 : List Entry := [
  ⟨0x2E40, 1, 1, 7, 7, .bool, .rw, .i, true, (.k 1), .any⟩, -- PtpSlaveOnly, R425
  ⟨0x2E40, 1, 1, 8, 8, (.u 1), .rw, .i, true, (.k 0), (.mask 0x7)⟩, -- TransparentPorts, R425
  ⟨0x2E40, 1, 1, 9, 9, (.u 4), .rw, .i, false, (.k 10000), .any⟩, -- PtpStepThreshold, R425
  ⟨0x2E40, 1, 1, 10, 10, (.u 4), .rw, .i, false, (.k 100), .any⟩, -- PtpLockThreshold, R425
  ⟨0x2E40, 1, 1, 11, 11, (.u 2), .rw, .i, false, (.k 5), (.nat 1 100)⟩, -- PrintSlewLimit, R425
  ⟨0x2E40, 1, 1, 12, 12, (.u 1), .ro, .i, false, (.k 0), .any⟩, -- PtpState, R425
  ⟨0x2E40, 1, 1, 13, 13, (.i 8), .ro, .i, false, (.k 0), .any⟩, -- PtpOffset, R425
  ⟨0x2E40, 1, 1, 14, 14, (.i 8), .ro, .i, false, (.k 0), .any⟩, -- PtpMeanPathDelay, R425
  ⟨0x2E40, 1, 1, 15, 15, (.u 8), .ro, .i, false, (.k 0), .any⟩, -- GrandmasterIdentity, R425
  ⟨0x2E40, 1, 1, 16, 16, (.u 8), .ro, .i, false, (.k 0), .any⟩, -- TimeNowSeconds, R425
  ⟨0x2E40, 1, 1, 17, 17, (.u 4), .ro, .i, false, (.k 0), .any⟩, -- TimeNowNanoseconds, R425
  ⟨0x2E40, 1, 1, 18, 18, (.u 2), .ro, .i, false, (.k 0), .any⟩, -- TimeNowFraction, R425
  ⟨0x2E40, 1, 1, 19, 19, (.u 4), .rw, .o, false, (.k 0), (.oneOf [0])⟩, -- TcResidenceMax, R425
  ⟨0x2E41, 1, 1, 0, 0, (.u 1), .const, .i, false, (.k 3), .any⟩, -- HighestSub, R56
  ⟨0x2E41, 1, 1, 1, 3, (.i 4), .rw, .i, false, (.k 0), (.int (-1000000) 1000000)⟩, -- PtpAsymmetry, R425
  ⟨0x2E42, 1, 1, 0, 0, (.u 1), .const, .i, false, (.k 3), .any⟩, -- HighestSub, R56
  ⟨0x2E42, 1, 1, 1, 3, (.u 4), .rw, .i, true, (.list [96000, 96000, 312000]), .any⟩, -- PtpIngressLatency, R425
  ⟨0x2E43, 1, 1, 0, 0, (.u 1), .const, .i, false, (.k 3), .any⟩, -- HighestSub, R56
  ⟨0x2E43, 1, 1, 1, 3, (.u 4), .rw, .i, true, (.list [42000, 42000, 168000]), .any⟩, -- PtpEgressLatency, R425
  ⟨0x2E50, 1, 1, 0, 0, (.u 1), .const, .i, false, (.k 16), .any⟩, -- HighestSub, R56
  ⟨0x2E50, 1, 1, 1, 16, (.u 1), .ro, .i, false, (.k 255), .any⟩] -- NetworkEventPort, R425

/-- Page 0x2Exx. -/
def page2E : List Entry := page2E_0 ++ page2E_1 ++ page2E_2 ++ page2E_3

/-- Page 0x2Fxx, part 0. -/
def page2F_0 : List Entry := [
  ⟨0x2F00, 1, 1, 0, 0, (.u 1), .const, .i, false, (.k 5), .any⟩, -- HighestSub, R56
  ⟨0x2F00, 1, 1, 1, 1, (.i 2), .ro, .i, false, (.k 0), .any⟩, -- DieTemperature, R439
  ⟨0x2F00, 1, 1, 2, 2, (.i 2), .ro, .i, false, (.k 0), .any⟩, -- DieSensorA, R439
  ⟨0x2F00, 1, 1, 3, 3, (.i 2), .ro, .i, false, (.k 0), .any⟩, -- DieSensorB, R439
  ⟨0x2F00, 1, 1, 4, 4, (.u 1), .ro, .i, false, (.k 0), .any⟩, -- ThermalState, R439
  ⟨0x2F00, 1, 1, 5, 5, (.i 2), .rw, .o, false, (.k 0), (.oneOf [0])⟩, -- DieTemperatureMax, R439
  ⟨0x2F01, 1, 1, 0, 0, (.u 1), .const, .i, false, (.k 8), .any⟩, -- HighestSub, R56
  ⟨0x2F01, 1, 1, 1, 1, (.i 2), .rw, .i, false, (.k 1520), (.int (1280) 1680)⟩, -- WarningThreshold, R439
  ⟨0x2F01, 1, 1, 2, 2, (.i 2), .rw, .i, false, (.k 1680), (.int (1280) 1680)⟩, -- ThrottleThreshold, R439
  ⟨0x2F01, 1, 1, 3, 3, (.i 2), .rw, .p, false, (.k 1888), (.int (1600) 1888)⟩, -- ShutdownThreshold, R439
  ⟨0x2F01, 1, 1, 4, 4, (.i 2), .const, .i, false, (.k 1984), .any⟩, -- HardTripThreshold, R439
  ⟨0x2F01, 1, 1, 5, 7, (.u 1), .rw, .i, false, (.k 80), (.nat 16 160)⟩, -- ThresholdHysteresis, R439
  ⟨0x2F01, 1, 1, 8, 8, (.u 1), .rw, .i, false, (.k 9), (.nat 1 99)⟩, -- ThrottleFactor, R439
  ⟨0x2F02, 1, 1, 0, 0, (.u 1), .const, .i, false, (.k 5), .any⟩, -- HighestSub, R56
  ⟨0x2F02, 1, 1, 1, 1, (.u 2), .ro, .i, false, (.k 0), .any⟩, -- ThermalShutdownCount, R439
  ⟨0x2F02, 1, 1, 2, 2, (.u 1), .ro, .i, false, (.k 0), .any⟩, -- LastShutdownKind, R439
  ⟨0x2F02, 1, 1, 3, 3, (.i 2), .ro, .i, false, (.k 0), .any⟩, -- LastShutdownTemperature, R439
  ⟨0x2F02, 1, 1, 4, 4, (.u 2), .ro, .i, false, (.k 0), .any⟩, -- WarmTriggersIgnored, R439
  ⟨0x2F02, 1, 1, 5, 5, (.u 8), .ro, .i, false, (.k 0), .any⟩, -- ThrottleTime, R439
  ⟨0x2F03, 1, 1, 0, 0, (.u 1), .const, .i, false, (.k 4), .any⟩, -- HighestSub, R56
  ⟨0x2F03, 1, 1, 1, 1, (.i 2), .wo, .i, false, (.k 0), .any⟩, -- ThermalTrimReference, R439
  ⟨0x2F03, 1, 1, 2, 3, (.i 2), .ro, .i, false, (.k 0), .any⟩, -- ThermalTrim, R439
  ⟨0x2F03, 1, 1, 4, 4, (.u 1), .ro, .i, false, (.k 0), .any⟩, -- ThermalTrimState, R439
  ⟨0x2F10, 1, 1, 0, 0, (.u 1), .const, .i, false, (.k 5), .any⟩] -- HighestSub, R56

/-- Page 0x2Fxx, part 1. -/
def page2F_1 : List Entry := [
  ⟨0x2F10, 1, 1, 1, 1, (.u 1), .wo, .i, false, (.k 0), .any⟩, -- CalibrationRecordSave, R439
  ⟨0x2F10, 1, 1, 2, 2, (.u 1), .ro, .i, false, (.k 0), .any⟩, -- CalibrationRecordState, R439
  ⟨0x2F10, 1, 1, 3, 3, (.u 1), .ro, .i, false, (.k 0), .any⟩, -- CalibrationRecordsValid, R439
  ⟨0x2F10, 1, 1, 4, 4, (.u 1), .rw, .i, false, (.k 223), .any⟩, -- CalibrationRecordLoadMask, R439
  ⟨0x2F10, 1, 1, 5, 5, (.u 4), .ro, .i, false, (.k 0), .any⟩, -- CalibrationRecordSequence, R439
  ⟨0x2F40, 1, 1, 0, 0, (.u 1), .const, .i, false, (.k 8), .any⟩, -- HighestSub, R56
  ⟨0x2F40, 1, 1, 1, 8, (.u 4), .ro, .i, false, (.k 0), .any⟩, -- CalibrationCount, R350
  ⟨0x2F41, 1, 1, 0, 0, (.u 1), .const, .i, false, (.k 8), .any⟩, -- HighestSub, R56
  ⟨0x2F41, 1, 1, 1, 8, (.u 8), .ro, .i, false, (.k 0), .any⟩, -- CalibrationTime, R350
  ⟨0x2F42, 1, 1, 0, 0, (.u 1), .const, .i, false, (.k 8), .any⟩, -- HighestSub, R56
  ⟨0x2F42, 1, 1, 1, 8, (.u 4), .ro, .i, false, (.k 0), .any⟩] -- CalibrationDiscarded, R350

/-- Page 0x2Fxx. -/
def page2F : List Entry := page2F_0 ++ page2F_1

/-- Page 0x30xx, part 0. -/
def page30_0 : List Entry := [
  ⟨0x3000, 1, 1, 0, 0, (.u 1), .const, .i, false, (.k 9), .any⟩, -- HighestSub, R56
  ⟨0x3000, 1, 1, 1, 1, .bool, .rw, .i, true, (.k 0), .any⟩, -- BridleEnable, R455
  ⟨0x3000, 1, 1, 2, 2, (.u 1), .rw, .i, true, (.k 128), (.nat 1 255)⟩, -- ConfiguredClaim, R455
  ⟨0x3000, 1, 1, 3, 3, (.u 4), .rw, .i, true, (.k 100000), (.nat 20000 100000)⟩, -- ClaimInterval, R455
  ⟨0x3000, 1, 1, 4, 4, (.u 4), .rw, .i, false, (.k 950000), (.nat 500000 5000000)⟩, -- TakeoverGuard, R455
  ⟨0x3000, 1, 1, 5, 5, .bool, .rw, .i, false, (.k 1), .any⟩, -- ReturnEnable, R455
  ⟨0x3000, 1, 1, 6, 6, (.u 4), .rw, .i, false, (.k 2000), (.nat 500 600000)⟩, -- ReturnHealthyTime, R455
  ⟨0x3000, 1, 1, 7, 7, (.u 4), .rw, .i, false, (.k 1), .any⟩, -- SerialTakeoverSkip, R455
  ⟨0x3000, 1, 1, 8, 8, (.u 8), .rw, .i, true, (.k 0), (.nat 0 281474976710655)⟩, -- PeerMacAddress, R455
  ⟨0x3000, 1, 1, 9, 9, (.u 4), .rw, .i, false, (.k 1000), .any⟩, -- MirrorPositionTolerance, R455
  ⟨0x3001, 1, 1, 0, 0, (.u 1), .const, .i, false, (.k 8), .any⟩, -- HighestSub, R56
  ⟨0x3001, 1, 1, 1, 1, (.u 1), .ro, .i, false, (.k 0), .any⟩, -- BridleRole, R455
  ⟨0x3001, 1, 1, 2, 2, (.u 1), .ro, .i, false, (.k 0), .any⟩, -- ClaimActual, R455
  ⟨0x3001, 1, 1, 3, 3, (.u 1), .ro, .i, false, (.k 0), .any⟩, -- PeerClaim, R455
  ⟨0x3001, 1, 1, 4, 4, .bool, .ro, .i, false, (.k 0), .any⟩, -- PairReady, R455
  ⟨0x3001, 1, 1, 5, 5, .bool, .ro, .i, false, (.k 0), .any⟩, -- MirrorCompleteFlag, R455
  ⟨0x3001, 1, 1, 6, 6, .bool, .ro, .i, false, (.k 0), .any⟩, -- PairConflict, R455
  ⟨0x3001, 1, 1, 7, 7, (.u 8), .ro, .i, false, (.k 18446744073709551615), .any⟩, -- ReturnCopyPending, R455
  ⟨0x3001, 1, 1, 8, 8, (.i 4), .ro, .i, false, (.k 0), .any⟩, -- MirrorPositionError, R455
  ⟨0x3002, 1, 1, 0, 0, (.u 1), .const, .i, false, (.k 7), .any⟩, -- HighestSub, R56
  ⟨0x3002, 1, 1, 1, 1, (.u 4), .ro, .i, false, (.k 0), .any⟩, -- TakeoverCount, R455
  ⟨0x3002, 1, 1, 2, 2, (.u 4), .ro, .i, false, (.k 0), .any⟩, -- LastTakeoverGap, R455
  ⟨0x3002, 1, 1, 3, 4, (.u 4), .ro, .i, false, (.k 0), .any⟩, -- HeartbeatsMissed, R455
  ⟨0x3002, 1, 1, 5, 5, (.u 4), .ro, .i, false, (.k 0), .any⟩] -- HeartbeatsRejected, R455

/-- Page 0x30xx, part 1. -/
def page30_1 : List Entry := [
  ⟨0x3002, 1, 1, 6, 6, (.u 4), .ro, .i, false, (.k 0), .any⟩, -- MirrorResyncs, R455
  ⟨0x3002, 1, 1, 7, 7, (.u 4), .ro, .i, false, (.k 0), .any⟩] -- ReturnCount, R455

/-- Page 0x30xx. -/
def page30 : List Entry := page30_0 ++ page30_1

/-- Page 0x31xx, part 0. -/
def page31_0 : List Entry := [
  ⟨0x3100, 1, 1, 0, 0, (.u 1), .const, .i, false, (.k 2), .any⟩, -- HighestSub, R56
  ⟨0x3100, 1, 1, 1, 1, (.u 1), .ro, .i, false, (.k 0), .any⟩, -- LifecycleState, R472
  ⟨0x3100, 1, 1, 2, 2, (.u 1), .wo, .p, false, (.k 0), (.oneOf [1, 2])⟩, -- LifecycleAdvance, R472
  ⟨0x3101, 1, 1, 0, 0, (.u 1), .const, .i, false, (.k 6), .any⟩, -- HighestSub, R56
  ⟨0x3101, 1, 1, 1, 1, (.u 1), .ro, .i, false, (.k 0), .any⟩, -- BootStatus, R472
  ⟨0x3101, 1, 1, 2, 2, (.u 1), .ro, .i, false, (.k 0), .any⟩, -- BootSlotRun, R472
  ⟨0x3101, 1, 1, 3, 3, (.u 1), .rw, .i, false, (.k 0), (.oneOf [0, 1])⟩, -- BootSlotPreferred, R472
  ⟨0x3101, 1, 1, 4, 4, (.u 4), .ro, .i, false, (.k 0), .any⟩, -- FirmwareSecurityVersion, R472
  ⟨0x3101, 1, 1, 5, 5, (.u 1), .ro, .i, false, (.k 0), .any⟩, -- SecurityVersionFloor, R472
  ⟨0x3101, 1, 1, 6, 6, .bool, .wo, .i, false, (.k 0), .any⟩, -- SecurityVersionCommit, R472
  ⟨0x3102, 1, 1, 0, 0, (.u 1), .const, .i, false, (.k 3), .any⟩, -- HighestSub, R56
  ⟨0x3102, 1, 1, 1, 1, (.u 1), .wo, .i, false, (.k 0), (.oneOf [1, 3, 4])⟩, -- PackageLoad, R472
  ⟨0x3102, 1, 1, 2, 2, (.u 1), .ro, .i, false, (.k 0), .any⟩, -- PackageState, R472
  ⟨0x3102, 1, 1, 3, 3, (.u 1), .ro, .i, false, (.k 0), .any⟩, -- PackageRefusal, R472
  ⟨0x3110, 1, 1, 0, 0, (.u 1), .const, .i, false, (.k 4), .any⟩, -- HighestSub, R56
  ⟨0x3110, 1, 1, 1, 1, (.dom 16), .ro, .i, false, (.k 0), .any⟩, -- TokenChallenge, R472
  ⟨0x3110, 1, 1, 2, 2, (.dom 17), .wo, .o, false, (.k 0), .any⟩, -- RoleToken, R472
  ⟨0x3110, 1, 1, 3, 3, (.u 1), .ro, .i, false, (.k 0), .any⟩, -- CanRole, R472
  ⟨0x3110, 1, 1, 4, 4, (.u 4), .rw, .i, false, (.k 600), (.nat 10 86400)⟩, -- CanRoleTimeout, R472
  ⟨0x3120, 1, 1, 0, 0, (.u 1), .const, .i, false, (.k 5), .any⟩, -- HighestSub, R56
  ⟨0x3120, 1, 1, 1, 1, (.u 1), .rw, .i, false, (.k 0), (.nat 0 2)⟩, -- DebugLevelRequest, R472
  ⟨0x3120, 1, 1, 2, 2, (.u 1), .ro, .i, false, (.k 0), .any⟩, -- DebugLevelActual, R472
  ⟨0x3120, 1, 1, 3, 3, (.u 2), .rw, .i, false, (.k 4351), (.mask 0x1FFF)⟩, -- TraceSources, R472
  ⟨0x3120, 1, 1, 4, 4, (.u 4), .ro, .i, false, (.k 0), .any⟩] -- TraceDropped, R472

/-- Page 0x31xx, part 1. -/
def page31_1 : List Entry := [
  ⟨0x3120, 1, 1, 5, 5, (.u 8), .ro, .i, false, (.k 0), .any⟩, -- GrantExpiry, R472
  ⟨0x3130, 1, 1, 0, 0, (.u 1), .const, .i, false, (.k 2), .any⟩, -- HighestSub, R56
  ⟨0x3130, 1, 1, 1, 1, (.domVar 100), .wo, .p, false, (.k 0), .any⟩, -- KeyInstall, R472
  ⟨0x3130, 1, 1, 2, 2, (.u 1), .wo, .p, false, (.k 0), .any⟩, -- KeyRevoke, R472
  ⟨0x3131, 1, 1, 0, 0, (.u 1), .const, .i, false, (.k 13), .any⟩, -- HighestSub, R56
  ⟨0x3131, 1, 1, 1, 13, (.u 1), .ro, .i, false, (.k 0), .any⟩, -- KeyStatus, R472
  ⟨0x3140, 1, 1, 0, 0, (.u 1), .const, .i, false, (.k 2), .any⟩, -- HighestSub, R56
  ⟨0x3140, 1, 1, 1, 1, (.u 4), .ro, .i, false, (.k 0), .any⟩, -- AuthenticationFailures, R472
  ⟨0x3140, 1, 1, 2, 2, (.u 2), .ro, .i, false, (.k 0), .any⟩] -- LockoutRemaining, R472

/-- Page 0x31xx. -/
def page31 : List Entry := page31_0 ++ page31_1

/-- Page 0x40xx, part 0. -/
def page40_0 : List Entry := [
  ⟨0x4000, 16, 16, 0, 0, (.u 1), .const, .i, false, (.k 15), .any⟩, -- HighestSub, R56
  ⟨0x4000, 16, 16, 1, 1, (.u 1), .ro, .i, false, (.k 0), .any⟩, -- LinkState, R288
  ⟨0x4000, 16, 16, 2, 2, (.u 1), .ro, .i, false, (.k 0), .any⟩, -- LinkVersion, R288
  ⟨0x4000, 16, 16, 3, 3, (.u 1), .ro, .i, false, (.k 0), .any⟩, -- PartnerVersionMax, R288
  ⟨0x4000, 16, 16, 4, 4, (.u 1), .ro, .i, false, (.k 0), .any⟩, -- PartnerFeatures, R288
  ⟨0x4000, 16, 16, 5, 5, (.u 1), .rw, .i, true, (.k 33), (.oneOf [18, 32, 33])⟩, -- LinkVersionLimit, R288
  ⟨0x4000, 16, 16, 6, 6, (.u 1), .ro, .i, false, (.k 0), .any⟩, -- LaneCorrection, R288
  ⟨0x4000, 16, 16, 7, 7, (.u 1), .rw, .i, true, (.k 51), (.mask 0x77)⟩, -- TxPreset, R288
  ⟨0x4000, 16, 16, 8, 8, (.u 4), .ro, .i, false, (.k 0), .any⟩, -- LinkUpTime, R288
  ⟨0x4000, 16, 16, 9, 9, (.u 4), .ro, .i, false, (.k 0), .any⟩, -- LinkUpCount, R288
  ⟨0x4000, 16, 16, 10, 10, (.u 4), .ro, .i, false, (.k 0), .any⟩, -- LinkLossCount, R288
  ⟨0x4000, 16, 16, 11, 11, (.i 4), .ro, .i, false, (.k 0), .any⟩, -- PathDelay, R288
  ⟨0x4000, 16, 16, 12, 12, (.i 4), .rw, .i, false, (.k 0), (.int (-10000) 10000)⟩, -- LinkAsymmetry, R288
  ⟨0x4000, 16, 16, 13, 13, (.u 4), .rw, .i, false, (.k 40000), (.nat 0 1000000)⟩, -- ConfiguredPathDelay, R288
  ⟨0x4000, 16, 16, 14, 14, (.u 1), .ro, .i, false, (.k 255), .any⟩, -- FarEndClaimHolder, R288
  ⟨0x4000, 16, 16, 15, 15, .bool, .wo, .i, false, (.k 0), .any⟩, -- LinkRestart, R288
  ⟨0x4001, 16, 16, 0, 0, (.u 1), .const, .i, false, (.k 12), .any⟩, -- HighestSub, R56
  ⟨0x4001, 16, 16, 1, 3, (.u 4), .ro, .i, false, (.k 0), .any⟩, -- LaneErrors, R288
  ⟨0x4001, 16, 16, 4, 4, (.u 4), .ro, .i, false, (.k 0), .any⟩, -- ReturnPacketsRejected, R288
  ⟨0x4001, 16, 16, 5, 5, (.u 4), .ro, .i, false, (.k 0), .any⟩, -- ForwardPacketsLost, R288
  ⟨0x4001, 16, 16, 6, 6, (.u 4), .ro, .i, false, (.k 0), .any⟩, -- EchoesDiscarded, R288
  ⟨0x4001, 16, 16, 7, 7, (.u 1), .rw, .i, false, (.k 0), (.oneOf [0, 1])⟩, -- PrbsMode, R288
  ⟨0x4001, 16, 16, 8, 10, (.u 4), .ro, .i, false, (.k 0), .any⟩, -- PrbsErrors, R288
  ⟨0x4001, 16, 16, 11, 11, (.u 4), .ro, .i, false, (.k 0), .any⟩] -- EyeMargin, R288

/-- Page 0x40xx, part 1. -/
def page40_1 : List Entry := [
  ⟨0x4001, 16, 16, 12, 12, .bool, .ro, .i, false, (.k 0), .any⟩, -- RecalibrationNeeded, R288
  ⟨0x4002, 16, 16, 0, 0, (.u 1), .const, .i, false, (.k 4), .any⟩, -- HighestSub, R56
  ⟨0x4002, 16, 16, 1, 1, (.domVar 264), .wo, .i, false, (.k 0), .any⟩, -- HeadCfgRequest, R288
  ⟨0x4002, 16, 16, 2, 2, (.domVar 264), .ro, .i, false, (.k 0), .any⟩, -- HeadCfgReply, R288
  ⟨0x4002, 16, 16, 3, 3, (.u 1), .ro, .i, false, (.k 0), .any⟩, -- HeadCfgState, R288
  ⟨0x4002, 16, 16, 4, 4, (.u 4), .ro, .i, false, (.k 0), .any⟩] -- FarEndIdentity, R288

/-- Page 0x40xx. -/
def page40 : List Entry := page40_0 ++ page40_1

/-- Page 0x41xx. -/
def page41 : List Entry := [
  ⟨0x4100, 192, 1, 0, 0, (.u 1), .const, .i, false, (.k 25), .any⟩, -- SlotEntryCount, R255
  ⟨0x4100, 192, 1, 1, 1, .bool, .rw, .i, true, (.k 0), .any⟩, -- SlotConfigured, R255
  ⟨0x4100, 192, 1, 2, 2, (.u 1), .rw, .i, true, (.k 0), (.nat 0 7)⟩, -- HeadType, R255
  ⟨0x4100, 192, 1, 3, 3, (.u 2), .rw, .i, true, .special, (.nat 0 49151)⟩, -- SlotFirstNozzle, R255
  ⟨0x4100, 192, 1, 4, 4, (.u 2), .rw, .i, true, (.k 4096), (.nat 1 49152)⟩, -- SlotNozzleCount, R255
  ⟨0x4100, 192, 1, 5, 5, (.u 1), .rw, .i, true, (.k 1), (.nat 1 4)⟩, -- RowCount, R255
  ⟨0x4100, 192, 1, 6, 6, (.u 1), .rw, .i, true, (.k 0), .any⟩, -- RowLayout, R255
  ⟨0x4100, 192, 1, 7, 7, (.u 4), .rw, .i, false, (.k 0), .any⟩, -- RowInterleaveMask, R255
  ⟨0x4100, 192, 1, 8, 11, (.i 4), .rw, .i, true, (.k 0), (.int (-1000000000) 1000000000)⟩, -- RowOffset, R255
  ⟨0x4100, 192, 1, 12, 12, (.u 4), .rw, .i, true, (.k 0), (.nat 0 500000)⟩, -- LandingDelay, R255
  ⟨0x4100, 192, 1, 13, 13, (.u 2), .rw, .i, false, (.k 32768), .any⟩, -- SlotGain, R255
  ⟨0x4100, 192, 1, 14, 14, (.u 2), .rw, .i, false, (.k 257), .any⟩, -- TickleLineMask, R255
  ⟨0x4100, 192, 1, 15, 15, (.dom 32), .rw, .i, false, .special, .any⟩, -- TempCurve, R255
  ⟨0x4100, 192, 1, 16, 16, (.i 2), .rw, .i, false, (.k 1120), .any⟩, -- HeadTempLimit, R255
  ⟨0x4100, 192, 1, 17, 17, (.i 2), .ro, .i, false, (.k 0), .any⟩, -- HeadTemperature, R255
  ⟨0x4100, 192, 1, 18, 18, (.u 1), .ro, .i, false, (.k 0), .any⟩, -- HeadState, R255
  ⟨0x4100, 192, 1, 19, 19, (.u 4), .ro, .i, false, (.k 0), .any⟩, -- Bank0Version, R255
  ⟨0x4100, 192, 1, 20, 20, (.u 4), .ro, .i, false, (.k 0), .any⟩, -- Bank1Version, R255
  ⟨0x4100, 192, 1, 21, 21, (.u 1), .ro, .i, false, (.k 0), .any⟩, -- BankStatus, R255
  ⟨0x4100, 192, 1, 22, 22, (.u 4), .ro, .i, false, (.k 0), .any⟩, -- HeadLinesRejected, R255
  ⟨0x4100, 192, 1, 23, 23, (.u 4), .ro, .i, false, (.k 0), .any⟩, -- HeadLinesSkipped, R255
  ⟨0x4100, 192, 1, 24, 24, (.u 4), .ro, .i, false, (.k 0), .any⟩, -- NozzleFlagsFromHead, R255
  ⟨0x4100, 192, 1, 25, 25, (.u 2), .ro, .i, false, (.k 32768), .any⟩] -- AmplitudeScale, R255

/-- Page 0x42xx, part 0. -/
def page42_0 : List Entry := [
  ⟨0x4200, 8, 16, 0, 0, (.u 1), .const, .i, false, (.k 12), .any⟩, -- HighestSub, R56
  ⟨0x4200, 8, 16, 1, 1, .bool, .rw, .i, true, (.k 0), .any⟩, -- PortEnable, R313
  ⟨0x4200, 8, 16, 2, 2, (.u 1), .rw, .i, true, (.k 4), .any⟩, -- LaneCount, R313
  ⟨0x4200, 8, 16, 3, 3, (.u 2), .rw, .i, true, (.k 2500), .any⟩, -- LaneRate, R313
  ⟨0x4200, 8, 16, 4, 4, (.u 1), .rw, .i, true, (.k 44), .any⟩, -- DataType, R313
  ⟨0x4200, 8, 16, 5, 5, (.u 1), .rw, .i, true, (.k 0), (.nat 0 3)⟩, -- ImageVirtualChannel, R313
  ⟨0x4200, 8, 16, 6, 6, (.u 1), .rw, .i, true, (.k 1), (.nat 0 3)⟩, -- DarkVirtualChannel, R313
  ⟨0x4200, 8, 16, 7, 7, (.u 2), .rw, .i, true, (.k 5906), .any⟩, -- Width, R313
  ⟨0x4200, 8, 16, 8, 8, (.i 4), .rw, .i, true, (.byInst 0 11812), .any⟩, -- PortOriginAcross, R313
  ⟨0x4200, 8, 16, 9, 9, (.i 4), .rw, .i, false, (.k 0), (.int (-1000000) 1000000)⟩, -- AlongTrim, R313
  ⟨0x4200, 8, 16, 10, 10, (.u 4), .rw, .i, true, (.k 400000), (.oneOf [100000, 400000, 1000000])⟩, -- CciClock, R313
  ⟨0x4200, 8, 16, 11, 11, .bool, .wo, .i, false, (.k 0), .any⟩, -- PortCommit, R313
  ⟨0x4200, 8, 16, 12, 12, .bool, .wo, .i, false, (.k 0), .any⟩, -- PortRestart, R313
  ⟨0x4201, 8, 16, 0, 0, (.u 1), .const, .i, false, (.k 15), .any⟩, -- HighestSub, R56
  ⟨0x4201, 8, 16, 1, 1, (.u 1), .ro, .i, false, (.k 0), .any⟩, -- PortState, R313
  ⟨0x4201, 8, 16, 2, 2, (.u 1), .ro, .i, false, (.k 0), .any⟩, -- PortCommitRefusal, R313
  ⟨0x4201, 8, 16, 3, 3, (.u 4), .ro, .i, false, (.k 0), .any⟩, -- FramesReceived, R313
  ⟨0x4201, 8, 16, 4, 4, (.u 4), .ro, .i, false, (.k 0), .any⟩, -- FramesFrayed, R313
  ⟨0x4201, 8, 16, 5, 5, (.u 4), .ro, .i, false, (.k 0), .any⟩, -- FramesDropped, R313
  ⟨0x4201, 8, 16, 6, 6, (.u 4), .ro, .i, false, (.k 0), .any⟩, -- CrcErrors, R313
  ⟨0x4201, 8, 16, 7, 7, (.u 4), .ro, .i, false, (.k 0), .any⟩, -- EccErrors, R313
  ⟨0x4201, 8, 16, 8, 8, (.u 4), .ro, .i, false, (.k 0), .any⟩, -- LinesPadded, R313
  ⟨0x4201, 8, 16, 9, 9, (.u 4), .ro, .i, false, (.k 0), .any⟩, -- LinesCut, R313
  ⟨0x4201, 8, 16, 10, 10, (.u 4), .ro, .i, false, (.k 0), .any⟩] -- LinesDiscarded, R313

/-- Page 0x42xx, part 1. -/
def page42_1 : List Entry := [
  ⟨0x4201, 8, 16, 11, 11, (.u 4), .ro, .i, false, (.k 0), .any⟩, -- FrameNumberGaps, R313
  ⟨0x4201, 8, 16, 12, 12, (.u 4), .ro, .i, false, (.k 0), .any⟩, -- FrameTimeouts, R313
  ⟨0x4201, 8, 16, 13, 13, (.u 2), .ro, .i, false, (.k 0), .any⟩, -- DefectPixelCount, R313
  ⟨0x4201, 8, 16, 14, 14, (.u 1), .ro, .i, false, (.k 0), .any⟩, -- CoefficientBankInForce, R313
  ⟨0x4201, 8, 16, 15, 15, (.u 4), .ro, .i, false, (.k 0), .any⟩, -- StatisticsWriteIndex, R313
  ⟨0x4202, 8, 16, 0, 0, (.u 1), .const, .i, false, (.k 3), .any⟩, -- HighestSub, R56
  ⟨0x4202, 8, 16, 1, 1, (.domVar 256), .wo, .i, false, (.k 0), .any⟩, -- CciRequest, R313
  ⟨0x4202, 8, 16, 2, 2, (.domVar 256), .ro, .i, false, (.k 0), .any⟩, -- CciReply, R313
  ⟨0x4202, 8, 16, 3, 3, (.u 1), .ro, .i, false, (.k 0), .any⟩] -- CciState, R313

/-- Page 0x42xx. -/
def page42 : List Entry := page42_0 ++ page42_1

/-- Page 0x43xx, part 0. -/
def page43_0 : List Entry := [
  ⟨0x4300, 9, 16, 0, 0, (.u 1), .const, .i, false, (.k 9), .any⟩, -- HighestSub, R56
  ⟨0x4300, 9, 16, 1, 1, (.u 4), .rw, .i, false, (.k 0), .any⟩, -- JobId, R195
  ⟨0x4300, 9, 16, 2, 2, (.u 4), .rw, .i, false, (.k 0), .any⟩, -- SourceLineOffset, R195
  ⟨0x4300, 9, 16, 3, 3, (.u 4), .rw, .i, false, (.k 0), .any⟩, -- LineAdvance, R195
  ⟨0x4300, 9, 16, 4, 4, (.u 4), .rw, .i, false, (.k 0), .any⟩, -- ExtentAlong, R195
  ⟨0x4300, 9, 16, 5, 5, (.i 4), .rw, .i, false, (.k 0), (.int (-98304) 98303)⟩, -- OriginAcross, R195
  ⟨0x4300, 9, 16, 6, 6, (.i 4), .rw, .i, false, (.k 0), (.int (-65536) 8388607)⟩, -- OriginAlong, R195
  ⟨0x4300, 9, 16, 7, 7, (.u 1), .rw, .i, false, (.k 2), .any⟩, -- KernelAcross, R195
  ⟨0x4300, 9, 16, 8, 8, (.u 1), .rw, .i, false, (.k 2), .any⟩, -- KernelAlong, R195
  ⟨0x4300, 9, 16, 9, 9, (.u 2), .rw, .i, false, (.k 32768), (.nat 0 32768)⟩, -- Opacity, R195
  ⟨0x4301, 9, 16, 0, 0, (.u 1), .const, .i, false, (.k 6), .any⟩, -- HighestSub, R56
  ⟨0x4301, 8, 16, 1, 1, (.u 8), .wo, .i, false, (.k 0), .any⟩, -- LayerCommit, R195
  ⟨0x4381, 1, 1, 1, 1, .bool, .wo, .i, false, (.k 0), .any⟩, -- ProtectedLoad, R195
  ⟨0x4301, 9, 16, 2, 2, (.u 8), .wo, .i, false, (.k 0), .any⟩, -- LayerEmptyCommit, R195
  ⟨0x4301, 9, 16, 3, 3, (.u 4), .rw, .i, false, (.k 0), .any⟩, -- FenceReached, R195
  ⟨0x4301, 9, 16, 4, 4, (.u 1), .rw, .i, false, .special, (.nat 0 2)⟩, -- NotReadyPolicy, R195
  ⟨0x4301, 9, 16, 5, 5, (.u 1), .rw, .i, false, (.k 0), .any⟩, -- FlipGroup, R195
  ⟨0x4301, 9, 16, 6, 6, (.u 4), .rw, .i, false, (.k 0), .any⟩, -- RequiredFence, R195
  ⟨0x4302, 9, 16, 0, 0, (.u 1), .const, .i, false, (.k 7), .any⟩, -- HighestSub, R56
  ⟨0x4302, 9, 16, 1, 1, (.u 1), .ro, .i, false, (.k 0), .any⟩, -- LayerState, R195
  ⟨0x4302, 9, 16, 2, 2, (.u 4), .ro, .i, false, (.k 0), .any⟩, -- ActiveJobId, R195
  ⟨0x4302, 9, 16, 3, 3, (.u 8), .ro, .i, false, (.k 0), .any⟩, -- ActiveSince, R195
  ⟨0x4302, 9, 16, 4, 4, (.u 8), .ro, .i, false, (.k 18446744073709551615), .any⟩, -- PendingCopy, R195
  ⟨0x4302, 9, 16, 5, 5, (.u 1), .ro, .i, false, (.k 0), .any⟩, -- CommitRefusal, R195
  ⟨0x4302, 9, 16, 6, 6, (.u 4), .ro, .i, false, (.k 0), .any⟩] -- LateCount, R195

/-- Page 0x43xx, part 1. -/
def page43_1 : List Entry := [
  ⟨0x4302, 9, 16, 7, 7, (.u 4), .ro, .i, false, (.k 0), .any⟩, -- ActiveSourceLine, R195
  ⟨0x4383, 1, 1, 0, 0, (.u 1), .const, .i, false, (.k 4), .any⟩, -- HighestSub, R56
  ⟨0x4383, 1, 1, 1, 1, (.u 8), .ro, .i, false, (.k 0), .any⟩, -- NextSerial, R195
  ⟨0x4383, 1, 1, 2, 2, (.u 8), .ro, .i, false, (.k 0), .any⟩, -- SerialLast, R195
  ⟨0x4383, 1, 1, 3, 3, (.u 8), .ro, .i, false, (.k 0), .any⟩, -- LastIssuedSerial, R195
  ⟨0x4383, 1, 1, 4, 4, (.u 8), .ro, .i, false, (.k 0), .any⟩] -- LastIssuedCopy, R195

/-- Page 0x43xx. -/
def page43 : List Entry := page43_0 ++ page43_1

/-- Page 0x44xx. -/
def page44 : List Entry := [
  ⟨0x4400, 16, 16, 0, 0, (.u 1), .const, .i, false, (.k 7), .any⟩, -- HighestSub, R56
  ⟨0x4400, 16, 16, 1, 1, (.u 8), .rw, .i, false, (.k 0), .any⟩, -- ProgramAddress, R394
  ⟨0x4400, 16, 16, 2, 2, (.u 1), .rw, .i, false, (.k 0), (.nat 0 7)⟩, -- Priority, R394
  ⟨0x4400, 16, 16, 3, 3, .bool, .rw, .i, false, (.k 0), .any⟩, -- Background, R394
  ⟨0x4400, 16, 16, 4, 4, (.u 1), .rw, .i, false, (.k 255), (.natOr 0 63 255)⟩, -- RequestLine, R394
  ⟨0x4400, 16, 16, 5, 5, (.u 1), .rw, .i, false, (.k 3), (.nat 0 7)⟩, -- RetryLimit, R394
  ⟨0x4400, 16, 16, 6, 6, .bool, .wo, .i, false, (.k 0), .any⟩, -- ChannelStart, R394
  ⟨0x4400, 16, 16, 7, 7, .bool, .wo, .i, false, (.k 0), .any⟩, -- ChannelStop, R394
  ⟨0x4401, 16, 16, 0, 0, (.u 1), .const, .i, false, (.k 12), .any⟩, -- HighestSub, R56
  ⟨0x4401, 16, 16, 1, 1, (.u 1), .ro, .i, false, (.k 0), .any⟩, -- ChannelStatus, R394
  ⟨0x4401, 16, 16, 2, 2, (.u 1), .ro, .i, false, (.k 0), .any⟩, -- LastCause, R394
  ⟨0x4401, 16, 16, 3, 3, (.u 2), .ro, .i, false, (.k 0), .any⟩, -- ProgramCounter, R394
  ⟨0x4401, 16, 16, 4, 4, (.u 4), .ro, .i, false, (.k 0), .any⟩, -- RemainingCount, R394
  ⟨0x4401, 16, 16, 5, 5, (.u 4), .ro, .i, false, (.k 4294967295), .any⟩, -- CompareOffset, R394
  ⟨0x4401, 16, 16, 6, 6, (.u 1), .ro, .i, false, (.k 0), .any⟩, -- LastSignalCode, R394
  ⟨0x4401, 16, 16, 7, 7, (.u 8), .ro, .i, false, (.k 0), .any⟩, -- FaultAddress, R394
  ⟨0x4401, 16, 16, 8, 8, (.u 1), .ro, .i, false, (.k 0), .any⟩, -- ProgramFaultReason, R394
  ⟨0x4401, 16, 16, 9, 9, (.u 8), .ro, .i, false, (.k 0), .any⟩, -- BurstsCompleted, R394
  ⟨0x4401, 16, 16, 10, 10, (.u 4), .ro, .i, false, (.k 0), .any⟩, -- BusErrors, R394
  ⟨0x4401, 16, 16, 11, 11, (.u 4), .ro, .i, false, (.k 0), .any⟩, -- WithdrawnRequests, R394
  ⟨0x4401, 16, 16, 12, 12, (.u 4), .ro, .i, false, (.k 0), .any⟩] -- DiscardedBursts, R394

/-- Page 0x46xx. -/
def page46 : List Entry := [
  ⟨0x4600, 128, 1, 0, 0, (.u 1), .const, .i, false, (.k 10), .any⟩, -- StringEntryCount, R331
  ⟨0x4600, 128, 1, 1, 1, .bool, .rw, .i, false, (.k 0), .any⟩, -- StringEnable, R331
  ⟨0x4600, 128, 1, 2, 2, (.u 2), .rw, .i, false, (.k 4000), .any⟩, -- PulseWidth, R331
  ⟨0x4600, 128, 1, 3, 3, (.u 2), .rw, .i, false, (.k 500), .any⟩, -- CurrentInitial, R331
  ⟨0x4600, 128, 1, 4, 4, (.u 2), .rw, .i, false, (.k 1000), .any⟩, -- CurrentLimit, R331
  ⟨0x4600, 128, 1, 5, 5, (.u 2), .rw, .i, false, (.k 0), .any⟩, -- LightTarget, R331
  ⟨0x4600, 128, 1, 6, 6, (.u 2), .rw, .i, false, (.k 0), .any⟩, -- ForwardVoltageRef, R331
  ⟨0x4600, 128, 1, 7, 7, (.u 2), .ro, .i, false, (.k 0), .any⟩, -- CurrentActual, R331
  ⟨0x4600, 128, 1, 8, 8, (.u 2), .ro, .i, false, (.k 0), .any⟩, -- LightMeasured, R331
  ⟨0x4600, 128, 1, 9, 9, (.u 2), .ro, .i, false, (.k 0), .any⟩, -- ForwardVoltage, R331
  ⟨0x4600, 128, 1, 10, 10, (.u 1), .ro, .i, false, (.k 0), .any⟩] -- StringState, R331

/-- Page 0x54xx. -/
def page54 : List Entry := [
  ⟨0x5400, 1, 1, 0, 0, (.u 1), .const, .i, false, (.k 3), .any⟩, -- JobDirectoryHighestSub, R70
  ⟨0x5400, 1, 1, 1, 1, (.u 8), .ro, .i, false, .special, .any⟩, -- JobDirectoryStoreAddress, R70
  ⟨0x5400, 1, 1, 2, 2, (.u 4), .ro, .i, false, (.part 262144 262144), .any⟩, -- JobDirectoryStoreSize, R70
  ⟨0x5400, 1, 1, 3, 3, (.u 4), .ro, .i, false, (.k 0), .any⟩, -- JobDirectoryStoreVersion, R70
  ⟨0x5401, 1, 1, 0, 0, (.u 1), .const, .i, false, (.k 3), .any⟩, -- StreamTableHighestSub, R70
  ⟨0x5401, 1, 1, 1, 1, (.u 8), .ro, .i, false, .special, .any⟩, -- StreamTableStoreAddress, R70
  ⟨0x5401, 1, 1, 2, 2, (.u 4), .ro, .i, false, (.part 8388608 8388608), .any⟩, -- StreamTableStoreSize, R70
  ⟨0x5401, 1, 1, 3, 3, (.u 4), .ro, .i, false, (.k 0), .any⟩, -- StreamTableStoreVersion, R70
  ⟨0x5402, 1, 1, 0, 0, (.u 1), .const, .i, false, (.k 3), .any⟩, -- StreamStateSlotsHighestSub, R70
  ⟨0x5402, 1, 1, 1, 1, (.u 8), .ro, .i, false, .special, .any⟩, -- StreamStateSlotsStoreAddress, R70
  ⟨0x5402, 1, 1, 2, 2, (.u 4), .ro, .i, false, (.part 5242880 5242880), .any⟩, -- StreamStateSlotsStoreSize, R70
  ⟨0x5402, 1, 1, 3, 3, (.u 4), .ro, .i, false, (.k 0), .any⟩] -- StreamStateSlotsStoreVersion, R70

/-- Page 0x55xx. -/
def page55 : List Entry := [
  ⟨0x5500, 1, 1, 0, 0, (.u 1), .const, .i, false, (.k 3), .any⟩, -- ProtectedPackageInboxHighestSub, R70
  ⟨0x5500, 1, 1, 1, 1, (.u 8), .ro, .i, false, .special, .any⟩, -- ProtectedPackageInboxStoreAddress, R70
  ⟨0x5500, 1, 1, 2, 2, (.u 4), .ro, .i, false, (.part 16777216 16777216), .any⟩, -- ProtectedPackageInboxStoreSize, R70
  ⟨0x5500, 1, 1, 3, 3, (.u 4), .ro, .i, false, (.k 0), .any⟩, -- ProtectedPackageInboxStoreVersion, R70
  ⟨0x5501, 1, 1, 0, 0, (.u 1), .const, .i, false, (.k 3), .any⟩, -- KernelTablesHighestSub, R70
  ⟨0x5501, 1, 1, 1, 1, (.u 8), .ro, .i, false, .special, .any⟩, -- KernelTablesStoreAddress, R70
  ⟨0x5501, 1, 1, 2, 2, (.u 4), .ro, .i, false, .special, .any⟩, -- KernelTablesStoreSize, R70
  ⟨0x5501, 1, 1, 3, 3, (.u 4), .ro, .i, false, (.k 0), .any⟩] -- KernelTablesStoreVersion, R70

/-- Page 0x56xx. -/
def page56 : List Entry := [
  ⟨0x5600, 2, 1, 0, 0, (.u 1), .const, .i, false, (.k 3), .any⟩, -- NozzleBankHighestSub, R70
  ⟨0x5600, 2, 1, 1, 1, (.u 8), .ro, .i, false, .special, .any⟩, -- NozzleBankStoreAddress, R70
  ⟨0x5600, 2, 1, 2, 2, (.u 4), .ro, .i, false, (.part 12582912 6291456), .any⟩, -- NozzleBankStoreSize, R70
  ⟨0x5600, 2, 1, 3, 3, (.u 4), .ro, .i, false, (.k 0), .any⟩, -- NozzleBankStoreVersion, R70
  ⟨0x5602, 1, 1, 0, 0, (.u 1), .const, .i, false, (.k 3), .any⟩, -- MissingSetHighestSub, R70
  ⟨0x5602, 1, 1, 1, 1, (.u 8), .ro, .i, false, .special, .any⟩, -- MissingSetStoreAddress, R70
  ⟨0x5602, 1, 1, 2, 2, (.u 4), .ro, .i, false, (.part 196608 98304), .any⟩, -- MissingSetStoreSize, R70
  ⟨0x5602, 1, 1, 3, 3, (.u 4), .ro, .i, false, (.k 0), .any⟩, -- MissingSetStoreVersion, R70
  ⟨0x5603, 1, 1, 0, 0, (.u 1), .const, .i, false, (.k 3), .any⟩, -- StitchBaseHighestSub, R70
  ⟨0x5603, 1, 1, 1, 1, (.u 8), .ro, .i, false, .special, .any⟩, -- StitchBaseStoreAddress, R70
  ⟨0x5603, 1, 1, 2, 2, (.u 4), .ro, .i, false, (.part 1572864 786432), .any⟩, -- StitchBaseStoreSize, R70
  ⟨0x5603, 1, 1, 3, 3, (.u 4), .ro, .i, false, (.k 0), .any⟩, -- StitchBaseStoreVersion, R70
  ⟨0x5610, 1, 1, 0, 0, (.u 1), .const, .i, false, (.k 3), .any⟩, -- ScreenArrayInboxHighestSub, R70
  ⟨0x5610, 1, 1, 1, 1, (.u 8), .ro, .i, false, .special, .any⟩, -- ScreenArrayInboxStoreAddress, R70
  ⟨0x5610, 1, 1, 2, 2, (.u 4), .ro, .i, false, (.part 1474560 1474560), .any⟩, -- ScreenArrayInboxStoreSize, R70
  ⟨0x5610, 1, 1, 3, 3, (.u 4), .ro, .i, false, (.k 0), .any⟩, -- ScreenArrayInboxStoreVersion, R70
  ⟨0x5611, 8, 1, 0, 0, (.u 1), .const, .i, false, (.k 3), .any⟩, -- ScreenSlotHighestSub, R70
  ⟨0x5611, 8, 1, 1, 1, (.u 8), .ro, .i, false, .special, .any⟩, -- ScreenSlotStoreAddress, R70
  ⟨0x5611, 8, 1, 2, 2, (.u 4), .ro, .i, false, .special, .any⟩, -- ScreenSlotStoreSize, R70
  ⟨0x5611, 8, 1, 3, 3, (.u 4), .ro, .i, false, (.k 0), .any⟩] -- ScreenSlotStoreVersion, R70

/-- Page 0x57xx. -/
def page57 : List Entry := [
  ⟨0x5700, 8, 1, 0, 0, (.u 1), .const, .i, false, (.k 3), .any⟩, -- WaveTableHighestSub, R70
  ⟨0x5700, 8, 1, 1, 1, (.u 8), .ro, .i, false, .special, .any⟩, -- WaveTableStoreAddress, R70
  ⟨0x5700, 8, 1, 2, 2, (.u 4), .ro, .i, false, (.part 2116 2116), .any⟩, -- WaveTableStoreSize, R70
  ⟨0x5700, 8, 1, 3, 3, (.u 4), .ro, .i, false, (.k 0), .any⟩] -- WaveTableStoreVersion, R70

/-- Page 0x59xx. -/
def page59 : List Entry := [
  ⟨0x5900, 8, 1, 0, 0, (.u 1), .const, .i, false, (.k 3), .any⟩, -- CoefficientStagingHighestSub, R70
  ⟨0x5900, 8, 1, 1, 1, (.u 8), .ro, .i, false, .special, .any⟩, -- CoefficientStagingStoreAddress, R70
  ⟨0x5900, 8, 1, 2, 2, (.u 4), .ro, .i, false, (.part 131072 131072), .any⟩, -- CoefficientStagingStoreSize, R70
  ⟨0x5900, 8, 1, 3, 3, (.u 4), .ro, .i, false, (.k 0), .any⟩, -- CoefficientStagingStoreVersion, R70
  ⟨0x5908, 8, 1, 0, 0, (.u 1), .const, .i, false, (.k 3), .any⟩, -- CoefficientInForceHighestSub, R70
  ⟨0x5908, 8, 1, 1, 1, (.u 8), .ro, .i, false, .special, .any⟩, -- CoefficientInForceStoreAddress, R70
  ⟨0x5908, 8, 1, 2, 2, (.u 4), .ro, .i, false, (.part 131072 131072), .any⟩, -- CoefficientInForceStoreSize, R70
  ⟨0x5908, 8, 1, 3, 3, (.u 4), .ro, .i, false, (.k 0), .any⟩, -- CoefficientInForceStoreVersion, R70
  ⟨0x5910, 8, 1, 0, 0, (.u 1), .const, .i, false, (.k 3), .any⟩, -- FrameShareHighestSub, R70
  ⟨0x5910, 8, 1, 1, 1, (.u 8), .ro, .i, false, .special, .any⟩, -- FrameShareStoreAddress, R70
  ⟨0x5910, 8, 1, 2, 2, (.u 4), .ro, .i, false, (.part 3145728 3145728), .any⟩, -- FrameShareStoreSize, R70
  ⟨0x5910, 8, 1, 3, 3, (.u 4), .ro, .i, false, (.k 0), .any⟩, -- FrameShareStoreVersion, R70
  ⟨0x5918, 8, 1, 0, 0, (.u 1), .const, .i, false, (.k 3), .any⟩, -- StatisticsRingHighestSub, R70
  ⟨0x5918, 8, 1, 1, 1, (.u 8), .ro, .i, false, .special, .any⟩, -- StatisticsRingStoreAddress, R70
  ⟨0x5918, 8, 1, 2, 2, (.u 4), .ro, .i, false, (.part 2097152 2097152), .any⟩, -- StatisticsRingStoreSize, R70
  ⟨0x5918, 8, 1, 3, 3, (.u 4), .ro, .i, false, (.k 0), .any⟩, -- StatisticsRingStoreVersion, R70
  ⟨0x5920, 1, 1, 0, 0, (.u 1), .const, .i, false, (.k 3), .any⟩, -- ColumnMeasurementRingHighestSub, R70
  ⟨0x5920, 1, 1, 1, 1, (.u 8), .ro, .i, false, .special, .any⟩, -- ColumnMeasurementRingStoreAddress, R70
  ⟨0x5920, 1, 1, 2, 2, (.u 4), .ro, .i, false, (.part 4194304 4194304), .any⟩, -- ColumnMeasurementRingStoreSize, R70
  ⟨0x5920, 1, 1, 3, 3, (.u 4), .ro, .i, false, (.k 0), .any⟩, -- ColumnMeasurementRingStoreVersion, R70
  ⟨0x5921, 1, 1, 0, 0, (.u 1), .const, .i, false, (.k 3), .any⟩, -- LadderRequestsHighestSub, R70
  ⟨0x5921, 1, 1, 1, 1, (.u 8), .ro, .i, false, .special, .any⟩, -- LadderRequestsStoreAddress, R70
  ⟨0x5921, 1, 1, 2, 2, (.u 4), .ro, .i, false, (.part 8192 8192), .any⟩, -- LadderRequestsStoreSize, R70
  ⟨0x5921, 1, 1, 3, 3, (.u 4), .ro, .i, false, (.k 0), .any⟩] -- LadderRequestsStoreVersion, R70

/-- Page 0x5Bxx. -/
def page5B : List Entry := [
  ⟨0x5B00, 1, 1, 0, 0, (.u 1), .const, .i, false, (.k 3), .any⟩, -- NozzleTermHighestSub, R70
  ⟨0x5B00, 1, 1, 1, 1, (.u 8), .ro, .i, false, .special, .any⟩, -- NozzleTermStoreAddress, R70
  ⟨0x5B00, 1, 1, 2, 2, (.u 4), .ro, .i, false, (.part 1572864 786432), .any⟩, -- NozzleTermStoreSize, R70
  ⟨0x5B00, 1, 1, 3, 3, (.u 4), .ro, .i, false, (.k 0), .any⟩, -- NozzleTermStoreVersion, R70
  ⟨0x5B01, 1, 1, 0, 0, (.u 1), .const, .i, false, (.k 3), .any⟩, -- NozzleDensityHighestSub, R70
  ⟨0x5B01, 1, 1, 1, 1, (.u 8), .ro, .i, false, .special, .any⟩, -- NozzleDensityStoreAddress, R70
  ⟨0x5B01, 1, 1, 2, 2, (.u 4), .ro, .i, false, (.part 3145728 1572864), .any⟩, -- NozzleDensityStoreSize, R70
  ⟨0x5B01, 1, 1, 3, 3, (.u 4), .ro, .i, false, (.k 0), .any⟩, -- NozzleDensityStoreVersion, R70
  ⟨0x5B02, 1, 1, 0, 0, (.u 1), .const, .i, false, (.k 3), .any⟩, -- ZoneStateHighestSub, R70
  ⟨0x5B02, 1, 1, 1, 1, (.u 8), .ro, .i, false, .special, .any⟩, -- ZoneStateStoreAddress, R70
  ⟨0x5B02, 1, 1, 2, 2, (.u 4), .ro, .i, false, (.part 393216 393216), .any⟩, -- ZoneStateStoreSize, R70
  ⟨0x5B02, 1, 1, 3, 3, (.u 4), .ro, .i, false, (.k 0), .any⟩, -- ZoneStateStoreVersion, R70
  ⟨0x5B03, 1, 1, 0, 0, (.u 1), .const, .i, false, (.k 3), .any⟩, -- VerdictRingHighestSub, R70
  ⟨0x5B03, 1, 1, 1, 1, (.u 8), .ro, .i, false, .special, .any⟩, -- VerdictRingStoreAddress, R70
  ⟨0x5B03, 1, 1, 2, 2, (.u 4), .ro, .i, false, (.part 32768 32768), .any⟩, -- VerdictRingStoreSize, R70
  ⟨0x5B03, 1, 1, 3, 3, (.u 4), .ro, .i, false, (.k 0), .any⟩] -- VerdictRingStoreVersion, R70

/-- Page 0x5Dxx. -/
def page5D : List Entry := [
  ⟨0x5D00, 1, 1, 0, 0, (.u 1), .const, .i, false, (.k 3), .any⟩, -- PackageInboxHighestSub, R70
  ⟨0x5D00, 1, 1, 1, 1, (.u 8), .ro, .i, false, .special, .any⟩, -- PackageInboxStoreAddress, R70
  ⟨0x5D00, 1, 1, 2, 2, (.u 4), .ro, .i, false, (.part 8388832 8388832), .any⟩, -- PackageInboxStoreSize, R70
  ⟨0x5D00, 1, 1, 3, 3, (.u 4), .ro, .i, false, (.k 0), .any⟩, -- PackageInboxStoreVersion, R70
  ⟨0x5D10, 1, 1, 0, 0, (.u 1), .const, .i, false, (.k 3), .any⟩, -- PerformanceCountersHighestSub, R70
  ⟨0x5D10, 1, 1, 1, 1, (.u 8), .ro, .i, false, .special, .any⟩, -- PerformanceCountersStoreAddress, R70
  ⟨0x5D10, 1, 1, 2, 2, (.u 4), .ro, .i, false, (.part 2048 2048), .any⟩, -- PerformanceCountersStoreSize, R70
  ⟨0x5D10, 1, 1, 3, 3, (.u 4), .ro, .i, false, (.k 0), .any⟩] -- PerformanceCountersStoreVersion, R70

/-- Page 0x5Fxx. -/
def page5F : List Entry := [
  ⟨0x5F00, 1, 1, 0, 0, (.u 1), .const, .i, false, (.k 3), .any⟩, -- FaultLogHighestSub, R70
  ⟨0x5F00, 1, 1, 1, 1, (.u 8), .ro, .i, false, .special, .any⟩, -- FaultLogStoreAddress, R70
  ⟨0x5F00, 1, 1, 2, 2, (.u 4), .ro, .i, false, (.part 32768 32768), .any⟩, -- FaultLogStoreSize, R70
  ⟨0x5F00, 1, 1, 3, 3, (.u 4), .ro, .i, false, (.k 0), .any⟩, -- FaultLogStoreVersion, R70
  ⟨0x5F01, 1, 1, 0, 0, (.u 1), .const, .i, false, (.k 3), .any⟩, -- SavedFaultLogHighestSub, R70
  ⟨0x5F01, 1, 1, 1, 1, (.u 8), .ro, .i, false, .special, .any⟩, -- SavedFaultLogStoreAddress, R70
  ⟨0x5F01, 1, 1, 2, 2, (.u 4), .ro, .i, false, (.part 2048 2048), .any⟩, -- SavedFaultLogStoreSize, R70
  ⟨0x5F01, 1, 1, 3, 3, (.u 4), .ro, .i, false, (.k 0), .any⟩, -- SavedFaultLogStoreVersion, R70
  ⟨0x5F02, 1, 1, 0, 0, (.u 1), .const, .i, false, (.k 3), .any⟩, -- FaultSourceTableHighestSub, R70
  ⟨0x5F02, 1, 1, 1, 1, (.u 8), .ro, .i, false, .special, .any⟩, -- FaultSourceTableStoreAddress, R70
  ⟨0x5F02, 1, 1, 2, 2, (.u 4), .ro, .i, false, (.part 1152 1152), .any⟩, -- FaultSourceTableStoreSize, R70
  ⟨0x5F02, 1, 1, 3, 3, (.u 4), .ro, .i, false, (.k 0), .any⟩, -- FaultSourceTableStoreVersion, R70
  ⟨0x5F10, 8, 1, 0, 0, (.u 1), .const, .i, false, (.k 3), .any⟩, -- CalibrationRecordHighestSub, R70
  ⟨0x5F10, 8, 1, 1, 1, (.u 8), .ro, .i, false, .special, .any⟩, -- CalibrationRecordStoreAddress, R70
  ⟨0x5F10, 8, 1, 2, 2, (.u 4), .ro, .i, false, .special, .any⟩, -- CalibrationRecordStoreSize, R70
  ⟨0x5F10, 8, 1, 3, 3, (.u 4), .ro, .i, false, (.k 0), .any⟩] -- CalibrationRecordStoreVersion, R70

/-- The entries of a page of 256 indices; the pages not named here are absent (R65). -/
def entriesOfPage : Nat → List Entry
  | 0x10 => page10
  | 0x14 => page14
  | 0x16 => page16
  | 0x18 => page18
  | 0x1A => page1A
  | 0x20 => page20
  | 0x21 => page21
  | 0x22 => page22
  | 0x23 => page23
  | 0x24 => page24
  | 0x25 => page25
  | 0x26 => page26
  | 0x27 => page27
  | 0x28 => page28
  | 0x29 => page29
  | 0x2A => page2A
  | 0x2B => page2B
  | 0x2C => page2C
  | 0x2D => page2D
  | 0x2E => page2E
  | 0x2F => page2F
  | 0x30 => page30
  | 0x31 => page31
  | 0x40 => page40
  | 0x41 => page41
  | 0x42 => page42
  | 0x43 => page43
  | 0x44 => page44
  | 0x46 => page46
  | 0x54 => page54
  | 0x55 => page55
  | 0x56 => page56
  | 0x57 => page57
  | 0x59 => page59
  | 0x5B => page5B
  | 0x5D => page5D
  | 0x5F => page5F
  | _ => []

/-- The table row that holds an index and subindex, if the entry is present on the full part. -/
def findEntry (idx sub : Nat) : Option Entry :=
  (entriesOfPage (idx / 256)).find? fun e => e.has idx sub

end Sys2Proof.Machine
end

