-- ==== Sys2Proof/Machine/Reg.lean ====
section
/-! DEFINITION. Sys2Proof/Machine/Reg.lean: reading a dictionary register, and the time. -/

namespace Sys2Proof.Machine

/-- Defaults that their own rule gives (R7, R55, R74, R186, R226, R242): the ones that do not depend
on the state. -/
def specialDefault (key : Nat) : Nat :=
  let idx := key / 256
  let sub := key % 256
  if idx = 0x2030 then (sub - 1) / 2
  else if idx / 256 = 0x41 then
    if sub = 0x03 then 4096 * ((idx - 0x4100) % 12)
    else if sub = 0x0F then leNat (List.flatten (List.replicate 8 [0x00, 0x00, 0x00, 0x80]))
    else 0
  else if idx / 256 = 0x43 then (if idx = 0x4381 && sub = 4 then 1 else 0)
  else 0

/-- The default of a coordinate on a part: the table's, its rule's, or 0 where the spec states none
(notes/assumptions/6.md). P's blocks have fewer subindices than the other layers' (R195). -/
def defaultOf (part : Part) (key : Nat) : Nat :=
  if key = 0x438000 then 6 else if key = 0x438100 then 4
  else match findEntry (key / 256) (key % 256) with
  | none => 0
  | some e =>
    (e.dflt.value (part = .h) ((key / 256 - e.idx) / e.stride) (key % 256 - e.s0)).getD
      (specialDefault key)

/-- The raw value a register holds. -/
def State.reg (s : State) (key : Nat) : Nat :=
  match SMap.find s.dict key with
  | some v => v
  | none => defaultOf s.part key

/-- The signed value of a register of `bytes` bytes. -/
def State.regI (s : State) (key bytes : Nat) : Int := signedOf bytes (s.reg key)

/-- A BOOLEAN register. -/
def State.flag (s : State) (key : Nat) : Bool := s.reg key == 1

/-- The ready flag of an island, 1 AON … 12 TIME (R86, R98). -/
def State.islandReady (s : State) (i : Nat) : Bool := s.flag (K.IslandReady + (i - 1))

/-- The islands by the numbers of R98. -/
abbrev islAON : Nat := 1
abbrev islCTL : Nat := 2
abbrev islFAB : Nat := 3
abbrev islMEM : Nat := 4
abbrev islCODEC : Nat := 5
abbrev islCOMP : Nat := 6
abbrev islTONE : Nat := 7
abbrev islFIRE : Nat := 8
abbrev islLINK : Nat := 9
abbrev islCAM : Nat := 10
abbrev islNET : Nat := 11
abbrev islTIME : Nat := 12

/-- The mode codes of R36. -/
abbrev mStandby : Nat := 0
abbrev mReady : Nat := 1
abbrev mService : Nat := 2
abbrev mFidelity : Nat := 3
abbrev mVelocity : Nat := 4
abbrev mDepth : Nat := 5

/-- The present mode (R36). -/
def State.mode (s : State) : Nat := s.reg K.ModeActual

/-- A mode is a print mode. -/
def isPrint (m : Nat) : Bool := 3 ≤ m && m ≤ 5

/-- The half part (R1). -/
def State.isH (s : State) : Bool := s.part = .h

/-- Number of head links (R1). -/
def State.linkCount (s : State) : Nat := if s.isH then 8 else 16

/-- Number of camera ports (R1). -/
def State.portCount (s : State) : Nat := if s.isH then 4 else 8

/-- Number of nozzles (R1). -/
def State.nozzleCount (s : State) : Nat := if s.isH then 393216 else 786432

/-- PTP time of an instant, in units of 2^-32 ns (R418). -/
def TimeSt.at (tm : TimeSt) (now : Nat) : Nat :=
  if tm.running then
    ((tm.base : Int) + ((now - tm.anchor : Nat) : Int) * ((2 ^ 32 : Nat) + tm.trim)).toNat
  else 0

/-- PTP time now, in units of 2^-16 ns. -/
def State.ptp (s : State) : Nat := s.time.at s.now / 2 ^ 16

/-- PTP time of an earlier or later instant, in units of 2^-16 ns. -/
def State.ptpAt (s : State) (t : Nat) : Nat := s.time.at t / 2 ^ 16

/-- Seconds of a time in units of 2^-16 ns (R8). -/
def ptpSec (p : Nat) : Nat := p / 2 ^ 16 / 1000000000 % 2 ^ 48

/-- Nanoseconds field of a time (R8). -/
def ptpNs (p : Nat) : Nat := p / 2 ^ 16 % 1000000000

/-- Sub-nanosecond fraction of a time (R8). -/
def ptpFrac (p : Nat) : Nat := p % 2 ^ 16

end Sys2Proof.Machine
end

