-- ==== Sys2Proof/Machine/Events.lean ====
section
/-! DEFINITION. Sys2Proof/Machine/Events.lean: the event unit (R77–R85): an occurrence sets pending,
counts, and is routed to interrupt lines (a level derived here), EMCY and Tether notifications. -/

namespace Sys2Proof.Machine

/-- Event numbers that R85 reserves. -/
def reservedEvent (n : Nat) : Bool :=
  (45 ≤ n && n ≤ 47) || (57 ≤ n && n ≤ 63) || (72 ≤ n && n ≤ 79) || (91 ≤ n && n ≤ 95)
    || (111 ≤ n && n ≤ 127) || n == 247 || 256 ≤ n

/-- The events AON holds before CTL is ready (R84). -/
def aonEvent (n : Nat) : Bool := [0, 1, 2, 3, 14, 237].contains n

/-- The reset value of a route (R83). -/
def routeReset (n : Nat) : Nat :=
  if n == 7 || n == 14 || (128 ≤ n && n ≤ 143) || n == 176 || n == 185 || n == 195
      || (232 ≤ n && n ≤ 237) || n == 241 || n == 249 || n == 250 then 1 else 0

/-- The route in force of an event (R79). -/
def Ev.route (e : Ev) (n : Nat) : Nat := (SMap.find e.routes n).getD (routeReset n)

/-- The occurrence counter of an event (R77). -/
def Ev.count (e : Ev) (n : Nat) : Nat := (SMap.find e.counts n).getD 0

/-- Occurrences of an event since the event unit's reset. -/
def Ev.total (e : Ev) (n : Nat) : Nat := (SMap.find e.totals n).getD 0

/-- The event is masked (R78). -/
def Ev.masked (e : Ev) (n : Nat) : Bool := e.mask.getLsbD n

/-- Interrupt line `line` of application core `core` is asserted: some pending, unmasked event is
routed to it (R80). Before the dictionary is ready nothing is routed (R84). -/
def State.lineAsserted (s : State) (core line : Nat) : Bool :=
  s.sys.dictReady && (List.range 256).any fun n =>
    s.ev.pending.getLsbD n && !s.ev.masked n
      && bit (s.ev.route n) (16 + core) && bits (s.ev.route n) 8 3 == line

/-- ErrorRegister, derived from the pending events (R75). -/
def Ev.errorRegister (e : Ev) : Nat :=
  let anyOf := fun (p : Nat → Bool) => (List.range 256).any fun n => e.pending.getLsbD n && p n
  let g2 := fun n => n == 14 || n == 238
  let g3 := fun n => 232 ≤ n && n ≤ 237
  let g4 := fun n => (128 ≤ n && n ≤ 159) || (216 ≤ n && n ≤ 231)
  let b2 := anyOf g2
  let b3 := anyOf g3
  let b4 := anyOf g4
  let b7 := anyOf fun n => !g2 n && !g3 n && !g4 n && bit (e.route n) 0
  (if b2 then 4 else 0) + (if b3 then 8 else 0) + (if b4 then 16 else 0) + (if b7 then 128 else 0)
    + (if b2 || b3 || b4 || b7 then 1 else 0)

/-- The EMCY inhibit time in ns (R74: units of 100 µs). -/
def State.emcyInhibit (s : State) : Nat := s.reg K.EmcyInhibitTime * 100000

/-- The EMCY COB-ID: its default follows the node-ID in force (R74, R416). -/
def State.emcyCob (s : State) : Nat :=
  match SMap.find s.dict K.EmcyCobId with
  | some v => v
  | none => 0x80 + s.can.nodeId

/-- The inhibit time since the previous EMCY has passed. -/
def State.emcyFree (s : State) : Bool :=
  match s.ev.emcyLast with
  | none => true
  | some t => t + s.emcyInhibit ≤ s.now

/-- Sends one EMCY and records its code (R74, R81). -/
def State.sendEmcy (s : State) (e : Emcy) : State :=
  { s with
    out := s.out ++ [.emcy s.emcyCob e s.ev.errorRegister]
    ev := { s.ev with
      emcyLast := some s.now
      errorHist := (e.code :: s.ev.errorHist).take 16 } }

/-- An EMCY for an occurrence: sent, queued (at most 16) or dropped (R81). -/
def State.emcyFor (s : State) (n : Nat) : State :=
  let e : Emcy := { code := 0xFF00 + n, event := n, count := s.ev.count n % 65536, ns := ptpNs s.ptp }
  if bit s.emcyCob 31 then s
  else if s.can.booted && s.emcyFree && s.ev.emcyQueue.isEmpty then s.sendEmcy e
  else if s.ev.emcyQueue.length < 16 then
    { s with ev := { s.ev with emcyQueue := s.ev.emcyQueue ++ [e] } }
  else { s with ev := { s.ev with emcyDropped := bump 4 s.ev.emcyDropped } }

/-- The oldest queued EMCY goes once the inhibit time has passed (R81). -/
def State.emcyNext (s : State) : State :=
  match s.ev.emcyQueue with
  | [] => s
  | e :: q =>
    if s.can.booted && s.emcyFree then
      ({ s with ev := { s.ev with emcyQueue := q } } : State).sendEmcy e
    else s

/-- One session takes a notification record, or drops it on overflow (R82): the queue after, and
whether an overflow began. -/
def Notify.take (nt : Notify) (r : NotifyRec) : Notify × Bool × Bool :=
  if !nt.on then (nt, false, false)
  else if nt.q.length < 1024 then
    ({ nt with q := nt.q ++ [{ r with lost := nt.lost }], lost := false }, false, false)
  else ({ nt with lost := true }, true, !nt.lost)

/-- Every session takes the record; counts drops, and tells whether an overflow began. -/
def notifyAll (r : NotifyRec) : List Notify → List Notify × Nat × Bool
  | [] => ([], 0, false)
  | nt :: rest =>
    let x := nt.take r
    let y := notifyAll r rest
    (x.1 :: y.1, (if x.2.1 then 1 else 0) + y.2.1, x.2.2 || y.2.2)

/-- The notification record of an event's present count and time (R82). -/
def State.notifyRec (s : State) (n : Nat) : NotifyRec :=
  { event := n, lost := false, count := s.ev.count n, sec := ptpSec s.ptp, ns := ptpNs s.ptp,
    frac := ptpFrac s.ptp }

/-- Queues a notification to every session with notifications enabled (R82); tells whether an
overflow began. -/
def State.notifyFor (s : State) (n : Nat) : State × Bool :=
  let x := notifyAll (s.notifyRec n) s.ev.notify
  ({ s with ev := { s.ev with
      notify := x.1, notifyDropped := (s.ev.notifyDropped + x.2.1) % 2 ^ 32 } }, x.2.2)

/-- Routes one unmasked occurrence (R80–R82); tells whether a Tether queue overflow began. -/
def State.routeOne (s : State) (n : Nat) : State × Bool :=
  if s.ev.masked n then (s, false)
  else
    let s1 := if bit (s.ev.route n) 0 then s.emcyFor n else s
    if bit (s.ev.route n) 1 then s1.notifyFor n else (s1, false)

/-- Sets pending and counts (R77). -/
def State.mark (s : State) (n : Nat) : State :=
  { s with ev := { s.ev with
      pending := s.ev.pending ||| (1#256 <<< n)
      counts := SMap.put s.ev.counts n ((s.ev.count n + 1) % 2 ^ 32)
      totals := SMap.put s.ev.totals n (s.ev.total n + 1) } }

/-- An occurrence of an event (R77–R82, R84): reserved events never occur; before CTL is ready AON
holds its own events and no other can arise; before the dictionary is ready nothing is routed.
TetherQueueOverflow (15) is raised once when an overflow begins. -/
def State.occur (s : State) (n : Nat) : State :=
  if reservedEvent n then s
  else if !s.islandReady islCTL then
    if aonEvent n then { s with ev := { s.ev with held := s.ev.held ++ [n] } } else s
  else
    let s1 := s.mark n
    if !s1.sys.dictReady then s1
    else
      let x := s1.routeOne n
      if x.2 then ((x.1.mark 15).routeOne 15).1 else x.1

/-- Holds an event of AON until CTL is ready (R84). -/
def State.holdEvent (s : State) (n : Nat) : State :=
  if aonEvent n then { s with ev := { s.ev with held := s.ev.held ++ [n] } } else s

/-- At CTL ready the held events are counted and made pending, oldest first (R84). -/
def State.releaseHeld (s : State) : State :=
  let s1 := s.ev.held.foldl (fun st n => if reservedEvent n then st else st.mark n) s
  { s1 with ev := { s1.ev with held := [] } }

/-- At dictionary ready each pending, unmasked event is routed once (R84). -/
def State.routePending (s : State) : State :=
  (List.range 256).foldl
    (fun st n =>
      if st.ev.pending.getLsbD n && !reservedEvent n then
        let x := st.routeOne n
        if x.2 then ((x.1.mark 15).routeOne 15).1 else x.1
      else st) s

/-- The next hop of a reply on a port: the address itself on the port's link, else the gateway; none without one
(R397). -/
def State.nextHop (s : State) (port ip : Nat) : Option Nat :=
  let gate := s.reg (K.Ipv4Gateway + port)
  if (ip ^^^ s.reg (K.Ipv4Address + port)) &&& s.reg (K.Ipv4Netmask + port) = 0 then some ip
  else if gate = 0 then none
  else some gate

/-- A tagged Tether message (R410). -/
def tetherMessage (key : List Nat) (version kind id seq : Nat) (payload : List Nat) : List Nat :=
  let m := leBytes 2 0x5854 ++ [version, kind] ++ leBytes 4 id ++ leBytes 4 seq ++ leBytes 2 payload.length
    ++ [0, 0] ++ payload
  m ++ hmac256 key m

/-- The bytes of a notification record (R82). -/
def NotifyRec.bytes (r : NotifyRec) : List Nat :=
  [r.event, if r.lost then 1 else 0, 0, 0] ++ leBytes 4 r.count ++ leBytes 6 r.sec ++ leBytes 4 r.ns ++ leBytes 2 r.frac

/-- A Notify of a session with its records (R413). -/
def Session.notifyMessage (x : Session) (seq : Nat) (l : List NotifyRec) : List Nat :=
  tetherMessage x.key x.version 8 x.id seq (l.flatMap NotifyRec.bytes)

/-- The Notifies that records not yet sent go out in, up to 64 records each (R413): the session after, and the
messages. -/
def Session.notifies (now : Nat) : Nat → Session → List NotifyRec → Session × List (List Nat)
  | 0, x, _ => (x, [])
  | _ + 1, x, [] => (x, [])
  | fuel + 1, x, r :: l =>
    let recs := (r :: l).take 64
    let rest := Session.notifies now fuel
      { x with nextNotify := (x.nextNotify + 1) % 2 ^ 32, sent := x.sent ++ [(x.nextNotify, recs.length, now)] }
      ((r :: l).drop 64)
    (rest.1, x.notifyMessage x.nextNotify recs :: rest.2)

/-- Sends the records of one session that no Notify has carried. -/
def State.notifySession (s : State) (i : Nat) : State :=
  match s.net.sessions.getD i none with
  | none => s
  | some x =>
    let q := ((s.ev.notify.getD i {}).q).drop (x.sent.map fun n => n.2.1).sum
    if q.isEmpty then s
    else
      let y := Session.notifies s.now 1024 x q
      let out := match s.nextHop x.host.nic x.host.ip with
        | some via => y.2.map fun m => Out.udp x.host via m
        | none => []
      { s with
        net := { s.net with sessions := s.net.sessions.set i (some y.1) }
        out := s.out ++ out }

/-- Sends every session's records that no Notify has carried (R413). -/
def State.notifySend (s : State) : State := (List.range 8).foldl State.notifySession s

/-- The event unit after a reset that clears events and routes (R83, R96); AON's held events stay. -/
def Ev.afterReset (e : Ev) : Ev := { ({} : Ev) with held := e.held }

/-- Sets a route (R79): reserved events keep 0, reserved fields read 0. -/
def Ev.setRoute (e : Ev) (n v : Nat) : Ev :=
  if reservedEvent n then e else { e with routes := SMap.put e.routes n (v &&& 0x00FF0703) }

/-- Sets an occurrence counter (R77, R79). -/
def Ev.setCount (e : Ev) (n v : Nat) : Ev :=
  if reservedEvent n then e else { e with counts := SMap.put e.counts n (v % 2 ^ 32) }

/-- Enables or disables a session's notifications, from an empty queue (R413). -/
def Ev.setNotify (e : Ev) (i : Nat) (on : Bool) : Ev :=
  { e with notify := modAt e.notify i fun _ => { on := on } }

/-- Removes the `k` oldest records of a session (R413). -/
def Ev.dropNotify (e : Ev) (i k : Nat) : Ev :=
  { e with notify := modAt e.notify i fun nt => { nt with q := nt.q.drop k } }

end Sys2Proof.Machine
end

