-- ==== Sys2Proof/Machine/Act.lean ====
section
/-! DEFINITION. Sys2Proof/Machine/Act.lean: what a meaning is made of. A meaning is a tree of
primitive changes of State, sequenced, each decided from the state it meets; `Act.run` performs it.
Every change of State goes through a primitive, so that what a primitive keeps, every command keeps. -/

namespace Sys2Proof.Machine

/-- The primitive changes. The ones named after a sub-structure replace that sub-structure only. -/
inductive Prim where
  | begin (t : Nat)
  | set (key v : Nat)
  | unset (keep : Nat → Bool)
  | load (saved : SMap)
  | occur (n : Nat)
  | held (n : Nat)
  | release
  | route
  | emcyNext
  | evClear (m : BitVec 256)
  | evMask (m : BitVec 256)
  | evRoute (n v : Nat)
  | evCount (n v : Nat)
  | evHistory
  | evReset
  | notifyOn (i : Nat) (on : Bool)
  | notifyDrop (i k : Nat)
  | notifySend
  | store (a n v : Nat)
  | storeBytes (a : Nat) (l : List Nat)
  | copy (src dst n : Nat)
  | erase (a n : Nat)
  | out (o : Out)
  | fresh
  | sys (f : Sys → Sys)
  | can (f : CanSt → CanSt)
  | pos (f : Pos → Pos)
  | codec (f : Codec → Codec)
  | comp (f : Comp → Comp)
  | tone (f : Tone → Tone)
  | fire (f : Fire → Fire)
  | link (f : Links → Links)
  | cam (f : Cam → Cam)
  | ill (f : Illum → Illum)
  | loop (f : Loop → Loop)
  | dram (f : Dram → Dram)
  | dma (f : Dma → Dma)
  | net (f : Net → Net)
  | time (f : TimeSt → TimeSt)
  | health (f : Health → Health)
  | bridle (f : Bridle → Bridle)
  | sec (f : Sec → Sec)

/-- The effect of a primitive. -/
def Prim.apply : Prim → State → State
  | .begin t, s => { s with now := max s.now t, out := [] }
  | .set k v, s => { s with dict := SMap.put s.dict k v }
  | .unset keep, s => { s with dict := SMap.keep s.dict keep }
  | .load m, s => { s with dict := SMap.over s.dict m }
  | .occur n, s => s.occur n
  | .held n, s => s.holdEvent n
  | .release, s => s.releaseHeld
  | .route, s => s.routePending
  | .emcyNext, s => s.emcyNext
  | .evClear m, s => { s with ev := { s.ev with pending := s.ev.pending &&& ~~~m } }
  | .evMask m, s => { s with ev := { s.ev with mask := m } }
  | .evRoute n v, s => { s with ev := s.ev.setRoute n v }
  | .evCount n v, s => { s with ev := s.ev.setCount n v }
  | .evHistory, s => { s with ev := { s.ev with errorHist := [] } }
  | .evReset, s => { s with ev := s.ev.afterReset }
  | .notifyOn i on, s => { s with ev := s.ev.setNotify i on }
  | .notifyDrop i k, s => { s with ev := s.ev.dropNotify i k }
  | .notifySend, s => s.notifySend
  | .store a n v, s => { s with mem := Memory.storeValue s.mem a n v }
  | .storeBytes a l, s => { s with mem := Memory.storeBytes s.mem a l }
  | .copy a b n, s => { s with mem := Memory.copy s.mem a b n }
  | .erase a n, s => { s with mem := Memory.erase s.mem a n }
  | .out o, s => { s with out := s.out ++ [o] }
  | .fresh, s => { s with free := s.free + 1 }
  | .sys f, s => { s with sys := f s.sys }
  | .can f, s => { s with can := f s.can }
  | .pos f, s => { s with pos := f s.pos }
  | .codec f, s => { s with codec := f s.codec }
  | .comp f, s => { s with comp := f s.comp }
  | .tone f, s => { s with tone := f s.tone }
  | .fire f, s => { s with fire := f s.fire }
  | .link f, s => { s with link := f s.link }
  | .cam f, s => { s with cam := f s.cam }
  | .ill f, s => { s with ill := f s.ill }
  | .loop f, s => { s with loop := f s.loop }
  | .dram f, s => { s with dram := f s.dram }
  | .dma f, s => { s with dma := f s.dma }
  | .net f, s => { s with net := f s.net }
  | .time f, s => { s with time := f s.time }
  | .health f, s => { s with health := f s.health }
  | .bridle f, s => { s with bridle := f s.bridle }
  | .sec f, s => { s with sec := f s.sec }

/-- A tree of changes. -/
inductive Act where
  | skip
  | prim (p : Prim)
  | seq (a b : Act)
  | read (f : State → Act)

/-- Performs a tree of changes. -/
def Act.run : Act → State → State
  | .skip, s => s
  | .prim p, s => p.apply s
  | .seq a b, s => b.run (a.run s)
  | .read f, s => (f s).run s

/-- Changes one after the other. -/
def seqs : List Act → Act
  | [] => .skip
  | a :: as => .seq a (seqs as)

/-- A change for each element of a list, in order. -/
def each {α : Type} (l : List α) (f : α → Act) : Act := seqs (l.map f)

/-- A change made only under a condition. -/
def when (b : Bool) (a : Act) : Act := if b then a else .skip

/-- Sets a dictionary register. -/
def put (k v : Nat) : Act := .prim (.set k v)

/-- Raises an event (R77). -/
def raise (n : Nat) : Act := .prim (.occur n)

/-- Sends something out of the block. -/
def send (o : Out) : Act := .prim (.out o)

/-- Adds to a dictionary counter of `bytes` bytes, which wraps (notes/assumptions/10.md). -/
def addTo (k bytes n : Nat) : Act :=
  .read fun s => put k ((s.reg k + n) % 2 ^ (8 * bytes))

/-- Draws a free value: the continuation takes it (notes/assumptions/5.md). -/
def drawFree (f : Nat → Act) : Act :=
  .read fun s => .seq (.prim .fresh) (f (Config.freeValue s.free))

/-- The common form of a meaning: time moves to the command's instant, its changes are made, and notification
records that await a Notify go out (R413). -/
def perform (t : Nat) (a : Act) (s : State) : Host.Outcome State Fault Refusal :=
  .next ((Act.seq (.prim (.begin t)) (.seq a (.prim .notifySend))).run s)

end Sys2Proof.Machine
end

