-- ==== Sys2Proof/Machine/Ops.lean ====
section
/-! DEFINITION. Sys2Proof/Machine/Ops.lean: the shared operations of the dictionary: who may write what
and when (R56–R68, R87), how a write is answered, and the fault manager's counting (R435–R437). -/

namespace Sys2Proof.Machine

/-- The abort codes of R64. -/
abbrev abConst : Nat := 0x06010000
abbrev abReadWo : Nat := 0x06010001
abbrev abWriteRo : Nat := 0x06010002
abbrev abIndex : Nat := 0x06020000
abbrev abLength : Nat := 0x06070010
abbrev abSub : Nat := 0x06090011
abbrev abRange : Nat := 0x06090030
abbrev abGate : Nat := 0x08000020
abbrev abMode : Nat := 0x08000022
abbrev abGeneral : Nat := 0x08000000

/-- Coordinates that R66 and the chapters fuse off on the half part. -/
def absentOnH (idx sub : Nat) : Bool :=
  (0x4080 ≤ idx && idx ≤ 0x40FF) || (0x4160 ≤ idx && idx ≤ 0x41BF) || (0x4240 ≤ idx && idx ≤ 0x427F)
    || (idx == 0x2030 && 9 ≤ sub) || (idx == 0x2204 && (sub == 2 || 8 ≤ sub))
    || ([0x2E00, 0x2E01, 0x2E02, 0x2E03, 0x2E04, 0x2E05, 0x2E06, 0x2E07, 0x2E08, 0x2E09, 0x2E41,
          0x2E42, 0x2E43].contains idx && sub == 2)
    || (idx == 0x2E11 && 0x41 ≤ sub) || (idx == 0x2F01 && sub == 4)
    || ((idx == 0x2903 || idx == 0x2904) && 5 ≤ sub)
    || (0x5904 ≤ idx && idx ≤ 0x5907) || (0x590C ≤ idx && idx ≤ 0x590F)
    || (0x5914 ≤ idx && idx ≤ 0x5917) || (0x591C ≤ idx && idx ≤ 0x591F)

/-- Coordinates absent on every part: Opacity, the commits, the fences and FlipGroup of the protected layer, and the kernels of
layers other than V0–V3 (07, layer tables). -/
def absentAlways (idx sub : Nat) : Bool :=
  (idx == 0x4380 && sub == 9) || (idx == 0x4381 && [2, 3, 5, 6].contains sub)
    || (0x4340 ≤ idx && idx ≤ 0x4380 && idx % 16 == 0 && (sub == 7 || sub == 8))

/-- The entry at a coordinate, if it is present on the part; those of P's block are read only (R195). -/
def State.entry (s : State) (idx sub : Nat) : Option Entry :=
  if absentAlways idx sub || (s.isH && absentOnH idx sub) then none
  else if idx = 0x4380 then (findEntry idx sub).map fun e => { e with acc := if e.acc = .rw then .ro else e.acc }
  else findEntry idx sub

/-- The index is present on the part (some subindex of it is). -/
def State.hasIndex (s : State) (idx : Nat) : Bool :=
  (s.entry idx 0).isSome || (s.entry idx 1).isSome

/-- The island that owns an index (R65 with R16, R18; notes/assumptions/11.md). -/
def ownerIsland (idx : Nat) : Nat :=
  match idx / 256 with
  | 0x22 => islAON
  | 0x23 => islTIME
  | 0x24 => islCODEC
  | 0x25 => islCOMP
  | 0x26 => islTONE
  | 0x27 => islFIRE
  | 0x28 => islLINK
  | 0x29 => islCAM
  | 0x2A => islTIME
  | 0x2C => islMEM
  | 0x2D => islFAB
  | 0x2E => if 0x2E40 ≤ idx && idx ≤ 0x2E4F then islTIME else islNET
  | 0x2F => if idx ≤ 0x2F03 then islAON else islCTL
  | 0x40 => islLINK
  | 0x41 => islFIRE
  | 0x42 => islCAM
  | 0x43 => islCOMP
  | 0x44 => islFAB
  | 0x45 => islTIME
  | 0x46 => islTIME
  | 0x54 => islCODEC
  | 0x55 => islCOMP
  | 0x56 => islTONE
  | 0x57 => islFIRE
  | 0x59 => islCAM
  | _ => islCTL

/-- The owner of an index is ready and served: without a customer image only AON and CTL serve their
entries (R87, R91, R463). -/
def State.served (s : State) (idx : Nat) : Bool :=
  s.islandReady (ownerIsland idx) && (s.sys.served || ownerIsland idx == islAON || ownerIsland idx == islCTL)

/-- The role a path acts with (R61): 0 Operator, 1 Integrator, 2 Vendor. -/
def State.role (s : State) : WPath → Nat
  | .core _ => 1
  | .can => s.reg K.CanRole
  | .session i =>
    match s.net.sessions.getD i none with
    | some x => x.role
    | none => 0

/-- The write gate admits a role in a lifecycle state (R59, R60). -/
def Gate.admits (g : Gate) (role lifecycle : Nat) : Bool :=
  match g with
  | .o => lifecycle ≤ 2
  | .i => 1 ≤ role && lifecycle ≤ 2
  | .p => 1 ≤ role && lifecycle ≤ 1
  | .v => role == 2

/-- The width of the access fits the entry's type: on the window R68's widths at the slot's start and at
least the type; on CAN and Tether the type's own length. -/
def lengthFits (ty : Ty) (w : Wr) : Bool :=
  match ty, w.path with
  | .dom n, _ => w.off == 0 && w.len == n
  | .domVar n, _ => w.off == 0 && w.len ≤ n
  | .str, _ => w.off == 0 && w.len ≤ 2040
  | t, .core _ => w.off == 0 && [1, 2, 4, 8].contains w.len && t.bytes ≤ w.len
  | t, _ => w.off == 0 && w.len == t.bytes

/-- The surplus bytes of a window store wider than the type are 0, or the sign extension (R68). -/
def surplusFits (ty : Ty) (w : Wr) : Bool :=
  match ty with
  | .i n => w.val % 2 ^ (8 * w.len) == rawOf w.len (signedOf n (w.val % 2 ^ (8 * n)))
  | .bool => w.val < 2 ^ 8
  | .u n => w.val < 2 ^ (8 * n)
  | t => w.val < 2 ^ (8 * t.bytes)

/-- The value a write carries, cut to the type. -/
def valueOf (ty : Ty) (w : Wr) : Nat :=
  match ty with
  | .bool => w.val % 2 ^ 8
  | .u n => w.val % 2 ^ (8 * n)
  | .i n => w.val % 2 ^ (8 * n)
  | _ => w.val % 2 ^ (8 * w.len)

/-- The dictionary answers at all: powered, dictionary ready and no warm reset (R37, R87, R94). -/
def State.reachable (s : State) : Bool := !s.sys.deep && s.sys.dictReady

/-- The refusal code of a write before its owner's own rules, 0 for none; the order is the model's
(notes/assumptions/12.md). -/
def checkWrite (s : State) (idx sub : Nat) (w : Wr) : Nat :=
  if !s.reachable then abGeneral
  else if s.health.shuttingDown then abGeneral
  else
    match s.entry idx sub with
    | none => if s.hasIndex idx then abSub else abIndex
    | some e =>
      if !s.served idx then abGeneral
      else if e.acc = .const then abConst
      else if e.acc = .ro then abWriteRo
      else if !e.gate.admits (s.role w.path) (s.reg K.LifecycleState) then abGate
      else if !lengthFits e.ty w then abLength
      else if !(surplusFits e.ty w && e.ty.encodes (valueOf e.ty w)
          && e.rng.admits e.ty (valueOf e.ty w)) then abRange
      else if e.std && 2 ≤ s.mode then abMode
      else 0

/-- What an owner answers to a write: a refusal code (0 accepts) and the changes made either way. -/
structure Verdict where
  code : Nat
  act : Act

/-- The owner accepts, with these changes. -/
def accept (a : Act) : Verdict := ⟨0, a⟩

/-- The owner refuses; nothing changes. -/
def refuse (code : Nat) : Verdict := ⟨code, .skip⟩

/-- An owner's rule for a write, given the value cut to the entry's type. -/
abbrev Effect := State → Wr → Verdict

/-- The rule of an entry that takes the written value at once (R58). -/
def plain (key : Nat) : Effect := fun _ w => accept (put key w.val)

/-- A write judged: the dictionary's checks first, then the owner's rule. -/
def judge (idx sub : Nat) (eff : Effect) (s : State) (w : Wr) : Verdict :=
  match s.entry idx sub with
  | none => refuse (checkWrite s idx sub w)
  | some e =>
    if checkWrite s idx sub w = 0 then eff s { w with val := valueOf e.ty w }
    else refuse (checkWrite s idx sub w)

/-- A refused write (R64, R68): the code is recorded for a core, and DictionaryWriteRefused raised. -/
def recordRefusal (p : WPath) (code : Nat) : Act :=
  .read fun s =>
    seqs [
      (match p with
        | .core k => when (k < 8 && s.islandReady islCTL) (put (K.WindowAbortCode + k) code)
        | _ => .skip),
      raise 12 ]

/-- The answer on the path (R64): CAN and Tether return the code in their reply. -/
def answer (p : WPath) (code : Nat) : Act :=
  match p with
  | .core _ => .skip
  | p => send (if code = 0 then .reply p 0 0 else .abort p code)

/-- Makes a judged write: the owner's changes, and the record of a refusal. -/
def enact (p : WPath) (v : Verdict) : Act :=
  if v.code = 0 then v.act else .seq v.act (recordRefusal p v.code)

/-- A write of one entry under an owner's rule, answered on its path. -/
def writeBy (idx sub : Nat) (eff : Effect) (w : Wr) : Act :=
  .read fun s =>
    let v := judge idx sub eff s w
    .seq (enact w.path v) (answer w.path v.code)

/-- Keys that a save leaves out besides DOMAINs (R76): Requests, events, abort codes and staged waveform maps, and
the entries whose value is a command's (notes/assumptions/40.md). -/
def unsavedKey (k : Nat) : Bool :=
  [K.ModeRequest, K.SoftRequest, K.DebugLevelRequest].contains k
    || [0x1003, 0x1010, 0x1011, 0x2100, 0x2101, 0x2102, 0x2110, 0x2111, 0x2120, 0x2121, 0x2602, 0x2603].contains (k / 256)

/-- The type is a DOMAIN's. -/
def Ty.isDomain : Ty → Bool
  | .dom _ => true
  | .domVar _ => true
  | _ => false

/-- A key is saved by StoreParameters (R76): a rw entry of 0x1000–0x4FFF that is not left out. -/
def State.savable (s : State) (k : Nat) : Bool :=
  0x100000 ≤ k && k < 0x500000 && !unsavedKey k
    && (match s.entry (k / 256) (k % 256) with
      | some e => e.acc == .rw && !e.ty.isDomain
      | none => false)

/-- The saved values that a test admits, of entries that StoreParameters saves (R76). -/
def State.savedOf (s : State) (p : Nat → Bool) : SMap := SMap.keep s.sys.saved fun k => s.savable k && p k

/-- FaultSourceId of a class and an instance (R435). -/
def faultSource (cls inst : Nat) : Nat := 32 * cls + inst

/-- The sources of each class on the full part (R435). -/
def classSize : List Nat := [4, 16, 8, 16, 14, 32, 8, 7, 1]

/-- A source that the part does not have never counts (R435). -/
def State.sourceAbsent (s : State) (src : Nat) : Bool :=
  classSize.getD (src / 32) 0 ≤ src % 32
    || (s.isH && ((32 + 8 ≤ src && src < 64) || (64 + 4 ≤ src && src < 96)))

/-- The source is retired. -/
def State.isRetired (s : State) (src : Nat) : Bool := s.health.retired.contains src

/-- The instants of a source's window that have not aged out at `now` (R436). -/
def State.faultWindow (s : State) (src : Nat) : List Nat :=
  (((s.health.windows.find? fun p => p.1 == src).map (·.2)).getD []).filter
    fun t => s.now < t + s.reg (K.FaultWindow + src / 32) * 1000000

/-- Replaces the window of a source. -/
def setWindow (src : Nat) (l : List Nat) (h : Health) : Health :=
  { h with windows := (src, l) :: h.windows.filter fun p => p.1 != src }

/-- Where the fault log lies: the real-time core share (R353, R437; notes/assumptions/7.md). -/
abbrev faultLogBase : Nat := 0x01800000

/-- Where the fault source table lies (R439; notes/assumptions/7.md). -/
abbrev faultTableBase : Nat := 0x01808000

/-- The 12-byte stamp of an instant: 6 bytes of seconds, 4 of nanoseconds, 2 of fraction. -/
def stampBytes (p : Nat) : List Nat := leBytes 6 (ptpSec p) ++ leBytes 4 (ptpNs p) ++ leBytes 2 (ptpFrac p)

/-- One record of the fault log (R437). -/
def faultLog (src kind count event detail : Nat) : Act :=
  .read fun s =>
    let i := s.reg K.FaultLogIndex
    seqs [
      .prim (.storeBytes (faultLogBase + 32 * (i % 1024))
        (stampBytes s.ptp ++ leBytes 2 src ++ [kind, count % 256, event, 0]
          ++ leBytes 2 (s.reg K.DieTemperature) ++ leBytes 8 detail ++ [0, 0, 0, 0])),
      put K.FaultLogIndex (bump 4 i),
      when ((i + 1) % 1024 == 0) (raise 246) ]

/-- Writes a source's line of the fault source table (R439). -/
def faultTable (src state count : Nat) : Act :=
  .prim (.storeBytes (faultTableBase + 4 * src) [state, count % 256, 0, 0])

/-- Retires a source once: ChannelRetired, the log, and its owner's action (R436). -/
def retireSource (src event detail : Nat) (owner : Act) : Act :=
  .read fun s =>
    if s.isRetired src then .skip
    else seqs [
      .prim (.health fun h => { h with retired := src :: h.retired }),
      faultTable src 1 (s.faultWindow src).length,
      faultLog src 2 (s.faultWindow src).length event detail,
      raise 242,
      owner ]

/-- A fault occurrence charged to a source (R436): counted in its window, judged transient or
permanent; classes 0 to 5 are retired at the threshold, with `owner` as the class's action. `event` is
the owner's event and `detail` its detail for the log. -/
def faultOccurrence (src event detail : Nat) (owner : Act) : Act :=
  .read fun s =>
    if s.sourceAbsent src then .skip
    else if s.isRetired src then
      .seq (put K.LastFaultSource src) (faultLog src 4 (s.faultWindow src).length event detail)
    else
      let l := s.faultWindow src ++ [s.now]
      let base := [put K.LastFaultSource src, .prim (.health (setWindow src l)),
        faultTable src 0 l.length]
      if s.reg (K.FaultThreshold + src / 32) ≤ l.length then
        seqs (base ++ [raise 241, addTo K.PermanentCount 4 1, faultLog src 1 l.length event detail,
          when (src < 192) (retireSource src event detail owner)])
      else
        seqs (base ++ [raise 240, addTo K.TransientCount 4 1, faultLog src 0 l.length event detail])

/-- A fault that its owner declares permanent by definition (R436). -/
def faultPermanent (src event detail : Nat) (owner : Act) : Act :=
  .read fun s =>
    if s.sourceAbsent src then .skip
    else if s.isRetired src then
      .seq (put K.LastFaultSource src) (faultLog src 4 (s.faultWindow src).length event detail)
    else
      let l := s.faultWindow src ++ [s.now]
      seqs [put K.LastFaultSource src, .prim (.health (setWindow src l)), raise 241,
        addTo K.PermanentCount 4 1, faultLog src 1 l.length event detail,
        retireSource src event detail owner]

/-- A source restarted by its owner's rule: window emptied, retirement cleared (R436, R492). -/
def restartSource (src : Nat) : Act :=
  .seq (.prim (.health fun h => { setWindow src [] h with retired := h.retired.filter (· != src) }))
    (faultTable src 0 0)

/-- The flag of 0x2010:09. -/
def State.inTransition (s : State) : Bool := s.flag K.ModeTransitionActive

/-- A calibration repeat was accepted or discarded: kind, counted by the colour loop's entries (R349). -/
def calibrationCounted (kind : Nat) (accepted : Bool) : Act :=
  .read fun s =>
    seqs [
      (if accepted then
        seqs [addTo (K.CalibrationCount + (kind - 1)) 4 1,
          put (K.CalibrationTime + (kind - 1)) (ptpSec s.ptp * 1000000000 + ptpNs s.ptp), raise 243]
       else seqs [addTo (K.CalibrationDiscarded + (kind - 1)) 4 1, raise 244]),
      .prim (.health fun h => { h with countsChanged := true }) ]

end Sys2Proof.Machine
end

