-- ==== Sys2Proof/Machine/Copies.lean ====
section
/-! DEFINITION. Sys2Proof/Machine/Copies.lean: the copies decided for printing and their waste marks
(R15, R346), the master's copy boundaries (R222) and the eligible boundary (R41). -/

namespace Sys2Proof.Machine

/-- Waste reasons, by bit (R346). -/
abbrev wModeStop : Nat := 0
abbrev wStrip : Nat := 1
abbrev wLayer : Nat := 2
abbrev wFiring : Nat := 3
abbrev wHead : Nat := 4
abbrev wTone : Nat := 5
abbrev wMaster : Nat := 6
abbrev wBridle : Nat := 7
abbrev wColour : Nat := 8

/-- Changes the record of one copy. -/
def setCopy (m : Int) (f : Copy → Copy) : Act :=
  .prim (.fire fun x => { x with copies := x.copies.map fun c => if c.num = m then f c else c })

/-- The record of a copy. -/
def State.copy? (s : State) (m : Int) : Option Copy := s.fire.copies.find? fun c => c.num == m

/-- Marks a copy waste for a reason (R346). -/
def markWaste (m : Int) (reason : Nat) : Act :=
  setCopy m fun c => { c with waste := setBit c.waste reason true }

/-- Copies in flight: decided, with a row that has not yet fired or skipped their last line (R15). -/
def State.inFlight (s : State) : List Copy := s.fire.copies.filter fun c => !c.done

/-- Marks every copy in flight waste (R50, R119). -/
def markInFlight (reason : Nat) : Act :=
  .prim (.fire fun x => { x with copies := x.copies.map fun c =>
    if c.done then c else { c with waste := setBit c.waste reason true } })

/-- An input channel of the position unit. -/
def State.chan (s : State) (c : Nat) : Chan := s.pos.chans.getD c {}

/-- The channel counts: of a type other than off, not retired, TIME ready (R99, R128). -/
def State.counting (s : State) (c : Nat) : Bool :=
  c < 14 && s.reg (K.ChannelType + c) != 0 && !s.isRetired (faultSource 4 c) && s.islandReady islTIME

/-- The channel is in web mode (R113). -/
def State.webMode (s : State) (c : Nat) : Bool := s.reg (K.CountingMode + c) == 0

/-- The channel in use as master (R118, R119). -/
def State.activeMaster (s : State) : Option Nat :=
  let c := if s.pos.onBackup then s.reg K.MasterBackupChannel else s.reg K.MasterChannel
  if s.counting c && s.webMode c then some c else none

/-- The master's position, total and copy count: the named channel's, or its own while the backup
feeds it (R119). -/
def State.master (s : State) : Chan :=
  if s.pos.onBackup then
    let b := s.chan (s.reg K.MasterBackupChannel)
    { s.pos.run with
      valid := b.valid, speed := b.speed, dir := b.dir, hist := b.hist, lastEdge := b.lastEdge,
      standing := b.standing, sampleAt := b.sampleAt }
  else s.chan (s.reg K.MasterChannel)

/-- Distance of one edge of a channel in 2^-32 nm (R121): one count; a quarter period on an analogue
channel, whose edges are changes of quadrant (notes/assumptions/20.md). -/
def State.edgeStep (s : State) (c : Nat) : Nat :=
  let p := s.reg (K.CountPitch + c)
  if 8 ≤ c && c ≤ 9 then p / 4 else p

/-- Speed in µm/s from a distance in 2^-32 nm over ns (R120, R13). -/
def speedOf (d : Int) (dt : Nat) : Int := roundDiv (d * 1000000) (dt * 2 ^ 32)

/-- The interval between the last two edges. -/
def Chan.lastInterval (ch : Chan) : Option Nat :=
  match ch.hist with
  | (_, t1) :: (_, t0) :: _ => some (t1 - t0)
  | _ => none

/-- The speed a channel reads at an instant (R120–R122): the measured speed, or one edge's distance
over the elapsed time once that exceeds the last edge interval. -/
def State.speedNow (s : State) (c : Nat) : Int :=
  let ch := s.chan c
  if !ch.valid || !s.counting c then 0
  else
    match ch.lastEdge, ch.lastInterval with
    | some t, some d =>
      if d < s.now - t then ch.dir * speedOf (s.edgeStep c) (s.now - t) else ch.speed
    | _, _ => ch.speed

/-- WebSpeedActual (R118). -/
def State.webSpeed (s : State) : Int :=
  match s.activeMaster with
  | some c => s.speedNow c
  | none => 0

/-- The master's SpeedValid (R119: clear when no channel is in use). -/
def State.speedValid (s : State) : Bool :=
  match s.activeMaster with
  | some c => (s.chan c).valid
  | none => false

/-- The copy length that governs the copy after `m`, given the one that governs `m` (R114, R222). -/
def nextLen (lenNext : Option (Nat × Option Int)) (m : Int) (len : Nat) : Nat :=
  match lenNext with
  | some (l, none) => l
  | some (l, some k) => if k ≤ m + 1 then l else len
  | none => len

/-- Base of the copy `n` copies after copy `m`, whose Base is `b` and whose length is `len`. -/
def predictBase (lenNext : Option (Nat × Option Int)) : Nat → Int → Int → Nat → Int
  | 0, _, b, _ => b
  | n + 1, m, b, len =>
    predictBase lenNext n (m + 1) (b + (len : Int) * 2 ^ 32) (nextLen lenNext m len)

/-- Base(m) in 2^-32 nm (R222): measured at the wrap, else predicted from the present copy. -/
def State.base (s : State) (m : Int) : Int :=
  match s.pos.bases.find? fun p => p.1 == m with
  | some p => p.2
  | none =>
    let ms := s.master
    let here := match s.pos.bases.find? fun p => p.1 == ms.copies with
      | some p => p.2
      | none => ms.total - ms.pos
    predictBase ms.lenNext (m - ms.copies).toNat ms.copies here ms.len

/-- Length of copy `m` (R114): the one in force, or a pending one from the boundary it waits for. -/
def State.copyLen (s : State) (m : Int) : Nat :=
  ((s.base (m + 1) - s.base m) / 2 ^ 32).toNat

/-- Lines per 25,400,000 nm along of a mode (R223): 600 in Print-Velocity, else 1200. -/
def alongRes (mode : Nat) : Nat := if mode = mVelocity then 600 else 1200

/-- Distance of `y` lines of a mode in 2^-32 nm, rounded (R223). -/
def linesNm (mode : Nat) (y : Int) : Int := roundDiv (y * 25400000 * 2 ^ 32) (alongRes mode)

/-- Label of print line `y` of copy `m` (R223), in 2^-32 nm. -/
def State.lineLabel (s : State) (m : Int) (mode : Nat) (y : Int) : Int :=
  s.base m + (s.reg K.PrintOrigin : Int) * 2 ^ 32 + linesNm mode y

/-- Coordinate of a head slot's entry. -/
def slotKey (k l sl : Nat) : Nat := k + (12 * l + sl) * 256

/-- The configured slots: link and slot (R226). -/
def State.slots (s : State) : List (Nat × Nat) :=
  (List.range (s.linkCount * 12)).filterMap fun n =>
    if s.flag (K.SlotConfigured + n * 256) then some (n / 12, n % 12) else none

/-- Ink of a link, 0xFF for none (R55). -/
def State.linkInk (s : State) (l : Nat) : Nat := s.reg (K.LinkInk + l)

/-- RowOffset of a row in nm (R224). -/
def State.rowOffset (s : State) (l sl r : Nat) : Int := s.regI (slotKey K.RowOffset l sl + r) 4

/-- The row offsets of an ink's configured slots. -/
def State.inkOffsets (s : State) (ink : Nat) : List Int :=
  s.slots.flatMap fun p =>
    if s.linkInk p.1 = ink then
      (List.range (s.reg (slotKey K.RowCount p.1 p.2))).map fun r => s.rowOffset p.1 p.2 r
    else []

/-- The smallest row offset over every ink in use: the furthest upstream row (R41, R185). -/
def State.upstream (s : State) : Int :=
  match (List.range 8).flatMap s.inkOffsets with
  | [] => 0
  | x :: xs => xs.foldl min x

/-- The largest row offset over every ink in use. -/
def State.downstream (s : State) : Int :=
  match (List.range 8).flatMap s.inkOffsets with
  | [] => 0
  | x :: xs => xs.foldl max x

/-- The boundary into copy `m` lies at least `n` lines of `mode` ahead of the most upstream row of every
ink (R41). -/
def State.aheadBy (s : State) (m : Int) (mode n : Nat) : Bool :=
  s.master.total + linesNm mode n ≤ s.base m + s.upstream * 2 ^ 32

/-- The first copy after the present one whose boundary is eligible (R41), searching at most 64 on. -/
def State.eligibleFrom (s : State) (mode : Nat) : Nat → Int → Int
  | 0, m => m
  | n + 1, m => if s.aheadBy m mode 192 then m else State.eligibleFrom s mode n (m + 1)

/-- The first eligible copy for a change made now: lines at the outgoing mode's pitch, at 1200 lpi when
leaving Ready (R41). -/
def State.eligibleCopy (s : State) : Int := s.eligibleFrom s.mode 64 (s.master.copies + 1)

end Sys2Proof.Machine
end

