-- ==== Sys2Proof/Machine/Lines.lean ====
section
/-! DEFINITION. Sys2Proof/Machine/Lines.lean: the DMA request lines (R389). -/

namespace Sys2Proof.Machine

/-- A DMA channel. -/
def State.dmaChan (s : State) (c : Nat) : DmaChan := s.dma.chans.getD c {}

/-- Changes a DMA channel. -/
def setDma (c : Nat) (f : DmaChan → DmaChan) : Act := .prim (.dma fun d => { d with chans := modAt d.chans c f })

/-- Coordinate of a channel's entry. -/
def dmaKey (k c : Nat) : Nat := k + c * 0x10 * 256

/-- A request line is asserted (R389). -/
def State.lineLevel (s : State) (k : Nat) : Bool :=
  if k < 4 then (s.pos.cmpUntil.getD k none).isSome
  else if k < 8 then s.reg (K.EncodeStatus + (k - 4)) == 2
  else if k < 12 then (s.dma.timers.getD (k - 8) (0, false)).2
  else if k < 32 then false
  else bit (s.reg K.SoftRequest) (k - 32)

/-- RequestLineLevel (0x2D01:02). -/
def State.lineLevels (s : State) : Nat := ((List.range 64).map fun k => if s.lineLevel k then 2 ^ k else 0).sum

/-- The instruction in progress of a channel. -/
def State.dmaInstr (s : State) (c : Nat) : List Nat := (s.dmaChan c).prog.getD (s.reg (dmaKey K.ProgramCounter c)) []

/-- An instruction is Paced (R382). -/
def dmaPaced (i : List Nat) : Bool := bit (field i 1 1) 4

/-- A line is withdrawn: a paced burst that has started completes and is counted (R389). -/
def lineWithdrawn (k : Nat) : Act :=
  .read fun s =>
    each ((List.range 16).filter fun c =>
      (s.dmaChan c).flight.isSome && dmaPaced (s.dmaInstr c) && s.reg (dmaKey K.RequestLine c) == k) fun c =>
        addTo (dmaKey K.WithdrawnRequests c) 4 1

end Sys2Proof.Machine
end

