-- ==== Sys2Proof/Machine/Position.lean ====
section
/-! DEFINITION. Sys2Proof/Machine/Position.lean: the web position unit (R99–R131): counting, copy and
axis positions, speed, references, comparators and encoder emulation. The three rows that carry a
sample stand in Machine/Samples.lean, since a master sample drives other units too. -/

namespace Sys2Proof.Machine

/-- Changes one channel. -/
def setChan (c : Nat) (f : Chan → Chan) : Act :=
  .prim (.pos fun p => { p with chans := modAt p.chans c f })

/-- Raises a position event and records its channel or comparator (R129). -/
def posEvent (n v : Nat) : Act := .seq (put (K.PositionEventChannel + (n - 16)) v) (raise n)

/-- The soft limits in 2^-32 nm (R115). -/
def State.softLimits (s : State) (c : Nat) : Int × Int :=
  (s.regI (K.SoftLimitLow + c) 8 * 2 ^ 32, s.regI (K.SoftLimitHigh + c) 8 * 2 ^ 32)

/-- Wraps a copy position that has moved forward past its length, with the length that follows (R113,
R114): position, copy count and the length in force after. -/
def Chan.wrapForward (ch : Chan) : Chan :=
  let l0 : Int := (ch.len : Int) * 2 ^ 32
  if ch.pos < l0 then ch
  else
    let adopt := match ch.lenNext with
      | some (l, none) => some l
      | some (l, some k) => if k ≤ ch.copies + 1 then some l else none
      | none => none
    let len' : Nat := adopt.getD ch.len
    let p := ch.pos - l0
    let l1 : Int := (len' : Int) * 2 ^ 32
    { ch with
      pos := p % l1
      copies := ch.copies + 1 + p / l1
      len := len'
      lenNext := if adopt.isSome then none else ch.lenNext }

/-- Wraps a copy position that has moved backward below 0, with the length in force (R113, R114). -/
def Chan.wrapBack (ch : Chan) : Chan :=
  let l : Int := (ch.len : Int) * 2 ^ 32
  if 0 ≤ ch.pos then ch else { ch with pos := ch.pos % l, copies := ch.copies + ch.pos / l }

/-- A web-mode movement (R113): position, total, copy count. -/
def Chan.moveWeb (ch : Chan) (d : Int) : Chan :=
  ({ ch with pos := ch.pos + d, total := ch.total + d } : Chan).wrapForward.wrapBack

/-- The soft limit held by a raw count (R115): none, low (false) or high (true). -/
def limitOf (lim : Int × Int) (raw : Int) : Option Bool :=
  if raw ≤ lim.1 then some false else if lim.2 ≤ raw then some true else none

/-- An axis position settled against its limits (R115). -/
def Chan.settle (lim : Int × Int) (ch : Chan) : Chan :=
  { ch with limit := limitOf lim ch.raw, pos := clampInt lim.1 lim.2 ch.raw }

/-- SoftLimitReached occurs when AtSoftLimit sets or the limit held changes (R115). -/
def limitEvent (c : Nat) (before after : Chan) : Act :=
  when (after.limit.isSome && after.limit != before.limit) (posEvent 19 c)

/-- An axis-mode movement (R115). -/
def Chan.moveAxis (lim : Int × Int) (ch : Chan) (d : Int) : Chan :=
  ({ ch with raw := ch.raw + d, total := ch.total + d } : Chan).settle lim

/-- The reference edge of R120: the newest at least `span` back, else the oldest. -/
def refEdge (span t : Nat) : List (Int × Nat) → Option (Int × Nat)
  | [] => none
  | [e] => some e
  | e :: es => if span ≤ t - e.2 then some e else refEdge span t es

/-- What an edge does to speed (R120, R122): the channel, whether a reversal began, and whether the
spec states no speed (two edges at one instant: the free value `fv` is taken). -/
structure EdgeResult where
  chan : Chan
  reversal : Bool
  drew : Bool

/-- An edge for speed, at total `ch.total`, in direction `dir` (R120, R122). -/
def Chan.edge (ch : Chan) (dir : Int) (t span timeout : Nat) (fv : Int) : EdgeResult :=
  let here := (ch.total, t)
  if ch.dir ≠ 0 ∧ dir ≠ ch.dir then
    { chan := { ch with dir := dir, valid := false, speed := 0, hist := [here], lastEdge := some t,
                        standing := false },
      reversal := true, drew := false }
  else
    let fresh := match ch.lastEdge with
      | some t0 => !ch.valid && timeout < t - t0
      | none => true
    let hist := if fresh then [] else ch.hist
    match refEdge span t (hist.take 64) with
    | none =>
      { chan := { ch with dir := dir, hist := [here], lastEdge := some t, standing := false, speed := 0 },
        reversal := false, drew := false }
    | some r =>
      { chan := { ch with
          dir := dir, valid := true, hist := (here :: hist).take 65, lastEdge := some t,
          standing := false, speed := if t = r.2 then fv else speedOf (ch.total - r.1) (t - r.2) },
        reversal := false, drew := decide (t = r.2) }

/-- The compared value of a channel (R123). -/
def compared (control : Nat) (ch : Chan) : Int := if bit control 4 then ch.total else ch.pos

/-- A movement from `v0` to `v1`, wrapped at `len` when it is a copy position, reaches `v` from short of
it (R123). -/
def crosses (wraps : Bool) (moved v0 v1 v len : Int) : Bool :=
  if 0 < moved then
    if wraps && (v1 < v0 || len ≤ moved) then v0 < v || v ≤ v1 else v0 < v && v ≤ v1
  else if moved < 0 then
    if wraps && (v0 < v1 || len ≤ -moved) then v < v0 || v1 ≤ v else v < v0 && v1 ≤ v
  else false

/-- PTP seconds × 10^9 + nanoseconds. -/
def ptpNanos (p : Nat) : Nat := ptpSec p * 1000000000 + ptpNs p

/-- A comparator's output pulse begins, or is extended (R123). -/
def comparePulse (output t width : Nat) : Act :=
  when (1 ≤ output && output ≤ 4)
    (.seq (.prim (.pos fun p => { p with
        cmpUntil := modAt p.cmpUntil (output - 1) fun u => some (max (u.getD 0) (t + width)) }))
      (send (.ball (.cmpOut (output - 1)) 1)))

/-- The comparator fires on this movement of its channel. -/
def State.compareFires (s : State) (c : Nat) (ch0 ch1 : Chan) (moved : Int) (k : Nat) : Bool :=
  let ctl := s.reg (K.CompareControl + k)
  s.reg (K.CompareChannel + k) == c && bit (s.reg K.CompareArmed) k
    && (if 0 < moved then bit ctl 0 else bit ctl 1)
    && crosses (s.webMode c && !bit ctl 4) moved (compared ctl ch0) (compared ctl ch1)
        (s.regI (K.CompareValue + k) 8 * 2 ^ 32) ((ch1.len : Int) * 2 ^ 32)

/-- A comparator fires (R123): time, fired bit, pulse, then disarm or step on. -/
def compareFire (c k : Nat) (ch1 : Chan) (t : Nat) : Act :=
  .read fun s =>
    let ctl := s.reg (K.CompareControl + k)
    let v := s.regI (K.CompareValue + k) 8 + s.regI (K.CompareStep + k) 8
    let v' := if s.webMode c && !bit ctl 4 then v % (ch1.len : Int) else v
    seqs [
      put (K.CompareTime + k) (ptpNanos (s.ptpAt t)),
      put K.CompareFired (setBit (s.reg K.CompareFired) k true),
      put K.CompareBehindFlags (setBit (s.reg K.CompareBehindFlags) k false),
      comparePulse (bits ctl 5 3) t (s.reg (K.ComparePulseWidth + (bits ctl 5 3 - 1))),
      (if bit ctl 3 then put (K.CompareValue + k) (rawOf 8 v')
       else put K.CompareArmed (setBit (s.reg K.CompareArmed) k false)) ]

/-- The comparators of a channel after a movement; CompareMatch occurs once for the sample (R123). -/
def compareAll (c : Nat) (ch0 ch1 : Chan) (moved : Int) (t : Nat) : Act :=
  .read fun s =>
    let fired := (List.range 32).filter (s.compareFires c ch0 ch1 moved)
    match fired with
    | [] => .skip
    | k :: _ => .seq (each fired fun k => compareFire c k ch1 t) (posEvent 20 k)

/-- Target count of an emulation output: the source's total over the pitch, toward minus infinity, less
the edges never sent (R126, R127). -/
def State.emuTarget (s : State) (k : Nat) (e : Emu) : Int :=
  let c := s.reg (K.EmulationSource + k)
  let pitch := s.reg (K.EmulationPitch + k)
  if c < 14 ∧ pitch ≠ 0 then (s.chan c).total / (pitch : Int) - e.short else e.count

/-- An emulation output after its source moved: backlog, cap, overrun and Z marks (R126, R127). -/
def emuFollow (k : Nat) (boundary : Option Int) : Act :=
  .read fun s =>
    let e := s.pos.emus.getD k {}
    let pitch : Int := s.reg (K.EmulationPitch + k)
    let z := match boundary with
      | some b => if pitch = 0 then e.zAt else ((b / pitch - e.short) :: e.zAt).take 16
      | none => e.zAt
    let target := s.emuTarget k e
    let behind := target - e.count
    let excess : Int := max 0 ((behind.natAbs : Int) - 65535)
    let lost : Int := if 0 ≤ behind then excess else -excess
    let owed : Nat := behind.natAbs - excess.toNat
    let overrun := s.reg (K.EmulationMaxLag + k) < behind.natAbs
    seqs [
      .prim (.pos fun p => { p with emus := modAt p.emus k fun e =>
        { e with short := e.short + lost, overrun := overrun, zAt := z } }),
      put (K.EmulationBacklog + k) owed,
      addTo (K.EmulationDroppedEdges + k) 4 excess.toNat,
      when (overrun && !e.overrun) (posEvent 29 (14 + k)) ]

/-- The emulation outputs of a source channel follow it. -/
def emuAll (c : Nat) (boundary : Option Int) : Act :=
  .read fun s => each ((List.range 4).filter fun k => s.reg (K.EmulationSource + k) == c)
    fun k => emuFollow k boundary

/-- New Base(m) values of a master whose copy count rose to new maxima (R222), newest first. -/
def newBases (total pos : Int) (len : Nat) : Nat → Int → List (Int × Int)
  | 0, _ => []
  | n + 1, m => (m, total - pos) :: newBases (total - (len : Int) * 2 ^ 32) pos len n (m - 1)

/-- The master takes a movement of its channel: its own count while the backup feeds it (R119), its
measured boundaries (R222), and its samples. -/
def masterFollow (c : Nat) (ch0 ch1 : Chan) (d : Int) (t : Nat) : Act :=
  .read fun s =>
    if s.activeMaster ≠ some c then .skip
    else
      let m0 := if s.pos.onBackup then s.pos.run else ch0
      let m1 := if s.pos.onBackup then { s.pos.run with len := ch1.len, lenNext := ch1.lenNext }.moveWeb d
        else ch1
      let top := max m0.copiesMax m1.copies
      let fresh := newBases m1.total m1.pos m1.len (top - m0.copiesMax).toNat m1.copies
      .prim (.pos fun p => { p with
        run := if p.onBackup then { m1 with copiesMax := top } else p.run
        bases := (fresh ++ p.bases).take 64
        samples := if (s.chan c).valid then ((t, m1.total, (s.chan c).speed) :: p.samples).take 256 else [] })

/-- A sample moves a channel by `d` (2^-32 nm); `edge` when it is an edge for speed. Boundaries, speed,
limits, comparators and emulation follow, and the master's own record (R113–R127). -/
def advance (c : Nat) (d : Int) (edge : Bool) (t : Nat) : Act :=
  .read fun s =>
    let ch0 := s.chan c
    let web := s.webMode c
    let dir : Int := if 0 ≤ d then 1 else -1
    let moved := if web then ch0.moveWeb d else ch0.moveAxis (s.softLimits c) d
    let top := max ch0.copiesMax moved.copies
    let ch1 := { moved with copiesMax := top, sampleAt := t, signalFault := false }
    let e : EdgeResult :=
      if edge then
        ch1.edge dir t (s.reg (K.SpeedMinSpan + c)) (s.reg (K.StandstillTimeout + c))
          (signedOf 4 (Config.freeValue s.free))
      else { chan := ch1, reversal := false, drew := false }
    let boundary : Option Int :=
      if ch1.copies = ch0.copies then none
      else if ch0.copies < ch1.copies then some (ch1.total - ch1.pos)
      else some (ch0.total - ch0.pos)
    seqs [
      setChan c fun _ => e.chan,
      when e.drew (.prim .fresh),
      when (!web) (limitEvent c ch0 ch1),
      when e.reversal (posEvent 23 c),
      when (e.chan.valid != ch0.valid) (posEvent 31 c),
      masterFollow c ch0 e.chan d t,
      when web (each (List.range (top - ch0.copiesMax).toNat) fun _ => posEvent 18 c),
      compareAll c ch0 e.chan d t,
      emuAll c (if web then boundary else none) ]

/-- The master channel in a print mode or a transition: positions and lengths may not jump (R114, R116,
R117). -/
def State.masterPrinting (s : State) (c : Nat) : Bool :=
  s.activeMaster == some c && (isPrint s.mode || s.inTransition)

/-- Sets a channel's copy or axis position without moving its total (R116, R117). -/
def Chan.place (web : Bool) (lim : Int × Int) (v : Int) (ch : Chan) : Chan :=
  if web then { ch with pos := v % ((ch.len : Int) * 2 ^ 32) } else ({ ch with raw := v } : Chan).settle lim

/-- A reference point (R104, R105, R109, R117): deviation latched, position set as ReferenceAction says,
ReferenceFound raised. `at'` is how far (2^-32 nm) the position now lies beyond the reference point. -/
def referencePoint (c : Nat) (at' : Int) : Act :=
  .read fun s =>
    let ch := s.chan c
    let n : Int := s.reg (K.TeethPerReference + c)
    let dev := clampInt (-(2 ^ 31)) (2 ^ 31 - 1)
      (roundShift ((ch.sinceRef - n) * (s.reg (K.CountPitch + c) : Int)) 32)
    let action := s.reg (K.ReferenceAction + c)
    let acts := !s.masterPrinting c && (action == 2 || (action == 1 && !ch.refFound))
    let v := s.regI (K.ReferenceValue + c) 8 * 2 ^ 32 + at'
    let ch1 := { ch with
      deviation := if n ≠ 0 && ch.refSeen then dev else ch.deviation
      sinceRef := 0, refSeen := true, refMissed := false, refFound := true }
    let ch2 := if acts then ch1.place (s.webMode c) (s.softLimits c) v else ch1
    seqs [setChan c fun _ => ch2, when (acts && !s.webMode c) (limitEvent c ch ch2), posEvent 16 c]

/-- Counts since the last reference, and ReferenceMissed once past N + 1 in forward travel (R105). -/
def referenceCount (c : Nat) (counts : Int) : Act :=
  .read fun s =>
    let ch := s.chan c
    let n : Int := s.reg (K.TeethPerReference + c)
    let since := ch.sinceRef + counts
    let missed := n ≠ 0 && ch.refSeen && 0 < counts && n + 1 < since && !ch.refMissed
    .seq (setChan c fun ch => { ch with sinceRef := since, refMissed := ch.refMissed || missed })
      (when missed (posEvent 17 c))

/-- Freezes a retired channel (R128): speed 0, SpeedValid clear, comparators disarmed (R125). -/
def freezeChannel (c : Nat) : Act :=
  .read fun s =>
    seqs [
      setChan c fun ch => { ch with valid := false, speed := 0, hist := [] },
      put K.CompareArmed ((List.range 32).foldl
        (fun v k => if s.reg (K.CompareChannel + k) == c then setBit v k false else v)
        (s.reg K.CompareArmed)),
      posEvent 30 c,
      when (s.chan c).valid (posEvent 31 c) ]

/-- The master channel retires (R119): the backup takes over where it left off, or the master freezes;
copies in flight are waste. -/
def masterRetired (was : Chan) : Act :=
  .read fun s =>
    let b := s.reg K.MasterBackupChannel
    let takes := !s.pos.onBackup && s.counting b && s.webMode b
    .seq (when takes (.prim (.pos fun p => { p with onBackup := true, run := was, samples := [] })))
      (markInFlight wMaster)

/-- The action when a position channel reaches its fault threshold (R119, R128). -/
def retireChannel (wasMaster : Bool) (was : Chan) (c : Nat) : Act :=
  .seq (freezeChannel c) (when wasMaster (masterRetired was))

/-- A position fault: its event, and an occurrence charged to the channel (R128). -/
def channelFault (c ev : Nat) : Act :=
  .read fun s =>
    .seq (posEvent ev c)
      (faultOccurrence (faultSource 4 c) ev c
        (retireChannel (s.activeMaster == some c) s.master c))

/-- A channel restarted by a ChannelType or CountingMode write, or by a reset of TIME (R128, R114). -/
def Chan.restart (ch : Chan) : Chan :=
  { len := match ch.lenNext with
      | some (l, _) => l
      | none => ch.len
    a := ch.a, b := ch.b }

/-- Restarts a channel and clears its retirement (R128, R492). -/
def restartChannel (c : Nat) : Act :=
  .read fun s =>
    let own := s.reg K.MasterChannel == c || (s.pos.onBackup && s.reg K.MasterBackupChannel == c)
    seqs [
      setChan c Chan.restart,
      restartSource (faultSource 4 c),
      when own (.prim (.pos fun p => { p with onBackup := false, bases := [], samples := [] })),
      when (s.chan c).valid (posEvent 31 c) ]

/-- ChannelType values that a channel accepts (R99). -/
def typeAccepted (c v : Nat) : Bool :=
  if c < 8 then v ≤ 3 else if c < 10 then v == 0 || v == 4 else v == 0 || v == 5

/-- ChannelType: accepted values of R99; any accepted write restarts the channel (R128). -/
def effChannelType (c : Nat) : Effect := fun _ w =>
  if !typeAccepted c w.val then refuse abRange
  else accept (.seq (put (K.ChannelType + c) w.val) (restartChannel c))

/-- CountingMode: axis mode is refused for the master and its backup (R118, 0x2311). -/
def effCountingMode (c : Nat) : Effect := fun s w =>
  if w.val == 1 && (s.reg K.MasterChannel == c || s.reg K.MasterBackupChannel == c) then refuse abRange
  else accept (.seq (put (K.CountingMode + c) w.val) (restartChannel c))

/-- MasterChannel and MasterBackupChannel: the channel named must be in web mode (R118). -/
def effMaster (key : Nat) : Effect := fun s w =>
  if w.val != 0xFF && !s.webMode w.val then refuse abRange
  else accept (.seq (put key w.val)
    (when (key == K.MasterChannel)
      (.prim (.pos fun p => { p with onBackup := false, bases := [], samples := [] }))))

/-- CopyLength (R114): at once on a channel that is off, retired or in axis mode; at the first eligible
boundary for the master in a print mode; else at the next forward wrap. The master's length must stay
above PrintOrigin (R223). -/
def effCopyLength (c : Nat) : Effect := fun s w =>
  if w.val < 1000000 || 100000000000 < w.val then refuse abRange
  else
    let next : Chan → Chan :=
      if !s.counting c || !s.webMode c then fun ch => { ch with len := w.val, lenNext := none }
      else if s.masterPrinting c then fun ch => { ch with lenNext := some (w.val, some s.eligibleCopy) }
      else fun ch => { ch with lenNext := some (w.val, none) }
    accept (.seq (put (K.CopyLength + c) w.val) (setChan c next))

/-- SoftLimitLow and SoftLimitHigh (R115): low must lie below high; the position settles at once. -/
def effSoftLimit (c : Nat) (high : Bool) : Effect := fun s w =>
  let v := signedOf 8 w.val
  let low := if high then s.regI (K.SoftLimitLow + c) 8 else v
  let hi := if high then v else s.regI (K.SoftLimitHigh + c) 8
  if hi ≤ low then refuse abRange
  else accept (.seq (put ((if high then K.SoftLimitHigh else K.SoftLimitLow) + c) w.val)
    (when (!s.webMode c)
      (let ch1 := (s.chan c).settle (low * 2 ^ 32, hi * 2 ^ 32)
       .seq (setChan c fun _ => ch1) (limitEvent c (s.chan c) ch1))))

/-- PositionPreset (R116). -/
def effPreset (c : Nat) : Effect := fun s w =>
  let v := signedOf 8 w.val
  let lim := s.softLimits c
  let ch := s.chan c
  if s.masterPrinting c then refuse abMode
  else if s.webMode c then
    if v < 0 || (ch.len : Int) ≤ v then refuse abRange
    else
      let ch1 := ch.place true lim (v * 2 ^ 32)
      accept (.seq (setChan c fun _ => ch1)
        (when (s.reg K.MasterChannel == c) (.prim (.pos fun p => { p with bases := [] }))))
  else if v * 2 ^ 32 < lim.1 || lim.2 < v * 2 ^ 32 then refuse abRange
  else
    let ch1 := ch.place false lim (v * 2 ^ 32)
    accept (.seq (setChan c fun _ => ch1) (limitEvent c ch ch1))

/-- Frequency of words: bits of a serial word as clocked (R110). -/
def serialBits (frame : Nat) : Nat :=
  (if bit frame 17 then 1 else 0) + bits frame 18 2 + bits frame 0 6
    + (if bit frame 15 then 1 else 0) + bits frame 20 5

/-- Time of a serial word in ns: one clock to latch and one per bit (R110's example). -/
def serialWordTime (frame divider : Nat) : Nat := (serialBits frame + 1) * (2 * divider)

/-- SerialReadPeriod: not shorter than the word time plus SerialRecovery (R110). -/
def effSerialPeriod (n : Nat) : Effect := fun s w =>
  if w.val < serialWordTime (s.reg (K.SerialFrame + n)) (s.reg (K.SerialClockDivider + n))
      + s.reg (K.SerialRecovery + n) then refuse abRange
  else accept (put (K.SerialReadPeriod + n) w.val)

/-- SerialFrame: reserved bits, 8–48 position bits, at most 16 CRC bits (bit map of 0x2341). -/
def effSerialFrame (n : Nat) : Effect := fun _ w =>
  if w.val &&& 0x01FFC03F != w.val || bits w.val 0 6 < 8 || 48 < bits w.val 0 6
      || 16 < bits w.val 20 5 then refuse abRange
  else accept (put (K.SerialFrame + n) w.val)

/-- CompareControl: reserved bits and Output up to 4 (bit map of 0x2352). -/
def effCompareControl (k : Nat) : Effect := fun _ w =>
  if w.val &&& 0xFB != w.val || 4 < bits w.val 5 3 then refuse abRange
  else accept (put (K.CompareControl + k) w.val)

/-- CompareChannel: a change disarms the comparator, in any mode (R125). -/
def effCompareChannel (k : Nat) : Effect := fun s w =>
  accept (.seq (put (K.CompareChannel + k) w.val)
    (put K.CompareArmed (setBit (s.reg K.CompareArmed) k false)))

/-- CompareValue: arms, and tells at once when the value lies at or behind the position in the last
direction of travel (R124). -/
def effCompareValue (k : Nat) : Effect := fun s w =>
  let c := s.reg (K.CompareChannel + k)
  let ctl := s.reg (K.CompareControl + k)
  let v := signedOf 8 w.val
  let ch := s.chan c
  let web := c < 14 && s.webMode c && !bit ctl 4
  if web && (v < 0 || (ch.len : Int) ≤ v) then refuse abRange
  else
    let here := compared ctl ch
    let behind := c < 14 && (if ch.dir < 0 then here ≤ v * 2 ^ 32 else v * 2 ^ 32 ≤ here)
    accept (seqs [
      put (K.CompareValue + k) w.val,
      put K.CompareArmed (setBit (s.reg K.CompareArmed) k (c < 14 && !s.isRetired (faultSource 4 c))),
      put K.CompareBehindFlags (setBit (s.reg K.CompareBehindFlags) k behind),
      when behind (posEvent 21 k) ])

/-- CompareFired: writing 1 bits clears those (0x2355). -/
def effCompareFired : Effect := fun s w =>
  accept (put K.CompareFired (s.reg K.CompareFired &&& (w.val ^^^ 0xFFFFFFFF)))

/-- The rules of the 0x23xx entries with a rule of their own; the others take the value at once. -/
def effPosition (idx sub : Nat) : Effect :=
  let c := sub - 1
  match idx with
  | 0x2300 => effMaster (idx * 256 + sub)
  | 0x2310 => effChannelType c
  | 0x2311 => effCountingMode c
  | 0x2313 => effCopyLength c
  | 0x2314 => effSoftLimit c false
  | 0x2315 => effSoftLimit c true
  | 0x231F => effPreset c
  | 0x2341 => effSerialFrame c
  | 0x2345 => effSerialPeriod c
  | 0x2350 => effCompareChannel c
  | 0x2351 => effCompareValue c
  | 0x2352 => effCompareControl c
  | 0x2355 => effCompareFired
  | _ => plain (idx * 256 + sub)

/-- ChannelStatus (bit map of 0x2323). -/
def State.channelStatus (s : State) (c : Nat) : Nat :=
  let ch := s.chan c
  let b := fun (x : Bool) (n : Nat) => if x then 2 ^ n else 0
  b (s.isRetired (faultSource 4 c)) 7 + b ch.limit.isSome 6 + b ch.standing 5 + b ch.valid 4
    + b (ch.dir < 0) 3 + b ch.refFound 2 + b ch.signalFault 1 + b (s.counting c) 0

/-- The live value of a 0x2301 entry (R131). -/
def State.webEntry (s : State) (sub : Nat) : Nat :=
  let m := s.master
  let st := s.ptpAt m.sampleAt
  match sub with
  | 0x01 => rawOf 8 (roundShift m.pos 32)
  | 0x02 => rawOf 8 (roundShift m.total 32)
  | 0x03 => rawOf 8 m.copies
  | 0x04 => rawOf 4 (clampInt (-(2 ^ 31)) (2 ^ 31 - 1) s.webSpeed)
  | 0x05 => if s.speedValid then 1 else 0
  | 0x06 => ptpSec st
  | 0x07 => ptpNs st
  | 0x08 => ptpFrac st
  | 0x09 => match s.activeMaster with
    | some c => s.channelStatus c
    | none => s.channelStatus (s.reg K.MasterChannel)
  | _ => s.activeMaster.getD 0xFF

/-- The latched values of a reader, if it holds any (R131). -/
def State.webLatch (s : State) (p : WPath) : Option (List Nat) :=
  (s.pos.latches.find? fun x => x.1 == p).map (·.2)

/-- A read of WebPosition latches 0x2301:01–0A for its reader (R131). -/
def latchWeb (p : WPath) : Act :=
  .read fun s =>
    let vals := (List.range 10).map fun i => s.webEntry (i + 1)
    .prim (.pos fun x => { x with latches := (p, vals) :: x.latches.filter fun y => y.1 != p })

/-- The position entries that are computed from the channels (0x2301, 0x2320–0x2326), for a reader. -/
def State.posView (s : State) (p : WPath) (idx sub : Nat) : Option Nat :=
  let c := sub - 1
  let ch := s.chan c
  if sub = 0 then none
  else match idx with
  | 0x2301 =>
    if 2 ≤ sub then
      match s.webLatch p with
      | some l => some (l.getD (sub - 1) 0)
      | none => some (s.webEntry sub)
    else some (s.webEntry sub)
  | 0x2320 => some (rawOf 8 (roundShift ch.pos 32))
  | 0x2321 => some (rawOf 8 (roundShift ch.total 32))
  | 0x2322 => some (rawOf 4 (clampInt (-(2 ^ 31)) (2 ^ 31 - 1) (s.speedNow c)))
  | 0x2323 => some (s.channelStatus c)
  | 0x2324 => some (rawOf 4 ch.deviation)
  | 0x2325 =>
    let lim := s.softLimits c
    some (rawOf 8 (match ch.limit with
      | some false => roundShift (ch.raw - lim.1) 32
      | some true => roundShift (ch.raw - lim.2) 32
      | none => 0))
  | 0x2326 => some (rawOf 8 ch.copies)
  | _ => none

/-- CopyLength. -/
def execCopyLengthWrite (t ch : Nat) (w : Wr) (s : State) : Host.Outcome State Fault Refusal :=
  perform t (writeBy 0x2313 (ch + 1) (effCopyLength ch) w) s

/-- SoftLimitLow or SoftLimitHigh. -/
def execSoftLimitWrite (t ch : Nat) (high : Bool) (w : Wr) (s : State) :
    Host.Outcome State Fault Refusal :=
  perform t (writeBy (if high then 0x2315 else 0x2314) (ch + 1) (effSoftLimit ch high) w) s

/-- PositionPreset. -/
def execPositionPreset (t ch : Nat) (w : Wr) (s : State) : Host.Outcome State Fault Refusal :=
  perform t (writeBy 0x231F (ch + 1) (effPreset ch) w) s

/-- ChannelType. -/
def execChannelTypeWrite (t ch : Nat) (w : Wr) (s : State) : Host.Outcome State Fault Refusal :=
  perform t (writeBy 0x2310 (ch + 1) (effChannelType ch) w) s

/-- CountingMode. -/
def execCountingModeWrite (t ch : Nat) (w : Wr) (s : State) : Host.Outcome State Fault Refusal :=
  perform t (writeBy 0x2311 (ch + 1) (effCountingMode ch) w) s

/-- MasterChannel. -/
def execMasterChannelWrite (t : Nat) (w : Wr) (s : State) : Host.Outcome State Fault Refusal :=
  perform t (writeBy 0x2300 1 (effMaster K.MasterChannel) w) s

/-- CompareValue. -/
def execCompareValueWrite (t k : Nat) (w : Wr) (s : State) : Host.Outcome State Fault Refusal :=
  perform t (writeBy 0x2351 (k + 1) (effCompareValue k) w) s

/-- CompareChannel. -/
def execCompareChannelWrite (t k : Nat) (w : Wr) (s : State) : Host.Outcome State Fault Refusal :=
  perform t (writeBy 0x2350 (k + 1) (effCompareChannel k) w) s

/-- CompareFired. -/
def execCompareFiredClear (t : Nat) (w : Wr) (s : State) : Host.Outcome State Fault Refusal :=
  perform t (writeBy 0x2355 1 effCompareFired w) s

/-- A CMP_OUT pulse ends once its merged end has passed (R123). -/
def execComparePulseEnd (t k : Nat) (s : State) : Host.Outcome State Fault Refusal :=
  perform t (.read fun s =>
    match s.pos.cmpUntil.getD k none with
    | some u =>
      when (u ≤ s.now)
        (seqs [
          lineWithdrawn k,
          .prim (.pos fun p => { p with cmpUntil := modAt p.cmpUntil k fun _ => none }),
          send (.ball (.cmpOut k) 0) ])
    | none => .skip) s

/-- A and B levels of a quadrature count: A leads B forward (R126). -/
def quadLevels (n : Int) : Nat × Nat :=
  match (n % 4).toNat with
  | 0 => (0, 0)
  | 1 => (1, 0)
  | 2 => (1, 1)
  | _ => (0, 1)

/-- Z of an emulation output at a count (R126). -/
def State.emuZ (s : State) (k : Nat) (e : Emu) (n : Int) : Bool :=
  match s.reg (K.EmulationZMode + k) with
  | 1 => e.zAt.contains n
  | 2 => n % (s.reg (K.EmulationZInterval + k) : Int) == 0
  | _ => false

/-- An emulation output sends its next edge toward its target, at least 40 ns after the last (R126,
R127); it holds its levels while the source is off or retired. The ball's level carries A, B and Z as
bits 0, 1 and 2. -/
def execEmulationEdge (t k : Nat) (s : State) : Host.Outcome State Fault Refusal :=
  perform t (.read fun s =>
    let e := s.pos.emus.getD k {}
    let target := s.emuTarget k e
    let free : Bool := match e.lastAt with
      | some u => decide (u + 40 ≤ s.now)
      | none => true
    if k < 4 && s.counting (s.reg (K.EmulationSource + k)) && s.flag (K.FunctionEnable + 10)
        && free && target != e.count then
      let n := if e.count < target then e.count + 1 else e.count - 1
      let ab := quadLevels n
      let owed := (target - n).natAbs
      seqs [
        .prim (.pos fun p => { p with emus := modAt p.emus k fun e =>
          { e with count := n, lastAt := some s.now,
                   overrun := e.overrun && s.reg (K.EmulationMaxLag + k) < owed } }),
        put (K.EmulationBacklog + k) owed,
        send (.ball (.em k) (ab.1 + 2 * ab.2 + if s.emuZ k e n then 4 else 0)) ]
    else .skip) s

end Sys2Proof.Machine
end

