-- ==== Sys2Proof/Machine/Places.lean ====
section
/-! DEFINITION. Sys2Proof/Machine/Places.lean: where the stores and DRAM regions lie (R24, R26, R351,
R353, R358) and where each DOMAIN object lies within them (R70; notes/assumptions/13.md). -/

namespace Sys2Proof.Machine

/-- Start of mapped DRAM (R351). -/
abbrev dramStart : Nat := 0x2000000000

/-- Start of the ring area (R358). -/
abbrev ringStart : Nat := 0x2080000000

/-- The protected region, the top 16 MiB of the fixed area (R354). -/
abbrev protectedStart : Nat := 0x207F000000

/-- Start of the job store (R358). -/
def State.jobStart (s : State) : Nat := ringStart + s.reg K.RingAreaSize

/-- First address above mapped DRAM (R351). -/
def State.dramEnd (s : State) : Nat := dramStart + s.reg K.MappedCapacity

/-- The n-th 16 MiB block of the fixed area, in which the model places the DRAM DOMAINs. -/
def fixedBlock (n : Nat) : Nat := dramStart + n * 0x1000000

abbrev jobDirectoryAt : Nat := 0x2000000000
abbrev streamTableAt : Nat := 0x2001000000
abbrev protectedInboxAt : Nat := 0x2003000000
abbrev missingSetAt : Nat := 0x2005000000
abbrev stitchBaseAt : Nat := 0x2006000000
abbrev screenInboxAt : Nat := 0x2007000000
abbrev waveTableAt : Nat := 0x2008000000
abbrev columnRingAt : Nat := 0x2009000000
abbrev ladderRequestsAt : Nat := 0x200A000000
abbrev nozzleDensityAt : Nat := 0x200C000000
abbrev verdictRingAt : Nat := 0x200E000000
abbrev packageInboxAt : Nat := 0x200F000000
abbrev statisticsAt : Nat := 0x2010000000
abbrev retentionAt : Nat := 0x2011000000
abbrev reorderAt : Nat := 0x2012000000

/-- Start of a nozzle table bank (R351). -/
def bankAt (b : Nat) : Nat := 0x05000000 + b * 0xC00000

/-- Start of the Screen Store (R351). -/
abbrev screenAt : Nat := 0x07000000

/-- Start of the composite staging of the Line Store (R26): after 24 MiB and 7.5 MiB. -/
abbrev compositeAt : Nat := 0x02000000 + 0x1F80000

/-- Where the composite line of an ink lies: two lines per ink, by the line's parity (R26). -/
def compositeLineAt (ink line : Nat) : Nat := compositeAt + ((line % 2) * 8 + ink) * 196608

/-- A frame share of the Camera Frame Store (R351). -/
def shareAt (p : Nat) : Nat := 0x08000000 + p * 0x300000

/-- A coefficient block of a port in the Control Store: staging, then in force (R353). -/
def coefficientAt (p : Nat) (inForce : Bool) : Nat := coefficientBase + 0x40000 * p + if inForce then 0x20000 else 0

/-- A waveform table. -/
def waveAt (t : Nat) : Nat := waveTableAt + t * 0x1000

/-- The DOMAINs that live in DRAM and that R377 and R493 return to their power-on content. -/
def dramDomains : List Nat :=
  [0x5400, 0x5401, 0x5500, 0x5602, 0x5603, 0x5610] ++ (List.range 8).map (0x5700 + ·) ++ [0x5920, 0x5921,
    0x5B00, 0x5B01, 0x5B02, 0x5B03, 0x5D00] ++ (List.range 8).map (0x5918 + ·)

/-- The key of a DOMAIN's StoreVersion (R70). -/
def versionKey (idx : Nat) : Nat := idx * 256 + 3

/-- A DOMAIN's StoreVersion is incremented (R70). -/
def bumpVersion (idx : Nat) : Act := addTo (versionKey idx) 4 1

/-- This controller may drive the print path: it is not in a pair, or it is the Holder (R440, R448). -/
def State.isHolder (s : State) : Bool := s.reg K.BridleRole == 0 || s.reg K.BridleRole == 2

/-- The copy at which a Returning peer takes the claim, while one is returning (R444, R454). -/
def State.peerReturn (s : State) : Option Nat :=
  if s.reg K.BridleRole == 2 && field s.bridle.peer 5 1 == 4 && field s.bridle.peer 16 8 != 2 ^ 64 - 1 then
    some (field s.bridle.peer 16 8)
  else none

/-- A request of R448 for a copy is taken: by the Holder, and only for copies before the one at which a
Returning peer claims (R454 step 2). -/
def State.takesFor (s : State) (m : Nat) : Bool := s.isHolder && s.peerReturn.all fun r => m < r

/-- A function of R53 is Enabled. -/
def State.fnOn (s : State) (f : Nat) : Bool := s.reg (K.FunctionStatus + (f - 1)) == 1

/-- The functions by the numbers of R53. -/
abbrev fnDecode : Nat := 1
abbrev fnEncode : Nat := 2
abbrev fnIngest : Nat := 3
abbrev fnComp : Nat := 4
abbrev fnTone : Nat := 5
abbrev fnFire : Nat := 6
abbrev fnLinks : Nat := 7
abbrev fnInspect : Nat := 8
abbrev fnIllum : Nat := 9
abbrev fnLoop : Nat := 10
abbrev fnEmu : Nat := 11

/-- Some byte of a range lies in a poisoned burst (R366, R367). -/
def State.poisoned (s : State) (a n : Nat) : Bool :=
  s.dram.poison.any fun b => b < a + n && a < b + 64

/-- A write of a range clears the poison of every burst it covers whole (R366). -/
def clearPoison (a n : Nat) : Act :=
  .prim (.dram fun d => { d with poison := d.poison.filter fun b => !(a ≤ b && b + 64 ≤ a + n) })

/-- Writes DRAM bytes, clearing the poison of bursts written whole. -/
def writeDram (a : Nat) (l : List Nat) : Act := .seq (.prim (.storeBytes a l)) (clearPoison a l.length)

/-- The bytes of a range. -/
def State.bytesAt (s : State) (a n : Nat) : List Nat :=
  (List.range n).map fun i => (Memory.byte s.mem (a + i)).toNat

end Sys2Proof.Machine
end

