-- ==== Sys2Proof/Machine/Rings.lean ====
section
/-! DEFINITION. Sys2Proof/Machine/Rings.lean: the row-delay rings (R23, R42, R43, R201, R225). -/

namespace Sys2Proof.Machine

/-- Row span of an ink in lines of a mode, rounded up (R225). -/
def State.rowSpan (s : State) (mode ink : Nat) : Nat :=
  match s.inkOffsets ink with
  | [] => 0
  | x :: xs =>
    let lo := xs.foldl min x
    let hi := xs.foldl max x
    ceilDiv ((hi - lo).toNat * alongRes mode) 25400000

/-- The links that serve an ink, ascending (R201). -/
def State.inkLinks (s : State) (ink : Nat) : List Nat :=
  (List.range s.linkCount).filter fun l => s.linkInk l == ink

/-- Bits per drop code of a mode (R36). -/
def codeBits (mode : Nat) : Nat := if mode = mDepth then 4 else 2

/-- Bytes of one drop line of an ink in a mode (R201). -/
def State.dropBytes (s : State) (mode ink : Nat) : Nat :=
  (s.inkLinks ink).length * 49152 * codeBits mode / 8

/-- The ring one ink needs for a mode (R23), placed at an address. -/
def State.ringFor (s : State) (mode ink base : Nat) : Ring :=
  { ink := ink, mode := mode, base := base, lineBytes := s.dropBytes mode ink,
    depth := s.rowSpan mode ink + 128 }

/-- Bytes of a ring. -/
def Ring.size (r : Ring) : Nat := r.lineBytes * r.depth

/-- The inks that have links. -/
def State.inks (s : State) : List Nat := (List.range 8).filter fun k => !(s.inkLinks k).isEmpty

/-- Rings one after the other from an address. -/
def State.ringsFrom (s : State) (mode : Nat) : List Nat → Nat → List Ring
  | [], _ => []
  | k :: ks, base =>
    let r := s.ringFor mode k base
    r :: State.ringsFrom s mode ks (base + r.size)

/-- A block of bytes is clear of every ring held. -/
def clearOf (rs : List Ring) (a n : Nat) : Bool := rs.all fun r => a + n ≤ r.base || r.base + r.size ≤ a

/-- The rings of a mode, placed at the lowest free place of the ring area beside the rings held, or
none where they do not fit (R42 step 2, R358; notes/assumptions/13.md). -/
def State.placeRings (s : State) (mode : Nat) : Option (List Ring) :=
  let total := ((s.ringsFrom mode s.inks ringStart).map Ring.size).sum
  let starts := (ringStart :: s.fire.rings.map fun r => r.base + r.size).filter fun a =>
    a + total ≤ ringStart + s.reg K.RingAreaSize && clearOf s.fire.rings a total
  match starts with
  | [] => none
  | a :: as => some (s.ringsFrom mode s.inks (as.foldl min a))

/-- Every ink's span fits in 16,384 lines (R23, R225). -/
def State.spansFit (s : State) (mode : Nat) : Bool := s.inks.all fun k => s.rowSpan mode k ≤ 16384

/-- Takes rings into use. -/
def takeRings (rs : List Ring) : Act := .prim (.fire fun f => { f with rings := f.rings ++ rs })

/-- Releases the rings of every mode but one (R43). -/
def releaseRings (keep : Nat) : Act :=
  .prim (.fire fun f => { f with rings := f.rings.filter fun r => r.mode == keep })

/-- The ring of an ink for a mode. -/
def State.ring? (s : State) (mode ink : Nat) : Option Ring :=
  s.fire.rings.find? fun r => r.mode == mode && r.ink == ink

/-- Address of a line of a copy in its ring (R23): slots are used in turn. -/
def Ring.lineAt (r : Ring) (c : Copy) (y : Nat) : Nat :=
  r.base + ((c.seq + y) % (if r.depth = 0 then 1 else r.depth)) * r.lineBytes

end Sys2Proof.Machine
end

