-- ==== Sys2Proof/Machine/Stops.lean ====
section
/-! DEFINITION. Sys2Proof/Machine/Stops.lean: entering Ready and the orderly stop (R45, R47, R50, R422). -/

namespace Sys2Proof.Machine

/-- Sets PTP time to another count at this instant (R421). -/
def TimeSt.step (tm : TimeSt) (now : Nat) (d : Int) : TimeSt :=
  { tm with base := ((tm.at now : Int) + d).toNat, anchor := now }

/-- Gives the timekeeper another rate trim at this instant, in 2^-32 ns per ns (R418). -/
def TimeSt.retrim (tm : TimeSt) (now : Nat) (v : Int) : TimeSt :=
  { tm with base := tm.at now, anchor := now, trim := v }

/-- A rate of so many ppm as a trim. -/
def ppmTrim (n : Nat) : Nat := n * 2 ^ 32 / 1000000

/-- The timekeeper is not stepped, and its trim is held within PrintSlewLimit: in a print mode and while a
Service pattern runs (R422). -/
def State.slewOnly (s : State) : Bool := isPrint s.mode || s.reg K.ServiceState != 0

/-- The limit of the rate trim (R421, R422). -/
def State.trimLimit (s : State) : Nat := ppmTrim (if s.slewOnly then min 100 (s.reg K.PrintSlewLimit) else 100)

/-- Holds the rate trim within its limit. -/
def holdTrim : Act :=
  .read fun s =>
    let v := clampInt (-(s.trimLimit : Int)) s.trimLimit s.time.trim
    when (v != s.time.trim) (.prim (.time fun tm => tm.retrim s.now v))

/-- A deferred step of the timekeeper is made on entering Ready with no pattern running, unless the
offset has fallen within the threshold (R422). -/
def deferredStep : Act :=
  .read fun s =>
    match s.time.deferred with
    | some d =>
      if s.reg K.ServiceState = 0 then
        .seq (.prim (.time fun tm => { tm.step s.now d with deferred := none })) (raise 229)
      else .skip
    | none => .skip

/-- ModeActual takes a mode; ModeChanged occurs where it changes. -/
def setMode (m : Nat) : Act :=
  .read fun s => .seq (put K.ModeActual m) (when (s.mode != m) (raise 4))

/-- Ends a Service pattern in progress with a result (R49, R253). -/
def endService (result : Nat) : Act :=
  .read fun s =>
    if s.fire.service.isSome then
      seqs [.prim (.fire fun f => { f with service := none }), put K.ServiceState 0,
        put K.ServiceLastResult result, raise 107]
    else .skip

/-- Rows stop: no row is due any line. -/
def Head.idle (h : Head) : Head := { h with rows := h.rows.map fun r => { r with next := none } }

/-- An orderly stop (R47, R50): requests are cancelled, nothing further is issued, copies in flight are
marked waste and end, the controller enters Ready, and DRAM is to return to 3200 MT/s (R45). In Standby
there is nothing to stop (notes/assumptions/21.md). -/
def orderlyStop (reason : Nat) : Act :=
  .read fun s =>
    let cancel := seqs [put K.ModePending 0xFF, put K.ModeQueued 0xFF,
      .prim (.sys fun x => { x with locked := false })]
    if s.mode = mStandby then cancel
    else
      seqs [
        cancel,
        markInFlight wModeStop,
        .prim (.fire fun f => { f with
          copies := f.copies.map fun c => { c with done := true },
          heads := f.heads.map Head.idle, rings := [] }),
        endService 1,
        setMode mReady,
        put K.ModeTransitionActive 0,
        .prim (.sys fun x => { x with transFrom := none }),
        put K.StopReason reason,
        addTo K.StopCount 4 1,
        raise 7,
        .prim (.dram fun d => { d with freqNext := some 3200 }),
        deferredStep ]

/-- An orderly stop made only in a print mode (R285, R377, R452). -/
def stopIfPrinting (reason : Nat) : Act :=
  .read fun s => when (isPrint s.mode || s.inTransition) (orderlyStop reason)

/-- A copy is marked waste, and the amended verdict it owes once its verdict is out (R346, R347). -/
def wasteCopy (m : Int) (reason : Nat) : Act := markWaste m reason

end Sys2Proof.Machine
end

