-- ==== Sys2Proof/Machine/Packets.lean ====
section
/-! DEFINITION. Sys2Proof/Machine/Packets.lean: Halyard packets toward the far ends (R267, R270–R273,
R276), the log of sent packets (R268), and what every packet to a head names: bank, drop-code width and
amplitude (R242, R243, R246, R250, R253). -/

namespace Sys2Proof.Machine

/-- A head link. -/
def State.lnk (s : State) (l : Nat) : LinkSt := s.link.links.getD l {}

/-- Changes one link. -/
def setLink (l : Nat) (f : LinkSt → LinkSt) : Act :=
  .prim (.link fun x => { x with links := modAt x.links l f })

/-- Coordinate of a link's entry of block B (R288). -/
def linkKey (k l : Nat) : Nat := k + l * 0x10 * 256

/-- LinkState. -/
def State.linkState (s : State) (l : Nat) : Nat := s.reg (linkKey K.LinkState l)

/-- The link is up. -/
def State.linkUp (s : State) (l : Nat) : Bool := s.linkState l == 3

/-- The packet of R267: header, content, CRC-32. -/
def packetBytes (kind slot row sequence claim : Nat) (content : List Nat) : List Nat :=
  let head := [kind % 16, slot % 16 + 16 * (row % 4)] ++ leBytes 2 content.length ++ leBytes 2 sequence
    ++ [claim % 256, 0]
  head ++ content ++ leBytes 4 (crc32 (head ++ content))

/-- Packet kinds of R267. -/
abbrev pkLINE : Nat := 1
abbrev pkFIRE : Nat := 2
abbrev pkWAVE : Nat := 3
abbrev pkCFG : Nat := 4
abbrev pkCLAIM : Nat := 5
abbrev pkSYNC : Nat := 6

/-- Sends one packet on a link and logs it (R267, R268). -/
def sendPacket (l kind slot row : Nat) (content : List Nat) (rowSeq : Nat) (copy : Int) : Act :=
  .read fun s =>
    let k := s.lnk l
    .seq
      (setLink l fun k => { k with
        seqOut := (k.seqOut + 1) % 65536
        sent := ({ seq := k.seqOut, kind := kind, slot := slot, row := row, rowSeq := rowSeq,
                   copy := copy } :: k.sent).take 4096 })
      (send (.packet l kind (packetBytes kind slot row k.seqOut (s.reg K.ClaimActual) content)))

/-- Point i of a temperature curve (R242): temperature and gain. -/
def curvePoint (v i : Nat) : Int × Nat := (signedOf 2 (bits v (32 * i) 16), bits v (32 * i + 16) 16)

/-- Gain at a temperature between points `i` and `i + 1` onward (R242). -/
def gainFrom (v : Nat) (temp : Int) : Nat → Nat → Int
  | 0, i => (curvePoint v i).2
  | n + 1, i =>
    let a := curvePoint v i
    let b := curvePoint v (i + 1)
    if temp ≤ a.1 then a.2
    else if temp < b.1 then
      (a.2 : Int) + roundDiv (((b.2 : Int) - a.2) * (temp - a.1)) (b.1 - a.1).toNat
    else gainFrom v temp n (i + 1)

/-- AmplitudeScale of a slot (R243). -/
def State.amplitude (s : State) (l sl : Nat) : Nat :=
  let g := gainFrom (s.reg (slotKey K.TempCurve l sl)) (s.regI (slotKey K.HeadTemperature l sl) 2) 7 0
  clampNat 0xFFFF (roundDiv (g * (s.reg (slotKey K.SlotGain l sl) : Int)) 32768)

/-- The bank in which a head holds a version with a token (R250). -/
def State.bankOf (s : State) (l sl version : Nat) : Option Nat :=
  let st := s.reg (slotKey K.BankStatus l sl)
  if version = 0 then none
  else if s.reg (slotKey K.Bank0Version l sl) = version && bit st 1 then some 0
  else if s.reg (slotKey K.Bank1Version l sl) = version && bit st 2 then some 1
  else none

/-- Head type of a slot. -/
def State.headType (s : State) (l sl : Nat) : Nat := s.reg (slotKey K.HeadType l sl)

/-- WaveVersionInForce of a type. -/
def State.versionInForce (s : State) (ty : Nat) : Nat := s.reg (K.WaveVersionInForce + ty)

/-- What the table in force says of a type (R238, R253). -/
def State.factsOf (s : State) (ty : Nat) : WaveFacts := s.fire.facts.getD ty {}

/-- HeadState of a slot (R244, 0x4100:12). -/
def State.headState (s : State) (l sl : Nat) : Nat := s.reg (slotKey K.HeadState l sl)

/-- LINE, FIRE, WAVE and CFG writes may go to a slot (R244, R252, R269, R285, R448). -/
def State.slotSendable (s : State) (l sl : Nat) : Bool :=
  s.linkUp l && s.headState l sl == 2 && s.fnOn fnLinks && s.fnOn fnFire && s.isHolder

/-- Present head slot, inhibited or not (R252). -/
def State.slotPresent (s : State) (l sl : Nat) : Bool := 2 ≤ s.headState l sl

/-- A LINE packet for one row line (R270). -/
def sendLine (l sl row rowSeq bank bitsPer count stamp : Nat) (tickle : Bool) (codes : List Nat)
    (copy : Int) : Act :=
  .read fun s =>
    let amp := s.amplitude l sl
    let flags := bank + (if bitsPer = 4 then 2 else 0) + (if tickle then 4 else 0)
    seqs [
      put (slotKey K.AmplitudeScale l sl) amp,
      put (slotKey K.BankStatus l sl) (setBit (s.reg (slotKey K.BankStatus l sl)) 0 (bank == 1)),
      sendPacket l pkLINE sl row
        (leBytes 2 rowSeq ++ [flags, 0] ++ leBytes 2 amp ++ leBytes 2 count ++ stampBytes stamp ++ codes)
        rowSeq copy ]

/-- A FIRE packet to one slot (R271): kind 0 tickle or 1 spit. -/
def sendFire (l sl kind code bank bitsPer stamp : Nat) : Act :=
  .read fun s =>
    let amp := s.amplitude l sl
    seqs [
      put (slotKey K.AmplitudeScale l sl) amp,
      put (slotKey K.BankStatus l sl) (setBit (s.reg (slotKey K.BankStatus l sl)) 0 (bank == 1)),
      sendPacket l pkFIRE sl 0
        ([kind, bank + (if bitsPer = 4 then 2 else 0), code % 16, 0] ++ leBytes 2 amp ++ [0, 0]
          ++ stampBytes stamp) 0 0 ]

/-- A CFG packet (R273). -/
def sendCfg (l slot op tag count addr : Nat) (data : List Nat) : Act :=
  sendPacket l pkCFG slot 0
    ([op, tag % 256, count, 0] ++ leBytes 2 addr ++ [0, 0] ++ (if op = 1 then data.take (4 * count) else []))
    0 0

/-- Raises a firing event and records its slot (0x2702). -/
def fireEvent (n l sl : Nat) : Act := .seq (put (K.FiringEventSlot + (n - 96)) (12 * l + sl)) (raise n)

/-- Codes packed from bit 0 upward (R201, R228). -/
def packCodes (width : Nat) (codes : List Nat) : List Nat :=
  let v := codes.foldr (fun c acc => c % 2 ^ width + 2 ^ width * acc) 0
  leBytes (ceilDiv (codes.length * width) 8) v

end Sys2Proof.Machine
end

