-- ==== Sys2Proof/Machine/Sources.lean ====
section
/-! DEFINITION. Sys2Proof/Machine/Sources.lean: streams and the strips that hold their lines (R132, R133),
the geometry of the scaler (R173–R178) and which strips feed a band (R163, R179). -/

namespace Sys2Proof.Machine

/-- Fields of the stream header (R141). -/
def Stream.version (x : Stream) : Nat := field x.hdr 2 1
def Stream.ink (x : Stream) : Nat := field x.hdr 12 1
def Stream.layer (x : Stream) : Nat := field x.hdr 13 1
def Stream.bits (x : Stream) : Nat := field x.hdr 14 1
def Stream.near (x : Stream) : Nat := field x.hdr 15 1
def Stream.width (x : Stream) : Nat := field x.hdr 16 2
def Stream.across (x : Stream) : Nat := field x.hdr 20 4
def Stream.srcLines (x : Stream) : Nat := field x.hdr 24 4
def Stream.strips (x : Stream) : Nat := field x.hdr 28 4
def Stream.resX (x : Stream) : Nat := field x.hdr 32 2
def Stream.resY (x : Stream) : Nat := field x.hdr 34 2
def Stream.ratio (x : Stream) : Nat := field x.hdr 36 2
def Stream.streamed (x : Stream) : Bool := bit (field x.hdr 38 1) 1

/-- The stream of a StreamId. -/
def State.stream? (s : State) (id : Nat) : Option Stream := s.codec.streams.find? fun x => x.id == id

/-- The job of a JobId. -/
def State.job? (s : State) (id : Nat) : Option Job := s.codec.jobs.find? fun x => x.id == id

/-- The decoding record of a stream. -/
def State.dec? (s : State) (id : Nat) : Option DecStream := s.codec.decs.find? fun x => x.id == id

/-- Inserts a stream by AcrossOffset. -/
def insertStream (x : Stream) : List Stream → List Stream
  | [] => [x]
  | y :: ys => if x.across ≤ y.across then x :: y :: ys else y :: insertStream x ys

/-- The streams of a job for a layer and an ink (R167), by AcrossOffset. -/
def State.layerStreams (s : State) (job layer ink : Nat) : List Stream :=
  (s.codec.streams.filter fun x => x.job == job && x.layer == layer && x.ink == ink).foldr insertStream []

/-- The strip that holds a source line, present or by the expected placement (R133). -/
def Stream.stripOf (x : Stream) (line : Nat) : Nat :=
  match x.placed.find? fun p => p.first ≤ line && line < p.first + p.count with
  | some p => p.idx
  | none =>
    let below := x.placed.filter fun p => p.first + p.count ≤ line
    match below.foldl (fun (b : Option Placed) p => match b with
        | some q => if q.idx < p.idx then some p else b
        | none => some p) none with
    | some q => min (q.idx + 1 + (line - q.first - q.count) / 16) (x.strips - 1)
    | none => min (line / 16) (x.strips - 1)

/-- 2^24. -/
abbrev one24 : Int := 16777216

/-- S0 of R173. -/
def step0 (res grid : Nat) : Int := roundDiv (res * one24) grid

/-- S of R173 under a stretch in ppm. -/
def stepS (res grid : Nat) (ppm : Int) : Int :=
  roundDiv (res * one24 * 1000000) (grid * (1000000 + ppm).toNat)

/-- u(X) of R175. -/
def posU (centre : Nat) (d : Desc) (v : InkView) (x : Nat) : Int :=
  ((x : Int) - centre) * v.sX + ((centre : Int) - d.originX) * v.s0X

/-- w(y) of R175. -/
def posW (d : Desc) (v : InkView) (y : Nat) : Int := (y : Int) * v.sY - d.originY * v.s0Y

/-- The nearest sample or line, floor(pos + 0.5) (R176). -/
def nearest24 (p : Int) : Int := (p + 8388608) / one24

/-- Integer part and phase of a position (R177). -/
def split24 (p : Int) : Int × Nat :=
  let q := ((p % one24 + 131072) / 262144).toNat
  if q = 64 then (p / one24 + 1, 0) else (p / one24, q)

/-- sin x in units of 2^-96, by its series; `n` terms. -/
def sin96 (x : Int) : Nat → Nat → Int → Int → Int
  | 0, _, _, acc => acc
  | n + 1, k, term, acc =>
    sin96 x n (k + 1) (roundDiv (roundShift (roundShift (-term * x) 96 * x) 96) ((2 * k) * (2 * k + 1))) (acc + term)

/-- π in units of 2^-96. -/
abbrev pi96 : Int := 248902613312231085230521944622

/-- 16,384 × K(t) of Lanczos-3 at t = j ÷ 64, rounded (R177). -/
def lanczos (j : Nat) : Int :=
  if j = 0 then 16384
  else if 192 ≤ j then 0
  else
    let s := fun (x : Int) => sin96 x 40 1 x 0
    let a := s (roundDiv (pi96 * j) 64)
    let b := s (roundDiv (pi96 * j) 192)
    roundDiv (16384 * a * b * 12288) (pi96 * pi96 * j * j).toNat

/-- 16,384 × K(t) of Catmull-Rom at t = j ÷ 64, rounded (R177). -/
def catmull (j : Nat) : Int :=
  let t : Int := j
  if j ≤ 64 then roundDiv (16384 * (3 * t ^ 3 - 5 * 64 * t ^ 2 + 2 * 64 ^ 3)) (2 * 64 ^ 3)
  else if j < 128 then
    roundDiv (16384 * (-(t ^ 3) + 5 * 64 * t ^ 2 - 8 * 64 ^ 2 * t + 4 * 64 ^ 3)) (2 * 64 ^ 3)
  else 0

/-- The taps of a kernel at a phase, relative to i0 (R177). -/
def kernelTaps (kernel p : Nat) : List Int :=
  match kernel with
  | 0 => if p < 32 then [0] else [1]
  | 1 => [0, 1]
  | 2 => [-1, 0, 1, 2]
  | _ => [-2, -1, 0, 1, 2, 3]

/-- A coefficient before tap i0 takes the rest (R177). -/
def rawCoeff (kernel p : Nat) (k : Int) : Int :=
  let j := (64 * k - p).natAbs
  match kernel with
  | 0 => 16384
  | 1 => if k = 0 then (64 - (p : Int)) * 256 else (p : Int) * 256
  | 2 => catmull j
  | _ => lanczos j

/-- Taps with their coefficients (R177): that of i0 makes the sum 16,384. -/
def kernelCoeffs (kernel p : Nat) : List (Int × Int) :=
  let taps := (kernelTaps kernel p).map fun k => (k, rawCoeff kernel p k)
  let others := ((taps.filter fun x => x.1 != 0).map (·.2)).sum
  if kernel = 0 then taps else taps.map fun x => if x.1 = 0 then (x.1, 16384 - others) else x

/-- The V layer reaches some column (R176). -/
def coversSome (centre : Nat) (d : Desc) (v : InkView) : Bool :=
  let c := posU centre d v 0
  if v.sX ≤ 0 then false
  else
    let lo := -((8388608 + c) / v.sX)
    let hi := ((v.width : Int) * one24 - 8388609 - c) / v.sX
    max lo 0 ≤ min hi 98303

/-- The lines of the extent that a print line draws on (R178, R179): V layers 0–3, G layers 4–7. -/
def drawnLines (layer centre : Nat) (d : Desc) (v : InkView) (y : Nat) : List Nat :=
  if d.opacity = 0 then []
  else if layer < 4 then
    let w := posW d v y
    if nearest24 w < 0 || (v.lines : Int) ≤ nearest24 w || !coversSome centre d v then []
    else
      let sp := split24 w
      ((kernelCoeffs d.kernelY sp.2).filterMap fun x =>
        if x.2 = 0 then none else some (clampNat (v.lines - 1) (sp.1 + x.1))).eraseDups
  else
    let j := (y : Int) - d.originY
    let reach := d.originX ≤ 98303 && 0 < d.originX + v.width
    if j < 0 || (v.lines : Int) ≤ j || !reach then [] else [j.toNat]

/-- The content of a copy. -/
def State.content? (s : State) (m : Int) : Option Content := s.comp.contents.find? fun x => x.num == m

/-- The view of a layer on an ink. -/
def Content.view (x : Content) (layer ink : Nat) : Option (Desc × InkView) :=
  match x.layers.getD layer none with
  | none => none
  | some (d, vs) => (vs.getD ink none).map fun v => (d, v)

/-- The source lines that print line `y` of an ink needs: stream, source line, SourceLineOffset. -/
def Content.needs (x : Content) (ink y : Nat) : List (Nat × Nat × Nat) :=
  (List.range 8).flatMap fun layer =>
    match x.view layer ink with
    | none => []
    | some (d, v) =>
      (drawnLines layer x.centre d v y).flatMap fun j =>
        v.tiles.map fun t => (t.2.2, d.offset + j, d.offset)

/-- The latest pass taken of a stream by a copy before `m`. -/
def State.bindBefore (s : State) (m : Int) (stream : Nat) : Option Bind :=
  (s.comp.binds.filter fun b => b.stream == stream && b.copy < m).foldl
    (fun best b => match best with
      | some x => if x.copy < b.copy then some b else best
      | none => some b) none

/-- The pass of a stream that copy `m` takes (notes/assumptions/24.md): the one it has taken; else the one
after the previous copy's, or the same where SourceLineOffset has advanced; else the oldest with lines. -/
def State.passFor (s : State) (m : Int) (stream offset : Nat) : Nat :=
  match s.comp.binds.find? fun b => b.copy == m && b.stream == stream with
  | some b => b.pass
  | none =>
    match s.bindBefore m stream with
    | some b => if b.offset = offset then b.pass + 1 else b.pass
    | none =>
      match (s.codec.lines.filter fun l => l.stream == stream).map (·.pass) with
      | p :: ps => ps.foldl min p
      | [] => ((s.dec? stream).map (·.pass)).getD 0

/-- The strips that feed a band of an ink in a copy: stream, pass, strip (R163, R179). -/
def State.feeding (s : State) (c : Copy) (ink band : Nat) : List (Nat × Nat × Nat) :=
  match s.content? c.num with
  | none => []
  | some x =>
    ((List.range 64).flatMap fun i =>
      if 64 * band + i < c.lines then
        (x.needs ink (64 * band + i)).filterMap fun n =>
          (s.stream? n.1).map fun st => (n.1, s.passFor c.num n.1 n.2.2, st.stripOf n.2.1)
      else []).eraseDups

/-- A strip that feeds a band of an ink has failed and has not passed a refetch (R163, R179). -/
def State.bandFailed (s : State) (c : Copy) (ink band : Nat) : Bool :=
  (s.feeding c ink band).any fun f =>
    match s.dec? f.1 with
    | some d => d.failed.contains (f.2.1, f.2.2)
    | none => false

end Sys2Proof.Machine
end

