-- ==== Sys2Proof/Machine/Tone.lean ====
section
/-! DEFINITION. Sys2Proof/Machine/Tone.lean: the tone pipeline (R196–R221): drop decisions, the missing
set, nozzle banks and their commits, the compensation builder, threshold arrays. -/

namespace Sys2Proof.Machine

/-- The 16-byte nozzle table entry of a nozzle in a bank (R199). -/
def State.nozzle (s : State) (b n : Nat) : Nat := Memory.value s.mem (bankAt b + 16 * n) 16

/-- The fields of a nozzle table entry (R199). -/
def neColumn (e : Nat) : Nat := bits e 0 17
def nePresent (e : Nat) : Bool := bit e 17
def neMissing (e : Nat) : Bool := bit e 18
def neLeft2 (e : Nat) : Nat := bits e 19 6
def neLeft1 (e : Nat) : Nat := bits e 25 6
def neRight1 (e : Nat) : Nat := bits e 31 6
def neRight2 (e : Nat) : Nat := bits e 37 6
def neSubstWeight (e : Nat) : Nat := bits e 43 6
def neSubstInk (e : Nat) : Nat := bits e 49 3
def neWaveSet (e : Nat) : Nat := bits e 52 2
def neRole (e : Nat) : Nat := bits e 54 2
def neShare (e : Nat) : Nat := bits e 56 8
/-- Knot j, from 1 to 8. -/
def neKnot (e j : Nat) : Int := signedOf 1 (bits e (56 + 8 * j) 8)

/-- OverlapRole values. -/
abbrev roleSolo : Nat := 0
abbrev roleLower : Nat := 1
abbrev roleUpper : Nat := 2
abbrev roleSilent : Nat := 3

/-- The composite sample of an ink at a column of a line (R198). -/
def State.composite (s : State) (line ink col : Nat) : Nat :=
  if col < 98304 then Memory.value s.mem (compositeLineAt ink line + 2 * col) 2 else 0

/-- Stage 1 at one column: every ink's limited composite, from the eight composites and the limits of
R202 (eight ceilings, the total, the mask). -/
def inkLimited (lims comp : List Nat) : List Nat :=
  let a := (List.range 8).map fun k => min (comp.getD k 0) (lims.getD k 65535)
  let total := lims.getD 8 524280
  let mask := lims.getD 9 0xFF
  let sum := ((List.range 8).map fun k => if bit mask k then a.getD k 0 else 0).sum
  if total < sum then
    let f := total * 65536 / sum
    (List.range 8).map fun k => if bit mask k then a.getD k 0 * f / 65536 else a.getD k 0
  else a

/-- The limited composite b[k][X] of a line; 0 outside the columns (R197). -/
def State.limitedAt (s : State) (lims : List Nat) (line ink : Nat) (col : Int) : Nat :=
  if col < 0 || 98304 ≤ col then 0
  else (inkLimited lims ((List.range 8).map fun k => s.composite line k col.toNat)).getD ink 0

/-- Stage 1 reduced some ink at a column (R203). -/
def State.columnReduced (s : State) (lims : List Nat) (line col : Nat) : Bool :=
  let comp := (List.range 8).map fun k => s.composite line k col
  inkLimited lims comp != comp

/-- Stage 2, before the cut at 65,535 (R197). -/
def compensated (e : Nat) (b : Nat → Int → Nat) (ink : Nat) : Nat :=
  let x : Int := neColumn e
  (32 * b ink x + neLeft2 e * b ink (x - 2) + neLeft1 e * b ink (x - 1) + neRight1 e * b ink (x + 1)
    + neRight2 e * b ink (x + 2) + neSubstWeight e * b (neSubstInk e) x + 16) / 32

/-- Knot j of the tone curve (R197). -/
def knotAt (e j : Nat) : Int := if j = 0 then 0 else 8192 * (j : Int) + 64 * neKnot e j

/-- Stage 3 (R197). -/
def toneCurve (e c1 : Nat) : Nat :=
  let i := c1 / 8192
  let frac : Int := (c1 : Int) - 8192 * i
  clampNat 65535 (knotAt e i + ((knotAt e (i + 1) - knotAt e i) * frac + 4096) / 8192)

/-- Stitch order r(X, y) of R213. -/
def stitchOrder (x y : Nat) : Nat :=
  let c := y % 16
  let e := (x % 16) ^^^ c
  (List.range 4).foldl (fun r k =>
    r + (if bit e k then 2 ^ (7 - 2 * k) else 0) + (if bit c k then 2 ^ (6 - 2 * k) else 0)) 0

/-- fires(e, X, y) of R214. -/
def nozzleFires (e x y : Nat) : Bool :=
  match neRole e with
  | 0 => true
  | 1 => stitchOrder x y < neShare e
  | 2 => neShare e ≤ stitchOrder x y
  | _ => false

/-- Threshold T_j of a cell of a slot's array (R208, R209). -/
def State.threshold (s : State) (slot ax ay j : Nat) : Nat :=
  let st := s.reg (K.ScreenSlotState + slot)
  let big := bit st 8
  let size := if big then 256 else 512
  let m := if big then 15 else 3
  let at' := ((ay % size) * size + ax % size) * m * 12 + 12 * (j - 1)
  bits (Memory.value s.mem (screenAt + bits st 16 9 * 32768 + at' / 8) 2) (at' % 8) 12

/-- Stage 4: the level of a 12-bit value at a cell (R197). -/
def State.screenLevel (s : State) (c : Copy) (ink x y t12 : Nat) : Nat :=
  let slot := c.screens.getD ink 0
  let m := if codeBits c.mode = 4 then 15 else 3
  let size := if codeBits c.mode = 4 then 256 else 512
  let ax := (x + c.screens.getD (8 + ink) 0) % size
  let ay := (y + c.screens.getD (16 + ink) 0) % size
  ((List.range m).filter fun j => s.threshold slot ax ay (j + 1) < t12).length

/-- Stages 2 to 6 for one nozzle: its code, and whether its compensated value was held (R197, R207). -/
def State.decideNozzle (s : State) (c : Copy) (ink y n : Nat) (parity : List Nat) : Nat × Bool :=
  let e := s.nozzle c.bank n
  if !nePresent e || parity.contains n || parity.contains (n + 2 ^ 20) then (0, false)
  else
    let acc := compensated e (s.limitedAt c.limits y) ink
    let t12 := toneCurve e (min acc 65535) / 16
    let level := s.screenLevel c ink (neColumn e) y t12
    let w := codeBits c.mode
    let code := bits (c.maps.getD (neWaveSet e) 0) (w * level) w
    (if nozzleFires e (neColumn e) y && !neMissing e then code else 0, 65535 < acc)

/-- The global nozzle numbers of an ink in drop-line order (R201). -/
def State.inkNozzles (s : State) (ink : Nat) : List Nat :=
  (s.inkLinks ink).flatMap fun l => (List.range 49152).map fun j => 49152 * l + j

/-- The next copy whose lines an ink's lane takes: the earliest in flight not yet taken whole. -/
def State.laneCopy (s : State) (ink : Nat) : Option Copy :=
  s.fire.copies.find? fun c => !c.done && !c.closed && c.written.getD ink 0 < c.lines

/-- The band decision recorded for an ink (R163): blanked or not. -/
def Copy.bandBlank (c : Copy) (ink band : Nat) : Option Bool :=
  (c.bands.find? fun b => b.1 == ink && b.2.1 == band).map (·.2.2)

/-- Store parity (R369): counted, charged to the store's source (class 7), its event recorded. -/
def storeParity (store : Nat) : Act :=
  seqs [addTo (K.StoreParityErrors + store) 4 1, put (K.MemoryEventSource + (196 - 184)) (0x10 + store),
    raise 196, faultOccurrence (faultSource 7 store) 196 0 .skip]

/-- The parity errors a lane met on this line (R220). -/
def laneParity (ink : Nat) (m : Int) (parity : List Nat) : Act :=
  each parity fun n =>
    seqs [storeParity (if n < 2 ^ 20 then 2 else 3), raise 71, addTo K.ToneParityErrors 4 1,
      faultOccurrence (faultSource 6 ink) 71 (n % 2 ^ 20) .skip, wasteCopy m wTone]

/-- The band's decision at its first drop line (R163, R180): blanked when a strip that feeds it has
failed or its first line is not composed. -/
def decideBand (c : Copy) (ink band : Nat) : Act :=
  .read fun s =>
    let failed := s.bandFailed c ink band
    let late := !failed && c.composed.getD ink 0 ≤ 64 * band
    let note := setCopy c.num fun c => { c with bands := (ink, band, failed || late) :: c.bands }
    if failed then seqs [note, addTo K.BandsBlanked 4 1, raise 35, wasteCopy c.num wStrip]
    else if late then
      seqs [note, addTo K.CompositorBehindCount 4 1, raise 55, addTo K.BandsBlanked 4 1, raise 35,
        wasteCopy c.num wLayer]
    else note

/-- Stage 1's counters, once per line, at the first ink that takes it (R203). -/
def countReduced (c : Copy) (y : Nat) : Act :=
  .read fun s =>
    let first := c.written.all fun w => w ≤ y
    let n := ((List.range 98304).filter (s.columnReduced c.limits y)).length
    when (first && 0 < n)
      (.seq (addTo K.InkLimitColumns 8 n)
        (when (!c.limited) (.seq (setCopy c.num fun c => { c with limited := true }) (raise 68))))

/-- The lane has taken a line of a copy. -/
def tookLine (m : Int) (ink : Nat) : Act :=
  setCopy m fun c => { c with written := modAt c.written ink (· + 1) }

/-- A nozzle fires on line n of a ladder of pitch `np`, rung `h`, gap `g` (R254). -/
def ladderFires (np h g n e : Nat) : Bool :=
  let cell := if h + g = 0 then 1 else h + g
  let pitch := if np = 0 then 1 else np
  let p := n / (pitch * cell)
  let i := n / cell % pitch
  nePresent e && n % cell < h && neColumn e % pitch == i
    && (if p = 0 then neRole e != roleUpper else neRole e == roleUpper)

/-- The block of a ladder set that holds a line: its ink and the line within the block (R334). -/
def ladderBlock (size : Nat) : List (Nat × Nat) → Nat → Option (Nat × Nat)
  | [], _ => none
  | (ink, passes) :: rest, n =>
    if n < passes * size then some (ink, n) else ladderBlock size rest (n - passes * size)

/-- The ladder line of a copy at a print line: the ink it tests and the line within its block (R334). -/
def Copy.ladderLine (c : Copy) (y : Nat) : Option (Nat × Nat) :=
  match c.ladder with
  | some (start :: np :: h :: g :: _ :: passes) =>
    if y < start then none
    else ladderBlock (np * (h + g)) (passes.zipIdx.map fun p => (p.2, p.1)) (y - start)
  | _ => none

/-- The code that a ladder line puts in place of a nozzle's stage outputs (R334). -/
def State.ladderCode (s : State) (c : Copy) (ink tested line n : Nat) : Nat :=
  match c.ladder with
  | some (_ :: np :: h :: g :: code :: _) =>
    if ink = tested && ladderFires np h g line (s.nozzle c.bank n) then code else 0
  | _ => 0

/-- A drop line is decided and written to its ring (R197, R201), once its line is composed; all codes 0
in a blanked band; a ladder line in place of the stage outputs (R334). -/
def decideLine (c : Copy) (ink y : Nat) (parity : List Nat) : Act :=
  .read fun s =>
    match s.ring? c.mode ink with
    | none => .skip
    | some r =>
      let w := codeBits c.mode
      let nozzles := s.inkNozzles ink
      match c.ladderLine y, c.bandBlank ink (y / 64) with
      | some (tested, n), some true =>
        seqs [writeDram (r.lineAt c y) (packCodes w (nozzles.map (s.ladderCode c ink tested n))),
          addTo K.LinesDecided 8 1, tookLine c.num ink]
      | none, some true =>
        seqs [.prim (.erase (r.lineAt c y) r.lineBytes), clearPoison (r.lineAt c y) r.lineBytes,
          addTo K.LinesDecided 8 1, tookLine c.num ink]
      | lad, _ =>
        if c.dropped.contains (ink, y) then tookLine c.num ink
        else if c.composed.getD ink 0 ≤ y then .skip
        else
          let got := nozzles.map fun n => s.decideNozzle c ink y n parity
          seqs [
            countReduced c y,
            writeDram (r.lineAt c y) (packCodes w (match lad with
              | some (tested, n) => nozzles.map (s.ladderCode c ink tested n)
              | none => got.map (·.1))),
            addTo K.CompensationClipped 8 (got.filter (·.2)).length,
            addTo K.LinesDecided 8 1,
            laneParity ink c.num parity,
            tookLine c.num ink ]

/-- An ink lane decides its next drop line; at a band's first line it decides the band (R163). -/
def execDecideDropLine (t ink : Nat) (parity : List Nat) (s : State) : Host.Outcome State Fault Refusal :=
  perform t (.read fun s =>
    if !s.fnOn fnTone || 8 ≤ ink then .skip
    else
      match s.laneCopy ink with
      | none => .skip
      | some c =>
        let y := c.written.getD ink 0
        .seq (when ((c.bandBlank ink (y / 64)).isNone) (decideBand c ink (y / 64)))
          (.read fun s =>
            match s.copy? c.num with
            | some c => decideLine c ink y parity
            | none => .skip)) s

/-- Missing-set state of a nozzle (R204): 0 not missing, 1 head flag, 2 ladder, 3 firmware. -/
def State.missingOf (s : State) (n : Nat) : Nat :=
  bits (Memory.byte s.mem (missingSetAt + n / 4)).toNat (2 * (n % 4)) 2

/-- Writes a nozzle's 2 bits of MissingSet. -/
def setMissing (n v : Nat) : Act :=
  .read fun s =>
    let b := (Memory.byte s.mem (missingSetAt + n / 4)).toNat
    .prim (.store (missingSetAt + n / 4) 1 (b - bits b (2 * (n % 4)) 2 * 4 ^ (n % 4) + v * 4 ^ (n % 4)))

/-- A change that calls for a build (R207). -/
def wantBuild : Act :=
  .read fun s => when (s.reg K.BankOwner == 1) (.prim (.tone fun x => { x with wanted := true }))

/-- A nozzle enters the missing set from a source (R204); already there, nothing changes. -/
def addMissing (n source : Nat) : Act :=
  .read fun s =>
    if s.missingOf n ≠ 0 then .skip
    else seqs [setMissing n source, addTo K.MissingCount 4 1, raise 66, wantBuild]

/-- A nozzle leaves the missing set (R204). -/
def removeMissing (n : Nat) : Act :=
  .read fun s =>
    if s.missingOf n = 0 then .skip
    else seqs [setMissing n 0, put K.MissingCount (s.reg K.MissingCount - 1), wantBuild]

/-- MissingNozzleMark (R204). -/
def effMissingMark : Effect := fun s w =>
  if s.nozzleCount ≤ w.val then refuse abRange else accept (addMissing w.val 3)

/-- MissingNozzleClear (R204). -/
def effMissingClear : Effect := fun s w =>
  if s.nozzleCount ≤ w.val then refuse abRange else accept (removeMissing w.val)

/-- A nozzle is marked missing by firmware. -/
def execMissingNozzleMark (t : Nat) (w : Wr) (s : State) : Host.Outcome State Fault Refusal :=
  perform t (writeBy 0x2630 3 effMissingMark w) s

/-- A nozzle is cleared from the missing set. -/
def execMissingNozzleClear (t : Nat) (w : Wr) (s : State) : Host.Outcome State Fault Refusal :=
  perform t (writeBy 0x2630 4 effMissingClear w) s

/-- The bank that is not in force (R215). -/
def State.stagingBank (s : State) : Nat := 1 - s.reg K.BankInForce % 2

/-- Bytes of one bank. -/
def State.bankBytes (s : State) : Nat := 16 * s.nozzleCount

/-- The global numbers of an ink's present nozzles in a bank, ascending: only listed memory can hold a
Present bit. -/
def State.presentOf (s : State) (b ink : Nat) : List Nat :=
  (s.inkLinks ink).flatMap fun l =>
    let base := bankAt b + 16 * 49152 * l
    let cells := Memory.slice s.mem base (16 * 49152)
    (cells.filterMap fun c =>
      if (c.1 - base) % 16 = 2 && c.2.toNat / 2 % 2 = 1 then some (49152 * l + (c.1 - base) / 16) else none)

/-- A bank's waveform maps pass the code 0 rule of R212: level 0 gives code 0 and no other does. -/
def mapValid (width levels v : Nat) : Bool :=
  bits v 0 width == 0 && (List.range levels).all fun l => l == 0 || bits v (width * l) width != 0

/-- Check 3 of R217 over one column's entries. -/
def columnPairs (es : List Nat) : Bool :=
  let lower := es.filter fun e => neRole e == roleLower
  let upper := es.filter fun e => neRole e == roleUpper
  let paired := match lower, upper with
    | [], [] => true
    | [a], [b] => neShare a == neShare b
    | _, _ => false
  es.length ≤ 2 && paired
    && (es.length != 2 || lower.length == 1 || es.any fun e => neRole e == roleSilent)

/-- Check 3 of R217 over an ink: the entries grouped by column. -/
def pairsValid (es : List Nat) : Bool :=
  es.all fun e => columnPairs (es.filter fun x => neColumn x == neColumn e)

/-- The first failing check of a commit of the staging bank (R217), 0 for none. -/
def State.bankRefusal (s : State) : Nat :=
  let b := s.stagingBank
  let entries := s.inks.map fun k => (k, (s.presentOf b k).map (s.nozzle b))
  if entries.any fun p => p.2.any fun e => 98303 < neColumn e then 2
  else if entries.any fun p => !pairsValid p.2 then 3
  else if entries.any fun p => p.2.any fun e =>
      neSubstWeight e != 0 && (neSubstInk e == p.1 || !s.inks.contains (neSubstInk e)) then 4
  else if (List.range 4).any fun i => !mapValid 2 4 (s.reg (K.WaveMap2 + i))
      || !mapValid 4 16 (s.reg (K.WaveMap4 + i)) then 5
  else if s.tone.late then 6
  else 0

/-- The next copy whose decision has not been made (R185, R217); outside the print modes the copy after
the present one. -/
def State.nextUndecided (s : State) : Nat :=
  match s.fire.copies.getLast? with
  | some c => if isPrint s.mode then (max (c.num + 1) (s.master.copies + 1)).toNat
      else (s.master.copies + 1).toNat
  | none => (s.master.copies + 1).toNat

/-- Nozzles whose OverlapRole or OverlapShare differ between the banks (R214). -/
def State.overlapDiffers (s : State) : Bool :=
  (List.range s.nozzleCount).any fun n =>
    bits (s.nozzle 0 n) 54 10 != bits (s.nozzle 1 n) 54 10

/-- A flip that carries a colour-loop update brings it into force (R343). -/
def updateInForce (copy : Nat) : Act :=
  .read fun s =>
    when s.tone.loopUpdate (seqs [
      raise 81, addTo K.UpdatesInForce 4 1, put K.LastUpdateCopy copy,
      .prim (.tone fun x => { x with loopUpdate := false }),
      .prim (.loop fun x => { x with undo := if s.tone.curves.isEmpty then none else x.undo }) ])

/-- The flip of R218: the staging bank and its maps come into force; the old maps become the staged
ones' values in force. OverlapChanged where a share or role changes (R214). -/
def flipBank (copy : Nat) : Act :=
  .read fun s =>
    let b := s.stagingBank
    seqs [
      put K.BankInForce b,
      put K.BankStaging (1 - b),
      addTo K.BankInForceVersion 4 1,
      put K.BankInForceSince copy,
      bumpVersion (0x5600 + b),
      each (List.range 4) fun i =>
        seqs [put (K.WaveMap2InForce + i) (s.reg (K.WaveMap2 + i)),
          put (K.WaveMap4InForce + i) (s.reg (K.WaveMap4 + i)),
          put (K.WaveMap2 + i) (s.reg (K.WaveMap2InForce + i)),
          put (K.WaveMap4 + i) (s.reg (K.WaveMap4InForce + i))],
      put K.BankCommitState 0,
      put K.BankCommitCopy 0xFFFFFFFFFFFFFFFF,
      when s.overlapDiffers (raise 70),
      raise 64,
      updateInForce copy,
      .prim (.tone fun x => { x with builder := false }) ]

/-- Refuses a bank commit (R217). -/
def refuseBank (code : Nat) : Act :=
  seqs [put K.BankCommitRefusal code, put K.BankCommitState 3, put K.BankCommitCopy 0xFFFFFFFFFFFFFFFF,
    raise 65, .prim (.tone fun x => { x with builder := false })]

/-- Starts the check of the staging bank (R217), or replaces the target of a commit under way. -/
def startCommit (copy : Nat) : Act :=
  .read fun s =>
    let target := if copy = 0 then s.nextUndecided else copy
    let st := s.reg K.BankCommitState
    let decided := s.fire.copies.any fun c => (target : Int) ≤ c.num
    let late := isPrint s.mode && (decided || (target : Int) < s.master.copies)
    let note : Act := .prim (.tone fun x => { x with late := late })
    if st = 1 || st = 2 then .seq note (put K.BankCommitCopy target)
    else seqs [note, put K.BankCommitState 1, put K.BankCommitRefusal 0, put K.BankCommitCopy target]

/-- BankCommit (R205, R217, R448): codes 1 and 7 are refused at the write. -/
def effBankCommit : Effect := fun s w =>
  if !s.takesFor (if w.val = 0 then s.nextUndecided else w.val) then refuse abMode
  else if s.reg K.BankOwner = 1 then ⟨abMode, refuseBank 1⟩
  else if s.flag K.BankCopyBusy then ⟨abMode, refuseBank 7⟩
  else accept (startCommit w.val)

/-- BankCommitCancel (R218). -/
def effBankCancel : Effect := fun s w =>
  let st := s.reg K.BankCommitState
  accept (when (w.val == 1 && (st == 1 || st == 2))
    (seqs [put K.BankCommitState 0, put K.BankCommitCopy 0xFFFFFFFFFFFFFFFF,
      .prim (.tone fun x => { x with builder := false })]))

/-- BankCopyRequest (R216). -/
def effBankCopy : Effect := fun s w =>
  let st := s.reg K.BankCommitState
  if w.val ≠ 1 then accept .skip
  else if s.flag K.BankCopyBusy || st = 1 || st = 2 then refuse abMode
  else accept (.seq (put K.BankCopyBusy 1) (.prim (.tone fun x => { x with copying := true })))

/-- Copies every entry and both maps of the bank in force into the staging bank (R216). -/
def copyBank : Act :=
  .read fun s =>
    seqs [
      .prim (.copy (bankAt (s.reg K.BankInForce)) (bankAt s.stagingBank) s.bankBytes),
      each (List.range 4) fun i =>
        seqs [put (K.WaveMap2 + i) (s.reg (K.WaveMap2InForce + i)),
          put (K.WaveMap4 + i) (s.reg (K.WaveMap4InForce + i))] ]

/-- A bank commit is requested. -/
def execBankCommit (t : Nat) (w : Wr) (s : State) : Host.Outcome State Fault Refusal :=
  perform t (writeBy 0x2601 1 effBankCommit w) s

/-- A bank commit is cancelled. -/
def execBankCommitCancel (t : Nat) (w : Wr) (s : State) : Host.Outcome State Fault Refusal :=
  perform t (writeBy 0x2601 2 effBankCancel w) s

/-- A bank copy is requested. -/
def execBankCopyRequest (t : Nat) (w : Wr) (s : State) : Host.Outcome State Fault Refusal :=
  perform t (writeBy 0x2601 6 effBankCopy w) s

/-- The bank copy ends (R216). -/
def execBankCopyDone (t : Nat) (s : State) : Host.Outcome State Fault Refusal :=
  perform t (.read fun s =>
    when s.tone.copying
      (seqs [copyBank, put K.BankCopyBusy 0, .prim (.tone fun x => { x with copying := false })])) s

/-- The check of the staging bank ends (R217); outside the print modes a commit that passes comes into
force at once (R218). -/
def execBankCommitChecked (t : Nat) (s : State) : Host.Outcome State Fault Refusal :=
  perform t (.read fun s =>
    if s.reg K.BankCommitState ≠ 1 then .skip
    else
      let code := s.bankRefusal
      if code ≠ 0 then refuseBank code
      else if isPrint s.mode then put K.BankCommitState 2
      else flipBank (s.reg K.BankCommitCopy)) s

/-- StitchBase of a nozzle: role and share (R206). -/
def State.stitchOf (s : State) (n : Nat) : Nat := Memory.value s.mem (stitchBaseAt + 2 * n) 2

/-- A present nozzle as the builder takes it: number, column, missing, role, share. -/
structure BuildNozzle where
  num : Nat
  col : Nat
  missing : Bool
  role : Nat
  share : Nat
deriving DecidableEq, Repr

/-- The present nozzles of an ink with the builder's steps 1 to 3 applied (R206). -/
def State.buildNozzles (s : State) (b ink : Nat) : List BuildNozzle :=
  let raw := (s.presentOf b ink).map fun n =>
    ({ num := n, col := neColumn (s.nozzle b n), missing := s.missingOf n != 0,
       role := bits (s.stitchOf n) 8 2, share := bits (s.stitchOf n) 0 8 } : BuildNozzle)
  raw.map fun x =>
    let mates := raw.filter fun y => y.col == x.col
    if mates.length = 2 && (mates.filter (·.missing)).length = 1 then
      { x with role := if x.missing then roleSilent else roleSolo }
    else x

/-- A column of an ink is covered (R200). -/
def coveredCol (ns : List BuildNozzle) (c : Int) : Bool := ns.any fun x => (x.col : Int) == c && !x.missing

/-- The gaps of an ink: columns with a present nozzle and none that fires (R206 step 4). -/
def gapsOf (ns : List BuildNozzle) : List Nat :=
  (ns.filterMap fun x => if coveredCol ns x.col then none else some x.col).eraseDups

/-- What a gap gives: its receiving columns with their shares (R206 step 4). -/
def gapShares (ns : List BuildNozzle) (g gap : Nat) : List (Int × Nat) :=
  let try' := fun (d : Int) =>
    let l := coveredCol ns ((gap : Int) - d)
    let r := coveredCol ns ((gap : Int) + d)
    if l && r then [((gap : Int) - d, (g + 1) / 2), ((gap : Int) + d, g / 2)]
    else if l then [((gap : Int) - d, g)]
    else if r then [((gap : Int) + d, g)]
    else []
  if (try' 1).isEmpty then try' 2 else try' 1

/-- The weight sum of a nozzle at a column toward the column `d` away (R206 step 4). -/
def weightToward (shares : List (Nat × List (Int × Nat))) (col : Nat) (d : Int) : Nat :=
  ((shares.flatMap fun p =>
    if (p.1 : Int) = (col : Int) + d then (p.2.filter fun q => q.1 == (col : Int)).map (·.2) else [])).sum

/-- The inks that a substitute ink's nozzle would stand in for at its column, lowest first (R206
step 5). -/
def State.standsFor (s : State) (gaps : List (Nat × List Nat)) (ink col : Nat) : List Nat :=
  gaps.filterMap fun p =>
    if p.1 ≠ ink && s.reg (K.SubstituteInk + p.1) == ink && p.2.contains col then some p.1 else none

/-- The entry of one nozzle as the builder leaves it (R206), with the curve update it has, if any. -/
def buildEntry (e : Nat) (x : BuildNozzle) (l2 l1 r1 r2 : Nat) (sub : Option (Nat × Nat))
    (knots : Option Nat) : Nat :=
  let cap := fun (w : Nat) => min w 63
  bits e 0 18 + (if x.missing then 2 ^ 18 else 0) + cap l2 * 2 ^ 19 + cap l1 * 2 ^ 25 + cap r1 * 2 ^ 31
    + cap r2 * 2 ^ 37
    + (match sub with
      | some (k, w) => cap w * 2 ^ 43 + k * 2 ^ 49
      | none => 0)
    + neWaveSet e * 2 ^ 52 + x.role * 2 ^ 54 + x.share * 2 ^ 56
    + (knots.getD (bits e 64 64)) * 2 ^ 64

/-- The build of one ink: new entries by nozzle, and the gaps uncovered and weights held (R206). -/
def State.buildInk (s : State) (b ink : Nat) (all : List (Nat × List BuildNozzle)) :
    List (Nat × Nat) × Nat :=
  let ns := ((all.find? fun p => p.1 == ink).map (·.2)).getD []
  let g := s.reg K.NeighbourGain
  let shares := (gapsOf ns).map fun x => (x, gapShares ns g x)
  let gaps := all.map fun p => (p.1, gapsOf p.2)
  let uncovered := (shares.filter fun p => p.2.isEmpty).length
  let made := ns.map fun x =>
    let w := fun (d : Int) => weightToward shares x.col d
    let fors := if x.missing then [] else s.standsFor gaps ink x.col
    let sub := fors.head?.map fun k => (k, s.reg (K.SubstituteWeight + k))
    let ws := if x.missing then (0, 0, 0, 0) else (w (-2), w (-1), w 1, w 2)
    let held := ([ws.1, ws.2.1, ws.2.2.1, ws.2.2.2].filter fun v => 63 < v).length + (fors.drop 1).length
    let knots := (s.tone.curves.find? fun p => p.1 == x.num).map (·.2)
    ((x.num, buildEntry (s.nozzle b x.num) x ws.1 ws.2.1 ws.2.2.1 ws.2.2.2 sub knots), held)
  (made.map (·.1), uncovered + (made.map (·.2)).sum)

/-- The builder (R206, R207): once no commit is checking or pending it copies the bank in force, applies
compensation and curve updates, and commits for the next undecided copy. -/
def execCompensationBuild (t : Nat) (s : State) : Host.Outcome State Fault Refusal :=
  perform t (.read fun s =>
    let st := s.reg K.BankCommitState
    if s.reg K.BankOwner ≠ 1 || !s.tone.wanted || st = 1 || st = 2 || s.flag K.BankCopyBusy || !s.isHolder
    then .skip
    else
      .seq copyBank (.read fun s =>
        let b := s.stagingBank
        let all := s.inks.map fun k => (k, s.buildNozzles b k)
        let built := s.inks.map fun k => s.buildInk b k all
        let limits := (built.map (·.2)).sum
        seqs [
          each built fun p => each p.1 fun q => .prim (.store (bankAt b + 16 * q.1) 16 q.2),
          put K.UncoveredGaps limits,
          when (0 < limits) (raise 67),
          .prim (.tone fun x => { x with
            wanted := false, curves := [], builder := true, loopUpdate := !x.curves.isEmpty }),
          startCommit 0 ])) s

/-- The units of 32 KiB of an array format (R208). -/
def arrayUnits (format : Nat) : Nat := if format = 0 then 36 else 45

/-- The screen slots that are in use (R210 code 2): selected by an ink with links for the drop states of
the mode in force or of a pending mode, now or for a copy in flight. -/
def State.slotInUse (s : State) (slot : Nat) : Bool :=
  let modes := [s.mode, s.reg K.ModePending].filter isPrint
  s.inks.any fun k =>
    modes.any (fun m =>
      s.reg ((if codeBits m = 4 then K.ScreenSelect16State else K.ScreenSelect4State) + k) == slot)
    || s.inFlight.any fun c => c.screens.getD k 8 == slot

/-- Loaded slots: slot, unit offset and units. -/
def State.slotUnits (s : State) : List (Nat × Nat × Nat) :=
  (List.range 8).filterMap fun i =>
    let st := s.reg (K.ScreenSlotState + i)
    if bit st 31 then some (i, bits st 16 9, arrayUnits (bits st 8 1)) else none

/-- A cell of a packed image keeps the order of R209. -/
def cellMonotone (img : Nat → Nat) (m cell : Nat) : Bool :=
  (List.range (m - 1)).all fun j => img (cell * m + j) ≤ img (cell * m + j + 1)

/-- The j-th 12-bit threshold of the inbox image (R209). -/
def State.inboxThreshold (s : State) (i : Nat) : Nat :=
  bits (Memory.value s.mem (screenInboxAt + i * 12 / 8) 2) (i * 12 % 8) 12

/-- The code of a screen load (R210), 0 for accepted. Poisoned data is refused with code 5 (R367). -/
def State.screenRefusal (s : State) (slot format unit : Nat) : Nat :=
  let n := arrayUnits format
  if s.tone.load.isSome then 1
  else if s.slotInUse slot then 2
  else if 320 < unit + n then 3
  else if s.slotUnits.any fun p => p.1 != slot && !(unit + n ≤ p.2.1 || p.2.1 + p.2.2 ≤ unit) then 4
  else if s.poisoned screenInboxAt (n * 32768) then 5
  else if !((List.range (if format = 0 then 262144 else 65536)).all
      (cellMonotone s.inboxThreshold (if format = 0 then 3 else 15))) then 5
  else 0

/-- ScreenArrayLoad (R210): the refusal code is written and BankCommitRefused raised; the write itself is
taken. -/
def effScreenLoad : Effect := fun s w =>
  let slot := bits w.val 0 3
  let format := bits w.val 8 1
  let unit := bits w.val 16 9
  if w.val &&& 0x01FF0107 != w.val then refuse abRange
  else
    let code := s.screenRefusal slot format unit
    if code ≠ 0 then
      accept (seqs [put K.ScreenLoadRefusal code,
        when (code != 1) (put K.ScreenLoadState 3), raise 65])
    else
      accept (seqs [put K.ScreenLoadRefusal 0, put K.ScreenLoadState 1,
        .prim (.tone fun x => { x with load := some { slot := slot, format := format, unit := unit } })])

/-- Units free, from the slot states (0x2610:05). -/
def unitsFree : Act :=
  .read fun s => put K.ScreenUnitsFree (320 - ((s.slotUnits.map (·.2.2)).sum))

/-- ScreenArrayRelease (R210). -/
def effScreenRelease : Effect := fun s w =>
  if 8 ≤ w.val then refuse abRange
  else if s.slotInUse w.val then refuse abMode
  else accept (.seq (put (K.ScreenSlotState + w.val) 0) unitsFree)

/-- A threshold array load is requested. -/
def execScreenArrayLoad (t : Nat) (w : Wr) (s : State) : Host.Outcome State Fault Refusal :=
  perform t (writeBy 0x2610 1 effScreenLoad w) s

/-- The array copy completes (R210 step 5). -/
def execScreenArrayCommitted (t : Nat) (s : State) : Host.Outcome State Fault Refusal :=
  perform t (.read fun s =>
    match s.tone.load with
    | none => .skip
    | some x =>
      seqs [
        .prim (.copy screenInboxAt (screenAt + x.unit * 32768) (arrayUnits x.format * 32768)),
        put (K.ScreenSlotState + x.slot) (2 ^ 31 + x.unit * 2 ^ 16 + x.format * 2 ^ 8),
        put K.ScreenLoadState 2,
        bumpVersion (0x5611 + x.slot),
        unitsFree,
        .prim (.tone fun y => { y with load := none }),
        raise 69 ]) s

/-- A slot is freed. -/
def execScreenArrayRelease (t : Nat) (w : Wr) (s : State) : Host.Outcome State Fault Refusal :=
  perform t (writeBy 0x2610 2 effScreenRelease w) s

/-- NeighbourGain and the substitute entries start a build (R207). -/
def effBuildInput (key : Nat) : Effect := fun _ w => accept (.seq (put key w.val) wantBuild)

/-- WaveMap2 and WaveMap4: staged values follow the rule of the staging bank (R215). -/
def effWaveMap (key : Nat) : Effect := fun s w =>
  let st := s.reg K.BankCommitState
  if s.reg K.BankOwner = 1 || st = 1 || st = 2 then accept (addTo K.BankWritesDiscarded 4 1)
  else accept (put key w.val)

/-- A store by an application core or DMA into the nozzle banks (R205, R215): discarded in the bank in
force, and in the staging bank unless firmware owns it and no commit is under way. -/
def State.bankWriteTaken (s : State) (addr : Nat) : Bool :=
  let b := s.stagingBank
  let st := s.reg K.BankCommitState
  bankAt b ≤ addr && addr < bankAt b + s.bankBytes && s.reg K.BankOwner == 0 && (st == 0 || st == 3)

/-- The rules of the 0x26xx entries with one of their own. -/
def effTone (idx sub : Nat) : Effect :=
  let key := idx * 256 + sub
  match idx with
  | 0x2601 => match sub with
    | 1 => effBankCommit
    | 2 => effBankCancel
    | 6 => effBankCopy
    | _ => plain key
  | 0x2602 => effWaveMap key
  | 0x2603 => effWaveMap key
  | 0x2610 => if sub = 1 then effScreenLoad else effScreenRelease
  | 0x2630 => match sub with
    | 1 => effBuildInput key
    | 3 => effMissingMark
    | 4 => effMissingClear
    | _ => plain key
  | 0x2631 => effBuildInput key
  | 0x2632 => effBuildInput key
  | _ => plain key

end Sys2Proof.Machine
end

