-- ==== Sys2Proof/Machine/Firing.lean ====
section
/-! DEFINITION. Sys2Proof/Machine/Firing.lean: prediction and issue of row lines (R222–R235), amplitude
and tickle (R242–R245), waveform tables, pushes and banks (R238–R250), head reports (R237, R244, R251,
R252), Service patterns (R253, R254). -/

namespace Sys2Proof.Machine

/-- Changes one head slot as the sequencer follows it. -/
def setHead (l sl : Nat) (f : Head → Head) : Act :=
  .prim (.fire fun x => { x with heads := modAt x.heads (12 * l + sl) f })

/-- A head slot as the sequencer follows it. -/
def State.head (s : State) (l sl : Nat) : Head := s.fire.heads.getD (12 * l + sl) {}

/-- A row of a slot. -/
def State.row (s : State) (l sl r : Nat) : RowAt := (s.head l sl).rows.getD r {}

/-- Changes one row. -/
def setRow (l sl r : Nat) (f : RowAt → RowAt) : Act :=
  setHead l sl fun h => { h with rows := modAt h.rows r f }

/-- The configured slots whose link serves an ink, with their rows: (link, slot, row). -/
def State.firingRows (s : State) : List (Nat × Nat × Nat) :=
  s.slots.flatMap fun p =>
    if s.linkInk p.1 < 8 then
      (List.range (s.reg (slotKey K.RowCount p.1 p.2))).map fun r => (p.1, p.2, r)
    else []

/-- A master sample for prediction (R229): instant, total, speed, and the acceleration as a quotient of
µm/s by ns, with whether it was clamped (R233). -/
structure Predictor where
  ts : Nat
  total : Int
  speed : Int
  num : Int
  den : Nat
  clamped : Bool

/-- Acceleration in µm/s² (0x2701:09). -/
def accelActual (num : Int) (den : Nat) : Int := clampInt (-(2 ^ 31)) (2 ^ 31 - 1) (roundDiv (num * 1000000000) den)

/-- The newest sample at least PredictionWindow older (R229). -/
def olderSample (window ts : Nat) (l : List (Nat × Int × Int)) : Option (Nat × Int × Int) :=
  l.find? fun x => x.1 + window ≤ ts

/-- The predictor at the newest master sample, if SpeedValid and the speed is above 0 (R229, R232). With
no sample old enough the spec gives no acceleration: the free value `fv` is taken. -/
def State.predictor (s : State) (fv : Int) : Option Predictor :=
  match s.pos.samples with
  | [] => none
  | (ts, p, v) :: rest =>
    if !s.speedValid || v ≤ 0 then none
    else
      let lim : Int := s.reg K.PredictionAccelLimit
      let a : Int × Nat := match olderSample (s.reg K.PredictionWindow) ts rest with
        | some (tw, _, vw) => (v - vw, ts - tw)
        | none => (fv, 1000000000)
      if lim * a.2 < (a.1.natAbs : Int) * 1000000000 then
        some { ts := ts, total := p, speed := v, num := if a.1 < 0 then -lim else lim, den := 1000000000,
               clamped := true }
      else some { ts := ts, total := p, speed := v, num := a.1, den := a.2, clamped := false }

/-- Time from the sample to landing over a distance `d` (2^-32 nm), in 2^-16 ns (R229). -/
def Predictor.travel (p : Predictor) (d : Int) : Int :=
  let dd := d * 1000000
  let vv := p.speed * 2 ^ 32
  let lead := dd * vv * p.den * 2 * p.speed
  let curve := p.num * dd * dd
  let n := if 4 * curve.natAbs ≤ lead.natAbs then lead - curve
    else if 0 ≤ curve then lead * 3 / 4 else lead * 5 / 4
  roundDiv (n * 65536) (p.den * 2 * p.speed * vv * vv).toNat

/-- Stamp of a landing total, in 2^-16 ns of PTP time (R229). -/
def State.stampOf (s : State) (p : Predictor) (q : Int) (delay : Nat) : Int :=
  (s.ptpAt p.ts : Int) + p.travel (q - p.total) - (delay : Int) * 65536

/-- What becomes of a row line at this sample. -/
inductive Fate where
  | send | skip | dead | silent | gap
deriving DecidableEq, Repr

/-- A row line due at this sample: slot, row, copy (or ladder line), line, landing total, stamp. -/
structure Due where
  l : Nat
  sl : Nat
  r : Nat
  num : Int
  y : Nat
  q : Int
  stamp : Int
  fate : Fate
deriving DecidableEq, Repr

/-- What becomes of a line whose landing is past (R231, R448, R449). -/
def State.lateFate (s : State) : Fate :=
  if s.isHolder then .skip else if s.bridle.guardEnd.isSome then .gap else .silent

/-- What becomes of a line with a stamp (R231, R244, R252, R448, R449). -/
def State.fateOf (s : State) (l sl version : Nat) (stamp : Int) (last : Option Nat) : Fate :=
  let period := (s.factsOf (s.headType l sl)).period
  if !s.isHolder then (if s.bridle.guardEnd.isSome then .gap else .silent)
  else if stamp < s.bridle.resumeFrom then .gap
  else if !s.slotSendable l sl || (s.bankOf l sl version).isNone then .dead
  else if stamp ≤ s.ptp then .skip
  else match last with
    | some u => if stamp < (u : Int) + period * 65536 then .skip else .send
    | none => .send

/-- The lines of one row due at this sample, in order (R229–R232). `label` gives the landing label of a
line, or none past the last line known; at most `fuel` lines. -/
def State.planRow (s : State) (p : Option Predictor) (total : Int) (l sl r version : Nat)
    (label : Int → Nat → Option (Int ⊕ Unit)) : Nat → Int → Nat → Option Nat → List Due
  | 0, _, _, _ => []
  | fuel + 1, m, y, last =>
    match label m y with
    | none => []
    | some (.inr ()) => State.planRow s p total l sl r version label fuel (m + 1) 0 last
    | some (.inl lab) =>
      let q := lab + s.rowOffset l sl r * 2 ^ 32
      let due := fun (stamp : Int) (f : Fate) =>
        ({ l := l, sl := sl, r := r, num := m, y := y, q := q, stamp := stamp, fate := f } : Due)
      match p with
      | none =>
        if q ≤ total then
          due 0 (s.lateFate)
            :: State.planRow s p total l sl r version label fuel m (y + 1) last
        else []
      | some pr =>
        if q ≤ pr.total then
          due 0 (s.lateFate)
            :: State.planRow s p total l sl r version label fuel m (y + 1) last
        else
          let stamp := s.stampOf pr q (s.reg (slotKey K.LandingDelay l sl))
          if (s.ptpAt pr.ts : Int) + (s.reg K.IssueLead : Int) * 65536 < stamp then []
          else
            let f := s.fateOf l sl version stamp last
            due stamp f :: State.planRow s p total l sl r version label fuel m (y + 1)
              (if f = .send then some stamp.toNat else last)

/-- Landing labels of the lines of the copies in flight; `inr` past a copy's last line. -/
def State.copyLabel (s : State) (m : Int) (y : Nat) : Option (Int ⊕ Unit) :=
  match s.copy? m with
  | none => none
  | some c => if y < c.lines then some (.inl (s.lineLabel m c.mode y)) else some (.inr ())

/-- Where a row starts: the first copy in flight. -/
def State.rowStart (s : State) (l sl r : Nat) : Option (Int × Nat) :=
  match (s.row l sl r).next with
  | some x => some x
  | none => s.inFlight.head?.map fun c => (c.num, 0)

/-- Waveform version a copy names for a slot's type (R248). -/
def State.versionFor (s : State) (m : Int) (ty : Nat) : Nat :=
  match s.copy? m with
  | some c => c.versions.getD ty (s.versionInForce ty)
  | none => s.versionInForce ty

/-- Logical nozzles a row holds (R227, R228). -/
def State.rowNozzles (s : State) (l sl r : Nat) : List Nat :=
  let n := s.reg (slotKey K.SlotNozzleCount l sl)
  let rc := s.reg (slotKey K.RowCount l sl)
  if s.reg (slotKey K.RowLayout l sl) = 0 then (List.range n).filter fun j => j % rc == r else List.range n

/-- In parallel layout, the row that fires a nozzle at column `x` on line `y` (R227). -/
def interleaveRow (mask rc x y : Nat) : Nat :=
  let f := bits mask (2 * (x % 4 + 4 * (y % 4))) 2
  if rc ≤ f then 0 else f

/-- The code of a nozzle-in-link in an ink's drop line (R201). -/
def State.ringCode (s : State) (at' w lineIndex nozzle : Nat) : Nat :=
  let bitAt := (lineIndex * 49152 + nozzle) * w
  bits (Memory.byte s.mem (at' + bitAt / 8)).toNat (bitAt % 8) w

/-- Position of a link among its ink's links (R201). -/
def State.linkIndex (s : State) (l : Nat) : Nat := ((s.inkLinks (s.linkInk l)).idxOf l)

/-- The codes of a row line, from a code per nozzle-in-link (R228). -/
def State.rowCodes (s : State) (l sl r y bank mask : Nat) (code : Nat → Nat) : List Nat :=
  let first := s.reg (slotKey K.SlotFirstNozzle l sl)
  let rc := s.reg (slotKey K.RowCount l sl)
  (s.rowNozzles l sl r).map fun j =>
    if s.reg (slotKey K.RowLayout l sl) = 0 then code (first + j)
    else if interleaveRow mask rc (neColumn (s.nozzle bank (49152 * l + first + j))) y = r then code (first + j)
    else 0

/-- Counters of a line not sent (R231). -/
def lineSkipped (l sl : Nat) (m : Int) : Act :=
  seqs [fireEvent 97 l sl, addTo K.LinesSkippedCount 4 1, wasteCopy m wFiring]

/-- FireLate where the lead is short (R231). -/
def lateCheck (l sl : Nat) (m stamp : Int) : Act :=
  .read fun s =>
    when (stamp < (s.ptp : Int) + (s.reg K.FireMinLead : Int) * 65536)
      (seqs [fireEvent 96 l sl, addTo K.FireLateCount 4 1, wasteCopy m wFiring])

/-- A row line stamped under a clamp of the acceleration (R233). -/
def clampMark (m : Int) (l sl : Nat) : Act :=
  .read fun s =>
    match s.copy? m with
    | some c =>
      .seq (when (!c.predictionFault) (.seq (fireEvent 98 l sl) (addTo K.PredictionFaultCount 4 1)))
        (setCopy m fun c => { c with predictionFault := true, waste := setBit c.waste wFiring true })
    | none => .skip

/-- The row's tracker moves past a line; its RowSequence counts it, sent or skipped (R235). -/
def stepRow (d : Due) : Act :=
  setRow d.l d.sl d.r fun r => { r with
    next := some (d.num, d.y + 1), seq := (r.seq + 1) % 65536,
    last := if d.fate = .send then some d.stamp.toNat else r.last }

/-- A line of a decided band that still lacks a source when its most upstream row issues it is given up: it is
neither composed nor written (R180). -/
def giveUpLine (m : Int) (ink y : Nat) : Act :=
  .read fun s =>
    match s.copy? m with
    | none => .skip
    | some c =>
      when (c.bandBlank ink (y / 64) == some false && c.composed.getD ink 0 == y)
        (setCopy m fun c => { c with
          dropped := (ink, y) :: c.dropped, composed := modAt c.composed ink (· + 1) })

/-- Sends one row line of a copy from its ring (R230, R235). -/
def sendRow (d : Due) (c : Copy) : Act :=
  .read fun s =>
    let ink := s.linkInk d.l
    let ty := s.headType d.l d.sl
    match s.ring? c.mode ink, s.bankOf d.l d.sl (s.versionFor d.num ty) with
    | some ring, some bank =>
      let w := codeBits c.mode
      let at' := ring.lineAt c d.y
      let missing := c.written.getD ink 0 ≤ d.y || c.dropped.contains (ink, d.y)
      let spoiled := !missing && s.poisoned at' ring.lineBytes
      let mask := (SMap.find c.masks (12 * d.l + d.sl)).getD
        (s.reg (slotKey K.RowInterleaveMask d.l d.sl))
      let codes := s.rowCodes d.l d.sl d.r d.y c.bank mask fun n =>
        if missing || spoiled then 0 else s.ringCode at' w (s.linkIndex d.l) n
      let tickle := bit (s.reg (slotKey K.TickleLineMask d.l d.sl)) (d.y % 16)
        && (s.factsOf ty).tickle != 0xFF
      seqs [
        lateCheck d.l d.sl d.num d.stamp,
        when missing (seqs [fireEvent 110 d.l d.sl, addTo K.RingUnderrunCount 4 1,
          wasteCopy d.num wFiring, giveUpLine d.num ink d.y]),
        when spoiled (wasteCopy d.num wFiring),
        sendLine d.l d.sl d.r (s.row d.l d.sl d.r).seq bank w codes.length d.stamp.toNat tickle
          (packCodes w codes) d.num,
        addTo K.RowLinesIssued 8 1,
        .prim (.fire fun f => { f with
          issued := f.issued ++ [{
            num := d.num, q := d.q,
            land := d.stamp.toNat + s.reg (slotKey K.LandingDelay d.l d.sl) * 65536 }] }) ]
    | _, _ => .skip

/-- What a due row line does. -/
def dueLine (clamped : Bool) (d : Due) : Act :=
  .read fun s =>
    match s.copy? d.num with
    | none => .skip
    | some c =>
      seqs [
        when (clamped && d.fate == .send) (clampMark d.num d.l d.sl),
        (match d.fate with
          | .send => sendRow d c
          | .skip => lineSkipped d.l d.sl d.num
          | .dead => wasteCopy d.num wHead
          | .gap => wasteCopy d.num wBridle
          | .silent => .skip),
        stepRow d ]

/-- Stamp order, ties by slot, then by row (R230). -/
def dueBefore (a b : Due) : Bool :=
  a.stamp < b.stamp || (a.stamp == b.stamp && (a.sl < b.sl || (a.sl == b.sl && a.r ≤ b.r)))

/-- Inserts in stamp order. -/
def insertDue (d : Due) : List Due → List Due
  | [] => [d]
  | x :: xs => if dueBefore d x then d :: x :: xs else x :: insertDue d xs

/-- A row has passed copy `m`. -/
def State.rowPast (s : State) (m : Int) (p : Nat × Nat × Nat) : Bool :=
  match (s.row p.1 p.2.1 p.2.2).next, s.copy? m with
  | some (k, y), some c => m < k || (k == m && c.lines ≤ y)
  | _, _ => false

/-- Copies whose last line every row has fired or skipped are done (R15, R347). -/
def settleCopies : Act :=
  .read fun s =>
    .prim (.fire fun f => { f with
      copies := f.copies.map fun c => if s.firingRows.all (s.rowPast c.num) then { c with done := true } else c })

/-- PredictionErrorMaxCopy, once a copy is done and its issued lines are measured (R234). -/
def settleErrors : Act :=
  .read fun s =>
    each (s.fire.copies.filter fun c => c.done && !c.measuredBy.contains 99
        && !(s.fire.issued.any fun i => i.num == c.num)) fun c =>
      .seq (put K.PredictionErrorMaxCopy (min c.errorPs (2 ^ 32 - 1)))
        (setCopy c.num fun c => { c with measuredBy := 99 :: c.measuredBy })

/-- Measures issued lines between two master samples (R234): the time the total reached Q, interpolated,
against the predicted landing, in ps. -/
def measureIssued : Act :=
  .read fun s =>
    match s.pos.samples with
    | (t1, p1, _) :: (t0, p0, _) :: _ =>
      let hit := s.fire.issued.filter fun i => p0 < i.q && i.q ≤ p1
      let err := fun (i : Issued) =>
        let u0 : Int := s.ptpAt t0
        let u1 : Int := s.ptpAt t1
        let reached := u0 + roundDiv ((u1 - u0) * (i.q - p0)) (p1 - p0).toNat
        (roundShift ((reached - i.land) * 1000) 16).natAbs
      seqs [
        each hit fun i => .seq (setCopy i.num fun c => { c with errorPs := max c.errorPs (err i) })
          (.read fun s => put K.PredictionErrorMax (min (max (s.reg K.PredictionErrorMax) (err i)) (2 ^ 32 - 1))),
        .prim (.fire fun f => { f with issued := f.issued.filter fun i => p1 < i.q }),
        settleErrors ]
    | (_, p1, _) :: [] =>
      .prim (.fire fun f => { f with issued := f.issued.filter fun i => p1 < i.q })
    | [] => .skip

/-- The ladder line count of a Service ladder (R254). -/
def State.ladderLines (s : State) (passes : Nat) : Nat :=
  passes * s.reg K.LadderPitch * (s.reg K.LadderRungLines + s.reg K.LadderRungGap)

/-- Labels of the Service ladder's lines (R254). -/
def State.ladderLabel (s : State) (passes : Nat) (m : Int) (y : Nat) : Option (Int ⊕ Unit) :=
  if m = 0 && y < s.ladderLines passes then
    some (.inl (s.regI K.LadderStartTotal 8 * 2 ^ 32 + linesNm mFidelity y))
  else none

/-- Sends one ladder row line (R254). -/
def sendLadder (d : Due) : Act :=
  .read fun s =>
    let ty := s.headType d.l d.sl
    match s.bankOf d.l d.sl (s.versionInForce ty) with
    | none => .skip
    | some bank =>
      let w := if (s.factsOf ty).sixteen then 4 else 2
      let b := s.reg K.BankInForce
      let codes := s.rowCodes d.l d.sl d.r d.y b (s.reg (slotKey K.RowInterleaveMask d.l d.sl)) fun n =>
        if ladderFires (s.reg K.LadderPitch) (s.reg K.LadderRungLines) (s.reg K.LadderRungGap) d.y
          (s.nozzle b (49152 * d.l + n)) then s.reg K.LadderCode else 0
      .seq
        (sendLine d.l d.sl d.r (s.row d.l d.sl d.r).seq bank w codes.length d.stamp.toNat false
          (packCodes w codes) 0)
        (addTo K.RowLinesIssued 8 1)

/-- What a due ladder line does. -/
def dueLadder (d : Due) : Act :=
  seqs [
    (match d.fate with
      | .send => sendLadder d
      | .skip => .seq (fireEvent 97 d.l d.sl) (addTo K.LinesSkippedCount 4 1)
      | _ => .skip),
    setRow d.l d.sl d.r (fun r => { r with
      seq := (r.seq + 1) % 65536
      last := if d.fate = .send then some d.stamp.toNat else r.last }),
    .prim (.fire fun f => { f with service := f.service.map fun v =>
      { v with rows := SMap.put v.rows ((12 * d.l + d.sl) * 4 + d.r) (d.y + 1) } }) ]

/-- Rows of the slots a Service pattern runs on. -/
def State.serviceRows (s : State) (v : Service) : List (Nat × Nat × Nat) :=
  s.firingRows.filter fun p => v.slots.contains (12 * p.1 + p.2.1)

/-- The ladder lines due at this sample. -/
def State.ladderDue (s : State) (p : Option Predictor) (v : Service) : List Due :=
  (s.serviceRows v).flatMap fun x =>
    let l := x.1
    let sl := x.2.1
    let r := x.2.2
    s.planRow p s.master.total l sl r (s.versionInForce (s.headType l sl)) (s.ladderLabel v.passes) 64 0
      ((SMap.find v.rows ((12 * l + sl) * 4 + r)).getD 0) (s.row l sl r).last

/-- Every row has issued the ladder's last line (R254). -/
def ladderDone : Act :=
  .read fun s =>
    match s.fire.service with
    | some v =>
      when (v.pattern == 3 && (s.serviceRows v).all fun p =>
          s.ladderLines v.passes ≤ (SMap.find v.rows ((12 * p.1 + p.2.1) * 4 + p.2.2)).getD 0)
        (endService 0)
    | none => .skip

/-- The lines of the copies in flight due at this sample. -/
def State.copyDue (s : State) (p : Option Predictor) : List Due :=
  s.firingRows.flatMap fun x =>
    let l := x.1
    let sl := x.2.1
    let r := x.2.2
    match s.rowStart l sl r with
    | none => []
    | some (m, y) =>
      s.planRow p s.master.total l sl r (s.versionFor m (s.headType l sl)) s.copyLabel 64 m y
        (s.row l sl r).last

/-- LadderPrinted: every row has been issued a set's last line (R335). -/
def laddersPrinted : Act :=
  .read fun s =>
    let gone := s.loop.sets.filter fun a => !a.printed && s.firingRows.all fun p =>
      match (s.row p.1 p.2.1 p.2.2).next with
      | some (k, y) => a.copy < k || (k == a.copy && a.lastLine < y)
      | none => false
    each gone fun g =>
      .seq (.prim (.loop fun x => { x with sets := x.sets.map fun a => if a.copy = g.copy then { a with printed := true } else a }))
        (raise 87)

/-- At a master sample, the sequencer predicts stamps and issues each due row line (R229–R235). -/
def execRowLineIssue (t : Nat) (s : State) : Host.Outcome State Fault Refusal :=
  perform t (.read fun s =>
    let fv := signedOf 4 (Config.freeValue s.free)
    let p := s.predictor fv
    let drew := match s.pos.samples with
      | (ts, _, _) :: rest => (olderSample (s.reg K.PredictionWindow) ts rest).isNone
      | [] => false
    let clamped := match p with
      | some x => x.clamped
      | none => false
    seqs [
      when (drew && p.isSome) (.prim .fresh),
      (match p with
        | some x => put K.AccelerationActual (rawOf 4 (accelActual x.num x.den))
        | none => .skip),
      when (s.fnOn fnFire)
        (match s.fire.service with
          | some v => when (v.pattern == 3)
              (.seq (each ((s.ladderDue p v).foldr insertDue []) dueLadder) ladderDone)
          | none => seqs [each ((s.copyDue p).foldr insertDue []) (dueLine clamped), laddersPrinted,
              settleCopies, settleErrors]) ]) s

/-- HeadInhibited, with the reason's own event first (R244). -/
def inhibitHead (l sl state : Nat) (hot : Bool) : Act :=
  seqs [when hot (fireEvent 99 l sl), fireEvent 101 l sl, put (slotKey K.HeadState l sl) state]

/-- A head's report of temperature and inhibit (R244). -/
def headReport (l sl : Nat) (temp : Int) (own : Bool) : Act :=
  .read fun s =>
    let lim := s.regI (slotKey K.HeadTempLimit l sl) 2
    let bad := own || lim ≤ temp
    let below := !own && temp < lim - (s.reg K.HeadTempHysteresis : Int)
    let st := s.headState l sl
    seqs [
      put (slotKey K.HeadTemperature l sl) (rawOf 2 temp),
      setHead l sl (fun h => { h with
        reportAt := some s.now, own := own, lost := false,
        hot := bad || (h.hot && !below),
        goodSince := if bad then none else if below then some (h.goodSince.getD s.now) else none }),
      when (2 ≤ st && bad && st != 3) (inhibitHead l sl 3 true) ]

/-- No report within TelemetryTimeout (R244). -/
def execTelemetryTimeout (t l slot : Nat) (s : State) : Host.Outcome State Fault Refusal :=
  perform t (.read fun s =>
    let h := s.head l slot
    let st := s.headState l slot
    let late := match h.reportAt with
      | some u => u + s.reg K.TelemetryTimeout ≤ s.now
      | none => true
    when ((st == 2 || st == 3) && late)
      (.seq (setHead l slot fun h => { h with lost := true, goodSince := none })
        (inhibitHead l slot 4 false))) s

/-- HeadRecoverTime below the limit has passed (R244). -/
def execHeadRecovered (t l slot : Nat) (s : State) : Host.Outcome State Fault Refusal :=
  perform t (.read fun s =>
    let st := s.headState l slot
    let ok := match (s.head l slot).goodSince with
      | some u => decide (u + s.reg K.HeadRecoverTime ≤ s.now)
      | none => false
    when ((st == 3 || st == 4) && ok)
      (seqs [put (slotKey K.HeadState l slot) 2,
        setHead l slot (fun h => { h with hot := false, lost := false }), fireEvent 100 l slot])) s

/-- The bank and width that packets outside copies name for a slot, if its type maps a drop state
(R250, R253). -/
def State.idleBank (s : State) (l sl : Nat) : Option Nat :=
  s.bankOf l sl (s.versionInForce (s.headType l sl))

/-- A tickle FIRE to every present slot in Ready, and in Service between patterns (R245). -/
def execTickleReady (t : Nat) (s : State) : Host.Outcome State Fault Refusal :=
  perform t (.read fun s =>
    let rate := s.reg K.TickleReadyRate
    if rate = 0 || s.health.shuttingDown || !((s.mode == mReady && !s.inTransition) || (s.mode == mService && s.fire.service.isNone))
      || s.now < s.fire.tickleAt + 1000000000 / rate then .skip
    else
      .seq (.prim (.fire fun f => { f with tickleAt := s.now }))
        (each s.slots fun p =>
          match s.idleBank p.1 p.2 with
          | some bank =>
            when (s.slotSendable p.1 p.2 && (s.factsOf (s.headType p.1 p.2)).tickle != 0xFF)
              (sendFire p.1 p.2 0 0 bank 2 (s.ptp + s.reg K.IssueLead * 65536))
          | none => .skip)) s

/-- Segment k of waveform w of a table's bytes (R238): level and duration. -/
def segment (b : List Nat) (w k : Nat) : Int × Nat :=
  (signedOf 2 (field b (64 + 128 * w + 4 * k) 2), field b (64 + 128 * w + 4 * k + 2) 2)

/-- A waveform follows R239: segments up to the first of duration 0, all zero after, ending at level 0
within MinFirePeriod. -/
def waveformValid (b : List Nat) (period w : Nat) : Bool :=
  let segs := (List.range 32).map (segment b w)
  let body := segs.takeWhile fun x => x.2 != 0
  let tail := segs.drop (body.length + 1)
  (match body.getLast? with
    | some x => x.1 == 0
    | none => true)
    && tail.all (fun x => x == (0, 0))
    && 5 * (body.map (·.2)).sum ≤ period

/-- A drop map of n codes follows R240 when its flag is set. -/
def dropMapValid (b : List Nat) (at' n count : Nat) (flag : Bool) : Bool :=
  !bit (field b at' 1) 7
    && (List.range n).all (fun c => field b (at' + c) 1 % 16 < count)
    && (!flag || (List.range n).all fun c => c == 0 || bit (field b (at' + c) 1) 7)

/-- Format check of a waveform table (R241 code 2). -/
def tableFormat (b : List Nat) : Bool :=
  let count := field b 3 1
  let period := field b 12 4
  let tickle := field b 5 1
  field b 0 2 == 0x4657 && field b 2 1 == 0x10 && 1 ≤ count && count ≤ 16 && field b 4 1 < 4
    && (tickle ≤ 15 || tickle == 0xFF) && field b 6 2 == 0 && field b 10 2 == 0
    && 2000 ≤ period && period ≤ 1000000
    && (List.range 20).all (fun c => bits (field b (16 + c) 1) 4 3 == 0)
    && field b 36 28 == 0 && field b 2112 4 == crc32 (b.take 2112)

/-- Codes 2 to 4 of R241 for one table. -/
def tableRefusal (b : List Nat) : Nat :=
  let count := field b 3 1
  let period := field b 12 4
  let f4 := bit (field b 4 1) 0
  let f16 := bit (field b 4 1) 1
  let tickle := field b 5 1
  if !tableFormat b then 2
  else if !((List.range count).all (waveformValid b period)) then 3
  else if !(dropMapValid b 16 4 count f4 && dropMapValid b 20 16 count f16
      && (tickle == 0xFF || tickle < count)
      && (!f4 || period ≤ 12700) && (!f16 || period ≤ 21166)) then 4
  else 0

/-- What a table says of its type. -/
def tableFacts (b : List Nat) : WaveFacts :=
  { four := bit (field b 4 1) 0, sixteen := bit (field b 4 1) 1, period := field b 12 4,
    tickle := field b 5 1 }

/-- The present configured slots of the types in a mask, ascending (R247). -/
def State.slotsOfTypes (s : State) (mask : Nat) : List (Nat × Nat) :=
  s.slots.filter fun p => bit mask (s.headType p.1 p.2) && s.slotPresent p.1 p.2

/-- The types of a mask. -/
def typesOf (mask : Nat) : List Nat := (List.range 8).filter (bit mask)

/-- The first failing check of a push (R241, R367), 0 for none. -/
def State.pushRefusal (s : State) (mask : Nat) : Nat :=
  let st := s.reg K.WavePushState
  let version := s.reg K.WavePushVersion
  let codes := (typesOf mask).map fun ty =>
    if s.poisoned (waveAt ty) 2116 then 2 else tableRefusal (s.bytesAt (waveAt ty) 2116)
  if st = 1 || st = 2 then 1
  else if codes.any fun c => c == 2 then 2
  else if codes.any fun c => c == 3 then 3
  else if codes.any fun c => c == 4 then 4
  else if (s.slotsOfTypes mask).isEmpty then 5
  else if (typesOf mask).any fun ty => s.reg (K.WaveSwitchCopy + ty) != 0xFFFFFFFFFFFFFFFF then 6
  else if version = 0 || version = 0xFFFFFFFF || (typesOf mask).any (fun ty => s.versionInForce ty == version)
    then 7
  else 0

/-- The bank a push writes: not the FiringBank (R246, R272). -/
def State.pushBank (s : State) (l sl : Nat) : Nat :=
  if bit (s.reg (slotKey K.BankStatus l sl)) 0 then 0 else 1

/-- Sends a WAVE Load to a slot (R272). -/
def sendLoad (p : Push) (n : Nat) : Act :=
  .read fun s =>
    let l := n / 12
    let sl := n % 12
    let table := ((p.tables.find? fun x => x.1 == s.headType l sl).map (·.2)).getD []
    .seq (sendPacket l pkWAVE sl 0 ([0, s.pushBank l sl, 0, 0] ++ leBytes 4 p.version ++ table) 0 0)
      (.prim (.fire fun f => { f with push := f.push.map fun q => { q with
        todo := q.todo.filter (· != n), waiting := (n, s.now) :: q.waiting } }))

/-- Every link with slots left and none waiting is sent its next Load (R247 step 1). -/
def loadNext : Act :=
  .read fun s =>
    match s.fire.push with
    | none => .skip
    | some p =>
      each (List.range 16) fun l =>
        if p.waiting.any fun x => x.1 / 12 == l then .skip
        else match p.todo.find? fun n => n / 12 == l with
          | some n => sendLoad p n
          | none => .skip

/-- WavePushRequest (R241, R247). -/
def effPush : Effect := fun s w =>
  if !s.isHolder then refuse abMode
  else
    let code := s.pushRefusal w.val
    if code ≠ 0 then
      accept (.seq (put K.WavePushRefusal code) (when (code != 1) (put K.WavePushState 4)))
    else
      accept (seqs [
        put K.WavePushRefusal 0, put K.WavePushState 1, put K.WavePushFailSlot 0xFFFF,
        .prim (.fire fun f => { f with
          push := some {
            mask := w.val, version := s.reg K.WavePushVersion,
            tables := (typesOf w.val).map fun ty => (ty, s.bytesAt (waveAt ty) 2116),
            todo := (s.slotsOfTypes w.val).map fun p => 12 * p.1 + p.2 } }),
        raise 104,
        loadNext ])

/-- A push is requested. -/
def execWavePushRequest (t : Nat) (w : Wr) (s : State) : Host.Outcome State Fault Refusal :=
  perform t (writeBy 0x2710 1 effPush w) s

/-- The tokens go out once every head has acknowledged its load (R247 step 3). -/
def sendTokens : Act :=
  .read fun s =>
    match s.fire.push with
    | none => .skip
    | some p =>
      if p.todo.isEmpty && p.waiting.isEmpty && p.tokens.isEmpty then
        seqs [
          put K.WavePushState 2,
          each p.acked (fun n => .read fun s =>
            sendPacket (n / 12) pkWAVE (n % 12) 0
              ([1, s.pushBank (n / 12) (n % 12), 0, 0] ++ leBytes 4 p.version) 0 0),
          .prim (.fire fun f => { f with push := f.push.map fun q => { q with tokens := q.acked } }),
          raise 105 ]
      else .skip

/-- The push is done once every token is acknowledged (R247 step 4). -/
def pushDone (p : Push) : Act :=
  seqs [
    put K.WavePushState 3,
    each (typesOf p.mask) fun ty => put (K.WaveVersionStaged + ty) p.version,
    .prim (.fire fun f => { f with
      push := none
      factsStaged := (List.range 8).map fun ty =>
        match p.tables.find? fun x => x.1 == ty with
        | some x => tableFacts x.2
        | none => f.factsStaged.getD ty {} }) ]

/-- A WaveAck record (R247, R272, R277): op, status, bank, version. A status other than 0 acknowledges
nothing. -/
def execWaveAck (t l slot : Nat) (data : List Nat) (s : State) : Host.Outcome State Fault Refusal :=
  perform t (.read fun s =>
    let n := 12 * l + slot
    match s.fire.push with
    | none => .skip
    | some p =>
      if field data 1 1 ≠ 0 || field data 4 4 ≠ p.version then .skip
      else if field data 0 1 = 0 && p.waiting.any (fun x => x.1 == n) then
        seqs [
          .prim (.fire fun f => { f with push := some { p with
            waiting := p.waiting.filter fun x => x.1 != n, acked := p.acked ++ [n] } }),
          loadNext,
          sendTokens ]
      else if field data 0 1 = 1 && p.tokens.contains n then
        let rest := p.tokens.filter (· != n)
        if rest.isEmpty then pushDone p
        else .prim (.fire fun f => { f with push := some { p with tokens := rest } })
      else .skip) s

/-- A push fails before its tokens (R247). -/
def pushFails (slot : Nat) : Act :=
  seqs [put K.WavePushState 5, put K.WavePushFailSlot slot,
    .prim (.fire fun f => { f with push := none })]

/-- A head does not acknowledge its load in time (R247). -/
def execWaveAckTimeout (t l slot : Nat) (s : State) : Host.Outcome State Fault Refusal :=
  perform t (.read fun s =>
    match s.fire.push with
    | none => .skip
    | some p =>
      when (p.waiting.any fun x => x.1 == 12 * l + slot && x.2 + s.reg K.WaveAckTimeout ≤ s.now)
        (.seq (pushFails (12 * l + slot)) (fireEvent 106 l slot))) s

/-- WavePushCancel: before the tokens, the same effect with no slot (R247). -/
def effPushCancel : Effect := fun s w =>
  accept (when (w.val == 1 && s.reg K.WavePushState == 1) (.seq (pushFails 0xFFFF) (raise 106)))

/-- A push is cancelled. -/
def execWavePushCancel (t : Nat) (w : Wr) (s : State) : Host.Outcome State Fault Refusal :=
  perform t (writeBy 0x2710 6 effPushCancel w) s

/-- The switch of a type to its staged version (R248). -/
def switchType (ty : Nat) : Act :=
  .read fun s => seqs [
    put (K.WaveVersionInForce + ty) (s.reg (K.WaveVersionStaged + ty)),
    put (K.WaveVersionStaged + ty) 0,
    put (K.WaveSwitchCopy + ty) 0xFFFFFFFFFFFFFFFF,
    .prim (.fire fun f => { f with facts := f.facts.set ty (f.factsStaged.getD ty {}) }) ]

/-- A present head of a type holds a version, but with no token (R248). -/
def State.untokened (s : State) (ty version : Nat) : Bool :=
  (s.slotsOfTypes (2 ^ ty)).any fun p =>
    (s.bankOf p.1 p.2 version).isNone
      && (s.reg (slotKey K.Bank0Version p.1 p.2) == version || s.reg (slotKey K.Bank1Version p.1 p.2) == version)

/-- WaveBankSwitch of a type (R248). -/
def effSwitch (ty : Nat) : Effect := fun s w =>
  let staged := s.reg (K.WaveVersionStaged + ty)
  if !s.takesFor (if w.val = 0 then s.nextUndecided else w.val) then refuse abMode
  else if staged = 0 then refuse abMode
  else if s.untokened ty staged then ⟨abMode, raise 106⟩
  else if isPrint s.mode then
    accept (put (K.WaveSwitchCopy + ty) (if w.val = 0 then s.nextUndecided else w.val))
  else accept (switchType ty)

/-- A head type is switched to its staged bank. -/
def execWaveBankSwitch (t ty : Nat) (w : Wr) (s : State) : Host.Outcome State Fault Refusal :=
  perform t (writeBy 0x2713 (ty + 1) (effSwitch ty) w) s

/-- Adoption of a type's version from one slot (R250): FiringBank first, then the other bank; a version
of 0 never. What the adopted version's table held is not stated: a free value (notes/assumptions/5.md). -/
def adoptFrom (l sl : Nat) : Act :=
  .read fun s =>
    let ty := s.headType l sl
    let st := s.reg (slotKey K.BankStatus l sl)
    let held := fun (b : Nat) =>
      let v := s.reg (slotKey (if b = 0 then K.Bank0Version else K.Bank1Version) l sl)
      if bit st (b + 1) && v != 0 then some v else none
    let fb := if bit st 0 then 1 else 0
    let done : Act := .prim (.fire fun f => { f with adopted := f.adopted.set ty true })
    if s.fire.adopted.getD ty true then .skip
    else match held fb, held (1 - fb) with
      | some v, _ | none, some v =>
        .seq (.seq done (put (K.WaveVersionInForce + ty) v))
          (drawFree fun x => .prim (.fire fun f => { f with
            facts := f.facts.set ty {
              four := bit x 0, sixteen := bit x 1, period := 2000 + x / 4 % 998001,
              tickle := x / 2 ^ 24 % 256 } }))
      | none, none => done

/-- The bank report of a slot has been received on this link since it came up. -/
def State.reported (s : State) (l sl : Nat) : Bool := bit (s.lnk l).reports sl

/-- Versions are adopted from the lowest present configured slot of each type on a link (R250). -/
def adoptOn (l : Nat) : Act :=
  .read fun s =>
    each (List.range 8) fun ty =>
      match (s.slotsOfTypes (2 ^ ty)).find? fun p => p.1 == l with
      | some p => when (s.reported p.1 p.2) (adoptFrom p.1 p.2)
      | none => .skip

/-- A head that does not hold its type's version in force with a token raises WaveBankMismatch (R249,
R250). -/
def bankCheck (l sl : Nat) : Act :=
  .read fun s =>
    let v := s.versionInForce (s.headType l sl)
    when (s.slotPresent l sl && s.reported l sl && v != 0 && (s.bankOf l sl v).isNone) (fireEvent 106 l sl)

/-- A BankReport record (R249, R277). -/
def execBankReport (t l slot : Nat) (data : List Nat) (s : State) : Host.Outcome State Fault Refusal :=
  perform t (seqs [
    put (slotKey K.Bank0Version l slot) (field data 0 4),
    put (slotKey K.Bank1Version l slot) (field data 4 4),
    setLink l (fun k => { k with reports := setBit k.reports slot true }),
    .read fun s => when (s.linkUp l && slot < 12) (.seq (adoptOn l) (bankCheck l slot)) ]) s

/-- The copy a slot's late or rejected line belonged to, from the sent-packet log. -/
def State.sentCopy (s : State) (l slot row rowSeq : Nat) : Option Int :=
  ((s.lnk l).sent.find? fun x => x.kind == pkLINE && x.slot == slot && x.row == row
    && x.rowSeq == rowSeq).map (·.copy)

/-- A Late record (R231, R237, R277). -/
def execLateRecord (t l slot : Nat) (data : List Nat) (s : State) : Host.Outcome State Fault Refusal :=
  perform t (.read fun s => seqs [
    fireEvent 97 l slot,
    addTo K.LinesSkippedCount 4 1,
    addTo (slotKey K.HeadLinesSkipped l slot) 4 1,
    (match s.sentCopy l slot (field data 0 1) (field data 2 2) with
      | some m => wasteCopy m wHead
      | none => .skip) ]) s

/-- A NozzleFlag record (R251): counted; admitted kinds enter the missing set under SourceMask. -/
def execNozzleFlag (t l slot : Nat) (data : List Nat) (s : State) : Host.Outcome State Fault Refusal :=
  perform t (.read fun s =>
    let kind := field data 1 1
    let n := 49152 * l + s.reg (slotKey K.SlotFirstNozzle l slot) + field data 2 2
    let adds := !bit kind 7 && bits kind 0 7 ≤ 2 && bit (s.reg K.NozzleFlagKindMask) (bits kind 0 7)
      && bit (s.reg K.SourceMask) 0 && n < s.nozzleCount
    seqs [
      fireEvent 102 l slot,
      addTo K.NozzleFlagsReceived 4 1,
      addTo (slotKey K.NozzleFlagsFromHead l slot) 4 1,
      when (adds && s.missingOf n == 0) (.seq (addTo K.NozzleFlagsAdded 4 1) (addMissing n 1)) ]) s

/-- The configured slots of the inks a Service pattern selects. -/
def State.serviceSlots (s : State) : List (Nat × Nat) :=
  s.slots.filter fun p => s.linkInk p.1 < 8 && bit (s.reg K.ServiceInkMask) (s.linkInk p.1)

/-- A selected slot of a type without Supports16State (R253). -/
def State.serviceNarrow (s : State) : Bool :=
  s.serviceSlots.any fun p => s.slotPresent p.1 p.2 && !(s.factsOf (s.headType p.1 p.2)).sixteen

/-- A Service pattern starts (R253). -/
def startService (v : Service) : Act :=
  seqs [.prim (.fire fun f => { f with service := some v }), put K.ServiceState 1, holdTrim]

/-- The selected slots as numbers 12L+S, those whose type maps a drop state (R253). -/
def State.serviceTargets (s : State) : List Nat :=
  (s.serviceSlots.filter fun p => s.versionInForce (s.headType p.1 p.2) != 0).map fun p => 12 * p.1 + p.2

/-- Some selected ink has an Upper nozzle (R254). -/
def State.hasUpper (s : State) : Bool :=
  s.inks.any fun k => bit (s.reg K.ServiceInkMask) k
    && (s.presentOf (s.reg K.BankInForce) k).any fun n =>
      neRole (s.nozzle (s.reg K.BankInForce) n) == roleUpper

/-- LadderStartTotal in nm (R254): the label under the most upstream selected row, plus 192 lines. -/
def State.ladderStart (s : State) : Int :=
  let offs := s.serviceSlots.flatMap fun p =>
    (List.range (s.reg (slotKey K.RowCount p.1 p.2))).map fun r => s.rowOffset p.1 p.2 r
  let dmin := match offs with
    | [] => 0
    | x :: xs => xs.foldl min x
  roundShift (s.master.total - dmin * 2 ^ 32 + linesNm mFidelity 192) 32

/-- The purge commands of R253: PurgeDuration in ms (rounded up), then the command. -/
def sendPurge (l sl : Nat) : Act :=
  .read fun s =>
    when (s.slotSendable l sl)
      (.seq (sendCfg l sl 1 0 1 6 (leBytes 4 (ceilDiv (s.reg K.PurgeDuration) 1000000)))
        (sendCfg l sl 1 0 1 5 (leBytes 4 1)))

/-- ServicePattern (R49, R253, R254): refused outside Service and while a pattern runs; 0 cancels. -/
def effService : Effect := fun s w =>
  if s.mode ≠ mService then refuse abMode
  else if w.val = 0 then accept (endService 1)
  else if s.fire.service.isSome then refuse abMode
  else if w.val = 1 then
    if 3 < s.reg K.SpitCode && s.serviceNarrow then refuse abMode
    else accept (startService { pattern := 1, slots := s.serviceTargets, left := s.reg K.SpitCount,
                                nextAt := s.now })
  else if w.val = 2 then
    accept (.seq (startService { pattern := 2, slots := s.serviceTargets,
                                 endAt := s.now + s.reg K.PurgeDuration + 100000000 })
      (each s.serviceSlots fun p => sendPurge p.1 p.2))
  else if w.val = 3 then
    if !s.speedValid || 500000 < s.webSpeed || (3 < s.reg K.LadderCode && s.serviceNarrow) then refuse abMode
    else accept (.seq (put K.LadderStartTotal (rawOf 8 s.ladderStart))
      (startService { pattern := 3, slots := s.serviceTargets, passes := if s.hasUpper then 2 else 1 }))
  else refuse abRange

/-- A write of ServicePattern as one of its four values: the value the row names is the one written. -/
def serviceWrite (v : Nat) (w : Wr) : Act :=
  when (w.val == v) (writeBy 0x2740 1 effService w)

/-- Starts a spit. -/
def execServiceSpit (t : Nat) (w : Wr) (s : State) : Host.Outcome State Fault Refusal :=
  perform t (serviceWrite 1 w) s

/-- Sends purges. -/
def execServicePurge (t : Nat) (w : Wr) (s : State) : Host.Outcome State Fault Refusal :=
  perform t (serviceWrite 2 w) s

/-- Starts a ladder. -/
def execServiceLadder (t : Nat) (w : Wr) (s : State) : Host.Outcome State Fault Refusal :=
  perform t (serviceWrite 3 w) s

/-- Cancels the pattern in progress. -/
def execServiceCancel (t : Nat) (w : Wr) (s : State) : Host.Outcome State Fault Refusal :=
  perform t (serviceWrite 0 w) s

/-- A SpitRate period passes: each slot gets a spit FIRE; the pattern ends after SpitCount (R253). -/
def execSpitPulse (t : Nat) (s : State) : Host.Outcome State Fault Refusal :=
  perform t (.read fun s =>
    match s.fire.service with
    | none => .skip
    | some v =>
      if v.pattern ≠ 1 || s.now < v.nextAt then .skip
      else if v.left = 0 then endService 0
      else
        seqs [
          each v.slots (fun n => .read fun s =>
            let l := n / 12
            let sl := n % 12
            match s.idleBank l sl with
            | some bank =>
              when (s.slotSendable l sl)
                (sendFire l sl 1 (s.reg K.SpitCode) bank
                  (if (s.factsOf (s.headType l sl)).sixteen then 4 else 2)
                  (s.ptp + s.reg K.IssueLead * 65536))
            | none => .skip),
          .prim (.fire fun f => { f with service := some { v with
            left := v.left - 1, nextAt := s.now + 1000000000 / s.reg K.SpitRate } }),
          when (v.left == 1) (endService 0) ]) s

/-- PurgeDuration plus 100 ms has passed (R253). -/
def execPurgeEnd (t : Nat) (s : State) : Host.Outcome State Fault Refusal :=
  perform t (.read fun s =>
    match s.fire.service with
    | some v => when (v.pattern == 2 && v.endAt ≤ s.now) (endService 0)
    | none => .skip) s

/-- The temperatures of a curve ascend strictly (R242). -/
def curveAscends (v : Nat) : Bool := (List.range 7).all fun i => (curvePoint v i).1 < (curvePoint v (i + 1)).1

/-- TempCurve (R242). -/
def effTempCurve (key : Nat) : Effect := fun _ w =>
  if curveAscends w.val then accept (put key w.val) else refuse abRange

/-- A slot's gain curve is written. -/
def execTempCurveWrite (t l slot : Nat) (w : Wr) (s : State) : Host.Outcome State Fault Refusal :=
  perform t (.read fun s =>
    if l < s.linkCount && slot < 12 then
      writeBy (0x4100 + 12 * l + slot) 0x0F (effTempCurve (slotKey K.TempCurve l slot)) w
    else .skip) s

/-- A configured slot's nozzle range fits its link and no other slot of it (R226). -/
def State.rangeFits (s : State) (l sl first count : Nat) : Bool :=
  1 ≤ count && first + count ≤ 49152
    && (List.range 12).all fun o =>
      o == sl || !s.flag (slotKey K.SlotConfigured l o)
        || (let f := s.reg (slotKey K.SlotFirstNozzle l o)
            let n := s.reg (slotKey K.SlotNozzleCount l o)
            first + count ≤ f || f + n ≤ first)

/-- SlotConfigured, SlotFirstNozzle and SlotNozzleCount (R226). -/
def effSlotRange (l sl sub : Nat) : Effect := fun s w =>
  let conf := if sub = 1 then w.val == 1 else s.flag (slotKey K.SlotConfigured l sl)
  let first := if sub = 3 then w.val else s.reg (slotKey K.SlotFirstNozzle l sl)
  let count := if sub = 4 then w.val else s.reg (slotKey K.SlotNozzleCount l sl)
  let here := s.linkUp l && bit (s.lnk l).present sl
  if conf && !s.rangeFits l sl first count then refuse abRange
  else accept (.seq (put (slotKey 0x410000 l sl + sub) w.val)
    (when (sub == 1) (put (slotKey K.HeadState l sl) (if w.val = 0 then 0 else if here then 2 else 1))))

/-- Rules of the head slot entries. -/
def effSlot (idx sub : Nat) : Effect :=
  let n := idx - 0x4100
  match sub with
  | 0x01 => effSlotRange (n / 12) (n % 12) 1
  | 0x03 => effSlotRange (n / 12) (n % 12) 3
  | 0x04 => effSlotRange (n / 12) (n % 12) 4
  | 0x0F => effTempCurve (idx * 256 + sub)
  | _ => plain (idx * 256 + sub)

/-- PrintOrigin lies below the master's CopyLength (R223). -/
def effPrintOrigin : Effect := fun s w =>
  if s.master.len ≤ w.val then refuse abRange else accept (put K.PrintOrigin w.val)

/-- FireMinLead lies between 5,000 and IssueLead (R255). -/
def effFireMinLead : Effect := fun s w =>
  if w.val < 5000 || s.reg K.IssueLead < w.val then refuse abRange else accept (put K.FireMinLead w.val)

/-- Rules of the 0x27xx entries. -/
def effFire (idx sub : Nat) : Effect :=
  match idx * 256 + sub with
  | 0x270001 => effPrintOrigin
  | 0x270003 => effFireMinLead
  | 0x271001 => effPush
  | 0x271006 => effPushCancel
  | 0x274001 => effService
  | key => if idx = 0x2713 then effSwitch (sub - 1) else plain key

end Sys2Proof.Machine
end

