-- ==== Sys2Proof/Machine/HeadLink.lean ====
section
/-! DEFINITION. Sys2Proof/Machine/HeadLink.lean: the Halyard head links (R256–R288): bring-up, forerunner
training, markers, SYNC and echoes, claims, CFG, telemetry, loss, retirement, PRBS and recalibration. -/

namespace Sys2Proof.Machine

/-- Block streams a link is told to send: idle with markers, TS1, TS2, PRBS31, an AM set. -/
abbrev bsIdle : Nat := 0
abbrev bsTs1 : Nat := 1
abbrev bsTs2 : Nat := 2
abbrev bsPrbs : Nat := 3
abbrev bsAm : Nat := 4

/-- Reads an entry of a link's block. -/
def State.lreg (s : State) (k l : Nat) : Nat := s.reg (linkKey k l)

/-- Writes an entry of a link's block. -/
def lput (k l v : Nat) : Act := put (linkKey k l) v

/-- A link of the part, with LINK ready. -/
def State.linkThere (s : State) (l : Nat) : Bool := l < s.linkCount && s.islandReady islLINK

/-- A bit of LinksUp or LinksRetired. -/
def linkBit (k l : Nat) (b : Bool) : Act := .read fun s => put k (setBit (s.reg k) l b)

/-- The link's lock and everything negotiated is forgotten; the log, the counters of sequence and the kept
facts stay. -/
def LinkSt.restart (k : LinkSt) (now : Nat) : LinkSt :=
  { k with
    lock := false, startAt := now, ts2In := 0, ts2Out := false, seqIn := none, present := 0,
    flags := List.replicate 12 0, echoes := [], accepted := 0, echoWait := [], timeValid := false,
    amErrors := 0, hadError := false, amFresh := false, reports := 0, lost := true }

/-- Bring-up starts (R264), or forerunner training after a 1.2 partner or under a limit of 1.2 (R265,
R266). -/
def startLink (l : Nat) : Act :=
  .read fun s =>
    let k := s.lnk l
    let train := k.old || s.lreg K.LinkVersionLimit l == 0x12
    seqs [
      setLink l (fun k => { k.restart s.now with clockAt := s.now }),
      lput K.LinkVersion l 0,
      lput K.LinkState l (if !k.clock then 0 else if train then 2 else 1),
      linkBit K.LinksUp l false,
      send (.blocks l (if train then bsTs1 else bsIdle)) ]

/-- Every configured slot of a link becomes absent; HeadSlotAbsent for those that were there (R284). -/
def slotsAbsent (l : Nat) (event : Bool) : Act :=
  .read fun s =>
    each (List.range 12) fun sl =>
      when (s.flag (slotKey K.SlotConfigured l sl))
        (.seq (when (event && s.slotPresent l sl) (fireEvent 108 l sl)) (put (slotKey K.HeadState l sl) 1))

/-- Pending CFG requests of a link fail (R284). -/
def failCfgs (l : Nat) : Act :=
  .read fun s =>
    .seq (when (s.lreg K.HeadCfgState l == 1) (lput K.HeadCfgState l 3))
      (setLink l fun k => { k with cfgs := [] })

/-- The copies that the rows of a link are firing are marked waste (R252, R284). -/
def wasteLinkCopies (l : Nat) : Act :=
  .read fun s =>
    when (isPrint s.mode || s.inTransition)
      (each (s.firingRows.filter fun p => p.1 == l) fun p =>
        match s.rowStart p.1 p.2.1 p.2.2 with
        | some (m, _) => wasteCopy m wHead
        | none => .skip)

/-- A link is retired (R285): only Idle, markers and Gap; its slots are absent; in a print mode an orderly
stop. -/
def retireLink (l : Nat) : Act :=
  seqs [
    lput K.LinkState l 6, linkBit K.LinksUp l false, linkBit K.LinksRetired l true,
    slotsAbsent l true, failCfgs l, setLink l (fun k => { k with lock := false, timeValid := false }),
    send (.blocks l bsIdle), stopIfPrinting 4 ]

/-- A fault occurrence of a link (R264, R284). -/
def linkFault (l : Nat) : Act := faultOccurrence (faultSource 1 l) (128 + l) l (retireLink l)

/-- The return clock appears within limits: the link leaves NoPartner and LinkUpTimeout starts (R257,
R264, R265). -/
def execReturnClockValid (t l : Nat) (s : State) : Host.Outcome State Fault Refusal :=
  perform t (.read fun s =>
    when (s.linkThere l && !(s.lnk l).clock)
      (.seq (setLink l fun k => { k with clock := true })
        (when (s.linkState l == 0 || s.linkState l == 4) (startLink l)))) s

/-- The link is not up within LinkUpTimeout of a valid return clock (R264). -/
def execLinkUpTimeout (t l : Nat) (s : State) : Host.Outcome State Fault Refusal :=
  perform t (.read fun s =>
    let st := s.linkState l
    let k := s.lnk l
    when (s.linkThere l && k.clock && (st == 1 || st == 2)
        && k.clockAt + s.reg K.LinkUpTimeout ≤ s.now)
      (.seq (linkFault l) (.read fun s => when (s.linkState l != 6) (startLink l)))) s

/-- Byte i of a 64-bit block, turned back where it arrived inverted. -/
def blockByte (block : Nat) (inverted : Bool) (i : Nat) : Nat :=
  let b := bits block (8 * i) 8
  if inverted then 255 - b else b

/-- The agreed version (R265): the highest in both offered ranges, 0 for none. A trained 1.2 partner
offers 1.2 alone. -/
def agreedVersion (limit vmin vmax : Nat) (trained : Bool) : Nat :=
  if trained && vmin ≤ 0x12 && 0x12 ≤ vmax then 0x12
  else if 0x21 ≤ limit && vmin ≤ 0x21 && 0x21 ≤ vmax then 0x21
  else if 0x20 ≤ limit && vmin ≤ 0x20 && 0x20 ≤ vmax then 0x20
  else 0

/-- Marker lock on RXD: versions and features are read, polarity corrected, a version agreed (R262, R263,
R265). -/
def execMarkerLock (t l marker : Nat) (s : State) : Host.Outcome State Fault Refusal :=
  perform t (.read fun s =>
    let k := s.lnk l
    let st := s.linkState l
    let inv := bits marker 0 8 == 255 - 0x4B
    let b := blockByte marker inv
    let trained := st == 2 && 64 ≤ k.ts2In && k.ts2Out
    let v := agreedVersion (s.lreg K.LinkVersionLimit l) (b 5) (b 4) trained
    if !s.linkThere l || !k.clock || k.lock || !(st == 1 || st == 2)
        || b 0 != 0x4B || b 1 != 2 || b 2 != 0x5A || b 3 != 0xC3 || (st == 2 && !trained) then .skip
    else
      seqs [
        lput K.PartnerVersionMax l (b 4),
        lput K.PartnerFeatures l (if v = 0x12 then 0 else b 6 % 16),
        lput K.LaneCorrection l (setBit (s.lreg K.LaneCorrection l) 0 inv),
        lput K.LinkVersion l v,
        (if v = 0 then lput K.LinkState l 4
         else setLink l fun k => { k with lock := true, old := v == 0x12 }) ]) s

/-- Training blocks from a 1.2 far end (R266): 16 in a row start training; TS1 with a valid ObservedMap
sets the lane correction and TS2 follows; 64 TS2 each way end it. -/
def execTrainingBlockReceived (t l block n : Nat) (s : State) : Host.Outcome State Fault Refusal :=
  perform t (.read fun s =>
    let k := s.lnk l
    let st := s.linkState l
    let inv := bits block 0 8 == 255 - 0x2D
    let b := blockByte block inv
    let map := b 4
    let lanes := (if inv then 1 else 0) + (if bit map 4 then 2 else 0) + (if bit map 5 then 4 else 0)
      + (if bits map 0 2 == 1 then 8 else 0)
    if !s.linkThere l || !k.clock || k.lock || b 0 ≠ 0x2D then .skip
    else if st = 1 then
      when (16 ≤ n) (seqs [lput K.LinkState l 2, setLink l (fun k => { k with ts2In := 0, ts2Out := false }),
        lput K.LaneCorrection l (if inv then 1 else 0), send (.blocks l bsTs1)])
    else if st = 2 then
      if b 1 = 1 && bit map 7 && !k.ts2Out then
        seqs [lput K.LaneCorrection l lanes, setLink l (fun k => { k with ts2Out := true }),
          send (.blocks l bsTs2)]
      else if b 1 = 2 && k.ts2Out then
        .seq (setLink l fun k => { k with ts2In := k.ts2In + n })
          (when (k.ts2In < 64 && 64 ≤ k.ts2In + n) (send (.blocks l bsIdle)))
      else .skip
    else .skip) s

/-- A CFG request of the controller's own or of firmware goes out with a fresh tag (R273, R277). -/
def issueCfg (l slot op count addr : Nat) (data : List Nat) (tries use : Nat) : Act :=
  .read fun s =>
    let tag := ((s.lnk l).tag + 1) % 256
    .seq
      (setLink l fun k => { k with
        tag := tag
        cfgs := k.cfgs ++ [{ slot := slot, op := op, count := count, addr := addr, data := data, tag := tag,
                             tries := tries, since := s.now, use := use }] })
      (sendCfg l slot op tag count addr data)

/-- Removes a pending request. -/
def dropCfg (l tag : Nat) : Act := setLink l fun k => { k with cfgs := k.cfgs.filter fun c => c.tag != tag }

/-- A pending request is tried again with a new tag, or fails after two retries (R277). -/
def retryCfg (l : Nat) (c : CfgReq) : Act :=
  .seq (dropCfg l c.tag)
    (if c.tries < 3 then issueCfg l c.slot c.op c.count c.addr c.data (c.tries + 1) c.use
     else when (c.use == 0) (lput K.HeadCfgState l 3))

/-- The mean of round ÷ 2 over the accepted echoes, in 2^-16 ns (R279). -/
def pathMean (echoes : List Int) : Int := roundDiv echoes.sum (2 * echoes.length)

/-- PathDelay in ps (0x400B). -/
def State.pathPs (s : State) (l : Nat) : Int := s.regI (linkKey K.PathDelay l) 4

/-- Slots of a Status record become present or absent (R252, R264, R277). -/
def slotPresence (l : Nat) (mask : Nat) (coming : Bool) : Act :=
  each (List.range 12) fun sl => .read fun s =>
    if !s.flag (slotKey K.SlotConfigured l sl) then .skip
    else
      let here := s.slotPresent l sl
      if bit mask sl then
        when (!here) (.seq (put (slotKey K.HeadState l sl) 2) (fireEvent 109 l sl))
      else when (here || coming) (.seq (put (slotKey K.HeadState l sl) 1) (fireEvent 108 l sl))

/-- The twelve slot entries of a Status record: tokens, firing bank at link up, temperature (R249,
R277). -/
def slotEntries (l : Nat) (data : List Nat) (coming : Bool) : Act :=
  each (List.range 12) fun sl => .read fun s =>
    let flags := field data (8 + 4 * sl + 2) 1
    let old := s.reg (slotKey K.BankStatus l sl)
    let fb := if coming then (if bit flags 3 then 1 else 0) else old % 2
    if !bit flags 4 then .skip
    else seqs [
      put (slotKey K.BankStatus l sl) (fb + (if bit flags 1 then 2 else 0) + (if bit flags 2 then 4 else 0)),
      headReport l sl (signedOf 2 (field data (8 + 4 * sl) 2)) (bit flags 0) ]

/-- The link comes up on the first valid Status record (R249, R250, R264, R274, R286). -/
def linkComesUp (l : Nat) : Act :=
  .read fun s =>
    let k := s.lnk l
    seqs [
      lput K.LinkState l 3,
      linkBit K.LinksUp l true,
      lput K.LinkUpTime l (min (s.now - k.startAt) (2 ^ 32 - 1)),
      .read (fun s => lput K.LinkUpCount l (bump 4 (s.lreg K.LinkUpCount l))),
      when (s.lreg K.LinkVersion l == 0x12)
        (.seq (lput K.PathDelay l (s.lreg K.ConfiguredPathDelay l))
          (setLink l fun k => { k with timeValid := true })),
      when k.prbs (.seq (setLink l fun k => { k with prbs := false }) (issueCfg l 15 0 2 4 [] 1 2)),
      issueCfg l 15 0 1 0 [] 1 4 ]

/-- A CLAIM on every link that carries packets, never at 1.2 (R275, R440). -/
def sendClaim : Act :=
  .read fun s =>
    when s.sys.dictReady
      (.seq
        (each ((List.range s.linkCount).filter fun l =>
            (s.lnk l).lock && 0x20 ≤ s.lreg K.LinkVersion l && s.linkState l != 6) fun l =>
          sendPacket l pkCLAIM 15 0
            ([s.reg K.ClaimActual % 256, 0] ++ leBytes 2 s.link.claimSeq
              ++ leBytes 4 Config.dieSerial.toNat) 0 0)
        (.prim (.link fun x => { x with claimSeq := (x.claimSeq + 1) % 65536 })))

/-- The links with a configured slot, which a Bridle pair shares. -/
def State.sharedLinks (s : State) : List Nat :=
  (List.range s.linkCount).filter fun l => (List.range 12).any fun sl => s.flag (slotKey K.SlotConfigured l sl)

/-- PairReady (R442), of this controller's own links (notes/assumptions/36.md). -/
def State.pairReadyNow (s : State) : Bool :=
  s.reg K.BridleRole != 0 && s.flag K.MirrorCompleteFlag && s.sharedLinks.all fun l =>
    s.linkUp l && bit (s.lreg K.PartnerFeatures l) 0 && 0x20 ≤ s.lreg K.LinkVersion l

/-- PairReady follows its conditions. -/
def syncPair : Act := .read fun s => put K.PairReady (if s.pairReadyNow then 1 else 0)

/-- Every record of mirrored state is wanted anew: MirrorComplete clears (R446). -/
def mirrorLost : Act :=
  .seq (put K.MirrorCompleteFlag 0)
    (.prim (.bridle fun b => { b with mirrorIn := none, aligned := false, fullAt := none, healthySince := none }))

/-- A controller stops being Holder (R440, R448, R452, R454): claim 0, CLAIM_OUT and REJECT_OUT inactive, ClaimLost. -/
def yieldClaim (role : Nat) : Act :=
  seqs [
    put K.ClaimActual 0, put K.BridleRole role, sendClaim, send (.ball .claimOut 0),
    .prim (.loop fun x => { x with pulses := [], rejecting := none }),
    .read (fun s => send (.ball .rejectOut (if s.flag K.RejectActiveLow then 1 else 0))),
    mirrorLost, raise 249 ]

/-- A Holder that sees the other port hold the claim while the peer claims has lost the outputs (R452). -/
def claimLost : Act :=
  .read fun s =>
    when (s.reg K.BridleRole == 2 && s.reg K.PeerClaim != 0)
      (seqs [yieldClaim 1,
        .prim (.bridle fun b => { b with startAt := s.now, lostClaim := true, guardEnd := none }),
        stopIfPrinting 8])

/-- A Status record (R249, R252, R264, R277, R282, R452). -/
def execStatusRecord (t l : Nat) (data : List Nat) (s : State) : Host.Outcome State Fault Refusal :=
  perform t (.read fun s =>
    let k := s.lnk l
    let st := s.linkState l
    let mask := field data 0 2 % 4096
    let e0 := field data 4 2
    let e1 := field data 6 2
    let coming := st == 1 || st == 2
    if !s.linkThere l || !k.lock || s.lreg K.LinkVersion l == 0 || !(coming || st == 3) then .skip
    else
      seqs [
        setLink l (fun k => { k with present := mask, amFresh := k.amFresh || 0 < e0 || 0 < e1 }),
        addTo (linkKey K.LaneErrors l) 4 e0,
        addTo (linkKey K.LaneErrors l + 1) 4 e1,
        lput K.FarEndClaimHolder l (field data 3 1),
        when coming (linkComesUp l),
        slotPresence l mask coming,
        slotEntries l data coming,
        when coming (.seq (adoptOn l) (each (List.range 12) fun sl => bankCheck l sl)),
        when (field data 3 1 == 0 && s.bridle.guardEnd.isSome)
          (.prim (.bridle fun b => { b with cleared := l :: b.cleared })),
        when (field data 3 1 == 1) claimLost,
        syncPair ]) s

/-- One packet of a reported gap, or one rejected packet (R237, R268). -/
def lostPacket (l sequence : Nat) : Act :=
  .read fun s =>
    match (s.lnk l).sent.find? fun x => x.seq == sequence with
    | none => .skip
    | some x =>
      if x.kind = pkLINE then
        seqs [fireEvent 103 l x.slot, addTo K.LinesRejectedCount 4 1,
          addTo (slotKey K.HeadLinesRejected l x.slot) 4 1, wasteCopy x.copy wHead]
      else if x.kind = pkCFG then
        match (s.lnk l).cfgs.find? fun c => c.slot == x.slot with
        | some c => retryCfg l c
        | none => .skip
      else .skip

/-- A Rejected record (R237, R268, R277): reason 1 names a gap, the others one packet. -/
def execRejectedRecord (t l slot : Nat) (data : List Nat) (s : State) : Host.Outcome State Fault Refusal :=
  perform t (.read fun _ =>
    let reason := field data 0 1
    let first := field data 2 2
    let count := field data 4 2
    if 16 ≤ slot then .skip
    else if reason = 1 then
      .seq (addTo (linkKey K.ForwardPacketsLost l) 4 count)
        (each (List.range count) fun i => lostPacket l ((first + i) % 65536))
    else lostPacket l first) s

/-- A CfgReply record (R273, R277). -/
def execCfgReply (t l slot : Nat) (data : List Nat) (s : State) : Host.Outcome State Fault Refusal :=
  perform t (.read fun s =>
    let status := field data 1 1
    let regs := data.drop 4
    match (s.lnk l).cfgs.find? fun c => c.tag == field data 0 1 && c.slot == slot with
    | none => .skip
    | some c =>
      .seq (dropCfg l c.tag)
        (match c.use with
          | 0 => .seq (lput K.HeadCfgReply l (closeBytes ([status, field data 2 1, 0, 0] ++ regs.take 256)))
              (lput K.HeadCfgState l 2)
          | 1 => when (status == 0) (seqs [lput K.LinkState l 5, linkBit K.LinksUp l false,
              slotsAbsent l false, setLink l (fun k => { k with prbs := true, lock := false }),
              send (.blocks l bsPrbs)])
          | 2 => when (status == 0) (.seq (put (linkKey K.PrbsErrors l) (field regs 0 4))
              (put (linkKey K.PrbsErrors l + 1) (field regs 4 4)))
          | 3 => when (status == 0) (.seq (lput K.EyeMargin l (field regs 0 4))
              (when (field regs 0 2 < s.reg K.MarginLow || field regs 2 2 < s.reg K.MarginLow)
                (lput K.RecalibrationNeeded l 1)))
          | _ => when (status == 0) (lput K.FarEndIdentity l (field regs 0 4)))) s

/-- A CFG has no reply within CfgTimeout (R277). -/
def execCfgTimeout (t l : Nat) (s : State) : Host.Outcome State Fault Refusal :=
  perform t (.read fun s =>
    match (s.lnk l).cfgs.find? fun c => c.since + s.reg K.CfgTimeout ≤ s.now with
    | some c => retryCfg l c
    | none => .skip) s

/-- A SyncEcho record (R279); `arrival` is when the first return marker after departure plus Turnaround
arrived, in 2^-16 ns of PTP time. -/
def execSyncEcho (t l : Nat) (data : List Nat) (arrival : Nat) (s : State) :
    Host.Outcome State Fault Refusal :=
  perform t (.read fun s =>
    let k := s.lnk l
    match k.echoWait.find? fun e => e.1 == field data 0 2 with
    | none => .skip
    | some (q, dep) =>
      let round : Int := (arrival : Int) - dep - field data 4 8
      let off := (round - 2 * pathMean k.echoes).natAbs * 1000
      let bad := 16 ≤ k.accepted && s.reg K.EchoTolerance * 2 * 65536 < off
      let echoes := (round :: k.echoes).take 16
      .seq (setLink l fun k => { k with echoWait := k.echoWait.filter fun e => e.1 != q })
        (if bad then addTo (linkKey K.EchoesDiscarded l) 4 1
         else seqs [
          setLink l (fun k => { k with
            echoes := echoes, accepted := k.accepted + 1, timeValid := k.timeValid || 3 ≤ k.accepted }),
          lput K.PathDelay l (rawOf 4 (roundDiv (echoes.sum * 1000) (2 * echoes.length * 65536))) ])) s

/-- A TELEM packet fails, or a gap shows in return sequences (R282). -/
def execReturnPacketRejected (t l cause : Nat) (s : State) : Host.Outcome State Fault Refusal :=
  perform t (.read fun s =>
    when (s.linkThere l && cause ≤ 3) (addTo (linkKey K.ReturnPacketsRejected l) 4 1)) s

/-- A link is lost (R284). -/
def linkLost (l : Nat) : Act :=
  .read fun s => seqs [
    wasteLinkCopies l,
    startLink l,
    lput K.LinkLossCount l (bump 4 (s.lreg K.LinkLossCount l)),
    raise (128 + l),
    slotsAbsent l true,
    failCfgs l,
    linkFault l ]

/-- Link loss (R284): cause 0 lock, 1 return clock, 2 RemoteFault, 3 lane errors in one AM period. An
Incompatible link counts no fault (R265). -/
def execLinkLoss (t l cause : Nat) (s : State) : Host.Outcome State Fault Refusal :=
  perform t (.read fun s =>
    let k := s.lnk l
    let st := s.linkState l
    let declared := (st == 3 || ((st == 1 || st == 2) && k.lock))
      && (cause != 3 || s.reg K.LaneErrorLossLimit < k.amErrors) && cause ≤ 3
    let noClock : Act := when (cause == 1) (setLink l fun k => { k with clock := false })
    if !s.linkThere l then .skip
    else if declared then .seq noClock (linkLost l)
    else if cause = 1 && (st = 4 || st = 1 || st = 2) then
      seqs [noClock, setLink l (fun k => k.restart s.now), lput K.LinkVersion l 0, lput K.LinkState l 0]
    else .skip) s

/-- LinkRestart (R285, R492). -/
def effLinkRestart (l : Nat) : Effect := fun s w =>
  if s.mode ≠ mStandby && s.mode ≠ mReady then refuse abMode
  else accept (when (w.val == 1)
    (seqs [restartSource (faultSource 1 l), linkBit K.LinksRetired l false, slotsAbsent l true, failCfgs l,
      startLink l]))

/-- A link's retirement is cleared and bring-up starts. -/
def execLinkRestart (t l : Nat) (w : Wr) (s : State) : Host.Outcome State Fault Refusal :=
  perform t (writeBy (0x4000 + 0x10 * l) 0x0F (effLinkRestart l) w) s

/-- LinkVersionLimit (R265, R266): the link negotiates again. -/
def effVersionLimit (l : Nat) : Effect := fun s w =>
  if !([0x12, 0x20, 0x21].contains w.val) then refuse abRange
  else accept (.seq (lput K.LinkVersionLimit l w.val)
    (when (s.linkState l != 6) (seqs [slotsAbsent l true, failCfgs l, startLink l])))

/-- A link's version limit is written. -/
def execLinkVersionLimitWrite (t l : Nat) (w : Wr) (s : State) : Host.Outcome State Fault Refusal :=
  perform t (writeBy (0x4000 + 0x10 * l) 5 (effVersionLimit l) w) s

/-- PrbsMode (R286); `rx` is what the controller's own checker counted on RXD. -/
def effPrbs (l rx : Nat) : Effect := fun s w =>
  let ok := s.mode == mReady && !s.inTransition
  if w.val = 1 then
    if ok && s.linkUp l && 0x20 ≤ s.lreg K.LinkVersion l && bit (s.lreg K.PartnerFeatures l) 1 then
      accept (.seq (lput K.PrbsMode l 1) (issueCfg l 15 1 1 3 (leBytes 4 3) 1 1))
    else refuse abMode
  else if w.val = 0 then
    if !ok then refuse abMode
    else accept (.seq (lput K.PrbsMode l 0)
      (when (s.linkState l == 5)
        (.seq (put (linkKey K.PrbsErrors l + 2) (rx % 2 ^ 32)) (startLink l))))
  else refuse abRange

/-- The PRBS test starts. -/
def execPrbsModeOn (t l : Nat) (w : Wr) (s : State) : Host.Outcome State Fault Refusal :=
  perform t (when (w.val == 1) (writeBy (0x4001 + 0x10 * l) 7 (effPrbs l 0) w)) s

/-- The PRBS test ends. -/
def execPrbsModeOff (t l rx : Nat) (w : Wr) (s : State) : Host.Outcome State Fault Refusal :=
  perform t (when (w.val == 0) (writeBy (0x4001 + 0x10 * l) 7 (effPrbs l rx) w)) s

/-- RatePerCycle in 2^-48 ns (R276): one TXC cycle, 2.5 ns of REFCLK, in network time. -/
def State.ratePerCycle (s : State) : Nat := (((2 ^ 32 : Nat) + s.time.trim) * 5 * 2 ^ 15).toNat

/-- The SYNC of an AM period (R276, R279). -/
def sendSync (l : Nat) : Act :=
  .read fun s =>
    let k := s.lnk l
    let old := s.lreg K.LinkVersion l == 0x12
    let every := s.reg K.EchoInterval
    let echo := !old && (k.accepted < 4 || (every != 0 && k.syncCount % every == 0))
    let dep := s.ptp
    let path : Int := if old then roundDiv ((s.lreg K.ConfiguredPathDelay l : Int) * 65536) 1000
      else if k.echoes.isEmpty then 0 else pathMean k.echoes
    let am := (dep : Int) + path + roundDiv (s.regI (linkKey K.LinkAsymmetry l) 4 * 65536) 1000
    .seq
      (setLink l fun k => { k with
        syncSeq := (k.syncSeq + 1) % 65536, syncCount := k.syncCount + 1, amAt := dep,
        echoWait := if echo then ((k.syncSeq, dep) :: k.echoWait).take 8 else k.echoWait })
      (sendPacket l pkSYNC 15 0
        (leBytes 2 k.syncSeq ++ [(if echo then 1 else 0) + (if k.timeValid then 2 else 0), 0]
          ++ stampBytes am.toNat ++ leBytes 8 s.ratePerCycle) 0 0)

/-- The check of R287 in print modes: EyeMargin is read once per client period, at the first AM period
after a copy boundary. -/
def recalCheck (l : Nat) : Act :=
  .read fun s =>
    let k := s.lnk l
    when (isPrint s.mode && s.linkUp l && bit (s.lreg K.PartnerFeatures l) 2
        && 0x21 ≤ s.lreg K.LinkVersion l && k.seenCopy < s.master.copies
        && k.marginAt + s.reg (K.SlackPeriod + 1) ≤ s.now)
      (.seq (setLink l fun k => { k with seenCopy := s.master.copies, marginAt := s.now })
        (issueCfg l 15 0 1 2 [] 1 3))

/-- An AM period starts (R261, R276, R282, R285, R287); `errors` are the lane errors on RXD in the period
that ends. -/
def execAmPeriod (t l errors : Nat) (s : State) : Host.Outcome State Fault Refusal :=
  perform t (.read fun s =>
    let k := s.lnk l
    let st := s.linkState l
    let bad := 0 < errors || k.amFresh
    when (s.linkThere l && st != 5)
      (seqs [
        send (.blocks l bsAm),
        addTo (linkKey K.LaneErrors l + 2) 4 errors,
        setLink l (fun k => { k with amErrors := errors, hadError := bad, amFresh := false }),
        when (bad && !k.hadError) (raise (144 + l)),
        when (k.lock && (st == 1 || st == 2 || st == 3) && s.lreg K.LinkVersion l != 0 && !s.health.shuttingDown)
          (.seq (sendSync l) (recalCheck l)) ])) s

/-- ClaimInterval passes. -/
def execClaimSend (t : Nat) (s : State) : Host.Outcome State Fault Refusal := perform t sendClaim s

/-- HeadCfgRequest (R273, R288, R448). -/
def effHeadCfg (l : Nat) : Effect := fun s w =>
  let slot := bits w.val 0 8
  let op := bits w.val 8 8
  let count := bits w.val 16 8
  let addr := bits w.val 32 16
  let data := leBytes (4 * count) (w.val / 2 ^ 64)
  if !s.linkUp l || s.lreg K.HeadCfgState l = 1 then refuse abMode
  else if !(slot < 12 || slot = 15) || 1 < op || count = 0 || 64 < count || bits w.val 24 8 ≠ 0
      || bits w.val 48 16 ≠ 0 then refuse abRange
  else if op = 1 && addr < 0x80 then refuse abRange
  else if op = 1 && !s.isHolder then accept (lput K.HeadCfgState l 3)
  else accept (.seq (lput K.HeadCfgState l 1) (issueCfg l slot op count addr data 1 0))

/-- A CFG read or write is requested. -/
def execHeadCfgRequest (t l : Nat) (w : Wr) (s : State) : Host.Outcome State Fault Refusal :=
  perform t (writeBy (0x4002 + 0x10 * l) 1 (effHeadCfg l) w) s

/-- RecalibrationRequest: Ready only (R287). -/
def effRecalRequest : Effect := fun s w =>
  if s.mode ≠ mReady then refuse abMode
  else accept (each ((List.range s.linkCount).filter (bit w.val)) fun l =>
    setLink l fun k => { k with recal := some (k.recal.getD {}) })

/-- Links are named for recalibration. -/
def execRecalibrationRequest (t : Nat) (w : Wr) (s : State) : Host.Outcome State Fault Refusal :=
  perform t (writeBy 0x2800 0x0D effRecalRequest w) s

/-- The best preset of a lane in a pass: the highest margin, the lowest preset of equals (R287). -/
def bestPreset (got : List (Nat × Nat × Nat)) (lane : Nat) : Nat × Nat :=
  (got.filter fun g => g.1 == lane).foldr
    (fun g best => if best.2 ≤ g.2.2 then (g.2.1, g.2.2) else best) (0, 0)

/-- Two margins lie within 10 % of each other. -/
def withinTenth (a b : Nat) : Bool := 10 * (max a b - min a b) ≤ max a b

/-- A pass of 16 steps ends (R287). -/
def recalPass (l : Nat) (r : Recal) (picks : List (Nat × Nat)) : Act :=
  .read fun s =>
    let setR := fun (x : Option Recal) => setLink l fun k => { k with recal := x }
    if picks.any fun p => p.2 < s.reg K.MarginMin then
      .seq (setR none) (faultPermanent (faultSource 1 l) (128 + l) l (retireLink l))
    else match r.first with
      | none => setR (some { got := [], first := some picks })
      | some old =>
        let same := (old.map (·.1)) == (picks.map (·.1))
          && (List.zipWith (fun a b => withinTenth a.2 b.2) old picks).all id
        .seq (setR none)
          (if same then
            seqs [lput K.TxPreset l ((picks.getD 0 (0, 0)).1 + 16 * (picks.getD 1 (0, 0)).1),
              lput K.RecalibrationNeeded l 0, calibrationCounted 5 true]
           else calibrationCounted 5 false)

/-- One training step in a granted slot in Ready: preset n mod 8 of lane n div 8 is tried and its margin
read (R32, R287). -/
def execRecalibrationStep (t l margin : Nat) (s : State) : Host.Outcome State Fault Refusal :=
  perform t (.read fun s =>
    let k := s.lnk l
    let wanted := k.recal.isSome || s.flag (linkKey K.RecalibrationNeeded l)
    if !s.linkThere l || s.mode ≠ mReady || !s.linkUp l || !bit (s.lreg K.PartnerFeatures l) 2 || !wanted then
      .skip
    else
      let r := k.recal.getD {}
      let n := r.got.length
      let got := r.got ++ [(n / 8, n % 8, margin)]
      if got.length < 16 then setLink l fun k => { k with recal := some { r with got := got } }
      else recalPass l r [bestPreset got 0, bestPreset got 1]) s

/-- Rules of the link blocks. -/
def effLink (idx sub : Nat) : Effect :=
  let l := (idx - 0x4000) / 16
  match idx % 16, sub with
  | 0, 5 => effVersionLimit l
  | 0, 7 => fun _ w => if w.val &&& 0x77 != w.val then refuse abRange else accept (lput K.TxPreset l w.val)
  | 0, 0x0F => effLinkRestart l
  | 1, 7 => effPrbs l 0
  | 2, 1 => effHeadCfg l
  | _, _ => plain (idx * 256 + sub)

/-- Rules of the 0x28xx entries. -/
def effLinks (idx sub : Nat) : Effect :=
  if idx * 256 + sub = K.RecalibrationRequest then effRecalRequest else plain (idx * 256 + sub)

end Sys2Proof.Machine
end

