-- ==== Sys2Proof/Machine/JobStore.lean ====
section
/-! DEFINITION. Sys2Proof/Machine/JobStore.lean: the job store and its directory (R134–R139). The directory's
bytes in DRAM follow the records held in State (notes/assumptions/13.md). -/

namespace Sys2Proof.Machine

/-- Bytes of an extent (R134). -/
def State.extentSize (s : State) : Nat := s.reg K.ExtentSize

/-- First address of the job store not yet swept (R360). -/
def State.sweptTo (s : State) : Nat := if s.dram.swept then s.dramEnd else s.reg K.InitialisedUpTo

/-- Extents swept (R360). -/
def State.extentCount (s : State) : Nat := (s.sweptTo - s.jobStart) / s.extentSize

/-- Extents held by jobs. -/
def State.extentsHeld (s : State) : List Nat := s.codec.jobs.flatMap (·.extents)

/-- Writes JobStoreFree and JobCount (R166). -/
def syncJobStore : Act :=
  .read fun s => .seq (put K.JobStoreFree ((s.extentCount - s.extentsHeld.length) * s.extentSize))
    (put K.JobCount s.codec.jobs.length)

/-- The lowest run of `k` free extents. -/
def State.freeRun (s : State) (k : Nat) : Option Nat :=
  let held := s.extentsHeld
  (List.range (s.extentCount + 1 - k)).find? fun e => (List.range k).all fun i => !held.contains (e + i)

/-- Room for `n` bytes for a job (R134, R138): in its present extent, else in fresh ones; the address and the
job with the room taken. -/
def State.roomFor (s : State) (j : Job) (n : Nat) : Option (Nat × Job) :=
  let size := s.extentSize
  let taken := { j with stored := j.stored + n }
  match j.extents with
  | e :: _ =>
    if j.fill + n ≤ size then some (s.jobStart + e * size + j.fill, { taken with fill := j.fill + n })
    else fresh size taken
  | [] => fresh size taken
where
  fresh (size : Nat) (taken : Job) : Option (Nat × Job) :=
    let k := max 1 (ceilDiv n size)
    (s.freeRun k).map fun e =>
      (s.jobStart + e * size,
        { taken with extents := ((List.range k).map (e + ·)).reverse ++ taken.extents,
                     fill := n - (k - 1) * size })

/-- A job's place in StreamTable: its streams stand together (R135). -/
def State.firstStream (s : State) (job : Nat) : Nat := s.codec.streams.findIdx fun x => x.job == job

/-- Number of a job's streams. -/
def State.jobStreams (s : State) (job : Nat) : List Stream := s.codec.streams.filter fun x => x.job == job

/-- The 64 bytes of a job record (R135). -/
def State.jobRecord (s : State) (j : Job) : List Nat :=
  let body := leBytes 4 j.id ++ [j.state, 0] ++ leBytes 2 (s.jobStreams j.id).length
    ++ leBytes 4 (s.firstStream j.id) ++ leBytes 4 0 ++ leBytes 8 j.stored ++ leBytes 8 j.loadTime ++ leBytes 28 0
  body ++ leBytes 4 (crc32 body)

/-- The 128 bytes of a stream record (R135). -/
def Stream.record (x : Stream) : List Nat :=
  let body := x.hdr ++ leBytes 8 x.table ++ leBytes 4 x.present ++ leBytes 4 x.lost ++ leBytes 44 0
  body ++ leBytes 4 (crc32 body)

/-- Writes the directory (R135) and the entries that follow it. -/
def mirrorDirectory : Act :=
  .seq (.read fun s => seqs [
    .prim (.erase jobDirectoryAt 0x40000),
    each s.codec.jobs (fun j => writeDram (jobDirectoryAt + 64 * j.place) (s.jobRecord j)),
    .prim (.erase streamTableAt 0x800000),
    each (s.codec.streams.zipIdx) (fun p => writeDram (streamTableAt + 128 * p.2) p.1.record),
    bumpVersion 0x5400,
    bumpVersion 0x5401 ]) syncJobStore

/-- Changes the record of a job. -/
def setJob (id : Nat) (f : Job → Job) : Act :=
  .prim (.codec fun c => { c with jobs := c.jobs.map fun j => if j.id = id then f j else j })

/-- Changes the record of a stream. -/
def setStream (id : Nat) (f : Stream → Stream) : Act :=
  .prim (.codec fun c => { c with streams := c.streams.map fun x => if x.id = id then f x else x })

/-- A stream record joins its job's others. -/
def addStream (x : Stream) : List Stream → List Stream
  | [] => [x]
  | y :: ys => if y.job = x.job && !(ys.any fun z => z.job == x.job) then y :: x :: ys else y :: addStream x ys

/-- A lane leaves its strip, neither passed nor failed (R166). -/
def Lane.abandon (l : Lane) : Lane :=
  { l with work := none, live := none, retired := l.retired || l.retiring, retiring := false }

/-- Every entry of a lane follows its state (R166). -/
def syncLane (n : Nat) : Act :=
  .read fun s =>
    let l := s.codec.lanes.getD n {}
    .seq
      (put (K.DecodeLaneStatus + n)
        (if l.retired then 3 else match l.work with
          | some w => if w.verdict.isNone then 2 else 1
          | none => 0))
      (put (K.DecodeLaneStream + n) (match l.work with
        | some w => w.stream
        | none => 0xFFFFFFFF))

/-- Nothing is left of the decoding of some streams. -/
def dropDecoding (gone : Nat → Bool) : Act :=
  .seq
    (.prim (.codec fun c => { c with
      decs := c.decs.filter fun d => !gone d.id
      lines := c.lines.filter fun l => !gone l.stream
      chains := c.chains.filter fun x => !gone x.stream
      lanes := c.lanes.map fun l => match l.work with
        | some w => if gone w.stream then l.abandon else l
        | none => l }))
    (.seq (each (List.range 32) syncLane)
      (.seq (.prim (.comp fun c => { c with binds := c.binds.filter fun b => !gone b.stream }))
        (.prim (.net fun n => { n with refetches := n.refetches.filter fun r => !gone r.stream }))))

/-- A job's records and extents are freed (R137). -/
def freeJob (id : Nat) : Act :=
  .read fun s =>
    let gone := (s.jobStreams id).map (·.id)
    .seq (dropDecoding gone.contains)
      (.prim (.codec fun c => { c with
        jobs := c.jobs.filter fun j => j.id != id
        streams := c.streams.filter fun x => x.job != id }))

/-- The job store is emptied (R139, R377, R493). -/
def emptyJobStore : Act :=
  .seq (dropDecoding fun _ => true)
    (.seq (.prim (.codec fun c => { c with jobs := [], streams := [] })) syncJobStore)

/-- A record's CRC stands. -/
def State.recordHolds (s : State) (a n : Nat) : Bool := Memory.value s.mem (a + n - 4) 4 == crc32 (s.bytesAt a (n - 4))

/-- Every record of a job is good (R139). -/
def State.jobHolds (s : State) (j : Job) : Bool :=
  s.recordHolds (jobDirectoryAt + 64 * j.place) 64
    && (List.range (s.jobStreams j.id).length).all fun i =>
      s.recordHolds (streamTableAt + 128 * (s.firstStream j.id + i)) 128

/-- The check of the directory after a passed retention check (R139). -/
def recheckJobs : Act :=
  .read fun s =>
    let bad := s.codec.jobs.filter fun j => !s.jobHolds j
    seqs [
      each bad (fun j => freeJob j.id),
      when (!bad.isEmpty) (raise 199),
      .prim (.codec fun c => { c with jobs := c.jobs.map fun j => if j.state = 1 then { j with state := 3 } else j }),
      mirrorDirectory ]

/-- A layer's active content or pending commit names a job (R137, R187). -/
def State.jobNamed (s : State) (id : Nat) : Bool :=
  let names := fun (d : Desc) => !d.blank && d.job == id
  s.comp.layers.any fun l => (l.active.any names) || l.pending.any fun p => names p.1

/-- JobDelete (R137). -/
def effJobDelete : Effect := fun s w =>
  if (s.job? w.val).isNone then refuse abRange
  else if s.jobNamed w.val then refuse abMode
  else accept (.seq (freeJob w.val) mirrorDirectory)

/-- A job is deleted. -/
def execJobDelete (t : Nat) (w : Wr) (s : State) : Host.Outcome State Fault Refusal :=
  perform t (writeBy 0x2401 6 effJobDelete w) s

end Sys2Proof.Machine
end

