-- ==== Sys2Proof/Machine/Flows.lean ====
section
/-! DEFINITION. Sys2Proof/Machine/Flows.lean: ingest flows as datagrams go out on them (R400, R401, R405,
R407) and the input spool chains of streamed streams (R157, R159, R160, R404). -/

namespace Sys2Proof.Machine

/-- The entry that says which port or flow an event of 216–231 concerns (0x2E50). -/
def netEvent (n where' : Nat) : Act := .seq (put (K.NetworkEventPort + (n - 216)) where') (raise n)

/-- NetworkEventPort of a flow. -/
def flowCode (f : Nat) : Nat := if f < 64 then 0x40 + f else 0x80 + (f - 64)

/-- A flow. -/
def State.flow (s : State) (f : Nat) : Flow := s.net.flows.getD f {}

/-- FlowState of a flow (0x2E11). -/
def State.flowState (s : State) (f : Nat) : Nat := s.reg (K.FlowState + f)

/-- Changes a flow. -/
def setFlow (f : Nat) (g : Flow → Flow) : Act := .prim (.net fun n => { n with flows := modAt n.flows f g })

/-- A flow is open or has a gap. -/
def State.flowOpen (s : State) (f : Nat) : Bool := s.flowState f == 1 || s.flowState f == 2

/-- The open flows. -/
def State.openFlows (s : State) : List Nat := (List.range 128).filter s.flowOpen

/-- A flow carries a streamed stream. -/
def State.flowStreams (s : State) (f : Nat) : Bool :=
  (s.flow f).streams.any fun id => (s.stream? id).any (·.streamed)

/-- The header of an ingest datagram (R400). -/
def ingestHeader (kind flags flow len seq offset : Nat) : List Nat :=
  leBytes 2 0x4A53 ++ [kind, flags] ++ leBytes 2 flow ++ leBytes 2 len ++ leBytes 4 seq ++ leBytes 4 0
    ++ leBytes 8 offset ++ leBytes 8 0

/-- Sends a UDP datagram by its next hop, with TTL 64 and unfragmented (R397). -/
def sendUdp (h : Host4) (data : List Nat) : Act :=
  .read fun s =>
    match s.nextHop h.nic h.ip with
    | some via => send (.udp h via data)
    | none => .skip

/-- Sends an ingest datagram to where the flow's latest Data came from (R401). -/
def sendIngest (f kind flags seq offset : Nat) (payload : List Nat) : Act :=
  .read fun s => sendUdp (s.flow f).host (ingestHeader kind flags (f % 64) payload.length seq offset ++ payload)

/-- Bytes of the reorder buffer in use (R402). -/
def State.reorderUsed (s : State) : Nat := ((s.net.flows.flatMap (·.held)).map (·.data.length)).sum

/-- Input spool buffers not in a chain (R404). -/
def State.freeBuffers (s : State) : List Nat :=
  let used := s.codec.chains.flatMap fun c => c.bufs.map (·.1)
  (List.range (s.reg K.IngestSpoolBuffers)).filter fun b => !used.contains b

/-- CreditOffset of a flow (R405): the offset taken and its share of the free reorder buffer, and, on a flow
that carries streamed streams, no more than its share of the free spool buffers (notes/assumptions/25.md). -/
def State.creditOf (s : State) (f : Nat) : Nat :=
  let share := fun (n : Nat) (flows : List Nat) => n / max 1 flows.length
  let reorder := share (0x4000000 - s.reorderUsed) s.openFlows
  let spool := share (s.freeBuffers.length * 65536) (s.openFlows.filter s.flowStreams)
  (s.flow f).taken + if s.flowStreams f then min reorder spool else reorder

/-- Sends an Ack with credit (R405). -/
def sendAck (f : Nat) (final : Bool) : Act :=
  .read fun s =>
    .seq (sendIngest f 2 (if final then 8 else 0) (s.flow f).next (s.creditOf f) [])
      (setFlow f fun x => { x with credit := some (s.creditOf f), sinceAck := 0 })

/-- The flow that carries a stream. -/
def State.flowOf (s : State) (stream : Nat) : Option Nat :=
  (List.range 128).find? fun f => (s.flow f).streams.contains stream

/-- Sends a Refetch (R407). -/
def sendRefetch (r : Refetch) : Act :=
  .read fun s =>
    match s.flowOf r.stream with
    | some f => sendIngest f 4 0 0 0 (leBytes 4 r.stream ++ leBytes 4 r.strip ++ stampBytes r.deadline)
    | none => .skip

/-- Starts a refetch of a streamed strip through the host (R407). -/
def startRefetch (stream strip : Nat) : Act :=
  .read fun s =>
    let r : Refetch := { stream := stream, strip := strip, sentAt := s.now,
                         deadline := s.ptp + s.reg K.RefetchTimeout * 65536 }
    .seq (.prim (.net fun n => { n with refetches := r :: n.refetches })) (sendRefetch r)

/-- Sends a Release (R407). -/
def sendRelease (stream strip : Nat) : Act :=
  .read fun s =>
    match s.flowOf stream with
    | some f => sendIngest f 5 0 0 0 (leBytes 4 stream ++ leBytes 4 strip)
    | none => .skip

/-- Start of the stream-state slots, the spool area and the scheduler state in the Codec Store (R160). -/
abbrev slotBase : Nat := 0x0A000000
abbrev spoolBase : Nat := 0x0A700000
abbrev schedulerBase : Nat := 0x0AD00000

/-- Where an input spool buffer and its descriptor lie (notes/assumptions/13.md). -/
def spoolAt (b : Nat) : Nat := spoolBase + 65536 * b
def spoolDescAt (b : Nat) : Nat := schedulerBase + 32 * b

/-- The 32 bytes of a spool descriptor (R157). -/
def descriptorBytes (addr size fill next flags valid : Nat) : List Nat :=
  leBytes 8 addr ++ leBytes 4 size ++ leBytes 4 fill ++ leBytes 8 next ++ [flags, 0, 0, 0] ++ leBytes 4 valid

/-- Writes the descriptors of a chain's buffers. -/
def mirrorBufs : List (Nat × Nat × Nat) → Act
  | [] => .skip
  | (b, valid, used) :: rest =>
    .seq
      (.prim (.storeBytes (spoolDescAt b)
        (descriptorBytes (spoolAt b) 65536 (8 * used)
          (match rest with
            | (n, _, _) :: _ => spoolDescAt n
            | [] => 0) 1 (8 * valid))))
      (mirrorBufs rest)

/-- A buffer consumed whole is Done (R159); it returns to the pool (R404). -/
def doneBuf (b valid : Nat) : Act :=
  .seq (.prim (.store (spoolDescAt b + 12) 4 (8 * valid))) (.prim (.store (spoolDescAt b + 24) 1 3))

/-- The chain of a stream. -/
def State.chain? (s : State) (stream : Nat) : Option Chain := s.codec.chains.find? fun c => c.stream == stream

/-- Replaces the chain of a stream. -/
def setChain (x : Chain) : Act :=
  .prim (.codec fun c => { c with chains := c.chains.map fun y => if y.stream = x.stream then x else y })

/-- Takes up to `n` bytes off the front of buffers: the buffers left, those done, the ranges taken. -/
def takeBufs : Nat → List (Nat × Nat × Nat) → List (Nat × Nat × Nat) × List (Nat × Nat) × List (Nat × Nat)
  | _, [] => ([], [], [])
  | n, (b, valid, used) :: rest =>
    if n = 0 then ((b, valid, used) :: rest, [], [])
    else if n < valid - used then ((b, valid, used + n) :: rest, [], [(spoolAt b + used, n)])
    else
      let x := takeBufs (n - (valid - used)) rest
      (x.1, (b, valid) :: x.2.1, (spoolAt b + used, valid - used) :: x.2.2)

/-- Fills waiting bytes into buffers: the last one's room first, then free ones (R404). -/
def fillBufs : List Nat → List (Nat × Nat × Nat) → List Nat → List (Nat × Nat × Nat) × List Nat × List (Nat × List Nat)
  | free, bufs, wait =>
    match bufs.reverse with
    | (b, valid, used) :: before =>
      let n := min (65536 - valid) wait.length
      let x := more free (wait.drop n)
      (before.reverse ++ (b, valid + n, used) :: x.1, x.2.1,
        (if n = 0 then [] else [(spoolAt b + valid, wait.take n)]) ++ x.2.2)
    | [] => more free wait
where
  more : List Nat → List Nat → List (Nat × Nat × Nat) × List Nat × List (Nat × List Nat)
    | [], wait => ([], wait, [])
    | b :: free, wait =>
      if wait.isEmpty then ([], [], [])
      else
        let x := more free (wait.drop 65536)
        ((b, min 65536 wait.length, 0) :: x.1, x.2.1, (spoolAt b, wait.take 65536) :: x.2.2)

/-- Places the waiting bytes of a chain as far as buffers are free (R404). -/
def placeChain (stream : Nat) : Act :=
  .read fun s =>
    match s.chain? stream with
    | none => .skip
    | some c =>
      if c.wait.isEmpty then .skip
      else
        let x := fillBufs s.freeBuffers c.bufs c.wait
        seqs [each x.2.2 (fun w => .prim (.storeBytes w.1 w.2)), setChain { c with bufs := x.1, wait := x.2.1 },
          mirrorBufs x.1]

/-- Places the waiting bytes of every chain. -/
def placeChains : Act := .read fun s => each s.codec.chains fun c => placeChain c.stream

/-- Takes the bytes to be thrown away off a chain, as far as they have been placed. -/
def drainChain (stream : Nat) : Act :=
  .read fun s =>
    match s.chain? stream with
    | none => .skip
    | some c =>
      let x := takeBufs c.drop c.bufs
      let n := (x.2.2.map (·.2)).sum
      seqs [each x.2.1 (fun b => doneBuf b.1 b.2), setChain { c with bufs := x.1, drop := c.drop - n },
        mirrorBufs x.1, placeChains]

/-- The bytes a lane can take of the strip at the front of a chain, and the chain after (R159). -/
def State.takeStrip (s : State) (c : Chain) : List Nat × List (Nat × Nat) × Chain :=
  match c.strips with
  | [] => ([], [], c)
  | (idx, left) :: rest =>
    let x := takeBufs (if c.drop = 0 then left else 0) c.bufs
    let bytes := x.2.2.flatMap fun r => s.bytesAt r.1 r.2
    (bytes, x.2.1, { c with bufs := x.1, strips := (idx, left - bytes.length) :: rest })

/-- The strip at the front of a chain leaves it; what is left of it is thrown away. -/
def popStrip (stream : Nat) : Act :=
  .read fun s =>
    match s.chain? stream with
    | some c =>
      (match c.strips with
        | (_, left) :: rest => .seq (setChain { c with strips := rest, drop := c.drop + left }) (drainChain stream)
        | [] => .skip)
    | none => .skip

end Sys2Proof.Machine
end

