-- ==== Sys2Proof/Machine/Jls.lean ====
section
/-! DEFINITION. Sys2Proof/Machine/Jls.lean: JPEG-LS line coding within the limits of R148 (R144–R150),
with the lane clocks of R153. The coding is that of ISO/IEC 14495-1, as R145 and R148 say. Types are in
Machine/State.lean. -/

namespace Sys2Proof.Machine

/-- MAXVAL (R148). -/
def JlsParams.maxval (p : JlsParams) : Nat := 2 ^ p.bits - 1

/-- RANGE of the standard. -/
def JlsParams.range (p : JlsParams) : Nat := (p.maxval + 2 * p.near) / (2 * p.near + 1) + 1

/-- ceil(log2 n) for n up to 2^16. -/
def ceilLog2 (n : Nat) : Nat := ((List.range 17).find? fun k => n ≤ 2 ^ k).getD 17

/-- qbpp of the standard. -/
def JlsParams.qbpp (p : JlsParams) : Nat := ceilLog2 p.range

/-- LIMIT of the standard. -/
def JlsParams.limit (p : JlsParams) : Nat := 2 * (p.bits + max 8 p.bits)

/-- CLAMP of the standard, C.2.4.1.1.1. -/
def jlsClamp (maxval i j : Nat) : Nat := if maxval < i || i < j then j else i

/-- The default thresholds (R148). -/
def defaultThresholds (maxval near : Nat) : Nat × Nat × Nat :=
  let f := (min maxval 4095 + 128) / 256
  let t1 := jlsClamp maxval (f + 2 + 3 * near) (near + 1)
  let t2 := jlsClamp maxval (4 * f + 3 + 5 * near) t1
  (t1, t2, jlsClamp maxval (17 * f + 4 + 7 * near) t2)

/-- An LSE type 1 segment that R148 accepts: its thresholds and RESET, a zero meaning the default. -/
def lseParams (seg : List Nat) (bits near : Nat) : Option (Nat × Nat × Nat × Nat) :=
  let maxval := 2 ^ bits - 1
  let d := defaultThresholds maxval near
  let pick := fun (v dflt : Nat) => if v = 0 then dflt else v
  let t1 := pick (fieldBE seg 7 2) d.1
  let t2 := pick (fieldBE seg 9 2) d.2.1
  let t3 := pick (fieldBE seg 11 2) d.2.2
  let rst := pick (fieldBE seg 13 2) 64
  if fieldBE seg 0 2 = 0xFFF8 ∧ fieldBE seg 2 2 = 13 ∧ seg.getD 4 0 = 1 ∧ fieldBE seg 5 2 = maxval
      ∧ near + 1 ≤ t1 ∧ t1 ≤ t2 ∧ t2 ≤ t3 ∧ t3 ≤ maxval ∧ 3 ≤ rst ∧ rst ≤ max 255 maxval then
    some (t1, t2, t3, rst)
  else none

/-- The state at the start of a scan (R148). -/
def JlsParams.fresh (p : JlsParams) (width : Nat) : JlsState :=
  { ctx := List.replicate 367 { a := max 2 ((p.range + 32) / 64), b := 0, c := 0, n := 1 }
    run := 0
    ref := List.replicate width 0
    corner := 0 }

/-- J[0..31] of the standard. -/
def jlsJ (i : Nat) : Nat :=
  [0, 0, 0, 0, 1, 1, 1, 1, 2, 2, 2, 2, 3, 3, 3, 3, 4, 4, 5, 5, 6, 6, 7, 7, 8, 9, 10, 11, 12, 13, 14, 15].getD i 15

/-- A gradient's region, −4 to 4. -/
def JlsParams.region (p : JlsParams) (d : Int) : Int :=
  let m := d.natAbs
  let q : Int := if p.t3 ≤ m then 4 else if p.t2 ≤ m then 3 else if p.t1 ≤ m then 2
    else if p.near < m then 1 else 0
  if d < 0 then -q else q

/-- The median edge detector. -/
def medPredict (ra rb rc : Int) : Int :=
  if max ra rb ≤ rc then min ra rb else if rc ≤ min ra rb then max ra rb else ra + rb - rc

/-- The Golomb parameter: the least k with n·2^k ≥ a. -/
def golombK (n a : Nat) : Nat := ((List.range 32).find? fun k => a ≤ n * 2 ^ k).getD 32

/-- Quantises a prediction error for near-lossless coding. -/
def JlsParams.quantise (p : JlsParams) (e : Int) : Int :=
  let d : Int := 2 * p.near + 1
  if 0 < e then (e + p.near) / d else -((p.near - e) / d)

/-- Reduces an error modulo RANGE. -/
def JlsParams.reduce (p : JlsParams) (e : Int) : Int :=
  let e1 := if e < 0 then e + p.range else e
  if ((p.range : Int) + 1) / 2 ≤ e1 then e1 - p.range else e1

/-- Reconstructs a sample from its prediction and its signed, quantised error. -/
def JlsParams.rebuild (p : JlsParams) (px e : Int) : Nat :=
  let d : Int := 2 * p.near + 1
  let x := px + e * d
  let y := if x < -(p.near : Int) then x + p.range * d
    else if (p.maxval + p.near : Int) < x then x - p.range * d else x
  clampNat p.maxval y

/-- Context update after a regular sample. -/
def JlsParams.update (p : JlsParams) (c : JlsCtx) (e : Int) : JlsCtx :=
  let b0 := c.b + e * (2 * p.near + 1)
  let a0 := c.a + e.natAbs
  let half := c.n == p.reset
  let b1 := if half then (if 0 ≤ b0 then b0 / 2 else -((1 - b0) / 2)) else b0
  let a1 := if half then a0 / 2 else a0
  let n1 : Nat := (if half then c.n / 2 else c.n) + 1
  if b1 ≤ -(n1 : Int) then
    { a := a1, b := max (b1 + n1) (1 - (n1 : Int)), c := max (-128) (c.c - 1), n := n1 }
  else if 0 < b1 then { a := a1, b := min (b1 - n1) 0, c := min 127 (c.c + 1), n := n1 }
  else { a := a1, b := b1, c := c.c, n := n1 }

/-- Context update after a run interruption sample; Nn stands in place of C (R151). -/
def JlsParams.updateRun (p : JlsParams) (c : JlsCtx) (e : Int) (em ritype : Nat) : JlsCtx :=
  let nn := c.c + (if e < 0 then 1 else 0)
  let a0 := c.a + (em + 1 - ritype) / 2
  if c.n = p.reset then { a := a0 / 2, b := 0, c := nn / 2, n := c.n / 2 + 1 }
  else { a := a0, b := 0, c := nn, n := c.n + 1 }

/-- Where a line stands: Ra, Rc, the part of the reference line from the next sample on, the samples
done (last first), the clocks of R153, the context of the previous sample. -/
def JlsLine.start (st : JlsState) : JlsLine :=
  { st := st, ra := st.ref.headD 0, rc := st.corner, rest := st.ref, done := [], clocks := 8, last := none }

/-- The state after a whole line: the reference line, and the corner for the next (Ra at its start). -/
def JlsLine.finish (l : JlsLine) : JlsState :=
  { l.st with ref := l.done.reverse, corner := l.st.ref.headD 0 }

/-- A sample is appended. -/
def JlsLine.push (l : JlsLine) (x clocks : Nat) (last : Option Nat) : JlsLine :=
  { l with ra := x, rc := l.rest.headD 0, rest := l.rest.tail, done := x :: l.done,
           clocks := l.clocks + clocks, last := last }

/-- `n` samples equal to Ra are appended, as far as the line goes. -/
def JlsLine.pushRun : Nat → JlsLine → JlsLine
  | 0, l => l
  | n + 1, l => JlsLine.pushRun n (l.push l.ra 1 none)

/-- The three gradients at the next sample. -/
def JlsLine.gradients (l : JlsLine) : Int × Int × Int :=
  let rb : Int := l.rest.headD 0
  let rd : Int := l.rest.tail.headD (l.rest.headD 0)
  (rd - rb, rb - l.rc, (l.rc : Int) - l.ra)

/-- The next sample starts a run (or an empty one). -/
def JlsLine.flat (p : JlsParams) (l : JlsLine) : Bool :=
  let g := l.gradients
  g.1.natAbs ≤ p.near && g.2.1.natAbs ≤ p.near && g.2.2.natAbs ≤ p.near

/-- Context number and sign at the next sample, outside run mode. -/
def JlsLine.context (p : JlsParams) (l : JlsLine) : Nat × Int :=
  let g := l.gradients
  let q := 81 * p.region g.1 + 9 * p.region g.2.1 + p.region g.2.2
  (q.natAbs, if q < 0 then -1 else 1)

/-- Replaces a context. -/
def JlsState.setCtx (st : JlsState) (q : Nat) (c : JlsCtx) : JlsState := { st with ctx := st.ctx.set q c }

/-- A context. -/
def JlsState.ctxAt (st : JlsState) (q : Nat) : JlsCtx := st.ctx.getD q { a := 2, b := 0, c := 0, n := 1 }

/-- RUNindex one up. -/
def JlsState.runUp (st : JlsState) : JlsState := { st with run := min 31 (st.run + 1) }

/-- RUNindex one down. -/
def JlsState.runDown (st : JlsState) : JlsState := { st with run := st.run - 1 }

/-- The corrected prediction at the next sample. -/
def JlsLine.predict (p : JlsParams) (l : JlsLine) (c : JlsCtx) (sign : Int) : Int :=
  clampInt 0 p.maxval (medPredict l.ra (l.rest.headD 0) l.rc + sign * c.c)

/-- The error mapping of regular mode uses the alternative order. -/
def jlsAltMap (p : JlsParams) (c : JlsCtx) (k : Nat) : Bool := p.near == 0 && k == 0 && 2 * c.b ≤ -(c.n : Int)

/-- Run interruption: type, prediction and sign. -/
def JlsLine.interrupt (p : JlsParams) (l : JlsLine) : Nat × Int × Int :=
  let rb : Int := l.rest.headD 0
  if ((l.ra : Int) - rb).natAbs ≤ p.near then (1, l.ra, 1)
  else (0, rb, if rb < l.ra then -1 else 1)

/-- Golomb parameter of a run interruption context. -/
def interruptK (c : JlsCtx) (ritype : Nat) : Nat := golombK c.n (c.a + if ritype = 1 then c.n / 2 else 0)

/- Decoding. -/

/-- The bits of bytes, most significant first (R145). -/
def bitsMsb (l : List Nat) : List Bool :=
  l.flatMap fun b => (List.range 8).map fun i => bit b (7 - i)

/-- The value of `n` bits, and the rest; none where they run out. -/
def takeBits : Nat → Nat → List Bool → Option (Nat × List Bool)
  | 0, acc, bs => some (acc, bs)
  | _ + 1, _, [] => none
  | n + 1, acc, b :: bs => takeBits n (2 * acc + if b then 1 else 0) bs

/-- Counts zeros up to the next one bit, at most `most`. -/
def takeZeros : Nat → List Bool → Option (Nat × List Bool)
  | _, [] => none
  | _, true :: bs => some (0, bs)
  | 0, false :: _ => none
  | most + 1, false :: bs => (takeZeros most bs).map fun x => (x.1 + 1, x.2)

/-- A limited-length Golomb code; none for one longer than the limit, or cut (R161 reason 2). -/
def takeGolomb (p : JlsParams) (k limit : Nat) (bs : List Bool) : Option (Nat × List Bool) :=
  let most := limit - p.qbpp - 1
  match takeZeros most bs with
  | none => none
  | some (z, r) =>
    if z < most then (takeBits k 0 r).map fun x => (z * 2 ^ k + x.1, x.2)
    else (takeBits p.qbpp 0 r).map fun x => (x.1 + 1, x.2)

/-- Decodes one regular sample. -/
def decodeRegular (p : JlsParams) (l : JlsLine) (bs : List Bool) : Option (JlsLine × List Bool) :=
  let qs := l.context p
  let c := l.st.ctxAt qs.1
  let k := golombK c.n c.a
  match takeGolomb p k p.limit bs with
  | none => none
  | some (m, r) =>
    let e : Int :=
      if jlsAltMap p c k then (if m % 2 = 1 then ((m : Int) - 1) / 2 else -((m : Int) / 2) - 1)
      else if m % 2 = 0 then (m : Int) / 2 else -(((m : Int) + 1) / 2)
    let x := p.rebuild (l.predict p c qs.2) (qs.2 * e)
    let l1 := { l with st := l.st.setCtx qs.1 (p.update c e) }
    some (l1.push x (if l.last = some qs.1 then 2 else 1) (some qs.1), r)

/-- Decodes a run interruption sample. -/
def decodeInterrupt (p : JlsParams) (l : JlsLine) (bs : List Bool) : Option (JlsLine × List Bool) :=
  let i := l.interrupt p
  let q := 365 + i.1
  let c := l.st.ctxAt q
  let k := interruptK c i.1
  match takeGolomb p k (p.limit - jlsJ l.st.run - 1) bs with
  | none => none
  | some (em, r) =>
    let t := em + i.1
    let m := t % 2
    let mag : Int := ((t + m) / 2 : Nat)
    let neg := (k != 0 || decide ((c.n : Int) ≤ 2 * c.c)) == (m == 1)
    let e := if neg then -mag else mag
    let x := p.rebuild i.2.1 (i.2.2 * e)
    let l1 := { l with st := (l.st.setCtx q (p.updateRun c e em i.1)).runDown }
    some (l1.push x 2 none, r)

/-- Decodes the code of a run and, unless the line ends with it, the interruption sample. -/
def decodeRun (p : JlsParams) : Nat → JlsLine → List Bool → Option (JlsLine × List Bool)
  | 0, _, _ => none
  | _ + 1, _, [] => none
  | n + 1, l, true :: bs =>
    let want := 2 ^ jlsJ l.st.run
    let left := l.rest.length
    let l1 := l.pushRun (min want left)
    if left < want then some (l1, bs)
    else
      let l2 := { l1 with st := l1.st.runUp }
      if left = want then some (l2, bs) else decodeRun p n l2 bs
  | _ + 1, l, false :: bs =>
    match takeBits (jlsJ l.st.run) 0 bs with
    | none => none
    | some (len, r) => if l.rest.length ≤ len then none else decodeInterrupt p (l.pushRun len) r

/-- Decodes the samples of one line. -/
def decodeSamples (p : JlsParams) : Nat → JlsLine → List Bool → Option (JlsLine × List Bool)
  | 0, l, bs => if l.rest.isEmpty then some (l, bs) else none
  | n + 1, l, bs =>
    if l.rest.isEmpty then some (l, bs)
    else
      match (if l.flat p then decodeRun p (l.rest.length + 1) l bs else decodeRegular p l bs) with
      | none => none
      | some (l1, r) => decodeSamples p n l1 r

/-- Decodes a coded line: none for a JPEG-LS error, pad bits included (R145, R161 reason 2). -/
def decodeCoded (p : JlsParams) (st : JlsState) (data : List Nat) : Option JlsLine :=
  match decodeSamples p st.ref.length (JlsLine.start st) (bitsMsb data) with
  | none => none
  | some (l, pad) => if pad.length ≤ 7 && pad.all (! ·) then some l else none

/-- Bytes of a raw line (R144). -/
def rawBytes (width bits : Nat) : Nat := (width * bits + 7) / 8

/-- The samples of a raw line (R144). -/
def decodeRaw (width b : Nat) (data : List Nat) : List Nat :=
  let v := leNat data
  (List.range width).map fun i => bits v (i * b) b

/-- The state after a raw line: contexts and run index stand, its samples are the reference (R146). -/
def JlsState.afterRaw (st : JlsState) (line : List Nat) : JlsState :=
  { st with ref := line, corner := st.ref.headD 0 }

/- Encoding. -/

/-- The `n` bits of a value, most significant first. -/
def putBits (n v : Nat) : List Bool := (List.range n).map fun i => bit v (n - 1 - i)

/-- A limited-length Golomb code. -/
def putGolomb (p : JlsParams) (k limit m : Nat) : List Bool :=
  let most := limit - p.qbpp - 1
  if m / 2 ^ k < most then List.replicate (m / 2 ^ k) false ++ [true] ++ putBits k m
  else List.replicate most false ++ [true] ++ putBits p.qbpp (m - 1)

/-- Encodes one regular sample: the line after it and its code. -/
def encodeRegular (p : JlsParams) (l : JlsLine) (x : Nat) : JlsLine × List Bool :=
  let qs := l.context p
  let c := l.st.ctxAt qs.1
  let k := golombK c.n c.a
  let px := l.predict p c qs.2
  let q := p.quantise (qs.2 * ((x : Int) - px))
  let rx := p.rebuild px (qs.2 * q)
  let e := p.reduce q
  let m : Int := if jlsAltMap p c k then (if 0 ≤ e then 2 * e + 1 else -2 * (e + 1))
    else if 0 ≤ e then 2 * e else -2 * e - 1
  let l1 := { l with st := l.st.setCtx qs.1 (p.update c e) }
  (l1.push rx (if l.last = some qs.1 then 2 else 1) (some qs.1), putGolomb p k p.limit m.toNat)

/-- Encodes a run interruption sample. -/
def encodeInterrupt (p : JlsParams) (l : JlsLine) (x : Nat) : JlsLine × List Bool :=
  let i := l.interrupt p
  let q := 365 + i.1
  let c := l.st.ctxAt q
  let k := interruptK c i.1
  let qe := p.quantise (i.2.2 * ((x : Int) - i.2.1))
  let rx := p.rebuild i.2.1 (i.2.2 * qe)
  let e := p.reduce qe
  let m : Nat :=
    if (k == 0 && decide (0 < e) && decide (2 * c.c < c.n)) || (decide (e < 0) && decide ((c.n : Int) ≤ 2 * c.c))
        || (decide (e < 0) && k != 0) then 1 else 0
  let em := 2 * e.natAbs - i.1 - m
  let l1 := { l with st := (l.st.setCtx q (p.updateRun c e em i.1)).runDown }
  (l1.push rx 2 none, putGolomb p k (p.limit - jlsJ l.st.run - 1) em)

/-- Encodes the length of a run; `eol` says that the line ends with it. -/
def encodeRunLength : Nat → JlsState → Nat → Bool → JlsState × List Bool
  | 0, st, _, _ => (st, [])
  | n + 1, st, len, eol =>
    if 2 ^ jlsJ st.run ≤ len then
      let x := encodeRunLength n st.runUp (len - 2 ^ jlsJ st.run) eol
      (x.1, true :: x.2)
    else if eol then (st, if len = 0 then [] else [true])
    else (st, false :: putBits (jlsJ st.run) len)

/-- Encodes the samples of a line. -/
def encodeSamples (p : JlsParams) : Nat → JlsLine → List Nat → JlsLine × List Bool
  | 0, l, _ => (l, [])
  | _ + 1, l, [] => (l, [])
  | n + 1, l, x :: xs =>
    if l.flat p then
      let len := ((x :: xs).takeWhile fun (v : Nat) => decide (((v : Int) - l.ra).natAbs ≤ p.near)).length
      let rc := encodeRunLength (len + 1) l.st len ((x :: xs).length == len)
      let l1 := ({ l with st := rc.1 } : JlsLine).pushRun len
      match (x :: xs).drop len with
      | [] => (l1, rc.2)
      | y :: ys =>
        let i := encodeInterrupt p l1 y
        let r := encodeSamples p n i.1 ys
        (r.1, rc.2 ++ i.2 ++ r.2)
    else
      let i := encodeRegular p l x
      let r := encodeSamples p n i.1 xs
      (r.1, i.2 ++ r.2)

/-- Bytes of bits, most significant first, padded with zero bits (R145). -/
def bytesMsb : Nat → List Bool → List Nat
  | 0, _ => []
  | n + 1, bs =>
    if bs.isEmpty then []
    else ((List.range 8).foldl (fun acc i => 2 * acc + if bs.getD i false then 1 else 0) 0) :: bytesMsb n (bs.drop 8)

/-- The bytes of a raw line (R144). -/
def packRaw (width b : Nat) (line : List Nat) : List Nat :=
  leBytes (rawBytes width b) ((line.zipIdx.map fun p => p.1 % 2 ^ b * 2 ^ (p.2 * b)).sum)

/-- A line as a 3.1 writer codes it (R146): the record with its line word (R143), the reconstructed
samples, the state after it, its clocks and whether it is raw. -/
def encodeLine (p : JlsParams) (st : JlsState) (line : List Nat) : CodedLine :=
  let width := line.length
  let e := encodeSamples p width (JlsLine.start st) line
  let coded := bytesMsb e.2.length e.2
  let raw := packRaw width p.bits line
  if raw.length < coded.length then
    { bytes := leBytes 2 (2 ^ 15 + raw.length) ++ raw, samples := line, st := st.afterRaw line,
      clocks := 8 + width, raw := true }
  else
    { bytes := leBytes 2 coded.length ++ coded, samples := e.1.done.reverse, st := e.1.finish,
      clocks := e.1.clocks, raw := false }

end Sys2Proof.Machine
end

