-- ==== Sys2Proof/Machine/Codec.lean ====
section
/-! DEFINITION. Sys2Proof/Machine/Codec.lean: decode lanes, state slots, strip checks, refetch, lost history
(R149–R154, R159, R161–R165). -/

namespace Sys2Proof.Machine

/-- The coding parameters of a stream (R148). -/
def Stream.params (x : Stream) : JlsParams :=
  let d := defaultThresholds (2 ^ x.bits - 1) x.near
  let t := if bit (field x.hdr 38 1) 0 then (lseParams ((x.hdr.drop 40).take 15) x.bits x.near).getD (d.1, d.2.1, d.2.2, 64)
    else (d.1, d.2.1, d.2.2, 64)
  { bits := x.bits, near := x.near, t1 := t.1, t2 := t.2.1, t3 := t.2.2.1, reset := t.2.2.2 }

/-- Address of a state slot (R151). -/
def slotAt (n : Nat) : Nat := slotBase + 20480 * n

/-- The 20,480 bytes of a stream-state record (R151). -/
def slotRecord (stream next line width b near : Nat) (lost : Bool) (st : JlsState) : List Nat :=
  let head := leBytes 4 stream ++ leBytes 4 next ++ leBytes 4 line ++ leBytes 2 width
    ++ [b, near, st.run, if lost then 3 else 1] ++ leBytes 2 0
  let body := (st.ctx.flatMap fun c =>
      leBytes 4 c.a ++ leBytes 2 (rawOf 2 c.b) ++ leBytes 1 (rawOf 1 c.c) ++ leBytes 1 c.n)
    ++ leBytes 1096 0 ++ ((st.ref ++ List.replicate (8192 - st.ref.length) 0).flatMap (leBytes 2))
  head ++ leBytes 4 (crc32 (head ++ body)) ++ leBytes 40 0 ++ body

/-- Writes a slot; the stream's corner sample goes with it (notes/assumptions/23.md). -/
def writeSlot (n stream next line : Nat) (p : JlsParams) (st : JlsState) (lost : Bool) : Act :=
  seqs [
    .prim (.storeBytes (slotAt n) (slotRecord stream next line st.ref.length p.bits p.near lost st)),
    .prim (.codec fun c => { c with corners := SMap.put c.corners n st.corner }),
    bumpVersion 0x5402 ]

/-- A slot restores for a stream (R152). -/
def State.slotHolds (s : State) (n stream : Nat) : Bool :=
  let l := s.bytesAt (slotAt n) 20480
  bit (l.getD 17 0) 0 && field l 0 4 == stream && field l 20 4 == crc32 (l.take 20 ++ l.drop 64)

/-- The history a slot holds (R151). -/
def State.slotState (s : State) (n : Nat) : JlsState :=
  let l := s.bytesAt (slotAt n) 20480
  { ctx := (List.range 367).map fun i =>
      { a := field l (64 + 8 * i) 4, b := signedOf 2 (field l (68 + 8 * i) 2),
        c := signedOf 1 (field l (70 + 8 * i) 1), n := field l (71 + 8 * i) 1 }
    run := l.getD 16 0
    ref := (List.range (field l 12 2)).map fun i => field l (4096 + 2 * i) 2
    corner := (SMap.find s.codec.corners n).getD 0 }

/-- NextStripIndex and NextLine of a slot. -/
def State.slotNext (s : State) (n : Nat) : Nat × Nat :=
  (Memory.value s.mem (slotAt n + 4) 4, Memory.value s.mem (slotAt n + 8) 4)

/-- What the lines of a strip come to: samples, clocks at each line's end, whether raw; the state and clocks
at the end; the verdict, none where bytes are wanting. -/
structure Decoded where
  lines : List (List Nat × Nat × Bool)
  st : JlsState
  clocks : Nat
  verdict : Option Nat

/-- Decodes the line records of a payload (R143–R146, R161 step 2). `whole` says that all its bytes are
there. -/
def decodeLines (p : JlsParams) (v31 whole : Bool) : Nat → JlsState → Nat → List Nat → Decoded
  | 0, st, k, bs => ⟨[], st, k, if whole then (if bs.isEmpty then some 0 else some 3) else none⟩
  | n + 1, st, k, bs =>
    let word := field bs 0 2
    let len := word % 2 ^ 15
    let raw := bit word 15
    let full := rawBytes st.ref.length p.bits
    let data := (bs.drop 2).take len
    let stop := fun (v : Option Nat) => (⟨[], st, k, v⟩ : Decoded)
    if bs.length < 2 then stop (if whole then some 3 else none)
    else if (raw && (!v31 || len != full)) || (!raw && v31 && full < len) then stop (some 3)
    else if bs.length < 2 + len then stop (if whole then some 3 else none)
    else if raw then
      let line := decodeRaw st.ref.length p.bits data
      let r := decodeLines p v31 whole n (st.afterRaw line) (k + 8 + st.ref.length) (bs.drop (2 + len))
      { r with lines := (line, k + 8 + st.ref.length, true) :: r.lines }
    else
      match decodeCoded p st data with
      | none => stop (some 2)
      | some l =>
        let r := decodeLines p v31 whole n l.finish (k + l.clocks) (bs.drop (2 + len))
        { r with lines := (l.done.reverse, k + l.clocks, false) :: r.lines }

/-- CRC over decoded samples (R147). -/
def sampleCrc (lines : List (List Nat)) : Nat := crc32 (lines.flatten.flatMap (leBytes 2))

/-- Changes the decoding record of a stream. -/
def setDec (id : Nat) (f : DecStream → DecStream) : Act :=
  .prim (.codec fun c => { c with decs := c.decs.map fun d => if d.id = id then f d else d })

/-- Changes a lane; its entries follow. -/
def setLane (n : Nat) (f : Lane → Lane) : Act :=
  .seq (.prim (.codec fun c => { c with lanes := modAt c.lanes n f })) (syncLane n)

/-- A lane. -/
def State.lane (s : State) (n : Nat) : Lane := s.codec.lanes.getD n {}

/-- A lane is retired, between strips (R154). -/
def retireLaneNow (n : Nat) : Act :=
  seqs [
    setLane n fun l => { l with retired := true, retiring := false, live := none },
    .read fun s => put K.DecodeLanesWorking (s.reg K.DecodeLanesWorking - 1),
    .read fun s => put K.DecodeCapacity (s.reg K.DecodeCapacity - 625),
    raise 44 ]

/-- A lane at its fault threshold (R154): retired now, or at the end of its strip. -/
def retireLane (n : Nat) : Act :=
  .read fun s =>
    let l := s.lane n
    if l.retired then .skip
    else if l.work.isSome then setLane n fun l => { l with retiring := true }
    else retireLaneNow n

/-- A lane is done with its strip; a retirement that waited is made. -/
def leaveLane (n : Nat) (live : Option (Nat × JlsState)) : Act :=
  .seq (setLane n fun l => { l with work := none, live := live })
    (.read fun s => when (s.lane n).retiring (retireLaneNow n))

/-- DecodeBehind (R164): copies in flight in which the strip feeds a band already decided to print. -/
def decodeBehind (stream pass strip : Nat) : Act :=
  .read fun s =>
    match s.stream? stream with
    | none => .skip
    | some x =>
      let hit := s.inFlight.filter fun c =>
        c.bands.any fun b => b.1 == x.ink && !b.2.2 && (s.feeding c x.ink b.2.1).contains (stream, pass, strip)
      when (!hit.isEmpty)
        (seqs [raise 42, addTo K.DecodeBehindCount 4 1, each hit (fun c => wasteCopy c.num wStrip)])

/-- HistoryLost is set, in the slot too (R165). -/
def loseHistory (stream strip : Nat) : Act :=
  .read fun s =>
    match s.dec? stream, s.stream? stream with
    | some d, some x =>
      let n := s.slotNext d.slot
      .seq (setDec stream fun d => { d with lost := true, retry := none, next := strip + 1 })
        (when (s.slotHolds d.slot stream) (writeSlot d.slot stream n.1 n.2 x.params (s.slotState d.slot) true))
    | _, _ => .skip

/-- Counters, entries and event of a failed check (R161, R164, R166). -/
def failNote (stream strip reason : Nat) : Act :=
  seqs [
    put K.LastFailedStream stream, put K.LastFailedStrip strip, put K.LastFailReason reason,
    (match reason with
      | 1 => .seq (addTo K.StripCrcFailures 4 1) (raise 32)
      | 6 => raise 40
      | 7 => .skip
      | _ => .seq (addTo K.StripDecodeFailures 4 1) (raise 33)) ]

/-- A strip fails its check (R161–R165). While strip decode drains, it is neither passed nor failed (R166). -/
def stripFails (lane stream strip pass reason : Nat) (refetch : Bool) : Act :=
  .read fun s =>
    if !s.fnOn fnDecode then .skip
    else
      let streamed := (s.stream? stream).any (·.streamed)
      .seq (failNote stream strip reason)
        (.seq (setDec stream fun d => { d with failed := (pass, strip) :: d.failed.filter (· != (pass, strip)) })
          (.seq (decodeBehind stream pass strip)
            (if reason ≤ 4 && !refetch then
              seqs [
                addTo K.StripsRefetched 4 1,
                setDec stream (fun d => { d with retry := some (strip, lane) }),
                when streamed (startRefetch stream strip),
                raise 34 ]
            else if reason = 7 then
              seqs [setDec stream (fun d => { d with next := strip + 1 }),
                setStream stream (fun x => { x with lost := x.lost + 1 }), mirrorDirectory]
            else
              seqs [loseHistory stream strip,
                when (reason ≤ 4)
                  (.seq (setStream stream fun x => { x with lost := x.lost + 1 }) mirrorDirectory)])))

/-- A streamed stream must find Flush on the strip that holds a committed SourceLineOffset (R182 code 6). -/
def State.flushDue (s : State) (x : Stream) (first count : Nat) : Bool :=
  x.streamed && match s.comp.layers[x.layer]? with
    | none => false
    | some l =>
      let at' := fun (d : Desc) => d.job == x.job && !d.blank && first ≤ d.flush && d.flush < first + count
      l.active.any at' || l.pending.any fun p => at' p.1

/-- What the strip before a strip said of it: where it begins and whether that one was short (R133). -/
def tailOf (x : Stream) (d : DecStream) (strip : Nat) : Option (Nat × Bool) :=
  if strip = 0 then some (0, false)
  else if d.next = strip then d.tail
  else (x.placed.find? fun p => p.idx + 1 == strip).map fun p => (p.first + p.count, decide (p.count < 16) && !bit p.flags 1)

/-- The header checks of R161 step 1 after presence, history and restore: 0, 3 or 4. -/
def State.headerReason (s : State) (x : Stream) (d : DecStream) (strip size : Nat) (refetch : Bool) (h : List Nat) : Nat :=
  let first := field h 12 4
  let count := field h 16 1
  let flags := field h 17 1
  let last := strip + 1 == x.strips
  let loose := refetch && x.streamed
  let broken := !loose && match tailOf x d strip with
    | some (line, short) => first != line || (short && !bit flags 0)
    | none => false
  if field h 0 2 ≠ 0x4B53 || field h 3 1 ≠ 1 || field h 28 4 ≠ crc32 (h.take 28) then 3
  else if field h 2 1 ≠ x.version then 4
  else if field h 8 4 ≠ strip || field h 18 2 ≠ 0 || 4 ≤ flags || count = 0 || 16 < count || broken
      || (strip = 0 && !bit flags 0) || (d.next ≠ strip && !refetch && !bit flags 0)
      || (x.version = 0x20 && strip ≠ 0 && bit flags 0)
      || (bit flags 1 != last) || x.srcLines < first + count || (last && first + count ≠ x.srcLines)
      || (s.flushDue x first count && !bit flags 0) || field h 20 4 + 32 ≠ size then 3
  else 0

/-- The lane goes on with its strip over the bytes it has: the header once it is there, then the lines,
which go to the compositor (R149, R153, R161). -/
def advanceLane (n : Nat) (poisoned : Bool) : Act :=
  .read fun s =>
    match (s.lane n).work with
    | none => .skip
    | some w =>
      match s.stream? w.stream, s.dec? w.stream with
      | some x, some d =>
        let stall := seqs [setLane n (fun l => { l with work := some { w with verdict := none } }), raise 37]
        let h := w.got.take 32
        let whole := w.got.length == w.size
        if w.got.length < 32 then stall
        else if s.headerReason x d w.strip w.size w.refetch h ≠ 0 then
          seqs [
            leaveLane n none,
            when x.streamed (if w.refetch then .skip else popStrip w.stream),
            when (!w.refetch) (setDec w.stream fun d => { d with tail := none }),
            stripFails n w.stream w.strip w.pass (s.headerReason x d w.strip w.size w.refetch h) w.refetch ]
        else
          let flush := bit (field h 17 1) 0
          let p := x.params
          let live := match (s.lane n).live with
            | some (id, st) => if id = w.stream && !w.refetch then some st else none
            | none => none
          let st := if flush then p.fresh x.width else live.getD (s.slotState d.slot)
          let k0 := if flush || live.isSome then 0 else 320
          let first := field h 12 4
          let r := decodeLines p (x.version == 0x31) whole (field h 16 1) st k0 (w.got.drop 32)
          let fresh := (r.lines.zipIdx.drop w.lines).map fun q =>
            ({ stream := w.stream, pass := w.pass, line := first + q.2, at' := s.now + (q.1.2.1 - w.clocks),
               samples := q.1.1, strip := w.strip } : DecLine)
          let verdict := if r.verdict = some 0 && (poisoned || sampleCrc (r.lines.map (·.1)) != field h 24 4) then some 1
            else r.verdict
          seqs [
            when (flush && w.lines == 0)
              (.seq (writeSlot d.slot w.stream w.strip first p st false) (setDec w.stream fun d => { d with lost := false })),
            .prim (.codec fun c => { c with lines := (c.lines.filter fun l =>
              !(l.stream == w.stream && l.pass == w.pass && fresh.any fun f => f.line == l.line)) ++ fresh }),
            setLane n (fun l => { l with work := some { w with
              lines := r.lines.length, clocks := r.clocks + (if verdict = some 0 then 352 else 0),
              raws := (r.lines.filter (·.2.2)).length, verdict := verdict,
              final := r.st, endLine := first + field h 16 1 } }),
            when verdict.isNone (raise 37) ]
      | _, _ => leaveLane n none

/-- The bytes of a present strip of a job-store stream (R134). -/
def State.storedStrip (s : State) (x : Stream) (strip : Nat) : Option (Nat × Nat) :=
  let e := Memory.value s.mem (x.table + 8 * strip) 8
  if x.table = 0 || x.strips ≤ strip || e = 0 then none else some (s.jobStart + e / 2 ^ 24, e % 2 ^ 24)

/-- The lowest free decode slot (R151). -/
def State.freeSlot (s : State) : Option Nat :=
  (List.range 192).find? fun n => !(s.codec.decs.any fun d => d.slot == n)

/-- A stream begins to decode: it takes a slot. -/
def openDec (stream : Nat) : Act :=
  .read fun s =>
    match s.dec? stream, s.freeSlot with
    | none, some n => .prim (.codec fun c => { c with decs := c.decs ++ [{ id := stream, slot := n }] })
    | _, _ => .skip

/-- Another lane is free for the refetch (R162). -/
def State.otherFree (s : State) (n : Nat) : Bool :=
  (List.range 32).any fun k => k != n && (s.lane k).work.isNone && !(s.lane k).retired

/-- The strip's first bytes show Flush. -/
def flushByte (l : List Nat) : Bool := bit (l.getD 17 0) 0

/-- Puts a strip on a lane, whose live state is kept or dropped. -/
def loadLane (n : Nat) (keep : Bool) (w : LaneWork) (poisoned : Bool) : Act :=
  seqs [
    .prim (.codec fun c => { c with lanes := c.lanes.map fun l => match l.live with
      | some (id, _) => if id = w.stream && !keep then { l with live := none } else l
      | none => l }),
    setLane n fun l => { l with work := some w, live := if keep then l.live else none },
    advanceLane n poisoned ]

/-- A strip is started (R149): presence, history and restore (R161 step 1), then the lane takes it. -/
def startStrip (n stream strip : Nat) : Act :=
  .read fun s =>
    match s.stream? stream, s.dec? stream with
    | some x, some d =>
      let refetch := d.retry.any fun r => r.1 == strip
      let first := (d.retry.map (·.2)).getD 0
      let again := !refetch && d.next != strip
      let pass := if again then d.pass + 1 else d.pass
      let turn : Act := when again (setDec stream fun d => { d with pass := pass, tail := none })
      let fail := fun (reason : Nat) => .seq turn (stripFails n stream strip pass reason refetch)
      let live := (s.lane n).live.any fun l => l.1 == stream
      let begin' := fun (got : List Nat) (size : Nat) (poisoned : Bool) =>
        let flush := flushByte got
        if d.lost && !flush then
          .seq (fail 7) (when (x.streamed && !refetch) (popStrip stream))
        else if !flush && !(live && !refetch) && !s.slotHolds d.slot stream then
          .seq (fail 6) (when (x.streamed && !refetch) (popStrip stream))
        else
          .seq turn (loadLane n (live && !refetch) (LaneWork.mk stream strip pass refetch got size 0 0 0 none {} 0 first) poisoned)
      if refetch && n == first && s.otherFree n then .skip
      else if x.streamed then
        match s.chain? stream with
        | none => if refetch then .skip else fail 5
        | some c =>
          if refetch then
            match c.again with
            | some (k, bytes) => if k = strip then .seq (setChain { c with again := none }) (begin' bytes bytes.length false) else .skip
            | none => .skip
          else
            match c.strips with
            | (k, size) :: _ =>
              if k ≠ strip then (if d.next = strip then fail 5 else .skip)
              else
                let y := s.takeStrip c
                seqs [each y.2.1 (fun b => doneBuf b.1 b.2), setChain y.2.2, mirrorBufs y.2.2.bufs, placeChains,
                  begin' y.1 size false]
            | [] => if d.next = strip then fail 5 else .skip
      else
        match s.storedStrip x strip with
        | none => fail 5
        | some (a, len) => begin' (s.bytesAt a len) len (s.poisoned a len)
    | _, _ => .skip
/-- The scheduler starts a strip on a lane (R149). The choice of strip and lane is the command's; one the rules
forbid changes nothing (notes/assumptions/26.md). -/
def execStripDecodeStart (t lane stream strip : Nat) (s : State) : Host.Outcome State Fault Refusal :=
  perform t (.read fun s =>
    let l := s.lane lane
    let busy := (List.range 32).any fun k => (s.lane k).work.any fun w => w.stream == stream
    let owed := ((s.dec? stream).bind (·.retry)).any fun r => r.1 != strip
    if !s.fnOn fnDecode || 32 ≤ lane || l.work.isSome || l.retired || busy || owed || !s.flag K.DramTrained then .skip
    else .seq (openDec stream) (startStrip lane stream strip)) s

/-- A strip passes its check (R151, R154, R162, R407). -/
def stripPasses (n : Nat) (w : LaneWork) : Act :=
  .read fun s =>
    match s.stream? w.stream, s.dec? w.stream with
    | some x, some d =>
      let short := field w.got 16 1 < 16 && !bit (field w.got 17 1) 1
      seqs [
        addTo K.StripsDecoded 8 1,
        writeSlot d.slot w.stream (w.strip + 1) w.endLine x.params w.final false,
        setDec w.stream (fun d => { d with
          next := w.strip + 1, retry := none, tail := some (w.endLine, short),
          failed := d.failed.filter (· != (w.pass, w.strip)) }),
        .prim (.codec fun c => { c with
          lanes := c.lanes.map fun l => if l.live.any (fun v => v.1 == w.stream) then { l with live := none } else l }),
        leaveLane n (some (w.stream, w.final)),
        when x.streamed (.seq
          (.prim (.net fun m => { m with refetches := m.refetches.filter fun r => !(r.stream == w.stream && r.strip == w.strip) }))
          (sendRelease w.stream w.strip)),
        when (w.refetch && n != w.first)
          (.seq (addTo (K.DecodeLaneFaults + w.first) 4 1)
            (faultOccurrence (faultSource 5 w.first) 34 (w.stream * 2 ^ 32 + w.strip) (retireLane w.first))) ]
    | _, _ => leaveLane n none

/-- A strip ends on a lane (R161 step 3). -/
def execStripDecodeEnd (t lane : Nat) (s : State) : Host.Outcome State Fault Refusal :=
  perform t (.read fun s =>
    match (s.lane lane).work with
    | none => .skip
    | some w =>
      match w.verdict with
      | none => .skip
      | some v =>
        let streamed := (s.stream? w.stream).any (·.streamed)
        let short := field w.got 16 1 < 16 && !bit (field w.got 17 1) 1
        seqs [
          addTo K.RawLinesDecoded 8 w.raws,
          when (streamed && !w.refetch) (popStrip w.stream),
          (if v = 0 then stripPasses lane w
          else
            seqs [
              leaveLane lane none,
              setDec w.stream (fun d => { d with tail := some (w.endLine, short) }),
              stripFails lane w.stream w.strip w.pass v w.refetch ]) ]) s

/-- A stalled lane reads its chain again (R159). -/
def resumeLane (n : Nat) : Act :=
  .read fun s =>
    match (s.lane n).work with
    | none => .skip
    | some w =>
      match w.verdict, s.chain? w.stream with
      | none, some c =>
        let y := s.takeStrip c
        when (!y.1.isEmpty && !w.refetch)
          (seqs [each y.2.1 (fun b => doneBuf b.1 b.2), setChain y.2.2, mirrorBufs y.2.2.bufs, placeChains,
            setLane n (fun l => { l with work := some { w with got := w.got ++ y.1 } }), advanceLane n false])
      | _, _ => .skip

/-- A stalled lane resumes once a linked buffer is ready (R159). -/
def execDecodeResume (t lane : Nat) (s : State) : Host.Outcome State Fault Refusal :=
  perform t (.read fun s => when (s.islandReady islCODEC) (resumeLane lane)) s

/-- InputSpoolResume (R159). -/
def effInputResume (n : Nat) : Effect := fun _ w => accept (when (w.val == 1) (resumeLane n))

/-- InputSpoolResume is written. -/
def execInputSpoolResume (t lane : Nat) (w : Wr) (s : State) : Host.Outcome State Fault Refusal :=
  perform t (writeBy 0x2413 (lane + 1) (effInputResume lane) w) s

end Sys2Proof.Machine
end

