-- ==== Sys2Proof/Machine/Package.lean ====
section
/-! DEFINITION. Sys2Proof/Machine/Package.lean: key slots and signed packages (R458, R461, R462). -/

namespace Sys2Proof.Machine

/-- The key slots of KeyStatus, in its order (R472). -/
def keySlots : List Nat := [0x01, 0x02, 0x03, 0x04, 0x11, 0x12, 0x13, 0x14, 0x21, 0x31, 0x32, 0x33, 0x34]

/-- The coordinate of a slot's KeyStatus. -/
def keyStatusKey (id : Nat) : Nat := K.KeyStatus + keySlots.idxOf id

/-- KeyStatus of a slot; 0 for none. -/
def State.keyStatus (s : State) (id : Nat) : Nat := if keySlots.contains id then s.reg (keyStatusKey id) else 0

/-- The slot holds a key that is not revoked. -/
def State.keyLive (s : State) (id : Nat) : Bool := bit (s.keyStatus id) 6 && !bit (s.keyStatus id) 7

/-- A signing slot of the fuses. -/
def signingSlot (id : Nat) : Bool := 0x31 ≤ id && id ≤ 0x34

/-- A role key's slot. -/
def roleSlot (id : Nat) : Bool := (1 ≤ id && id ≤ 4) || (0x11 ≤ id && id ≤ 0x14)

/-- The role a key proves (R458): 0 Operator, 1 Integrator, 2 Vendor. -/
def roleOf (id : Nat) : Nat := if id = 0x21 then 2 else if 0x11 ≤ id then 1 else 0

/-- The key of a slot. -/
def State.keyBytes (s : State) (id : Nat) : List Nat :=
  if id = 0x40 then Config.nugodarKey else ((s.sec.keys.find? fun k => k.1 == id).map (·.2)).getD []

/-- Unrevoked signing keys with usage F (R456, R459). -/
def State.firmwareKeys (s : State) : Nat :=
  ((List.range 4).filter fun i => s.keyLive (0x31 + i) && bit (s.keyStatus (0x31 + i)) 0).length

/-- The bit of KeyStatus a kind needs (R458). -/
def usageBit (kind : Nat) : Nat := if kind = 4 then 3 else if kind = 3 then 2 else if kind = 2 then 1 else 0

/-- A KeyInstall content (R459): an existing slot, a usage that fits it, reserved fields 0, a key of its
length. `pad` bytes after the key are 0. -/
def installFits (b : List Nat) : Bool :=
  let id := field b 0 1
  let usage := field b 1 1
  keySlots.contains id && id != 0x21 && field b 2 2 == 0
    && (if signingSlot id then usage < 16 && 100 ≤ b.length && (b.drop 100).all (· == 0)
        else usage == 0 && 36 ≤ b.length && (b.drop 36).all (· == 0))

/-- The key material of a KeyInstall content. -/
def installKey (b : List Nat) : List Nat := (b.drop 4).take (if signingSlot (field b 0 1) then 96 else 32)

/-- The records of a lifecycle package's payload (R461). -/
def lifecycleRecords : Nat → List Nat → List (List Nat)
  | 0, _ => []
  | n + 1, l => l.take 104 :: lifecycleRecords n (l.drop 104)

/-- The slot already holds this key. -/
def State.holdsKey (s : State) (b : List Nat) : Bool :=
  s.keyBytes (field b 0 1) == installKey b && bits (s.keyStatus (field b 0 1)) 0 4 == field b 1 1

/-- A record of a lifecycle package can act (R461, R462; notes/assumptions/28.md). -/
def State.recordFits (s : State) (r : List Nat) : Bool :=
  match field r 0 1 with
  | 1 => installFits (r.drop 1)
      && (s.keyStatus (field r 1 1) == 0 || (s.holdsKey (r.drop 1) && !bit (s.keyStatus (field r 1 1)) 7))
  | 2 => keySlots.contains (field r 1 1) && bit (s.keyStatus (field r 1 1)) 6 && (r.drop 2).all (· == 0)
  | 3 => (r.drop 1).all (· == 0)
  | _ => false

/-- The format check of R462 code 2: header, lengths, and the reserved fields of the payload. -/
def State.packageFormat (s : State) (at' size : Nat) : Bool :=
  let h := s.bytesAt at' 224
  let kind := field h 3 1
  let len := field h 12 4
  let p := s.bytesAt (at' + 224) len
  field h 0 2 == 0x4B50 && field h 2 1 == 0x10 && field h 5 3 == 0 && field h 20 12 == 0 && field h 80 48 == 0
    && 224 + len ≤ size && (kind == 1 || kind == 0x80 || field h 8 4 == 0)
    && (field h 4 1 != 0xFF || (h.drop 128).all (· == 0))
    && (match kind with
      | 1 => len ≤ 2 ^ 23
      | 0x80 => len ≤ 2 ^ 23
      | 2 => len ≤ 2 ^ 24
      | 3 => len == 16 && field p 6 2 == 0 && field p 10 6 == 0 && field p 8 2 < 2 ^ 13
      | 4 => len % 104 == 0 && (lifecycleRecords (len / 104) p).all s.recordFits
      | _ => true)

/-- The first failing check of a package of an inbox (R462), 0 for none. `want` is the kind asked for. -/
def State.packageRefusal (s : State) (at' size want : Nat) (busy : Bool) : Nat :=
  let h := s.bytesAt at' 224
  let kind := field h 3 1
  let id := field h 4 1
  let die := field h 16 4
  let life := s.reg K.LifecycleState
  let payload := s.bytesAt (at' + 224) (field h 12 4)
  if busy then 1
  else if !s.packageFormat at' size then 2
  else if kind ≠ want || (kind = 1 && life = 3) || (kind = 4 && life ≠ 2) || (kind = 0x80 && id ≠ 0x40)
      || (id = 0xFF && (life ≠ 0 || kind ≠ 1)) then 3
  else if id ≠ 0xFF && !(signingSlot id && s.keyLive id) then 4
  else if id ≠ 0xFF && !bit (s.keyStatus id) (usageBit kind) then 5
  else if (die ≠ 0 || kind = 3 || kind = 4) && die ≠ Config.dieSerial.toNat then 6
  else if s.poisoned at' (224 + field h 12 4) || (h.drop 32).take 48 ≠ sha384 payload then 7
  else if id ≠ 0xFF && !ecdsaHolds (s.keyBytes id) (sha384 (h.take 128)) ((h.drop 128).take 96) then 8
  else if kind = 1 && life = 2 && field h 8 4 < s.reg K.SecurityVersionFloor then 9
  else if kind = 3 && s.reg K.PtpState ≠ 2 && s.reg K.PtpState ≠ 4 then 10
  else if kind = 3 && field payload 0 6 ≤ ptpSec s.ptp then 11
  else 0

/-- A refused package (R462). -/
def refusePackage (code : Nat) : Act := .seq (put K.PackageRefusal code) (raise 254)

end Sys2Proof.Machine
end

