-- ==== Sys2Proof/Machine/Compositor.lean ====
section
/-! DEFINITION. Sys2Proof/Machine/Compositor.lean: composing a line (R167–R180), committing a layer
(R181–R183) and loading the protected layer (R188–R190, R194). -/

namespace Sys2Proof.Machine

/-- A key of a layer's block (R195). -/
def layerKey (k l : Nat) : Nat := k + l * 0x10 * 256

/-- A V-layer sample as a value (R170). -/
def valueV (bits' s : Nat) : Nat := let m := 2 ^ bits' - 1; (2 * s * 65535 + m) / (2 * m)

/-- A G-layer sample as a value, none where transparent (R171). -/
def valueG (bits' s : Nat) : Option Nat :=
  let m := 2 ^ bits' - 2
  if s = 0 then none else some (if m = 0 then 65535 else (2 * (s - 1) * 65535 + m) / (2 * m))

/-- One step of the blend (R172). -/
def blend (c v a : Nat) : Nat := if a = 0 then c else ((c : Int) + roundDiv (((v : Int) - c) * a) 32768).toNat

/-- The samples of source line `line` of a tile for a copy, if decoded. -/
def State.tileLine (s : State) (m : Int) (stream offset line : Nat) : Option DecLine :=
  let pass := s.passFor m stream offset
  s.codec.lines.find? fun d => d.stream == stream && d.pass == pass && d.line == line && d.at' ≤ s.now

/-- One source line of a layer on an ink: its tiles side by side. -/
def State.sourceRow (s : State) (m : Int) (d : Desc) (v : InkView) (j : Nat) : List Nat :=
  v.tiles.flatMap fun t => ((s.tileLine m t.2.2 d.offset (d.offset + j)).map (·.samples)).getD (List.replicate t.2.1 0)

/-- The across filter of one line at a column (R178), edges repeated (R176). -/
def acrossValue (row : List Nat) (v : InkView) (kernel : Nat) (u : Int) : Int :=
  let sp := split24 u
  let sum := ((kernelCoeffs kernel sp.2).map fun x =>
    x.2 * (valueV v.bits (row.getD (clampNat (v.width - 1) (sp.1 + x.1)) 0) : Int)).sum
  clampInt 0 65535 (roundDiv sum 16384)

/-- Value and coverage of a V layer at a column (R172–R178). -/
def State.valueAtV (s : State) (x : Content) (d : Desc) (v : InkView) (col y : Nat) : Nat × Nat :=
  let u := posU x.centre d v col
  let w := posW d v y
  if nearest24 u < 0 || (v.width : Int) ≤ nearest24 u || nearest24 w < 0 || (v.lines : Int) ≤ nearest24 w then (0, 0)
  else
    let sp := split24 w
    let sum := ((kernelCoeffs d.kernelY sp.2).map fun k =>
      if k.2 = 0 then 0
      else k.2 * acrossValue (s.sourceRow x.num d v (clampNat (v.lines - 1) (sp.1 + k.1))) v d.kernelX u).sum
    (clampNat 65535 (roundDiv sum 16384), d.opacity)

/-- Value and coverage of a G layer at a column (R171, R172, R178). -/
def State.valueAtG (s : State) (x : Content) (d : Desc) (v : InkView) (col y : Nat) : Nat × Nat :=
  let i := (col : Int) - d.originX
  let j := (y : Int) - d.originY
  if i < 0 || (v.width : Int) ≤ i || j < 0 || (v.lines : Int) ≤ j then (0, 0)
  else
    match valueG v.bits ((s.sourceRow x.num d v j.toNat).getD i.toNat 0) with
    | some g => (g, d.opacity)
    | none => (0, 0)

/-- A 4-bit pixel of rows of ceil(width ÷ 2) bytes (R189). -/
def pixel4 (b : List Nat) (at' width row col : Nat) : Nat :=
  bits (field b (at' + row * ceilDiv width 2 + col / 2) 1) (4 * (col % 2)) 4

/-- Fields of a P payload (R189). -/
def pFieldCount (b : List Nat) : Nat := field b 3 1
def pOriginX (b : List Nat) : Int := signedOf 4 (field b 4 4)
def pOriginY (b : List Nat) : Int := signedOf 4 (field b 8 4)
def pWidth (b : List Nat) : Nat := field b 12 2
def pHeight (b : List Nat) : Nat := field b 14 2
def pFirst (b : List Nat) : Nat := field b 16 8
def pLast (b : List Nat) : Nat := field b 24 8
def pGlyphW (b : List Nat) : Nat := field b 32 2
def pGlyphH (b : List Nat) : Nat := field b 34 2
def pGrid (b : List Nat) : Nat := field b 36 1
def pImageAt (b : List Nat) : Nat := 384 + 10 * pGlyphH b * ceilDiv (pGlyphW b) 2

/-- The glyph pixel of serial field `f` at a place of the image (R193, R194): the first non-zero one of the
digit cells that hold the place, else 0. -/
def fieldPixel (b : List Nat) (serial f : Nat) (x y : Int) : Nat :=
  let at' := 320 + 16 * f
  let fx := x - signedOf 4 (field b at' 4)
  let fy := y - signedOf 4 (field b (at' + 4) 4)
  let digits := field b (at' + 8) 1
  let pitch := field b (at' + 10) 2
  let hit := (List.range digits).map fun (d : Nat) =>
    let gx := fx - (pitch * d : Nat)
    if 0 ≤ gx && gx < pGlyphW b && 0 ≤ fy && fy < pGlyphH b then
      let digit := serial / 10 ^ (digits - 1 - d) % 10
      pixel4 b (384 + digit * pGlyphH b * ceilDiv (pGlyphW b) 2) (pGlyphW b) fy.toNat gx.toNat
    else 0
  (hit.find? (· != 0)).getD 0

/-- The index of P at a column and line (R194). -/
def indexP (b : List Nat) (serial col y : Nat) : Nat :=
  let x := (col : Int) - pOriginX b
  let r := (y : Int) - pOriginY b
  if x < 0 || (pWidth b : Int) ≤ x || r < 0 || (pHeight b : Int) ≤ r then 0
  else
    match ((List.range (pFieldCount b)).map fun f => fieldPixel b serial f x r).find? (· != 0) with
    | some i => i
    | none => pixel4 b (pImageAt b) (pWidth b) r.toNat x.toNat

/-- The tone of P's index on an ink (R189, R194). -/
def toneP (b : List Nat) (index ink : Nat) : Nat := field b (64 + 16 * index + 2 * ink) 2

/-- The composite of one nozzle column (R172). `zeroed` are the layer samples lost to a parity error (R367). -/
def State.compositeAt' (s : State) (x : Content) (ink y col : Nat) (zeroed : List Nat) : Nat :=
  let c := (List.range 8).foldl (fun c l =>
    match x.view l ink with
    | none => c
    | some (d, v) =>
      let va := if l < 4 then s.valueAtV x d v col y else s.valueAtG x d v col y
      if zeroed.contains (l * 2 ^ 20 + col) then (if l < 4 then blend c 0 va.2 else c) else blend c va.1 va.2) 0
  match x.package with
  | none => c
  | some (n, serial) =>
    match s.comp.packages.find? fun p => p.1 == n with
    | none => c
    | some (_, b) =>
      let i := if zeroed.contains (8 * 2 ^ 20 + col) then 0 else indexP b serial col y
      if i = 0 then c else blend c (toneP b i ink) 32768

/-- A content that prints nothing on an ink's line: no layer draws there and no P is in force. -/
def Content.empty (x : Content) (ink y : Nat) : Bool :=
  x.package.isNone && (List.range 8).all fun l =>
    match x.view l ink with
    | none => true
    | some (d, v) => (drawnLines l x.centre d v y).isEmpty

/-- The composite line of an ink (R168). -/
def State.compositeLine (s : State) (x : Content) (ink y : Nat) (zeroed : List Nat) : List Nat :=
  if x.empty ink y then [] else (List.range 98304).map fun col => s.compositeAt' x ink y col zeroed

/-- Every source line that the line needs is there (R180). -/
def State.sourcesReady (s : State) (x : Content) (ink y : Nat) : Bool :=
  (x.needs ink y).all fun n => (s.tileLine x.num n.1 n.2.2 n.2.1).isSome

/-- The copy takes its pass of each stream the line draws on, at first use. -/
def bindPasses (x : Content) (ink y : Nat) : Act :=
  .read fun s =>
    each (x.needs ink y) fun n => .prim (.comp fun c => { c with
      binds := if c.binds.any (fun b => b.copy == x.num && b.stream == n.1) then c.binds
        else { copy := x.num, stream := n.1, pass := s.passFor x.num n.1 n.2.2, offset := n.2.2 } :: c.binds })

/-- Decoded lines that no copy in flight draws on any more are dropped: lines of an earlier pass or strip than
the copy that last took the stream still needs. -/
def dropLines : Act :=
  .read fun s =>
    let stale := fun (d : DecLine) => s.comp.binds.any fun b => b.stream == d.stream && d.pass < b.pass
      && !(s.comp.binds.any fun b' => b'.stream == d.stream && b'.pass ≤ d.pass && (s.copy? b'.copy).any fun c => !c.done)
    .prim (.codec fun c => { c with lines := c.lines.filter fun d => !stale d })

/-- The most upstream row of an ink: the lines it has been issued of a copy. -/
def State.firedLines (s : State) (m : Int) (ink : Nat) : Nat :=
  ((s.firingRows.filter fun p => s.linkInk p.1 == ink).map fun p =>
    match (s.row p.1 p.2.1 p.2.2).next with
    | some (k, y) => if k = m then y else if k < m then 0 else 2 ^ 23
    | none => 0).foldl max 0

/-- The next line to compose of an ink: of the earliest copy in flight not yet composed whole. -/
def State.composeCopy (s : State) (ink : Nat) : Option Copy :=
  s.fire.copies.find? fun c => !c.done && !c.closed && c.composed.getD ink 0 < c.lines

/-- The compositor is past a line of a copy. -/
def composedLine (m : Int) (ink : Nat) : Act :=
  setCopy m fun c => { c with composed := modAt c.composed ink (· + 1) }

/-- The lead of a completed line over its ink's most upstream row (0x2501:05). -/
def noteLead (c : Copy) (ink y : Nat) : Act :=
  .read fun s =>
    let lead := y - s.firedLines c.num ink
    put K.MinLeadLines (min (s.reg K.MinLeadLines) (min lead 0xFFFF))

/-- Parity errors of the Line Store at this line's layer samples (R367, R369). -/
def linePari (m : Int) (zeroed : List Nat) : Act :=
  when (!zeroed.isEmpty) (.seq (each zeroed fun _ => storeParity 0) (wasteCopy m wLayer))

/-- A print line of an ink is composed once its sources are there and the staging has room (R26, R172,
R180). A line of a blanked band is passed over; a choice the rules forbid changes nothing. -/
def execComposeLine (t ink line : Nat) (parity : List Nat) (s : State) : Host.Outcome State Fault Refusal :=
  perform t (.read fun s =>
    match s.composeCopy ink with
    | none => .skip
    | some c =>
      match s.content? c.num with
      | none => .skip
      | some x =>
        let blank := c.bandBlank ink (line / 64) == some true
        let room := line < c.written.getD ink 0 + 2
          && (line < 2 || s.fire.copies.all fun o => o.num ≥ c.num || o.done || o.lines ≤ o.written.getD ink 0)
        if !s.fnOn fnComp || 8 ≤ ink || c.composed.getD ink 0 ≠ line then .skip
        else if blank then composedLine c.num ink
        else if !room || !s.sourcesReady x ink line then .skip
        else
          let out := s.compositeLine x ink line parity
          seqs [
            bindPasses x ink line,
            (if out.isEmpty then .prim (.erase (compositeLineAt ink line) 196608)
             else .prim (.storeBytes (compositeLineAt ink line) (out.flatMap (leBytes 2)))),
            linePari c.num parity,
            composedLine c.num ink,
            noteLead c ink line,
            dropLines ]) s

/-- Taps of a kernel (R177); an invalid code has none, and check 3 refuses it. -/
def tapCount (kernel : Nat) : Nat := if kernel < 4 then (kernelTaps kernel 0).length else 0

/-- The tiles of a layer on an ink abut and share their sampling (R182). -/
def tilesAbut : List Stream → Bool
  | a :: b :: rest => b.across == a.across + a.width && b.bits == a.bits && b.resX == a.resX && b.resY == a.resY
      && tilesAbut (b :: rest)
  | _ => true

/-- Source width of a layer on an ink (R182). -/
def sourceWidth (l : List Stream) : Nat := (l.map Stream.width).sum

/-- The inks on which a descriptor has streams, with them (R167). -/
def State.descStreams (s : State) (layer : Nat) (d : Desc) : List (List Stream) :=
  if d.blank then [] else ((List.range 8).map (s.layerStreams d.job layer)).filter (!·.isEmpty)

/-- What a layer contributes to R39's sums: samples per line × lpi, over the inks, of its streams. -/
def State.layerLoad (s : State) (layer : Nat) (d : Desc) : Nat :=
  ((s.descStreams layer d).flatten.map fun x => x.width * x.resY).sum

/-- The streams of a layer. -/
def State.layerCount (s : State) (layer : Nat) (d : Desc) : Nat := (s.descStreams layer d).flatten.length

/-- The content each layer will have for the load sums: its pending commit, else its active content (R182). -/
def State.plannedDescs (s : State) : List (Nat × Desc) :=
  (List.range 8).filterMap fun l =>
    let y := s.comp.layers.getD l {}
    match y.pending, y.active with
    | some (d, _), _ => some (l, d)
    | none, some d => some (l, d)
    | none, none => none

/-- Maximum web speed of a mode in m/min (R36); Service 30. -/
def maxSpeed (mode : Nat) : Nat :=
  if mode = mFidelity then 100 else if mode = mVelocity then 200 else if mode = mDepth then 60 else 30

/-- The decoded samples of a plan at a mode's maximum speed, within 20 G/s (R39): each sum is of samples per
line × lines per 25,400,000 nm. -/
def decodedFits (mode sum : Nat) : Bool := sum * maxSpeed mode * 1000000000 ≤ 20000000000 * 25400000 * 60

/-- A V source within R39 for a mode. -/
def sourceAccepted (mode : Nat) (x : Stream) : Bool :=
  x.resX ≤ 600 && x.resY ≤ (if mode = mVelocity then 300 else 600) && 8 ≤ x.bits && x.bits ≤ 12

/-- A step under ±30,000 ppm lies in 0.0625 to 1.0 (R182 code 2). -/
def stepInRange (res grid : Nat) : Bool :=
  [(-30000 : Int), 30000].all fun p => 1048576 ≤ stepS res grid p && stepS res grid p ≤ one24

/-- Check 2 of R182 for a layer under a mode's grid. -/
def State.stepsFit (s : State) (layer mode : Nat) (d : Desc) : Bool :=
  4 ≤ layer || (s.descStreams layer d).flatten.all fun x => stepInRange x.resX 1200 && stepInRange x.resY (alongRes mode)

/-- Check 7 of R182 for a layer under a mode's grid. -/
def State.gridFits (s : State) (layer mode : Nat) (d : Desc) : Bool :=
  layer < 4 || (s.descStreams layer d).flatten.all fun x => x.resX == 1200 && x.resY == alongRes mode

/-- The V sources of a layer within R39. -/
def State.sourcesFit (s : State) (layer mode : Nat) (d : Desc) : Bool :=
  4 ≤ layer || (s.descStreams layer d).flatten.all (sourceAccepted mode)

/-- The mode in force at a copy (R182): the pending one from its first copy on, else the present one; outside
the print modes the grid is Print-Fidelity's. -/
def State.modeFor (s : State) (target : Nat) : Nat :=
  let p := s.reg K.ModePending
  if p ≠ 0xFF && s.reg K.ModeChangeCopy ≤ target then p else s.mode

/-- The mode whose grid a commit is checked on. -/
def gridMode (mode : Nat) : Nat := if isPrint mode then mode else mFidelity

/-- Lines of a layer's extent from an offset on a stream (R176). -/
def extentLines (d : Desc) (srcLines : Nat) : Nat := if d.extent = 0 then srcLines - d.offset else d.extent

/-- The extent passes the end of a stream (R176, R182 code 10, R184). -/
def pastEnd (d : Desc) (offset srcLines : Nat) : Bool :=
  if d.extent = 0 then srcLines ≤ offset else srcLines < offset + d.extent

/-- The strip that holds SourceLineOffset is present and carries Flush; a Streamed stream is checked when it
is decoded (R182 code 6). -/
def flushStart (d : Desc) (x : Stream) : Bool :=
  x.streamed || x.placed.any fun p => p.idx == x.stripOf d.offset && bit p.flags 0

/-- A target copy is decided or passed (R182 code 9). -/
def State.copyDecided (s : State) (target : Nat) : Bool :=
  (target : Int) < s.master.copies
    || s.fire.copies.any fun c => if isPrint s.mode then (target : Int) ≤ c.num else (target : Int) == c.num

/-- The first failing check of a commit (R182), 0 for none. -/
def State.commitRefusal (s : State) (layer : Nat) (d : Desc) (target : Nat) : Nat :=
  let inks := s.descStreams layer d
  let mode := s.modeFor target
  let grid := gridMode mode
  let others := s.plannedDescs.filter fun p => p.1 != layer
  let load := s.layerLoad layer d + (others.map fun p => s.layerLoad p.1 p.2).sum
  let count := s.layerCount layer d + (others.map fun p => s.layerCount p.1 p.2).sum
  if layer < 4 && inks.any fun l => 49152 < sourceWidth l + tapCount d.kernelX then 1
  else if !s.stepsFit layer grid d then 2
  else if layer < 4 && (3 < d.kernelX || 3 < d.kernelY) then 3
  else if !((s.job? d.job).any fun j => j.state != 3) then 4
  else if inks.any fun l => !tilesAbut l then 5
  else if inks.flatten.any fun x => !flushStart d x then 6
  else if !s.gridFits layer grid d then 7
  else if isPrint mode && (!s.sourcesFit layer mode d || !decodedFits mode load || 192 < count) then 8
  else if s.copyDecided target then 9
  else if inks.flatten.any (fun x => pastEnd d d.offset x.srcLines) || d.originX < -98304 || 98303 < d.originX
      || d.originY < -65536 || 8388607 < d.originY then 10
  else 0

/-- The staged descriptor of a layer (R181). -/
def State.stagedDesc (s : State) (l : Nat) : Desc :=
  let k := fun key => s.reg (layerKey key l)
  { job := k K.JobId, offset := k K.SourceLineOffset, advance := k K.LineAdvance, extent := k K.ExtentAlong,
    originX := s.regI (layerKey K.OriginAcross l) 4, originY := s.regI (layerKey K.OriginAlong l) 4,
    kernelX := k K.KernelAcross, kernelY := k K.KernelAlong, opacity := k K.Opacity,
    fence := k K.RequiredFence, blank := false, flush := k K.SourceLineOffset }

/-- An empty layer (R181). -/
def emptyDesc (fence : Nat) : Desc :=
  { job := 0, offset := 0, advance := 0, extent := 0, originX := 0, originY := 0, kernelX := 0, kernelY := 0,
    opacity := 0, fence := fence, blank := true, flush := 0 }

/-- The target of a commit (R181). -/
def State.commitTarget (s : State) (w : Wr) : Nat := if w.val = 0 then s.nextUndecided else w.val

/-- Replaces a layer. -/
def setLayer (l : Nat) (f : Layer → Layer) : Act :=
  .prim (.comp fun c => { c with layers := modAt c.layers l f })

/-- A layer's active content is empty. -/
def Layer.isEmpty (y : Layer) : Bool :=
  match y.active with
  | some d => d.blank
  | none => true

/-- LayerState and PendingCopy after a commit (R195). -/
def showPending (l target : Nat) : Act :=
  .read fun s => seqs [
    put (layerKey K.PendingCopy l) target,
    when (!(s.comp.layers.getD l {}).isEmpty && s.reg (layerKey K.LayerState l) == 1) (put (layerKey K.LayerState l) 2) ]

/-- A refused commit (R182). -/
def commitRefused (l code : Nat) : Act := .seq (put (layerKey K.CommitRefusal l) code) (raise 50)

/-- An accepted commit (R181). -/
def commitAccepted (l target : Nat) (d : Desc) : Act :=
  seqs [put (layerKey K.CommitRefusal l) 0, setLayer l (fun y => { y with pending := some (d, target) }),
    showPending l target]

/-- LayerCommit (R181, R182, R448). -/
def effLayerCommit (l : Nat) : Effect := fun s w =>
  let target := s.commitTarget w
  let d := s.stagedDesc l
  let code := s.commitRefusal l d target
  if !s.takesFor target then refuse abMode
  else if code ≠ 0 then ⟨abMode, commitRefused l code⟩
  else accept (commitAccepted l target d)

/-- LayerEmptyCommit (R181): check 9 alone. -/
def effEmptyCommit (l : Nat) : Effect := fun s w =>
  let target := s.commitTarget w
  if !s.takesFor target then refuse abMode
  else if s.copyDecided target then ⟨abMode, commitRefused l 9⟩
  else accept (commitAccepted l target (emptyDesc (s.reg (layerKey K.RequiredFence l))))

/-- A layer's staged descriptor is committed. -/
def execLayerCommit (t l : Nat) (w : Wr) (s : State) : Host.Outcome State Fault Refusal :=
  perform t (when (l < 8) (writeBy (0x4301 + 0x10 * l) 1 (effLayerCommit l) w)) s

/-- An empty layer is committed. -/
def execLayerEmptyCommit (t l : Nat) (w : Wr) (s : State) : Host.Outcome State Fault Refusal :=
  perform t (when (l < 8) (writeBy (0x4301 + 0x10 * l) 2 (effEmptyCommit l) w)) s

/-- FenceReached (R183). -/
def execFenceReached (t l : Nat) (w : Wr) (s : State) : Host.Outcome State Fault Refusal :=
  perform t (when (l < 8) (writeBy (0x4301 + 0x10 * l) 3 (plain (layerKey K.FenceReached l)) w)) s

/-- ProtectedLoad (R188, R448, R462). -/
def effProtectedLoad : Effect := fun s w =>
  if !s.isHolder then refuse abMode
  else if w.val ≠ 1 then accept .skip
  else if s.comp.checking || s.sec.loading.isSome then
    accept (.seq (refusePackage 1) (raise 53))
  else accept (.prim (.comp fun c => { c with checking := true }))

/-- The P package is to be loaded. -/
def execProtectedLoad (t : Nat) (w : Wr) (s : State) : Host.Outcome State Fault Refusal :=
  perform t (writeBy 0x4381 1 effProtectedLoad w) s

/-- A serial field lies within the image and its own ranges (R189, R190). -/
def pFieldFits (b : List Nat) (f : Nat) : Bool :=
  let at' := 320 + 16 * f
  let x := signedOf 4 (field b at' 4)
  let y := signedOf 4 (field b (at' + 4) 4)
  let digits := field b (at' + 8) 1
  1 ≤ digits && digits ≤ 20 && field b (at' + 9) 1 == 0 && field b (at' + 12) 4 == 0 && 0 ≤ x && 0 ≤ y
    && x + ((digits - 1) * field b (at' + 10) 2 + pGlyphW b : Nat) ≤ pWidth b && y + (pGlyphH b : Nat) ≤ pHeight b

/-- A payload is accepted (R189, R190). -/
def State.payloadFits (s : State) (b : List Nat) : Bool :=
  384 ≤ b.length && field b 0 2 == 0x5053 && field b 2 1 == 0x10 && pFieldCount b ≤ 4 && pWidth b ≤ 8192
    && pFirst b ≤ pLast b && 1 ≤ pGlyphW b && pGlyphW b ≤ 256 && 1 ≤ pGlyphH b && pGlyphH b ≤ 256 && pGrid b ≤ 1
    && ((b.drop 37).take 27).all (· == 0) && (List.range (pFieldCount b)).all (pFieldFits b)
    && b.length == pImageAt b + pHeight b * ceilDiv (pWidth b) 2 && b.length ≤ 2 ^ 24
    && s.reg K.LastIssuedSerial < pFirst b

/-- Verification of the P package ends (R188, R190, R462). -/
def execProtectedLayerLoaded (t : Nat) (s : State) : Host.Outcome State Fault Refusal :=
  perform t (.read fun s =>
    if !s.comp.checking then .skip
    else
      let code := s.packageRefusal protectedInboxAt 0x1000000 2 false
      let payload := s.bytesAt (protectedInboxAt + 224) (Memory.value s.mem (protectedInboxAt + 12) 4)
      let done : Act := .prim (.comp fun c => { c with checking := false })
      if code ≠ 0 then seqs [done, refusePackage code, raise 53]
      else if !s.payloadFits payload then .seq done (raise 53)
      else seqs [
        done,
        .prim (.erase protectedStart 0x1000000),
        writeDram protectedStart payload,
        .prim (.comp fun c => { c with
          packages := (c.nextPackage, payload) :: c.packages
          accepted := some c.nextPackage
          nextPackage := c.nextPackage + 1 }),
        raise 52 ]) s

/-- Rules of the layer entries of page 0x43 and the compositor entries of page 0x25. -/
def effLayer (idx sub : Nat) : Effect :=
  let l := (idx - 0x4300) / 0x10
  if idx = 0x4381 && sub = 1 then effProtectedLoad
  else if idx = 0x4381 && sub = 4 then fun _ w =>
    if w.val = 0 then refuse abRange else accept (put (idx * 256 + sub) w.val)
  else if (idx - 0x4300) % 0x10 = 1 && sub = 1 then effLayerCommit l
  else if (idx - 0x4300) % 0x10 = 1 && sub = 2 then effEmptyCommit l
  else plain (idx * 256 + sub)

end Sys2Proof.Machine
end

