-- ==== Sys2Proof/Machine/Freeze.lean ====
section
/-! DEFINITION. Sys2Proof/Machine/Freeze.lean: the colour loop's state and its freezing (R340–R342, 0x2B00, 0x2B13). -/

namespace Sys2Proof.Machine

/-- Row of a position of a BandSequence (R297). -/
def bandRow (seq pos : Nat) : Nat := bits seq (4 * pos) 4

/-- Bands of a mode (R297). -/
def bandCount (mode : Nat) : Nat := if mode = mVelocity then 4 else 8

/-- A row is lit by a mode's BandSequence positions. -/
def State.rowLit (s : State) (mode r : Nat) : Bool :=
  (List.range (bandCount mode)).any fun p => bandRow (s.reg K.BandSequence) p == r

/-- Changes the colour loop. -/
def setLoop (f : Loop → Loop) : Act := .prim (.loop f)

/-- The colour loop works: Enabled (R53), on a controller that is Holder if it is in a pair (R448). -/
def State.loopOn (s : State) : Bool := s.fnOn fnLoop && s.isHolder

/-- Some port is Receiving. -/
def State.anyReceiving (s : State) : Bool :=
  (List.range s.portCount).any fun p => s.reg (K.PortState + p * 0x1000) == 2

/-- Some port is retired. -/
def State.anyPortRetired (s : State) : Bool :=
  (List.range s.portCount).any fun p => s.isRetired (faultSource 2 p)

/-- FreezeCause (R341). -/
def State.freezeCauses (s : State) : Nat :=
  let b := fun (p : Bool) (i : Nat) => if p then 2 ^ i else 0
  b (s.reg K.IlluminationState != 2 || decide (s.loop.agreedAt < s.reg K.IlluminationInvalidSince)) 0
    + b (!s.loop.portFault.isEmpty) 1
    + b (!s.fnOn fnInspect || !s.anyReceiving) 2
    + b (s.reg K.BankOwner == 0) 3
    + b s.anyPortRetired 4

/-- The loop is frozen: bits 3 and 4 are no causes (R341). -/
def State.frozen (s : State) : Bool := s.freezeCauses % 8 != 0

/-- State of an ink in the loop (0x2B13). -/
def State.inkLoop (s : State) (ink : Nat) : Nat :=
  if (s.inkLinks ink).isEmpty then 4
  else if !s.rowLit s.mode (s.reg (K.MeasureRow + ink)) then 3
  else if s.frozen then 2
  else if (s.loop.captureFrom.getD ink none).isSome then 1
  else 0

/-- LoopState (0x2B00:01). -/
def State.loopStateNow (s : State) : Nat :=
  if !s.loopOn then 0
  else if !isPrint s.mode then 1
  else if s.frozen then 4
  else if s.reg K.BankOwner = 0 then 5
  else if (List.range 8).any (fun k => s.inkLoop k == 1) then 2
  else 3

/-- Takes an update back (R342): its commit is cancelled while Checking or Pending, its terms return, and a build
without its curves starts. -/
def undoUpdate : Act :=
  .read fun s =>
    match s.loop.undo with
    | none => .skip
    | some (terms, latest) =>
      if latest < s.reg K.IlluminationInvalidSince || s.reg K.IlluminationState = 2 then .skip
      else
        let st := s.reg K.BankCommitState
        let mine := s.tone.loopUpdate && (st == 1 || st == 2)
        seqs [
          when mine (.seq (put K.BankCommitState 0) (put K.BankCommitCopy 0xFFFFFFFFFFFFFFFF)),
          each terms fun p => .prim (.store p.1 2 p.2),
          setLoop (fun x => { x with undo := none }),
          .prim (.tone fun x => { x with
            curves := [], loopUpdate := false, builder := x.builder && !mine }),
          wantBuild ]

/-- The causes of bits 0 to 2 that stand now and did not before. -/
def newCauses (before after : Nat) : Nat :=
  ((List.range 3).filter fun i => bit after i && !bit before i).length

/-- The loop's entries follow its causes; LoopFrozen when the first arises, LoopResumed when none remains
(R341). -/
def syncLoop : Act :=
  .read fun s =>
    let before := s.reg K.FreezeCause
    let after := if s.loopOn then s.freezeCauses else 0
    seqs [
      put K.FreezeCause after,
      setLoop (fun x => { x with broken := x.broken + newCauses before after }),
      when (bit after 0 && !bit before 0) undoUpdate,
      when (s.loopOn && before % 8 == 0 && after % 8 != 0) (raise 82),
      when (s.loopOn && before % 8 != 0 && after % 8 == 0) (raise 83),
      put K.LoopState s.loopStateNow,
      when s.loopOn (each (List.range 8) fun k => put (K.InkLoopState + k) (s.inkLoop k)) ]

/-- A capture of references begins: the pairs of copies from `m` on give it (R340). -/
def startCapture (m : Int) : Act :=
  setLoop fun x => { x with
    captureFrom := List.replicate 8 (some m), held := [], captured := [], missing := [] }

end Sys2Proof.Machine
end

