-- ==== Sys2Proof/Machine/Illumination.lean ====
section
/-! DEFINITION. Sys2Proof/Machine/Illumination.lean: the illumination driver (R314–R330). -/

namespace Sys2Proof.Machine

/-- Coordinate of a string's entry. -/
def stringKey (k n : Nat) : Nat := k + n * 256

/-- Raises an illumination event and records its string (0x2A05). -/
def illEvent (n place : Nat) : Act := .seq (put (K.IlluminationEventString + (n - 176)) place) (raise n)

/-- Changes a string at work. -/
def setString (n : Nat) (f : Str → Str) : Act := .prim (.ill fun x => { x with strings := modAt x.strings n f })

/-- A string at work. -/
def State.str (s : State) (n : Nat) : Str := s.ill.strings.getD n {}

/-- A string's configuration. -/
def IllConf.str (c : IllConf) (n : Nat) : StrConf := c.strings.getD n {}

/-- The configuration in force. -/
def State.illConf (s : State) : IllConf := s.ill.conf.getD {}

/-- Exposures per line of a mode (R297). -/
def exposures (mode : Nat) : Nat := if mode = mDepth then 2 else 1

/-- The long pulse of a string: PulseWidth × MergeRatio ÷ 256, rounded to 5 ns (R317). -/
def longPulse (width merge : Nat) : Nat := 5 * (roundDiv (width * merge) 1280).toNat

/-- The driver lights rows: it is Running or Starting, enabled and configured. -/
def State.illWorks (s : State) : Bool :=
  s.fnOn fnIllum && s.ill.conf.isSome && (s.reg K.IlluminationState == 1 || s.reg K.IlluminationState == 2)

/-- The columns with an enabled string in a row whose stage is not retired. -/
def State.litColumns (s : State) (r : Nat) : List Nat :=
  (List.range 16).filter fun c => (s.illConf.str (8 * c + r)).enable && !s.isRetired (faultSource 3 c)

/-- A string reads Undiagnosed (R326). -/
def undiagnose (n : Nat) : Act :=
  seqs [put (stringKey K.StringState n) 1, setString n (fun x => { x with shown := none }), illEvent 179 n]

/-- The matrix is dark: gates low, rows open, no pulse left. -/
def darken : Act :=
  seqs [
    each (List.range 16) fun c => send (.ball (.gate c) 0),
    each (List.range 8) fun r => send (.ball (.row r) 0),
    .prim (.ill fun x => { x with pulses := List.replicate 16 [] }) ]

/-- The whole illumination goes off (R327). -/
def allOff (cause place since : Nat) (own : Act) : Act :=
  .read fun s =>
    if s.reg K.IlluminationState = 3 then .skip
    else seqs [
      darken,
      .prim (.ill fun x => { x with queue := [], confirm := [], flashRow := 0, flashGot := [], flashPrior := none }),
      put K.IlluminationState 3, put K.OffCause cause, put K.OffString place,
      put K.IlluminationInvalidSince since,
      own,
      illEvent 176 place,
      syncLoop ]

/-- A fault occurrence of a column's stage (R316, R319); at the threshold everything goes off (R327). -/
def columnFault (c event : Nat) : Act :=
  .read fun s => faultOccurrence (faultSource 3 c) event c (allOff 3 (0x80 + c) (ptpNanos s.ptp) .skip)

/-- An accepted configuration comes into force (R321, R323, R326). -/
def illInForce : Act :=
  .read fun s =>
    match s.ill.next with
    | none => .skip
    | some cf => seqs [
        .prim (.ill fun x => { x with
          conf := some cf, next := none, strings := List.replicate 128 {}, queue := [], confirm := [] }),
        each (List.range 128) fun n =>
          if (cf.str n).enable then
            .seq (put (stringKey K.CurrentActual n) (cf.str n).initial) (undiagnose n)
          else put (stringKey K.StringState n) 0,
        when (s.reg K.IlluminationState != 3) (put K.IlluminationState 1),
        syncLoop ]

/-- References of a flash calibration come into force, and staged (R330). -/
def vrefInForce : Act :=
  .read fun s =>
    match s.ill.vrefNext with
    | none => .skip
    | some m => seqs [
        each m fun p => put (stringKey K.ForwardVoltageRef p.1) p.2,
        .prim (.ill fun x => { x with
          vrefNext := none
          conf := x.conf.map fun cf => { cf with
            strings := cf.strings.zipIdx.map fun q => match SMap.find m q.2 with
              | some v => { q.1 with vref := v }
              | none => q.1 } }) ]

/-- Currents waiting for the next frame that a string lights come into force (R323). -/
def currentsInForce (lit : Nat → Bool) : Act :=
  .read fun s =>
    each ((List.range 128).filter fun n => lit (n % 8)) fun n =>
      match (s.str n).next with
      | some i => .seq (put (stringKey K.CurrentActual n) i) (setString n fun x => { x with next := none })
      | none => .skip

/-- Line 0 of a frame of a mode (R321, R323, R330). -/
def illFrame (mode : Nat) : Act :=
  .read fun s => seqs [illInForce, vrefInForce, currentsInForce (s.rowLit mode)]

/-- The driver's part of an image line (R317, R319): its row, its mode, its label (nm), the columns whose node is
outside PrechargeTolerance. -/
def illLine (r mode : Nat) (label : Int) (nodes : List Nat) : Act :=
  .read fun s =>
    let cols := s.litColumns r
    let cf := s.illConf
    let bad := cols.filter nodes.contains
    let late := s.now < s.ill.openAt + cf.precharge
    let two := exposures mode == 2
    let widths := cols.map fun c => (cf.str (8 * c + r)).width
    let gateOff := widths.foldl (fun m w => max m (if two then cf.split + cf.delay + longPulse w cf.merge else cf.delay + w)) 0
    if !s.illWorks || cols.isEmpty then .skip
    else if !bad.isEmpty then
      seqs [
        addTo K.UnlitLines 4 1,
        put K.LastUnlitLabel (rawOf 8 label),
        illEvent 183 (8 * bad.headD 0 + r),
        when (!late) (each bad fun c => .seq (addTo K.PrechargeFaults 4 1) (columnFault c 183)) ]
    else
      seqs [
        send (.ball (.row r) 1),
        each cols fun c => send (.ball (.gate c) 1),
        .prim (.ill fun x => { x with
          openAt := s.now + gateOff + cf.release
          pulses := x.pulses.zipIdx.map fun q =>
            if cols.contains q.2 then
              let w := (cf.str (8 * q.2 + r)).width
              let p : Pulse := { row := r, width := w, kind := 0, stamp := s.ptp }
              q.1 ++ (if two then [p, { p with width := longPulse w cf.merge }] else [p])
            else q.1 }) ]

/-- Whether a line went unlit: it is what `illLine` counts (R319). -/
def State.lineUnlit (s : State) (r : Nat) (nodes : List Nat) : Bool :=
  s.illWorks && (s.litColumns r).any nodes.contains

/-- Regulation of a string after its 64th valid value (R323). -/
def regulate (n : Nat) : Act :=
  .read fun s =>
    let x := s.str n
    if x.count < 64 then .skip
    else
      let lavg : Int := roundDiv x.sum 64
      let cf := s.illConf
      let t := (cf.str n).target
      let i := s.reg (stringKey K.CurrentActual n)
      let clear := setString n fun x => { x with sum := 0, count := 0 }
      let note := put (stringKey K.LightMeasured n) lavg.toNat
      if t = 0 then
        seqs [clear, note, .prim (.ill fun x => { x with conf := x.conf.map fun cf =>
          { cf with strings := modAt cf.strings n fun y => { y with target := lavg.toNat } } })]
      else
        let step := max 1 (i / 64)
        let i0 := if x.sum = 0 then (i : Int) + step else roundDiv (i * t * 64) x.sum
        let i1 := (clampInt ((i : Int) - step) (i + step) i0).toNat
        let lim := (cf.str n).limit
        let held := lim ≤ i1
        seqs [clear, note,
          setString n fun x => { x with next := some (min i1 lim), held := held },
          when (held && !x.held) (illEvent 182 n)]

/-- The light value of a pulse (R322): the mean of its samples × 16. -/
def lightValue (n sum count : Nat) (clip : Bool) : Act :=
  if clip then .seq (addTo K.SensorOutOfRangeCount 4 1) (illEvent 181 n)
  else if count = 0 then .skip
  else
    .seq (setString n fun x => { x with sum := x.sum + (roundDiv (16 * sum) count).toNat, count := x.count + 1 })
      (regulate n)

/-- Running once no enabled string is Undiagnosed (R328). -/
def settleRunning : Act :=
  .read fun s =>
    when (s.reg K.IlluminationState == 1 && (List.range 128).all fun n => s.reg (stringKey K.StringState n) != 1)
      (.seq (put K.IlluminationState 2) syncLoop)

/-- A diagnosing pulse reads its string (R324, R325): the current and voltage in ADC codes. -/
def diagnose (n : Nat) (p : Pulse) (isns vsns : Nat) : Act :=
  .read fun s =>
    let c := n / 8
    let uA := isns * s.reg (K.StageSenseGain + c)
    let uV := vsns * s.reg (K.VoltageSenseGain + c)
    let vref := (s.illConf.str n).vref
    let openC := uA * 32768 < s.reg (stringKey K.CurrentActual n) * 1000 * s.reg K.OpenCurrentFraction
    let short := !openC && vref != 0 && uV * 32768 < vref * 1000 * s.reg K.ShortVoltageFraction
    let shown := if openC then 1 else if short then 2 else 0
    let since := match (s.str n).shown with
      | some (k, t) => if k = shown then some t else none
      | none => none
    seqs [
      put (stringKey K.ForwardVoltage n) (min (roundDiv uV 1000).toNat 0xFFFF),
      setString n fun x => { x with
        shown := if shown = 0 then none else some (shown, since.getD (ptpNanos p.stamp)) },
      .prim (.ill fun x => { x with
        confirm := if shown = 0 || since.isSome then x.confirm.filter (· != n)
          else x.confirm.filter (· != n) ++ [n] }),
      (match since with
        | some t =>
          .seq (put (stringKey K.StringState n) (2 + shown))
            (allOff shown n t (illEvent (176 + shown) n))
        | none => when (shown == 0 && (vref != 0 || s.reg (stringKey K.StringState n) == 2))
            (.seq (put (stringKey K.StringState n) 2) settleRunning)) ]

/-- Two passes agree on every enabled string (R330). -/
def State.passesAgree (s : State) (a b : SMap) : Bool :=
  (List.range 128).all fun n => !(s.illConf.str n).enable
    || match SMap.find a n, SMap.find b n with
      | some x, some y => ((x : Int) - y).natAbs ≤ s.reg K.VfTolerance
      | _, _ => false

/-- A pass of eight flashes is complete once its last pulse has ended (R330). -/
def settleFlash : Act :=
  .read fun s =>
    if s.ill.flashRow < 8 || s.ill.pulses.any (fun l => l.any fun p => p.kind == 2) then .skip
    else
      match s.ill.flashPrior with
      | none => .prim (.ill fun x => { x with flashPrior := some x.flashGot, flashGot := [], flashRow := 0 })
      | some a =>
        let good := s.passesAgree a s.ill.flashGot
        .seq (.prim (.ill fun x => { x with
            vrefNext := if good then some x.flashGot else x.vrefNext
            flashPrior := none, flashGot := [], flashRow := 0 }))
          (calibrationCounted 3 good)

/-- A gate pulse of a column ends (R322–R325, R330). `sum` and `n` are the light samples of its window, `clip`
that one was 0 or 4,095; `isns` and `vsns` the means over 1,500–2,000 ns, `vend` VSNS over a flash's last
500 ns. A controller of a pair that is not Holder neither regulates nor diagnoses (R448). -/
def execPulseEnd (t c sum n : Nat) (clip : Bool) (isns vsns vend : Nat) (s : State) : Host.Outcome State Fault Refusal :=
  perform t (.read fun s =>
    match s.ill.pulses.getD c [] with
    | [] => .skip
    | p :: rest =>
      let k := 8 * c + p.row
      seqs [
        .prim (.ill fun x => { x with pulses := x.pulses.set c rest }),
        send (.ball (.gate c) 0),
        when rest.isEmpty (send (.ball (.row p.row) 0)),
        when s.isHolder (lightValue k sum n clip),
        when (p.kind == 2) (.prim (.ill fun x => { x with
          flashGot := SMap.put x.flashGot k (roundDiv (vend * s.reg (K.VoltageSenseGain + c)) 1000).toNat })),
        when (2000 ≤ p.width && s.isHolder) (diagnose k p isns vsns),
        settleFlash ]) s

/-- Stage current sense is out of range (R316): the gate is low for the rest of the pulse. -/
def execStageCurrentFault (t c : Nat) (s : State) : Host.Outcome State Fault Refusal :=
  perform t (when (c < 16) (seqs [
    send (.ball (.gate c) 0),
    .prim (.ill fun x => { x with pulses := modAt x.pulses c fun l => l.drop 1 }),
    illEvent 180 (0x80 + c),
    columnFault c 180 ])) s

/-- Starts one pulse per column of a gap line (R320). -/
def gapPulses (strings : List Nat) (width kind : Nat) : Act :=
  .read fun s => seqs [
    each strings fun n => .seq (send (.ball (.row (n % 8)) 1)) (send (.ball (.gate (n / 8)) 1)),
    .prim (.ill fun x => { x with
      openAt := s.now + s.illConf.precharge + s.illConf.delay + width + s.illConf.release
      pulses := x.pulses.zipIdx.map fun q =>
        q.1 ++ (strings.filter fun n => n / 8 == q.2).map fun n =>
          ({ row := n % 8, width := width, kind := kind, stamp := s.ptp } : Pulse) }) ]

/-- The enabled strings of a row. -/
def State.rowStrings (s : State) (r : Nat) : List Nat := (s.litColumns r).map fun c => 8 * c + r

/-- A gap line granted to client 03 (R320, R325, R326, R330): a confirming pulse first, then the lowest queued
row, then a flash. -/
def execGapLinePulse (t : Nat) (s : State) : Host.Outcome State Fault Refusal :=
  perform t (.read fun s =>
    if !s.illWorks || !s.isHolder then .skip
    else
      match s.ill.confirm, s.ill.queue with
      | n :: _, _ =>
        .seq (addTo K.DiagnosticPulses 4 1) (gapPulses [n] 2000 1)
      | [], r :: rest =>
        let low := rest.foldl min r
        seqs [
          .prim (.ill fun x => { x with queue := x.queue.filter (· != low) }),
          addTo K.DiagnosticPulses 4 (s.rowStrings low).length,
          gapPulses (s.rowStrings low) 2000 1 ]
      | [], [] =>
        seqs [
          gapPulses (s.rowStrings s.ill.flashRow) (s.reg K.FlashWidth) 2,
          .prim (.ill fun x => { x with flashRow := x.flashRow + 1 }),
          settleFlash ]) s

/-- A string is diagnosed by diagnostic pulses in the mode in force (R326). -/
def State.needsPulse (s : State) (n : Nat) : Bool :=
  let cf := s.illConf
  let w := (cf.str n).width
  (cf.str n).enable
    && (!s.rowLit s.mode (n % 8) || (w < 2000 && !(exposures s.mode == 2 && 2000 ≤ longPulse w cf.merge)))

/-- Every 64 scan cycles, rows that need diagnostic pulses are queued (R326). -/
def execDiagnosticRound (t : Nat) (s : State) : Host.Outcome State Fault Refusal :=
  perform t (.read fun s =>
    let due := fun (r : Nat) => (List.range 16).any fun c => s.needsPulse (8 * c + r)
    when (s.illWorks && s.isHolder) (.prim (.ill fun x => { x with
      queue := (List.range 8).filter fun r => x.queue.contains r || due r }))) s

/-- The staged configuration (R321). -/
def State.illStaged (s : State) : IllConf :=
  { delay := s.reg K.PulseDelay, release := s.reg K.RowRelease, precharge := s.reg K.PrechargeTime,
    tol := s.reg K.PrechargeTolerance, split := s.reg K.ExposureSplit, merge := s.reg K.MergeRatio,
    strings := (List.range 128).map fun n =>
      { enable := s.flag (stringKey K.StringEnable n), width := s.reg (stringKey K.PulseWidth n),
        initial := s.reg (stringKey K.CurrentInitial n), limit := s.reg (stringKey K.CurrentLimit n),
        target := s.reg (stringKey K.LightTarget n), vref := s.reg (stringKey K.ForwardVoltageRef n) } }

/-- Line periods at 102 % of a print mode's maximum speed (R321). -/
def linePeriod (mode : Nat) : Nat := if mode = mVelocity then 12451 else if mode = mDepth then 41503 else 24902

/-- The first failing check of an illumination commit (R321), 0 for none. -/
def State.illRefusal (s : State) (cf : IllConf) : Nat :=
  let on := (List.range 128).filter fun n => (cf.str n).enable
  let lit := fun (mode : Nat) => on.filter fun n => s.rowLit mode (n % 8)
  let single := fun (mode : Nat) => (lit mode).any fun n =>
    linePeriod mode < cf.delay + (cf.str n).width + cf.release + cf.precharge
  if on.isEmpty then 1
  else if on.any fun n => (cf.str n).width < 500 || 20000 < (cf.str n).width || (cf.str n).limit < (cf.str n).initial
      || s.reg (K.StageCurrentMax + n / 8) < (cf.str n).limit then 2
  else if single mFidelity || single mVelocity then 3
  else if (lit mDepth).any fun n => cf.split < cf.delay + (cf.str n).width
      || linePeriod mDepth < cf.split + cf.delay + longPulse (cf.str n).width cf.merge + cf.release + cf.precharge then 4
  else if s.reg K.IlluminationState = 3 then 5
  else 0

/-- IlluminationCommit (R321). -/
def effIllCommit : Effect := fun s w =>
  let cf := s.illStaged
  let code := s.illRefusal cf
  if w.val ≠ 1 then accept .skip
  else if code ≠ 0 then ⟨abMode, put K.IlluminationCommitRefusal code⟩
  else accept (seqs [
    put K.IlluminationCommitRefusal 0,
    .prim (.ill fun x => { x with next := some cf }),
    when (s.fnOn fnIllum && s.reg K.IlluminationState == 0) (put K.IlluminationState 1),
    syncLoop ])

/-- A commit of the staged illumination configuration. -/
def execIlluminationCommit (t : Nat) (w : Wr) (s : State) : Host.Outcome State Fault Refusal :=
  perform t (writeBy 0x2A00 2 effIllCommit w) s

/-- IlluminationRestart (R328). -/
def effIllRestart : Effect := fun s w =>
  if 2 < s.mode || s.reg K.IlluminationState ≠ 3 then refuse abMode
  else if w.val ≠ 1 then accept .skip
  else accept (seqs [
    each (List.range 16) fun c => restartSource (faultSource 3 c),
    put K.OffCause 0,
    each (List.range 128) fun n => when (s.illConf.str n).enable (undiagnose n),
    put K.IlluminationState 1,
    syncLoop ])

/-- The illumination restarts after a failure. -/
def execIlluminationRestart (t : Nat) (w : Wr) (s : State) : Host.Outcome State Fault Refusal :=
  perform t (writeBy 0x2A00 0x0D effIllRestart w) s

/-- Rules of page 0x2A. -/
def effIllumination (idx sub : Nat) : Effect :=
  if idx = 0x2A00 && sub = 2 then effIllCommit
  else if idx = 0x2A00 && sub = 0x0D then effIllRestart
  else plain (idx * 256 + sub)

end Sys2Proof.Machine
end

