-- ==== Sys2Proof/Machine/Inspection.lean ====
section
/-! DEFINITION. Sys2Proof/Machine/Inspection.lean: camera ports, frames, the line stage, the frame stage and the
captures (R289–R312). -/

namespace Sys2Proof.Machine

/-- Coordinate of a port's entry (R313). -/
def portKey (k p : Nat) : Nat := k + p * 0x10 * 256

/-- A port. -/
def State.prt (s : State) (p : Nat) : Port := s.cam.ports.getD p {}

/-- Changes a port. -/
def setPort (p : Nat) (f : Port → Port) : Act := .prim (.cam fun x => { x with ports := modAt x.ports p f })

/-- PortState. -/
def State.portState (s : State) (p : Nat) : Nat := s.reg (portKey K.PortState p)

/-- The port takes triggers and frames: configured, enabled, not retired (R293, R312). -/
def State.portLive (s : State) (p : Nat) : Bool := s.portState p == 1 || s.portState p == 2

/-- The ports that take triggers. -/
def State.livePorts (s : State) : List Nat := (List.range s.portCount).filter s.portLive

/-- Raises an inspection event and records its port (0x2901). -/
def camEvent (n p : Nat) : Act := .seq (put (K.InspectionEventPort + (n - 160)) p) (raise n)

/-- A pixel that did not arrive, and the value NoData of R298. -/
abbrev noPix : Nat := 65536
abbrev noData : Nat := 65535

/-- Bits per pixel of a data type (R290). -/
def pixelBits (dt : Nat) : Nat := if dt = 0x2B then 10 else if dt = 0x2C then 12 else 16

/-- Pixels of a payload by CSI-2's packing (notes/assumptions/29.md): high bytes first, then the low bits of the
group; RAW16 most significant byte first. -/
def unpackPixels (dt : Nat) (b : List Nat) : List Nat :=
  if dt = 0x2B then
    (List.range (b.length / 5 * 4)).map fun i =>
      4 * b.getD (i / 4 * 5 + i % 4) 0 + bits (b.getD (i / 4 * 5 + 4) 0) (2 * (i % 4)) 2
  else if dt = 0x2C then
    (List.range (b.length / 3 * 2)).map fun i =>
      16 * b.getD (i / 2 * 3 + i % 2) 0 + bits (b.getD (i / 2 * 3 + 2) 0) (4 * (i % 2)) 4
  else (List.range (b.length / 2)).map fun i => 256 * b.getD (2 * i) 0 + b.getD (2 * i + 1) 0

/-- A retired port stops (R312). -/
def retirePort (p : Nat) : Act :=
  seqs [
    setPort p (fun x => { x with
      shots := [], frame := none, dropping := false, ready := [], ended := none, staged := none, carry := [] }),
    .prim (.cam fun x => { x with stage := x.stage.filter (· != p) }),
    put (portKey K.PortState p) 3,
    send (.ball (.camRstN p) 0),
    camEvent 171 p,
    syncLoop ]

/-- The open frame is frayed (R298). -/
def fray (p : Nat) : Act := setPort p fun x => { x with frame := x.frame.map fun f => { f with frayed := true } }

/-- A frame is dropped whole (R303). -/
def dropFrame (p : Nat) : Act :=
  seqs [addTo (portKey K.FramesDropped p) 4 1, camEvent 168 p,
    setPort p (fun x => { x with
      dropping := true, lost := true
      droppedAt := x.droppedAt ++ (x.frame.map fun f => f.shot.label).toList })]

/-- A completed line goes to the line stage (R300). -/
def completeLine (p : Nat) (short : List Nat) (long : Option (List Nat)) : Act :=
  .read fun s => setPort p fun x =>
    match x.frame with
    | none => x
    | some f => { x with
        frame := some { f with lines := f.lines + 1, odd := none }
        ready := x.ready ++
          [RawLine.mk f.lines short long (if f.shot.bands = 0 then 0 else f.lines % f.shot.bands) s.now] }

/-- A line of NoData. -/
def emptyLine (x : Port) : List Nat := List.replicate x.conf.width noPix

/-- The frame in progress ends (R298, R303): missing lines are filled; a frayed frame is charged (R299). -/
def endFrame (p : Nat) : Act :=
  .read fun s =>
    let x := s.prt p
    match x.frame with
    | none => .skip
    | some f =>
      if x.dropping || (x.ended.isSome && f.lines == 0) then
        .seq (when (!x.dropping) (dropFrame p)) (setPort p fun x => { x with frame := none, dropping := false })
      else
        let missing := s.reg K.FrameLines - f.lines
        seqs [
          when (0 < missing) (seqs [
            addTo (portKey K.LinesPadded p) 4 missing,
            each (List.range missing) fun _ => completeLine p (emptyLine x) none,
            setPort p (fun x => { x with frame := x.frame.map fun f => { f with frayed := true, padded := true } })]),
          (.read fun s => when ((s.prt p).frame.any fun f => f.frayed)
            (seqs [addTo (portKey K.FramesFrayed p) 4 1, camEvent (160 + p) p])),
          setPort p (fun x => { x with
            frame := none, ended := x.frame.map fun f => { f with endAt := s.now } }),
          (.read fun s => when ((s.prt p).ended.any fun f => f.frayed)
            (faultOccurrence (faultSource 2 p) (160 + p) f.seq (retirePort p))) ]

/-- A frame that begins on a port. -/
def newFrame (x : Port) (sh : Shot) (number seq : Nat) : Frame :=
  { shot := sh, number := number, seq := seq, fresh := x.fresh, bank := x.banks }

/-- A Frame Start on the image channel (R298, R303). -/
def startFrame (p number : Nat) : Act :=
  .read fun s =>
    let x := s.prt p
    match x.shots with
    | [] => addTo (portKey K.FramesDropped p) 4 1
    | sh :: rest =>
      let gap := number != 0 && match x.number with
        | some k => number != k + 1 && number != k + 2
        | none => false
      seqs [
        when gap (addTo (portKey K.FrameNumberGaps p) 4 1),
        addTo (portKey K.PortFramesReceived p) 4 1,
        put (portKey K.PortState p) 2,
        (.read fun s => setPort p fun x => { x with
          shots := rest, number := some number, fresh := false
          frame := some (newFrame x sh number (s.reg (portKey K.PortFramesReceived p))) }),
        syncLoop ]

/-- An image line (R298): padded or cut to Width, paired in two-exposure operation. -/
def imageLine (p : Nat) (pix : List Nat) : Act :=
  .read fun s =>
    let x := s.prt p
    let w := x.conf.width
    match x.frame with
    | none => addTo (portKey K.LinesDiscarded p) 4 1
    | some f =>
      let first := f.lines == 0 && f.odd.isNone
      let line := (pix ++ List.replicate (w - pix.length) noPix).take w
      if s.reg K.FrameLines ≤ f.lines then .seq (addTo (portKey K.LinesDiscarded p) 4 1) (fray p)
      else
        seqs [
          when (first && x.ended.isSome) (dropFrame p),
          when (pix.length < w) (.seq (addTo (portKey K.LinesPadded p) 4 1)
            (setPort p fun x => { x with frame := x.frame.map fun f => { f with frayed := true, padded := true } })),
          when (w < pix.length) (.seq (addTo (portKey K.LinesCut p) 4 1)
            (setPort p fun x => { x with frame := x.frame.map fun f => { f with frayed := true, cut := true } })),
          (.read fun s =>
            if (s.prt p).dropping then
              setPort p fun x => { x with frame := x.frame.map fun f => { f with lines := f.lines + 1 } }
            else if f.shot.exps = 2 then
              match f.odd with
              | none => setPort p fun x => { x with frame := x.frame.map fun f => { f with odd := some line } }
              | some short => completeLine p short (some line)
            else completeLine p line none) ]

/-- A frame that a port is not to take is ignored and counted at its Frame Start (R92, R297). -/
def ignoreFrame (key p : Nat) (pkt : CsiPacket) : Act := when (pkt.dataType == 0) (addTo (key + p) 4 1)

/-- A CSI-2 packet arrives (R290, R298). -/
def execCsiPacket (t p : Nat) (pkt : CsiPacket) (s : State) : Host.Outcome State Fault Refusal :=
  perform t (.read fun s =>
    let x := s.prt p
    let dt := pkt.dataType
    let c := x.conf
    if s.portCount ≤ p || s.portState p = 3 then .skip
    else if !s.islandReady islCAM || !s.portLive p then ignoreFrame K.PreReadyCameraFrames p pkt
    else if s.mode = mStandby then ignoreFrame (portKey K.FramesDropped p - p) p pkt
    else if pkt.ecc = 2 then .seq (addTo (portKey K.EccErrors p) 4 1) (fray p)
    else
      seqs [
        when (pkt.ecc == 1) (.seq (addTo (portKey K.EccErrors p) 4 1) (fray p)),
        (if dt = 2 || dt = 3 || (8 ≤ dt && dt < 16) || dt = 0x12 then .skip
        else if pkt.vc = c.image && dt = 0 then .seq (endFrame p) (startFrame p pkt.word)
        else if pkt.vc = c.image && dt = 1 then endFrame p
        else if pkt.vc = c.dark && dt = 0 then setPort p fun x => { x with darkOpen := true, darkLines := [] }
        else if pkt.vc = c.dark && dt = 1 then setPort p fun x => { x with darkOpen := false }
        else if dt = c.dataType && pkt.vc = c.image then
          .seq (when (!pkt.crcOk && x.frame.isSome) (.seq (addTo (portKey K.CrcErrors p) 4 1) (fray p)))
            (imageLine p (unpackPixels dt pkt.payload))
        else if dt = c.dataType && pkt.vc = c.dark && x.darkOpen then
          let pix := unpackPixels dt pkt.payload
          when (pix.length == c.width) (setPort p fun x => { x with darkLines := x.darkLines ++ [pix] })
        else addTo (portKey K.LinesDiscarded p) 4 1) ]) s

/-- A Frame End ends the port's frame (R303). -/
def execFrameEnd (t p : Nat) (s : State) : Host.Outcome State Fault Refusal :=
  perform t (.read fun s => when (p < s.portCount && s.portLive p) (endFrame p)) s

/-- No Frame End within FrameTimeout of the frame's last trigger (R298). A frame that never started ends as one
of no lines. -/
def execFrameTimeout (t p : Nat) (s : State) : Host.Outcome State Fault Refusal :=
  perform t (.read fun s =>
    let x := s.prt p
    let due := fun (sh : Shot) => sh.last.any fun u => decide (u + s.reg K.FrameTimeout ≤ s.now)
    let count := addTo (portKey K.FrameTimeouts p) 4 1
    if !s.portLive p then .skip
    else match x.frame, x.shots with
      | some f, _ => when (due f.shot) (seqs [count, fray p, endFrame p])
      | none, sh :: _ => when (due sh) (seqs [startFrame p 0, count, fray p, endFrame p])
      | none, [] => .skip) s

/-- A 16-bit field of the coefficient block in force of a port (R302). -/
def State.coef (s : State) (p off : Nat) : Nat := Memory.value s.mem (coefficientAt p true + off) 2

/-- Replace of a pixel. -/
def State.replaceCode (s : State) (p i : Nat) : Nat := (Memory.byte s.mem (coefficientAt p true + 124928 + i)).toNat

/-- One exposure of a pixel through dark and linearisation (R301). -/
def State.linear (s : State) (p bits' i raw : Nat) (long : Bool) : Nat :=
  let x := raw * 2 ^ (16 - bits')
  let d := x - s.coef p ((if long then 14336 else 2048) + 2 * i)
  let j := d / 256
  let f := d % 256
  let tbl := if long then 546 else 32
  let a : Int := s.coef p (tbl + 2 * j)
  let b : Int := s.coef p (tbl + 2 * (j + 1))
  clampNat 65534 (a + ((b - a) * f + 128) / 256)

/-- A pixel's merged value m, and whether it is saturated; none for NoData (R301). -/
def State.merged (s : State) (p bits' i : Nat) (short : Nat) (long : Option Nat) : Option (Nat × Bool) :=
  let th := s.reg K.MergeThreshold
  let ratio := s.illConf.merge
  match long with
  | none => if short = noPix then none else some (s.linear p bits' i short false, false)
  | some l =>
    if short = noPix || l = noPix then none
    else
      let ys := s.linear p bits' i short false
      let yl := s.linear p bits' i l true
      if yl < th then some ((yl * 256 + ratio / 2) / ratio, false) else some (ys, th ≤ ys)

/-- The merged values of a raw line. -/
def State.mergedLine (s : State) (p : Nat) (r : RawLine) : List (Option (Nat × Bool)) :=
  let b := pixelBits (s.prt p).conf.dataType
  r.short.zipIdx.map fun q => s.merged p b q.2 q.1 (r.long.map fun l => l.getD q.2 noPix)

/-- The corrected values of a line before replacement (R301). -/
def State.gained (s : State) (p pos : Nat) (ms : List (Option (Nat × Bool))) : List Nat :=
  ms.zipIdx.map fun q =>
    match q.1 with
    | none => noData
    | some (m, _) => min ((m * s.coef p (26624 + 12288 * pos + 2 * q.2) + 8192) / 16384) 65534

/-- Replacement of defective pixels (R301). -/
def State.replaced (s : State) (p : Nat) (v : List Nat) : List Nat :=
  v.zipIdx.map fun q =>
    let a := if q.2 = 0 then noData else v.getD (q.2 - 1) noData
    let b := v.getD (q.2 + 1) noData
    match s.replaceCode p q.2 with
    | 0 => q.1
    | 1 => a
    | 2 => b
    | 3 => if a = noData || b = noData then noData else (a + b + 1) / 2
    | _ => noData

/-- Adds a line to the flat-field sums of its position (R310): m with its count per pixel. -/
def addFlat (width pos : Nat) (ms : List (Option (Nat × Bool))) (sums : List (List (Nat × Nat))) : List (List (Nat × Nat)) :=
  let base := sums ++ List.replicate (8 - sums.length) (List.replicate width (0, 0))
  modAt base pos fun row => (row.zip ms).map fun q =>
    match q.2 with
    | some (m, _) => (q.1.1 + m, q.1.2 + 1)
    | none => q.1

/-- The line stage takes completed lines in order of completion, the lower port first on a tie (R300). -/
def State.lineNext (s : State) (p : Nat) : Bool :=
  match (s.prt p).ready with
  | [] => false
  | r :: _ => (List.range 8).all fun q =>
      match (s.prt q).ready with
      | [] => true
      | o :: _ => r.at' < o.at' || (r.at' == o.at' && p ≤ q)

/-- Notes saturated pixels on the frame whose line it is. -/
def noteSat (p : Nat) (l : List (Nat × Nat)) : Act :=
  setPort p fun x =>
    match x.ended with
    | some f => { x with ended := some { f with sat := f.sat ++ l } }
    | none => { x with frame := x.frame.map fun f => { f with sat := f.sat ++ l } }

/-- The line stage corrects a port's next completed line (R300, R301). -/
def execLineStage (t p : Nat) (s : State) : Host.Outcome State Fault Refusal :=
  perform t (.read fun s =>
    match (s.prt p).ready with
    | [] => .skip
    | r :: rest =>
      if !s.lineNext p then .skip
      else
        let ms := s.mergedLine p r
        let v := s.replaced p (s.gained p r.pos ms)
        let sat := ms.zipIdx.filterMap fun q => match q.1 with
          | some (_, true) => some (r.line, q.2)
          | _ => none
        let before := ((s.prt p).ended.orElse fun _ => (s.prt p).frame).any fun f => !f.sat.isEmpty
        seqs [
          .prim (.storeBytes (shareAt p + 12288 * r.line) (v.flatMap (leBytes 2))),
          setPort p (fun x => { x with
            ready := rest
            flatSum := if x.flatOn then addFlat x.conf.width r.pos ms x.flatSum else x.flatSum }),
          noteSat p sat,
          when (!sat.isEmpty && !before) (camEvent 175 p) ]) s

/-- Frames are taken in order of frame end, the lower port first on a tie (R303). -/
def State.takeNext (s : State) (p : Nat) : Bool :=
  let able := fun (q : Nat) => (s.prt q).ended.isSome && (s.prt q).ready.isEmpty && (s.prt q).staged.isNone
  able p && (List.range 8).all fun q =>
    !able q || match (s.prt p).ended, (s.prt q).ended with
      | some a, some b => a.endAt < b.endAt || (a.endAt == b.endAt && p ≤ q)
      | _, _ => true

/-- The pixels of a frame in its share. -/
def State.sharePixels (s : State) (p lines width : Nat) : List (List Nat) :=
  (List.range lines).map fun n => (List.range width).map fun i => Memory.value s.mem (shareAt p + 12288 * n + 2 * i) 2

/-- A finished frame is taken into the frame stage (R303, R312). -/
def execFrameStageTake (t p : Nat) (s : State) : Host.Outcome State Fault Refusal :=
  perform t (.read fun s =>
    when (s.fnOn fnInspect && s.takeNext p)
      (seqs [
        setPort p (fun x => { x with
          ended := none
          flatFrames := if x.flatOn then x.flatFrames + 1 else x.flatFrames
          staged := x.ended.map fun f => { f with pix := s.sharePixels p (s.reg K.FrameLines) x.conf.width } }),
        .prim (.cam fun x => { x with stage := x.stage ++ [p] }),
        (.read fun s => put K.FramesInFrameStage s.cam.stage.length) ])) s

/-- Lines of a frame at a position. -/
def Frame.linesAt (f : Frame) (pos : Nat) : List (List Nat) :=
  f.pix.zipIdx.filterMap fun q => if f.shot.bands ≠ 0 && q.2 % f.shot.bands = pos then some q.1 else none

/-- Histogram of a position (R305). -/
def Frame.histogram (f : Frame) (pos : Nat) : List Nat :=
  let vs := ((f.linesAt pos).flatten.filter (· != noData)).map (· / 256)
  (List.range 256).map fun c => vs.count c

/-- Mean and count of a zone at a position (R305). -/
def Frame.zone (f : Frame) (zw z pos : Nat) : Nat × Nat :=
  let vs := ((f.linesAt pos).flatMap fun l => (l.drop (z * zw)).take zw).filter (· != noData)
  (if vs.isEmpty then 65535 else (roundDiv vs.sum vs.length).toNat, vs.length)

/-- Saturated pixels of a zone at a position. -/
def Frame.zoneSat (f : Frame) (zw z pos : Nat) : Nat :=
  (f.sat.filter fun q => f.shot.bands != 0 && q.1 % f.shot.bands == pos && q.2 / zw == z).length

/-- The copy a label lies in (R305): the measured Bases first, else by the copy length in force. -/
def State.copyAt (s : State) (label : Int) : Int :=
  match s.pos.bases.find? fun b => b.2 ≤ label with
  | some b => if s.base (b.1 + 1) ≤ label then b.1 + 1 else b.1
  | none =>
    let len : Int := s.master.len * 2 ^ 32
    if len = 0 then s.master.copies else s.master.copies + (label - s.base s.master.copies) / len

/-- The statistics record (R305). -/
def State.statRecord (s : State) (p : Nat) (f : Frame) : List Nat :=
  let zw := s.reg K.ZoneWidth
  let w := (s.prt p).conf.width
  let zones := ceilDiv w zw
  let label := roundShift f.shot.label 32
  let m := s.copyAt f.shot.label
  let flags := (if f.frayed then 1 else 0) + (if f.padded then 2 else 0) + (if f.cut then 4 else 0)
    + (if f.sat.isEmpty then 0 else 8) + (if f.fresh then 16 else 0)
  leBytes 2 0x5354 ++ [0x10, p, flags, f.shot.bands, f.shot.exps, f.shot.mode] ++ leBytes 4 f.seq ++ leBytes 2 f.number
    ++ leBytes 2 (s.reg K.FrameLines) ++ leBytes 8 (rawOf 8 label) ++ leBytes 8 (rawOf 8 m)
    ++ leBytes 8 (rawOf 8 (roundShift (f.shot.label - s.base m) 32)) ++ stampBytes f.shot.stamp ++ leBytes 2 w
    ++ leBytes 2 zw ++ leBytes 2 zones ++ leBytes 4 f.shot.rows ++ leBytes 2 0
    ++ ((List.range f.shot.bands).flatMap fun b => (f.histogram b).flatMap (leBytes 4))
    ++ ((List.range zones).flatMap fun z => (List.range f.shot.bands).flatMap fun b =>
      let zc := f.zone zw z b
      leBytes 2 zc.1 ++ leBytes 2 (min (f.zoneSat zw z b) 65535) ++ leBytes 4 zc.2)

/-- The record goes to the port's ring (R305). -/
def writeRecord (p : Nat) (f : Frame) : Act :=
  .read fun s =>
    let i := s.reg (portKey K.StatisticsWriteIndex p)
    seqs [
      writeDram (statisticsAt + 0x200000 * p + 65536 * (i % 32)) (s.statRecord p f),
      addTo (portKey K.StatisticsWriteIndex p) 4 1 ]

/-- Fields of a LadderRequests entry (R306). -/
def reqStart (e : List Nat) : Int := signedOf 8 (field e 0 8)
def reqEnd (e : List Nat) : Int := signedOf 8 (field e 8 8)
def reqPitch (e : List Nat) : Nat := field e 17 1
def reqPhase (e : List Nat) : Nat := field e 18 1
def reqBands (e : List Nat) : Nat := field e 19 1
def reqId (e : List Nat) : Nat := field e 20 4

/-- Label of line n of a frame (R295). -/
def State.frameLabel (s : State) (f : Frame) (n : Nat) : Int := f.shot.label + n * s.reg K.CameraLinePitch

/-- A line of a frame is usable for a rung (R307). -/
def State.rungLine (s : State) (f : Frame) (e : List Nat) (n : Nat) : Bool :=
  let lo := (reqStart e + s.reg K.RungMargin) * 2 ^ 32
  let hi := (reqEnd e - s.reg K.RungMargin) * 2 ^ 32
  lo ≤ s.frameLabel f n && s.frameLabel f n < hi && f.shot.bands != 0 && bit (reqBands e) (n % f.shot.bands)

/-- The columns of a rung on a port with their centre pixel (R307). -/
def rungColumns (origin : Int) (width : Nat) (e : List Nat) : List (Nat × Nat) :=
  let np := reqPitch e
  let h := np / 4
  (List.range (2 * width)).filterMap fun (i : Nat) =>
    let x : Int := origin + i
    if np ≠ 0 && 0 ≤ x && x.toNat % np = reqPhase e && h ≤ i / 2 && i / 2 + h < width then some (x.toNat, i / 2) else none

/-- A column's sums over the usable lines of a frame (R307): lines, S, Sx, and a NoData met. -/
def columnSums (flat h c : Nat) (lines : List (List Nat)) : Nat × Nat × Int × Bool :=
  lines.foldl (fun acc l =>
    let w := (List.range (2 * h + 1)).map fun k => l.getD (c + k - h) noData
    if w.contains noData then (acc.1, acc.2.1, acc.2.2.1, true)
    else
      let a := w.map fun v => flat - v
      (acc.1 + 1, acc.2.1 + a.sum, acc.2.2.1 + (a.zipIdx.map fun q => (q.1 : Int) * ((q.2 : Int) - h)).sum, acc.2.2.2))
    (0, 0, 0, false)

/-- The sums of a rung over one frame, on top of what was carried (R307, R308). -/
def State.rungSums (s : State) (p : Nat) (f : Frame) (e : List Nat) (carried : Option RungSum) : RungSum :=
  let ns := (List.range f.pix.length).filter (s.rungLine f e)
  let lines := ns.map fun n => f.pix.getD n []
  let conf := (s.prt p).conf
  let here := (rungColumns conf.origin conf.width e).map fun c =>
    columnSums (s.reg K.FlatTarget) (reqPitch e / 4) c.2 lines
  let zero := here.map fun _ => ((0, 0, 0, false) : Nat × Nat × Int × Bool)
  let old := match carried with
    | some r => if r.cols.length = here.length then r.cols else zero
    | none => zero
  { entry := e, used := ns.length + ((carried.map (·.used)).getD 0), seq := f.seq,
    cols := (old.zip here).map fun q =>
      (q.1.1 + q.2.1, q.1.2.1 + q.2.2.1, q.1.2.2.1 + q.2.2.2.1, q.1.2.2.2 || q.2.2.2.2),
    bad := f.frayed || (carried.any fun r => r.bad || r.seq + 1 != f.seq) }

/-- A rung's result on a port (R307, R308): the rung mean, and per column its density, centroid and flags. -/
structure RungDone where
  entry : List Nat
  port : Nat
  frayed : Bool
  straddled : Bool
  used : Nat
  mean : Nat
  cols : List (Nat × Nat × Int × Nat)

/-- The results of a rung's sums (R307): with L a common multiple of the line counts, R = ΣSL/n ÷ (L × N). -/
def rungResult (p : Nat) (frayed straddled : Bool) (columns : List (Nat × Nat)) (r : RungSum) : RungDone :=
  let live := r.cols.filter fun c => 0 < c.1
  let l := live.foldl (fun m c => Nat.lcm m c.1) 1
  let total := (live.map fun c => c.2.1 * (l / c.1)).sum
  let n := live.length
  { entry := r.entry, port := p, frayed := frayed, straddled := straddled, used := r.used,
    mean := if n = 0 then 0 else (roundDiv total (l * n)).toNat,
    cols := (columns.zip r.cols).map fun q =>
      let c := q.2
      let nd := if c.2.2.2 then 2 else 0
      if straddled || c.1 = 0 || c.2.1 = 0 || total = 0 then (q.1.1, 0, 0, 1 + nd)
      else (q.1.1, (min (roundDiv (c.2.1 * 4096 * l * n) (c.1 * total)) 65535).toNat,
        clampInt (-127) 127 (roundDiv (16 * c.2.2.1) c.2.1), nd) }

/-- The valid entries of LadderRequests. -/
def State.ladderEntries (s : State) : List (List Nat) :=
  (List.range 256).filterMap fun i =>
    if bit (Memory.byte s.mem (ladderRequestsAt + 32 * i + 24)).toNat 0 then some (s.bytesAt (ladderRequestsAt + 32 * i) 32)
    else none

/-- The rungs that a frame completes, and those it carries over (R307, R308). -/
def State.measureRungs (s : State) (p : Nat) (f : Frame) : List RungDone × List RungSum :=
  let x := s.prt p
  let period := (s.reg K.FrameLines + s.reg K.FrameGapLines) * s.reg K.CameraLinePitch
  let fresh := s.ladderEntries.filter fun e => !(x.carry.any fun r => r.entry == e)
  let work := (x.carry.map fun r => (r.entry, some r)) ++ fresh.map fun e => (e, none)
  let got := work.filterMap fun (e, c) =>
    let r := s.rungSums p f e c
    if r.used = 0 && c.isNone then none
    else
      let more := decide (f.shot.label + period < (reqEnd e - s.reg K.RungMargin) * 2 ^ 32)
      let lostHead := x.lost && c.isNone && decide ((reqStart e + s.reg K.RungMargin) * 2 ^ 32 < f.shot.label)
      some ({ r with bad := r.bad || lostHead }, more, c.isSome || lostHead)
  ((got.filter fun g => !g.2.1).map fun g =>
      rungResult p f.frayed (g.1.bad && g.2.2) (rungColumns x.conf.origin x.conf.width g.1.entry) g.1,
    (got.filter fun g => g.2.1).map (·.1))

/-- The column result record (R308). -/
def RungDone.record (r : RungDone) : List Nat :=
  let e := r.entry
  leBytes 4 (reqId e) ++ [r.port, field e 16 1, reqPitch e, (if r.frayed then 1 else 0) + if r.straddled then 2 else 0]
    ++ leBytes 4 ((r.cols.head?.map (·.1)).getD 0) ++ leBytes 2 r.cols.length ++ leBytes 2 r.used ++ leBytes 4 r.mean
    ++ leBytes 12 0 ++ r.cols.flatMap fun c => leBytes 2 c.2.1 ++ leBytes 1 (rawOf 1 c.2.2.1) ++ [c.2.2.2]

/-- Column records go to their ring (R308). -/
def writeColumns (l : List RungDone) (p : Nat) : Act :=
  .seq
    (each l fun r => .read fun s =>
      .seq (writeDram (columnRingAt + 8192 * (s.reg K.ColumnWriteIndex % 512)) r.record) (addTo K.ColumnWriteIndex 4 1))
    (when (!l.isEmpty) (camEvent 170 p))

/-- Shares that a port of N lines takes (R25). -/
def sharesOf (p lines : Nat) : List Nat := (List.range (ceilDiv lines 256)).map (p + ·)

/-- The staged configuration of a port. -/
def State.portStaged (s : State) (p : Nat) : PortConf :=
  let k := fun key => s.reg (portKey key p)
  { enable := k K.PortEnable == 1, lanes := k K.LaneCount, rate := k K.LaneRate, dataType := k K.DataType,
    image := k K.ImageVirtualChannel, dark := k K.DarkVirtualChannel, width := k K.Width,
    origin := s.regI (portKey K.PortOriginAcross p) 4, trim := s.regI (portKey K.AlongTrim p) 4, cci := k K.CciClock }

/-- The first failing check of a PortCommit (R25, R293), 0 for none. -/
def State.portRefusal (s : State) (p : Nat) (c : PortConf) : Nat :=
  let mine := sharesOf p (s.reg K.FrameLines)
  let others := (List.range 8).filter fun q => q != p && (s.prt q).conf.enable
  if !([1, 2, 4].contains c.lanes) || c.rate < 80 || 2500 < c.rate then 1
  else if c.width % 2 = 1 || c.width < 16 || 6144 < c.width then 2
  else if !([0x2B, 0x2C, 0x2E].contains c.dataType) then 3
  else if 3 < c.image || 3 < c.dark || c.image = c.dark then 4
  else if 8 * c.lanes * c.rate * 1000000 < 10 * ((c.width * pixelBits c.dataType + 48) * 80315) then 5
  else if c.enable && (mine.any (fun q => s.portCount ≤ q)
      || others.any fun o => (sharesOf o (s.reg K.FrameLines)).any mine.contains) then 6
  else if c.width ≠ (s.prt p).conf.width && s.reg K.CalibrationState ≠ 0 then 7
  else 0

/-- Both banks of a port hold the neutral block of its width (R302). -/
def neutralBanks (p width : Nat) : Act :=
  let block := (List.range 131072).map (neutralByte width)
  seqs [
    .prim (.storeBytes (coefficientAt p true) block), .prim (.storeBytes (coefficientAt p false) block),
    bumpVersion (0x5900 + p), bumpVersion (0x5908 + p),
    put (portKey K.DefectPixelCount p) 0,
    setPort p (fun x => { x with pend := none, banks := x.banks + 1, fresh := true }) ]

/-- PortCommit (R293, R302). -/
def effPortCommit (p : Nat) : Effect := fun s w =>
  let c := s.portStaged p
  let code := s.portRefusal p c
  if w.val ≠ 1 then accept .skip
  else if code ≠ 0 then
    ⟨abMode, .seq (put (portKey K.PortCommitRefusal p) code) (when (code == 6) (camEvent 173 p))⟩
  else accept (seqs [
    put (portKey K.PortCommitRefusal p) 0,
    setPort p (fun x => { x with
      conf := c, shots := [], frame := none, dropping := false, ready := [], ended := none, carry := [] }),
    when (c.width != (s.prt p).conf.width) (neutralBanks p c.width),
    when (s.portState p != 3) (.seq (put (portKey K.PortState p) (if c.enable then 1 else 0))
      (send (.ball (.camRstN p) (if c.enable then 1 else 0)))),
    syncLoop ])

/-- A port's configuration is committed. -/
def execPortCommit (t p : Nat) (w : Wr) (s : State) : Host.Outcome State Fault Refusal :=
  perform t (when (p < 8) (writeBy (0x4200 + 0x10 * p) 0x0B (effPortCommit p) w)) s

/-- PortRestart (R312). -/
def effPortRestart (p : Nat) : Effect := fun s w =>
  if 1 < s.mode then refuse abMode
  else if w.val ≠ 1 then accept .skip
  else accept (when (s.portState p == 3) (seqs [
    restartSource (faultSource 2 p),
    put (portKey K.PortState p) (if (s.prt p).conf.enable then 1 else 0),
    send (.ball (.camRstN p) (if (s.prt p).conf.enable then 1 else 0)),
    syncLoop ]))

/-- A retired port restarts. -/
def execPortRestart (t p : Nat) (w : Wr) (s : State) : Host.Outcome State Fault Refusal :=
  perform t (when (p < 8) (writeBy (0x4200 + 0x10 * p) 0x0C (effPortRestart p) w)) s

/-- A Replace table is sound (R302 code 3). -/
def replaceSound (b : List Nat) (width : Nat) : Bool :=
  let r := fun i => field b (124928 + i) 1
  (List.range 6144).all fun i => r i ≤ 4
    && (width ≤ i || match r i with
      | 1 => i != 0 && r (i - 1) == 0
      | 2 => i + 1 < width && r (i + 1) == 0
      | 3 => i != 0 && i + 1 < width && r (i - 1) == 0 && r (i + 1) == 0
      | _ => true)

/-- No Lin table falls (R302 code 4). -/
def linRises (b : List Nat) : Bool :=
  [32, 546].all fun o => (List.range 256).all fun j => field b (o + 2 * j) 2 ≤ field b (o + 2 * j + 2) 2

/-- The first failing check of a coefficient block (R302), 0 for none. -/
def coefRefusal (width : Nat) (b : List Nat) : Nat :=
  if field b 0 2 ≠ 0x4643 || field b 2 1 ≠ 0x10 || field b 28 4 ≠ crc32 (b.take 28 ++ b.drop 32) then 1
  else if field b 4 2 ≠ width then 2
  else if !replaceSound b width then 3
  else if !linRises b then 4
  else 0

/-- An accepted block waits for its frame (R302). -/
def pendBlock (p : Nat) (b : List Nat) : Act :=
  .read fun s =>
    .seq (put (K.CoefficientCommitRefusal + p) 0)
      (setPort p fun x => { x with pend := some (b, if isPrint s.mode then some (s.master.copies + 1) else none) })

/-- CoefficientCommit (R302). -/
def effCoefCommit (p : Nat) : Effect := fun s w =>
  let b := s.bytesAt (coefficientAt p false) 131072
  let code := coefRefusal (s.prt p).conf.width b
  if w.val ≠ 1 then accept .skip
  else if code ≠ 0 then ⟨abMode, put (K.CoefficientCommitRefusal + p) code⟩
  else accept (pendBlock p b)

/-- A port's staging coefficient block is committed. -/
def execCoefficientCommit (t p : Nat) (w : Wr) (s : State) : Host.Outcome State Fault Refusal :=
  perform t (when (p < 8) (writeBy 0x2903 (p + 1) (effCoefCommit p) w)) s

/-- A pending block comes into force at a frame with this first label (R302). -/
def coefInForce (p : Nat) (label : Int) : Act :=
  .read fun s =>
    match (s.prt p).pend with
    | none => .skip
    | some (b, wait) =>
      let due := match wait with
        | none => true
        | some m => decide (s.base m ≤ label)
      when due (seqs [
        .prim (.storeBytes (coefficientAt p false) (s.bytesAt (coefficientAt p true) 131072)),
        .prim (.storeBytes (coefficientAt p true) b),
        bumpVersion (0x5900 + p), bumpVersion (0x5908 + p),
        put (portKey K.CoefficientBankInForce p) (1 - s.reg (portKey K.CoefficientBankInForce p)),
        put (portKey K.DefectPixelCount p)
          (((List.range 6144).filter fun i => field b (124928 + i) 1 != 0).length),
        setPort p (fun x => { x with pend := none, banks := x.banks + 1, fresh := true }) ])

/-- CciRequest (R294). -/
def effCci (p : Nat) : Effect := fun s w =>
  let b := leBytes w.len w.val
  let n := field b 3 1
  if s.reg (portKey K.CciState p) = 1 then refuse abMode
  else if w.len < 8 || 1 < field b 0 1 || 127 < field b 1 1 || field b 2 1 = 0 || 2 < field b 2 1 || n = 0 || 32 < n
      || field b 6 2 ≠ 0 || (field b 0 1 = 1 && w.len ≠ 8 + n) then refuse abRange
  else accept (seqs [put (portKey K.CciState p) 1, .prim (.cam fun x => { x with cci := x.cci.set p b }),
    send (.cci p b)])

/-- A CCI transfer is requested. -/
def execCciRequest (t p : Nat) (w : Wr) (s : State) : Host.Outcome State Fault Refusal :=
  perform t (when (p < 8) (writeBy (0x4202 + 0x10 * p) 1 (effCci p) w)) s

/-- A CCI transfer ends with a status (R294). -/
def execCciDone (t p status : Nat) (data : List Nat) (s : State) : Host.Outcome State Fault Refusal :=
  perform t (.read fun s =>
    let b := s.cam.cci.getD p []
    if s.reg (portKey K.CciState p) ≠ 1 then .skip
    else
      let read := status == 0 && field b 0 1 == 0
      let reply := [status % 256, field b 3 1, 0, 0] ++ if read then data.take (field b 3 1) else []
      seqs [
        put (portKey K.CciReply p) (closeBytes reply),
        put (portKey K.CciState p) (if status = 0 then 2 else 3),
        .prim (.cam fun x => { x with cci := x.cci.set p [] }),
        when (status != 0) (camEvent 172 p) ]) s

/-- CalibrationState follows the captures (R311). -/
def syncCalibration : Act :=
  .read fun s =>
    let ps := s.livePorts.map s.prt
    let st := if ps.any (·.flatOn) then (if ps.all fun x => !x.flatOn || x.flatPrior.isSome then 3 else 2)
      else if ps.any fun x => x.darkPrior.isSome then 3
      else if ps.any fun x => 0 < x.darkCount then 1
      else 0
    put K.CalibrationState st

/-- The block a captured result is built on (R311). -/
def State.baseBlock (s : State) (p : Nat) : List Nat :=
  match (s.prt p).pend with
  | some (b, _) => b
  | none => s.bytesAt (coefficientAt p true) 131072

/-- Replaces bytes of a block from an offset. -/
def overlay (b : List Nat) (off : Nat) (l : List Nat) : List Nat := b.take off ++ l ++ b.drop (off + l.length)

/-- A block with its CRC made right. -/
def sealBlock (b : List Nat) : List Nat := overlay b 28 (leBytes 4 (crc32 (b.take 28 ++ b.drop 32)))

/-- FlatFieldCaptureRequest (R310). -/
def effFlatRequest : Effect := fun s w =>
  if !((s.mode == mReady || s.mode == mService) && s.speedValid) then refuse abMode
  else if w.val ≠ 1 then accept .skip
  else accept (.seq
    (each s.livePorts fun p => setPort p fun x => { x with
      flatOn := true, flatSum := [], flatFrames := 0, flatPrior := none })
    syncCalibration)

/-- A flat-field capture is requested. -/
def execFlatFieldCaptureRequest (t : Nat) (w : Wr) (s : State) : Host.Outcome State Fault Refusal :=
  perform t (writeBy 0x2900 0x0F effFlatRequest w) s

/-- The gains of a flat capture by position (R310). -/
def State.flatGains (s : State) (sums : List (List (Nat × Nat))) : List (List Nat) :=
  sums.map fun row => row.map fun q =>
    if q.1 = 0 then 65535 else min (roundDiv (s.reg K.FlatTarget * 16384 * q.2) q.1).toNat 65535

/-- A pixel is sound (R310): m0 at least FlatTarget ÷ 4 in every position, its dark at most 16,384. -/
def State.pixelSound (s : State) (base : List Nat) (sums : List (List (Nat × Nat))) (i : Nat) : Bool :=
  sums.all (fun row => let q := row.getD i (0, 0); s.reg K.FlatTarget * q.2 ≤ 4 * q.1)
    && field base (2048 + 2 * i) 2 ≤ 16384 && field base (14336 + 2 * i) 2 ≤ 16384

/-- Replace codes of a flat capture (R310). -/
def State.flatReplace (s : State) (base : List Nat) (sums : List (List (Nat × Nat))) (width : Nat) : List Nat :=
  (List.range width).map fun i =>
    let l := i != 0 && s.pixelSound base sums (i - 1)
    let r := i + 1 < width && s.pixelSound base sums (i + 1)
    if s.pixelSound base sums i then 0 else if l && r then 3 else if l then 1 else if r then 2 else 4

/-- Two captures agree on every value within a tolerance. -/
def capturesAgree (tol : Nat) (used : Nat → Bool) (a b : List (List Nat)) : Bool :=
  a.length == b.length && (a.zip b).all fun q => (q.1.zip q.2).zipIdx.all fun v =>
    !used v.2 || ((v.1.1 : Int) - v.1.2).natAbs ≤ tol

/-- The block of an accepted flat capture (R311). -/
def State.flatBlock (s : State) (p : Nat) (sums : List (List (Nat × Nat))) (gains : List (List Nat)) : List Nat :=
  let base := s.baseBlock p
  let withGains := gains.zipIdx.foldl (fun b g => overlay b (26624 + 12288 * g.2) (g.1.flatMap (leBytes 2))) base
  sealBlock (overlay withGains 124928 (s.flatReplace base sums (s.prt p).conf.width))

/-- A flat-field capture of a port completes (R310, R311). -/
def execFlatFieldCapture (t p : Nat) (s : State) : Host.Outcome State Fault Refusal :=
  perform t (.read fun s =>
    let x := s.prt p
    if !x.flatOn || x.flatFrames < s.reg K.FlatFramesPerCapture then .skip
    else
      let gains := s.flatGains x.flatSum
      let again := setPort p fun x => { x with flatPrior := some gains, flatSum := [], flatFrames := 0 }
      let stop := setPort p fun x => { x with flatOn := false, flatSum := [], flatFrames := 0, flatPrior := none }
      match x.flatPrior with
      | none => .seq again syncCalibration
      | some g =>
        let good := capturesAgree (s.reg K.FlatTolerance) (fun _ => true) g gains
        let base := s.baseBlock p
        let added := (s.flatReplace base x.flatSum x.conf.width).zipIdx.any fun q =>
          q.1 != 0 && field base (124928 + q.2) 1 == 0
        seqs [
          when good (.seq (pendBlock p (s.flatBlock p x.flatSum gains)) (when added (camEvent 174 p))),
          stop,
          calibrationCounted 4 good,
          syncCalibration ]) s

/-- The mean darks of a capture. -/
def darkMeans (count : Nat) (sums : List (List Nat)) : List (List Nat) :=
  sums.map fun l => l.map fun (v : Nat) => (roundDiv v count).toNat

/-- The block of an accepted dark capture (R311). -/
def State.darkBlock (s : State) (p : Nat) (darks : List (List Nat)) : List Nat :=
  sealBlock (darks.zipIdx.foldl (fun b d =>
    overlay b (if d.2 = 0 then 2048 else 14336) (d.1.flatMap (leBytes 2))) (s.baseBlock p))

/-- A granted gap line is taken as a dark line of a port (R309). -/
def execDarkCapture (t p : Nat) (s : State) : Host.Outcome State Fault Refusal :=
  perform t (.read fun s =>
    let x := s.prt p
    let lines := x.darkLines.take (exposures s.mode)
    if !s.portLive p || s.mode = mStandby || lines.length < exposures s.mode then .skip
    else
      let scale := 2 ^ (16 - pixelBits x.conf.dataType)
      let vals := lines.map fun l => l.map (· * scale)
      let sums := if x.darkSum.length = vals.length then (x.darkSum.zip vals).map fun q => (q.1.zip q.2).map fun v => v.1 + v.2
        else vals
      let count := if x.darkSum.length = vals.length then x.darkCount + 1 else 1
      let means := darkMeans count sums
      if count < s.reg K.DarkLinesPerCapture then
        .seq (setPort p fun x => { x with darkLines := [], darkSum := sums, darkCount := count }) syncCalibration
      else
        let base := s.baseBlock p
        match x.darkPrior with
        | none =>
          .seq (setPort p fun x => { x with
            darkLines := [], darkSum := [], darkCount := 0, darkPrior := some means }) syncCalibration
        | some a =>
          let good := capturesAgree (s.reg K.DarkTolerance) (fun i => field base (124928 + i) 1 == 0) a means
          seqs [
            when good (pendBlock p (s.darkBlock p means)),
            setPort p (fun x => { x with darkLines := [], darkSum := [], darkCount := 0, darkPrior := none }),
            calibrationCounted 4 good,
            syncCalibration ]) s

/-- Rules of the port entries and of page 0x29. -/
def effCamera (idx sub : Nat) : Effect :=
  let p := (idx - 0x4200) / 0x10
  if idx = 0x2900 && sub = 0x0F then effFlatRequest
  else if idx = 0x2903 then effCoefCommit (sub - 1)
  else if idx / 256 = 0x42 && idx % 16 = 0 && sub = 0x0B then effPortCommit p
  else if idx / 256 = 0x42 && idx % 16 = 0 && sub = 0x0C then effPortRestart p
  else if idx / 256 = 0x42 && idx % 16 = 2 && sub = 1 then effCci p
  else plain (idx * 256 + sub)

end Sys2Proof.Machine
end

