-- ==== Sys2Proof/Machine/Trigger.lean ====
section
/-! DEFINITION. Sys2Proof/Machine/Trigger.lean: camera lines (R291, R295–R297, R317, R319) and the REJECT_OUT
pulses (R348) that follow the master's total. -/

namespace Sys2Proof.Machine

/-- The lines k of R295 that a forward movement of the total (2^-32 nm) reaches. -/
def State.linesReached (s : State) (p0 p1 : Int) : List Int :=
  let pitch : Int := s.reg K.CameraLinePitch
  let off := s.regI K.CameraOffset 8 * 2 ^ 32
  let first := max ((p0 - off) / pitch + 1) ((s.cam.lastLine.map (· + 1)).getD ((p0 - off) / pitch + 1))
  let last := (p1 - off) / pitch
  (List.range (last + 1 - first).toNat).map fun (n : Nat) => first + (n : Int)

/-- A trigger pulse on a port; the rising edge starts it (R291). -/
def trigPulse (p width : Nat) : Act := send (.ball (.camTrig p) width)

/-- The first image line of a frame: a shot for each live port (R295–R297). -/
def beginFrame (k : Int) : Act :=
  .read fun s =>
    let label := k * s.reg K.CameraLinePitch
    let sh : Shot := {
      k0 := k, mode := s.mode, bands := bandCount s.mode, exps := exposures s.mode, rows := s.reg K.BandSequence,
      label := label, stamp := s.ptp, latest := s.ptp }
    seqs [
      .prim (.cam fun x => { x with now := some sh }),
      each s.livePorts (fun p =>
        let mine := label + (s.prt p).conf.trim * 2 ^ 32
        .seq (coefInForce p mine)
          (setPort p fun x => { x with shots := x.shots ++ [{ sh with label := mine }] })),
      illFrame s.mode ]

/-- Notes a trigger on the shots of the frame that began at line k0. -/
def noteTrigger (k0 : Int) (last unlit : Bool) : Act :=
  .read fun s =>
    let f := fun (h : Shot) =>
      if h.k0 = k0 then
        { h with latest := s.ptp, last := if last then some s.now else h.last, unlit := h.unlit || unlit }
      else h
    .prim (.cam fun x => { x with
      ports := x.ports.map fun q => { q with
        shots := q.shots.map f
        frame := q.frame.map fun (g : Frame) => { g with shot := f g.shot } } })

/-- An image line j of a frame (R291, R297, R317). -/
def imageTrigger (k : Int) (j : Nat) (nodes : List Nat) : Act :=
  .read fun s =>
    let lines := s.reg K.FrameLines
    let sh := s.cam.now.filter fun (h : Shot) => h.k0 == k - j
    let mode := (sh.map (·.mode)).getD s.mode
    let rows := (sh.map (·.rows)).getD (s.reg K.BandSequence)
    let row := bandRow rows (j % bandCount mode)
    let label := roundShift (k * s.reg K.CameraLinePitch) 32
    seqs [
      each s.livePorts (fun p => trigPulse p (if j = 0 then 400 else if j + 1 = lines then 300 else 200)),
      noteTrigger (k - j) (j + 1 == lines) (s.lineUnlit row nodes),
      illLine row mode label nodes ]

/-- A gap line (R296): a dark line where client 04 was granted it (R309). -/
def gapLine : Act :=
  .read fun s =>
    when (s.sys.gapFor == some 4)
      (.seq (each s.livePorts fun p => trigPulse p 600) (.prim (.sys fun x => { x with gapFor := none })))

/-- Camera line k (R296). -/
def cameraLine (k : Int) (nodes : List Nat) : Act :=
  .read fun s =>
    let period := s.reg K.FrameLines + s.reg K.FrameGapLines
    let j := (k % (period : Int)).toNat
    if s.reg K.FrameLines ≤ j then gapLine
    else .seq (when (j == 0) (beginFrame k)) (imageTrigger k j nodes)

/-- The camera lines of a forward movement of the master's total; none is triggered in Standby or while
SpeedValid is clear (R295, R297). `nodes` are the columns whose node is outside PrechargeTolerance. -/
def cameraLines (p0 p1 : Int) (nodes : List Nat) : Act :=
  .read fun s =>
    let ks := s.linesReached p0 p1
    if !s.islandReady islCAM || ks.isEmpty then .skip
    else
      .seq
        (when (s.speedValid && s.mode != mStandby) (each ks fun k => cameraLine k nodes))
        (.prim (.cam fun x => { x with lastLine := ks.getLast?.or x.lastLine }))

/-- The level of REJECT_OUT (R348): inactive on a controller of a pair that is not Holder (R443). -/
def rejectLevel (on : Bool) : Act :=
  .read fun s => send (.ball .rejectOut (if (on && s.isHolder) != s.flag K.RejectActiveLow then 1 else 0))

/-- A pulse that ends by a total ends. -/
def rejectEnd (total : Int) : Act :=
  .read fun s =>
    match s.loop.rejecting with
    | some e => when (decide (e ≤ total)) (.seq (setLoop fun x => { x with rejecting := none }) (rejectLevel false))
    | none => .skip

/-- One pulse begins, or lengthens the one under way (R348). -/
def rejectStart (p : Int × Int) : Act :=
  .seq (rejectEnd p.1) (.read fun s =>
    match s.loop.rejecting with
    | some e => seqs [
        setLoop (fun x => { x with rejecting := some (max e p.2) }), raise 90, addTo K.RejectOverrunCount 4 1]
    | none => .seq (setLoop fun x => { x with rejecting := some p.2 }) (rejectLevel true))

/-- A pulse takes its place by its start. -/
def insertPulse (p : Int × Int) : List (Int × Int) → List (Int × Int)
  | [] => [p]
  | q :: l => if p.1 ≤ q.1 then p :: q :: l else q :: insertPulse p l

/-- The pulses in order of their start. -/
def byStart (l : List (Int × Int)) : List (Int × Int) := l.foldr insertPulse []

/-- REJECT_OUT after a forward movement to a total (R348). -/
def rejectFollow (total : Int) : Act :=
  .read fun s =>
    let due := byStart (s.loop.pulses.filter fun p => p.1 ≤ total)
    seqs [
      setLoop (fun x => { x with pulses := x.pulses.filter fun p => !(decide (p.1 ≤ total)) }),
      each due rejectStart,
      rejectEnd total ]

end Sys2Proof.Machine
end

