-- ==== Sys2Proof/Machine/Loop.lean ====
section
/-! DEFINITION. Sys2Proof/Machine/Loop.lean: the colour loop's measurements and terms (R332–R345) and STATISTICS_READY
(R304–R308). -/

namespace Sys2Proof.Machine

/-- Address of a nozzle's term (R350). -/
def lambdaAt (n : Nat) : Nat := nozzleTermAt + 2 * n

/-- Number of a zone in ZoneState: ink-major, port, zone (R350). -/
def zoneKey (ink p z : Nat) : Nat := (ink * 8 + p) * 768 + z

/-- Address of a zone's record. -/
def zoneAt (key : Nat) : Nat := zoneStateAt + 8 * key

/-- A 16-bit term. -/
def State.term (s : State) (a : Nat) : Nat := Memory.value s.mem a 2

/-- A zone is excluded (R340). -/
def State.zoneExcluded (s : State) (key : Nat) : Bool := bit (s.term (zoneAt key + 6)) 0

/-- A configured port covers a column (R332). -/
def PortConf.covers (c : PortConf) (col : Nat) : Bool :=
  c.origin ≤ (col : Int) && (col : Int) ≤ c.origin + 2 * (c.width : Int) - 1

/-- The port that measures a column: the lowest one Receiving; a column that only other ports cover keeps the
zone of the lowest of those (R332, R341). -/
def State.columnPort (s : State) (col : Nat) : Option Nat :=
  let ps := (List.range s.portCount).filter fun p => (s.prt p).conf.enable && (s.prt p).conf.covers col
  (ps.find? fun p => s.portState p == 2).orElse fun _ => ps.head?

/-- The zone of a column on a port (R332). -/
def State.columnZone (s : State) (p col : Nat) : Nat :=
  ((col : Int) - (s.prt p).conf.origin).toNat / 2 / s.reg K.ZoneWidth

/-- The gain of a nozzle of an ink at a column (R332). -/
def State.gain (s : State) (ink n col : Nat) : Int :=
  let z := match s.columnPort col with
    | some p => s.term (zoneAt (zoneKey ink p (s.columnZone p col)) + 2)
    | none => 16384
  clampInt (s.reg K.GainMin) (s.reg K.GainMax) (roundShift ((s.term (lambdaAt n) * z : Nat) : Int) 14)

/-- BaseKnot of an ink. -/
def State.baseKnot (s : State) (ink j : Nat) : Nat := s.reg (K.BaseKnot + 256 * ink + (j - 1))

/-- Knot j from a gain before its clamp (R333). -/
def State.knotRaw (s : State) (ink j : Nat) (g : Int) : Int :=
  roundDiv (g * s.baseKnot ink j - 16384 * 8192 * j) (16384 * 64)

/-- The eight knots packed as in the nozzle entry, and how many were held at a clamp (R333). -/
def State.knotsFor (s : State) (ink : Nat) (g : Int) : Nat × Nat :=
  let raw := (List.range 8).map fun i => s.knotRaw ink (i + 1) g
  (leNat (raw.map fun v => rawOf 1 (clampInt (-128) 127 v)), (raw.filter fun v => v < -128 || 127 < v).length)

/-- The nozzles whose gain differs between two states: nozzle, knots, knots held (R343). -/
def gainChanges (s0 s1 : State) : List (Nat × Nat × Nat) :=
  let b := s1.reg K.BankInForce
  s1.inks.flatMap fun k => (s1.presentOf b k).filterMap fun n =>
    let col := neColumn (s1.nozzle b n)
    let g := s1.gain k n col
    if g = s0.gain k n col then none else some (n, s1.knotsFor k g)

/-- The knots a nozzle has: of a curve waiting for the builder, else in force. -/
def State.knotsNow (s : State) (n : Nat) : Nat :=
  ((s.tone.curves.find? fun c => c.1 == n).map (·.2)).getD (bits (s.nozzle (s.reg K.BankInForce) n) 64 64)

/-- An update is handed to the builder (R343). `s0` is the state before its terms changed, `old` the terms' former
values, `latest` the PTP time of the latest trigger used. -/
def handOver (s0 : State) (old : List (Nat × Nat)) (latest : Nat) : Act :=
  .read fun s =>
    let ups := gainChanges s0 s
    let curves := (ups.map fun u => (u.1, u.2.1)).filter fun u => u.2 != s.knotsNow u.1
    if s.reg K.BankOwner ≠ 1 then .skip
    else seqs [
      addTo K.KnotsClipped 4 (ups.map (·.2.2)).sum,
      when (!curves.isEmpty) (seqs [
        .prim (.tone fun x => { x with
          curves := curves ++ x.curves.filter fun c => !(curves.any fun u => u.1 == c.1) }),
        wantBuild,
        setLoop (fun x => { x with undo := match x.undo with
          | none => some (old, latest)
          | some (o, l) => some (o ++ old.filter (fun q => !(o.any fun r => r.1 == q.1)), max l latest) }),
        raise 80 ]) ]

/-- New values of terms as (address, value), one of them held at its step or none; the update follows (R343). -/
def applyTerms (terms : List (Nat × Nat)) (limited : Bool) (latest : Nat) : Act :=
  .read fun s0 =>
    let changed := terms.filter fun t => s0.term t.1 != t.2
    if changed.isEmpty then .skip
    else seqs [
      each changed fun t => .prim (.store t.1 2 t.2),
      when limited (.seq (raise 85) (addTo K.StepLimitedCount 4 1)),
      handOver s0 (changed.map fun t => (t.1, s0.term t.1)) latest ]

/-- A term moved towards a value within its step, then within the gain's range; and whether the step held it
(R336, R339). -/
def State.stepTerm (s : State) (old step : Nat) (v : Int) : Nat × Bool :=
  let w := clampInt ((old : Int) - step) ((old : Int) + step) v
  ((clampInt (s.reg K.GainMin) (s.reg K.GainMax) w).toNat, w != v)

/-- The free value for a term whose quotient has divisor 0: the spec states none (notes/assumptions/5.md). -/
def State.freeTerm (s : State) (i : Nat) : Int := Config.freeValue ((s.free + 1) * 2 ^ 32 + i)

/-- A measurement disagreed (R336, R339). -/
def disagreed : Act := .seq (raise 84) (addTo K.MeasurementsDisagreed 4 1)

/-- R(k) of a set (R335). -/
def LadderSet.mean (a : LadderSet) (ink : Nat) : Nat :=
  let l := (a.means.filter fun m => m.1 == ink).map (·.2)
  (roundDiv l.sum l.length).toNat

/-- The results of a set, the lower port's where two measured a nozzle (R335): nozzle, density, centroid. -/
def LadderSet.final (a : LadderSet) : List (Nat × Nat × Int) :=
  (a.results.filter fun r => !(a.results.any fun q => q.1 == r.1 && q.2.1 < r.2.1)).map fun r => (r.1, r.2.2)

/-- The nozzles measured in both sets: nozzle, densities, centroids. -/
def bothMeasured (a b : LadderSet) : List (Nat × (Nat × Int) × (Nat × Int)) :=
  let la := a.final
  b.final.filterMap fun r => (la.find? fun q => q.1 == r.1).map fun q => (r.1, q.2, r.2)

/-- A ladder pair agrees at a nozzle (R336). -/
def State.ladderAgrees (s : State) (x : Nat × (Nat × Int) × (Nat × Int)) : Bool :=
  ((x.2.1.1 : Int) - x.2.2.1).natAbs ≤ s.reg K.LadderAgreement

/-- A nozzle is missing by the ladder (R337). -/
def State.ladderMissing (s : State) (x : Nat × (Nat × Int) × (Nat × Int)) : Bool :=
  bit (s.reg K.SourceMask) 1
    && ((x.2.1.1 < s.reg K.MissingDensity && x.2.2.1 < s.reg K.MissingDensity)
      || (s.reg K.DeviationLimit < x.2.1.2.natAbs && s.reg K.DeviationLimit < x.2.2.2.natAbs))

/-- The new term of a nozzle from an agreeing pair (R336). -/
def State.ladderTerm (s : State) (a b : LadderSet) (x : Nat × (Nat × Int) × (Nat × Int)) : Nat × Bool :=
  let k := s.linkInk (x.1 / 49152)
  let r := roundDiv (a.mean k + b.mean k) 2
  let rho := (x.2.1.1 + x.2.2.1 + 1) / 2
  let d := (r * rho).toNat
  let v := if d = 0 then s.freeTerm x.1 else roundDiv (s.reg (K.RungTarget + k) * 2 ^ 26) d
  s.stepTerm (s.term (lambdaAt x.1)) (s.reg K.LadderStep) v

/-- Λ and RungTarget after a pair (R336). -/
def ladderTerms (a b : LadderSet) (latest : Nat) : Act :=
  .read fun s =>
    let all := bothMeasured a b
    let good := all.filter s.ladderAgrees
    let inkOf := fun (x : Nat × (Nat × Int) × (Nat × Int)) => s.linkInk (x.1 / 49152)
    let fresh := (List.range 8).filter fun k => s.reg (K.RungTarget + k) == 0 && good.any fun x => inkOf x == k
    let moved := good.filter fun x => !fresh.contains (inkOf x) && !s.ladderMissing x
    let terms := moved.map fun x => (lambdaAt x.1, s.ladderTerm a b x)
    seqs [
      each fresh fun k => put (K.RungTarget + k) (roundDiv (a.mean k + b.mean k) 2).toNat,
      applyTerms (terms.map fun t => (t.1, t.2.1)) (terms.any fun t => t.2.2) latest,
      .prim .fresh ]

/-- The slot of a nozzle. -/
def State.slotOf (s : State) (n : Nat) : Option (Nat × Nat) :=
  s.slots.find? fun p => p.1 == n / 49152 && s.reg (slotKey K.SlotFirstNozzle p.1 p.2) ≤ n % 49152
    && n % 49152 < s.reg (slotKey K.SlotFirstNozzle p.1 p.2) + s.reg (slotKey K.SlotNozzleCount p.1 p.2)

/-- The lowest column of a nozzle's slot: the operator side is at column 0 (R3, R344). -/
def State.slotStart (s : State) (ink n : Nat) : Nat :=
  let b := s.reg K.BankInForce
  (((s.presentOf b ink).filter fun m => s.slotOf m == s.slotOf n).map fun m => neColumn (s.nozzle b m)).foldl min 98304

/-- The columns of an ink with a Lower and an Upper nozzle that both sets measured: column, operator-side nozzle,
other nozzle, and the sums of their |centroid| (R344). -/
def State.overlapColumns (s : State) (ink : Nat) (both : List (Nat × (Nat × Int) × (Nat × Int))) :
    List (Nat × Nat × Nat × Nat × Nat) :=
  let b := s.reg K.BankInForce
  let ns := (s.presentOf b ink).map fun n => (n, s.nozzle b n)
  let dev := fun (n : Nat) => (both.find? fun x => x.1 == n).map fun x => x.2.1.2.natAbs + x.2.2.2.natAbs
  (List.range 98304).filterMap fun col =>
    let at' := fun (role : Nat) => (ns.find? fun p => neColumn p.2 == col && neRole p.2 == role).map (·.1)
    match at' roleLower, at' roleUpper with
    | some l, some u =>
      match dev l, dev u with
      | some dl, some du =>
        if s.slotStart ink u < s.slotStart ink l then some (col, u, l, du, dl) else some (col, l, u, dl, du)
      | _, _ => none
    | _, _ => none

/-- Consecutive columns grouped into runs. -/
def runsOf : List (Nat × Nat × Nat) → List (List (Nat × Nat × Nat))
  | [] => []
  | x :: xs =>
    match runsOf xs with
    | (y :: ys) :: rest => if y.1 = x.1 + 1 then (x :: y :: ys) :: rest else [x] :: (y :: ys) :: rest
    | r => [x] :: r

/-- StitchBase value of a role and share (R206). -/
def stitchValue (role share : Nat) : Nat := share + 256 * role

/-- A ramp over a run (R344). -/
def rampOf (run : List (Nat × Nat × Nat)) : List (Nat × Nat) :=
  let w := run.length
  run.zipIdx.flatMap fun x =>
    let share := (roundDiv (256 * (w - x.2)) (w + 1)).toNat
    [(x.1.2.1, stitchValue roleLower share), (x.1.2.2, stitchValue roleUpper share)]

/-- The stitch result of a pair: StitchBase values by nozzle (R344). Where the two deviations are equal the spec names
neither nozzle: a free value chooses. -/
def State.stitchResult (s : State) (both : List (Nat × (Nat × Int) × (Nat × Int))) : List (Nat × Nat) :=
  s.inks.flatMap fun k =>
    let cols := s.overlapColumns k both
    let far := fun (c : Nat × Nat × Nat × Nat × Nat) =>
      decide (2 * s.reg K.OverlapCentroidLimit < max c.2.2.2.1 c.2.2.2.2)
    let faults := (cols.filter far).flatMap fun c =>
      let first := if c.2.2.2.1 = c.2.2.2.2 then s.freeTerm c.1 % 2 == 0 else decide (c.2.2.2.2 < c.2.2.2.1)
      [(c.2.1, stitchValue (if first then roleSilent else roleSolo) 0),
        (c.2.2.1, stitchValue (if first then roleSolo else roleSilent) 0)]
    faults ++ (runsOf ((cols.filter fun c => !far c).map fun c => (c.1, c.2.1, c.2.2.1))).flatMap rampOf

/-- The overlap calibration takes a pair (R344). -/
def overlapStep (both : List (Nat × (Nat × Int) × (Nat × Int))) : Act :=
  .read fun s =>
    let r := s.stitchResult both
    if !s.loop.overlapOn then .skip
    else .seq (.prim .fresh) (match s.loop.overlapFirst with
      | none => setLoop fun x => { x with overlapFirst := some r }
      | some q => seqs [
          setLoop fun x => { x with overlapOn := false, overlapFirst := none },
          when (q == r) (seqs [
            each r fun v => .prim (.store (stitchBaseAt + 2 * v.1) 2 v.2),
            bumpVersion 0x5603,
            wantBuild ]),
          calibrationCounted 1 (q == r) ])

/-- The substitution weights of a set: ink, weight (R345). A rung mean of 0 gives the free value. -/
def State.substWeights (s : State) (a : LadderSet) : List (Nat × Nat) :=
  (List.range 8).filterMap fun k =>
    let l := (a.subst.filter fun x => x.1 == k).map (·.2.2)
    let r := (roundDiv l.sum l.length).toNat
    if l.isEmpty then none
    else some (k, clampNat 63 (if r = 0 then s.freeTerm k else roundDiv (32 * a.mean k) r))

/-- The substitution calibration takes two successive sets (R345). -/
def substStep (a b : LadderSet) : Act :=
  .read fun s =>
    let wa := s.substWeights a
    let wb := s.substWeights b
    let good := wa.map (·.1) == wb.map (·.1) && (wa.zip wb).all fun x =>
      ((x.1.2 : Int) - x.2.2).natAbs ≤ s.reg K.SubstitutionTolerance
    if !s.loop.substOn || a.extras.isEmpty || b.extras.isEmpty then .skip
    else seqs [
      .prim .fresh,
      setLoop (fun x => { x with substOn := false }),
      when good (.seq (each (wa.zip wb) fun x => put (K.SubstituteWeight + x.1.1) (roundDiv (x.1.2 + x.2.2) 2).toNat)
        wantBuild),
      calibrationCounted 2 good ]

/-- Two successive ladder sets (R336, R337, R344, R345). -/
def ladderPair (a b : LadderSet) (latest : Nat) : Act :=
  .read fun s =>
    let both := bothMeasured a b
    let bad := both.any fun x => !s.ladderAgrees x
    let gone := both.filter s.ladderMissing
    seqs [
      when bad disagreed,
      when (!s.frozen) (ladderTerms a b latest),
      each gone fun x => .read fun s =>
        when (s.missingOf x.1 == 0) (.seq (addMissing x.1 2) (addTo K.NozzlesMarkedByLadder 4 1)),
      when (!bad) (overlapStep both),
      substStep a b ]

/-- Two sets are successive (R336). -/
def State.successive (s : State) (a b : LadderSet) : Bool :=
  a.done && b.prev == some a.copy && a.mode == b.mode && a.broken == s.loop.broken
    && ((a.banks ++ b.banks).all fun x => (a.banks ++ b.banks).all fun y => x.1 != y.1 || x.2 == y.2)

/-- Changes the ladder set of a copy. -/
def setLadder (m : Int) (f : LadderSet → LadderSet) : Act :=
  setLoop fun x => { x with sets := x.sets.map fun a => if a.copy = m then f a else a }

/-- Requests of a set are no longer valid. -/
def clearRequests (rungs : List (List Nat)) : Act :=
  .read fun s =>
    each ((List.range 256).filter fun i => rungs.contains (s.bytesAt (ladderRequestsAt + 32 * i) 32)) fun i =>
      writeDram (ladderRequestsAt + 32 * i) (List.replicate 32 0)

/-- A set is measured (R335, R336). -/
def ladderMeasured (m : Int) (latest : Nat) : Act :=
  .read fun s =>
    match s.loop.sets.find? fun a => a.copy == m with
    | none => .skip
    | some b => seqs [
        clearRequests (b.rungs ++ b.extras.map (·.2)),
        each (List.range 8) fun k => when (b.means.any fun x => x.1 == k) (put (K.RungMeasured + k) (b.mean k)),
        setLadder m (fun a => { a with done := true, broken := s.loop.broken }),
        addTo K.LadderSetsMeasured 4 1,
        raise 88,
        (match s.loop.sets.find? fun a => s.successive a b with
          | some a => when s.loopOn (ladderPair a b latest)
          | none => .skip) ]

/-- A column result for the nozzles it stands for (R335): the nozzle's bytes in NozzleDensity, and its result. -/
def nozzleResult (m : Int) (p pass : Nat) (ns : List (Nat × Nat)) (c : Nat × Nat × Int × Nat) : Act :=
  .read fun s =>
    let mine := ns.filter fun n => neColumn n.2 == c.1 && (if pass = 1 then neRole n.2 == roleUpper else neRole n.2 != roleUpper)
    let set' := s.loop.sets.find? fun a => a.copy == m
    each mine fun n => seqs [
      when (!(set'.any fun a => a.results.any fun r => r.1 == n.1 && r.2.1 < p))
        (writeDram (nozzleDensityAt + 4 * n.1) (leBytes 2 c.2.1 ++ leBytes 1 (rawOf 1 c.2.2.1) ++ [c.2.2.2])),
      when (!bit c.2.2.2 0) (setLadder m fun a => { a with results := (n.1, p, c.2.1, c.2.2.1) :: a.results }) ]

/-- A rung's record reaches its set (R335). -/
def rungReported (d : RungDone) (bank : Nat) : Act :=
  .read fun s =>
    let e := d.entry
    let ink := field e 16 1
    let pass := bits (reqId e) 11 1
    let b := s.reg K.BankInForce
    let ns := (s.presentOf b ink).map fun n => (n, s.nozzle b n)
    each (s.loop.sets.filter fun a => !a.done) fun a => seqs [
      each (a.extras.filter fun x => x.2 == e) fun x =>
        setLadder a.copy fun a => { a with subst := (x.1, ink, d.mean) :: a.subst },
      when (a.rungs.contains e) (seqs [
        setLadder a.copy (fun a => { a with
          means := if pass = 0 && !d.cols.isEmpty then (ink, d.mean) :: a.means else a.means
          banks := if a.banks.contains (d.port, bank) then a.banks else (d.port, bank) :: a.banks }),
        each d.cols (nozzleResult a.copy d.port pass ns) ]) ]

/-- The label just past a set's last line. -/
def State.setEnd (s : State) (a : LadderSet) : Int := s.lineLabel a.copy a.mode (a.lastLine + 1)

/-- Distance from one frame's first line to the next's (R296). -/
def State.framePeriod (s : State) : Int := (s.reg K.FrameLines + s.reg K.FrameGapLines) * s.reg K.CameraLinePitch

/-- The ports that are Receiving. -/
def State.receiving (s : State) : List Nat := (List.range s.portCount).filter fun p => s.portState p == 2

/-- A port's frames have passed a set; the set is measured once every port's have (R335). -/
def ladderPast (p : Nat) (f : Frame) : Act :=
  .read fun s =>
    each ((s.loop.sets.filter fun a => !a.done && s.setEnd a ≤ f.shot.label + s.framePeriod).reverse) fun a =>
      .seq
        (setLadder a.copy fun a => { a with past := p :: a.past })
        (when (s.receiving.all fun q => q == p || a.past.contains q) (ladderMeasured a.copy (ptpNanos f.shot.latest)))

/-- A frame lies within a copy's zone window (R338). -/
def State.inWindow (s : State) (m label : Int) : Bool :=
  let b := s.base m
  let span : Int := (s.reg K.FrameLines - 1 : Nat) * s.reg K.CameraLinePitch
  decide (b + s.reg K.ZoneWindowStart * 2 ^ 32 ≤ label) && decide (label + span ≤ b + s.reg K.ZoneWindowEnd * 2 ^ 32)

/-- A frame holds a ladder line (R338). -/
def State.holdsLadder (s : State) (f : Frame) : Bool :=
  let span : Int := (s.reg K.FrameLines - 1 : Nat) * s.reg K.CameraLinePitch
  s.loop.sets.any fun a =>
    s.lineLabel a.copy a.mode a.firstLine ≤ f.shot.label + span && f.shot.label < s.setEnd a

/-- A frame's zone sums for every ink: key ink × 1024 + zone, Σ Mean × Count, Σ Count (R338). -/
def State.zoneSums (s : State) (p : Nat) (f : Frame) : List (Nat × Nat × Nat) :=
  let zw := s.reg K.ZoneWidth
  (List.range 8).flatMap fun k =>
    let ps := (List.range f.shot.bands).filter fun b => bandRow f.shot.rows b == s.reg (K.MeasureRow + k)
    if ps.isEmpty then []
    else (List.range (ceilDiv (s.prt p).conf.width zw)).map fun z =>
      let l := ps.map fun b => f.zone zw z b
      (k * 1024 + z, (l.map fun v => v.1 * v.2).sum, (l.map (·.2)).sum)

/-- Sums added key by key. -/
def addSums (a b : List (Nat × Nat × Nat)) : List (Nat × Nat × Nat) :=
  if a.isEmpty then b
  else a.map fun x => match b.find? fun y => y.1 == x.1 with
    | some y => (x.1, x.2.1 + y.2.1, x.2.2 + y.2.2)
    | none => x

/-- The measurement of a copy on a port. -/
def State.zoneMeas (s : State) (m : Int) (p : Nat) : Option ZoneMeas :=
  s.loop.zones.find? fun z => z.copy == m && z.port == p

/-- Changes the measurement of a copy on a port, begun if need be. -/
def setMeas (m : Int) (p : Nat) (f : ZoneMeas → ZoneMeas) : Act :=
  setLoop fun x =>
    if x.zones.any fun z => z.copy == m && z.port == p then
      { x with zones := x.zones.map fun z => if z.copy = m && z.port == p then f z else z }
    else { x with zones := (f { copy := m, port := p } :: x.zones).take 128 }

/-- A frame's part in the zone measurements of its copies (R338). -/
def zoneFrame (p : Nat) (f : Frame) : Act :=
  .read fun s =>
    let lost := (s.prt p).droppedAt
    each s.fire.copies fun c => seqs [
      when (lost.any (s.inWindow c.num)) (setMeas c.num p fun z => { z with void := true }),
      when (s.inWindow c.num f.shot.label) (setMeas c.num p fun z => { z with
        void := z.void || f.frayed || f.shot.unlit || f.fresh
        mode := f.shot.mode, coef := f.bank, latest := ptpNanos f.shot.latest
        sums := if s.holdsLadder f || !isPrint f.shot.mode then z.sums else addSums z.sums (s.zoneSums p f) }) ]

/-- Absorbances of a measurement by key (R338). -/
def State.absorbances (s : State) (z : ZoneMeas) : List (Nat × Int) :=
  z.sums.filterMap fun x =>
    if x.2.2 = 0 then none else some (x.1, (s.reg K.FlatTarget : Int) - roundDiv x.2.1 x.2.2)

/-- Two zone measurements pair (R339). -/
def State.zonesPair (s : State) (a b : ZoneMeas) : Bool :=
  a.done && b.copy == a.copy + 1 && a.port == b.port && !a.void && !b.void && a.mode == b.mode && a.coef == b.coef
    && a.broken == s.loop.broken
    && match s.copy? a.copy, s.copy? b.copy with
      | some x, some y => x.waste == 0 && y.waste == 0 && x.bankVer == y.bankVer && !y.flipped
      | _, _ => false

/-- An active P overlaps a zone of a port: its columns and its lines within the window (R340). -/
def State.underP (s : State) (m : Int) (p z : Nat) : Bool :=
  match (s.content? m).bind (·.package) with
  | none => false
  | some (n, _) =>
    match s.comp.packages.find? fun q => q.1 == n with
    | none => false
    | some (_, b) =>
      let zw := s.reg K.ZoneWidth
      let c0 : Int := (s.prt p).conf.origin + 2 * (z * zw : Nat)
      let c1 : Int := c0 + 2 * zw
      let mode := ((s.copy? m).map (·.mode)).getD mFidelity
      let y0 : Int := (s.reg K.PrintOrigin : Int) * 2 ^ 32 + linesNm mode (pOriginY b)
      let y1 : Int := (s.reg K.PrintOrigin : Int) * 2 ^ 32 + linesNm mode (pOriginY b + pHeight b)
      pOriginX b < c1 && c0 < pOriginX b + pWidth b && y0 < s.reg K.ZoneWindowEnd * 2 ^ 32
        && s.reg K.ZoneWindowStart * 2 ^ 32 < y1

/-- A zone's reference is captured from an agreeing pair (R340). -/
def captureZone (m : Int) (ink p z : Nat) (aref : Int) : Act :=
  .read fun s =>
    let key := zoneKey ink p z
    let out := aref < s.reg K.ZoneMinAbsorbance || s.underP m p z
    seqs [
      .prim (.store (zoneAt key) 2 (clampNat 65535 aref)),
      .prim (.store (zoneAt key + 6) 2 (if out then 1 else 0)),
      setLoop (fun x => { x with held := key :: x.held }) ]

/-- The new Z of a zone from an agreeing pair (R339). -/
def State.zoneTerm (s : State) (key : Nat) (am : Int) : Nat × Bool :=
  let z := s.term (zoneAt key + 2)
  let num : Int := (z * s.term (zoneAt key) : Nat)
  let v := if am = 0 then s.freeTerm key else roundDiv (if am < 0 then -num else num) am.natAbs
  s.stepTerm z (s.reg K.ZoneStep) v

/-- A capture of an ink ends once every port has given it an agreeing pair; TargetMissing where no zone is left
(R340). -/
def settleCapture (ink : Nat) : Act :=
  .read fun s =>
    let done := s.receiving.all fun p => s.loop.captured.contains (ink, p)
    let zones := s.loop.held.filter fun key => key / 6144 == ink
    when ((s.loop.captureFrom.getD ink none).isSome && done) (seqs [
      setLoop (fun x => { x with captureFrom := x.captureFrom.set ink none }),
      when (zones.all s.zoneExcluded && !s.loop.missing.contains ink)
        (.seq (setLoop fun x => { x with missing := ink :: x.missing }) (raise 86)) ])

/-- An agreeing pair's effect on references and Z (R339, R340): zones as (ink, zone, sum of the absorbances). -/
def zoneUpdate (a b : ZoneMeas) (good : List (Nat × Nat × Int)) : Act :=
  .read fun s =>
    let p := b.port
    let usable := good.filter fun g =>
      (s.inkLinks g.1) != [] && s.rowLit b.mode (s.reg (K.MeasureRow + g.1))
        && match s.loop.captureFrom.getD g.1 none with
          | some m => decide (m ≤ a.copy)
          | none => true
    let fresh := usable.filter fun g => !s.loop.held.contains (zoneKey g.1 p g.2.1)
    let old := usable.filter fun g =>
      s.loop.held.contains (zoneKey g.1 p g.2.1) && !s.zoneExcluded (zoneKey g.1 p g.2.1)
    let terms := old.map fun g =>
      let key := zoneKey g.1 p g.2.1
      (zoneAt key + 2, s.zoneTerm key ((g.2.2 + 1) / 2))
    let inks := (usable.map (·.1)).eraseDups
    seqs [
      each fresh fun g => captureZone b.copy g.1 p g.2.1 ((g.2.2 + 1) / 2),
      setLoop (fun x => { x with captured := x.captured ++ inks.map fun k => (k, p) }),
      each inks settleCapture,
      applyTerms (terms.map fun t => (t.1, t.2.1)) (terms.any fun t => t.2.2) b.latest,
      .prim .fresh ]

/-- A pair of zone measurements is judged (R339, R341). -/
def zonePair (a b : ZoneMeas) : Act :=
  .read fun s =>
    let la := s.absorbances a
    let both := (s.absorbances b).filterMap fun y => (la.find? fun x => x.1 == y.1).map fun x => (y.1, x.2, y.2)
    let agrees := fun (x : Nat × Int × Int) => decide ((x.2.1 - x.2.2).natAbs ≤ s.reg K.ZoneAgreement)
    let good := (both.filter agrees).map fun x => (x.1 / 1024, x.1 % 1024, x.2.1 + x.2.2)
    let told := s.loop.zones.any fun z => z.copy == b.copy && z.disagreed
    let frozen := s.frozen
    seqs [
      when (both.any fun x => !agrees x) (.seq (when (!told) disagreed)
        (setMeas b.copy b.port fun z => { z with disagreed := true })),
      when (!good.isEmpty) (seqs [
        setLoop (fun x => { x with
          agreedAt := max x.agreedAt b.latest, portFault := x.portFault.filter (· != b.port) }),
        syncLoop,
        when (s.loopOn && !frozen) (zoneUpdate a b good) ]) ]

/-- Deviations of a measurement from the references (R346, R347). -/
def State.deviations (s : State) (z : ZoneMeas) : List Nat :=
  (s.absorbances z).filterMap fun x =>
    let key := zoneKey (x.1 / 1024) z.port (x.1 % 1024)
    if s.loop.held.contains key then some ((x.2 : Int) - (s.term (zoneAt key) : Int)).natAbs else none

/-- A copy's zone measurement on a port is complete or void (R338, R341, R346). -/
def zoneDone (m : Int) (p : Nat) : Act :=
  .seq (setMeas m p fun z => { z with done := true })
    (.read fun s =>
      match s.zoneMeas m p with
      | none => .skip
      | some z =>
        let worst := (s.deviations z).foldl max 0
        seqs [
          setMeas m p (fun z => { z with broken := s.loop.broken }),
          (if z.void then
            .seq (setLoop fun x => { x with portFault := p :: x.portFault.filter (· != p) }) syncLoop
          else seqs [
            each (s.absorbances z) (fun x =>
              .prim (.store (zoneAt (zoneKey (x.1 / 1024) p (x.1 % 1024)) + 4) 2 (clampNat 65535 x.2))),
            setCopy m (fun c => { c with deviation := max c.deviation (min worst 65535) }),
            when (s.reg K.WasteDeviation != 0 && s.reg K.WasteDeviation < worst) (wasteCopy m wColour),
            (match s.zoneMeas (m - 1) p with
              | some a => when (s.zonesPair a z) (zonePair a z)
              | none => .skip) ]),
          setCopy m (fun c => { c with measuredBy := p :: c.measuredBy }) ])

/-- The measurements that no further frame of a port can belong to are done (R338). -/
def zoneFinish (p : Nat) (f : Frame) : Act :=
  .read fun s =>
    let span : Int := (s.reg K.FrameLines - 1 : Nat) * s.reg K.CameraLinePitch
    each s.fire.copies fun c =>
      when (s.base c.num + s.reg K.ZoneWindowEnd * 2 ^ 32 < f.shot.label + s.framePeriod + span
          && !(s.zoneMeas c.num p).any (·.done))
        (zoneDone c.num p)

/-- The statistics of the frame longest in the frame stage are ready (R304–R308); the colour loop takes them. -/
def execStatisticsReady (t : Nat) (s : State) : Host.Outcome State Fault Refusal :=
  perform t (.read fun s =>
    match s.cam.stage with
    | [] => .skip
    | p :: rest =>
      let pop := .seq (.prim (.cam fun x => { x with stage := rest })) (put K.FramesInFrameStage rest.length)
      match (s.prt p).staged with
      | none => pop
      | some f =>
        let r := s.measureRungs p f
        seqs [
          writeRecord p f,
          writeColumns r.1 p,
          pop,
          camEvent 169 p,
          each r.1 (fun d => rungReported d f.bank),
          zoneFrame p f,
          setPort p (fun x => { x with staged := none, carry := r.2, lost := false, droppedAt := [] }),
          ladderPast p f,
          zoneFinish p f ]) s

/-- ZoneCaptureRequest (R340). -/
def effZoneCapture : Effect := fun s w =>
  if w.val ≠ 1 then accept .skip else accept (.seq (startCapture (s.master.copies + 1)) syncLoop)

/-- OverlapCalibrationRequest (R344). -/
def effOverlapRequest : Effect := fun s w =>
  if !isPrint s.mode then refuse abMode
  else if w.val ≠ 1 then accept .skip
  else accept (setLoop fun x => { x with overlapOn := true, overlapFirst := none })

/-- SubstitutionCalibrationRequest (R345). -/
def effSubstRequest : Effect := fun s w =>
  if !isPrint s.mode then refuse abMode
  else if w.val ≠ 1 then accept .skip
  else accept (setLoop fun x => { x with substOn := true })

/-- References are to be captured anew. -/
def execZoneCaptureRequest (t : Nat) (w : Wr) (s : State) : Host.Outcome State Fault Refusal :=
  perform t (writeBy 0x2B00 0x12 effZoneCapture w) s

/-- An overlap calibration is requested. -/
def execOverlapCalibrationRequest (t : Nat) (w : Wr) (s : State) : Host.Outcome State Fault Refusal :=
  perform t (writeBy 0x2B00 0x13 effOverlapRequest w) s

/-- A substitution calibration is requested. -/
def execSubstitutionCalibrationRequest (t : Nat) (w : Wr) (s : State) : Host.Outcome State Fault Refusal :=
  perform t (writeBy 0x2B00 0x14 effSubstRequest w) s

/-- A write that waits for the next decision in a print mode (R350). -/
def effStaged (key : Nat) : Effect := fun s w =>
  if isPrint s.mode then accept (setLoop fun x => { x with staged := SMap.put x.staged key w.val })
  else accept (.seq (put key w.val) (when (key == K.MeasureRow || decide (K.MeasureRow < key && key < K.MeasureRow + 8)) syncLoop))

/-- A register as written, staged or in force. -/
def State.stagedReg (s : State) (key : Nat) : Nat := (SMap.find s.loop.staged key).getD (s.reg key)

/-- Rules of page 0x2B. -/
def effLoop (idx sub : Nat) : Effect :=
  let key := idx * 256 + sub
  if idx = 0x2B00 && sub = 0x12 then effZoneCapture
  else if idx = 0x2B00 && sub = 0x13 then effOverlapRequest
  else if idx = 0x2B00 && sub = 0x14 then effSubstRequest
  else if idx = 0x2B00 && sub = 5 then fun s w =>
    if s.stagedReg K.ZoneWindowEnd ≤ w.val then refuse abRange else effStaged key s w
  else if idx = 0x2B00 && sub = 6 then fun s w =>
    if w.val ≤ s.stagedReg K.ZoneWindowStart then refuse abRange else effStaged key s w
  else if idx = 0x2B00 && sub = 9 then fun s w =>
    if s.reg K.GainMax ≤ w.val then refuse abRange else accept (put key w.val)
  else if idx = 0x2B00 && sub = 0xA then fun s w =>
    if w.val ≤ s.reg K.GainMin then refuse abRange else accept (put key w.val)
  else if (idx = 0x2B00 && (sub = 3 || sub = 4)) || idx = 0x2B10 || (0x2B20 ≤ idx && idx ≤ 0x2B27) then effStaged key
  else plain key

end Sys2Proof.Machine
end

