-- ==== Sys2Proof/Machine/Decision.lean ====
section
/-! DEFINITION. Sys2Proof/Machine/Decision.lean: the copy-boundary decision (R46, R173, R174, R183–R187, R191, R192,
R218, R248, R334, R335, R340). -/

namespace Sys2Proof.Machine

/-- The mode that a copy prints in (R43, R46): the pending one from ModeChangeCopy on. -/
def State.copyMode (s : State) (m : Int) : Nat :=
  let p := s.reg K.ModePending
  if p ≠ 0xFF && (s.reg K.ModeChangeCopy : Int) ≤ m then p else s.mode

/-- The copy whose decision is next, with its mode: none where it would not be printed (R185). -/
def State.nextDecision (s : State) : Option (Int × Nat) :=
  let last := (s.fire.copies.getLast?.map fun c => c.num).getD (s.master.copies - 1)
  let change : Int := s.reg K.ModeChangeCopy
  let m := if isPrint s.mode then last + 1
    else if s.reg K.ModePending ≠ 0xFF && change ≤ last then last + 1 else change
  let mode := s.copyMode m
  if (isPrint s.mode || isPrint (s.reg K.ModePending)) && isPrint mode then some (m, mode) else none

/-- The moment of a decision has come: 128 lines before the furthest-upstream row fires line 0 (R185). -/
def State.decisionDue (s : State) (m : Int) (mode : Nat) : Bool :=
  s.activeMaster.isSome && s.lineLabel m mode 0 + s.upstream * 2 ^ 32 - linesNm mode 128 ≤ s.master.total

/-- Lines of a copy (R223). -/
def State.copyLines (s : State) (m : Int) (mode : Nat) : Nat :=
  ceilDiv ((s.copyLen m - s.reg K.PrintOrigin) * alongRes mode) 25400000

/-- A layer's commit is due at a copy: its descriptor. -/
def State.dueCommit (s : State) (l : Nat) (m : Int) : Option Desc :=
  match (s.comp.layers.getD l {}).pending with
  | some (d, target) => if (target : Int) ≤ m then some d else none
  | none => none

/-- A pending commit is fence-ready (R183). -/
def State.fenceReady (s : State) (l : Nat) (d : Desc) : Bool :=
  (s.reg (layerKey K.FenceReached l) + 2 ^ 32 - d.fence) % 2 ^ 32 < 2 ^ 31

/-- A commit due at a decision is late (R184). -/
def State.commitLate (s : State) (l mode : Nat) (d : Desc) : Bool :=
  !s.fenceReady l d || (!d.blank && !((s.job? d.job).any fun j => j.state != 3)) || !s.gridFits l mode d

/-- The advanced extent of an active layer passes the end of its stream (R184). -/
def State.advancePast (s : State) (l : Nat) (d : Desc) : Bool :=
  d.advance != 0 && (s.descStreams l d).flatten.any fun x =>
    !x.streamed && pastEnd { d with offset := d.offset + d.advance } (d.offset + d.advance) x.srcLines

/-- A layer is late of itself (R184). -/
def State.layerLate (s : State) (m : Int) (mode l : Nat) : Bool :=
  match s.dueCommit l m, (s.comp.layers.getD l {}).active with
  | some d, _ => s.commitLate l mode d
  | none, some d => s.advancePast l d
  | none, none => false

/-- The late layers, lateness extended over flip groups (R184, R185 step 3). -/
def State.lateLayers (s : State) (m : Int) (mode : Nat) : List Nat :=
  let own := (List.range 8).filter (s.layerLate m mode)
  let group := fun l => s.reg (layerKey K.FlipGroup l)
  (List.range 8).filter fun l => own.contains l || (group l != 0 && own.any fun o => group o == group l)

/-- The P package that a decision takes: one accepted and not yet in force, else the one in force (R188). -/
def State.packageDue (s : State) : Option (Nat × List Nat) :=
  match s.comp.accepted.orElse fun _ => s.comp.inForce with
  | some n => s.comp.packages.find? fun p => p.1 == n
  | none => none

/-- The serial that P would issue: SerialFirst of a package that flips, else NextSerial. -/
def State.serialDue (s : State) (b : List Nat) : Nat := if s.comp.accepted.isSome then pFirst b else s.reg K.NextSerial

/-- P's serials are exhausted (R191). -/
def State.serialsGone (s : State) (b : List Nat) : Bool := pFieldCount b != 0 && pLast b < s.serialDue b

/-- P is late (R191). -/
def State.packageLate (s : State) (mode : Nat) : Bool :=
  match s.packageDue with
  | some (_, b) => pGrid b != (if mode = mVelocity then 1 else 0) || s.serialsGone b
  | none => false

/-- NotReadyPolicy of a layer, 8 for P. -/
def State.policy (s : State) (l : Nat) : Nat := s.reg (layerKey K.NotReadyPolicy l)

/-- The active content of a layer draws on a Streamed stream. -/
def State.activeStreamed (s : State) (l : Nat) : Bool :=
  match (s.comp.layers.getD l {}).active with
  | some d => (s.descStreams l d).flatten.any Stream.streamed
  | none => false

/-- A late layer is empty for the copy: Blank, or Hold over streamed content (R186). -/
def State.blankedLate (s : State) (l : Nat) : Bool := s.policy l == 1 || (s.policy l == 0 && s.activeStreamed l)

/-- The written stretch brought in (R174). -/
def stretchStep (m : Int) : Act :=
  .read fun s =>
    let a := s.regI K.StretchAcross 4
    let b := s.regI K.StretchAlong 4
    let ca := clampInt (-30000) 30000 a
    let cb := clampInt (-30000) 30000 b
    seqs [
      when (ca != a || cb != b) (raise 54),
      when (s.regI K.StretchAcrossActual 4 != ca || s.regI K.StretchAlongActual 4 != cb) (startCapture m),
      put K.StretchAcrossActual (rawOf 4 ca), put K.StretchAlongActual (rawOf 4 cb) ]

/-- A layer flips (R185 step 4). -/
def flipLayer (m : Int) (l : Nat) (d : Desc) : Act :=
  seqs [
    setLayer l (fun _ => { active := some d, pending := none }),
    put (layerKey K.LayerState l) (if d.blank then 0 else 1),
    put (layerKey K.ActiveJobId l) d.job,
    put (layerKey K.ActiveSince l) (rawOf 8 m),
    put (layerKey K.PendingCopy l) 0xFFFFFFFFFFFFFFFF,
    put (layerKey K.ActiveSourceLine l) d.offset ]

/-- LayerState of a layer that did not flip: 0 where empty. -/
def keepLayer (l state : Nat) : Act :=
  .read fun s =>
    let y := s.comp.layers.getD l {}
    put (layerKey K.LayerState l) (if y.isEmpty then 0 else if state = 1 && y.pending.isSome then 2 else state)

/-- An active layer advances (R185 step 5). -/
def advanceLayer (l : Nat) : Act :=
  .read fun s =>
    match (s.comp.layers.getD l {}).active with
    | some d =>
      let off := (d.offset + d.advance) % 2 ^ 32
      seqs [
        setLayer l (fun y => { y with active := some { d with offset := off } }),
        put (layerKey K.ActiveSourceLine l) off,
        keepLayer l 1 ]
    | none => keepLayer l 1

/-- One layer at a decision (R185 steps 4 to 7, R186). -/
def decideLayer (m : Int) (late : List Nat) (l : Nat) : Act :=
  .read fun s =>
    if late.contains l then
      let unfenced := match s.dueCommit l m with
        | some d => !s.fenceReady l d
        | none => false
      seqs [
        addTo (layerKey K.LateCount l) 4 1, addTo K.LateLayerCount 4 1, raise 49,
        when unfenced (raise 51),
        keepLayer l (if s.blankedLate l then 4 else 3) ]
    else match s.dueCommit l m with
      | some d => flipLayer m l d
      | none => advanceLayer l

/-- P's block shows the package in force (R195). -/
def showPackage (b : List Nat) : Act :=
  seqs [
    put 0x438004 (pHeight b), put 0x438005 (rawOf 4 (pOriginX b)), put 0x438006 (rawOf 4 (pOriginY b)),
    put K.NextSerial (pFirst b), put K.SerialLast (pLast b) ]

/-- P at a decision (R188, R191, R192). -/
def decidePackage (m : Int) (late : Bool) : Act :=
  .read fun s =>
    match s.packageDue with
    | none => .skip
    | some (n, b) =>
      if late then
        seqs [when (s.serialsGone b) (raise 56), addTo (layerKey K.LateCount 8) 4 1, addTo K.LateLayerCount 4 1, raise 49,
          put (layerKey K.LayerState 8) 4]
      else
        let serial := s.serialDue b
        seqs [
          when s.comp.accepted.isSome (seqs [
            .prim (.comp fun c => { c with inForce := some n, accepted := none }),
            showPackage b,
            put (layerKey K.ActiveSince 8) (rawOf 8 m) ]),
          put (layerKey K.LayerState 8) (if pWidth b = 0 && pFieldCount b = 0 then 0 else 1),
          when (pFieldCount b != 0) (seqs [
            put K.LastIssuedSerial serial, put K.LastIssuedCopy (rawOf 8 m), put K.NextSerial ((serial + 1) % 2 ^ 64) ]) ]

/-- The view of a layer on an ink (R173, R176). -/
def State.viewOf (s : State) (l mode ink : Nat) (d : Desc) : Option InkView :=
  let xs := s.layerStreams d.job l ink
  match xs with
  | [] => none
  | x :: _ =>
    let tiles := xs.foldl (fun (acc : List (Nat × Nat × Nat) × Nat) x =>
      (acc.1 ++ [(acc.2, x.width, x.id)], acc.2 + x.width)) ([], 0)
    some {
      tiles := tiles.1, bits := x.bits, width := tiles.2, lines := extentLines d x.srcLines,
      s0X := step0 x.resX 1200, sX := stepS x.resX 1200 (s.regI K.StretchAcrossActual 4),
      s0Y := step0 x.resY (alongRes mode), sY := stepS x.resY (alongRes mode) (s.regI K.StretchAlongActual 4) }

/-- What the copy prints of each layer (R185). -/
def State.copyLayers (s : State) (mode : Nat) (blanked : List Nat) : List (Option (Desc × List (Option InkView))) :=
  (List.range 8).map fun l =>
    match (s.comp.layers.getD l {}).active with
    | some d => if d.blank || blanked.contains l then none else some (d, (List.range 8).map fun k => s.viewOf l mode k d)
    | none => none

/-- P as the copy prints it: the package and the serial issued. -/
def State.copyPackage (s : State) (late : Bool) : Option (Nat × Nat) :=
  match s.comp.inForce with
  | some n => if late then none else some (n, s.reg K.LastIssuedSerial)
  | none => none

/-- The screen slots and phases of the inks (R211). -/
def State.screenPick (s : State) (mode : Nat) : List Nat :=
  ((List.range 8).map fun k => s.reg ((if codeBits mode = 4 then K.ScreenSelect16State else K.ScreenSelect4State) + k))
    ++ ((List.range 8).map fun k => s.reg (K.AcrossPhase + k)) ++ (List.range 8).map fun k => s.reg (K.AlongPhase + k)

/-- The limits of R202. -/
def State.limitPick (s : State) : List Nat :=
  ((List.range 8).map fun k => s.reg (K.InkLimit + k)) ++ [s.reg K.InkLimitTotal, s.reg K.InkLimitMask]

/-- Waveform switches due at a copy (R248). -/
def switchesDue (m : Int) : Act :=
  .read fun s =>
    each ((List.range 8).filter fun ty =>
      s.reg (K.WaveSwitchCopy + ty) != 0xFFFFFFFFFFFFFFFF && (s.reg (K.WaveSwitchCopy + ty) : Int) ≤ m) switchType

/-- The bank flip due at a copy (R218). -/
def bankFlipDue (m : Int) : Act :=
  .read fun s =>
    when (s.reg K.BankCommitState == 2 && (s.reg K.BankCommitCopy : Int) ≤ m) (flipBank (rawOf 8 m))

/-- Writes of R350 that waited come into force. -/
def stagedLoop : Act :=
  .read fun s =>
    .seq (each s.loop.staged fun p => put p.1 p.2) (setLoop fun x => { x with staged := [] })

/-- The passes of each ink's ladder block: 0 without links, 2 where the ink has an Upper nozzle (R334). -/
def State.ladderPasses (s : State) : List Nat :=
  let b := s.reg K.BankInForce
  (List.range 8).map fun k =>
    if (s.inkLinks k).isEmpty then 0
    else if (s.presentOf b k).any fun n => neRole (s.nozzle b n) == roleUpper then 2 else 1

/-- The bands that see an ink's MeasureRow in a mode (R335). -/
def State.bandMask (s : State) (mode ink : Nat) : Nat :=
  ((List.range (bandCount mode)).map fun p =>
    if bandRow (s.reg K.BandSequence) p = s.reg (K.MeasureRow + ink) then 2 ^ p else 0).sum

/-- A request entry of a rung that starts at a line (R306, R335). -/
def State.rungEntry (s : State) (m : Int) (mode ink mask pass rung line : Nat) : List Nat :=
  let lab := fun (y : Nat) => rawOf 8 (roundShift (s.lineLabel m mode y) 32)
  leBytes 8 (lab line) ++ leBytes 8 (lab (line + s.reg K.LadderRungLines)) ++ [ink, s.reg K.LadderPitch, rung, mask]
    ++ leBytes 4 (rawOf 2 m * 2 ^ 16 + ink * 2 ^ 12 + pass * 2 ^ 11 + rung) ++ [1] ++ List.replicate 7 0

/-- The first line of each ink's block. -/
def blockStarts (start size : Nat) : List Nat → List Nat
  | [] => []
  | p :: ps => start :: blockStarts (start + p * size) size ps

/-- The rungs of a set, and those asked for by the substitution calibration (R335, R345). -/
def State.ladderRungs (s : State) (m : Int) (mode start : Nat) (passes : List Nat) :
    List (List Nat) × List (Nat × List Nat) :=
  let np := s.reg K.LadderPitch
  let step := s.reg K.LadderRungLines + s.reg K.LadderRungGap
  let starts := blockStarts start (np * step) passes
  let rung := fun (ink mask pass i : Nat) =>
    s.rungEntry m mode ink mask pass i (starts.getD ink 0 + (pass * np + i) * step)
  let own := (List.range 8).flatMap fun k => (List.range (passes.getD k 0)).flatMap fun pass =>
    (List.range np).map fun i => rung k (s.bandMask mode k) pass i
  let extra := if !s.loop.substOn then [] else (List.range 8).flatMap fun k =>
    let sub := s.reg (K.SubstituteInk + k)
    if passes.getD k 0 = 0 || 8 ≤ sub || passes.getD sub 0 = 0 then []
    else (List.range np).map fun i => (k, rung sub (s.bandMask mode k) 0 i)
  (own, extra)

/-- Entries of LadderRequests that hold no valid request. -/
def State.freeRequests (s : State) : List Nat :=
  (List.range 256).filter fun i => !bit (Memory.byte s.mem (ladderRequestsAt + 32 * i + 24)).toNat 0

/-- The ladder set of a copy (R334, R335): its lines, or the set skipped. -/
def decideLadder (m : Int) (mode lines : Nat) : Act :=
  .read fun s =>
    let every := s.reg K.LadderInterval
    if !s.loopOn || every = 0 || m % (every : Int) ≠ 0 then .skip
    else
      let start := s.reg K.LadderStartLine
      let passes := s.ladderPasses
      let size := s.reg K.LadderPitch * (s.reg K.LadderRungLines + s.reg K.LadderRungGap)
      let total := passes.sum * size
      let r := s.ladderRungs m mode start passes
      let wanted := r.1 ++ (r.2.map (·.2)).filter fun e => !r.1.contains e
      let note := setLoop fun x => { x with lastLadder := some m }
      if lines ≤ start + total || 256 < r.1.length || s.freeRequests.length < wanted.length then
        .seq note (addTo K.LadderSetsSkipped 4 1)
      else
        let code := s.reg (if codeBits mode = 4 then K.LadderCode16State else K.LadderCode4State)
        seqs [
          each (wanted.zip s.freeRequests) fun q => writeDram (ladderRequestsAt + 32 * q.2) q.1,
          setCopy m (fun c => { c with
            ladder := some ([start, s.reg K.LadderPitch, s.reg K.LadderRungLines, s.reg K.LadderRungGap, code] ++ passes) }),
          setLoop (fun x => { x with
            sets := (LadderSet.mk m mode r.1 r.2 [] [] [] [] [] x.lastLadder 0 start (start + total - 1) false false
              :: x.sets).take 8 }),
          note ]

/-- What is no longer needed of earlier copies is forgotten. -/
def pruneCopies : Act :=
  .read fun s =>
    let n := s.fire.copies.length
    let keep := (s.fire.copies.zipIdx.filter fun c => !c.1.done || c.1.verdict.isNone || n ≤ c.2 + 64).map (·.1)
    let has := fun (m : Int) => keep.any fun c => c.num == m
    seqs [
      .prim (.fire fun f => { f with copies := keep }),
      .prim (.comp fun c =>
        let contents := c.contents.filter fun x => has x.num
        { c with
          contents := contents
          binds := c.binds.filter fun b => has b.copy
            || !(c.binds.any fun o => o.stream == b.stream && b.copy < o.copy)
          packages := c.packages.filter fun p =>
            c.inForce == some p.1 || c.accepted == some p.1 || contents.any fun x => x.package.any fun q => q.1 == p.1 }) ]

/-- The record of a copy at its decision (R185). -/
def State.newCopy (s : State) (m : Int) (mode : Nat) (blanked flipped : Bool) : Copy :=
  let prev := (s.fire.copies.filter fun c => c.mode == mode).getLast?
  { num := m, mode := mode, lines := s.copyLines m mode,
    seq := (prev.map fun c => c.seq + c.lines).getD 0,
    waste := if blanked then 2 ^ wLayer else 0,
    bank := s.reg K.BankInForce,
    maps := (List.range 4).map fun i => s.reg ((if codeBits mode = 4 then K.WaveMap4InForce else K.WaveMap2InForce) + i),
    limits := s.limitPick, screens := s.screenPick mode,
    versions := (List.range 8).map fun ty => s.reg (K.WaveVersionInForce + ty),
    masks := s.slots.map fun p => (12 * p.1 + p.2, s.reg (slotKey K.RowInterleaveMask p.1 p.2)),
    bankVer := s.reg K.BankInForceVersion, flipped := flipped }

/-- A copy is decided (R185). -/
def decideCopy (m : Int) (mode : Nat) : Act :=
  .read fun s =>
    let late := s.lateLayers m mode
    let lateP := s.packageLate mode
    let flips := (List.range 8).filter fun l => !late.contains l && (s.dueCommit l m).isSome
    let flipP := s.comp.accepted.isSome && !lateP
    let blanked := late.filter s.blankedLate
    let stop := late.any (fun l => s.policy l == 2) || (lateP && s.policy 8 == 2)
    let newMode := match s.fire.copies.getLast? with
      | some c => c.mode != mode || (s.reg K.ModePending != 0xFF && (s.reg K.ModeChangeCopy : Int) == m)
      | none => true
    seqs [
      stagedLoop,
      stretchStep m,
      each (List.range 8) (decideLayer m late),
      decidePackage m lateP,
      when (!flips.isEmpty || flipP) (.seq (raise 48) (addTo K.FlipCount 4 1)),
      bankFlipDue m,
      switchesDue m,
      when (!flips.isEmpty || newMode) (startCapture m),
      (.read fun s => seqs [
        .prim (.fire fun f => { f with
          copies := f.copies ++ [s.newCopy m mode (!blanked.isEmpty || lateP) (!flips.isEmpty)] }),
        .prim (.comp fun c => { c with
          contents := c.contents ++ [{
            num := m, layers := s.copyLayers mode blanked, package := s.copyPackage lateP,
            centre := s.reg K.StretchCentreAcross }] }) ]),
      decideLadder m mode (s.copyLines m mode),
      put K.DecidedCopy (rawOf 8 m),
      syncLoop,
      when stop (orderlyStop 6),
      pruneCopies ]

/-- The compositor starts line 0 of the next copy at the furthest-upstream row: the decision (R185). -/
def execCopyDecision (t : Nat) (s : State) : Host.Outcome State Fault Refusal :=
  perform t (.read fun s =>
    match s.nextDecision with
    | some (m, mode) => when (s.fnOn fnComp && s.decisionDue m mode) (decideCopy m mode)
    | none => .skip) s

/-- The verdict record (R347). -/
def State.verdictRecord (s : State) (c : Copy) (late amended : Bool) : List Nat :=
  let measured := s.loop.zones.any fun z => z.copy == c.num && z.done && !z.void && !z.sums.isEmpty
  let flags := (if c.waste != 0 then 1 else 0) + (if late then 2 else 0) + (if measured then 4 else 0)
    + (if amended then 8 else 0)
  leBytes 8 (rawOf 8 c.num) ++ leBytes 2 c.waste ++ [flags, 0]
    ++ leBytes 8 (rawOf 8 (roundShift (s.base c.num) 32)) ++ leBytes 8 (ptpNanos s.ptp) ++ leBytes 2 c.deviation ++ [0, 0]

/-- A copy's verdict can be issued (R347). -/
def State.verdictReady (s : State) (c : Copy) : Bool :=
  c.done && c.verdict.isNone && (s.reg K.WasteDeviation == 0 || !s.fnOn fnInspect
    || s.receiving.all fun p => c.measuredBy.contains p)

/-- The copy whose verdict is next: an amended one first, then the lowest without one (R346, R347). -/
def State.verdictNext (s : State) : Option (Copy × Bool) :=
  match s.fire.copies.find? fun c => match c.verdict with
      | some w => w != c.waste
      | none => false with
  | some c => some (c, true)
  | none =>
    match s.fire.copies.find? fun c => c.verdict.isNone with
    | some c => if s.verdictReady c then some (c, false) else none
    | none => none

/-- A verdict is issued (R346–R348), by no controller of a pair but the Holder (R448). -/
def execWasteVerdict (t : Nat) (s : State) : Host.Outcome State Fault Refusal :=
  perform t (.read fun s =>
    match s.verdictNext.filter fun _ => s.isHolder with
    | none => .skip
    | some (c, amended) =>
      let start : Int := s.base c.num + (s.reg K.RejectDistance : Int) * 2 ^ 32
      let stop : Int := start + (s.reg K.RejectPulseLength : Int) * 2 ^ 32
      let waste := c.waste != 0
      let late := waste && decide (start < s.master.total)
      let fresh := waste && c.verdict.getD 0 == 0
      let i := s.reg K.VerdictWriteIndex
      seqs [
        writeDram (verdictRingAt + 32 * (i % 1024)) (s.verdictRecord c late amended),
        put K.VerdictWriteIndex (bump 4 i),
        put K.LastVerdictCopy (rawOf 8 c.num), put K.LastVerdictReasons c.waste,
        setCopy c.num (fun x => { x with verdict := some c.waste }),
        when waste (raise 89),
        when fresh (addTo K.WasteCopyCount 4 1),
        when (fresh && late) (addTo K.RejectLateCount 4 1),
        when (fresh && !late)
          (setLoop fun x => { x with pulses := x.pulses ++ [(start, stop)] }) ]) s

end Sys2Proof.Machine
end

