-- ==== Sys2Proof/Machine/Roles.lean ====
section
/-! DEFINITION. Sys2Proof/Machine/Roles.lean: failed role proofs and lockout (R460), readers' latches (R131,
R418), and Tether sessions as they open and close (R411, R414). -/

namespace Sys2Proof.Machine

/-- The numbers of the two paths that prove a role (R460; notes/assumptions/32.md). -/
abbrev pathCan : Nat := 1
abbrev pathTether : Nat := 2

/-- The path refuses every proof (R460). -/
def State.lockedOut (s : State) (path : Nat) : Bool := s.sec.lockedUntil.any fun l => l.1 == path && s.now < l.2

/-- LockoutRemaining (0x3140:02): seconds, the longest over the paths. -/
def State.lockoutRemaining (s : State) : Nat :=
  (s.sec.lockedUntil.map fun l => ceilDiv (l.2 - s.now) 1000000000).foldl max 0

/-- A proof fails on a path: the eighth within 60 s locks it for 60 s (R460). -/
def proofFailed (path : Nat) : Act :=
  .read fun s =>
    let recent := s.sec.fails.filter fun f => f.1 != path || s.now < f.2 + 60000000000
    let mine := (recent.filter fun f => f.1 == path).length + 1
    seqs [
      addTo K.AuthenticationFailures 4 1,
      .prim (.sec fun x =>
        if 8 ≤ mine then
          { x with
            fails := recent.filter fun f => f.1 != path
            lockedUntil := (path, s.now + 60000000000) :: x.lockedUntil.filter fun l => l.1 != path }
        else { x with fails := (path, s.now) :: recent }),
      raise 252 ]

/-- A reader's latch is emptied (R131, R418). -/
def dropLatches (p : WPath) : Act :=
  .seq (.prim (.pos fun x => { x with latches := x.latches.filter fun l => l.1 != p }))
    (.prim (.time fun x => { x with latches := x.latches.filter fun l => l.1 != p }))

/-- The open session of a slot. -/
def State.session? (s : State) (i : Nat) : Option Session := s.net.sessions.getD i none

/-- Changes an open session. -/
def setSession (i : Nat) (f : Session → Session) : Act :=
  .prim (.net fun n => { n with sessions := modAt n.sessions i fun x => x.map f })

/-- The number of open sessions. -/
def State.sessionsOpen (s : State) : Nat := (s.net.sessions.filter (·.isSome)).length

/-- A session closes (R414): its notifications and latches go, and TetherSessionClosed is raised. -/
def closeSession (i : Nat) : Act :=
  .read fun s =>
    match s.session? i with
    | none => .skip
    | some x =>
      seqs [
        .prim (.net fun n => { n with sessions := n.sessions.set i none }),
        .prim (.notifyOn i false),
        dropLatches (.session i),
        .prim (.sec fun y => { y with debugBy := if y.debugBy = some (.session i) then none else y.debugBy }),
        .read (fun s => put K.SessionsOpen s.sessionsOpen),
        netEvent 225 x.host.nic ]

/-- Every session closes, and Challenges are forgotten (R414). -/
def closeSessions : Act :=
  .seq (each (List.range 8) closeSession) (.prim (.net fun n => { n with challenges := List.replicate 8 none }))

end Sys2Proof.Machine
end

