-- ==== Sys2Proof/Machine/CanBus.lean ====
section
/-! DEFINITION. Sys2Proof/Machine/CanBus.lean: the CAN FD bus: bit timing (R415), node-ID (R416), error states
(R417) and the CAN role's end (R460). -/

namespace Sys2Proof.Machine

/-- The CAN path has sent its boot-up message and is not bus-off: it takes and sends frames (R92, R417). -/
def State.canUp (s : State) : Bool := s.can.booted && s.islandReady islNET && s.reg K.CanState != 2

/-- The NMT state of the CAN path. -/
def setNmt (n : Nmt) : Act := .prim (.can fun c => { c with nmt := n })

/-- The CAN path is Operator again (R460). -/
def endCanRole : Act := .seq (put K.CanRole 0) (.prim (.can fun c => { c with roleUntil := none }))

/-- CommErrorBehaviour 0 (R74): an operational controller goes pre-operational. -/
def commError : Act :=
  .read fun s => when (s.reg K.CommErrorBehaviour == 0 && s.can.nmt == .operational) (setNmt .preOperational)

/-- CF counts errors (R417, ISO 11898-1): the counters reach error-passive at 128 and bus-off at 256. Bus-off is
left only by recovery, and ends the CAN role. -/
def execCanBusOff (t txe rxe : Nat) (s : State) : Host.Outcome State Fault Refusal :=
  perform t (.read fun s =>
    let old := s.reg K.CanState
    let next := if 256 ≤ txe then 2 else if 128 ≤ txe || 128 ≤ rxe then 1 else 0
    if !s.islandReady islNET || old = 2 then .skip
    else
      seqs [
        put K.CanTxErrorCount (min 255 txe), put K.CanRxErrorCount (min 255 rxe), put K.CanState next,
        when (next == 1 && old == 0) (netEvent 220 3),
        when (next == 2) (seqs [netEvent 219 3, endCanRole, commError]) ]) s

/-- CF rejoins the bus: error-active with its counters at 0 (R417). -/
def rejoin : Act :=
  .read fun s =>
    when (s.reg K.CanState == 2) (seqs [put K.CanState 0, put K.CanTxErrorCount 0, put K.CanRxErrorCount 0])

/-- 128 occurrences of 11 recessive bits pass on CF (R417). -/
def execCanAutoRecover (t : Nat) (s : State) : Host.Outcome State Fault Refusal :=
  perform t (.read fun s => when (s.islandReady islNET && s.flag K.CanAutoRecover) rejoin) s

/-- CanRecover (R417): 1 makes a bus-off controller rejoin. -/
def effCanRecover : Effect := fun _ w => accept (when (w.val == 1) rejoin)

/-- A write of 0x2E30:0C (R417). -/
def execCanRecover (t : Nat) (w : Wr) (s : State) : Host.Outcome State Fault Refusal :=
  perform t (writeBy 0x2E30 0x0C effCanRecover w) s

/-- A set of bit timing values fits ISO 11898-1 (R415; notes/assumptions/34.md): prescalers, segments and jump
widths of the nominal and the data phase, and the compensation's prescaler. -/
def canTimingFits (l : List Nat) : Bool :=
  let v := fun (i : Nat) => l.getD i 0
  1 ≤ v 0 && v 0 ≤ 32 && 2 ≤ v 1 && v 1 ≤ 128 && 2 ≤ v 2 && v 2 ≤ 32 && 1 ≤ v 3 && v 3 ≤ v 2
    && 1 ≤ v 4 && v 4 ≤ 2 && 1 ≤ v 5 && v 5 ≤ 16 && 2 ≤ v 6 && v 6 ≤ 8 && 1 ≤ v 7 && v 7 ≤ v 6

/-- The bit timing entries, 0x2E30:02 to 0A. -/
def State.canTiming (s : State) : List Nat := (List.range 9).map fun i => s.reg (K.NominalPrescaler + i)

/-- A bit timing entry (R415): the set must fit; it acts at the next NMT Reset Communication. -/
def effCanTiming (key : Nat) : Effect := fun s w =>
  if canTimingFits (s.canTiming.set (key - K.NominalPrescaler) w.val) then accept (put key w.val) else refuse abRange

end Sys2Proof.Machine
end

