-- ==== Sys2Proof/Machine/Encode.lean ====
section
/-! DEFINITION. Sys2Proof/Machine/Encode.lean: encode lanes, flush and output spools (R155–R158). A lane's
progress follows the clocks of R153 up to the instant of each command on it. -/

namespace Sys2Proof.Machine

/-- Fields of an encode command (R155). -/
def Enc.source (e : Enc) : Nat := field e.cmd 0 8
def Enc.pitch (e : Enc) : Nat := field e.cmd 16 4
def Enc.lineCount (e : Enc) : Nat := field e.cmd 20 4
def Enc.width (e : Enc) : Nat := field e.cmd 24 2
def Enc.stateSlot (e : Enc) : Nat := field e.cmd 28 2
def Enc.flags (e : Enc) : Nat := field e.cmd 30 1
def Enc.stream (e : Enc) : Nat := field e.cmd 32 4

/-- Coding parameters of a command: default thresholds only (R156). -/
def Enc.params (e : Enc) : JlsParams :=
  let b := field e.cmd 26 1
  let near := field e.cmd 27 1
  let d := defaultThresholds (2 ^ b - 1) near
  { bits := b, near := near, t1 := d.1, t2 := d.2.1, t3 := d.2.2, reset := 64 }

/-- An encode lane. -/
def State.enc (s : State) (n : Nat) : Enc := s.codec.encs.getD n {}

/-- Changes an encode lane. -/
def setEnc (n : Nat) (f : Enc → Enc) : Act := .prim (.codec fun c => { c with encs := modAt c.encs n f })

/-- EncodeStatus values. -/
abbrev encRunning : Nat := 1
abbrev encStalled : Nat := 2
abbrev encDone : Nat := 3
abbrev encFault : Nat := 4

/-- EncodeStatus of a lane. -/
def State.encStatus (s : State) (n : Nat) : Nat := s.reg (K.EncodeStatus + n)

/-- One write into the spool: where, and the bytes. -/
abbrev SpoolWrite := Nat × List Nat

/-- Writes bytes down a spool chain from a descriptor whose buffer holds `fill` bytes (R158): the writes, the
descriptor and fill after, and the bytes for which there is no buffer. -/
def State.spool (s : State) : Nat → Nat → Nat → List Nat → List SpoolWrite × Nat × Nat × List Nat
  | 0, desc, fill, bytes => ([], desc, fill, bytes)
  | fuel + 1, desc, fill, bytes =>
    let buf := Memory.value s.mem desc 8
    let size := Memory.value s.mem (desc + 8) 4
    let next := Memory.value s.mem (desc + 16) 8
    let flags := Memory.value s.mem (desc + 24) 1
    if bytes.isEmpty then ([], desc, fill, [])
    else if size ≤ fill then
      if next = 0 then ([], desc, fill, bytes) else State.spool s fuel next 0 bytes
    else
      let n := min (size - fill) bytes.length
      let bits' := leBytes 4 (8 * (fill + n))
      let here : List SpoolWrite := [(buf + fill, bytes.take n), (desc + 12, bits'), (desc + 28, bits')]
        ++ (if fill + n = size then [(desc + 24, [setBit flags 1 true])] else [])
      let x := State.spool s fuel desc (fill + n) (bytes.drop n)
      (here ++ x.1, x.2)

/-- Bytes go into the spool; what finds no buffer is held and the lane stalls (R158). -/
def encodeOut (n : Nat) (bytes : List Nat) : Act :=
  .read fun s =>
    let e := s.enc n
    let x := s.spool (2 * bytes.length + 64) e.desc e.fill bytes
    seqs [
      each x.1 (fun w => writeDram w.1 w.2),
      setEnc n (fun e => { e with desc := x.2.1, fill := x.2.2.1, held := x.2.2.2 }),
      addTo (K.EncodeBitsOut + n) 8 (8 * (bytes.length - x.2.2.2.length)),
      when (!x.2.2.2.isEmpty && s.encStatus n != encStalled) (.seq (put (K.EncodeStatus + n) encStalled) (raise 36)) ]

/-- The strip in progress is written (R142, R156). The strip after a flush starts from the state of R148. -/
def emitStrip (n : Nat) : Act :=
  .read fun s =>
    let e := s.enc n
    let last := bit e.flags 3 && e.done == e.lineCount
    let head := leBytes 2 0x4B53 ++ [0x31, 1] ++ leBytes 4 e.stream ++ leBytes 4 e.strip ++ leBytes 4 e.first
      ++ [e.count, (if e.flush then 1 else 0) + (if last then 2 else 0), 0, 0] ++ leBytes 4 e.recs.length
      ++ leBytes 4 (crc32 (e.samples.flatMap (leBytes 2)))
    .seq
      (setEnc n fun e => { e with
        strip := e.strip + 1, first := e.first + e.count, recs := [], samples := [], count := 0,
        flush := e.short, st := if e.short then e.params.fresh e.width else e.st,
        clocks := e.clocks + 352, at' := e.at' + 352 })
      (encodeOut n (head ++ leBytes 4 (crc32 head) ++ e.recs))

/-- A source line of a command: bits above BitsPerSample ignored (R155). -/
def State.sourceLine (s : State) (e : Enc) (i : Nat) : List Nat :=
  (List.range e.width).map fun x => Memory.value s.mem (e.source + e.pitch * i + 2 * x) 2 % 2 ^ e.params.bits

/-- Encodes the next line; a strip of 16 lines, or the last, is written. -/
def encodeOne (n : Nat) : Act :=
  .read fun s =>
    let e := s.enc n
    let l := encodeLine e.params e.st (s.sourceLine e e.done)
    seqs [
      when l.raw (addTo (K.EncodeRawLines + n) 4 1),
      setEnc n (fun e => { e with
        st := l.st, done := e.done + 1, recs := e.recs ++ l.bytes, samples := e.samples ++ l.samples,
        count := e.count + 1, clocks := e.clocks + l.clocks, at' := e.at' + l.clocks }),
      when (e.count + 1 == 16 || e.done + 1 == e.lineCount) (emitStrip n) ]

/-- The lane encodes every line whose start lies before an instant (none: every line), until it stalls or a
flush ends its strip. -/
def encodeRun : Nat → Nat → Option Nat → Act
  | 0, _, _ => .skip
  | fuel + 1, n, until' =>
    .read fun s =>
      let e := s.enc n
      let late := match until' with
        | some t => decide (t ≤ e.at')
        | none => false
      if s.encStatus n ≠ encRunning || e.lineCount ≤ e.done || e.short || late then .skip
      else .seq (encodeOne n) (encodeRun fuel n until')

/-- Runs a lane to an instant. -/
def encodeTo (n : Nat) (until' : Option Nat) : Act :=
  .read fun s => encodeRun ((s.enc n).lineCount - (s.enc n).done) n until'

/-- A command's fields are in range (R155). -/
def encodeValid (e : Enc) : Bool :=
  let f := e.flags
  e.source % 64 == 0 && field e.cmd 8 8 % 32 == 0 && e.pitch % 64 == 0 && 1 ≤ e.lineCount
    && 1 ≤ e.width && e.width ≤ 8192 && 8 ≤ field e.cmd 26 1 && field e.cmd 26 1 ≤ 12 && field e.cmd 27 1 ≤ 3
    && f < 16 && field e.cmd 31 1 == 0 && field e.cmd 44 4 == 0
    && (!(bit f 1 || bit f 2) || (192 ≤ e.stateSlot && e.stateSlot ≤ 255))
    && (bit f 3 || e.lineCount % 16 == 0)

/-- EncodeCommand (R155, R156). -/
def effEncode (n : Nat) : Effect := fun s w =>
  let e : Enc := { cmd := leBytes 48 w.val }
  let f := e.flags
  if s.encStatus n = encRunning || s.encStatus n = encStalled || !s.fnOn fnEncode then refuse abMode
  else if !encodeValid e then refuse abRange
  else
    let zero := seqs [put (K.EncodeBitsOut + n) 0, put (K.EncodeRawLines + n) 0]
    if bit f 1 && !s.slotHolds e.stateSlot e.stream then
      accept (seqs [zero, put (K.EncodeStatus + n) encFault, raise 40])
    else
      let next := if bit f 1 then s.slotNext e.stateSlot else (field e.cmd 36 4, field e.cmd 40 4)
      let st := if bit f 1 && !bit f 0 then s.slotState e.stateSlot else e.params.fresh e.width
      accept (seqs [
        zero,
        setEnc n (fun _ => { e with
          st := st, strip := next.1, first := next.2, flush := bit f 0, desc := field e.cmd 8 8,
          at' := s.now + if bit f 1 then 320 else 0 }),
        put (K.EncodeStatus + n) encRunning ])

/-- An encode command is written. -/
def execEncodeCommand (t lane : Nat) (w : Wr) (s : State) : Host.Outcome State Fault Refusal :=
  perform t (writeBy 0x2420 (lane + 1) (effEncode lane) w) s

/-- An encode command completes (R156, R158). -/
def execEncodeDone (t lane : Nat) (s : State) : Host.Outcome State Fault Refusal :=
  perform t (.read fun s =>
    if 4 ≤ lane || s.encStatus lane ≠ encRunning || (s.enc lane).short then .skip
    else .seq (encodeTo lane none) (.read fun s =>
      let e := s.enc lane
      if s.encStatus lane ≠ encRunning || e.done ≠ e.lineCount then .skip
      else
        seqs [
          .prim (.store (e.desc + 24) 1 (setBit (Memory.value s.mem (e.desc + 24) 1) 1 true)),
          when (bit e.flags 2) (writeSlot e.stateSlot e.stream e.strip e.first e.params e.st false),
          put (K.EncodeStatus + lane) encDone,
          raise 43 ])) s

/-- FlushRequest (R156): refused while the lane is not Running. -/
def effFlush (n : Nat) : Effect := fun s w =>
  let go := encodeTo n (some s.now)
  if w.val ≠ 1 then accept .skip
  else if s.encStatus n ≠ encRunning then refuse abMode
  else if (go.run s).encStatus n ≠ encRunning then ⟨abMode, go⟩
  else accept (.seq go (setEnc n fun e =>
    if e.count = 0 then { e with flush := true, st := e.params.fresh e.width } else { e with short := true }))

/-- FlushRequest is written. -/
def execFlushRequest (t lane : Nat) (w : Wr) (s : State) : Host.Outcome State Fault Refusal :=
  perform t (writeBy 0x2422 (lane + 1) (effFlush lane) w) s

/-- The short strip of a flush is written (R156). -/
def execFlushDone (t lane : Nat) (s : State) : Host.Outcome State Fault Refusal :=
  perform t (.read fun s =>
    if 4 ≤ lane || !(s.enc lane).short || !(s.enc lane).held.isEmpty then .skip
    else .seq (when ((s.enc lane).count != 0) (emitStrip lane)) (.read fun s =>
      when ((s.enc lane).held.isEmpty)
        (.seq (setEnc lane fun e => { e with short := false }) (raise 41)))) s

/-- SpoolResume (R158): a stalled lane reads NextDescriptor again; the held bytes go first. -/
def effSpoolResume (n : Nat) : Effect := fun s w =>
  accept (when (w.val == 1 && s.encStatus n == encStalled)
    (.seq (encodeOut n (s.enc n).held) (.read fun s =>
      when ((s.enc n).held.isEmpty)
        (seqs [setEnc n fun e => { e with at' := max e.at' s.now }, lineWithdrawn (4 + n),
          put (K.EncodeStatus + n) encRunning]))))

/-- SpoolResume is written. -/
def execSpoolResume (t lane : Nat) (w : Wr) (s : State) : Host.Outcome State Fault Refusal :=
  perform t (writeBy 0x2423 (lane + 1) (effSpoolResume lane) w) s

/-- Rules of the 0x24xx entries. -/
def effCodec (idx sub : Nat) : Effect :=
  match idx with
  | 0x2401 => if sub = 6 then effJobDelete else plain (idx * 256 + sub)
  | 0x2413 => effInputResume (sub - 1)
  | 0x2420 => effEncode (sub - 1)
  | 0x2422 => effFlush (sub - 1)
  | 0x2423 => effSpoolResume (sub - 1)
  | _ => plain (idx * 256 + sub)

end Sys2Proof.Machine
end

