-- ==== Sys2Proof/Machine/DramLoss.lean ====
section
/-! DEFINITION. Sys2Proof/Machine/DramLoss.lean: what is lost with the content of DRAM (R377, R493). -/

namespace Sys2Proof.Machine

/-- The P package is lost; its serial numbers stay (R377). -/
def forgetPackage : Act :=
  .seq (.prim (.comp fun c => { c with packages := [], inForce := none, accepted := none, checking := false }))
    (each (List.range 6) fun i => put (0x438001 + i) 0)

/-- The whole content of DRAM is discarded: the job store emptied, every DRAM DOMAIN back at its power-on
content, the colour loop's terms at 16,384, the P package gone, the map to be initialised (R377, R493). -/
def forgetDram : Act :=
  seqs [
    .prim (.erase dramStart (2 ^ 40 - dramStart)),
    .prim (.dram fun d => { d with poison := [], initialised := false, swept := false }),
    put K.ScrubPosition dramStart, put K.InitialisedUpTo dramStart,
    each dramDomains bumpVersion,
    put K.MissingCount 0,
    forgetPackage,
    .prim (.loop fun x => { x with
      held := [], captured := [], missing := [], zones := [], sets := [], undo := none
      captureFrom := List.replicate 8 (some (0 : Int)) }),
    .prim (.net fun n => { n with flows := n.flows.map fun f => { f with held := [] } }),
    emptyJobStore ]

end Sys2Proof.Machine
end

