-- ==== Sys2Proof/Machine/Memory.lean ====
section
/-! DEFINITION. Sys2Proof/Machine/Memory.lean: the address map and the DRAM controller (R351–R378, R493). -/

namespace Sys2Proof.Machine

/-- The working subchannels, ascending (R357). -/
def State.working (s : State) : List Nat := (List.range 4).filter (bit (s.reg K.SubchannelsWorking))

/-- Data capacity of one subchannel (R355): density × ranks × 4 data devices. -/
def State.subCapacity (s : State) : Nat := s.reg K.DeviceDensity * s.reg K.RanksPerSubchannel * 2 ^ 29

/-- Where a mapped address lies (R357): subchannel and offset within it. -/
def State.dramMap (s : State) (addr : Nat) : Nat × Nat :=
  let a := addr - dramStart
  let g := a / 256
  let w := s.working
  let nw := if w.isEmpty then 1 else w.length
  (w.getD (g % nw) 0, g / nw * 256 + a % 256)

/-- Bank group, bank, rank and row of an offset (R357): a key of rank, bank and group, and the row. -/
def State.bankRow (s : State) (o : Nat) : Nat × Nat :=
  if s.reg K.RanksPerSubchannel = 2 then (bits o 8 5 + 32 * bits o 17 1, o / 2 ^ 18)
  else (bits o 8 5, o / 2 ^ 17)

/-- Rank of an offset. -/
def State.rankOf (s : State) (o : Nat) : Nat := if s.reg K.RanksPerSubchannel = 2 then bits o 17 1 else 0

/-- The address ranges of R351 with their sizes on a part (R352). -/
def State.mapped (s : State) (addr : Nat) : Bool :=
  addr < 0x10000
    || (0x01000000 ≤ addr && addr < 0x01C00000)
    || (0x02000000 ≤ addr && addr < 0x04800000)
    || (bankAt 0 ≤ addr && addr < bankAt 0 + s.bankBytes)
    || (bankAt 1 ≤ addr && addr < bankAt 1 + s.bankBytes)
    || (0x07000000 ≤ addr && addr < 0x07A00000)
    || (0x08000000 ≤ addr && addr < shareAt s.portCount)
    || (0x0A000000 ≤ addr && addr < 0x0AE00000)
    || (0x0B000000 ≤ addr && addr < 0x0B000000 + 0x40000 * s.linkCount)
    || (0x40000000 ≤ addr && addr < 0x42800000)
    || (dramStart ≤ addr && addr < s.dramEnd)

/-- The two units that reach the protected region (R354): the package verifier in CTL and the
compositor. -/
def reachesProtected : Initiator → Bool
  | .unit i => i == islCTL || i == islCOMP
  | _ => false

/-- An access to the protected region by another initiator (R354). -/
def protectedFrom (who : Initiator) (addr : Nat) : Bool :=
  protectedStart ≤ addr && addr < ringStart && !reachesProtected who

/-- The error response of an access error or a poisoned read (R352, R367). -/
def errorResponse (who : Initiator) (addr : Nat) : Act :=
  match who with
  | .core k => send (.accessFault k addr)
  | .realTime k => send (.accessFault (8 + k) addr)
  | .dma c => send (.busError c addr)
  | .unit _ => .skip

/-- An access outside the map, to a fused range or to the protected region: a read returns 0, a write is
discarded, the initiator gets an error (R352, R354). -/
def execAccessError (t : Nat) (who : Initiator) (addr : Nat) (write : Bool) (s : State) :
    Host.Outcome State Fault Refusal :=
  perform t (.read fun s =>
    let prot := protectedFrom who addr && addr < s.dramEnd
    if !prot && s.mapped addr then .skip
    else
      seqs [
        when prot (addTo K.ProtectedAccessRefused 4 1),
        when (!write) (send (.loaded who addr [0])),
        errorResponse who addr ]) s

/-- Raises a memory event and records its subchannel (0x2C40). -/
def memEvent (n sc : Nat) : Act := .seq (put (K.MemoryEventSource + (n - 184)) sc) (raise n)

/-- The job store's place and size follow the map (R358). -/
def remapStore : Act :=
  .read fun s =>
    let fixed := 2 ^ 31 + s.reg K.RingAreaSize
    seqs [put K.JobStoreBase s.jobStart, put K.JobStoreSize (s.reg K.MappedCapacity - fixed), syncJobStore]

/-- The map is built over the working subchannels (R355, R370). -/
def rebuildMap : Act :=
  .read fun s =>
    let nw := s.working.length
    seqs [
      put K.MappedCapacity (nw * (s.subCapacity - 2 ^ 20)),
      put K.DramBandwidth (nw * 4 * s.reg K.PrintOperatingPoint),
      remapStore ]

/-- A subchannel is retired (R377). -/
def retireSubchannel (sc : Nat) : Act :=
  seqs [
    memEvent 195 sc,
    put (K.SubchannelState + sc) 5,
    stopIfPrinting 5,
    .read (fun s => put K.SubchannelsWorking (setBit (s.reg K.SubchannelsWorking) sc false)),
    rebuildMap,
    forgetDram,
    memEvent 199 sc,
    put K.DramTrained 0,
    .read (fun s => when s.working.isEmpty (put K.DramOperatingPoint 0)) ]

/-- A fault occurrence of a subchannel (R365, R366, R368). -/
def memFault (sc event addr : Nat) : Act :=
  faultOccurrence (faultSource 0 sc) event addr (retireSubchannel sc)

/-- What ECC makes of a read (R364). -/
inductive Ecc where
  | clean | corrected | uncorrectable | wrong
deriving DecidableEq, Repr

/-- ECC on the erroneous symbols of a burst, with the marked device of the rank, if any (R364). -/
def eccOf (marked : Option Nat) (errors : List (Nat × Nat)) : Ecc :=
  let bad := errors.filter fun e => e.2 % 256 != 0
  match marked with
  | none => if bad.isEmpty then .clean else if bad.length ≤ 8 then .corrected else .uncorrectable
  | some d =>
    if bad.any fun e => e.1 / 16 != d then .wrong
    else if bad.isEmpty then .clean else .corrected

/-- The one device all corrected bytes lie in, 5 for more than one. -/
def soleDevice (errors : List (Nat × Nat)) : Nat :=
  match errors with
  | [] => 5
  | e :: es => if es.all fun x => x.1 / 16 == e.1 / 16 then e.1 / 16 else 5

/-- The marked device of a rank (0x2C17). -/
def State.markedOn (s : State) (sc rank : Nat) : Option Nat :=
  let m := s.reg (K.MarkedDevice + sc)
  if m ≠ 0xFF && bits m 4 1 = rank then some (bits m 0 3) else none

/-- A corrected read: counted, and the device marked when the last DeviceMarkThreshold corrected bursts of
the rank within 1 s lie all in it (R364, R365). -/
def correctedRead (sc rank addr : Nat) (errors : List (Nat × Nat)) : Act :=
  .read fun s =>
    let d := soleDevice (errors.filter fun e => e.2 % 256 != 0)
    let n := s.reg K.DeviceMarkThreshold
    let marks := ((sc, rank, d, s.now) :: s.dram.marks).take 4096
    let mine := (marks.filter fun m => m.1 == sc && m.2.1 == rank).take n
    let full := n ≤ mine.length && d < 5
      && mine.all (fun m => m.2.2.1 == d && s.now < m.2.2.2 + 1000000000)
    seqs [
      addTo (K.EccCorrectedCount + sc) 8 1,
      memEvent 184 sc,
      .prim (.dram fun x => { x with marks := marks }),
      when (full && s.reg (K.MarkedDevice + sc) == 0xFF)
        (.seq (put (K.MarkedDevice + sc) (16 * rank + d)) (memFault sc 184 addr)) ]

/-- A poisoned read reaches its reader (R366, R367). -/
def poisonedRead (sc : Nat) (who : Initiator) (addr : Nat) : Act :=
  seqs [addTo (K.PoisonedReads + sc) 4 1, memEvent 186 sc, errorResponse who addr]

/-- The bytes of a burst reach their reader. -/
def deliver (who : Initiator) (addr : Nat) : Act :=
  .read fun s => send (.loaded who addr (s.bytesAt addr 64))

/-- A read of one burst with ECC, re-read and poison (R364–R367). An error beside a marked device is
neither corrected nor detected: what is delivered is a free value (notes/assumptions/5.md), which a
corrected read also writes back. -/
def readBurst (sc : Nat) (who : Initiator) (addr : Nat) (read : BurstRead) : Act :=
  .read fun s =>
    let rank := s.rankOf (s.dramMap addr).2
    let marked := s.markedOn sc rank
    if s.dram.poison.contains addr then poisonedRead sc who addr
    else match eccOf marked read.errors with
      | .clean => deliver who addr
      | .corrected => .seq (correctedRead sc rank addr read.errors) (deliver who addr)
      | .wrong =>
        drawFree fun v =>
          let l := leBytes 64 v
          .seq (send (.loaded who addr l))
            (when (read.errors.any fun e => some (e.1 / 16) == marked && e.2 % 256 != 0)
              (.seq (correctedRead sc rank addr read.errors) (.prim (.storeBytes addr l))))
      | .uncorrectable =>
        seqs [
          addTo (K.EccUncorrectableCount + sc) 4 1,
          memEvent 185 sc,
          memFault sc 185 addr,
          (match eccOf marked read.again with
            | .uncorrectable =>
              .seq (.prim (.dram fun d => { d with poison := addr :: d.poison })) (poisonedRead sc who addr)
            | .clean => deliver who addr
            | _ => .seq (correctedRead sc rank addr read.again) (deliver who addr)) ]

/-- The row a request goes to is open (R361). -/
def State.rowOpen (s : State) (sc addr : Nat) : Bool :=
  let br := s.bankRow (s.dramMap addr).2
  s.dram.openRows.any fun r => r.1 == sc && r.2.1 == br.1 && r.2.2.1 == br.2

/-- Service order of R361: class, then a request that has waited 2 µs by age, then an open row, then the
oldest. -/
def State.servedBefore (s : State) (sc : Nat) (a b : DramReq) : Bool :=
  let old := fun (r : DramReq) => r.since + 2000 ≤ s.now
  if a.cls ≠ b.cls then a.cls < b.cls
  else if old a || old b then a.since ≤ b.since
  else if s.rowOpen sc a.addr != s.rowOpen sc b.addr then s.rowOpen sc a.addr
  else a.since ≤ b.since

/-- The request that is served next. -/
def State.nextRequest (s : State) (sc : Nat) : List DramReq → Option DramReq
  | [] => none
  | r :: rs =>
    match State.nextRequest s sc rs with
    | none => some r
    | some b => if s.servedBefore sc r b then some r else some b

/-- Opens the row of an access, closing another row of its bank (R362). -/
def openRow (sc addr : Nat) : Act :=
  .read fun s =>
    let br := s.bankRow (s.dramMap addr).2
    .prim (.dram fun d => { d with
      openRows := (sc, br.1, br.2, s.now) :: d.openRows.filter fun r => !(r.1 == sc && r.2.1 == br.1) })

/-- Writes bytes of a burst; a whole burst clears its poison (R366), and the retry buffer keeps the
command (R368). -/
def writeBurst (sc addr : Nat) (l : List Nat) : Act :=
  .read fun s =>
    .seq (writeDram addr l)
      (.prim (.dram fun d => { d with
        retry := (sc, s.now, addr, l) :: (d.retry.filter fun r => r.1 != sc)
          ++ (d.retry.filter fun r => r.1 == sc).take 63 }))

/-- DRAM can be read and written: trained, powered, out of self-refresh. -/
def State.dramUsable (s : State) : Bool := s.flag K.DramTrained && s.reg K.DramOperatingPoint != 0

/-- One queued request of a subchannel is served (R361, R364–R367). A served command ends an open alert's
replay (R368). -/
def execDramAccess (t sc : Nat) (reqs : List DramReq) (read : BurstRead) (s : State) :
    Host.Outcome State Fault Refusal :=
  perform t (.read fun s =>
    let mine := reqs.filter fun r => (s.dramMap r.addr).1 == sc && dramStart ≤ r.addr && r.addr < s.dramEnd
    if !s.dramUsable || s.dram.asserted.getD sc false || s.reg (K.SubchannelState + sc) ≠ 3 then .skip
    else match s.nextRequest sc mine with
      | none => .skip
      | some r =>
        .seq (.prim (.dram fun d => { d with alert := d.alert.set sc none }))
          (if protectedFrom r.who r.addr then
            .seq (addTo K.ProtectedAccessRefused 4 1) (errorResponse r.who r.addr)
          else .seq (openRow sc r.addr)
            (match r.write with
              | some l => writeBurst sc r.addr (l.take (64 - r.addr % 64))
              | none => readBurst sc r.who (r.addr / 64 * 64) read))) s

/-- DeviceMarkClear: Ready only (R365). -/
def effMarkClear (sc : Nat) : Effect := fun s w =>
  if s.mode ≠ mReady then refuse abMode
  else accept (when (w.val == 1)
    (.seq (put (K.MarkedDevice + sc) 0xFF)
      (.prim (.dram fun d => { d with marks := d.marks.filter fun m => m.1 != sc }))))

/-- A device mark is cleared. -/
def execDeviceMarkClear (t sc : Nat) (w : Wr) (s : State) : Host.Outcome State Fault Refusal :=
  perform t (writeBy 0x2C18 (sc + 1) (effMarkClear sc) w) s

/-- ALERT_n asserts (R368): a new alert is raised and charged; during a replay, the replay has failed, and
after three the subchannel is retired at once. -/
def execAlertN (t sc : Nat) (writeCrc : Bool) (s : State) : Host.Outcome State Fault Refusal :=
  perform t (.read fun s =>
    let up : Act := .prim (.dram fun d => { d with asserted := d.asserted.set sc true })
    if 4 ≤ sc || s.reg (K.SubchannelState + sc) ≠ 3 then .skip
    else match s.dram.alert.getD sc none with
      | none =>
        seqs [up, .prim (.dram fun d => { d with alert := d.alert.set sc (some 0) }),
          memEvent (if writeCrc then 188 else 187) sc, memFault sc (if writeCrc then 188 else 187) 0]
      | some n =>
        if 3 ≤ n then
          seqs [.prim (.dram fun d => { d with alert := d.alert.set sc none, asserted := d.asserted.set sc false }),
            memEvent 189 sc, faultPermanent (faultSource 0 sc) 189 0 (retireSubchannel sc)]
        else up) s

/-- ALERT_n deasserts: every bank is precharged and the commands issued within `window` ns are replayed,
oldest first (R368). -/
def execAlertNDeasserted (t sc window : Nat) (s : State) : Host.Outcome State Fault Refusal :=
  perform t (.read fun s =>
    match s.dram.alert.getD sc none with
    | none => .skip
    | some n =>
      when (s.dram.asserted.getD sc false)
        (seqs [
          .prim (.dram fun d => { d with
            asserted := d.asserted.set sc false, alert := d.alert.set sc (some (n + 1)),
            openRows := d.openRows.filter fun r => r.1 != sc }),
          addTo (K.AlertReplays + sc) 4 1,
          each ((s.dram.retry.filter fun r => r.1 == sc && s.now ≤ r.2.1 + window).reverse) fun r =>
            writeDram r.2.2.1 r.2.2.2 ])) s

/-- Refreshes owed of one rank and bank number. -/
def State.owedOf (s : State) (sc key : Nat) : Nat :=
  ((s.dram.owed.find? fun o => o.1 == sc && o.2.1 == key).map (·.2.2)).getD 0

/-- Sets the refreshes owed. -/
def setOwed (sc key n : Nat) : Act :=
  .prim (.dram fun d => { d with
    owed := (sc, key, n) :: d.owed.filter fun o => !(o.1 == sc && o.2.1 == key) })

/-- A tREFI boundary (R363); `busy` are the rank × 4 + bank numbers with a print-path request queued. -/
def execRefreshInterval (t sc : Nat) (busy : List Nat) (s : State) : Host.Outcome State Fault Refusal :=
  perform t (.read fun s =>
    when (sc < 4 && s.reg (K.SubchannelState + sc) == 3 && s.reg K.DramOperatingPoint != 0)
      (each (List.range (4 * s.reg K.RanksPerSubchannel)) fun key => .read fun s =>
        let owed := s.owedOf sc key
        if 4 ≤ owed then
          seqs [addTo (K.ForcedRefreshes + sc) 4 1,
            .prim (.dram fun d => { d with openRows := d.openRows.filter fun r =>
              !(r.1 == sc && r.2.1 / 8 % 4 == key % 4 && r.2.1 / 32 == key / 4) }),
            setOwed sc key (if busy.contains key then 1 else 0)]
        else if busy.contains key then
          .seq (setOwed sc key (owed + 1)) (when (owed + 1 == 4) (memEvent 190 sc))
        else setOwed sc key 0)) s

/-- Banks idle for PageIdleTimer are precharged (R362). -/
def execPageIdleTimer (t sc : Nat) (s : State) : Host.Outcome State Fault Refusal :=
  perform t (.read fun s =>
    .prim (.dram fun d => { d with
      openRows := d.openRows.filter fun r => !(r.1 == sc && r.2.2.2 + s.reg K.PageIdleTimer ≤ s.now) })) s

/-- The retention record of R493 for a subchannel and a count (notes/assumptions/22.md). -/
def retentionRecord (sc count : Nat) : List Nat :=
  let body := (List.range 4092).map fun i =>
    (Config.dieSerial.toNat / 256 ^ (i % 4) + count / 256 ^ (i / 4 % 4) + i + sc) % 256
  body ++ leBytes 4 (crc32 body)

/-- Every working subchannel's retention record stands. -/
def State.retentionHolds (s : State) : Bool :=
  s.working.all fun sc => s.bytesAt (retentionAt + 4096 * sc) 4096 == retentionRecord sc s.dram.retention

/-- DRAM enters self-refresh (R375, R493): owed refreshes paid, rows closed, retention records written. -/
def enterSelfRefresh : Act :=
  .read fun s =>
    when s.dramUsable
      (seqs [
        .prim (.dram fun d => { d with owed := [], openRows := [], retention := d.retention + 1 }),
        .read (fun s => each s.working fun sc =>
          writeDram (retentionAt + 4096 * sc) (retentionRecord sc s.dram.retention)),
        put K.DramOperatingPoint 0,
        each s.working (fun sc => put (K.SubchannelState + sc) 4),
        raise 197 ])

/-- The bit of PointsTrained for a point. -/
def pointBit (p : Nat) : Nat := if p = 3200 then 0 else if p = 4800 then 1 else 2

/-- A point is trained on every working subchannel (R371). -/
def State.pointTrained (s : State) (p : Nat) : Bool :=
  !s.working.isEmpty && s.working.all fun sc => bit (s.reg (K.PointsTrained + sc)) (pointBit p)

/-- A frequency change through self-refresh (R373, R374); `took` is its time in ns. Point 0 is Standby's
self-refresh. -/
def execFrequencyChange (t took : Nat) (s : State) : Host.Outcome State Fault Refusal :=
  perform t (.read fun s =>
    match s.dram.freqNext with
    | none => .skip
    | some p =>
      let clear : Act := .prim (.dram fun d => { d with freqNext := none })
      if !s.flag K.DramTrained then .skip
      else if p = s.reg K.DramOperatingPoint then clear
      else if p = 0 then .seq clear enterSelfRefresh
      else if !s.pointTrained p then .skip
      else
        seqs [
          clear,
          enterSelfRefresh,
          put K.DramOperatingPoint p,
          each s.working (fun sc => put (K.SubchannelState + sc) 3),
          raise 198,
          .prim (.dram fun d => { d with zqAt := s.now }),
          put K.FrequencyChangeTime (min took (2 ^ 32 - 1)),
          raise 193 ]) s

/-- Two complete runs agree (R371). -/
def runsAgree (tolerance : Nat) (a b : TrainRun) : Bool :=
  let close := fun (n : Nat) (x y : List Nat) =>
    x.length == y.length && (List.zipWith (fun p q => decide (max p q - min p q ≤ n)) x y).all id
  close tolerance a.delays b.delays && close 1 a.vrefs b.vrefs

/-- The subchannels fitted and not retired. -/
def State.fitted (s : State) : List Nat :=
  (List.range 4).filter fun sc => bit (s.reg K.SubchannelsFitted) sc && s.reg (K.SubchannelState + sc) != 5

/-- The overlap record of the boot flash is written to StitchBase once DRAM can take it, and a build starts (R438). -/
def applyOverlap : Act :=
  .read fun s =>
    match s.health.records.getD 0 none with
    | some r =>
      when (s.health.overlapDue && s.flag K.DramTrained) (seqs [
        .prim (.health fun h => { h with overlapDue := false }),
        .prim (.erase stitchBaseAt (2 * s.nozzleCount)),
        each r.cells (fun c => .prim (.storeBytes c.1 [c.2.toNat])),
        bumpVersion 0x5603, wantBuild ])
    | none => .skip

/-- 3200 MT/s is trained on every fitted subchannel: DRAM comes into use, checked where self-refresh
spanned a reset (R360, R375, R493). -/
def firstPointTrained (intact : Bool) : Act :=
  .read fun s =>
    if s.flag K.DramTrained || !(s.fitted.all fun sc => bit (s.reg (K.PointsTrained + sc)) 0) then .skip
    else
      seqs [
        put K.SubchannelsWorking (s.fitted.map (2 ^ ·)).sum,
        each s.fitted (fun sc => put (K.SubchannelState + sc) 3),
        rebuildMap,
        put K.DramOperatingPoint 3200,
        .read fun s =>
          if !s.dram.kept then .skip
          else
            .seq (.seq (raise 198) (.prim (.dram fun d => { d with kept := false })))
              (if intact && s.retentionHolds then
                seqs [put K.DramRetained 1, put K.DramTrained 1,
                  .prim (.dram fun d => { d with initialised := true, swept := true }), recheckJobs, applyOverlap]
              else seqs [put K.DramRetained 0, forgetDram, memEvent 199 0xFF]) ]

/-- Training of a subchannel fails for good (R371). -/
def trainingFails (sc : Nat) : Act :=
  .seq (memEvent 192 sc) (faultPermanent (faultSource 0 sc) 192 0 (retireSubchannel sc))

/-- A subchannel that training has begun on and that is not in use yet reads Training (R378). -/
def showTraining (sc : Nat) : Act :=
  .read fun s => when (s.reg (K.SubchannelState + sc) != 3) (put (K.SubchannelState + sc) 2)

/-- A pair of full training runs of one point on one subchannel ends (R371, R372). `intact` says that the
devices still hold what they held when self-refresh was entered. -/
def execFullTraining (t sc point : Nat) (first second : TrainRun) (intact : Bool) (s : State) :
    Host.Outcome State Fault Refusal :=
  perform t (.read fun s =>
    let known := [3200, 4800, 6400].contains point
    let inOrder := point == 3200 || bit (s.reg (K.PointsTrained + sc)) 0
    let asked := s.dram.wantTraining || s.flag (K.RetrainNeeded + sc)
      || !bit (s.reg (K.PointsTrained + sc)) (pointBit point)
    if !s.islandReady islMEM || !s.fitted.contains sc || !known || !inOrder || !asked
        || !(s.mode == mReady || s.mode == mService) then .skip
    else if !first.window || !second.window then trainingFails sc
    else if runsAgree (s.reg K.TrainingTolerance) first second then
      seqs [
        showTraining sc,
        .prim (.dram fun d => { d with
          shadow := (sc, point, second.delays ++ second.vrefs)
            :: d.shadow.filter fun x => !(x.1 == sc && x.2.1 == point)
          disagreed := d.disagreed.set sc 0, drift := d.drift.set sc 0 }),
        put (K.PointsTrained + sc) (setBit (s.reg (K.PointsTrained + sc)) (pointBit point) true),
        put (K.RetrainNeeded + sc) 0,
        memEvent 191 sc,
        calibrationCounted 6 true,
        firstPointTrained intact,
        .read fun s => when (s.pointTrained 3200 && s.pointTrained 4800 && s.pointTrained 6400)
          (.prim (.dram fun d => { d with wantTraining := false })) ]
    else
      seqs [
        showTraining sc,
        .prim (.dram fun d => { d with disagreed := modAt d.disagreed sc (· + 1) }),
        calibrationCounted 6 false,
        .read fun s => when (s.reg K.TrainingAttempts ≤ s.dram.disagreed.getD sc 0) (trainingFails sc) ]) s

/-- A tracking step corrects the write delays by up to DriftLimit (R372). -/
def execTrackingStep (t sc : Nat) (drift : Int) (s : State) : Host.Outcome State Fault Refusal :=
  perform t (.read fun s =>
    let lim : Int := s.reg K.DriftLimit
    when (sc < 4 && s.reg (K.SubchannelState + sc) == 3 && s.mode != mStandby && !s.sys.deep)
      (.seq (.prim (.dram fun d => { d with drift := modAt d.drift sc (· + clampInt (-lim) lim drift) }))
        (when (lim < drift.natAbs) (put (K.RetrainNeeded + sc) 1)))) s

/-- ZQ calibration, every 128 ms of tracking (R372). -/
def execZqCalibration (t : Nat) (s : State) : Host.Outcome State Fault Refusal :=
  perform t (.read fun s =>
    when (s.dramUsable && s.mode != mStandby && s.dram.zqAt + 128000000 ≤ s.now)
      (.prim (.dram fun d => { d with zqAt := s.now }))) s

/-- RetrainRequest (R372). -/
def effRetrain : Effect := fun s w =>
  if s.mode ≠ mReady && s.mode ≠ mService then refuse abMode
  else accept (when (w.val == 1) (.prim (.dram fun d => { d with wantTraining := true })))

/-- A full training is asked for. -/
def execRetrainRequest (t : Nat) (w : Wr) (s : State) : Host.Outcome State Fault Refusal :=
  perform t (writeBy 0x2C00 0x0F effRetrain w) s

/-- The fixed and ring areas are initialised: DRAM is usable (R360). -/
def execDramInitialised (t : Nat) (s : State) : Host.Outcome State Fault Refusal :=
  perform t (.read fun s =>
    when (s.pointTrained 3200 && !s.dram.initialised && s.reg K.DramOperatingPoint != 0)
      (seqs [.prim (.dram fun d => { d with initialised := true }),
        put K.InitialisedUpTo s.jobStart, put K.ScrubPosition s.jobStart, put K.DramTrained 1,
        applyOverlap])) s

/-- One scrub unit (R360, R376): on the first pass it initialises the job store upward, an extent joining
JobStoreFree once swept; later it reads a burst and writes it back corrected. -/
def execScrubUnit (t : Nat) (read : BurstRead) (s : State) : Host.Outcome State Fault Refusal :=
  perform t (.read fun s =>
    let a := s.reg K.ScrubPosition
    let next := a + 64
    let wrap := s.dramEnd ≤ next
    let move := seqs [put K.ScrubPosition (if wrap then dramStart else next),
      when wrap (.seq (addTo K.ScrubPassCount 4 1) (raise 194))]
    if !s.dramUsable then .skip
    else if !s.dram.swept then
      seqs [
        .prim (.erase a 64), clearPoison a 64,
        put K.InitialisedUpTo next,
        when wrap (.prim (.dram fun d => { d with swept := true })),
        syncJobStore,
        move ]
    else
      .seq (readBurst (s.dramMap a).1 (.unit islMEM) a read) move) s

/-- RingAreaSize (R359). -/
def effRingArea : Effect := fun s w =>
  if s.reg K.JobCount ≠ 0 then refuse abMode
  else accept (.seq (put K.RingAreaSize w.val) remapStore)

/-- The ring area is resized. -/
def execRingAreaSizeWrite (t : Nat) (w : Wr) (s : State) : Host.Outcome State Fault Refusal :=
  perform t (writeBy 0x2C00 6 effRingArea w) s

/-- Rules of the 0x2Cxx entries. -/
def effMemory (idx sub : Nat) : Effect :=
  match idx * 256 + sub with
  | 0x2C0006 => effRingArea
  | 0x2C000F => effRetrain
  | key => if idx = 0x2C18 then effMarkClear (sub - 1) else plain key

end Sys2Proof.Machine
end

