-- ==== Sys2Proof/Machine/Dma.lean ====
section
/-! DEFINITION. Sys2Proof/Machine/Dma.lean: the DMA engine (R379–R393). DMA_BURST is a burst boundary of the engine: the
burst in flight ends, then one is granted (notes/assumptions/30.md). -/

namespace Sys2Proof.Machine

/-- Fields of an instruction (R382). -/
def diOp (i : List Nat) : Nat := field i 0 1
def diBeats (i : List Nat) : Nat := bits (field i 1 1) 0 4 + 1
def diHalt (i : List Nat) : Bool := bit (field i 1 1) 5
def diSource (i : List Nat) : Nat := field i 2 5
def diTarget (i : List Nat) : Nat := if diOp i = 2 then field i 2 5 else field i 7 5
def diLength (i : List Nat) : Nat := if diOp i = 2 then field i 8 4 else field i 12 4

/-- The instruction moves or compares data. -/
def diMoves (i : List Nat) : Bool := 1 ≤ diOp i && diOp i ≤ 3

/-- ChannelStatus as stored. -/
def State.dmaStatus (s : State) (c : Nat) : Nat := s.reg (dmaKey K.DmaChannelStatus c)

/-- The channel runs a program and no WAIT or transfer is in progress. -/
def State.dmaIdle (s : State) (c : Nat) : Bool :=
  c < 16 && s.islandReady islFAB && s.dmaStatus c == 1 && !(s.dmaChan c).active && (s.dmaChan c).wait.isNone

/-- The channel's line is asserted, or it needs none for its next burst: a retry waits for no line (R389, R390). -/
def State.dmaGo (s : State) (c : Nat) : Bool :=
  !dmaPaced (s.dmaInstr c) || (s.dmaChan c).tries != 0 || s.lineLevel (s.reg (dmaKey K.RequestLine c))

/-- ChannelStatus as read: Waiting in a WAIT, and while a paced burst is held for its line (R381). -/
def State.dmaShown (s : State) (c : Nat) : Nat :=
  let x := s.dmaChan c
  if s.dmaStatus c = 1 && (x.wait.isSome || (x.active && x.flight.isNone && !s.dmaGo c)) then 2 else s.dmaStatus c

/-- DmaChannel c occurs with a cause (R381). -/
def dmaCause (c cause : Nat) : Act := .seq (put (dmaKey K.LastCause c) cause) (raise (200 + c))

/-- The channel's run ends with a status and a cause (R381). -/
def dmaEnd (c status cause : Nat) : Act :=
  seqs [setDma c (fun _ => {}), put (dmaKey K.DmaChannelStatus c) status, dmaCause c cause]

/-- The reserved fields of an instruction are 0 (R382, R385 code 3). -/
def diReserved (i : List Nat) : Bool :=
  let ctl := field i 1 1
  let z := fun (o n : Nat) => field i o n == 0
  match diOp i with
  | 1 => bits ctl 5 3 == 0
  | 2 => bits ctl 5 3 == 0 && z 7 1
  | 3 => bits ctl 6 2 == 0
  | 4 => z 1 3
  | 6 => ctl ≤ 1 && z 3 1 && z 8 8 && (ctl == 1 || field i 2 1 ≤ 63)
  | 7 => z 1 1 && z 3 13
  | _ => z 1 15

/-- Addresses and Length of a transfer are multiples of 64 (R385 code 4). -/
def diAligned (i : List Nat) : Bool :=
  !diMoves i || ((diOp i == 2 || diSource i % 64 == 0) && diTarget i % 64 == 0 && diLength i % 64 == 0 && diLength i != 0)

/-- A LOOP's Count and strides (R385 code 5). -/
def diLoop (i : List Nat) : Bool :=
  diOp i != 4 || (field i 4 4 != 0 && field i 8 4 % 64 == 0 && field i 12 4 % 64 == 0)

/-- The first faulting instruction with its code (R385), checked in order with the loops open. -/
def progFault (line : Nat) : List (List Nat) → Nat → Nat → Option (Nat × Nat)
  | [], n, _ => some (n - 1, 7)
  | i :: rest, n, depth =>
    if diOp i = 0 || 8 < diOp i then some (n, 2)
    else if !diReserved i then some (n, 3)
    else if !diAligned i then some (n, 4)
    else if !diLoop i then some (n, 5)
    else if (diOp i = 4 && depth = 4) || (diOp i = 5 && depth = 0) || (diOp i = 8 && depth ≠ 0) then some (n, 6)
    else if diMoves i && dmaPaced i && line = 0xFF then some (n, 8)
    else if diOp i = 8 then none
    else progFault line rest (n + 1) (if diOp i = 4 then depth + 1 else if diOp i = 5 then depth - 1 else depth)

/-- DMA reaches an address: mapped, not the dictionary window, not the protected region (R352, R354, R390). -/
def State.dmaReach (s : State) (c addr : Nat) : Bool :=
  s.mapped addr && !(0x40000000 ≤ addr && addr < 0x42800000) && !protectedFrom (.dma c) addr

/-- A range of 64-byte lines fails to be read: the first such line (R390, R367). -/
def State.readFails (s : State) (c addr n : Nat) : Option Nat :=
  ((List.range (ceilDiv n 64)).map fun i => addr + 64 * i).find? fun a => !s.dmaReach c a || s.dram.poison.contains a

/-- A range fails to be written: the first such line. -/
def State.writeFails (s : State) (c addr n : Nat) : Option Nat :=
  ((List.range (ceilDiv n 64)).map fun i => addr + 64 * i).find? fun a => !s.dmaReach c a

/-- The instructions up to the first STOP, at most `n`: those read, and whether reading one failed. -/
def State.fetchProgram (s : State) (c : Nat) : Nat → Nat → List (List Nat) × Bool
  | 0, _ => ([], false)
  | n + 1, a =>
    if (s.readFails c (a / 64 * 64) 64).isSome then ([], true)
    else
      let i := s.bytesAt a 16
      if diOp i = 8 then ([i], false)
      else
        let r := s.fetchProgram c n (a + 16)
        (i :: r.1, r.2)

/-- A program fault (R385). -/
def programFault (c idx code : Nat) : Act :=
  seqs [put (dmaKey K.ProgramCounter c) idx, put (dmaKey K.ProgramFaultReason c) code, dmaEnd c 5 3]

/-- ChannelStart (R379). -/
def effChannelStart (c : Nat) : Effect := fun s w =>
  let st := s.dmaStatus c
  let a := s.reg (dmaKey K.ProgramAddress c)
  if w.val ≠ 1 then accept .skip
  else if 1 ≤ st && st ≤ 3 then refuse abMode
  else if a % 16 ≠ 0 then accept (programFault c 0 1)
  else
    let f := s.fetchProgram c 256 a
    if f.2 then accept (programFault c f.1.length 9)
    else match progFault (s.reg (dmaKey K.RequestLine c)) f.1 0 0 with
      | some (idx, code) => accept (programFault c idx code)
      | none => accept (seqs [
          setDma c (fun _ => { prog := f.1 }),
          put (dmaKey K.ProgramCounter c) 0,
          put (dmaKey K.DmaChannelStatus c) 1 ])

/-- A DMA program is started. -/
def execChannelStart (t c : Nat) (w : Wr) (s : State) : Host.Outcome State Fault Refusal :=
  perform t (when (c < 16) (writeBy (0x4400 + 0x10 * c) 6 (effChannelStart c) w)) s

/-- The channel goes on after its present instruction. -/
def dmaNext (c : Nat) : Act :=
  .read fun s => .seq (setDma c fun x => { x with active := false, done := 0, flight := none, tries := 0, wait := none })
    (put (dmaKey K.ProgramCounter c) (s.reg (dmaKey K.ProgramCounter c) + 1))

/-- A transfer instruction starts (R383, R387). -/
def dmaBegin (op c : Nat) : Act :=
  .read fun s =>
    let i := s.dmaInstr c
    when (s.dmaIdle c && diOp i == op)
      (.seq (setDma c fun x => { x with active := true, done := 0, tries := 0 })
        (put (dmaKey K.RemainingCount c) (diLength i)))

/-- A MOVE starts; its bursts follow. -/
def execMove (t c : Nat) (s : State) : Host.Outcome State Fault Refusal := perform t (dmaBegin 1 c) s

/-- A FILL starts. -/
def execFill (t c : Nat) (s : State) : Host.Outcome State Fault Refusal := perform t (dmaBegin 2 c) s

/-- A COMPARE starts (R386). -/
def execCompare (t c : Nat) (s : State) : Host.Outcome State Fault Refusal := perform t (dmaBegin 3 c) s

/-- A LOOP opens a level (R383). -/
def execLoop (t c : Nat) (s : State) : Host.Outcome State Fault Refusal :=
  perform t (.read fun s =>
    let i := s.dmaInstr c
    when (s.dmaIdle c && diOp i == 4)
      (.seq
        (setDma c fun x => { x with levels :=
          { back := s.reg (dmaKey K.ProgramCounter c) + 1, count := field i 4 4,
            src := signedOf 4 (field i 8 4), dst := signedOf 4 (field i 12 4) } :: x.levels })
        (dmaNext c))) s

/-- An ENDLOOP goes back or closes its level (R383). -/
def execEndloop (t c : Nat) (s : State) : Host.Outcome State Fault Refusal :=
  perform t (.read fun s =>
    let x := s.dmaChan c
    when (s.dmaIdle c && diOp (s.dmaInstr c) == 5)
      (match x.levels with
        | [] => .skip
        | l :: rest =>
          if l.index + 1 < l.count then
            .seq (setDma c fun x => { x with levels := { l with index := l.index + 1 } :: rest })
              (put (dmaKey K.ProgramCounter c) l.back)
          else .seq (setDma c fun x => { x with levels := rest }) (dmaNext c))) s

/-- A WAIT begins; on a request line that is asserted it ends at once (R383). -/
def execWait (t c : Nat) (s : State) : Host.Outcome State Fault Refusal :=
  perform t (.read fun s =>
    let i := s.dmaInstr c
    when (s.dmaIdle c && diOp i == 6)
      (if field i 1 1 = 0 && s.lineLevel (field i 2 1) then dmaNext c
      else setDma c fun x => { x with wait := some (s.now, s.ev.total (field i 2 1)) })) s

/-- What a WAIT waits for has come (R383). -/
def State.waitOver (s : State) (c : Nat) : Bool :=
  let i := s.dmaInstr c
  match (s.dmaChan c).wait with
  | some (_, n) => if field i 1 1 = 0 then s.lineLevel (field i 2 1) else decide (n < s.ev.total (field i 2 1))
  | none => false

/-- A WAIT ends (R383). -/
def execWaitEnd (t c : Nat) (s : State) : Host.Outcome State Fault Refusal :=
  perform t (.read fun s => when (s.dmaStatus c == 1 && s.waitOver c) (dmaNext c)) s

/-- A WAIT's timeout passes first (R383). -/
def execWaitTimeout (t c : Nat) (s : State) : Host.Outcome State Fault Refusal :=
  perform t (.read fun s =>
    let lim := field (s.dmaInstr c) 4 4
    match (s.dmaChan c).wait with
    | some (since, _) => when (s.dmaStatus c == 1 && lim != 0 && since + lim ≤ s.now && !s.waitOver c) (dmaEnd c 5 5)
    | none => .skip) s

/-- A SIGNAL (R383). -/
def execSignal (t c : Nat) (s : State) : Host.Outcome State Fault Refusal :=
  perform t (.read fun s =>
    let i := s.dmaInstr c
    when (s.dmaIdle c && diOp i == 7)
      (seqs [put (dmaKey K.LastSignalCode c) (field i 2 1), dmaCause c 1, dmaNext c])) s

/-- A STOP (R383). -/
def execStop (t c : Nat) (s : State) : Host.Outcome State Fault Refusal :=
  perform t (.read fun s => when (s.dmaIdle c && diOp (s.dmaInstr c) == 8) (dmaEnd c 4 2)) s

/-- An address under the open levels' offsets (R384); one outside 40 bits lies outside the map. -/
def DmaChan.offset (x : DmaChan) (source : Bool) (a : Nat) : Nat :=
  rawOf 8 ((a : Int) + (x.levels.map fun l => (l.index : Int) * (if source then l.src else l.dst)).sum)

/-- The present burst's addresses. -/
def State.burstSource (s : State) (c : Nat) : Nat := (s.dmaChan c).offset true (diSource (s.dmaInstr c)) + (s.dmaChan c).done
def State.burstTarget (s : State) (c : Nat) : Nat := (s.dmaChan c).offset false (diTarget (s.dmaInstr c)) + (s.dmaChan c).done

/-- Bytes of the burst that starts `at'` bytes into an instruction (R387). -/
def burstBytes (i : List Nat) (src dst at' : Nat) : Nat :=
  let room := fun (a : Nat) => 4096 - (a + at') % 4096
  let base := min (min (64 * diBeats i) (diLength i - at')) (room dst)
  if diOp i = 2 then base else min base (room src)

/-- The bursts from `at'` on, with a bound on their number. -/
def burstsLeft (i : List Nat) (src dst : Nat) : Nat → Nat → Nat
  | 0, _ => 0
  | fuel + 1, at' =>
    if diLength i ≤ at' then 0 else 1 + burstsLeft i src dst fuel (at' + burstBytes i src dst at')

/-- Bursts of the instruction not yet granted (R392). -/
def State.dmaDiscards (s : State) (c : Nat) : Nat :=
  let x := s.dmaChan c
  let i := s.dmaInstr c
  if !x.active then 0
  else burstsLeft i (x.offset true (diSource i)) (x.offset false (diTarget i)) (diLength i / 64)
    (x.done + x.flight.getD 0)

/-- The channel is disabled with nothing in flight (R392). -/
def dmaStopped (c : Nat) : Act :=
  .read fun s => .seq (addTo (dmaKey K.DiscardedBursts c) 4 (s.dmaDiscards c)) (dmaEnd c 0 6)

/-- ChannelStop (R392). -/
def effChannelStop (c : Nat) : Effect := fun s w =>
  if w.val ≠ 1 || s.dmaStatus c ≠ 1 then accept .skip
  else if (s.dmaChan c).flight.isSome || (s.dmaChan c).tries ≠ 0 then accept (put (dmaKey K.DmaChannelStatus c) 3)
  else accept (dmaStopped c)

/-- A DMA channel is disabled. -/
def execChannelStop (t c : Nat) (w : Wr) (s : State) : Host.Outcome State Fault Refusal :=
  perform t (when (c < 16) (writeBy (0x4400 + 0x10 * c) 7 (effChannelStop c) w)) s

/-- A store by DMA: the boot ROM takes none, and the nozzle banks by R215. -/
def dmaStore (a : Nat) (l : List Nat) : Act :=
  .read fun s =>
    if a < 0x10000 then .skip
    else if bankAt 0 ≤ a && a < screenAt then
      (if s.bankWriteTaken a then .prim (.storeBytes a l) else addTo K.BankWritesDiscarded 4 1)
    else writeDram a l

/-- The first byte at which two ranges differ. -/
def firstDiffer : Nat → List Nat → List Nat → Option Nat
  | n, a :: as, b :: bs => if a = b then firstDiffer (n + 1) as bs else some n
  | _, _, _ => none

/-- The instruction is complete (R380). -/
def dmaComplete (c : Nat) : Act :=
  .read fun s => if s.dmaStatus c = 3 then .seq (dmaNext c) (dmaStopped c) else dmaNext c

/-- A burst has moved its data: the next one, or the instruction's end. -/
def burstPassed (c n : Nat) : Act :=
  .read fun s =>
    let x := s.dmaChan c
    if diLength (s.dmaInstr c) ≤ x.done + n then dmaComplete c
    else .seq (setDma c fun x => { x with done := x.done + n, flight := none, tries := 0 })
      (.read fun s => when (s.dmaStatus c == 3) (dmaStopped c))

/-- The effect of a burst that met no error (R383, R386). -/
def burstEffect (c n : Nat) : Act :=
  .read fun s =>
    let i := s.dmaInstr c
    let src := s.burstSource c
    let dst := s.burstTarget c
    let x := s.dmaChan c
    seqs [
      addTo (dmaKey K.BurstsCompleted c) 8 1,
      (match diOp i with
        | 1 => .seq (dmaStore dst (s.bytesAt src n)) (burstPassed c n)
        | 2 => .seq (dmaStore dst (List.flatten (List.replicate (n / 4) (leBytes 4 (field i 12 4))))) (burstPassed c n)
        | _ =>
          match firstDiffer 0 (s.bytesAt src n) (s.bytesAt dst n) with
          | some k =>
            .seq (put (dmaKey K.CompareOffset c) (x.done + k))
              (if diHalt i then dmaEnd c 4 7 else dmaComplete c)
          | none =>
            .seq (when (diLength i ≤ x.done + n) (put (dmaKey K.CompareOffset c) 0xFFFFFFFF)) (burstPassed c n)) ]

/-- The address of a burst's failing beat, if any: its own, or one that the fabric reports (R390). -/
def State.burstFails (s : State) (c n : Nat) (bad : Option Nat) : Option Nat :=
  let i := s.dmaInstr c
  let src := s.burstSource c
  let dst := s.burstTarget c
  let own := match diOp i with
    | 1 => (s.readFails c src n).orElse fun _ => s.writeFails c dst n
    | 2 => s.writeFails c dst n
    | _ => (s.readFails c src n).orElse fun _ => s.readFails c dst n
  own.orElse fun _ => bad.filter fun a =>
    (dst ≤ a && a < dst + n) || (diOp i != 2 && src ≤ a && a < src + n)

/-- The burst in flight ends (R390, R391). -/
def burstEnd (c n : Nat) (bad : Option Nat) : Act :=
  .read fun s =>
    match s.burstFails c n bad with
    | none => burstEffect c n
    | some a => seqs [
        addTo (dmaKey K.BusErrors c) 4 1,
        put (dmaKey K.FaultAddress c) a,
        when (protectedFrom (.dma c) a && a < s.dramEnd) (addTo K.ProtectedAccessRefused 4 1),
        (if s.reg (dmaKey K.RetryLimit c) ≤ (s.dmaChan c).tries then dmaEnd c 5 4
        else setDma c fun x => { x with flight := none, tries := x.tries + 1 }) ]

/-- A channel is eligible for a burst (R388). -/
def State.dmaEligible (s : State) (c : Nat) : Bool :=
  let x := s.dmaChan c
  x.active && x.flight.isNone && (s.dmaStatus c == 1 || (s.dmaStatus c == 3 && x.tries != 0)) && s.dmaGo c
    && (!s.flag (dmaKey K.Background c) || decide (s.now < s.dma.slotUntil))

/-- The channel granted (R388): the highest priority, then the first after the last granted at it. -/
def State.dmaGrant (s : State) : Option Nat :=
  let prio := fun (c : Nat) => s.reg (dmaKey K.Priority c)
  let able := (List.range 16).filter s.dmaEligible
  let top := (able.map prio).foldl max 0
  let same := able.filter fun c => prio c == top
  let last := s.dma.last.getD top 15
  (same.find? fun c => last < c).orElse fun _ => same.head?

/-- A burst starts: RemainingCount falls with its first beat, but not for a retry (R387). -/
def burstStart (c : Nat) : Act :=
  .read fun s =>
    let x := s.dmaChan c
    let i := s.dmaInstr c
    let n := burstBytes i (x.offset true (diSource i)) (x.offset false (diTarget i)) x.done
    seqs [
      setDma c (fun x => { x with flight := some n }),
      when (x.tries == 0) (put (dmaKey K.RemainingCount c) (s.reg (dmaKey K.RemainingCount c) - n)),
      addTo K.BurstsIssued 8 1,
      .prim (.dma fun d => { d with last := d.last.set (s.reg (dmaKey K.Priority c)) c }) ]

/-- A burst boundary of the engine (R388): `bad` is the address of a beat that the fabric failed. -/
def execDmaBurst (t : Nat) (bad : Option Nat) (s : State) : Host.Outcome State Fault Refusal :=
  perform t (.seq
    (.read fun s =>
      match (List.range 16).find? fun c => (s.dmaChan c).flight.isSome with
      | some c => burstEnd c ((s.dmaChan c).flight.getD 0) bad
      | none => .skip)
    (.read fun s =>
      if !s.islandReady islFAB then .skip
      else match s.dmaGrant with
        | some c => burstStart c
        | none => .skip)) s

/-- A DMA timer reaches a multiple of its period (R389). -/
def execDmaTimer (t k : Nat) (s : State) : Host.Outcome State Fault Refusal :=
  perform t (.read fun s =>
    let q := s.ptp / 65536 / s.reg (K.DmaTimerPeriod + k)
    let x := s.dma.timers.getD k (0, false)
    when (k < 4 && s.time.running && x.1 != q)
      (.prim (.dma fun d => { d with timers := d.timers.set k (q, true) }))) s

/-- A DMA timer's width ends (R389). -/
def execDmaTimerWidthEnd (t k : Nat) (s : State) : Host.Outcome State Fault Refusal :=
  perform t (.read fun s =>
    let x := s.dma.timers.getD k (0, false)
    when (k < 4 && x.2 && x.1 * s.reg (K.DmaTimerPeriod + k) + s.reg (K.DmaTimerWidth + k) ≤ s.ptp / 65536)
      (.seq (lineWithdrawn (8 + k))
        (.prim (.dma fun d => { d with timers := d.timers.set k (x.1, false) })))) s

/-- SoftRequest (R389). -/
def effSoftRequest : Effect := fun s w =>
  accept (.seq
    (each ((List.range 32).filter fun n => bit (s.reg K.SoftRequest) n && !bit w.val n) fun n => lineWithdrawn (32 + n))
    (put K.SoftRequest w.val))

/-- SoftRequest is written. -/
def execSoftRequestWrite (t : Nat) (w : Wr) (s : State) : Host.Outcome State Fault Refusal :=
  perform t (writeBy 0x2D01 1 effSoftRequest w) s

/-- Every channel is disabled, for an island reset (R393). -/
def dmaDisableAll : Act :=
  each (List.range 16) fun c => .read fun s =>
    if s.dmaStatus c = 1 || s.dmaStatus c = 3 then
      .seq (match (s.dmaChan c).flight with
        | some n => burstEnd c n none
        | none => .skip) (.read fun s => when (s.dmaStatus c == 1 || s.dmaStatus c == 3) (dmaStopped c))
    else .skip

/-- Rules of the DMA entries. -/
def effDma (idx sub : Nat) : Effect :=
  let c := (idx - 0x4400) / 0x10
  if idx = 0x2D01 && sub = 1 then effSoftRequest
  else if idx = 0x2D02 then fun s w =>
    if w.val < s.reg (K.DmaTimerWidth + (sub - 1)) + 100 then refuse abRange else accept (put (idx * 256 + sub) w.val)
  else if idx = 0x2D03 then fun s w =>
    if s.reg (K.DmaTimerPeriod + (sub - 1)) < w.val + 100 then refuse abRange else accept (put (idx * 256 + sub) w.val)
  else if idx / 256 = 0x44 && idx % 16 = 0 && sub = 6 then effChannelStart c
  else if idx / 256 = 0x44 && idx % 16 = 0 && sub = 7 then effChannelStop c
  else plain (idx * 256 + sub)

end Sys2Proof.Machine
end

