-- ==== Sys2Proof/Machine/Ingest.lean ====
section
/-! DEFINITION. Sys2Proof/Machine/Ingest.lean: job ingest: flows, the parsing of their objects, stream headers,
strips, refetches (R134–R138, R140–R142, R399–R408). -/

namespace Sys2Proof.Machine

/-- A datagram is dropped and counted (R400, R402, R404, R405). -/
def dropDatagram : Act := addTo K.DatagramsDropped 4 1

/-- An object is discarded and counted (R403, R406). -/
def discardObject : Act := addTo K.ObjectsDiscarded 4 1

/-- A frame or datagram that arrives before NET is ready (R92). -/
def beforeNetReady (port : Nat) : Act :=
  .read fun s =>
    .seq (addTo (K.PreReadyFrames + port) 4 1)
      (when (!s.sys.preReadyRaised) (.seq (.prim (.sys fun x => { x with preReadyRaised := true })) (netEvent 231 port)))

/-- A job becomes Incomplete (R138, R141, R406). -/
def jobIncomplete (id : Nat) : Act := .seq (setJob id fun j => { j with state := 3 }) mirrorDirectory

/-- A flow becomes Failed (R406): objects cut are discarded, jobs short of strips become Incomplete. -/
def failFlow (f : Nat) : Act :=
  .read fun s =>
    let short := (s.flow f).streams.filterMap fun id => (s.stream? id).bind fun x =>
      if x.present < x.strips then some x.job else none
    seqs [
      put (K.FlowState + f) 3,
      when (!(s.flow f).buf.isEmpty) discardObject,
      setFlow f (fun x => { x with buf := [], held := [], nacks := 0 }),
      when (!short.isEmpty)
        (.seq (each short fun id => setJob id fun j => { j with state := 3 }) mirrorDirectory) ]

/-- The fields of a stream header are in range (R140, R141 check 4, R148). -/
def headerInRange (h : List Nat) : Bool :=
  let v := field h 2 1
  let b := field h 14 1
  let near := field h 15 1
  let lines := field h 24 4
  let count := field h 28 4
  let flags := field h 38 1
  let seg := (h.drop 40).take 15
  1 ≤ field h 4 4 && field h 4 4 ≤ 0xFFFFFFFE && field h 8 4 != 0xFFFFFFFF && field h 12 1 ≤ 7 && field h 13 1 ≤ 8
    && 8 ≤ b && b ≤ 12 && near ≤ 3 && 1 ≤ field h 16 2 && field h 16 2 ≤ 8192 && field h 18 2 == 0
    && 1 ≤ lines && ceilDiv lines 16 ≤ count && count ≤ lines && flags < 4 && field h 39 1 == 0 && field h 55 5 == 0
    && (0x30 ≤ v || (near == 0 && !bit flags 0)) && (0x31 ≤ v || field h 36 2 == 0)
    && (if bit flags 0 then (lseParams seg b near).isSome else seg.all (· == 0))

/-- Why a stream header is refused (R141): the check that fails, 0 for none. -/
def State.headerRefusal (s : State) (h : List Nat) : Nat :=
  if field h 60 4 ≠ crc32 (h.take 60) then 2
  else if !([0x20, 0x21, 0x30, 0x31].contains (field h 2 1)) then 3
  else if !headerInRange h then 4
  else if (s.stream? (field h 8 4)).isSome then 5
  else if ((s.job? (field h 4 4)).isNone && 4096 ≤ s.codec.jobs.length) || 65536 ≤ s.codec.streams.length then 6
  else 0

/-- The lowest free record of JobDirectory. -/
def State.freePlace (s : State) : Nat :=
  ((List.range 4096).find? fun n => !(s.codec.jobs.any fun j => j.place == n)).getD 0

/-- A stream record is made (R135, R136, R138). -/
def acceptHeader (f : Nat) (h : List Nat) : Act :=
  .read fun s =>
    let id := field h 8 4
    let job := field h 4 4
    let x : Stream := { id := id, job := job, hdr := h }
    seqs [
      when (s.job? job).isNone (.prim (.codec fun c => { c with
        jobs := c.jobs ++ [{ id := job, place := s.freePlace, loadTime := ptpSec s.ptp * 1000000000 + ptpNs s.ptp }] })),
      setJob job (fun j => if j.state = 2 then { j with state := 1 } else j),
      .prim (.codec fun c => { c with streams := addStream x c.streams }),
      setFlow f (fun y => { y with
        refused := y.refused.filter (· != id), streams := id :: y.streams.filter (· != id) }),
      .read (fun s =>
        match s.job? job with
        | none => .skip
        | some j =>
          match s.roomFor j (8 * x.strips) with
          | some (a, j') =>
            seqs [.prim (.erase a (8 * x.strips)), clearPoison a (8 * x.strips), setJob job (fun _ => j'),
              setStream id fun y => { y with table := a }]
          | none => .seq (raise 39) (setJob job fun j => { j with state := 3 })),
      mirrorDirectory ]

/-- A stream header from a flow (R141, R403). -/
def takeHeader (f : Nat) (h : List Nat) : Act :=
  .read fun s =>
    let code := s.headerRefusal h
    if code = 0 then acceptHeader f h
    else
      seqs [
        setFlow f (fun x => { x with refused := field h 8 4 :: x.refused }),
        when (code == 3) (raise 38),
        when (code == 6) (.seq (raise 39) (when (s.job? (field h 4 4)).isSome (jobIncomplete (field h 4 4)))) ]

/-- A strip has arrived: its place among the stream's strips, and the job's state (R133, R136). -/
def noteStrip (x : Stream) (obj : List Nat) (fresh : Bool) : Act :=
  let p : Placed := { idx := field obj 8 4, first := field obj 12 4, count := field obj 16 1, flags := field obj 17 1 }
  seqs [
    setStream x.id (fun y => { y with
      present := if fresh then y.present + 1 else y.present
      placed := p :: y.placed.filter fun q => q.idx != p.idx }),
    .read (fun s => when ((s.jobStreams x.job).all fun y => y.present == y.strips)
      (setJob x.job fun j => if j.state = 1 then { j with state := 2 } else j)),
    mirrorDirectory ]

/-- A strip of a job-store stream is written (R134, R138). -/
def storeStrip (x : Stream) (j : Job) (obj : List Nat) : Act :=
  .read fun s =>
    let entry := x.table + 8 * field obj 8 4
    if x.table = 0 || Memory.value s.mem entry 8 ≠ 0 then discardObject
    else
      match s.roomFor j obj.length with
      | none => seqs [raise 39, discardObject, jobIncomplete j.id]
      | some (a, j') =>
        seqs [
          writeDram a obj,
          writeDram entry (leBytes 8 ((a - s.jobStart) * 2 ^ 24 + obj.length)),
          setJob j.id (fun _ => j'),
          noteStrip x obj true ]

/-- A strip of a streamed stream goes to its input chain (R404), or answers an outstanding Refetch (R407). -/
def spoolStrip (x : Stream) (obj : List Nat) : Act :=
  .read fun s =>
    let idx := field obj 8 4
    let c := (s.chain? x.id).getD { stream := x.id }
    let fresh := !(x.placed.any fun p => p.idx == idx)
    .seq (when (s.chain? x.id).isNone (.prim (.codec fun y => { y with chains := y.chains ++ [c] })))
      (if s.net.refetches.any fun r => r.stream == x.id && r.strip == idx then
        seqs [
          .prim (.net fun n => { n with refetches := n.refetches.filter fun r => !(r.stream == x.id && r.strip == idx) }),
          setChain { c with again := some (idx, obj) } ]
      else
        seqs [
          setChain { c with strips := c.strips ++ [(idx, obj.length)], wait := c.wait ++ obj },
          drainChain x.id, placeChain x.id, noteStrip x obj fresh ])

/-- A strip from a flow (R134, R138, R403, R404). -/
def takeStripObject (f : Nat) (obj : List Nat) : Act :=
  .read fun s =>
    let id := field obj 4 4
    match s.stream? id with
    | none => discardObject
    | some x =>
      match s.job? x.job with
      | none => discardObject
      | some j =>
        if (s.flow f).refused.contains id || j.state = 3 || x.strips ≤ field obj 8 4 then discardObject
        else if x.streamed then spoolStrip x obj
        else storeStrip x j obj

/-- Parses the ordered bytes of a flow as objects (R403). -/
def parseFlow : Nat → Nat → Act
  | 0, _ => .skip
  | fuel + 1, f =>
    .read fun s =>
      let b := (s.flow f).buf
      let kind := b.getD 3 0
      let need := if kind = 0 then 64 else 32 + field b 20 4
      if b.length < 4 then .skip
      else if field b 0 2 ≠ 0x4B53 || 1 < kind then failFlow f
      else if kind = 1 && 32 ≤ b.length && 524304 < field b 20 4 then failFlow f
      else if b.length < (if kind = 0 then 64 else 32) || b.length < need then .skip
      else
        seqs [
          setFlow f (fun x => { x with buf := x.buf.drop need }),
          (if kind = 0 then takeHeader f (b.take need) else takeStripObject f (b.take need)),
          parseFlow fuel f ]

/-- A datagram is taken in order (R402, R405): its bytes parsed, an Ack after every 64. -/
def takeData (f : Nat) (last : Bool) (data : List Nat) : Act :=
  seqs [
    setFlow f (fun x => { x with
      next := x.next + 1, taken := x.taken + data.length, buf := x.buf ++ data, sinceAck := x.sinceAck + 1,
      ending := x.ending || last, starved := false }),
    addTo K.IngestBytes 8 data.length,
    .read (fun s => parseFlow ((s.flow f).buf.length / 32 + 1) f),
    .read (fun s => when (s.flowOpen f && 64 ≤ (s.flow f).sinceAck) (sendAck f false)) ]

/-- Takes the datagrams held that have become next in order. -/
def takeHeld : Nat → Nat → Act
  | 0, _ => .skip
  | fuel + 1, f =>
    .read fun s =>
      match (s.flow f).held.find? fun h => h.seq == (s.flow f).next with
      | some h =>
        if !s.flowOpen f then .skip
        else seqs [setFlow f (fun x => { x with held := x.held.filter fun y => y.seq != h.seq }), takeData f h.last h.data,
          takeHeld fuel f]
      | none => .skip

/-- A flow's entry and its state return to Closed; an object cut is discarded (R397, R408). -/
def endFlow (f : Nat) : Act :=
  .read fun s =>
    seqs [
      put (K.FlowState + f) 0,
      when (!(s.flow f).buf.isEmpty) discardObject,
      setFlow f fun x => { ({} : Flow) with host := x.host, streams := x.streams, refused := x.refused } ]

/-- A flow closes (R408): a final Ack unless it had failed. -/
def closeFlow (f : Nat) : Act :=
  .read fun s => .seq (when (s.flowOpen f) (sendAck f true)) (endFlow f)

/-- After datagrams have been taken: the gap is closed, or the flow ends (R402, R408). -/
def settleFlow (f : Nat) : Act :=
  .read fun s =>
    if !s.flowOpen f then .skip
    else if (s.flow f).ending then closeFlow f
    else if (s.flow f).held.isEmpty then
      .seq (put (K.FlowState + f) 1) (setFlow f fun x => { x with nacks := 0 })
    else when ((s.flow f).gapAt == 0) .skip

/-- A datagram ahead of a missing one is held (R402, R406). -/
def holdData (f : Nat) (h : HeldData) : Act :=
  .read fun s =>
    let x := s.flow f
    if x.held.any (fun y => y.seq == h.seq) || s.reg K.ReorderDepth ≤ x.held.length
        || 0x4000000 < s.reorderUsed + h.data.length then dropDatagram
    else
      seqs [
        setFlow f (fun y => { y with held := h :: y.held }),
        when (s.flowState f == 1)
          (seqs [put (K.FlowState + f) 2, setFlow f (fun y => { y with gapAt := s.now, nacks := 0 }),
            netEvent 221 (flowCode f)]) ]

/-- The header of a datagram from a host is well formed (R400, R401). -/
def ingestValid (d : List Nat) : Bool :=
  32 ≤ d.length && field d 0 2 == 0x4A53 && field d 2 1 == 1 && field d 3 1 < 16 && field d 4 2 ≤ 63
    && field d 6 2 + 32 == d.length && field d 6 2 ≤ 8940 && field d 12 4 == 0 && field d 24 8 == 0

/-- A flow opens or restarts (R402). -/
def openFlow (f : Nat) (host : Host4) : Act :=
  .read fun s =>
    .seq (when (s.flowOpen f) (addTo K.FlowRestarts 4 1))
      (.seq (setFlow f fun x => { ({} : Flow) with host := host, streams := x.streams, refused := x.refused })
        (put (K.FlowState + f) 1))

/-- A datagram of an open flow: duplicate, beyond the credit, ahead or next (R402, R405). -/
def flowData (f : Nat) (d : List Nat) : Act :=
  .read fun s =>
    let x := s.flow f
    let seq := field d 8 4
    let final := field d 16 8 + field d 6 2
    let last := bit (field d 3 1) 1
    if seq < x.next then dropDatagram
    else if x.credit.any (· < final) then
      .seq dropDatagram (when (!x.starved)
        (.seq (setFlow f fun y => { y with starved := true }) (netEvent 223 (flowCode f))))
    else if seq = x.next then
      seqs [takeData f last (d.drop 32), takeHeld (x.held.length + 1) f, settleFlow f]
    else holdData f { seq := seq, last := last, data := d.drop 32 }

/-- An ingest datagram arrives (R399–R408). -/
def execIngestData (t : Nat) (host : Host4) (data : List Nat) (s : State) : Host.Outcome State Fault Refusal :=
  perform t (.read fun s =>
    let f := 64 * host.nic + field data 4 2
    let start := bit (field data 3 1) 0 && field data 8 4 == 0
    if 3 ≤ host.nic || (s.isH && host.nic == 1) then .skip
    else if !s.islandReady islNET then beforeNetReady host.nic
    else if host.nic = 2 || !s.flag K.DramTrained || !s.fnOn fnIngest || !ingestValid data then dropDatagram
    else if start then
      seqs [openFlow f host, setFlow f (fun x => { x with lastAt := s.now }), flowData f data]
    else if s.flowState f = 0 then dropDatagram
    else if s.flowState f = 3 then setFlow f fun x => { x with lastAt := s.now }
    else .seq (setFlow f fun x => { x with host := host, lastAt := s.now }) (flowData f data)) s

/-- AckInterval passes (R405). -/
def execAckInterval (t : Nat) (s : State) : Host.Outcome State Fault Refusal :=
  perform t (.read fun s => when (s.islandReady islNET) (each s.openFlows fun f => sendAck f false)) s

/-- The missing Sequences below those held, as ranges of first and count, at most 64 (R401). -/
def missingRanges : Nat → Nat → List Nat → List (Nat × Nat)
  | 0, _, _ => []
  | fuel + 1, next, held =>
    match held.filter (next ≤ ·) with
    | [] => []
    | x :: xs =>
      let low := xs.foldl min x
      if low = next then missingRanges fuel (next + 1) held
      else (next, low - next) :: missingRanges fuel (low + 1) held

/-- Sends a Nack that lists what is missing (R406). -/
def sendNack (f : Nat) : Act :=
  .read fun s =>
    let x := s.flow f
    let ranges := (missingRanges (2 * x.held.length + 1) x.next (x.held.map (·.seq))).take 64
    seqs [
      sendIngest f 3 0 0 0 (ranges.flatMap fun r => leBytes 4 r.1 ++ leBytes 4 r.2),
      setFlow f (fun y => { y with nacks := y.nacks + 1, nackAt := s.now }),
      addTo K.NacksSent 4 1 ]

/-- NackDelay after a gap (R406). -/
def execNackDelay (t f : Nat) (s : State) : Host.Outcome State Fault Refusal :=
  perform t (.read fun s =>
    let x := s.flow f
    when (f < 128 && s.flowState f == 2 && x.nacks == 0 && x.gapAt + s.reg K.NackDelay ≤ s.now)
      (.seq (sendNack f) (netEvent 222 (flowCode f)))) s

/-- NackInterval after a Nack: it is repeated, or the flow fails (R406). -/
def execNackRetry (t f : Nat) (s : State) : Host.Outcome State Fault Refusal :=
  perform t (.read fun s =>
    let x := s.flow f
    if 128 ≤ f || s.flowState f ≠ 2 || x.nacks = 0 || s.now < x.nackAt + s.reg K.NackInterval then .skip
    else if x.nacks ≤ s.reg K.NackRetries then sendNack f
    else failFlow f) s

/-- FlowIdleTimeout passes without datagrams (R408). -/
def execFlowIdleTimeout (t f : Nat) (s : State) : Host.Outcome State Fault Refusal :=
  perform t (.read fun s =>
    when (f < 128 && s.flowState f != 0 && (s.flow f).lastAt + s.reg K.FlowIdleTimeout ≤ s.now) (closeFlow f)) s

/-- An outstanding Refetch is resent (R407). -/
def execRefetchResend (t stream : Nat) (s : State) : Host.Outcome State Fault Refusal :=
  perform t (.read fun s =>
    match s.net.refetches.find? fun r => r.stream == stream && r.sentAt + s.reg K.NackInterval ≤ s.now with
    | none => .skip
    | some r =>
      .seq (sendRefetch r)
        (.prim (.net fun n => { n with refetches := n.refetches.map fun x => if x = r then { x with sentAt := s.now } else x }))) s

/-- The deadline of a Refetch passes: the strip's second failure (R165, R407). -/
def execRefetchDeadline (t stream : Nat) (s : State) : Host.Outcome State Fault Refusal :=
  perform t (.read fun s =>
    match s.net.refetches.find? fun r => r.stream == stream && r.deadline ≤ s.ptp with
    | none => .skip
    | some r =>
      seqs [
        .prim (.net fun n => { n with refetches := n.refetches.filter (· != r) }),
        loseHistory stream r.strip,
        setStream stream (fun x => { x with lost := x.lost + 1 }),
        mirrorDirectory ]) s

end Sys2Proof.Machine
end

