-- ==== Sys2Proof/Machine/Ethernet.lean ====
section
/-! DEFINITION. Sys2Proof/Machine/Ethernet.lean: Ethernet frames (R396), ARP and ICMP (R397), links (R398) and
the transparent clock (R424). Messages of Ethernet, IP, UDP, ARP and PTP have the published layouts
(notes/assumptions/31.md). -/

namespace Sys2Proof.Machine

/-- The Ethernet ports: 0 NP0, 1 NP1, 2 NC (R395); NP1 is absent on the H part (R66). -/
def State.portThere (s : State) (p : Nat) : Bool := p < 3 && !(s.isH && p == 1)

/-- A port's own MAC address (R425). -/
def State.mac (_ : State) (p : Nat) : Nat := (Config.macAddress p).toNat

/-- The FCS of a frame's bytes. -/
def fcs (l : List Nat) : List Nat := leBytes 4 (crc32 l)

/-- The one's complement sum of 16-bit words of IP, UDP and ICMP. -/
def ones16 : List Nat → Nat → Nat
  | a :: b :: l, r =>
    let v := r + 256 * a + b
    ones16 l (v % 65536 + v / 65536)
  | [a], r =>
    let v := r + 256 * a
    v % 65536 + v / 65536
  | [], r => r

/-- The checksum of a list of bytes. -/
def inetChecksum (l : List Nat) : Nat := 0xFFFF - ones16 l 0

/-- The tag of the controller's own frames on a port (R396). -/
def State.vlanTag (s : State) (p : Nat) : List Nat :=
  let v := s.reg (K.VlanId + p)
  if v = 0xFFFF then [] else [0x81, 0x00] ++ beBytes 2 v

/-- A frame on a port: addresses, tag, Ethertype, payload, and its FCS. -/
def State.frameOf (s : State) (p : Nat) (addresses : List Nat) (type : Nat) (payload : List Nat) : List Nat :=
  let l := addresses ++ s.vlanTag p ++ beBytes 2 type ++ payload
  let padded := l ++ List.replicate (60 - l.length) 0
  padded ++ fcs padded

/-- The addresses a port takes frames for (R396). -/
def State.takesAddress (s : State) (p a : Nat) : Bool :=
  a == s.mac p || a == 0xFFFFFFFFFFFF || a == 0x011B19000000 || a == 0x0180C200000E

/-- Where a frame's Ethertype stands, with the tag's VID if it has one. -/
def frameType (d : List Nat) : Nat × Option Nat :=
  if fieldBE d 12 2 = 0x8100 then (16, some (fieldBE d 14 2 % 4096)) else (12, none)

/-- A frame is accepted (R396): size, FCS, VLAN, address and Ethertype. -/
def State.acceptsFrame (s : State) (p : Nat) (d : List Nat) : Bool :=
  let v := s.reg (K.VlanId + p)
  let x := frameType d
  let type := fieldBE d x.1 2
  64 ≤ d.length && d.length ≤ 9216 && d.drop (d.length - 4) == fcs (d.take (d.length - 4))
    && x.2 == (if v = 0xFFFF then none else some v)
    && s.takesAddress p (fieldBE d 0 6)
    && (type == 0x0800 || type == 0x0806 || type == 0x88F7 || (type == 0x88B5 && p == 2))

/-- Where a PTP message starts in a frame: after Ethertype 0x88F7, or in UDP to port 319 or 320. -/
def ptpOffset (d : List Nat) : Option Nat :=
  let o := (frameType d).1
  let ihl := 4 * (fieldBE d (o + 2) 1 % 16)
  if fieldBE d o 2 = 0x88F7 then some (o + 2)
  else if fieldBE d o 2 = 0x0800 && fieldBE d (o + 11) 1 == 17 && fieldBE d (o + 8) 2 % 16384 == 0
      && (fieldBE d (o + 4 + ihl) 2 == 319 || fieldBE d (o + 4 + ihl) 2 == 320) then some (o + 2 + ihl + 8)
  else none

/-- A time in ps, in units of 2^-16 ns (R8). -/
def psTicks (v : Int) : Int := roundDiv (v * 65536) 1000

/-- A time in units of 2^-16 ns, in ps. -/
def ticksPs (v : Int) : Int := roundShift (v * 1000) 16

/-- A list with the bytes of a field replaced. -/
def putBytes (l : List Nat) (o : Nat) (b : List Nat) : List Nat := l.take o ++ b ++ l.drop (o + b.length)

/-- The payload of an IPv4 frame with the checksum of its UDP datagram made anew, if it bears one. -/
def withUdpSum (ip : List Nat) : List Nat :=
  let ihl := 4 * (fieldBE ip 0 1 % 16)
  let len := fieldBE ip (ihl + 4) 2
  let z := putBytes ip (ihl + 6) [0, 0]
  let sum := inetChecksum ((ip.drop 12).take 8 ++ [0, 17] ++ beBytes 2 len ++ (z.drop ihl).take len)
  if fieldBE ip (ihl + 6) 2 = 0 then ip else putBytes ip (ihl + 6) (beBytes 2 (if sum = 0 then 0xFFFF else sum))

/-- Residence time of a message (R424, R419), in 2^-16 ns: the time between its two stamps, with the latencies
of the ports it came in and went out by. -/
def State.residence (s : State) (p q dwell : Nat) : Int :=
  (dwell : Int) + psTicks (s.reg (K.PtpIngressLatency + p)) + psTicks (s.reg (K.PtpEgressLatency + q))

/-- Forwards a PTP message out of one transparent port (R424). -/
def forwardPtp (p q o dwell : Nat) (d : List Nat) : Act :=
  .read fun s =>
    let kind := fieldBE d o 1 % 16
    let timed := kind < 4
    let res := s.residence p q dwell
    let add := if !timed then 0
      else if kind = 0 && s.reg K.PtpDelayMechanism == 1 then res + s.time.linkDelay.getD p 0
      else res
    let corr := rawOf 8 ((fieldBE d (o + 8) 8 : Int) + add)
    let at' := (frameType d).1
    let body := ((putBytes d (o + 8) (beBytes 8 corr)).take (d.length - 4)).drop (at' + 2)
    let type := fieldBE d at' 2
    .seq (send (.eth q (s.frameOf q (d.take 12) type (if type = 0x0800 then withUdpSum body else body))))
      (when timed (put K.TcResidenceMax (min 0xFFFFFFFF (max (s.reg K.TcResidenceMax) (ticksPs res).toNat))))

/-- The transparent clock (R424): a PTP message of the domain goes out of every other port of the mask. -/
def transparentForward (p : Nat) (d dwell : List Nat) : Act :=
  .read fun s =>
    let mask := s.reg K.TransparentPorts
    let ports := (List.range 3).filter fun q => bit mask q && s.portThere q
    match ptpOffset d with
    | none => .skip
    | some o =>
      if !bit mask p || ports.length < 2 || fieldBE d (o + 4) 1 ≠ s.reg K.PtpDomain || !s.islandReady islTIME then .skip
      else each (ports.filter (· != p)) fun q => forwardPtp p q o (dwell.getD q 0) d

/-- An Ethernet frame arrives (R92, R396), with the codewords RS-FEC corrected and failed to correct since the
previous one (R398) and the time it spent on the way to each port it is forwarded by. -/
def execEthernetFrame (t port : Nat) (data dwell : List Nat) (fec fecBad : Nat) (s : State) :
    Host.Outcome State Fault Refusal :=
  perform t (.read fun s =>
    if !s.portThere port then .skip
    else if !s.islandReady islNET then beforeNetReady port
    else
      seqs [
        when (port < 2) (.seq (addTo (K.FecCorrected + port) 8 fec) (addTo (K.FecUncorrected + port) 8 fecBad)),
        (if s.acceptsFrame port data then
          .seq (addTo (K.EthFramesReceived + port) 8 1) (transparentForward port data dwell)
        else addTo (K.FramesDiscarded + port) 8 1) ]) s

/-- A port answers at its IPv4 address: NET is ready and the address is not 0 (R397, R425). -/
def State.answersAt (s : State) (p ip : Nat) : Bool :=
  s.portThere p && s.islandReady islNET && ip != 0 && ip == s.reg (K.Ipv4Address + p)

/-- An ARP request is answered (R397). -/
def execArpRequest (t port mac ip target : Nat) (s : State) : Host.Outcome State Fault Refusal :=
  perform t (.read fun s =>
    when (s.answersAt port target)
      (send (.eth port (s.frameOf port (beBytes 6 mac ++ beBytes 6 (s.mac port)) 0x0806
        ([0, 1, 8, 0, 6, 4, 0, 2] ++ beBytes 6 (s.mac port) ++ beBytes 4 target ++ beBytes 6 mac ++ beBytes 4 ip))))) s

/-- An ICMP echo request is answered, by the gateway where the sender is off the link; fragments are dropped
(R397). -/
def execIcmpEcho (t port src target ident seq : Nat) (data : List Nat) (fragment : Bool) (s : State) :
    Host.Outcome State Fault Refusal :=
  perform t (.read fun s =>
    let rest := beBytes 2 ident ++ beBytes 2 seq ++ data
    match s.nextHop port src with
    | some via =>
      when (s.answersAt port target && !fragment && data.length ≤ 1472)
        (send (.ip port via src 1 ([0, 0] ++ beBytes 2 (inetChecksum ([0, 0, 0, 0] ++ rest)) ++ rest)))
    | none => .skip) s

/-- A port goes up or down (R398). -/
def execPortLinkChange (t port : Nat) (up : Bool) (s : State) : Host.Outcome State Fault Refusal :=
  perform t (.read fun s =>
    when (s.portThere port && s.islandReady islNET && s.flag (K.PortLinkUp + port) != up)
      (.seq (put (K.PortLinkUp + port) (if up then 1 else 0)) (netEvent (216 + port) port))) s

end Sys2Proof.Machine
end

