-- ==== Sys2Proof/Machine/Ptp.lean ====
section
/-! DEFINITION. Sys2Proof/Machine/Ptp.lean: network time (R418–R423): the ordinary clock as slave and master, and
reads of the time. The best master clock algorithm is the published one (notes/assumptions/31.md); the servo's
gains are the spec's no more, so its trim is a free value within its limit (notes/assumptions/33.md). -/

namespace Sys2Proof.Machine

/-- The ordinary clock runs on a port and takes a message of a domain there (R420). -/
def State.ptpOn (s : State) (port domain : Nat) : Bool :=
  s.portThere port && s.reg K.PtpPort == port && domain == s.reg K.PtpDomain
    && s.islandReady islNET && s.islandReady islTIME

/-- Ingress timestamp of a message stamped now (R419), in 2^-16 ns: the crossing's lag is made good, and the
port's latency taken off. -/
def State.ingressStamp (s : State) (port : Nat) : Int :=
  (s.ptp : Int) - psTicks (s.reg (K.PtpIngressLatency + port))

/-- Egress timestamp of a message stamped at an instant (R419). -/
def State.egressStamp (s : State) (port at' : Nat) : Int :=
  (s.ptpAt at' : Int) + psTicks (s.reg (K.PtpEgressLatency + port))

/-- delayAsymmetry of a port (R423), in 2^-16 ns. -/
def State.asymmetry (s : State) (port : Nat) : Int := psTicks (s.regI (K.PtpAsymmetry + port) 4)

/-- A logarithmic interval in ns. -/
def logInterval (n : Int) : Nat := if 0 ≤ n then 1000000000 * 2 ^ n.toNat else 1000000000 / 2 ^ (-n).toNat

/-- The path delay in use (R420): request-response or peer. -/
def State.pathDelay (s : State) (port : Nat) : Int :=
  if s.reg K.PtpDelayMechanism = 1 then s.time.linkDelay.getD port 0 else s.time.pathDelay

/-- Lock is lost (R421, R422). -/
def lockLost (port state : Nat) : Act :=
  seqs [
    .prim (.time fun tm => { tm with inLock := 0, outLock := 0 }),
    put K.PtpState state,
    netEvent 228 port ]

/-- Trims the rate through the servo, within the limit (R421, R422). -/
def slew : Act :=
  drawFree fun v => .read fun s =>
    let n := s.trimLimit
    .prim (.time fun tm => tm.retrim s.now (((v % (2 * n + 1) : Nat) : Int) - (n : Int)))

/-- Judges lock by an offset that did not step the time (R421). -/
def judgeLock (port : Nat) (offset : Int) : Act :=
  .read fun s =>
    let lim := s.reg K.PtpLockThreshold * 65536
    let good := offset.natAbs ≤ lim
    let bad := 4 * lim < offset.natAbs
    let tm := s.time
    let inLock := if good then tm.inLock + 1 else 0
    let outLock := if bad then tm.outLock + 1 else 0
    let count := Act.prim (.time fun x => { x with inLock := inLock, outLock := outLock })
    if s.reg K.PtpState = 2 && 4 ≤ outLock then lockLost port 3
    else if s.reg K.PtpState = 1 && 16 ≤ inLock then
      seqs [count, slew, put K.PtpState 2, netEvent 227 port]
    else .seq count slew

/-- Steers the timekeeper by an offset from the master in 2^-16 ns (R421, R422). -/
def steer (port : Nat) (offset : Int) : Act :=
  .read fun s =>
    let far := s.reg K.PtpStepThreshold * 65536 < offset.natAbs
    if far && s.slewOnly then
      seqs [
        .prim (.time fun tm => { tm with deferred := some (-(offset * 65536)) }),
        lockLost port 1,
        slew ]
    else if far then
      seqs [
        .prim (.time fun tm => { tm.step s.now (-(offset * 65536)) with inLock := 0, outLock := 0, deferred := none }),
        netEvent 229 port ]
    else .seq (.prim (.time fun tm => { tm with deferred := none })) (judgeLock port offset)

/-- A Sync of the master followed (R420, R421), with the master's origin time and the correction of the message
and of its Follow_Up, in 2^-16 ns. -/
def execPtpSync (t port domain src : Nat) (logInt : Int) (origin : Nat) (corr : Int) (s : State) :
    Host.Outcome State Fault Refusal :=
  perform t (.read fun s =>
    let state := s.reg K.PtpState
    if !s.ptpOn port domain || s.time.parent ≠ some src || !(-7 ≤ logInt && logInt ≤ 1)
        || !(1 ≤ state && state ≤ 3) then .skip
    else
      let delta := s.ingressStamp port - (origin : Int) - corr
      let offset := delta - s.asymmetry port - s.pathDelay port
      seqs [
        .prim (.time fun tm => { tm with syncDelta := some delta }),
        put K.PtpOffset (rawOf 8 (ticksPs offset)),
        when (state == 3) (put K.PtpState 1),
        steer port offset ]) s

/-- Lexicographic order of data sets: the first is better. -/
def better : List Nat → List Nat → Bool
  | a :: x, b :: y => a < b || (a == b && better x y)
  | _, _ => false

/-- The clock identity of the controller: its port's MAC address widened (notes/assumptions/31.md). -/
def State.clockIdentity (s : State) (port : Nat) : Nat :=
  s.mac port / 2 ^ 24 * 2 ^ 40 + 0xFFFE * 2 ^ 24 + s.mac port % 2 ^ 24

/-- The controller's own data set (R420): clockClass 248, and the published values of an unknown accuracy and
variance. -/
def State.ownData (s : State) (port : Nat) : List Nat :=
  [s.reg K.PtpPriority1, 248, 0xFE, 0xFFFF, s.reg K.PtpPriority2, s.clockIdentity port, 0]

/-- A foreign master counts once two Announces have come within four intervals. -/
def foreignLive (now : Nat) (f : Nat × List Nat × Nat × Option Nat × Nat) : Bool :=
  now < f.2.2.1 + 3 * f.2.2.2.2 && f.2.2.2.1.any fun p => f.2.2.1 ≤ p + 4 * f.2.2.2.2

/-- The best foreign master, with its data set. -/
def State.bestForeign (s : State) : Option (Nat × List Nat × Nat × Option Nat × Nat) :=
  (s.time.foreign.filter (foreignLive s.now)).foldl
    (fun b f => match b with
      | none => some f
      | some g => if better (f.2.1 ++ [f.1]) (g.2.1 ++ [g.1]) then some f else some g) none

/-- A grandmaster is chosen (R420). -/
def chooseMaster (port gm : Nat) : Act :=
  .read fun s =>
    when (s.reg K.GrandmasterIdentity != gm) (.seq (put K.GrandmasterIdentity gm) (netEvent 230 port))

/-- Decides the clock's state by the best master clock algorithm (R420): never master with PtpSlaveOnly set. -/
def decideMaster (port : Nat) : Act :=
  .read fun s =>
    let state := s.reg K.PtpState
    let toMaster := seqs [
      .prim (.time fun tm => { tm with parent := none, announceAt := none, syncDelta := none, inLock := 0, outLock := 0 }),
      put K.PtpState 4,
      chooseMaster port (s.clockIdentity port) ]
    match s.bestForeign with
    | none => when (!s.flag K.PtpSlaveOnly && (state == 0 || state == 3)) toMaster
    | some f =>
      if !s.flag K.PtpSlaveOnly && better (s.ownData port) f.2.1 then when (state != 4) toMaster
      else
        seqs [
          when (s.time.parent != some f.1)
            (.seq (.prim (.time fun tm => { tm with parent := some f.1, syncDelta := none, inLock := 0, outLock := 0 }))
              (put K.PtpState 1)),
          .prim (.time fun tm => { tm with announceAt := some f.2.2.1, announceEvery := f.2.2.2.2 }),
          chooseMaster port (f.2.1.getD 5 0) ]

/-- An Announce (R420), with its sender and its data set: priority1, class, accuracy, variance, priority2,
grandmaster identity, steps removed. -/
def execPtpAnnounce (t port domain src : Nat) (logInt : Int) (data : List Nat) (s : State) :
    Host.Outcome State Fault Refusal :=
  perform t (.read fun s =>
    if !s.ptpOn port domain || data.length ≠ 7 then .skip
    else
      let before := (s.time.foreign.find? fun f => f.1 == src).map fun f => f.2.2.1
      .seq
        (.prim (.time fun tm => { tm with
          foreign := (src, data, s.now, before, logInterval logInt) :: tm.foreign.filter fun f => f.1 != src }))
        (decideMaster port)) s

/-- Three Announce intervals pass without an Announce (R421): lock is lost and the timekeeper holds its rate. -/
def execAnnounceTimeout (t : Nat) (s : State) : Host.Outcome State Fault Refusal :=
  perform t (.read fun s =>
    let port := s.reg K.PtpPort
    let state := s.reg K.PtpState
    match s.time.announceAt with
    | none => when (s.ptpOn port (s.reg K.PtpDomain) && (state == 0 || state == 3)) (decideMaster port)
    | some a =>
      if !s.ptpOn port (s.reg K.PtpDomain) || !(1 ≤ state && state ≤ 3) || s.now < a + 3 * s.time.announceEvery then .skip
      else
        seqs [
          .prim (.time fun tm => { tm with
            parent := none, announceAt := none, syncDelta := none,
            foreign := tm.foreign.filter (foreignLive s.now) }),
          (if state = 2 then lockLost port 3 else put K.PtpState 3),
          decideMaster port ]) s

/-- A delay message (R420, R423). A reply completes the controller's own exchange: `sent` the instant its request
left, `remote` the master's receipt time (request-response) or the responder's turnaround (peer delay), in
2^-16 ns. A request is answered with its stamp. The asymmetry of the path adds to one half of an exchange and
takes from the other. -/
def execPtpDelayMessage (t port domain : Nat) (request : Bool) (sent remote : Nat) (corr : Int) (s : State) :
    Host.Outcome State Fault Refusal :=
  perform t (.read fun s =>
    let peer := s.reg K.PtpDelayMechanism == 1
    let mine := s.reg K.PtpPort == port
    let there := s.portThere port && domain == s.reg K.PtpDomain && s.islandReady islNET && s.islandReady islTIME
      && (mine || (peer && bit (s.reg K.TransparentPorts) port))
    if !there then .skip
    else if request then
      if peer then send (.ptp port 3 0 (s.ingressStamp port).toNat corr)
      else when (s.reg K.PtpState == 4) (send (.ptp port 9 0 (s.ingressStamp port).toNat corr))
    else if peer then
      let d := roundDiv (s.ingressStamp port - s.egressStamp port sent - (remote : Int) - corr) 2
      .seq (.prim (.time fun tm => { tm with linkDelay := tm.linkDelay.set port d }))
        (when mine (put K.PtpMeanPathDelay (rawOf 8 (ticksPs d))))
    else
      match s.time.syncDelta with
      | none => .skip
      | some delta =>
        let d := roundDiv (delta + (remote : Int) - s.egressStamp port sent - corr) 2
        .seq (.prim (.time fun tm => { tm with pathDelay := d })) (put K.PtpMeanPathDelay (rawOf 8 (ticksPs d)))) s

/-- As master the clock sends one-step Sync, and Announce with every sixteenth (R420). -/
def execPtpMasterSync (t : Nat) (s : State) : Host.Outcome State Fault Refusal :=
  perform t (.read fun s =>
    let port := s.reg K.PtpPort
    let tm := s.time
    if !s.ptpOn port (s.reg K.PtpDomain) || s.reg K.PtpState ≠ 4 then .skip
    else
      seqs [
        send (.ptp port 0 (tm.masterSeq % 65536) (s.egressStamp port s.now).toNat 0),
        when (tm.masterSeq % 16 == 0) (send (.ptp port 11 (tm.announceSeq % 65536) (s.egressStamp port s.now).toNat 0)),
        .prim (.time fun x => { x with
          masterSeq := x.masterSeq + 1
          announceSeq := if x.masterSeq % 16 = 0 then x.announceSeq + 1 else x.announceSeq }) ]) s

/-- The latched nanoseconds and fraction of a reader, if it holds any (R418). -/
def State.timeLatch (s : State) (p : WPath) : Option (List Nat) :=
  (s.time.latches.find? fun x => x.1 == p).map (·.2)

/-- TimeNow entries for a reader (R418): 0x2E40:10 to 12. -/
def State.timeView (s : State) (p : WPath) (sub : Nat) : Nat :=
  if sub = 0x10 then ptpSec s.ptp
  else ((s.timeLatch p).getD [ptpNs s.ptp, ptpFrac s.ptp]).getD (sub - 0x11) 0

/-- A read of TimeNowSeconds latches the other two for its reader (R418). -/
def latchTime (p : WPath) : Act :=
  .read fun s => .prim (.time fun x => { x with
    latches := (p, [ptpNs s.ptp, ptpFrac s.ptp]) :: x.latches.filter fun y => y.1 != p })

/-- Entries of network time whose change acts at once: the master selection starts again where the port, the
domain or PtpSlaveOnly changes (R420; notes/assumptions/33.md). -/
def restartClock : Act :=
  .seq (.prim (.time fun tm => { tm with
      parent := none, announceAt := none, syncDelta := none, foreign := [], inLock := 0, outLock := 0, deferred := none }))
    (.read fun s => put K.PtpState (if 1 ≤ s.reg K.PtpState && s.reg K.PtpState ≤ 3 then 3 else 0))

end Sys2Proof.Machine
end

