-- ==== Sys2Proof/Machine/Tether.lean ====
section
/-! DEFINITION. Sys2Proof/Machine/Tether.lean: Tether sessions and messages (R409–R411, R413, R414) and address
changes (R397). A Request's operations are in Machine/Clients.lean. -/

namespace Sys2Proof.Machine

/-- The versions served (R409). -/
def tetherVersions : List Nat := [0x10, 0x11, 0x20, 0x21]

/-- The highest version within a Hello's range (R409). -/
def tetherAgreed (vmin vmax : Nat) : Option Nat := (tetherVersions.filter fun v => vmin ≤ v && v ≤ vmax).getLast?

/-- Tether is served to a far side: its port is in TetherPorts and has an address, NET and the dictionary are
ready (R91, R92, R409). -/
def State.tetherAt (s : State) (h : Host4) : Bool :=
  s.portThere h.nic && s.islandReady islNET && bit (s.reg K.TetherPorts) h.nic
    && s.reg (K.Ipv4Address + h.nic) != 0 && s.sys.dictReady

/-- A message without Tag (R410): Challenge or Reject. -/
def tetherPlain (version kind id : Nat) (payload : List Nat) : List Nat :=
  leBytes 2 0x5854 ++ [version, kind] ++ leBytes 4 id ++ leBytes 4 0 ++ leBytes 2 payload.length ++ [0, 0] ++ payload

/-- The header of a tagged message of a kind holds (R410). -/
def tetherShape (kind : Nat) (d : List Nat) : Bool :=
  48 ≤ d.length && d.length ≤ 1472 && field d 0 2 == 0x5854 && field d 3 1 == kind
    && field d 12 2 + 48 == d.length && field d 14 2 == 0

/-- The Tag of a message holds under a key (R410). -/
def tagHolds (key d : List Nat) : Bool := d.drop (d.length - 32) == hmac256 key (d.take (d.length - 32))

/-- The payload of a tagged message. -/
def tetherPayload (d : List Nat) : List Nat := (d.drop 16).take (field d 12 2)

/-- A Tag fails (R410): counted, and TetherAuthFailed. -/
def tagFailed (nic : Nat) : Act := .seq (addTo K.AuthFailures 4 1) (netEvent 226 nic)

/-- The slot of the open session a message names. -/
def State.sessionOf (s : State) (d : List Nat) : Option (Nat × Session) :=
  (List.range 8).findSome? fun i => (s.session? i).bind fun x => if x.id = field d 4 4 then some (i, x) else none

/-- A tagged message of a kind: with its Tag it refreshes its session and acts; without, it is discarded
(R410, R414). -/
def withSession (kind : Nat) (h : Host4) (d : List Nat) (f : Nat → Session → Act) : Act :=
  .read fun s =>
    if !s.tetherAt h || !tetherShape kind d then .skip
    else
      match s.sessionOf d with
      | none => .skip
      | some (i, x) =>
        if x.host.nic ≠ h.nic || field d 2 1 ≠ x.version then .skip
        else if !tagHolds x.key d then tagFailed h.nic
        else .seq (setSession i fun y => { y with host := h, lastAt := s.now }) (f i { x with host := h, lastAt := s.now })

/-- Rejects a Hello (R411). -/
def rejectHello (h : Host4) (reason : Nat) : Act := sendUdp h (tetherPlain 0x21 5 0 [reason])

/-- The slots neither open nor challenged. -/
def State.freeSessions (s : State) : List Nat :=
  (List.range 8).filter fun i => (s.session? i).isNone && (s.net.challenges.getD i none).isNone

/-- The session key (R411). -/
def sessionKey (role hostNonce ownNonce : List Nat) (id : Nat) : List Nat :=
  hmac256 role ([0x54, 0x45, 0x54, 0x48, 0x45, 0x52] ++ hostNonce ++ ownNonce ++ leBytes 4 id)

/-- A Hello (R411): a Challenge, or a Reject. SessionId and ControllerNonce are free values
(notes/assumptions/5.md). -/
def execTetherHello (t : Nat) (host : Host4) (vmin vmax keyId : Nat) (nonce : List Nat) (client : Nat) (notify : Bool)
    (s : State) : Host.Outcome State Fault Refusal :=
  perform t (.read fun s =>
    if !s.tetherAt host || nonce.length ≠ 16 then .skip
    else
      match s.freeSessions with
      | [] => rejectHello host 1
      | i :: _ =>
        if !((roleSlot keyId || keyId == 0x21) && s.keyLive keyId) || s.lockedOut pathTether then rejectHello host 2
        else
          match tetherAgreed vmin vmax with
          | none => rejectHello host 3
          | some v =>
            drawFree fun a => drawFree fun b =>
              let id := 1 + a % (2 ^ 32 - 1)
              let own := leBytes 16 b
              let x : Session := { host := host, id := id, keyId := keyId, role := roleOf keyId, version := v,
                                   key := sessionKey (s.keyBytes keyId) nonce own id,
                                   client := if v < 0x20 then 0x0100 else client,
                                   notify := notify && 0x11 ≤ v, lastAt := s.now }
              .seq (.prim (.net fun n => { n with challenges := n.challenges.set i (some x) }))
                (sendUdp host (tetherPlain v 2 id (v :: leBytes 4 id ++ own)))) s

/-- The slot of the Challenge an Open answers. -/
def State.challengeOf (s : State) (d : List Nat) : Option (Nat × Session) :=
  (List.range 8).findSome? fun i => (s.net.challenges.getD i none).bind fun x =>
    if x.id = field d 4 4 then some (i, x) else none

/-- Forgets a Challenge. -/
def forgetChallenge (i : Nat) : Act := .prim (.net fun n => { n with challenges := n.challenges.set i none })

/-- An Open (R411): its Tag opens the session, or the session is forgotten. -/
def execTetherOpen (t : Nat) (host : Host4) (data : List Nat) (s : State) : Host.Outcome State Fault Refusal :=
  perform t (.read fun s =>
    if !s.tetherAt host || !tetherShape 3 data then .skip
    else
      match s.challengeOf data with
      | none => .skip
      | some (i, x) =>
        if x.host.nic ≠ host.nic || x.lastAt + 1000000000 ≤ s.now then .skip
        else if s.lockedOut pathTether then forgetChallenge i
        else if !tagHolds x.key data || field data 8 4 ≠ 0 || field data 2 1 ≠ x.version then
          seqs [forgetChallenge i, tagFailed host.nic, proofFailed pathTether]
        else
          seqs [
            forgetChallenge i,
            .prim (.net fun n => { n with sessions := n.sessions.set i (some { x with host := host, lastAt := s.now }) }),
            .prim (.notifyOn i x.notify),
            .read (fun s => put K.SessionsOpen s.sessionsOpen),
            sendUdp host (tetherMessage x.key x.version 4 x.id 0 []),
            netEvent 224 host.nic ]) s

/-- A Challenge not followed by a valid Open within 1 s is forgotten (R411). -/
def execChallengeTimeout (t : Nat) (s : State) : Host.Outcome State Fault Refusal :=
  perform t (.read fun s =>
    let keep := fun (c : Option Session) => c.filter fun x => s.now < x.lastAt + 1000000000
    .prim (.net fun n => { n with challenges := n.challenges.map keep })) s

/-- A NotifyAck (R413): the records its Sequence covers leave the queue. -/
def execTetherNotifyAck (t : Nat) (host : Host4) (data : List Nat) (s : State) : Host.Outcome State Fault Refusal :=
  perform t (withSession 9 host data fun i x =>
    let upTo := field data 8 4
    let covered := if upTo < x.nextNotify then x.sent.filter fun n => n.1 ≤ upTo else []
    .seq (.prim (.notifyDrop i (covered.map fun n => n.2.1).sum))
      (setSession i fun y => { y with sent := y.sent.drop covered.length })) s

/-- The Notifies of a session not covered within NotifyRetry, sent again from its queue (R413). -/
def retryNotifies (x : Session) (retry now : Nat) : List NotifyRec → List (Nat × Nat × Nat) → List (List Nat)
  | _, [] => []
  | q, (seq, k, at') :: rest =>
    let more := retryNotifies x retry now (q.drop k) rest
    if at' + retry ≤ now then x.notifyMessage seq (q.take k) :: more else more

/-- NotifyRetry passes (R413). -/
def execNotifyRetry (t session : Nat) (s : State) : Host.Outcome State Fault Refusal :=
  perform t (.read fun s =>
    match s.session? session with
    | none => .skip
    | some x =>
      let retry := s.reg K.NotifyRetry
      .seq (each (retryNotifies x retry s.now (s.ev.notify.getD session {}).q x.sent) fun m => sendUdp x.host m)
        (setSession session fun y => { y with
          sent := y.sent.map fun n => if n.2.2 + retry ≤ s.now then (n.1, n.2.1, s.now) else n })) s

/-- A KeepAlive (R414): it refreshes its session's timeout. -/
def execTetherKeepAlive (t : Nat) (host : Host4) (data : List Nat) (s : State) : Host.Outcome State Fault Refusal :=
  perform t (withSession 10 host data fun _ _ => .skip) s

/-- A Close (R414). -/
def execTetherClose (t : Nat) (host : Host4) (data : List Nat) (s : State) : Host.Outcome State Fault Refusal :=
  perform t (withSession 11 host data fun i _ => closeSession i) s

/-- SessionTimeout passes without a valid message (R414). -/
def execSessionTimeout (t session : Nat) (s : State) : Host.Outcome State Fault Refusal :=
  perform t (.read fun s =>
    when ((s.session? session).any fun x => x.lastAt + s.reg K.SessionTimeout * 1000000 ≤ s.now)
      (closeSession session)) s

/-- The address entries (R397): a change takes effect at once and closes the port's sessions and flows. -/
def effAddress (key port : Nat) : Effect := fun s w =>
  accept (.seq (put key w.val) (when (s.reg key != w.val)
    (seqs [
      .prim (.net fun n => { n with challenges := n.challenges.map fun c => c.filter fun x => x.host.nic != port }),
      each ((List.range 8).filter fun i => (s.session? i).any fun x => x.host.nic == port) closeSession,
      when (port < 2) (each ((List.range 64).filter fun f => s.flowState (64 * port + f) != 0) fun f => endFlow (64 * port + f)) ])))

/-- A write of an address entry (R397): 0x2E01 to 0x2E03. -/
def execAddressChange (t idx port : Nat) (w : Wr) (s : State) : Host.Outcome State Fault Refusal :=
  perform t (when (0x2E01 ≤ idx && idx ≤ 0x2E03 && port < 3)
    (writeBy idx (port + 1) (effAddress (idx * 256 + port + 1) port) w)) s

end Sys2Proof.Machine
end

