-- ==== Sys2Proof/Machine/Resets.lean ====
section
/-! DEFINITION. Sys2Proof/Machine/Resets.lean: what each kind of reset does (R87, R88, R93–R97, R492, R493). -/

namespace Sys2Proof.Machine

/-- The island of a function of R53. The colour loop runs on the real-time cores of CTL. -/
def functionIsland (f : Nat) : Nat :=
  [islCODEC, islCODEC, islNET, islCOMP, islTONE, islFIRE, islLINK, islCAM, islTIME, islCTL, islTIME].getD (f - 1) islCTL

/-- The functions, 1 to 11 (R53). -/
def functions : List Nat := (List.range 11).map (· + 1)

/-- FunctionStatus takes a value; FunctionStateChanged where it changes. -/
def setStatus (f v : Nat) : Act :=
  .read fun s =>
    when (s.reg (K.FunctionStatus + (f - 1)) != v) (.seq (put (K.FunctionStatus + (f - 1)) v) (raise 11))

/-- FunctionStatus of an island's functions follows the island's flag (R87): Starting until it is ready, then
FunctionEnable. -/
def syncFunctions (i : Nat) : Act :=
  .read fun s =>
    each (functions.filter fun f => functionIsland f == i) fun f =>
      setStatus f (if !s.islandReady i then 3 else if s.flag (K.FunctionEnable + (f - 1)) then 1 else 0)

/-- An island's flag takes a value: IslandReadyChanged once the dictionary is ready (R88). -/
def setReady (i : Nat) (on : Bool) : Act :=
  .read fun s =>
    if s.islandReady i == on then .skip
    else seqs [
      put (K.IslandReady + (i - 1)) (if on then 1 else 0),
      when s.sys.dictReady (raise 8),
      syncFunctions i ]

/-- Registers that fuses or the boot flash hold, and the versions of objects: no reset but power-on changes the
latter (R70, R96, R463). -/
def fuseKey (k : Nat) : Bool :=
  k == K.LifecycleState || k == K.SecurityVersionFloor || k == K.BootSlotPreferred || k / 256 == 0x3131

/-- An object's StoreVersion, and the missing set's count, which lies with the set in DRAM. -/
def objectKey (k : Nat) : Bool := (0x5000 ≤ k / 256 && k / 256 < 0x6000) || k == K.MissingCount

/-- The registers of an island that a reset of it sets anew. -/
def resetKey (i k : Nat) : Bool := ownerIsland (k / 256) == i && !fuseKey k && !objectKey k

/-- An island's entries return to their saved values, or to their defaults (R96). -/
def resetEntries (i : Nat) : Act :=
  .read fun s =>
    .seq (.prim (.unset fun k => !resetKey i k)) (.prim (.load (s.savedOf (resetKey i))))

/-- Sources of a class leave retirement and their windows are emptied (R436, R492). -/
def clearClass (c : Nat) : Act :=
  .read fun s =>
    .seq
      (.prim (.health fun h => { h with
        windows := h.windows.filter fun p => p.1 / 32 != c
        retired := h.retired.filter fun r => r / 32 != c }))
      (each (s.health.retired.filter fun r => r / 32 == c) fun r => faultTable r 0 0)

/-- MEM is reset (R95, R375): DRAM goes into self-refresh first, and every point is to be trained again. The
subchannels retired stay retired. -/
def resetMem : Act :=
  .read fun s =>
    let gone := (List.range 4).filter fun sc => s.isRetired (faultSource 0 sc)
    seqs [
      enterSelfRefresh,
      .prim (.dram fun d => { ({} : Dram) with
        retention := d.retention, poison := d.poison, kept := d.kept || s.flag K.DramTrained }),
      put K.DramTrained 0,
      resetEntries islMEM,
      each gone fun sc => put (K.SubchannelState + sc) 5 ]

/-- TONE is reset: banks, arrays and a copy under way are lost (R86, R96, R97). -/
def resetTone : Act :=
  seqs [
    .prim (.erase 0x05000000 0x1800000), .prim (.erase 0x07000000 0xA00000),
    .prim (.tone fun _ => {}),
    resetEntries islTONE ]

/-- COMP is reset: descriptors and the P package are lost (R96). -/
def resetComp : Act :=
  seqs [ .prim (.erase 0x02000000 0x2800000), .prim (.comp fun _ => {}), resetEntries islCOMP ]

/-- CODEC is reset: strips cut short are neither passed nor failed, encoding stops (R97, R166). -/
def resetCodec : Act :=
  seqs [
    .prim (.codec fun c => { c with
      lanes := c.lanes.map fun l => { l.abandon with retired := false }
      encs := List.replicate 4 {} }),
    clearClass 5,
    resetEntries islCODEC,
    each (List.range 32) syncLane ]

/-- FIRE is reset: the rows stop, the versions are cleared to be adopted anew (R250), rings and pushes end. -/
def resetFire : Act :=
  seqs [
    .prim (.fire fun f => { ({} : Fire) with copies := f.copies.map fun c => { c with done := true } }),
    resetEntries islFIRE ]

/-- LINK is reset: every link forgets its partner (R95, R492). -/
def resetLink : Act :=
  seqs [ .prim (.erase 0x0B000000 0x400000), clearClass 1, .prim (.link fun _ => {}), resetEntries islLINK ]

/-- CAM is reset: the ports are unconfigured (R92, R492). -/
def resetCam : Act :=
  seqs [
    .prim (.erase 0x08000000 0x1800000), clearClass 2, .prim (.cam fun _ => {}), resetEntries islCAM, syncLoop ]

/-- NET is reset: sessions close and flows end (R95, R414). -/
def resetNet : Act :=
  .read fun s =>
    seqs [
      closeSessions,
      each ((List.range 128).filter fun f => s.flowState f != 0) endFlow,
      resetEntries islNET,
      .prim (.net fun n => { n with flows := List.replicate 128 {}, refetches := [] }) ]

/-- TIME is reset: every channel restarts from 0, references unfound, SpeedValid clear; the timekeeper reacquires
lock; the illumination driver is off (R95, R492). -/
def resetTime : Act :=
  seqs [
    clearClass 3, clearClass 4,
    darken,
    .prim (.ill fun _ => {}),
    .prim (.pos fun _ => {}),
    .prim (.time fun _ => {}),
    resetEntries islTIME,
    syncLoop ]

/-- FAB is reset: every channel is disabled first, then Stopped at its start (R97, R393). -/
def resetFab : Act := seqs [ dmaDisableAll, .prim (.dma fun _ => {}), resetEntries islFAB ]

/-- The reset of an island other than AON and CTL (R95). -/
def resetIsland (i : Nat) : Act :=
  .seq (setReady i false)
    (match i with
      | 3 => resetFab
      | 4 => resetMem
      | 5 => resetCodec
      | 6 => resetComp
      | 7 => resetTone
      | 8 => resetFire
      | 9 => resetLink
      | 10 => resetCam
      | 11 => resetNet
      | 12 => resetTime
      | _ => .skip)

/-- The entries of TONE that a warm reset keeps with the banks and the arrays they describe (R96). -/
def toneKept (k : Nat) : Bool :=
  [0x2600, 0x2602, 0x2603, 0x2604, 0x2605, 0x2611].contains (k / 256) || k == K.ScreenUnitsFree || k == K.UncoveredGaps
    || k == K.MissingCount

/-- A warm reset of TONE: committed and staged banks and the arrays stay, what was under way ends (R96, R97). -/
def warmTone : Act :=
  .read fun s =>
    seqs [
      setReady islTONE false,
      .prim (.tone fun _ => {}),
      .prim (.unset fun k => !(resetKey islTONE k && !toneKept k)),
      .prim (.load (s.savedOf fun k => resetKey islTONE k && !toneKept k)) ]

/-- A warm reset of COMP: descriptors and the P package stay, commits pending are dropped (R96, R97). -/
def warmComp : Act :=
  .read fun s =>
    let mine := fun k => resetKey islCOMP k && k / 65536 != 0x43
    seqs [
      setReady islCOMP false,
      .prim (.erase 0x02000000 0x2800000),
      .prim (.comp fun c => { c with
        layers := c.layers.map fun l => { l with pending := none }
        contents := [], binds := [], checking := false }),
      each (List.range 8) (fun l =>
        .seq (put (K.PendingCopy + l * 0x1000) 0xFFFFFFFFFFFFFFFF)
          (when (s.reg (K.LayerState + l * 0x1000) == 2) (put (K.LayerState + l * 0x1000) 1))),
      .prim (.unset fun k => !mine k),
      .prim (.load (s.savedOf mine)) ]

/-- The illumination at a warm reset: pulses end and the matrix is dark; retired stages are cleared; it starts
again once the dictionary is ready (R329, R492). -/
def warmIllumination : Act :=
  seqs [
    darken, clearClass 3,
    .prim (.ill fun x => { x with
      queue := [], confirm := [], flashRow := 0, flashGot := [], flashPrior := none }),
    put K.IlluminationState 0, put K.OffCause 0 ]

/-- The calibration counts and times that the boot flash holds (R349, R438). -/
def countKey (k : Nat) : Bool :=
  [K.CalibrationCount, K.CalibrationDiscarded, K.CalibrationTime].any (fun b => b ≤ k && k < b + 8)
    || k == K.CalibrationRecordSequence || k == K.CalibrationRecordsValid

/-- They are loaded. -/
def loadCounts : Act := .read fun s => .prim (.load (SMap.keep s.health.savedCounts countKey))

/-- AON's entries that a warm reset returns to their defaults: NmtNodeResetMode, the thermal limits and the highest
temperature since reset (R96). -/
def aonConfig (k : Nat) : Bool := k / 256 == 0x2203 || k / 256 == 0x2F01 || k == K.DieTemperatureMax

/-- CTL is reset: dictionary, events, sessions, latches, roles, grants and what runs on its cores (R83, R96, R131,
R414, R436, R460, R470). Its entries take defaults; saved values are loaded at firmware verification. -/
def resetCtl : Act :=
  .read fun s =>
    seqs [
      closeSessions,
      .prim (.erase 0x01000000 0xC00000),
      .prim .evReset,
      .prim (.sys fun x => { ({} : Sys) with
        releaseAt := s.now, saved := x.saved, savedRoutes := x.savedRoutes, savedMask := x.savedMask, deep := x.deep,
        hold := x.hold, preReadyRaised := x.preReadyRaised }),
      .prim (.can fun _ => {}),
      .prim (.pos fun x => { x with latches := [] }),
      .prim (.time fun x => { x with latches := [] }),
      .prim (.loop fun x => { ({} : Loop) with
        held := x.held, captureFrom := x.captureFrom, captured := x.captured, missing := x.missing }),
      .prim (.health fun h => { h with
        windows := [], writing := [], countsChanged := false, countsSavedAt := none, trimFirst := none }),
      .prim (.bridle fun _ => {}),
      .prim (.sec fun x => { ({} : Sec) with keys := x.keys, vendorFloor := x.vendorFloor }),
      setReady islCTL false,
      .prim (.unset fun k => !(resetKey islCTL k || aonConfig k)),
      loadCounts,
      each s.health.retired fun r => faultTable r 1 0 ]

/-- Every island but AON and TIME is reset with CTL, as a warm reset does, before any island is ready again. -/
def resetWarmIslands : Act :=
  .read fun s =>
    seqs [
      .prim (.sys fun x => { x with dictReady := false }),
      put K.ClaimActual 0, send (.ball .claimOut 0),
      resetIsland islFAB, resetIsland islMEM,
      dropDecoding (fun _ => true),
      resetIsland islCODEC,
      .prim (.erase 0x0A000000 0xE00000),
      .prim (.codec fun c => { c with corners := [] }),
      warmComp, warmTone,
      resetIsland islFIRE,
      .prim (.fire fun _ => {}),
      resetIsland islLINK, resetIsland islCAM, resetIsland islNET,
      warmIllumination,
      when (s.flag K.DramTrained) (put K.DramRetained 1),
      resetCtl,
      syncFunctions islTIME ]

/-- A warm reset is counted and its islands leave reset `delay` ns from now (R93, R94). -/
def warmRelease (cause delay : Nat) : Act :=
  .read fun s =>
    seqs [
      .prim (.sys fun x => { x with warming := true, releaseAt := s.now + delay }),
      put K.ResetCause cause,
      addTo K.WarmResetCount 4 1,
      raise 1 ]

/-- A warm reset (R93, R94): the islands are reset, and leave reset, 40 µs after the trigger. -/
def warmReset (cause : Nat) : Act := .seq resetWarmIslands (warmRelease cause 40000)

/-- What Deep leaves unpowered is lost: the stores and TIME (R37, R38, R96); the controller arrives in Standby. -/
def loseUnpowered : Act :=
  seqs [
    .prim (.erase 0 dramStart),
    resetIsland islTONE, resetIsland islCOMP, resetIsland islTIME,
    put K.ModeActual mStandby ]

/-- The saved values of the islands other than AON and CTL are taken at once; those two take theirs at firmware
verification (R76, R130, R356). -/
def savedElsewhere (k : Nat) : Bool := ownerIsland (k / 256) != islAON && ownerIsland (k / 256) != islCTL

/-- A power-on reset (R91, R93, R96): everything but fuses, the boot flash and, while AON's supply stays, the
shutdown record and the H part's latch (R430, R433) is lost. `cold` says that AON's supply was removed. -/
def powerOnReset (cause : Nat) (cold : Bool) : Act :=
  .read fun s =>
    seqs [
      .prim (.unset fun k => fuseKey k || (!cold && k / 256 == 0x2F02)),
      .prim (.erase 0 (2 ^ 40)),
      .prim .release, .prim .evReset,
      .prim (.sys fun x => { ({} : Sys) with
        releaseAt := s.now, saved := x.saved, savedRoutes := x.savedRoutes, savedMask := x.savedMask }),
      .prim (.can fun _ => {}), .prim (.pos fun _ => {}), .prim (.codec fun _ => {}), .prim (.comp fun _ => {}),
      .prim (.tone fun _ => {}), .prim (.fire fun _ => {}), .prim (.link fun _ => {}), .prim (.cam fun _ => {}),
      .prim (.ill fun _ => {}), .prim (.loop fun _ => {}), .prim (.dram fun _ => {}), .prim (.dma fun _ => {}),
      .prim (.net fun _ => {}), .prim (.time fun _ => {}), .prim (.bridle fun _ => {}),
      .prim (.sec fun x => { ({} : Sec) with keys := x.keys, vendorFloor := x.vendorFloor }),
      .prim (.health fun h => { ({} : Health) with
        savedLog := h.savedLog, records := h.records, savedCounts := h.savedCounts, latchH := h.latchH && !cold }),
      loadCounts,
      .prim (.load (s.savedOf savedElsewhere)),
      send (.ball .claimOut 0),
      put K.ResetCause cause,
      .prim (.held 0) ]

end Sys2Proof.Machine
end

