-- ==== Sys2Proof/Machine/Functions.lean ====
section
/-! DEFINITION. Sys2Proof/Machine/Functions.lean: disabling and enabling functions (R52, R53), the ink assignment
(R55), and background clients (R30–R35, R429). -/

namespace Sys2Proof.Machine

/-- A function is on the print path (R53): ingest only when a job streams to the decoders. -/
def State.onPrintPath (s : State) (f : Nat) : Bool :=
  f == 1 || (4 ≤ f && f ≤ 9)
    || (f == 3 && s.codec.decs.any fun d => (s.stream? d.id).any (·.streamed))

/-- A refused function request (R51). -/
def functionRefused (f code : Nat) : Verdict := ⟨abMode, put (K.FunctionRefusalCode + (f - 1)) code⟩

/-- A function begins from empty queues (R52): the driver diagnoses its strings anew (R326), the colour loop
captures anew (R332, R340). -/
def startEffects (f : Nat) : Act :=
  .read fun s =>
    if f = fnIllum then
      when s.ill.conf.isSome (seqs [
        each ((List.range 128).filter fun n => (s.illConf.str n).enable) undiagnose,
        put K.IlluminationState 1, settleRunning ])
    else if f = fnLoop then
      seqs [
        startCapture (s.master.copies + 1),
        setLoop (fun x => { x with zones := [], sets := [] }),
        syncLoop ]
    else if f = fnInspect then syncLoop
    else .skip

/-- A function has stopped: what was queued for it is gone (R52). -/
def stopEffects (f : Nat) : Act :=
  .read fun s =>
    if f = fnDecode then .prim (.codec fun c => { c with lines := [] })
    else if f = fnEncode then
      .seq (.prim (.codec fun c => { c with encs := List.replicate 4 {} }))
        (each (List.range 4) fun n => put (K.EncodeStatus + n) 0)
    else if f = fnIngest then each s.openFlows failFlow
    else if f = fnIllum then seqs [darken, put K.IlluminationState 0, syncLoop]
    else if f = fnInspect || f = fnLoop then syncLoop
    else .skip

/-- FunctionEnable (R52, R53). -/
def effFunction (f : Nat) : Effect := fun s w =>
  let st := s.reg (K.FunctionStatus + (f - 1))
  let taken := .seq (put (K.FunctionEnable + (f - 1)) w.val) (put (K.FunctionRefusalCode + (f - 1)) 0)
  if w.val = 0 then
    if isPrint s.mode && s.onPrintPath f then functionRefused f 15
    else accept (.seq taken (when (st == 1) (setStatus f 2)))
  else accept (.seq taken (when (st == 0) (.seq (setStatus f 1) (startEffects f))))

/-- The present role or lifecycle state may not make a request (R51, code 2): the gate's refusal. -/
def State.gateRefuses (s : State) (idx sub : Nat) (w : Wr) : Bool := checkWrite s idx sub w == abGate

/-- What a refusal by the write gate also records for a request with refusal codes of its own (R51, R64). -/
def gateNote (idx sub : Nat) (w : Wr) : Act :=
  .read fun s =>
    if !s.gateRefuses idx sub w then .skip
    else if idx = 0x2010 ∧ sub = 1 then .seq (put K.ModeRefusalCode 2) (raise 5)
    else if idx = 0x2020 then put (K.FunctionRefusalCode + (sub - 1)) 2
    else .skip

/-- A write of 0 to FunctionEnable. -/
def execFunctionDisable (t f : Nat) (w : Wr) (s : State) : Host.Outcome State Fault Refusal :=
  perform t (.seq (gateNote 0x2020 f w) (writeBy 0x2020 f (effFunction f) { w with val := 0 })) s

/-- A write of 1 to FunctionEnable. -/
def execFunctionEnable (t f : Nat) (w : Wr) (s : State) : Host.Outcome State Fault Refusal :=
  perform t (.seq (gateNote 0x2020 f w) (writeBy 0x2020 f (effFunction f) { w with val := 1 })) s

/-- The atomic unit in progress is complete: `queued` units are discarded, and the function reads Stopped, or
Enabled where it has been enabled again meanwhile (R52). -/
def execFunctionDrainComplete (t f queued : Nat) (s : State) : Host.Outcome State Fault Refusal :=
  perform t (.read fun s =>
    if !functions.contains f || s.reg (K.FunctionStatus + (f - 1)) != 2 then .skip
    else
      seqs [
        addTo (K.DiscardedUnits + (f - 1)) 4 queued,
        setStatus f 0, stopEffects f,
        when (s.flag (K.FunctionEnable + (f - 1))) (.seq (setStatus f 1) (startEffects f)) ]) s

/-- LinkInk (R55, R219): in Ready only; a commit checking or pending is cancelled. -/
def effLinkInk (l : Nat) : Effect := fun s w =>
  let st := s.reg K.BankCommitState
  if s.mode != mReady then refuse abMode
  else accept (.seq (put (K.LinkInk + l) w.val)
    (when (st == 1 || st == 2) (seqs [
      put K.BankCommitState 0, put K.BankCommitCopy 0xFFFFFFFFFFFFFFFF,
      .prim (.tone fun x => { x with builder := false, loopUpdate := false }) ])))

/-- A write of LinkInk. -/
def execLinkInkWrite (t l : Nat) (w : Wr) (s : State) : Host.Outcome State Fault Refusal :=
  perform t (writeBy 0x2030 (l + 1) (effLinkInk l) w) s

/-- InkLinkMask (R55). -/
def State.inkLinkMask (s : State) (ink : Nat) : Nat := ((s.inkLinks ink).map fun l => 2 ^ l).sum

/-- The clients that an owner's slack serves (R33, R35): 0 memory, 1 head links, 2 inspection, 3 illumination,
4 DMA. -/
def slackClients (owner : Nat) : List Nat :=
  if owner = 0 then [1, 5, 6, 7] else if owner = 1 then [2] else if owner = 2 then [4] else if owner = 3 then [3]
  else if owner = 4 then [8] else []

/-- The owner of a client's slack. -/
def slackOwner (c : Nat) : Nat := if c = 2 then 1 else if c = 3 then 3 else if c = 4 then 2 else if c = 8 then 4 else 0

/-- A client's slot length in force. -/
def State.slotLen (s : State) (c : Nat) : Nat :=
  (SMap.find s.sys.slackLen c).getD (defaultOf s.part (K.SlackSlotLength + (c - 1)))

/-- A client is held by a pause of throttling (R429). -/
def State.paused (s : State) (c : Nat) : Bool := decide (s.now < s.sys.pauseUntil.getD (c - 1) 0)

/-- A client takes a slot: its missed periods and backlog are cleared, and throttling makes it pause after (R33,
R429). -/
def takeSlot (c len : Nat) : Act :=
  .read fun s =>
    seqs [
      put (K.SlackMissedPeriods + (c - 1)) 0, put (K.SlackBacklog + (c - 1)) 0,
      .prim (.sys fun x => { x with
        slackHad := x.slackHad.set (c - 1) true
        slackForced := x.slackForced.set (c - 1) false
        slackRound := c
        gapFor := if c = 4 then some 4 else x.gapFor
        pauseUntil := if s.health.throttle
          then x.pauseUntil.set (c - 1) (s.now + len + len * s.reg K.ThrottleFactor) else x.pauseUntil }),
      when (c == 8) (.prim (.dma fun d => { d with slotUntil := s.now + len })) ]

/-- The client that a slot goes to: the longest missed first, then in turn (R33). -/
def State.slackNextClient (s : State) (l : List Nat) : Option Nat :=
  let missed := fun (c : Nat) => s.reg (K.SlackMissedPeriods + (c - 1))
  let most := (l.map missed).foldl max 0
  if most = 0 then
    match l.filter fun c => s.sys.slackRound < c with
    | c :: _ => some c
    | [] => l.head?
  else l.find? fun c => missed c == most

/-- An owner declares slack of `len` ns (R31–R33): one client that is not paused takes it. Recalibration takes
only slack in Ready or at a copy boundary (R32). -/
def execSlackSlotGrant (t owner len : Nat) (boundary : Bool) (s : State) : Host.Outcome State Fault Refusal :=
  perform t (.read fun s =>
    let l := (slackClients owner).filter fun c =>
      !s.paused c && (c != 2 || s.mode == mReady || boundary)
    match s.slackNextClient l with
    | some c => takeSlot c len
    | none => .skip) s

/-- A forced slot (R34), once no pause holds the client. -/
def forcedSlot (c : Nat) : Act :=
  .read fun s =>
    if s.paused c then .prim (.sys fun x => { x with slackForced := x.slackForced.set (c - 1) true })
    else takeSlot c (s.slotLen c)

/-- A client's period ends (R33–R35, R429): a period without a slot is missed unless a pause held the client; at
the third BackgroundStarved is raised, and outside the print modes a slot is forced. The next period takes the
registers' length and period. -/
def execSlackPeriodEnd (t c : Nat) (s : State) : Host.Outcome State Fault Refusal :=
  perform t (.read fun s =>
    if c < 1 || 8 < c then .skip
    else
      let had := s.sys.slackHad.getD (c - 1) false
      let missed := s.reg (K.SlackMissedPeriods + (c - 1)) + 1
      seqs [
        when (!had && !s.paused c) (seqs [
          put (K.SlackMissedPeriods + (c - 1)) (missed % 2 ^ 32),
          when (missed == 3) (raise 10),
          when (3 ≤ missed)
            (if isPrint s.mode then put (K.SlackBacklog + (c - 1)) (missed % 2 ^ 32) else forcedSlot c) ]),
        .prim (.sys fun x => { x with
          slackHad := x.slackHad.set (c - 1) false
          slackLen := SMap.put x.slackLen c (s.reg (K.SlackSlotLength + (c - 1)))
          slackPeriod := SMap.put x.slackPeriod c (s.reg (K.SlackPeriod + (c - 1)))
          slackNext := x.slackNext.set (c - 1) (s.now + s.reg (K.SlackPeriod + (c - 1))) }) ]) s

/-- A throttled client's pause has ended (R429): a forced slot it was owed is taken. -/
def execThrottlePauseEnd (t c : Nat) (s : State) : Host.Outcome State Fault Refusal :=
  perform t (.read fun s =>
    if c < 1 || 8 < c || s.paused c then .skip
    else
      .seq (.prim (.sys fun x => { x with pauseUntil := x.pauseUntil.set (c - 1) 0 }))
        (when (s.sys.slackForced.getD (c - 1) false && !isPrint s.mode) (takeSlot c (s.slotLen c)))) s

end Sys2Proof.Machine
end

