-- ==== Sys2Proof/Machine/Modes.lean ====
section
/-! DEFINITION. Sys2Proof/Machine/Modes.lean: mode requests, their admission, boundaries and the watch on the web's
speed (R36, R38–R51, R90, R371). -/

namespace Sys2Proof.Machine

/-- The mode that a request is judged against (R47): the target of a locked request, else the present mode. -/
def State.requestMode (s : State) : Nat :=
  if s.reg K.ModePending != 0xFF && s.sys.locked then s.reg K.ModePending else s.mode

/-- The transitions of R40. -/
def transitionAllowed (m n : Nat) : Bool :=
  (m == mStandby && n == mReady) || (m == mReady && (n == mStandby || n == mService || isPrint n))
    || (m == mService && n == mReady) || (isPrint m && (n == mReady || (isPrint n && n != m)))

/-- A transition waits for a copy boundary (R40). -/
def atBoundary (m n : Nat) : Bool := isPrint m || isPrint n

/-- WebSpeedActual lies over `pct` per cent of a maximum in m/min. -/
def overSpeed (v : Int) (limit pct : Nat) : Bool := decide (((limit * 1000000 * pct : Nat) : Int) < v * 6000)

/-- Compressed ingest of the streamed streams of a mode, at its maximum speed (R39): within 24 GB/s, or 12 GB/s
on the H part. A stream that declares no ratio counts 1:1 (R141). -/
def State.ingestFits (s : State) (mode : Nat) : Bool :=
  let load := (s.plannedDescs.flatMap fun p => (s.descStreams p.1 p.2).flatten).map fun x =>
    if x.streamed then x.width * x.bits * x.resY * 32 * 65536 / (if x.ratio = 0 then 256 else x.ratio) else 0
  load.sum * maxSpeed mode * 1000000000 ≤ (if s.isH then 12 else 24) * 1000000000 * 25400000 * 60 * 65536

/-- DRAM traffic of a mode in units of 10 MB/s (R28; notes/assumptions/35.md): the job store's read unless every
decoded stream is streamed, the next job's write, ring writes and reads, and the reserve; the H part's is half but
for the reserve (R29). -/
def State.dramTraffic (s : State) (mode : Nat) : Nat :=
  let job := if mode = mDepth then 446 else 744
  let ring := if mode = mDepth then 1858 else 1548
  let streams := s.plannedDescs.flatMap fun p => (s.descStreams p.1 p.2).flatten
  let read := if !streams.isEmpty && streams.all (·.streamed) then 0 else job
  (read + job + 2 * ring) / (if s.isH then 2 else 1) + 400

/-- The threshold array of an ink for a mode is loaded in the matching format (R211). -/
def State.screenFits (s : State) (mode ink : Nat) : Bool :=
  let wide := codeBits mode == 4
  let slot := s.reg ((if wide then K.ScreenSelect16State else K.ScreenSelect4State) + ink)
  let st := s.reg (K.ScreenSlotState + slot)
  bit st 31 && bit st 8 == wide

/-- A print-path function of a mode is not Enabled (R53, R87). -/
def State.functionOff (s : State) : Bool :=
  let streams := s.plannedDescs.flatMap fun p => (s.descStreams p.1 p.2).flatten
  [1, 4, 5, 6, 7, 8, 9].any (fun f => !s.fnOn f) || (streams.any (·.streamed) && !s.fnOn fnIngest)

/-- The first failing check of a print mode (R42, R51, R90, R182, R371), 0 for none. -/
def State.printRefusal (s : State) (mode : Nat) : Nat :=
  let plan := s.plannedDescs
  let load := (plan.map fun p => s.layerLoad p.1 p.2).sum
  let count := (plan.map fun p => s.layerCount p.1 p.2).sum
  let links := (List.range s.linkCount).filter fun l => s.linkInk l != 0xFF
  if plan.any fun p => !s.stepsFit p.1 mode p.2 || !s.gridFits p.1 mode p.2 || !s.sourcesFit p.1 mode p.2 then 4
  else if !decodedFits mode load || 192 < count || !s.ingestFits mode then 5
  else if s.flag K.DramTrained && s.reg K.DramBandwidth * 7 < s.dramTraffic mode * 100 then 6
  else if !s.flag K.DramTrained || !s.pointTrained (s.reg K.PrintOperatingPoint) || !s.spansFit mode
      || (s.placeRings mode).isNone then 7
  else if links.any (fun l => !s.linkUp l) || s.slots.any (fun p => !s.slotPresent p.1 p.2) then 8
  else if s.slots.any fun p =>
      let f := s.factsOf (s.headType p.1 p.2)
      !(if codeBits mode = 4 then f.sixteen else f.four) then 9
  else if s.inks.any fun k => !s.screenFits mode k then 10
  else if s.regI K.ShutdownThreshold 2 ≤ s.regI K.DieTemperature 2 then 11
  else if s.functionOff then 13
  else if (List.range 16).any fun l =>
      s.linkCount ≤ l && (SMap.find s.dict (K.LinkInk + l)).any (· != 0xFF) then 14
  else 0

/-- The refusal code of a mode request (R40, R42, R51), 0 for none. A controller that is not the holder of its
pair refuses with 1, and so does one for a copy from which a returning peer claims (R448, R454). -/
def State.modeRefusal (s : State) (n : Nat) : Nat :=
  if !s.takesFor s.eligibleCopy.toNat || !transitionAllowed s.requestMode n then 1
  else if n = mService then
    if overSpeed s.webSpeed 30 100 then 3 else if !s.flag K.DramTrained then 13 else 0
  else if isPrint n then s.printRefusal n
  else 0

/-- A refused mode request (R51). -/
def modeRefused (code : Nat) : Act := .seq (put K.ModeRefusalCode code) (raise 5)

/-- Entering Standby, Ready or Service at once (R36, R40, R373, R422). -/
def modeAtOnce (n : Nat) : Act :=
  .read fun s =>
    seqs [
      when (s.mode == mService) (endService 1),
      setMode n,
      when (n == mStandby) (.prim (.dram fun d => { d with freqNext := some 0 })),
      when (s.mode == mStandby) (.prim (.dram fun d => { d with freqNext := some 3200 })),
      when (n == mReady) deferredStep,
      holdTrim, syncLoop ]

/-- A request becomes pending (R42): the boundary is chosen, rings are taken, and DRAM goes to the print point
when leaving Ready. -/
def pendMode (n : Nat) : Act :=
  .read fun s =>
    seqs [
      put K.ModePending n, put K.ModeChangeCopy (rawOf 8 s.eligibleCopy),
      .prim (.sys fun x => { x with locked := false }),
      (match (if isPrint n then s.placeRings n else none) with
        | some rs => takeRings rs
        | none => .skip),
      when (s.mode == mReady) (.prim (.dram fun d => { d with freqNext := some (s.reg K.PrintOperatingPoint) })) ]

/-- A request takes effect at once or becomes pending. -/
def takeMode (n : Nat) : Act := .read fun s => if atBoundary s.mode n then pendMode n else modeAtOnce n

/-- A pending request that is not locked is replaced (R47): code 12 is reported, its rings are released, and DRAM
returns to Ready's point where it had left it. -/
def dropPending : Act :=
  .read fun s =>
    when (s.reg K.ModePending != 0xFF) (seqs [
      modeRefused 12,
      releaseRings s.mode,
      put K.ModePending 0xFF,
      when (s.mode == mReady) (.prim (.dram fun d => { d with freqNext := some 3200 })) ])

/-- The pending request locks once the lead of R41 before its boundary has been crossed (R47). -/
def lockCheck : Act :=
  .read fun s =>
    let m : Int := signedOf 8 (s.reg K.ModeChangeCopy)
    when (s.reg K.ModePending != 0xFF && !s.sys.locked && !s.aheadBy m s.mode 192)
      (.prim (.sys fun x => { x with locked := true }))

/-- ModeRequest (R40–R42, R47, R51). -/
def effModeRequest : Effect := fun s w =>
  let n := w.val
  let code := s.modeRefusal n
  if code != 0 then ⟨abMode, modeRefused code⟩
  else if s.reg K.ModePending != 0xFF && s.sys.locked then
    accept (seqs [
      when (s.reg K.ModeQueued != 0xFF) (modeRefused 12),
      put K.ModeRequest n, put K.ModeQueued n, put K.ModeRefusalCode 0 ])
  else accept (seqs [dropPending, put K.ModeRequest n, takeMode n, put K.ModeRefusalCode 0])

/-- A write of ModeRequest. -/
def execModeRequest (t : Nat) (w : Wr) (s : State) : Host.Outcome State Fault Refusal :=
  perform t (seqs [lockCheck, gateNote 0x2010 1 w, writeBy 0x2010 1 effModeRequest w]) s

/-- The most upstream row fires the first line of the new copy (R43). -/
def execModeChangeAtBoundary (t : Nat) (s : State) : Host.Outcome State Fault Refusal :=
  perform t (.seq lockCheck (.read fun s =>
    if s.reg K.ModePending = 0xFF || !s.sys.locked || s.inTransition then .skip
    else
      seqs [
        .prim (.sys fun x => { x with transFrom := some s.mode }),
        setMode (s.reg K.ModePending),
        put K.ModeTransitionActive 1,
        holdTrim, syncLoop ])) s

/-- The queued request becomes the pending one (R47); one whose rings cannot be had is refused with code 7. -/
def promoteQueued : Act :=
  .read fun s =>
    let n := s.reg K.ModeQueued
    when (n != 0xFF)
      (.seq (put K.ModeQueued 0xFF)
        (if isPrint n && (s.placeRings n).isNone then modeRefused 7 else takeMode n))

/-- The most downstream row of every ink has fired the first line of the new copy (R43, R45, R47). -/
def execModeTransitionEnd (t : Nat) (s : State) : Host.Outcome State Fault Refusal :=
  perform t (.read fun s =>
    if !s.inTransition then .skip
    else
      seqs [
        put K.ModeTransitionActive 0, put K.ModePending 0xFF,
        .prim (.sys fun x => { x with transFrom := none, locked := false }),
        releaseRings s.mode,
        when (s.mode == mReady) (.seq (.prim (.dram fun d => { d with freqNext := some 3200 })) deferredStep),
        syncLoop,
        promoteQueued ]) s

/-- OrderlyStopRequest (R50): in Standby there is nothing to stop (notes/assumptions/21.md). -/
def effOrderlyStop : Effect := fun _ w => accept (when (w.val == 1) (seqs [orderlyStop 1, syncLoop]))

/-- A write of OrderlyStopRequest. -/
def execOrderlyStopRequest (t : Nat) (w : Wr) (s : State) : Host.Outcome State Fault Refusal :=
  perform t (writeBy 0x2010 7 effOrderlyStop w) s

/-- The maximum speed that applies, in m/min (R44, R48): the lower of the two modes' in a transition, the print
mode's when leaving for Ready. -/
def State.speedLimit (s : State) : Option Nat :=
  if s.inTransition then
    let modes := (s.mode :: s.sys.transFrom.toList).filter isPrint
    match modes.map maxSpeed with
    | [] => none
    | v :: vs => some (vs.foldl min v)
  else if isPrint s.mode then some (maxSpeed s.mode)
  else none

/-- ModeSpeedExceeded when the speed comes to lie over its maximum. -/
def speedEvent (above : Bool) : Act :=
  .read fun s =>
    .seq (when (above && !s.sys.speedOver) (raise 6)) (.prim (.sys fun x => { x with speedOver := above }))

/-- The watch on the web's speed after a master sample (R48, R49); `turned` says that travel has just reversed. -/
def speedWatch (turned : Bool) : Act :=
  .read fun s =>
    let v := s.webSpeed
    match s.speedLimit with
    | some lim =>
      .seq (speedEvent (overSpeed v lim 100))
        (if v < 0 then .seq (orderlyStop 3) syncLoop
         else when (overSpeed v lim 102) (.seq (orderlyStop 2) syncLoop))
    | none =>
      if s.mode = mService then
        .seq (speedEvent (overSpeed v 30 100))
          (if !s.fire.service.any (fun x => x.pattern == 3) then .skip
           else if overSpeed v 30 102 then endService 2
           else if turned || v < 0 then endService 3
           else when (!s.speedValid) (endService 4))
      else .prim (.sys fun x => { x with speedOver := false })

end Sys2Proof.Machine
end

