-- ==== Sys2Proof/Machine/Health.lean ====
section
/-! DEFINITION. Sys2Proof/Machine/Health.lean: die temperature, shutdowns, thermal trim, and the records of the boot
flash (R426–R434, R437, R438). -/

namespace Sys2Proof.Machine

/-- The mean of up to four samples, rounded (R426, R13). -/
def meanOf (l : List Int) : Int := roundDiv l.sum l.length

/-- A diode's value lies within −40 °C to 150 °C (R427). -/
def inSensorRange (v : Int) : Bool := decide (-640 ≤ v) && decide (v ≤ 2400)

/-- What a diode reads, by its last samples: its mean, or 150 °C outside the range; none before a sample (R427). -/
def diodeValue (l : List Int) : Option Int :=
  if l.isEmpty then none else some (if inSensorRange (meanOf l) then meanOf l else 2400)

/-- The die has cooled below the shutdown threshold less its hysteresis (R431, R432). -/
def State.cool (s : State) : Bool :=
  decide (s.regI K.DieTemperature 2 < s.regI K.ShutdownThreshold 2 - (s.reg (K.ThresholdHysteresis + 2) : Int))

/-- One thermal record of the fault log (R437). -/
def thermalLog (event : Nat) : Act :=
  .read fun s => when (s.islandReady islCTL) (faultLog 0xFFFF 3 0 event 0)

/-- The shutdown record of AON (R433). -/
def shutdownRecord (kind : Nat) : Act :=
  .read fun s =>
    seqs [
      addTo K.ThermalShutdownCount 2 1, put K.LastShutdownKind kind,
      put K.LastShutdownTemperature (s.reg K.DieTemperature),
      send (.ball .thermtripN 0) ]

/-- Every island but AON is held in reset at once, and DRAM is lost (R430, R432). -/
def holdAtOnce (kind : Nat) : Act :=
  seqs [
    shutdownRecord kind,
    resetWarmIslands,
    loseUnpowered,
    .prim (.erase 0 (2 ^ 40)),
    .prim (.dram fun _ => {}), .prim (.codec fun _ => {}), .prim (.loop fun _ => {}),
    put K.DramRetained 0,
    .prim (.sys fun x => { x with hold := true }),
    .prim (.health fun h => { h with shuttingDown := false }) ]

/-- The newest 64 records of the fault log, oldest first (R437). -/
def State.newestLog (s : State) : List Nat :=
  (List.range 64).flatMap fun k =>
    s.bytesAt (faultLogBase + 32 * ((s.reg K.FaultLogIndex + 1024 - 64 + k) % 1024)) 32

/-- The boot flash takes a copy of the newest records. -/
def saveLog : Act :=
  .read fun s => .seq (.prim (.health fun h => { h with savedLog := s.newestLog })) (bumpVersion 0x5F01)

/-- The F part's orderly shutdown begins (R431 steps 1–4). -/
def beginShutdown : Act :=
  .read fun s =>
    seqs [
      shutdownRecord 1,
      .prim (.health fun h => { h with shuttingDown := true, shutAt := s.now }),
      (if s.mode = mService then endService 1 else orderlyStop 7),
      syncLoop,
      put K.ClaimActual 0, sendClaim, send (.ball .claimOut 0),
      .read fun s => when s.dramUsable (.seq enterSelfRefresh (put K.DramRetained 1)) ]

/-- The sequence ends 45 ms on (R431 steps 5 and 6): the log is saved and the islands are held. -/
def endShutdown : Act :=
  .read fun s =>
    when (s.health.shuttingDown && !s.sys.hold && decide (s.health.shutAt + 45000000 ≤ s.now))
      (seqs [saveLog, resetWarmIslands, .prim (.sys fun x => { x with hold := true })])

/-- The shutdown threshold is crossed (R430, R431). On the F part nothing is shut down before CTL runs: AON holds the
islands as long as the die is hot (R433). -/
def shutdownCrossed : Act :=
  .read fun s =>
    seqs [
      raise 236, thermalLog 236,
      (if s.isH then
        .seq (when (!s.health.latchH) (holdAtOnce 2)) (.prim (.health fun h => { h with latchH := true }))
       else if s.islandReady islCTL && !s.sys.hold then beginShutdown
       else send (.ball .thermtripN 0)) ]

/-- ThrottleTime takes the time since throttling was last accounted for (R429). -/
def throttleTime : Act :=
  .read fun s =>
    match s.health.throttleSince with
    | some t =>
      .seq (addTo K.ThrottleTime 8 (s.now - t)) (.prim (.health fun h => { h with throttleSince := some s.now }))
    | none => .skip

/-- One threshold with its hysteresis: crossed, cleared or neither (R428). -/
def crossing (was : Bool) (v limit hysteresis : Int) : Option Bool :=
  if !was && limit ≤ v then some true
  else if was && v < limit - hysteresis then some false
  else none

/-- The warning and throttle thresholds (R428, R429). -/
def lowerThresholds (v : Int) : Act :=
  .read fun s =>
    seqs [
      throttleTime,
      (match crossing s.health.warn v (s.regI K.WarningThreshold 2) (s.reg K.ThresholdHysteresis) with
        | some on => seqs [.prim (.health fun h => { h with warn := on }),
            raise (if on then 232 else 233), thermalLog (if on then 232 else 233)]
        | none => .skip),
      (match crossing s.health.throttle v (s.regI K.ThrottleThreshold 2) (s.reg (K.ThresholdHysteresis + 1)) with
        | some on => seqs [
            .prim (.health fun h => { h with throttle := on, throttleSince := if on then some s.now else none }),
            raise (if on then 234 else 235), thermalLog (if on then 234 else 235)]
        | none => .skip) ]

/-- ThermalState (R439). -/
def thermalState : Act :=
  .read fun s =>
    let h := s.health
    put K.ThermalState (if h.shuttingDown || h.latchH || h.hardLatch then 3 else if h.throttle then 2
      else if h.warn then 1 else 0)

/-- The sensors judged (R427): DieSensorFault and one occurrence at the first value in which a case arises. -/
def sensorCheck : Act :=
  .read fun s =>
    let h := s.health
    let apart := match diodeValue h.samplesA, diodeValue h.samplesB with
      | some a, some b => decide (128 < (a - b).natAbs)
      | _, _ => false
    let out := (!h.samplesA.isEmpty && !inSensorRange (meanOf h.samplesA))
      || (!h.samplesB.isEmpty && !inSensorRange (meanOf h.samplesB))
    .seq (.prim (.health fun x => { x with disagree := apart, outOfRange := out }))
      (when ((apart && !h.disagree) || (out && !h.outOfRange))
        (.seq (raise 238) (when (s.islandReady islCTL) (faultOccurrence 256 238 0 .skip))))

/-- The hard trip's hold ends once RESET_N has come and the die has cooled (R432). -/
def hardRelease : Act :=
  .read fun s =>
    when (s.health.hardLatch && s.health.hardReset && s.cool) (seqs [
      .prim (.health fun h => { h with hardLatch := false, hardReset := false }),
      .prim (.held 237), send (.ball .thermtripN 1) ])

/-- The filtered temperature is updated and compared (R426–R428). -/
def temperatureStep : Act :=
  .read fun s =>
    let va := diodeValue s.health.samplesA
    let vb := diodeValue s.health.samplesB
    let v := max (va.getD (vb.getD 0)) (vb.getD (va.getD 0))
    let top := match SMap.find s.dict K.DieTemperatureMax with
      | some m => max (signedOf 2 m) v
      | none => v
    seqs [
      (match va with | some x => put K.DieSensorA (rawOf 2 x) | none => .skip),
      (match vb with | some x => put K.DieSensorB (rawOf 2 x) | none => .skip),
      put K.DieTemperature (rawOf 2 v), put K.DieTemperatureMax (rawOf 2 top),
      sensorCheck,
      lowerThresholds v,
      (match crossing s.health.shutdown v (s.regI K.ShutdownThreshold 2) (s.reg (K.ThresholdHysteresis + 2)) with
        | some true => .seq (.prim (.health fun h => { h with shutdown := true })) shutdownCrossed
        | some false => .prim (.health fun h => { h with shutdown := false })
        | none => .skip),
      endShutdown, hardRelease, thermalState ]

/-- Diode A gives a raw sample (R426). -/
def execDiodeASample (t : Nat) (code : Int) (s : State) : Host.Outcome State Fault Refusal :=
  perform t (.read fun s =>
    when (s.islandReady islAON)
      (.seq
        (.prim (.health fun h => { h with
          rawA := code, samplesA := ((code + s.regI K.ThermalTrim 2) :: h.samplesA).take 4 }))
        temperatureStep)) s

/-- Diode B gives a raw sample, which the F part compares with the hard trip (R426, R432). -/
def execDiodeBSample (t : Nat) (code : Int) (s : State) : Host.Outcome State Fault Refusal :=
  perform t (.read fun s =>
    when (s.islandReady islAON) (seqs [
      .prim (.health fun h => { h with
        rawB := code, samplesB := ((code + s.regI (K.ThermalTrim + 1) 2) :: h.samplesB).take 4 }),
      when (!s.isH && decide (1984 ≤ code) && !s.health.hardLatch)
        (.seq (holdAtOnce 3) (.prim (.health fun h => { h with hardLatch := true }))),
      temperatureStep ])) s

/-- ThermalTrimReference (R434): both diodes are read, untrimmed. -/
def effThermalTrim : Effect := fun s w =>
  if s.mode != mStandby && s.mode != mReady then refuse abMode
  else accept (.seq (put K.ThermalTrimState 1)
    (.prim (.health fun h => { h with trimFirst := some (signedOf 2 w.val, h.rawA, h.rawB), trimAt := s.now })))

/-- A thermal trim is requested. -/
def execThermalTrimReference (t : Nat) (w : Wr) (s : State) : Host.Outcome State Fault Refusal :=
  perform t (writeBy 0x2F03 1 effThermalTrim w) s

/-- One second on both diodes are read again (R434): the trim is applied, or discarded where the readings differ by more
than 0.5 °C or a trim would pass 10 °C. -/
def execThermalTrimReading (t : Nat) (s : State) : Host.Outcome State Fault Refusal :=
  perform t (.read fun s =>
    match s.health.trimFirst with
    | none => .skip
    | some (ref, a, b) =>
      if s.now < s.health.trimAt + 1000000000 then .skip
      else
        let ta := ref - roundDiv (a + s.health.rawA) 2
        let tb := ref - roundDiv (b + s.health.rawB) 2
        let good := decide ((a - s.health.rawA).natAbs ≤ 8) && decide ((b - s.health.rawB).natAbs ≤ 8)
          && decide (ta.natAbs ≤ 160) && decide (tb.natAbs ≤ 160)
        seqs [
          .prim (.health fun h => { h with trimFirst := none }),
          (if good then
            seqs [put K.ThermalTrim (rawOf 2 ta), put (K.ThermalTrim + 1) (rawOf 2 tb), put K.ThermalTrimState 2,
              raise 239]
           else put K.ThermalTrimState 3),
          calibrationCounted 8 good ]) s

/-- WarningThreshold, ThrottleThreshold and ShutdownThreshold keep their order (R428). -/
def effThreshold (key : Nat) : Effect := fun s w =>
  let v := fun k => if k = key then signedOf 2 w.val else s.regI k 2
  if v K.WarningThreshold ≤ v K.ThrottleThreshold ∧ v K.ThrottleThreshold < v K.ShutdownThreshold
  then accept (put key w.val) else refuse abRange

/-- DieTemperatureMax: 0 sets it to the present value (R439). -/
def effTemperatureMax : Effect := fun s w =>
  if w.val = 0 then accept (put K.DieTemperatureMax (s.reg K.DieTemperature)) else refuse abRange

/-- FaultLogSave (R437). -/
def effLogSave : Effect := fun _ w => accept (when (w.val == 1) saveLog)

/-- A write of FaultLogSave. -/
def execFaultLogSave (t : Nat) (w : Wr) (s : State) : Host.Outcome State Fault Refusal :=
  perform t (writeBy 0x2142 2 effLogSave w) s

/-- Registers as a map of keys to their values. -/
def State.regsOf (s : State) (keys : List Nat) : SMap := keys.map fun k => (k, s.reg k)

/-- The training results as a map: subchannel, point and place to value. -/
def shadowRegs (l : List (Nat × Nat × List Nat)) : SMap :=
  l.flatMap fun x => x.2.2.zipIdx.map fun v => (x.1 * 2 ^ 20 + pointBit x.2.1 * 2 ^ 16 + v.2, v.1)

/-- The camera widths configured. -/
def State.widths (s : State) : List Nat := (List.range 8).map fun p => s.reg (portKey K.Width p)

/-- The registers of calibration kinds 2, 3, 5, 7 and 8 (R438). -/
def recordKeys (kind : Nat) : List Nat :=
  match kind with
  | 2 => (List.range 8).map (K.SubstituteWeight + ·)
  | 3 => (List.range 128).map (stringKey K.ForwardVoltageRef ·)
  | 5 => (List.range 16).map (linkKey K.TxPreset ·)
  | 7 => [0x233101, 0x233102, 0x233201, 0x233202, 0x233301, 0x233302, 0x233401, 0x233402]
  | 8 => [K.ThermalTrim, K.ThermalTrim + 1]
  | _ => []

/-- The result in force of a calibration kind (R438). -/
def State.recordOf (s : State) (kind : Nat) : CalRecord :=
  { part := s.part, widths := s.widths
    regs := if kind = 6 then shadowRegs s.dram.shadow else s.regsOf (recordKeys kind)
    cells := if kind = 1 then Memory.slice s.mem stitchBaseAt (2 * s.nozzleCount)
      else if kind = 4 then (List.range 8).flatMap fun p => Memory.slice s.mem (coefficientAt p true) 131072
      else [] }

/-- The counts and times that are stored with every save (R349, R438). -/
def State.countsNow (s : State) : SMap :=
  s.regsOf (((List.range 8).map (K.CalibrationCount + ·)) ++ ((List.range 8).map (K.CalibrationDiscarded + ·))
    ++ (List.range 8).map (K.CalibrationTime + ·))

/-- CalibrationRecordSave (R438): the kinds named are stored, in request order. -/
def effRecordSave : Effect := fun s w =>
  let kinds := ((List.range 8).filter fun i => bit w.val i).map (· + 1)
  accept (.seq (put K.CalibrationRecordState 1)
    (.prim (.health fun h => { h with
      writing := h.writing ++ [{ recs := kinds.map fun k => (k, s.recordOf k), counts := s.countsNow, auto := false }]
      countsChanged := false })))

/-- A save of calibration records is requested. -/
def execCalibrationRecordSave (t : Nat) (w : Wr) (s : State) : Host.Outcome State Fault Refusal :=
  perform t (writeBy 0x2F10 1 effRecordSave w) s

/-- The counts and times are saved, at most once every 60 s after a change (R438). -/
def execCalibrationAutoSave (t : Nat) (s : State) : Host.Outcome State Fault Refusal :=
  perform t (.read fun s =>
    let due := match s.health.countsSavedAt with
      | some t0 => decide (t0 + 60000000000 ≤ s.now)
      | none => true
    when (s.islandReady islCTL && s.health.countsChanged && due)
      (.prim (.health fun h => { h with
        writing := h.writing ++ [{ recs := [], counts := s.countsNow, auto := true }]
        countsChanged := false, countsSavedAt := some s.now }))) s

/-- The bits of a list of kinds. -/
def kindMask (l : List Nat) : Nat := (l.map fun k => 2 ^ (k - 1)).sum

/-- A write of calibration records completes (R438). -/
def execCalibrationRecordWritten (t : Nat) (s : State) : Host.Outcome State Fault Refusal :=
  perform t (.read fun s =>
    match s.health.writing with
    | [] => .skip
    | j :: rest =>
      let valid := s.reg K.CalibrationRecordsValid ||| kindMask (j.recs.map (·.1))
      let number := bump 4 (s.reg K.CalibrationRecordSequence)
      seqs [
        put K.CalibrationRecordSequence number, put K.CalibrationRecordsValid valid,
        .prim (.health fun h => { h with
          writing := rest
          savedCounts := SMap.put (SMap.put j.counts K.CalibrationRecordSequence number) K.CalibrationRecordsValid valid
          records := j.recs.foldl (fun l r => l.set (r.1 - 1) (some r.2)) h.records }),
        each (j.recs.map (·.1)) (fun k => bumpVersion (0x5F10 + (k - 1))),
        when (!j.auto) (.seq (put K.CalibrationRecordState (if rest.any (fun r => !r.auto) then 1 else 2)) (raise 245)) ]) s

/-- Applies the flat-field record to a port (R302, R438): its block is staged and committed. -/
def applyCoefficients (r : CalRecord) (p : Nat) : Act :=
  .read fun s =>
    let width := s.reg (portKey K.Width p)
    if r.widths.getD p 0 != width || s.portCount ≤ p then .skip
    else
      seqs [
        when (width != (s.prt p).conf.width)
          (.seq (setPort p fun x => { x with conf := { x.conf with width := width } }) (neutralBanks p width)),
        .prim (.erase (coefficientAt p false) 131072),
        each (Memory.slice r.cells (coefficientAt p true) 131072)
          (fun c => .prim (.storeBytes (c.1 - 131072) [c.2.toNat])),
        .read fun s =>
          let b := s.bytesAt (coefficientAt p false) 131072
          let code := coefRefusal width b
          if code = 0 then pendBlock p b else put (K.CoefficientCommitRefusal + p) code ]

/-- Applies a calibration record as the table of R438 states. -/
def applyRecord (kind : Nat) (r : CalRecord) : Act :=
  match kind with
  | 1 => .seq (.prim (.health fun h => { h with overlapDue := true })) applyOverlap
  | 2 => .seq (.prim (.load (SMap.keep r.regs (recordKeys 2).contains))) wantBuild
  | 4 => each (List.range 8) (applyCoefficients r)
  | 6 => .skip
  | _ => .prim (.load (SMap.keep r.regs (recordKeys kind).contains))

/-- The records that the load mask names and that this part wrote are applied (R438). -/
def loadRecords (mask : Nat) (kinds : List Nat) : Act :=
  .read fun s =>
    each kinds fun k =>
      match s.health.records.getD (k - 1) none with
      | some r => when (bit mask (k - 1) && decide (r.part = s.part)) (applyRecord k r)
      | none => .skip

end Sys2Proof.Machine
end

