-- ==== Sys2Proof/Machine/Bringup.lean ====
section
/-! DEFINITION. Sys2Proof/Machine/Bringup.lean: from reset to a reachable dictionary, warm resets, Deep and island
resets (R37, R84, R86–R97, R431–R433, R456, R457, R462, R463, R475, R476). -/

namespace Sys2Proof.Machine

/-- A thermal hold keeps the islands other than AON in reset (R430–R433). -/
def State.thermalHold (s : State) : Bool :=
  s.health.latchH || s.health.hardLatch || s.sys.hold
    || decide (s.regI K.ShutdownThreshold 2 ≤ s.regI K.DieTemperature 2)

/-- The boot flash loses what Returned erases (R457 steps 2 and 3). -/
def returnedSteps : Act :=
  .read fun s =>
    seqs [
      each (keySlots.filter fun id => id != 0x21 && bit (s.reg (keyStatusKey id)) 6) (fun id =>
        put (keyStatusKey id) (setBit (s.reg (keyStatusKey id)) 7 true)),
      .prim (.sys fun x => { x with saved := [], savedRoutes := [], savedMask := 0#256 }),
      .prim (.health fun h => { h with savedLog := [], records := List.replicate 8 none, savedCounts := [], writing := [] }) ]

/-- RESET_N is held low and released (R91, R93); `cold` says that AON's supply had been removed. After a hard trip the
release waits for a cool die, and ThermalHardTrip is held (R432). -/
def execPowerOnReset (t : Nat) (cold : Bool) (s : State) : Host.Outcome State Fault Refusal :=
  perform t (.read fun s =>
    let tripped := s.health.hardLatch && !cold
    let hot := tripped && !s.cool
    seqs [
      powerOnReset 0 cold,
      send (.ball .pwrenMain 1),
      when tripped
        (if hot then .prim (.health fun h => { h with hardLatch := true, hardReset := true }) else .prim (.held 237)),
      send (.ball .thermtripN (if hot || (s.health.latchH && !cold) then 0 else 1)) ]) s

/-- A monitor of a supply group trips, 5 for PGOOD_MAIN low (R93, R476): in Deep only group 1 is armed. -/
def execSupplyMonitorTrip (t group : Nat) (s : State) : Host.Outcome State Fault Refusal :=
  perform t (.read fun s =>
    when (s.islandReady islAON && 1 ≤ group && group ≤ 5 && (!s.sys.deep || group == 1))
      (.seq (powerOnReset 1 false) (.prim (.held 14)))) s

/-- Scaler coefficients as 0x5501 holds them (R177): kernel, phase, tap −2 to +3. -/
def scalerBytes : List Nat :=
  (List.range 4).flatMap fun k => (List.range 64).flatMap fun p =>
    (List.range 6).flatMap fun (i : Nat) =>
      leBytes 2 (rawOf 2 (((kernelCoeffs k p).find? fun x => x.1 == (i : Int) - 2).elim 0 (·.2)))

/-- Where 0x5501 lies: the last 4 KiB of the Line Store (notes/assumptions/13.md). -/
abbrev scalerAt : Nat := 0x047FF000

/-- What an island does at its flag (R91): the links of LINK start, TIME counts and drives from 0, the fitted
subchannels are untrained or still in self-refresh (R375, R378), AON applies the thermal trim, CTL takes AON's events (R84) and marks the fault sources that the part lacks (R439). -/
def islandStarts (i : Nat) : Act :=
  .read fun s =>
    let mask := (SMap.find s.sys.saved K.CalibrationRecordLoadMask).getD (defaultOf s.part K.CalibrationRecordLoadMask)
    match i with
    | 1 => loadRecords mask [8]
    | 2 => .seq (.prim .release) (each ((List.range 288).filter s.sourceAbsent) fun r => faultTable r 2 0)
    | 4 => each ((List.range 4).filter fun sc =>
        bit (s.reg K.SubchannelsFitted) sc && s.reg (K.SubchannelState + sc) != 5) fun sc =>
          put (K.SubchannelState + sc) (if s.dram.kept then 4 else 1)
    | 6 => .prim (.storeBytes scalerAt scalerBytes)
    | 9 => .seq (loadRecords mask [5]) (each (List.range s.linkCount) startLink)
    | 12 => seqs [
        .prim (.time fun _ => { running := true, anchor := s.now }),
        .prim (.pos fun x => { x with
          chans := x.chans.zipIdx.map fun c => { c.1 with len := s.reg (K.CopyLength + c.2) } }),
        each (List.range 4) (fun k => seqs [send (.ball (.em k) 0), send (.ball (.cmpOut k) 0)]),
        send (.ball .rejectOut (s.reg K.RejectActiveLow)) ]
    | _ => .skip

/-- An island reports ready (R86–R88, R91, R433); FreezeCause follows the functions that start with it (R341). -/
def execIslandReady (t isl : Nat) (s : State) : Host.Outcome State Fault Refusal :=
  perform t (.read fun s =>
    let may := isl == islAON || (s.islandReady islAON && !s.sys.deep && !s.thermalHold)
    if isl < 1 || 12 < isl || s.islandReady isl || !may || s.now < s.sys.releaseAt then .skip
    else
      seqs [
        put (K.IslandReadyTime + (isl - 1)) (min (s.now - s.sys.releaseAt) 0xFFFFFFFF),
        setReady isl true,
        islandStarts isl,
        syncLoop ]) s

/-- The refusal code of an image of the boot flash (R462–R464), 0 for none. -/
def State.imageRefusal (s : State) (want : Nat) (x : Image) : Nat :=
  let life := s.reg K.LifecycleState
  let vendor := want == 0x80
  let floor := if vendor then s.sec.vendorFloor else s.reg K.SecurityVersionFloor
  if !x.present || !x.format then 2
  else if x.kind ≠ want || (vendor && x.keyId ≠ 0x40) || (!vendor && life = 3) || (!vendor && x.keyId = 0xFF && life ≠ 0)
    then 3
  else if !vendor && x.keyId ≠ 0xFF && !(signingSlot x.keyId && s.keyLive x.keyId) then 4
  else if !vendor && x.keyId ≠ 0xFF && !bit (s.keyStatus x.keyId) 0 then 5
  else if x.dieSerial ≠ 0 && x.dieSerial ≠ Config.dieSerial.toNat then 6
  else if !x.digestOk then 7
  else if x.keyId ≠ 0xFF && !x.sigOk then 8
  else if life = 2 && x.version < floor then 9
  else 0

/-- A customer image runs from a slot (R463). -/
def runImage (status slot : Nat) (x : Image) : Act :=
  seqs [
    put K.BootStatus status, put K.BootSlotRun slot, put K.FirmwareSecurityVersion x.version,
    .prim (.sys fun y => { y with served := true }),
    .prim (.sec fun y => { y with signed := x.keyId != 0xFF }),
    when (x.keyId != 0xFF) (raise 9) ]

/-- No customer image runs (R463). -/
def noImage (status code : Nat) : Act :=
  seqs [
    put K.BootStatus status, put K.BootSlotRun 0xFF, put K.PackageRefusal code,
    .prim (.sys fun y => { y with bootRefused := true }) ]

/-- The saved values of AON and CTL, the routes and the mask are loaded (R76). -/
def loadSaved : Act :=
  .read fun s =>
    seqs [
      .prim (.load (s.savedOf fun k => !savedElsewhere k)),
      each s.sys.savedRoutes (fun r => .prim (.evRoute r.1 r.2)),
      .prim (.evMask s.sys.savedMask),
      each [1, 2, 3, 4, 5, 6, 7, 8, 9, 10, 11, 12] syncFunctions ]

/-- The boot ROM has checked its images and loads the saved configuration (R91 step 8, R457, R463). -/
def execFirmwareVerified (t : Nat) (vendor slotA slotB : Image) (s : State) : Host.Outcome State Fault Refusal :=
  perform t (.read fun s =>
    if !s.islandReady islCTL || s.sys.verified then .skip
    else
      let pref := s.reg K.BootSlotPreferred
      let image := fun (n : Nat) => if n = 0 then slotA else slotB
      let v := s.imageRefusal 0x80 vendor
      let c0 := s.imageRefusal 1 (image pref)
      let c1 := s.imageRefusal 1 (image (1 - pref))
      seqs [
        when (s.reg K.LifecycleState == 3) returnedSteps,
        .prim (.sec fun x => { x with vendorVersion := if v = 0 then vendor.version else 0 }),
        (if v ≠ 0 then noImage 3 v
         else if c0 = 0 then runImage 0 pref (image pref)
         else if c1 = 0 then runImage 1 (1 - pref) (image (1 - pref))
         else noImage 2 c1),
        .prim (.sys fun x => { x with verified := true }),
        loadSaved ]) s

/-- The role in a Bridle pair at dictionary ready (R440, R441): a single controller claims at once. -/
def bridleBegin : Act :=
  .read fun s =>
    if s.flag K.BridleEnable then
      seqs [
        put K.BridleRole 1, put K.ClaimActual 0, send (.ball .claimOut 0),
        .prim (.bridle fun _ => { startAt := s.now }) ]
    else seqs [put K.BridleRole 0, put K.ClaimActual (s.reg K.ConfiguredClaim), send (.ball .claimOut 1)]

/-- The dictionary becomes reachable (R84, R87, R91 step 9, R438, R463, R471). -/
def execDictionaryReady (t : Nat) (s : State) : Host.Outcome State Fault Refusal :=
  perform t (.read fun s =>
    if !s.sys.verified || s.sys.dictReady || !s.islandReady islCTL then .skip
    else
      seqs [
        when s.sys.bootRefused (raise 254),
        .prim (.sys fun x => { x with dictReady := true, warming := false, bootRefused := false }),
        .prim .route,
        loadRecords (s.reg K.CalibrationRecordLoadMask) [1, 2, 3, 4, 5, 7, 8],
        when (s.ill.conf.isSome && s.fnOn fnIllum) (startEffects fnIllum),
        when (s.reg K.LifecycleState == 3) (put K.DebugLevelActual 1),
        bridleBegin ]) s

/-- The CAN path boots up (R92, R96, R416): it sends its boot-up message, is pre-operational and sends what EMCY is
queued. -/
def bootUp : Act :=
  .read fun s =>
    let id := s.reg K.CanNodeId
    seqs [
      .prim (.can fun c => { c with booted := true, nmt := .preOperational, nodeId := id, timing := s.canTiming }),
      send (.can (0x700 + id) [0]),
      .prim .emcyNext ]

/-- The boot-up message is sent (R91 step 10). -/
def execCanBootUp (t : Nat) (s : State) : Host.Outcome State Fault Refusal :=
  perform t (.read fun s => when (s.reachable && s.islandReady islNET && !s.can.booted) bootUp) s

/-- A warm trigger ends the hold of an orderly shutdown once the die is cool; a hotter one is ignored and counted
(R431). -/
def endHold (cause : Nat) : Act :=
  .read fun s =>
    if s.health.hardLatch || !s.cool then addTo K.WarmTriggersIgnored 2 1
    else
      seqs [
        .prim (.sys fun x => { x with hold := false }),
        .prim (.health fun h => { h with shuttingDown := false, shutdown := false }),
        send (.ball .thermtripN 1),
        thermalState,
        warmRelease cause 0 ]

/-- A warm trigger (R93): merged into a warm reset under way, without effect in Deep and under the H part's latch. -/
def warmTrigger (cause : Nat) : Act :=
  .read fun s =>
    if s.sys.deep || s.health.latchH then .skip
    else if s.sys.hold then endHold cause
    else if s.sys.warming || !s.islandReady islAON then .skip
    else warmReset cause

/-- WarmResetRequest (R93). -/
def effWarmReset : Effect := fun _ w => accept (when (w.val == 1) (warmTrigger 3))

/-- A write of WarmResetRequest. -/
def execWarmResetRequest (t : Nat) (w : Wr) (s : State) : Host.Outcome State Fault Refusal :=
  perform t (writeBy 0x2203 1 effWarmReset w) s

/-- WARMRST_N is low for `width` ns (R93). -/
def execWarmrstNLow (t width : Nat) (s : State) : Host.Outcome State Fault Refusal :=
  perform t (when (1000 ≤ width) (warmTrigger 2)) s

/-- A core's watchdog expires (R93). -/
def execWatchdogExpired (t : Nat) (realTime : Bool) (s : State) : Host.Outcome State Fault Refusal :=
  perform t (.seq (raise 13) (when realTime (warmTrigger 4))) s

/-- An island is reset alone (R95): its functions are disabled, it is reset, and it comes back by itself. -/
def effIslandReset : Effect := fun s w =>
  if w.val < 3 || 12 < w.val then refuse abRange
  else if isPrint s.mode then refuse abMode
  else accept (seqs [
    each (functions.filter fun f => functionIsland f == w.val) (fun f => .seq (setStatus f 2) (stopEffects f)),
    .prim (.sys fun x => { x with releaseAt := s.now }),
    resetIsland w.val,
    raise 2 ])

/-- A write of IslandResetRequest. -/
def execIslandResetRequest (t : Nat) (w : Wr) (s : State) : Host.Outcome State Fault Refusal :=
  perform t (writeBy 0x2203 2 effIslandReset w) s

/-- PowerConditionRequest (R37, R375, R475): in Standby 1 enters Deep. DRAM goes into self-refresh, everything but AON
loses its power. -/
def effPowerCondition : Effect := fun s w =>
  if w.val != 1 then refuse abRange
  else if s.mode != mStandby then refuse abMode
  else accept (seqs [
    resetWarmIslands, loseUnpowered,
    .prim (.sys fun x => { x with deep := true }),
    send (.ball .pwrenMain 0) ])

/-- A write of PowerConditionRequest. -/
def execPowerConditionRequest (t : Nat) (w : Wr) (s : State) : Host.Outcome State Fault Refusal :=
  perform t (writeBy 0x2010 8 effPowerCondition w) s

/-- A wake from Deep: AON releases PWREN_MAIN (R475). -/
def wake : Act :=
  .read fun s =>
    when (s.sys.deep && s.sys.wakeAt.isNone)
      (.seq (.prim (.sys fun x => { x with wakeAt := some s.now })) (send (.ball .pwrenMain 1)))

/-- A rising edge on WAKE_IN (R37, R431). -/
def execWakeIn (t : Nat) (s : State) : Host.Outcome State Fault Refusal :=
  perform t (.read fun s => if s.sys.hold && !s.health.latchH then endHold 5 else wake) s

/-- Dominant activity on CF in Deep (R37). -/
def execCfWakeActivity (t : Nat) (s : State) : Host.Outcome State Fault Refusal := perform t wake s

/-- PGOOD_MAIN rises during a wake: 1 ms later the islands leave reset (R475). -/
def execPgoodMainHigh (t : Nat) (s : State) : Host.Outcome State Fault Refusal :=
  perform t (.read fun s =>
    when (s.sys.deep && s.sys.wakeAt.isSome) (seqs [
      .prim (.sys fun x => { x with deep := false, wakeAt := none }),
      warmRelease 5 1000000 ])) s

/-- PGOOD_MAIN has not risen within 100 ms of a wake: AON stays in Deep (R475). -/
def execPgoodMainTimeout (t : Nat) (s : State) : Host.Outcome State Fault Refusal :=
  perform t (.read fun s =>
    match s.sys.wakeAt with
    | some t0 =>
      when (s.sys.deep && decide (t0 + 100000000 ≤ s.now)) (seqs [
        .prim (.sys fun x => { x with wakeAt := none }),
        send (.ball .pwrenMain 0),
        .prim (.held 14) ])
    | none => .skip) s

end Sys2Proof.Machine
end

