-- ==== Sys2Proof/Machine/Bridle.lean ====
section
/-! DEFINITION. Sys2Proof/Machine/Bridle.lean: the Bridle pair (R440–R455): starting, heartbeats, mirroring, absence,
takeover and return. The bytes of a mirror record's data are the fields R446 lists, in its order, each as wide as its
entry (notes/assumptions/37.md). -/

namespace Sys2Proof.Machine

/-- All ones: no copy. -/
abbrev noCopy : Nat := 0xFFFFFFFFFFFFFFFF

/-- Healthy (R453). -/
def State.healthy (s : State) : Bool :=
  !s.functionOff && s.flag K.DramTrained && s.pointTrained (s.reg K.PrintOperatingPoint)
    && (s.reg K.PtpState == 2 || s.reg K.PtpState == 4) && s.reg K.PermanentCount == 0 && s.reg K.ThermalState < 2

/-- The controller becomes Holder with its claim (R440, R441). -/
def gainClaim : Act :=
  .read fun s => seqs [
    put K.BridleRole 2, put K.ClaimActual (s.reg K.ConfiguredClaim), sendClaim, send (.ball .claimOut 1),
    mirrorLost, raise 248 ]

/-- A return is cancelled (R454). -/
def cancelReturn : Act :=
  .read fun s =>
    when (s.reg K.BridleRole == 4) (.seq (put K.BridleRole 3) (put K.ReturnCopyPending noCopy))

/-- 3 × ClaimInterval. -/
def State.threeClaims (s : State) : Nat := 3 * s.reg K.ClaimInterval

/-- The wait of a Starting controller ends (R441). One that has lost the outputs stays Starting until the peer is
heard (R452; notes/assumptions/38.md). -/
def execPairStart (t : Nat) (s : State) : Host.Outcome State Fault Refusal :=
  perform t (.read fun s =>
    let heard := s.bridle.heard.any Option.isSome
    let own := s.reg K.ConfiguredClaim
    let theirs := field s.bridle.peer 4 1
    if s.reg K.BridleRole ≠ 1 || s.bridle.lostClaim || s.now < s.bridle.startAt + s.threeClaims then .skip
    else if !heard then gainClaim
    else if field s.bridle.peer 5 1 = 2 then put K.BridleRole 3
    else if own = theirs then
      .seq (put K.PairConflict 1)
        (if Config.dieSerial.toNat < Config.peerControllerId then gainClaim else put K.BridleRole 3)
    else if theirs < own then gainClaim
    else put K.BridleRole 3) s

/-- A frame of Ethertype 0x88B5 to the peer, on NC (R444, R446). -/
def sendPeer (payload : List Nat) : Act :=
  .read fun s =>
    when (s.islandReady islNET && s.flag (K.PortLinkUp + 2))
      (send (.eth 2 (s.frameOf 2 (beBytes 6 (s.reg K.PeerMacAddress) ++ beBytes 6 (s.mac 2)) 0x88B5 payload)))

/-- The heartbeat now sent (R444). -/
def State.heartbeat (s : State) : List Nat :=
  let flags := (if s.healthy then 1 else 0) + (if s.flag K.PairReady then 2 else 0)
    + (if s.bridle.resync then 4 else 0)
  let body := leBytes 2 0x4842 ++ [0x10, s.reg K.ClaimActual % 256, s.reg K.ConfiguredClaim % 256, s.reg K.BridleRole,
      flags, 0] ++ leBytes 2 s.bridle.hbSeq ++ [0, 0] ++ leBytes 4 (s.bridle.mirrorIn.getD 0)
    ++ leBytes 8 (s.reg K.ReturnCopyPending)
  body ++ leBytes 4 (crc32 body)

/-- One heartbeat goes out on both paths (R444). -/
def sendHeartbeat : Act :=
  .read fun s => seqs [
    send (.bridle true s.heartbeat), sendPeer s.heartbeat,
    .prim (.bridle fun b => { b with hbSeq := (b.hbSeq + 1) % 65536 }) ]

/-- A mirror record with its head (R446). -/
def mirrorRecord (kind : Nat) (data : List Nat) : List Nat := [kind, 0] ++ leBytes 2 data.length ++ data

/-- The Position record. -/
def State.positionRecord (s : State) : List Nat :=
  let m := s.master
  mirrorRecord 1 (leBytes 8 (rawOf 8 (roundShift m.total 32)) ++ leBytes 8 (rawOf 8 (roundShift m.pos 32))
    ++ leBytes 8 (rawOf 8 m.copies) ++ stampBytes (s.ptpAt m.sampleAt)
    ++ s.pos.emus.flatMap fun e => leBytes 8 (rawOf 8 e.count))

/-- The Copy record. -/
def State.copyRecord (s : State) : List Nat :=
  mirrorRecord 2 (leBytes 8 (s.reg K.DecidedCopy) ++ [s.mode, s.reg K.ModePending] ++ leBytes 8 (s.reg K.ModeChangeCopy)
    ++ leBytes 8 (s.reg K.LastVerdictCopy) ++ (List.range 8).flatMap fun ty => leBytes 8 (s.reg (K.WaveSwitchCopy + ty)))

/-- A list in pieces of at most `k`; one empty piece for an empty list. -/
def piecesOf {α : Type} (k : Nat) : Nat → List α → List (List α)
  | 0, l => [l]
  | n + 1, l => if l.length ≤ k then [l] else l.take k :: piecesOf k n (l.drop k)

/-- The Bank records (R446), as many as their 2-byte Length calls for: the target is 0 in a full state with no commit
pending; the entries are those of the staging bank that differ from the bank in force while a commit is pending, or
all that are not blank in a full state. The terms stand by their place in memory. -/
def State.bankRecords (s : State) (full : Bool) : List (List Nat) :=
  let pending := s.reg K.BankCommitState == 2
  let b := if pending then s.stagingBank else s.reg K.BankInForce
  let map2 := if pending then K.WaveMap2 else K.WaveMap2InForce
  let map4 := if pending then K.WaveMap4 else K.WaveMap4InForce
  let entries := (List.range s.nozzleCount).filter fun n =>
    if full then s.nozzle b n != 0 else pending && s.nozzle b n != s.nozzle (1 - b) n
  let terms : List Nat := match s.loop.undo with
    | some (ts, _) => if pending then ts.map (·.1) else []
    | none => []
  let record := fun (es ts : List Nat) =>
    mirrorRecord 3 (leBytes 4 (s.reg K.BankInForceVersion) ++ leBytes 8 (if pending then s.reg K.BankCommitCopy else 0)
      ++ ((List.range 4).flatMap fun i => leBytes 1 (s.reg (map2 + i)) ++ leBytes 8 (s.reg (map4 + i)))
      ++ leBytes 4 es.length ++ (es.flatMap fun n => leBytes 4 n ++ leBytes 16 (s.nozzle b n))
      ++ ts.flatMap fun a => leBytes 8 a ++ s.bytesAt a 2)
  ((piecesOf 3000 s.nozzleCount entries).map fun es => record es [])
    ++ (if terms.isEmpty then [] else (piecesOf 6000 terms.length terms).map (record []))

/-- The Layer record of a layer. -/
def State.layerRecord (s : State) (l : Nat) : List Nat :=
  let y := s.comp.layers.getD l {}
  let d := match y.pending with
    | some (d, _) => d
    | none => y.active.getD (emptyDesc 0)
  mirrorRecord 4 ([l] ++ leBytes 4 d.job ++ leBytes 4 d.offset ++ leBytes 4 d.advance ++ leBytes 4 d.extent
    ++ leBytes 4 (rawOf 4 d.originX) ++ leBytes 4 (rawOf 4 d.originY) ++ [d.kernelX, d.kernelY] ++ leBytes 2 d.opacity
    ++ [if d.blank then 1 else 0] ++ leBytes 8 (s.reg (layerKey K.PendingCopy l)) ++ leBytes 4 d.fence
    ++ leBytes 4 (s.reg (layerKey K.FenceReached l)) ++ [s.reg (layerKey K.LayerState l)])

/-- The Serial record. -/
def State.serialRecord (s : State) : List Nat :=
  mirrorRecord 5 (leBytes 8 (s.reg K.NextSerial) ++ leBytes 8 (s.reg K.LastIssuedSerial)
    ++ leBytes 8 (s.reg K.LastIssuedCopy))

/-- The Illumination record. -/
def State.illumRecord (s : State) : List Nat :=
  mirrorRecord 6 ((List.range 128).flatMap fun n =>
    leBytes 2 (s.reg (stringKey K.CurrentActual n)) ++ [s.reg (stringKey K.StringState n)])

/-- The records beside Position. -/
def State.mirrorRecords (s : State) (full : Bool) : List (List Nat) :=
  [s.copyRecord] ++ (if full || s.reg K.BankCommitState == 2 then s.bankRecords full else [])
    ++ (List.range 8).map s.layerRecord ++ [s.serialRecord, s.illumRecord]

/-- The Holder sends a mirror frame (R446): its Position, and the records that changed or, in a full state, all. -/
def sendMirror (full : Bool) : Act :=
  .read fun s =>
    let recs := s.mirrorRecords full
    let sent := if full then recs else recs.filter fun r => !s.bridle.sent.contains r
    let head := leBytes 2 0x4D42 ++ [0x10, if full then 1 else 0] ++ leBytes 4 s.bridle.mirrorSeq
    seqs [
      sendPeer (head ++ s.positionRecord ++ sent.flatten),
      .prim (.bridle fun b => { b with
        fullAt := if full then some b.mirrorSeq else b.fullAt
        sent := recs
        mirrorSeq := (b.mirrorSeq + 1) % 2 ^ 32 }) ]

/-- MirrorComplete sets, once (R446). -/
def mirrorDone : Act :=
  .read fun s => when (!s.flag K.MirrorCompleteFlag) (.seq (put K.MirrorCompleteFlag 1) (raise 251))

/-- The time since which a return's conditions hold; their loss cancels a return (R454). -/
def watchReturn : Act :=
  .read fun s =>
    let fit := (s.reg K.BridleRole == 3 || s.reg K.BridleRole == 4) && s.healthy && s.flag K.MirrorCompleteFlag
    .seq (.prim (.bridle fun b => { b with healthySince := if fit then some (b.healthySince.getD s.now) else none }))
      (when (!fit) cancelReturn)

/-- ClaimInterval passes (R444, R446): a heartbeat, and from the Holder a mirror frame. A Standby's state is complete
once it has acknowledged a full state and all after it. -/
def execHeartbeatSend (t : Nat) (s : State) : Host.Outcome State Fault Refusal :=
  perform t (.read fun s =>
    if !s.sys.dictReady || s.reg K.BridleRole = 0 then .skip
    else
      seqs [
        watchReturn,
        .read (fun _ => sendHeartbeat),
        when (s.reg K.BridleRole == 2) (sendMirror s.bridle.fullAt.isNone),
        when ((s.reg K.BridleRole == 3 || s.reg K.BridleRole == 4) && s.bridle.mirrorIn.isSome && s.bridle.aligned)
          mirrorDone,
        syncPair ]) s

/-- A heartbeat is valid (R444). -/
def heartbeatHolds (d : List Nat) : Bool :=
  d.length == 28 && field d 0 2 == 0x4842 && field d 2 1 == 0x10 && field d 24 4 == crc32 (d.take 24)

/-- What a Holder takes from a heartbeat (R446): a full state for a ResyncRequest, else completeness. -/
def holderHears (d : List Nat) : Act :=
  .read fun s =>
    let ack := field d 12 4
    if bit (field d 6 1) 2 then
      .seq (put K.MirrorCompleteFlag 0) (sendMirror true)
    else
      match s.bridle.fullAt with
      | some q => when (q ≤ ack && (ack + 1) % 2 ^ 32 == s.bridle.mirrorSeq) mirrorDone
      | none => .skip

/-- A heartbeat arrives on the wire or on NC (R442, R444, R445, R452, R454). -/
def execHeartbeatReceived (t : Nat) (nc : Bool) (data : List Nat) (s : State) : Host.Outcome State Fault Refusal :=
  perform t (.read fun s =>
    let me := if nc then 1 else 0
    let other := 1 - me
    let silent := match s.bridle.heard.getD other none with
      | some u => decide (u + s.threeClaims ≤ s.now)
      | none => decide (s.bridle.startAt + s.threeClaims ≤ s.now)
    let missed := silent && !s.bridle.missing.getD other false
    if s.reg K.BridleRole = 0 || !s.sys.dictReady then .skip
    else if !heartbeatHolds data then addTo K.HeartbeatsRejected 4 1
    else
      seqs [
        .prim (.bridle fun b => { b with
          heard := b.heard.set me (some s.now)
          missing := (b.missing.set me false).set other (b.missing.getD other false || silent)
          peer := data
          absent := false }),
        when missed (addTo (K.HeartbeatsMissed + other) 4 1),
        put K.PeerClaim (field data 3 1),
        when (s.flag K.PairConflict && field data 4 1 != s.reg K.ConfiguredClaim) (put K.PairConflict 0),
        when (s.reg K.BridleRole == 1 && s.bridle.lostClaim)
          (.seq (put K.BridleRole 3) (.prim (.bridle fun b => { b with lostClaim := false }))),
        when (s.reg K.BridleRole == 2) (holderHears data),
        syncPair ]) s

/-- What a mirrored Position does on a Standby (R446, R447): alignment or a check of its own master, and the
emulation counts. -/
def mirrorPosition (full : Bool) (d : List Nat) : Act :=
  .read fun s =>
    let stamp := (field d 24 6 * 1000000000 + field d 30 4) * 65536 + field d 34 2
    let m := s.master
    let lead : Int := (s.ptpAt m.sampleAt : Int) - stamp
    -- movement from the record's stamp to the own sample, in 2^-32 nm
    let moved : Int := roundDiv (s.webSpeed * lead * 65536) 1000000
    let total := signedOf 8 (field d 0 8) * 2 ^ 32
    let err := m.total - moved - total
    let align := full || !s.bridle.aligned
    let place := fun (ch : Chan) => { ch with
      total := total + moved
      pos := (signedOf 8 (field d 8 8) * 2 ^ 32 + moved) % ((ch.len : Int) * 2 ^ 32)
      copies := signedOf 8 (field d 16 8)
        + (signedOf 8 (field d 8 8) * 2 ^ 32 + moved) / ((ch.len : Int) * 2 ^ 32) }
    let far := decide ((s.reg K.MirrorPositionTolerance : Int) * 2 ^ 32 < err.natAbs)
    seqs [
      (if align then
        .seq
          (if s.pos.onBackup then .prim (.pos fun p => { p with run := place p.run, bases := [], samples := [] })
           else .seq (setChan (s.reg K.MasterChannel) place) (.prim (.pos fun p => { p with bases := [], samples := [] })))
          (.prim (.bridle fun b => { b with aligned := true }))
       else
        .seq (put K.MirrorPositionError (rawOf 4 (clampInt (-(2 ^ 31)) (2 ^ 31 - 1) (roundShift err 32))))
          (when far (.seq (put K.MirrorCompleteFlag 0) (.prim (.bridle fun b => { b with aligned := false }))))),
      each (List.range 4) fun k => .read fun s =>
        let pitch : Int := s.reg (K.EmulationPitch + k)
        let count := signedOf 8 (field d (36 + 8 * k) 8)
        let c := s.reg (K.EmulationSource + k)
        let then' : Int := if s.activeMaster = some c then (s.chan c).total - moved else (s.chan c).total
        when (c < 14 && pitch != 0)
          (.seq
            (.prim (.pos fun p => { p with emus := modAt p.emus k fun e =>
              { e with short := then' / pitch - count } }))
            (.read fun s =>
              let e := s.pos.emus.getD k {}
              put (K.EmulationBacklog + k) (s.emuTarget k e - e.count).natAbs)) ]

/-- A Standby leaves a print mode that its Holder has left at once (R446, R448): what it follows ends. -/
def mirrorStop (mode : Nat) : Act :=
  seqs [
    .prim (.fire fun f => { f with
      copies := f.copies.map fun c => { c with done := true }, heads := f.heads.map Head.idle, rings := [] }),
    put K.ModeTransitionActive 0, put K.ModePending 0xFF, put K.ModeQueued 0xFF,
    .prim (.sys fun x => { x with transFrom := none, locked := false }),
    modeAtOnce mode,
    .prim (.dram fun d => { d with freqNext := some (if mode = mStandby then 0 else 3200) }) ]

/-- The mirrored modes (R446): a pending one is taken with its copy, one withdrawn is dropped; a print mode that the
Holder is already in is taken at the next eligible copy (notes/assumptions/38.md). -/
def mirrorMode (actual pending copy : Nat) : Act :=
  .read fun s =>
    let mine := s.reg K.ModePending
    if pending != 0xFF && mine != pending && s.mode != pending then
      seqs [
        put K.ModePending 0xFF,
        when (mine != 0xFF) (releaseRings s.mode),
        pendMode pending, put K.ModeChangeCopy copy ]
    else if pending = 0xFF && s.mode != actual && mine != actual && !s.inTransition then
      if isPrint actual then (if isPrint s.mode || s.mode = mReady then pendMode actual else .skip)
      else mirrorStop actual
    else if pending = 0xFF && mine != 0xFF && mine != actual && !s.inTransition then
      .seq (releaseRings s.mode) (put K.ModePending 0xFF)
    else .skip

/-- What a mirrored Copy record does on a Standby: modes, waveform switches, and the copies whose verdicts the Holder
has issued. -/
def mirrorCopy (d : List Nat) : Act :=
  let last := signedOf 8 (field d 18 8)
  seqs [
    mirrorMode (field d 8 1) (field d 9 1) (field d 10 8),
    each (List.range 8) fun ty => put (K.WaveSwitchCopy + ty) (field d (26 + 8 * ty) 8),
    put K.LastVerdictCopy (field d 18 8),
    .prim (.fire fun f => { f with copies := f.copies.map fun c =>
      if c.num ≤ last && c.verdict.isNone then { c with verdict := some c.waste } else c }) ]

/-- What a mirrored Bank record does on a Standby: the bank in force is copied to the staging bank before the first
of a commit, the changed entries, maps and terms are written, and the commit starts for the same copy. -/
def mirrorBank (d : List Nat) : Act :=
  let n := field d 48 4
  let terms := d.drop (52 + 20 * n)
  seqs [
    .read (fun s => when (s.reg K.BankCommitState != 1) copyBank),
    .read (fun s => seqs [
      each (List.range 4) (fun i => .seq (put (K.WaveMap2 + i) (field d (12 + 9 * i) 1))
        (put (K.WaveMap4 + i) (field d (13 + 9 * i) 8))),
      each (List.range n) fun i =>
        .prim (.storeBytes (bankAt s.stagingBank + 16 * field d (52 + 20 * i) 4) ((d.drop (56 + 20 * i)).take 16)) ]),
    each (List.range (terms.length / 10)) (fun i =>
      .prim (.store (field terms (10 * i) 8) 2 (field terms (10 * i + 8) 2))),
    startCommit (field d 4 8) ]

/-- What a mirrored Layer record does on a Standby: it flips at the same decision. -/
def mirrorLayer (d : List Nat) : Act :=
  let l := field d 0 1
  let y : Desc := { job := field d 1 4, offset := field d 5 4, advance := field d 9 4, extent := field d 13 4,
                    originX := signedOf 4 (field d 17 4), originY := signedOf 4 (field d 21 4),
                    kernelX := field d 25 1, kernelY := field d 26 1, opacity := field d 27 2, fence := field d 38 4,
                    blank := field d 29 1 == 1, flush := field d 5 4 }
  let target := field d 30 8
  .read fun s =>
    let mine := s.comp.layers.getD l {}
    when (l < 8) (seqs [
      put (layerKey K.FenceReached l) (field d 42 4),
      (if target != noCopy then
        when (mine.pending != some (y, target)) (commitAccepted l target y)
       else when (mine.pending.isNone && mine.active.getD (emptyDesc 0) != y)
        (.seq (setLayer l fun z => { z with active := some y }) (put (layerKey K.LayerState l) (field d 46 1)))) ])

/-- What a mirrored Serial record does on a Standby. -/
def mirrorSerial (d : List Nat) : Act :=
  seqs [put K.NextSerial (field d 0 8), put K.LastIssuedSerial (field d 8 8), put K.LastIssuedCopy (field d 16 8)]

/-- What a mirrored Illumination record does on a Standby (R446, R448). -/
def mirrorIllum (d : List Nat) : Act :=
  .seq
    (each (List.range 128) fun n => .seq (put (stringKey K.CurrentActual n) (field d (3 * n) 2))
      (put (stringKey K.StringState n) (field d (3 * n + 2) 1)))
    settleRunning

/-- One mirror record is applied. -/
def mirrorApply (full : Bool) (kind : Nat) (d : List Nat) : Act :=
  match kind with
  | 1 => mirrorPosition full d
  | 2 => mirrorCopy d
  | 3 => mirrorBank d
  | 4 => mirrorLayer d
  | 5 => mirrorSerial d
  | 6 => mirrorIllum d
  | _ => .skip

/-- The records of a frame. -/
def mirrorSplit : Nat → List Nat → List (Nat × List Nat)
  | 0, _ => []
  | n + 1, d =>
    if d.length < 4 then []
    else (field d 0 1, (d.drop 4).take (field d 2 2)) :: mirrorSplit n (d.drop (4 + field d 2 2))

/-- A mirror frame arrives (R446, R447): records apply in Sequence order only; a gap asks for the full state. -/
def execMirrorFrame (t : Nat) (data : List Nat) (s : State) : Host.Outcome State Fault Refusal :=
  perform t (.read fun s =>
    let full := bit (field data 3 1) 0
    let seq := field data 4 4
    let role := s.reg K.BridleRole
    let inOrder := match s.bridle.mirrorIn with
      | some q => seq == (q + 1) % 2 ^ 32
      | none => false
    if !(role == 3 || role == 4) || !s.sys.dictReady || field data 0 2 ≠ 0x4D42 || field data 2 1 ≠ 0x10 then .skip
    else if !full && !inOrder then
      seqs [
        when (!s.bridle.resync) (addTo K.MirrorResyncs 4 1),
        mirrorLost, .prim (.bridle fun b => { b with resync := true }), cancelReturn, syncPair ]
    else
      seqs [
        .prim (.bridle fun b => { b with
          mirrorIn := some seq, resync := false, aligned := b.aligned && !full }),
        each (mirrorSplit data.length (data.drop 8)) (fun r => mirrorApply full r.1 r.2),
        watchReturn, syncPair ]) s

/-- A Standby with PairReady takes over (R449 step 1). -/
def takeOver : Act :=
  .read fun s => seqs [
    cancelReturn,
    put K.ClaimActual (s.reg K.ConfiguredClaim),
    sendClaim, sendHeartbeat, send (.ball .claimOut 1),
    .prim (.bridle fun b => { b with guardEnd := some (s.now + s.reg K.TakeoverGuard), cleared := [] }),
    each s.firingRows fun p =>
      match s.rowStart p.1 p.2.1 p.2.2 with
      | some (m, _) => wasteCopy m wBridle
      | none => .skip ]

/-- No valid heartbeat has arrived on either path for 3 × ClaimInterval (R445, R449). -/
def execPeerAbsent (t : Nat) (s : State) : Host.Outcome State Fault Refusal :=
  perform t (.read fun s =>
    let role := s.reg K.BridleRole
    let heard := s.bridle.heard.filterMap id
    if role = 0 || s.bridle.absent || heard.isEmpty || heard.any (fun u => s.now < u + s.threeClaims) then .skip
    else
      seqs [
        .prim (.bridle fun b => { b with absent := true }),
        raise 250,
        when ((role == 3 || role == 4) && s.flag K.PairReady && s.bridle.guardEnd.isNone) takeOver ]) s

/-- TakeoverGuard ends (R449 steps 3 to 5, R450). LastTakeoverGap measures from a line of the failed holder, which
the spec gives no means to know: a free value (notes/assumptions/5.md). -/
def execTakeoverGuardEnd (t : Nat) (s : State) : Host.Outcome State Fault Refusal :=
  perform t (.read fun s =>
    match s.bridle.guardEnd with
    | none => .skip
    | some e =>
      if s.now < e then .skip
      else
        seqs [
          each (s.sharedLinks.filter fun l => s.linkUp l && !s.bridle.cleared.contains l) linkLost,
          put K.BridleRole 2,
          put K.NextSerial ((s.reg K.LastIssuedSerial + 1 + s.reg K.SerialTakeoverSkip) % 2 ^ 64),
          addTo K.TakeoverCount 4 1,
          drawFree (fun g => put K.LastTakeoverGap (g % 2 ^ 32)),
          mirrorLost,
          .prim (.bridle fun b => { b with
            guardEnd := none, cleared := [], resumeFrom := s.ptp + s.reg K.IssueLead * 65536 }),
          raise 248, syncLoop, syncPair ]) s

/-- A Standby healthy for ReturnHealthyTime begins its return (R454 step 1). -/
def execReturnPair (t : Nat) (s : State) : Host.Outcome State Fault Refusal :=
  perform t (.read fun s =>
    let long := match s.bridle.healthySince with
      | some u => decide (u + s.reg K.ReturnHealthyTime * 1000000 ≤ s.now)
      | none => false
    when (s.reg K.BridleRole == 3 && s.flag K.ReturnEnable && field s.bridle.peer 4 1 < s.reg K.ConfiguredClaim
        && long && s.healthy && s.flag K.MirrorCompleteFlag && s.bridle.guardEnd.isNone && !s.bridle.absent)
      (.seq (put K.BridleRole 4) (put K.ReturnCopyPending (rawOf 8 s.eligibleCopy)))) s

/-- The master total reaches Base(m) of a return (R454 steps 3 and 4), on the returning controller and on the
Holder that yields. -/
def returnAtBase : Act :=
  .read fun s =>
    let reached := fun (m : Int) => decide (s.base m ≤ s.master.total)
    if s.reg K.BridleRole = 4 && reached (signedOf 8 (s.reg K.ReturnCopyPending)) then
      seqs [
        put K.ReturnCopyPending noCopy, addTo K.ReturnCount 4 1, gainClaim,
        .prim (.bridle fun b => { b with resumeFrom := s.ptp + s.reg K.FireMinLead * 65536 }), syncLoop, syncPair ]
    else
      match s.peerReturn with
      | some m => when (reached (signedOf 8 m)) (seqs [yieldClaim 3, syncLoop, syncPair])
      | none => .skip

/-- BridleEnable and ConfiguredClaim (R440, R441, R455). -/
def effBridle (idx sub : Nat) : Effect := fun s w =>
  let key := idx * 256 + sub
  if key = K.BridleEnable then
    accept (.seq (put key w.val) (when (s.reg key != w.val && s.sys.dictReady)
      (seqs [.prim (.bridle fun _ => {}), put K.PairReady 0, put K.MirrorCompleteFlag 0, put K.PairConflict 0,
        put K.PeerClaim 0, put K.ReturnCopyPending noCopy, bridleBegin, sendClaim])))
  else if key = K.ConfiguredClaim then
    accept (seqs [
      put key w.val,
      when (s.reg K.ClaimActual != 0) (put K.ClaimActual w.val),
      when (s.flag K.PairConflict && field s.bridle.peer 4 1 != w.val) (put K.PairConflict 0) ])
  else accept (put key w.val)

end Sys2Proof.Machine
end

