-- ==== Sys2Proof/Machine/Samples.lean ====
section
/-! DEFINITION. Sys2Proof/Machine/Samples.lean: the samples of the input channels (R100–R112, R122): what each one counts,
and what a sample of the master drives in the other units. -/

namespace Sys2Proof.Machine

/-- The channel is ready to count. -/
def State.takesSample (s : State) (c lo hi : Nat) : Bool := lo ≤ c && c < hi && s.counting c && !s.sys.deep

/-- What a sample of the master drives (R20, R47–R49, R234, R295, R348, R454), given where its total and its direction
were before it. -/
def masterSample (c : Nat) (was : Chan) (wasTotal : Int) (nodes : List Nat) : Act :=
  .read fun s =>
    let ch := s.chan c
    when (s.activeMaster == some c)
      (seqs [
        measureIssued,
        cameraLines wasTotal s.master.total nodes,
        rejectFollow s.master.total,
        returnAtBase,
        lockCheck,
        speedWatch (was.dir != 0 && ch.dir != was.dir) ])

/-- A sample of a channel: its movement, then what follows it on the channel, then what the master drives, then a
fault charged to it. -/
def sample (c : Nat) (d : Int) (edge : Bool) (at' : Nat) (nodes : List Nat) (after : Act) (fault : Option Nat) : Act :=
  .read fun s =>
    seqs [
      advance c d edge at',
      after,
      masterSample c (s.chan c) s.master.total nodes,
      (match fault with
        | some ev => channelFault c ev
        | none => .skip) ]

/-- Place of a pair of levels in a quadrature period, forward rising (R102). -/
def quadPlace (a b : Bool) : Nat := if a then (if b then 2 else 1) else (if b then 3 else 0)

/-- The count an edge makes (R102): 1 forward, -1 reverse, 0 none. -/
def edgeCount (type : Nat) (invert a0 b0 a1 b1 : Bool) : Int :=
  let forward : Int :=
    if type = 3 then
      match (quadPlace a1 b1 + 4 - quadPlace a0 b0) % 4 with
      | 1 => 1
      | 3 => -1
      | _ => 0
    else if !a0 && a1 then (if type = 2 && !b1 then -1 else 1)
    else 0
  if invert then -forward else forward

/-- What R104 makes of an edge: 0 an ordinary edge, 1 past a missing tooth, 2 an extra tooth. -/
def State.toothKind (s : State) (c : Nat) : Nat :=
  let ch := s.chan c
  let mode := s.reg (K.ReferenceMode + c)
  let gap := s.reg (K.GapRatio + c)
  match ch.lastEdge, ch.interval with
  | some u, some prev =>
    let d := s.now - u
    if mode = 1 && gap * prev ≤ d * 256 then 1 else if mode = 2 && d * gap ≤ prev * 256 then 2 else 0
  | _, _ => 0

/-- The interval that an edge ends, for the next comparison of R104. -/
def noteInterval (c : Nat) (before : Chan) : Act :=
  .read fun s => setChan c fun ch => { ch with interval := before.lastEdge.map fun u => s.now - u }

/-- A counted edge of an incremental channel (R102–R105). -/
def countEdge (c : Nat) (dir : Int) (nodes : List Nat) : Act :=
  .read fun s =>
    let ch := s.chan c
    let kind := if s.reg (K.ChannelType + c) = 3 then 0 else s.toothKind c
    let isRef := 0 < dir && ch.valid && ch.dir == 1
    let pitch : Int := s.reg (K.CountPitch + c)
    if kind = 2 then when isRef (referencePoint c 0)
    else
      let n : Int := if kind = 1 then 2 else 1
      let close := match ch.lastEdge with
        | some u => decide (s.now < u + 80)
        | none => false
      sample c (dir * n * pitch) true s.now nodes
        (seqs [noteInterval c ch, referenceCount c (dir * n), when (kind == 1 && isRef) (referencePoint c 0)])
        (if close then some 28 else none)

/-- A filtered edge on an incremental input, with the levels after it (R102–R105). -/
def execInputEdge (t ch : Nat) (a b : Bool) (nodes : List Nat) (s : State) : Host.Outcome State Fault Refusal :=
  perform t (.read fun s =>
    let was := s.chan ch
    let n := edgeCount (s.reg (K.ChannelType + ch)) (s.flag (K.DirectionInvert + ch)) was.a was.b a b
    when (ch < 8)
      (.seq (setChan ch fun c => { c with a := a, b := b })
        (when (s.takesSample ch 0 8 && n != 0) (countEdge ch n nodes)))) s

/-- The trim waiting for AN0 or AN1 comes into force when it may (R108). -/
def trimInForce (n : Nat) : Act :=
  .read fun s =>
    let c := 8 + n
    let printing := isPrint s.mode || s.inTransition
    match s.pos.trimNext.getD n none with
    | none => .skip
    | some f =>
      when (!printing && (s.activeMaster != some c || (s.chan c).standing))
        (seqs [
          put (K.SinOffset + n) (rawOf 2 f.sinOffset), put (K.CosOffset + n) (rawOf 2 f.cosOffset),
          put (K.CosGain + n) f.cosGain, put (K.PhaseTrim + n) (rawOf 2 f.phaseTrim),
          .prim (.pos fun p => { p with trimNext := modAt p.trimNext n fun _ => none }) ])

/-- The trimmed pair of R106, both × 32,768: s1 and c2. -/
def State.trimmed (s : State) (n : Nat) (sin cos : Int) : Int × Int :=
  let s1 := sin - s.regI (K.SinOffset + n) 2
  let c1 := (cos - s.regI (K.CosOffset + n) 2) * (s.reg (K.CosGain + n) : Int)
  (s1 * 32768, c1 - s1 * s.regI (K.PhaseTrim + n) 2)

/-- r of R106 in codes, rounded, from its square × 2^30. -/
def roundRadius (sq : Nat) : Nat := (Nat.sqrt (4 * sq / 2 ^ 30) + 1) / 2

/-- Position within a period of an angle, in 2^-32 nm (R107). -/
def angleNm (pitch a : Nat) : Int := roundDiv ((a : Int) * pitch) 4096

/-- A sample whose radius is within limits (R107, R109). -/
def analogueStep (n a : Nat) (mark : Bool) (nodes : List Nat) : Act :=
  .read fun s =>
    let c := 8 + n
    let ch := s.chan c
    let pitch := s.reg (K.CountPitch + c)
    let q := s.reg (K.ReferenceQuadrant + n)
    let here := mark && s.reg (K.ReferenceMode + c) == 3 && a / 1024 == q
    let note := setChan c fun x => { x with angle := some a, inMark := here }
    match ch.angle with
    | none => sample c 0 false s.now nodes note none
    | some old =>
      let diff : Int := (a : Int) - old
      let periods : Int := if diff < -2048 then 1 else if 2048 < diff then -1 else 0
      let step := diff + 4096 * periods
      let d := periods * pitch + angleNm pitch a - angleNm pitch old
      sample c d (a / 1024 != old / 1024) s.now nodes
        (seqs [note, referenceCount c periods,
          when (here && !ch.inMark && 0 < step) (referencePoint c (angleNm pitch a - angleNm pitch (1024 * q)))])
        (if 1024 < step.natAbs then some 28 else none)

/-- A sine/cosine sample pair in codes, with the level of the mark (R106, R107, R109). -/
def execAnalogueSample (t n : Nat) (sin cos : Int) (mark : Bool) (nodes : List Nat) (s : State) :
    Host.Outcome State Fault Refusal :=
  perform t (.seq (when (n < 2) (trimInForce n)) (.read fun s =>
    let c := 8 + n
    let p := s.trimmed n sin cos
    let sq := (p.1 * p.1 + p.2 * p.2).natAbs
    if !s.takesSample c 8 10 then .skip
    else
      .seq (put (K.AnalogueRadius + n) (roundRadius sq))
        (if sq < (2185 * 32768) ^ 2 || (7099 * 32768) ^ 2 < sq then
          .seq (setChan c fun x => { x with signalFault := true }) (channelFault c 27)
        else analogueStep n (angleSteps p.1 p.2) mark nodes))) s

/-- Two fits agree (R108): the radius, and the gains' effect on it, within 0.2 %, the offsets within 8 codes. -/
def fitsAgree (f g : SinCosTrim) : Bool :=
  (f.sinOffset - g.sinOffset).natAbs ≤ 8 && (f.cosOffset - g.cosOffset).natAbs ≤ 8
    && ((f.radius : Int) - g.radius).natAbs * 500 ≤ max f.radius g.radius
    && ((f.cosGain : Int) - g.cosGain).natAbs * 500 ≤ 32768 && (f.phaseTrim - g.phaseTrim).natAbs * 500 ≤ 32768

/-- A Lissajous fit over at least 64 periods is complete (R108). -/
def execSincosTrimCalibration (t n : Nat) (fit : SinCosTrim) (s : State) : Host.Outcome State Fault Refusal :=
  perform t (.read fun s =>
    when (s.takesSample (8 + n) 8 10)
      (match s.pos.trimFirst.getD n none with
        | none => .prim (.pos fun p => { p with trimFirst := modAt p.trimFirst n fun _ => some fit })
        | some f =>
          let good := fitsAgree f fit
          seqs [
            .prim (.pos fun p => { p with
              trimFirst := modAt p.trimFirst n fun _ => none
              trimNext := if good then modAt p.trimNext n fun _ => some fit else p.trimNext }),
            calibrationCounted 7 good,
            trimInForce n ])) s

/-- A serial word fails (R111): the next valid one sets the position absolutely. -/
def serialFailed (c event : Nat) : Act :=
  .seq (setChan c fun x => { x with signalFault := true, word := none, serialOpen := none }) (channelFault c event)

/-- SerialReadPeriod passes: SAn_DAT must be high, and the first falling clock edge latches the sensor (R110). -/
def execSerialRead (t n : Nat) (datHigh : Bool) (s : State) : Host.Outcome State Fault Refusal :=
  perform t (.read fun s =>
    let c := 10 + n
    let ch := s.chan c
    let due := match ch.lastRead with
      | some u => decide (u + s.reg (K.SerialReadPeriod + n) ≤ s.now)
      | none => true
    if !s.takesSample c 10 14 || ch.serialOpen.isSome || !due then .skip
    else if !datHigh then .seq (setChan c fun x => { x with lastRead := some s.now }) (serialFailed c 24)
    else .seq (setChan c fun x => { x with lastRead := some s.now, serialOpen := some s.now })
      (send (.ball (.saClk n) 0))) s

/-- One covered bit into the CRC of R111. -/
def serialCrcStep (len poly crc : Nat) (b : Bool) : Nat :=
  let fb := bit crc (len - 1) != b
  let next := crc * 2 % 2 ^ len
  if fb then next ^^^ (poly % 2 ^ len) else next

/-- The covered bits of a word: the position and error bits, in the order received. -/
def coveredBits (v n : Nat) : List Bool := (List.range n).map fun i => bit v (n - 1 - i)

/-- Gray to binary (R112), from the top bit of `n` down. -/
def fromGray (n v : Nat) : Nat := (List.range n).foldl (fun acc i => acc ^^^ (v / 2 ^ i)) 0

/-- A word's field bits in order: position, error bit, CRC; its CRC holds (R111). -/
def State.serialCrcHolds (s : State) (n frame word : Nat) : Bool :=
  let len := bits frame 20 5
  let err := if bit frame 15 then 1 else 0
  let covered := coveredBits (word / 2 ^ len) (bits frame 0 6 + err)
  let crc := covered.foldl (serialCrcStep len (s.reg (K.SerialCrcPolynomial + n)))
    (s.reg (K.SerialCrcInit + n) % 2 ^ len)
  len == 0 || (crc ^^^ (s.reg (K.SerialCrcFinalXor + n) % 2 ^ len)) == word % 2 ^ len

/-- The sample of a valid serial word latched at `at'` (R112). -/
def serialStep (n raw at' : Nat) (nodes : List Nat) : Act :=
  .read fun s =>
    let c := 10 + n
    let ch := s.chan c
    let width := bits (s.reg (K.SerialFrame + n)) 0 6
    let pitch : Int := s.reg (K.CountPitch + c)
    let note := setChan c fun x => { x with word := some raw }
    match ch.word with
    | none =>
      let place := .read fun s =>
        let old := s.chan c
        let new := { (old.place (s.webMode c) (s.softLimits c) (raw * pitch)) with refFound := true }
        .seq (setChan c fun _ => new) (when (!s.webMode c) (limitEvent c old new))
      sample c 0 false at' nodes (seqs [note, place, posEvent 16 c]) none
    | some old =>
      let diff := (raw + 2 ^ width - old) % 2 ^ width
      let d : Int := if diff < 2 ^ (width - 1) then diff else (diff : Int) - (2 ^ width : Nat)
      sample c (d * pitch) (raw != old) at' nodes note none

/-- A serial word completes (R111, R112): its bits after any start bit, the first received highest. -/
def execSerialWord (t n word : Nat) (nodes : List Nat) (s : State) : Host.Outcome State Fault Refusal :=
  perform t (.read fun s =>
    let c := 10 + n
    let frame := s.reg (K.SerialFrame + n)
    let len := bits frame 20 5
    let err := if bit frame 15 then 1 else 0
    let pos := bits (word / 2 ^ (len + err)) 0 (bits frame 0 6)
    let failed := err == 1 && (bit word len != bit frame 14)
    match (s.chan c).serialOpen with
    | none => .skip
    | some at' =>
      if !s.takesSample c 10 14 then .skip
      else
        .seq (send (.ball (.saClk n) 1))
          (if !s.serialCrcHolds n frame word then serialFailed c 25
          else if failed then serialFailed c 26
          else .seq (setChan c fun x => { x with serialOpen := none })
            (serialStep n (if bit frame 16 then fromGray (bits frame 0 6) pos else pos) at' nodes))) s

/-- A serial word has no start bit, or no high level after its last bit, within SerialTimeout (R111). -/
def execSerialTimeout (t n : Nat) (s : State) : Host.Outcome State Fault Refusal :=
  perform t (.read fun s =>
    let c := 10 + n
    match (s.chan c).serialOpen with
    | none => .skip
    | some u =>
      when (s.takesSample c 10 14 && u + s.reg (K.SerialTimeout + n) ≤ s.now)
        (.seq (send (.ball (.saClk n) 1)) (serialFailed c 24))) s

/-- No edge arrives within StandstillTimeout (R122). -/
def execStandstill (t ch : Nat) (s : State) : Host.Outcome State Fault Refusal :=
  perform t (.read fun s =>
    let c := s.chan ch
    let due := match c.lastEdge with
      | some u => decide (u + s.reg (K.StandstillTimeout + ch) ≤ s.now)
      | none => false
    if ch < 14 && s.counting ch && due && !c.standing then
      seqs [
        setChan ch (fun x => { x with standing := true, valid := false, speed := 0, hist := [] }),
        posEvent 22 ch,
        when c.valid (posEvent 31 ch),
        when (s.activeMaster == some ch)
          (.seq (.prim (.pos fun p => { p with samples := [] })) (speedWatch false)),
        when (8 ≤ ch && ch < 10) (trimInForce (ch - 8)) ]
    else .skip) s

end Sys2Proof.Machine
end

