-- ==== Sys2Proof/Machine/Security.lean ====
section
/-! DEFINITION. Sys2Proof/Machine/Security.lean: lifecycle, keys, tokens, packages, the debug level and the test port
(R456–R472). -/

namespace Sys2Proof.Machine

/-- Trace is permitted (R470, R471): in Provisioned, and in Secured under a grant. -/
def State.traceAllowed (s : State) : Bool :=
  s.reg K.LifecycleState == 1 || (s.reg K.LifecycleState == 2 && s.sec.grant.isSome)

/-- A debug level is permitted by the matrix of R471. -/
def State.debugPermits (s : State) (level : Nat) : Bool :=
  if level = 2 then s.traceAllowed else decide (s.reg K.LifecycleState ≤ 2)

/-- DebugLevelActual takes a value; DebugLevelChanged where it changes (R467). -/
def setDebug (level : Nat) : Act :=
  .read fun s => when (s.reg K.DebugLevelActual != level) (.seq (put K.DebugLevelActual level) (raise 255))

/-- The level follows its condition (R467, R471): fixed in Returned; Trace without its condition falls to Counters. -/
def syncDebug : Act :=
  .read fun s =>
    .seq (when s.sec.grant.isNone (put K.GrantExpiry 0))
      (if s.reg K.LifecycleState = 3 then setDebug 1
       else when (s.reg K.DebugLevelActual == 2 && !s.traceAllowed) (setDebug 1))

/-- The sources that trace carries (R469, R470): none unless Trace is in force outside Standby, those of a grant in
Secured, the real-time cores only for a Vendor session. -/
def State.traceInForce (s : State) : Nat :=
  let asked := s.reg K.TraceSources
  let granted := match s.sec.grant with
    | some g => if s.reg K.LifecycleState = 2 then asked &&& g.1 else asked
    | none => asked
  let vendor := match s.sec.debugBy with
    | some (.session i) => s.role (.session i) == 2
    | _ => false
  if s.reg K.DebugLevelActual ≠ 2 || s.mode = mStandby then 0
  else if vendor then granted else granted &&& 0x10FF

/-- DebugLevelRequest (R467). -/
def effDebugRequest : Effect := fun s w =>
  if !s.debugPermits w.val then refuse abGate
  else accept (seqs [
    put K.DebugLevelRequest w.val,
    .prim (.sec fun x => { x with debugBy := some w.path }),
    setDebug w.val ])

/-- A write of DebugLevelRequest. -/
def execDebugLevelRequest (t : Nat) (w : Wr) (s : State) : Host.Outcome State Fault Refusal :=
  perform t (writeBy 0x3120 1 effDebugRequest w) s

/-- A grant ends (R470). -/
def endGrant : Act := .seq (.prim (.sec fun x => { x with grant := none })) syncDebug

/-- A debug grant reaches its end, by network time or by the time counted in AON (R470). -/
def execGrantExpiry (t : Nat) (s : State) : Host.Outcome State Fault Refusal :=
  perform t (.read fun s =>
    match s.sec.grant with
    | some (_, till) => when (decide (till ≤ s.now) || decide (s.reg K.GrantExpiry ≤ ptpSec s.ptp)) endGrant
    | none => .skip) s

/-- The lifecycle advances to a state (R456, R467, R470). -/
def advanceLifecycle (v : Nat) : Act := seqs [put K.LifecycleState v, raise 253, endGrant]

/-- LifecycleAdvance (R456). -/
def effLifecycle : Effect := fun s w =>
  let life := s.reg K.LifecycleState
  let integrator := (List.range 4).any fun i => s.keyLive (0x11 + i)
  if isPrint s.mode then refuse abMode
  else if (w.val = 1 ∧ life = 0 ∧ 0 < s.firmwareKeys ∧ integrator) ∨ (w.val = 2 ∧ life = 1 ∧ s.sec.signed) then
    accept (advanceLifecycle w.val)
  else refuse abRange

/-- A write of LifecycleAdvance. -/
def execLifecycleAdvance (t : Nat) (w : Wr) (s : State) : Host.Outcome State Fault Refusal :=
  perform t (writeBy 0x3100 2 effLifecycle w) s

/-- A key is burnt into its slot (R458, R459). -/
def burnKey (b : List Nat) : Act :=
  .seq (put (keyStatusKey (field b 0 1)) (0x40 + field b 1 1))
    (.prim (.sec fun x => { x with keys := (field b 0 1, installKey b) :: x.keys.filter fun k => k.1 != field b 0 1 }))

/-- A slot's revoke fuse is burnt (R459). -/
def burnRevoke (id : Nat) : Act :=
  .read fun s => put (keyStatusKey id) (setBit (s.keyStatus id) 7 true)

/-- KeyInstall (R459): a role key only through the window, into an empty slot. -/
def effKeyInstall : Effect := fun s w =>
  let b := leBytes w.len w.val
  let fromCore := match w.path with
    | .core _ => true
    | _ => false
  if isPrint s.mode then refuse abMode
  else if roleSlot (field b 0 1) && !fromCore then refuse abGate
  else if !installFits b || s.keyStatus (field b 0 1) ≠ 0 then refuse abRange
  else accept (burnKey b)

/-- A write of KeyInstall. -/
def execKeyInstall (t : Nat) (w : Wr) (s : State) : Host.Outcome State Fault Refusal :=
  perform t (writeBy 0x3130 1 effKeyInstall w) s

/-- KeyRevoke (R459): never the last signing key with usage F. -/
def effKeyRevoke : Effect := fun s w =>
  let last := signingSlot w.val && s.keyLive w.val && bit (s.keyStatus w.val) 0 && s.firmwareKeys == 1
  if isPrint s.mode then refuse abMode
  else if !keySlots.contains w.val || last then refuse abRange
  else accept (burnRevoke w.val)

/-- A write of KeyRevoke. -/
def execKeyRevoke (t : Nat) (w : Wr) (s : State) : Host.Outcome State Fault Refusal :=
  perform t (writeBy 0x3130 2 effKeyRevoke w) s

/-- The refusal code of a read, 0 for none (R57, R64, R66, R87). -/
def checkRead (s : State) (idx sub : Nat) : Nat :=
  if !s.reachable then abGeneral
  else
    match s.entry idx sub with
    | none => if s.hasIndex idx then abSub else abIndex
    | some e => if !s.served idx then abGeneral else if e.acc = .wo then abReadWo else 0

/-- A refused read (R64, R68): the window reads 0 and its code is recorded. -/
def readRefused (p : WPath) (code : Nat) : Act :=
  match p with
  | .core k => .read fun s => .seq (when (k < 8 && s.islandReady islCTL) (put (K.WindowAbortCode + k) code))
      (send (.reply p 0 0))
  | p => send (.abort p code)

/-- The token that a key gives for a nonce (R460). -/
def tokenFor (key nonce : List Nat) (node : Nat) : List Nat :=
  (hmac256 key ([0x54, 0x4F, 0x4B, 0x45, 0x4E] ++ nonce ++ [node])).take 16

/-- RoleToken (R460): for the CAN path alone. -/
def effRoleToken : Effect := fun s w =>
  let b := leBytes 17 w.val
  let id := field b 0 1
  let good := match s.sec.nonce with
    | some (n, t0) => decide (s.now < t0 + 1000000000) && roleSlot id && s.keyLive id
        && b.drop 1 == tokenFor (s.keyBytes id) n s.can.nodeId
    | none => false
  if w.path ≠ .can || s.lockedOut pathCan then refuse abGate
  else if !good then ⟨abGate, proofFailed pathCan⟩
  else accept (.seq (put K.CanRole (roleOf id))
    (.prim (.can fun c => { c with roleUntil := some (s.now + s.reg K.CanRoleTimeout * 1000000000) })))

/-- A write of RoleToken. -/
def execRoleToken (t : Nat) (w : Wr) (s : State) : Host.Outcome State Fault Refusal :=
  perform t (writeBy 0x3110 2 effRoleToken w) s

/-- CanRoleTimeout has passed since the token (R460). -/
def execCanRoleTimeout (t : Nat) (s : State) : Host.Outcome State Fault Refusal :=
  perform t (.read fun s => when (s.can.roleUntil.any fun u => decide (u ≤ s.now)) endCanRole) s

/-- A lockout ends on a path (R460). -/
def execLockoutEnd (t path : Nat) (s : State) : Host.Outcome State Fault Refusal :=
  perform t (.read fun s =>
    .prim (.sec fun x => { x with lockedUntil := x.lockedUntil.filter fun l => l.1 != path || decide (s.now < l.2) })) s

/-- PackageLoad (R462, R465). -/
def effPackageLoad : Effect := fun s w =>
  if !([1, 3, 4].contains w.val) then refuse abRange
  else if s.sec.loading.isSome || s.comp.checking then ⟨abMode, refusePackage 1⟩
  else accept (.seq (put K.PackageState 1) (.prim (.sec fun x => { x with loading := some w.val })))

/-- PackageLoad 1. -/
def execPackageLoadFirmware (t : Nat) (w : Wr) (s : State) : Host.Outcome State Fault Refusal :=
  perform t (writeBy 0x3102 1 effPackageLoad { w with val := 1 }) s

/-- PackageLoad 3. -/
def execPackageLoadDebugGrant (t : Nat) (w : Wr) (s : State) : Host.Outcome State Fault Refusal :=
  perform t (writeBy 0x3102 1 effPackageLoad { w with val := 3 }) s

/-- PackageLoad 4. -/
def execPackageLoadLifecycle (t : Nat) (w : Wr) (s : State) : Host.Outcome State Fault Refusal :=
  perform t (writeBy 0x3102 1 effPackageLoad { w with val := 4 }) s

/-- Returned is entered (R457): keys, configuration, records and the protected payload go. -/
def enterReturned : Act :=
  seqs [advanceLifecycle 3, returnedSteps, forgetPackage, .prim (.erase protectedStart 0x1000000)]

/-- A record of a lifecycle package acts (R461): what is already done succeeds without change. -/
def lifecycleRecord (r : List Nat) : Act :=
  .read fun s =>
    match field r 0 1 with
    | 1 => when (s.keyStatus (field r 1 1) == 0) (burnKey (r.drop 1))
    | 2 => burnRevoke (field r 1 1)
    | 3 => enterReturned
    | _ => .skip

/-- What an accepted package does (R461, R465, R470). -/
def packageActs (kind : Nat) (payload : List Nat) : Act :=
  .read fun s =>
    if kind = 1 then put K.PackageState 2
    else
      .seq (.seq (put K.PackageState 3) (.prim (.sec fun x => { x with loading := none })))
        (if kind = 3 then
          let left := field payload 0 6 * 1000000000 - (ptpSec s.ptp * 1000000000 + ptpNs s.ptp)
          seqs [
            .prim (.sec fun x => { x with grant := some (field payload 8 2, s.now + left) }),
            put K.GrantExpiry (field payload 0 6), syncDebug ]
         else each (lifecycleRecords (payload.length / 104) payload) lifecycleRecord)

/-- A package check completes (R462). -/
def execPackageCheckDone (t : Nat) (s : State) : Host.Outcome State Fault Refusal :=
  perform t (.read fun s =>
    match s.sec.loading with
    | none => .skip
    | some kind =>
      let code := s.packageRefusal packageInboxAt 8388832 kind false
      let payload := s.bytesAt (packageInboxAt + 224) (Memory.value s.mem (packageInboxAt + 12) 4)
      if s.reg K.PackageState ≠ 1 then .skip
      else if code ≠ 0 then
        seqs [put K.PackageState 4, .prim (.sec fun x => { x with loading := none }), refusePackage code]
      else .seq (put K.PackageRefusal 0) (packageActs kind payload)) s

/-- A customer image is written and read back (R465): the slot that is not running is preferred from then on. -/
def execPackageWriteDone (t : Nat) (readBackOk : Bool) (s : State) : Host.Outcome State Fault Refusal :=
  perform t (.read fun s =>
    if s.reg K.PackageState ≠ 2 || s.sec.loading.isNone then .skip
    else
      let run := s.reg K.BootSlotRun
      let other := if run = 0 then 1 else if run = 1 then 0 else 1 - s.reg K.BootSlotPreferred
      .seq (.prim (.sec fun x => { x with loading := none }))
        (if readBackOk then .seq (put K.BootSlotPreferred other) (put K.PackageState 3)
         else put K.PackageState 4)) s

/-- SecurityVersionCommit (R464): in Secured, within the 64 steps of the fuses. -/
def effVersionCommit : Effect := fun s w =>
  let v := s.reg K.FirmwareSecurityVersion
  if s.reg K.LifecycleState ≠ 2 then refuse abMode
  else if w.val ≠ 1 then accept .skip
  else if 64 < v then refuse abRange
  else accept (put K.SecurityVersionFloor (max v (s.reg K.SecurityVersionFloor)))

/-- A write of SecurityVersionCommit. -/
def execSecurityVersionCommit (t : Nat) (w : Wr) (s : State) : Host.Outcome State Fault Refusal :=
  perform t (writeBy 0x3101 6 effVersionCommit w) s

/-- A path may read the performance counters (R468, R471). -/
def State.countersReadable (s : State) (p : WPath) : Bool :=
  match p with
  | .session i =>
    (s.session? i).isSome && s.reg K.DebugLevelActual != 0
      && (if s.reg K.LifecycleState = 3 then s.role p == 2 else decide (1 ≤ s.role p))
  | _ => false

/-- A read of PerformanceCounters: one snapshot, whose values the spec leaves open. -/
def countersRead (p : WPath) : Act :=
  .read fun s =>
    if !s.reachable then readRefused p abGeneral
    else if !s.countersReadable p then readRefused p abGate
    else drawFree fun v => send (.reply p (v % 2 ^ 16384) 2048)

/-- A read of PerformanceCounters. -/
def execPerformanceCountersRead (t : Nat) (path : WPath) (s : State) : Host.Outcome State Fault Refusal :=
  perform t (countersRead path) s

/-- BYPASS: one bit, which captures 0, between TDI and TDO (R466). -/
def bypass (tdi n : Nat) : Act := send (.ball .tdo (tdi * 2 % 2 ^ n))

/-- Capture, shift and update of the boundary cells, which capture a free value; `drive` where the cells drive the
balls (R466). -/
def boundaryScan (tdi n : Nat) (drive : Bool) : Act :=
  drawFree fun v =>
    let held := v % 2 ^ Config.boundaryLength + tdi * 2 ^ Config.boundaryLength
    seqs [
      send (.ball .tdo (held % 2 ^ n)),
      .prim (.sec fun x => { x with boundary := held / 2 ^ n % 2 ^ Config.boundaryLength }),
      .read fun s => when drive (send (.pins (some s.sec.boundary))) ]

/-- The test port executes BYPASS, shifting n bits. -/
def execJtagBypass (t tdi n : Nat) (s : State) : Host.Outcome State Fault Refusal := perform t (bypass tdi n) s

/-- The test port executes IDCODE. -/
def execJtagIdcode (t tdi n : Nat) (s : State) : Host.Outcome State Fault Refusal :=
  perform t (send (.ball .tdo ((Config.idCode.toNat + tdi * 2 ^ 32) % 2 ^ n))) s

/-- The test port executes SAMPLE/PRELOAD. -/
def execJtagSamplePreload (t tdi n : Nat) (s : State) : Host.Outcome State Fault Refusal :=
  perform t (boundaryScan tdi n false) s

/-- The test port executes EXTEST, while RESET_N is low; otherwise the instruction is not implemented and selects
BYPASS. -/
def execJtagExtest (t tdi n : Nat) (resetLow : Bool) (s : State) : Host.Outcome State Fault Refusal :=
  perform t (if resetLow then boundaryScan tdi n true else bypass tdi n) s

/-- The test port executes CLAMP, while RESET_N is low: the cells drive the balls. -/
def execJtagClamp (t tdi n : Nat) (resetLow : Bool) (s : State) : Host.Outcome State Fault Refusal :=
  perform t (.seq (.read fun s => when resetLow (send (.pins (some s.sec.boundary)))) (bypass tdi n)) s

/-- The test port executes HIGHZ, while RESET_N is low: the balls are released. -/
def execJtagHighz (t tdi n : Nat) (resetLow : Bool) (s : State) : Host.Outcome State Fault Refusal :=
  perform t (.seq (when resetLow (send (.pins none))) (bypass tdi n)) s

end Sys2Proof.Machine
end

