-- ==== Sys2Proof/Machine/Dictionary.lean ====
section
/-! DEFINITION. Sys2Proof/Machine/Dictionary.lean: the object dictionary as its three paths reach it: the owner of
every entry (R65), what a read returns (R57, R67, R70–R76), writes of any entry, string staging (R69), the event
entries (R78–R80) and the configuration area (R76). -/

namespace Sys2Proof.Machine

/-- The event that subindex `sub` of a route or count index stands for (R79). -/
def eventOf (idx sub : Nat) : Nat := if idx % 2 = 0 then sub - 1 else 127 + sub

/-- EventPending (R78): 1 bits clear. -/
def effPending (word : Nat) : Effect := fun _ w =>
  accept (.prim (.evClear (BitVec.ofNat 256 (w.val * 2 ^ (32 * word)))))

/-- EventMask (R78, R80). -/
def effMask (word : Nat) : Effect := fun s w =>
  let m := s.ev.mask.toNat
  let below := m % 2 ^ (32 * word)
  let above := m / 2 ^ (32 * (word + 1)) * 2 ^ (32 * (word + 1))
  accept (.prim (.evMask (BitVec.ofNat 256 (above + w.val * 2 ^ (32 * word) + below))))

/-- EventRoute (R79): reserved fields and reserved events take 0 only. -/
def effRoute (n : Nat) : Effect := fun _ w =>
  if w.val &&& 0x00FF0703 != w.val then refuse abRange
  else if reservedEvent n then (if w.val = 0 then accept .skip else refuse abRange)
  else accept (.prim (.evRoute n w.val))

/-- EventCount (R79): 0 clears. -/
def effCount (n : Nat) : Effect := fun _ w =>
  if w.val ≠ 0 then refuse abRange else accept (when (!reservedEvent n) (.prim (.evCount n 0)))

/-- ErrorFieldCount (R74): 0 clears the history. -/
def effErrorField : Effect := fun _ w => if w.val = 0 then accept (.prim .evHistory) else refuse abRange

/-- StoreParameters (R76): the present values of the entries, the routes and the masks go to the boot flash. An entry
that holds its default is not listed, since it loads as that default. -/
def effStore : Effect := fun s w =>
  if w.val ≠ 0x65766173 then refuse abRange
  else
    let now := SMap.put (SMap.over s.dict s.loop.staged) K.EmcyCobId s.emcyCob
    accept (.prim (.sys fun x => { x with
      saved := SMap.keep now s.savable, savedRoutes := s.ev.routes, savedMask := s.ev.mask }))

/-- RestoreDefaults (R76): the configuration area is erased. -/
def effRestore : Effect := fun _ w =>
  if w.val ≠ 0x64616F6C then refuse abRange
  else accept (.prim (.sys fun x => { x with saved := [], savedRoutes := [], savedMask := 0#256 }))

/-- The mapping entries in use of a PDO, as (index, subindex, bytes) (R74, CiA 301), the mapping index given. -/
def mappedOf (count : Nat) (entry : Nat → Nat) : List (Nat × Nat × Nat) :=
  (List.range count).map fun k => (entry k / 65536, entry k / 256 % 256, entry k % 256 / 8)

/-- The bytes that a mapping carries. -/
def mappedBytes (l : List (Nat × Nat × Nat)) : Nat := (l.map fun m => m.2.2).sum

/-- The mapping in force of a PDO, the mapping index given. -/
def State.mapping (s : State) (idx : Nat) : List (Nat × Nat × Nat) :=
  mappedOf (s.reg (idx * 256)) fun k => s.reg (idx * 256 + 1 + k)

/-- A PDO mapping entry (R74): at most 64 bytes in all. -/
def effMapping (idx sub : Nat) : Effect := fun s w =>
  let next := if sub = 0 then mappedOf w.val fun k => s.reg (idx * 256 + 1 + k)
    else mappedOf (s.reg (idx * 256)) fun k => if k + 1 = sub then w.val else s.reg (idx * 256 + 1 + k)
  if mappedBytes next ≤ 64 then accept (put (idx * 256 + sub) w.val) else refuse abRange

/-- The transmission types that a PDO serves (R74). -/
def pdoType (rpdo : Bool) (v : Nat) : Bool :=
  if rpdo then v ≤ 240 || v == 254 || v == 255 else (1 ≤ v && v ≤ 240) || v == 254

/-- A PDO communication entry (R74). -/
def effPdo (idx sub : Nat) : Effect := fun _ w =>
  if sub = 2 && !pdoType (idx < 0x1800) w.val then refuse abRange else accept (put (idx * 256 + sub) w.val)

/-- The rules of pages 0x10 to 0x1A. -/
def effComm (idx sub : Nat) : Effect :=
  if idx = 0x1003 then effErrorField
  else if idx = 0x1010 then effStore
  else if idx = 0x1011 then effRestore
  else if idx / 256 = 0x14 || idx / 256 = 0x18 then effPdo idx sub
  else if idx / 256 = 0x16 || idx / 256 = 0x1A then effMapping idx sub
  else plain (idx * 256 + sub)

/-- The rules of page 0x20. -/
def effSystem (idx sub : Nat) : Effect :=
  match idx * 256 + sub with
  | 0x201001 => effModeRequest
  | 0x201007 => effOrderlyStop
  | 0x201008 => effPowerCondition
  | key =>
    if idx = 0x2020 then effFunction sub
    else if idx = 0x2030 then effLinkInk (sub - 1)
    else plain key

/-- The rules of page 0x21. -/
def effEvents (idx sub : Nat) : Effect :=
  match idx with
  | 0x2100 => effPending (sub - 1)
  | 0x2101 => effMask (sub - 1)
  | 0x2110 => effRoute (eventOf idx sub)
  | 0x2111 => effRoute (eventOf idx sub)
  | 0x2120 => effCount (eventOf idx sub)
  | 0x2121 => effCount (eventOf idx sub)
  | _ => if idx * 256 + sub = 0x214202 then effLogSave else plain (idx * 256 + sub)

/-- PtpPort, PtpDomain and PtpSlaveOnly restart the choice of a master (R420; notes/assumptions/33.md). -/
def effClock (key : Nat) : Effect := fun s w =>
  accept (.seq (put key w.val) (when (s.reg key != w.val) restartClock))

/-- The rules of page 0x2E. -/
def effNetwork (idx sub : Nat) : Effect :=
  let key := idx * 256 + sub
  if 0x2E01 ≤ idx && idx ≤ 0x2E03 then effAddress key (sub - 1)
  else if idx = 0x2E30 && 2 ≤ sub && sub ≤ 10 then effCanTiming key
  else if idx = 0x2E30 && sub = 12 then effCanRecover
  else if idx = 0x2E40 && (sub = 1 || sub = 2 || sub = 7) then effClock key
  else plain key

/-- The rules of page 0x2F. -/
def effHealth (idx sub : Nat) : Effect :=
  match idx * 256 + sub with
  | 0x2F0005 => effTemperatureMax
  | 0x2F0301 => effThermalTrim
  | 0x2F1001 => effRecordSave
  | key => if idx = 0x2F01 && sub ≤ 3 then effThreshold key else plain key

/-- The rules of page 0x31. -/
def effSecurity (idx sub : Nat) : Effect :=
  match idx * 256 + sub with
  | 0x310002 => effLifecycle
  | 0x310106 => effVersionCommit
  | 0x310201 => effPackageLoad
  | 0x311002 => effRoleToken
  | 0x312001 => effDebugRequest
  | 0x313001 => effKeyInstall
  | 0x313002 => effKeyRevoke
  | key => plain key

/-- The rule of an entry's owner (R65). -/
def ownerEffect (idx sub : Nat) : Effect :=
  match idx / 256 with
  | 0x20 => effSystem idx sub
  | 0x21 => effEvents idx sub
  | 0x22 => if idx = 0x2203 && sub = 1 then effWarmReset
            else if idx = 0x2203 && sub = 2 then effIslandReset else plain (idx * 256 + sub)
  | 0x23 => effPosition idx sub
  | 0x24 => effCodec idx sub
  | 0x26 => effTone idx sub
  | 0x27 => effFire idx sub
  | 0x28 => effLinks idx sub
  | 0x29 => effCamera idx sub
  | 0x2A => effIllumination idx sub
  | 0x2B => effLoop idx sub
  | 0x2C => effMemory idx sub
  | 0x2D => effDma idx sub
  | 0x2E => effNetwork idx sub
  | 0x2F => effHealth idx sub
  | 0x30 => effBridle idx sub
  | 0x31 => effSecurity idx sub
  | 0x40 => effLink idx sub
  | 0x41 => effSlot idx sub
  | 0x42 => effCamera idx sub
  | 0x43 => effLayer idx sub
  | 0x44 => effDma idx sub
  | _ => if idx < 0x2000 then effComm idx sub else plain (idx * 256 + sub)

/-- A write of any entry, whose code goes to the path's continuation (R58, R64). -/
def writeAny (idx sub : Nat) (w : Wr) (k : Nat → Act) : Act :=
  seqs [
    when (idx * 256 + sub == K.ModeRequest) lockCheck,
    gateNote idx sub w,
    .read fun s =>
      let v := judge idx sub (ownerEffect idx sub) s w
      .seq (enact w.path v) (k v.code) ]

/-- ASCII text as bytes. -/
def ascii (t : String) : List Nat := t.toList.map Char.toNat

/-- A number in decimal. -/
def decimal (n : Nat) : List Nat := (Nat.toDigits 10 n).map Char.toNat

/-- The visible strings (R74): DeviceName, HardwareVersion and SoftwareVersion; the die revision's letter and digit are
the die's. -/
def State.text (s : State) (key : Nat) : List Nat :=
  if key = K.DeviceName then ascii "Swiery 820"
  else if key = K.HardwareVersion then
    ascii (if s.isH then "NGD-SW820-H " else "NGD-SW820-F ")
      ++ [Config.dieEntry key % 128, Config.dieEntry (key + 1) % 128]
  else if key = K.SoftwareVersion then
    (if s.reg K.BootSlotRun = 0xFF || !s.sys.served then ascii "C-"
     else ascii "C" ++ decimal (s.reg K.FirmwareSecurityVersion))
      ++ ascii "/V" ++ decimal s.sec.vendorVersion
  else (leBytes 2040 (s.reg key)).takeWhile (· != 0)

/-- Values of pages 0x10 to 0x1A as read. -/
def State.commView (s : State) (idx sub : Nat) : Nat :=
  match idx, sub with
  | 0x1001, _ => s.ev.errorRegister
  | 0x1003, 0 => s.ev.errorHist.length
  | 0x1003, k => s.ev.errorHist.getD (k - 1) 0
  | 0x1014, _ => s.emcyCob
  | 0x1018, 3 => Config.dieRevision % 65536 * 65536 + s.sec.vendorVersion % 65536
  | 0x1018, 4 => Config.dieSerial.toNat
  | _, _ => s.reg (idx * 256 + sub)

/-- Values of page 0x20 as read. -/
def State.systemView (s : State) (idx sub : Nat) : Nat :=
  if idx * 256 + sub = K.PartVariant then (if s.isH then 1 else 0)
  else if idx * 256 + sub = K.CompatibilityCount then Config.compatibility.length % 65536
  else if idx = 0x2031 && 0 < sub then s.inkLinkMask (sub - 1)
  else s.reg (idx * 256 + sub)

/-- Values of page 0x21 as read (R78, R79). -/
def State.eventView (s : State) (idx sub : Nat) : Nat :=
  if sub = 0 then s.reg (idx * 256)
  else match idx with
  | 0x2100 => bits s.ev.pending.toNat (32 * (sub - 1)) 32
  | 0x2101 => bits s.ev.mask.toNat (32 * (sub - 1)) 32
  | 0x2103 => if sub = 1 then s.ev.emcyDropped else s.ev.notifyDropped
  | 0x2110 => s.ev.route (eventOf idx sub)
  | 0x2111 => s.ev.route (eventOf idx sub)
  | 0x2120 => s.ev.count (eventOf idx sub)
  | 0x2121 => s.ev.count (eventOf idx sub)
  | _ => s.reg (idx * 256 + sub)

/-- Where an object of 0x5xxx lies; 0 where it is reached only through Tether (R70; notes/assumptions/13.md). -/
def State.storeAt (s : State) (idx : Nat) : Nat :=
  match idx with
  | 0x5400 => jobDirectoryAt
  | 0x5401 => streamTableAt
  | 0x5402 => slotBase
  | 0x5500 => protectedInboxAt
  | 0x5501 => scalerAt
  | 0x5602 => missingSetAt
  | 0x5603 => stitchBaseAt
  | 0x5610 => screenInboxAt
  | 0x5920 => columnRingAt
  | 0x5921 => ladderRequestsAt
  | 0x5B00 => nozzleTermAt
  | 0x5B01 => nozzleDensityAt
  | 0x5B02 => zoneStateAt
  | 0x5B03 => verdictRingAt
  | 0x5D00 => packageInboxAt
  | 0x5F00 => faultLogBase
  | 0x5F02 => faultTableBase
  | _ =>
    if idx = 0x5600 || idx = 0x5601 then bankAt (idx - 0x5600)
    else if 0x5611 ≤ idx && idx ≤ 0x5618 then
      let st := s.reg (K.ScreenSlotState + (idx - 0x5611))
      if bit st 31 then screenAt + bits st 16 9 * 32768 else 0
    else if 0x5700 ≤ idx && idx ≤ 0x5707 then waveAt (idx - 0x5700)
    else if 0x5900 ≤ idx && idx ≤ 0x5907 then coefficientAt (idx - 0x5900) false
    else if 0x5908 ≤ idx && idx ≤ 0x590F then coefficientAt (idx - 0x5908) true
    else if 0x5910 ≤ idx && idx ≤ 0x5917 then shareAt (idx - 0x5910)
    else if 0x5918 ≤ idx && idx ≤ 0x591F then statisticsAt + (idx - 0x5918) * 2097152
    else 0

/-- The sizes of the calibration records, kinds 1 to 8 (R438). -/
def State.recordSize (s : State) (kind : Nat) : Nat :=
  [if s.isH then 786432 else 1572864, 8, 256, 1048576, 16, 12288, 16, 4].getD (kind - 1) 0

/-- The size of an object of 0x5xxx in bytes (R70). -/
def State.storeSize (s : State) (idx : Nat) : Nat :=
  if idx = 0x5501 then 3072
  else if 0x5611 ≤ idx && idx ≤ 0x5618 then
    let st := s.reg (K.ScreenSlotState + (idx - 0x5611))
    if bit st 31 then arrayUnits (bits st 8 1) * 32768 else 0
  else if 0x5910 ≤ idx && idx ≤ 0x5917 then
    let p := idx - 0x5910
    if (s.prt p).conf.enable then 3145728 * (sharesOf p (s.reg K.FrameLines)).length else 0
  else if 0x5F10 ≤ idx && idx ≤ 0x5F17 then s.recordSize (idx - 0x5F0F)
  else s.reg (idx * 256 + 2)

/-- Values of the 0x5xxx entries as read (R70). -/
def State.storeView (s : State) (idx sub : Nat) : Nat :=
  match sub with
  | 1 => s.storeAt idx
  | 2 => s.storeSize idx
  | _ => s.reg (idx * 256 + sub)

/-- The value of an entry of fixed width as a reader reads it. -/
def State.view (s : State) (p : WPath) (idx sub : Nat) : Nat :=
  let key := idx * 256 + sub
  match idx / 256 with
  | 0x20 => s.systemView idx sub
  | 0x21 => s.eventView idx sub
  | 0x23 => (s.posView p idx sub).getD (s.reg key)
  | 0x2B => s.stagedReg key
  | 0x2D => if key = K.RequestLineLevel then s.lineLevels else s.reg key
  | 0x2E =>
    if idx = 0x2E00 && 0 < sub then (Config.macAddress (sub - 1)).toNat
    else if idx = 0x2E40 && 0x10 ≤ sub && sub ≤ 0x12 then s.timeView p sub
    else s.reg key
  | 0x31 => if key = K.LockoutRemaining then s.lockoutRemaining else s.reg key
  | 0x44 => if idx % 16 = 1 && sub = 1 then s.dmaShown ((idx - 0x4400) / 16) else s.reg key
  | _ => if idx < 0x2000 then s.commView idx sub else if 0x5000 ≤ idx then s.storeView idx sub else s.reg key

/-- The bytes of an entry as a reader reads it (R11, R14). -/
def State.entryBytes (s : State) (p : WPath) (e : Entry) (idx sub : Nat) : List Nat :=
  let key := idx * 256 + sub
  match e.ty with
  | .str => s.text key
  | .domVar _ => openBytes (s.reg key)
  | .dom n =>
    if key = K.DictionaryCompatibility then Config.compatibility.flatMap fun r => leBytes 8 r.toNat
    else leBytes n (s.reg key)
  | t => leBytes t.bytes (s.view p idx sub)

/-- A read of any entry, whose code and bytes go to the path's continuation (R57, R131, R418, R460). -/
def readAny (p : WPath) (idx sub : Nat) (k : Nat → List Nat → Act) : Act :=
  .read fun s =>
    let key := idx * 256 + sub
    let code := checkRead s idx sub
    let get : Act := .read fun s => k 0 ((s.entry idx sub).elim [] fun e => s.entryBytes p e idx sub)
    if code ≠ 0 then k code []
    else if key = K.WebPosition then .seq (latchWeb p) get
    else if key = K.TimeNowSeconds then .seq (latchTime p) get
    else if key = K.TokenChallenge then
      drawFree fun v => .read fun s =>
        let n := leBytes 16 v
        .seq (.prim (.sec fun x => { x with nonce := some (n, s.now) })) (k 0 n)
    else get

/-- A read answered on its path. -/
def readReply (p : WPath) (idx sub : Nat) : Act :=
  readAny p idx sub fun code b => if code = 0 then send (.reply p (leNat b) b.length) else readRefused p code

/-- A read of 0x2301:01 latches the entries 01–0A for its reader and answers the position (R131). -/
def execWebPositionLatch (t : Nat) (path : WPath) (s : State) : Host.Outcome State Fault Refusal :=
  perform t (readReply path 0x2301 1) s

/-- A read of 0x2E40:10 (R418). -/
def execTimeNowLatch (t : Nat) (path : WPath) (s : State) : Host.Outcome State Fault Refusal :=
  perform t (readReply path 0x2E40 0x10) s

/-- A read of TokenChallenge draws a nonce (R460). -/
def execTokenChallenge (t : Nat) (path : WPath) (s : State) : Host.Outcome State Fault Refusal :=
  perform t (readReply path 0x3110 1) s

/-- The window address of an entry's slot (R67). -/
def windowAddr (idx sub : Nat) : Nat := 0x40000000 + (idx - 0x1000) * 0x800 + sub * 8

/-- The index, the slot and the byte within the slot of a window address (R67). -/
def windowPlace (addr : Nat) : Nat × Nat × Nat :=
  let a := addr - 0x40000000
  (0x1000 + a / 0x800, a % 0x800 / 8, a % 8)

/-- What a window read of `width` bytes of an entry of fixed width returns in a state (R67, R68); the table has no
command of a plain window read (notes/assumptions/41.md). -/
def State.windowRead (s : State) (core idx sub width : Nat) : Nat :=
  match s.entry idx sub with
  | none => 0
  | some e =>
    if checkRead s idx sub ≠ 0 || !([1, 2, 4, 8].contains width) || width < e.ty.bytes then 0
    else
      let v := s.view (.core core) idx sub
      match e.ty with
      | .i n => rawOf width (signedOf n v)
      | _ => v

/-- The type is staged through the window (R69). -/
def Ty.staged : Ty → Bool
  | .str => true
  | t => t.isDomain

/-- The entry whose slots hold a slot of an index: the nearest present subindex at or below it (R69). -/
def State.slotOwner (s : State) (idx slot : Nat) : Option (Nat × Entry) :=
  (List.range (slot + 1)).reverse.findSome? fun sub => (s.entry idx sub).map fun e => (sub, e)

/-- Slots of an entry: up to the next subindex present, or to the end of its index (R69). -/
def State.slotsOf (s : State) (idx sub : Nat) : Nat :=
  (((List.range 256).find? fun k => sub < k && (s.entry idx k).isSome).getD 256) - sub

/-- The size of a staged DOMAIN: stated, or the one its own header gives (notes/assumptions/42.md). -/
def statedSize (key : Nat) (ty : Ty) (b : List Nat) : Nat :=
  match ty with
  | .dom n => n
  | _ =>
    if key = K.KeyInstall then (if signingSlot (field b 0 1) then 100 else 36)
    else if key / 65536 = 0x40 then (if field b 1 1 = 1 then 8 + 4 * field b 2 1 else 8)
    else if field b 0 1 = 1 then 8 + field b 3 1
    else 8

/-- The staged content is complete at a store of bytes `off` to `off + 8` (R69). -/
def stagedWhole (key : Nat) (ty : Ty) (slots off : Nat) (b : List Nat) : Bool :=
  match ty with
  | .str => ((b.drop off).take 8).contains 0 || 8 * slots ≤ off + 8 || 2040 ≤ off + 8
  | _ => statedSize key ty b ≤ off + 8

/-- The write that a complete staged content makes. -/
def stagedWrite (core key : Nat) (ty : Ty) (b : List Nat) : Wr :=
  match ty with
  | .str =>
    let t := (b.takeWhile (· != 0)).take 2040
    ⟨.core core, 0, t.length, leNat t⟩
  | _ => ⟨.core core, 0, statedSize key ty b, leNat (b.take (statedSize key ty b))⟩

/-- A staging store of 8 bytes (R69): checked, then staged; the object takes the content on the store that completes
it. -/
def stageStore (core addr val : Nat) : Act :=
  .read fun s =>
    let at' := windowPlace addr
    match s.slotOwner at'.1 at'.2.1 with
    | none => recordRefusal (.core core) (checkWrite s at'.1 at'.2.1 ⟨.core core, at'.2.2, 8, val⟩)
    | some (sub, e) =>
      let key := at'.1 * 256 + sub
      let off := (at'.2.1 - sub) * 8
      if !e.ty.staged then
        (if sub = at'.2.1 then writeAny at'.1 sub ⟨.core core, at'.2.2, 8, val⟩ fun _ => .skip
         else recordRefusal (.core core) (if s.reachable then abSub else abGeneral))
      else
        let code := checkWrite s at'.1 sub ⟨.core core, at'.2.2, min e.ty.bytes 2040, 0⟩
        if code ≠ 0 then recordRefusal (.core core) code
        else
          let start := leBytes 2048 (if e.acc = .wo then 0 else s.reg key)
          let held := match s.sys.staging.getD core none with
            | some (k, next, v) => if k = key && next ≤ off then leBytes 2048 v else start
            | none => start
          let b := held.take off ++ leBytes 8 val ++ held.drop (off + 8)
          let whole := stagedWhole key e.ty (s.slotsOf at'.1 sub) off b
          .seq
            (.prim (.sys fun x => { x with
              staging := x.staging.set core (if whole then none else some (key, off + 8, leNat b)) }))
            (when whole (writeAny at'.1 sub (stagedWrite core key e.ty b) fun _ => .skip))

/-- An 8-byte window store into a string or a small DOMAIN. -/
def execStringStagingStore (t core addr val : Nat) (s : State) : Host.Outcome State Fault Refusal :=
  perform t (when (core < 8 && 0x40000000 ≤ addr && addr < 0x42800000) (stageStore core addr (val % 2 ^ 64))) s

/-- The write is one access of a core's window into an object that is staged (R69). -/
def State.windowStaged (s : State) (idx sub : Nat) (w : Wr) : Option Nat :=
  match w.path, s.entry idx sub with
  | .core k, some e => if e.ty.staged && w.len ≤ 8 then some k else none
  | _, _ => none

/-- A write of an entry that has no command of its own. -/
def execDictionaryWrite (t idx sub : Nat) (w : Wr) (s : State) : Host.Outcome State Fault Refusal :=
  perform t (.read fun s =>
    match s.windowStaged idx sub w with
    | some k =>
      if w.len = 8 && w.off = 0 then stageStore k (windowAddr idx sub) (w.val % 2 ^ 64)
      else recordRefusal w.path abLength
    | none => writeAny idx sub w (answer w.path)) s

/-- EmcyInhibitTime has passed since the last EMCY (R81). -/
def execEmcyInhibitExpiry (t : Nat) (s : State) : Host.Outcome State Fault Refusal :=
  perform t (.prim .emcyNext) s

/-- A write of EventPending (R78). -/
def execEventPendingClear (t sub : Nat) (w : Wr) (s : State) : Host.Outcome State Fault Refusal :=
  perform t (writeBy 0x2100 sub (effPending (sub - 1)) w) s

/-- A write of EventMask (R78, R80). -/
def execEventMaskWrite (t sub : Nat) (w : Wr) (s : State) : Host.Outcome State Fault Refusal :=
  perform t (writeBy 0x2101 sub (effMask (sub - 1)) w) s

/-- The index of a route or count array that holds event n, and its subindex (R79). -/
def eventPlace (base n : Nat) : Nat × Nat := if n < 128 then (base, n + 1) else (base + 1, n - 127)

/-- A write of the route of event n (R79). -/
def execEventRouteWrite (t n : Nat) (w : Wr) (s : State) : Host.Outcome State Fault Refusal :=
  perform t (writeBy (eventPlace 0x2110 n).1 (eventPlace 0x2110 n).2 (effRoute n) w) s

/-- A write of the counter of event n (R79). -/
def execEventCountClear (t n : Nat) (w : Wr) (s : State) : Host.Outcome State Fault Refusal :=
  perform t (writeBy (eventPlace 0x2120 n).1 (eventPlace 0x2120 n).2 (effCount n) w) s

/-- A write of 0x1010:01. -/
def execStoreParameters (t : Nat) (w : Wr) (s : State) : Host.Outcome State Fault Refusal :=
  perform t (writeBy 0x1010 1 effStore w) s

/-- A write of 0x1011:01. -/
def execRestoreDefaults (t : Nat) (w : Wr) (s : State) : Host.Outcome State Fault Refusal :=
  perform t (writeBy 0x1011 1 effRestore w) s

/-- A write of ErrorFieldCount. -/
def execErrorFieldCountClear (t : Nat) (w : Wr) (s : State) : Host.Outcome State Fault Refusal :=
  perform t (writeBy 0x1003 0 effErrorField w) s

end Sys2Proof.Machine
end

