-- ==== Sys2Proof/Machine/Clients.lean ====
section
/-! DEFINITION. Sys2Proof/Machine/Clients.lean: the dictionary's clients on CAN and Tether: USDO, PDOs, heartbeats and
NMT (R72, R74, R92, R96), and Tether Requests (R412). -/

namespace Sys2Proof.Machine

/-- The coordinate that serves a request of a client version (R72): none where the entry was removed since. -/
def servedAt (version idx sub : Nat) : Option (Nat × Nat) :=
  let since := fun (r : Nat) => bits r 60 4 * 256 + bits r 56 4
  match (Config.compatibility.map BitVec.toNat).find? fun r =>
      bits r 0 16 == idx && bits r 16 8 == sub && version < since r with
  | none => some (idx, sub)
  | some r => if bit r 26 then none else some (bits r 32 16, bits r 48 8)

/-- The coordinate that serves the CAN path (R72). -/
def State.canAt (s : State) (idx sub : Nat) : Option (Nat × Nat) := servedAt (s.reg K.CanClientDictionaryVersion) idx sub

/-- The USDO server answers (R74, R92): pre-operational or operational. -/
def State.usdoServed (s : State) : Bool := s.canUp && (s.can.nmt == .preOperational || s.can.nmt == .operational)

/-- A USDO request (R72, R74): answered, or aborted with the code. -/
def execUsdoRequest (t : Nat) (req : DictOp) (s : State) : Host.Outcome State Fault Refusal :=
  perform t (.read fun s =>
    if !s.usdoServed then .skip
    else
      match req with
      | .read idx sub =>
        match s.canAt idx sub with
        | none => readRefused .can abIndex
        | some (i, k) => readReply .can i k
      | .write idx sub len val =>
        match s.canAt idx sub with
        | none => .seq (recordRefusal .can abIndex) (answer .can abIndex)
        | some (i, k) => writeAny i k ⟨.can, 0, len, val % 2 ^ (8 * len)⟩ (answer .can)) s

/-- A PDO may pass: its COB-ID is valid and the path operational (R74, R92). -/
def State.pdoOn (s : State) (key n : Nat) : Bool :=
  n < 8 && s.canUp && s.can.nmt == .operational && !bit (s.reg (key + n * 256)) 31

/-- The writes of a received RPDO (R74): each under the access rules, none answered. -/
def rpdoWrites : List (Nat × Nat × Nat) → List Nat → Act
  | [], _ => .skip
  | (idx, sub, n) :: rest, d =>
    .seq
      (.read fun s =>
        match s.canAt idx sub with
        | none => recordRefusal .can abIndex
        | some (i, k) => writeAny i k ⟨.can, 0, n, leNat (d.take n)⟩ fun _ => .skip)
      (rpdoWrites rest (d.drop n))

/-- An RPDO's data acts; data shorter than its mapping is discarded (notes/assumptions/9.md). -/
def rpdoActs (n : Nat) (d : List Nat) : Act :=
  .read fun s =>
    let m := s.mapping (0x1600 + n)
    when (mappedBytes m ≤ d.length) (rpdoWrites m d)

/-- An RPDO arrives (R74): types 254 and 255 act on receipt, 0 to 240 at the next SYNC. -/
def execRpdoReceived (t n : Nat) (data : List Nat) (s : State) : Host.Outcome State Fault Refusal :=
  perform t (.read fun s =>
    if !s.pdoOn K.RpdoCobId n then .skip
    else if s.reg (K.RpdoTransmission + n * 256) ≤ 240 then
      .prim (.can fun c => { c with rpdoHeld := c.rpdoHeld.set n (some data) })
    else rpdoActs n data) s

/-- The bytes that a mapped entry gives a TPDO: its value, or 0 where it may not be read (notes/assumptions/9.md). -/
def State.mappedValue (s : State) (m : Nat × Nat × Nat) : List Nat :=
  match s.canAt m.1 m.2.1 with
  | none => leBytes m.2.2 0
  | some (i, k) =>
    match s.entry i k with
    | some e => if checkRead s i k = 0 then ((s.entryBytes .can e i k) ++ leBytes m.2.2 0).take m.2.2 else leBytes m.2.2 0
    | none => leBytes m.2.2 0

/-- The data of a TPDO. -/
def State.tpdoData (s : State) (n : Nat) : List Nat := (s.mapping (0x1A00 + n)).flatMap s.mappedValue

/-- A TPDO is sent (R74). -/
def sendTpdo (n : Nat) : Act :=
  .read fun s =>
    let d := s.tpdoData n
    .seq (send (.can (s.reg (K.TpdoCobId + n * 256) % 2 ^ 29) d))
      (.prim (.can fun c => { c with tpdoSent := c.tpdoSent.set n (some d), tpdoAt := c.tpdoAt.set n (some s.now) }))

/-- The inhibit time since a TPDO was last sent has passed (R74, CiA 301: units of 100 µs). -/
def State.tpdoFree (s : State) (n : Nat) : Bool :=
  (s.can.tpdoAt.getD n none).all fun t => t + s.reg (K.TpdoInhibitTime + n * 256) * 100000 ≤ s.now

/-- A TPDO of a SYNC type counts the SYNCs to its next transmission. -/
def syncTpdo (n : Nat) : Act :=
  .read fun s =>
    let ty := s.reg (K.TpdoTransmission + n * 256)
    if !s.pdoOn K.TpdoCobId n || ty < 1 || 240 < ty then .skip
    else
      let c := s.can.tpdoSync.getD n 0 + 1
      .seq (.prim (.can fun x => { x with tpdoSync := x.tpdoSync.set n (if ty ≤ c then 0 else c) }))
        (when (ty ≤ c) (sendTpdo n))

/-- An RPDO held for SYNC acts. -/
def syncRpdo (n : Nat) : Act :=
  .read fun s =>
    match s.can.rpdoHeld.getD n none with
    | none => .skip
    | some d =>
      .seq (.prim (.can fun c => { c with rpdoHeld := c.rpdoHeld.set n none })) (when (s.pdoOn K.RpdoCobId n) (rpdoActs n d))

/-- A SYNC on CAN (R74). -/
def execCanSyncReceived (t : Nat) (s : State) : Host.Outcome State Fault Refusal :=
  perform t (.read fun s =>
    when (s.canUp && s.can.nmt == .operational)
      (.seq (each (List.range 8) syncRpdo) (each (List.range 8) syncTpdo))) s

/-- A TPDO's event timer, in ms, expires (R74). -/
def execTpdoEventTimer (t n : Nat) (s : State) : Host.Outcome State Fault Refusal :=
  perform t (.read fun s =>
    let ms := s.reg (K.TpdoEventTimer + n * 256)
    let due := (s.can.tpdoAt.getD n none).all fun t0 => t0 + ms * 1000000 ≤ s.now
    when (s.pdoOn K.TpdoCobId n && s.reg (K.TpdoTransmission + n * 256) == 254 && ms != 0 && due && s.tpdoFree n)
      (sendTpdo n)) s

/-- A TPDO whose mapped data has changed is sent (R74). -/
def execTpdoTransmit (t n : Nat) (s : State) : Host.Outcome State Fault Refusal :=
  perform t (.read fun s =>
    when (s.pdoOn K.TpdoCobId n && s.reg (K.TpdoTransmission + n * 256) == 254
        && s.can.tpdoSent.getD n none != some (s.tpdoData n) && s.tpdoFree n) (sendTpdo n)) s

/-- The state byte of a heartbeat (CiA 301). -/
def nmtByte : Nmt → Nat
  | .initialising => 0
  | .stopped => 4
  | .operational => 5
  | .preOperational => 127

/-- ProducerHeartbeatTime passes (R74). -/
def execHeartbeatProduce (t : Nat) (s : State) : Host.Outcome State Fault Refusal :=
  perform t (.read fun s =>
    when (s.canUp && s.reg K.ProducerHeartbeatTime != 0) (send (.can (0x700 + s.can.nodeId) [nmtByte s.can.nmt]))) s

/-- A consumed heartbeat is missed (R74): consumer k of 0x1016. -/
def execConsumerHeartbeatTimeout (t k : Nat) (s : State) : Host.Outcome State Fault Refusal :=
  perform t (.read fun s =>
    let v := s.reg (K.ConsumerHeartbeatTime + k)
    when (k < 4 && s.canUp && v % 65536 != 0 && bits v 16 8 != 0) commError) s

/-- An NMT command reaches this node (CiA 301): addressed to it, or to all. -/
def nmtCommand (t node : Nat) (a : Act) (s : State) : Host.Outcome State Fault Refusal :=
  perform t (.read fun s => when (s.canUp && (node == 0 || node == s.can.nodeId)) a) s

/-- NMT Start (R92). -/
def execNmtStart (t node : Nat) (s : State) : Host.Outcome State Fault Refusal :=
  nmtCommand t node (setNmt .operational) s

/-- NMT Stop (R96). -/
def execNmtStop (t node : Nat) (s : State) : Host.Outcome State Fault Refusal := nmtCommand t node (setNmt .stopped) s

/-- NMT Enter Pre-operational (R96). -/
def execNmtEnterPreOperational (t node : Nat) (s : State) : Host.Outcome State Fault Refusal :=
  nmtCommand t node (setNmt .preOperational) s

/-- The communication entries, 0x1000 to 0x1FFF. -/
def commKey (k : Nat) : Bool := 0x100000 ≤ k && k < 0x200000

/-- NMT Reset Communication (R96, R415, R416, R460): the communication entries return, the role ends, the bit timing
and the node-ID written are taken, and the path boots up again. -/
def resetCommunication : Act :=
  .read fun s =>
    seqs [
      .prim (.unset fun k => !commKey k),
      .prim (.load (s.savedOf commKey)),
      .prim .evHistory,
      endCanRole,
      .prim (.can fun c => { c with
        tpdoSent := List.replicate 8 none, tpdoAt := List.replicate 8 none, tpdoSync := List.replicate 8 0
        rpdoHeld := List.replicate 8 none }),
      raise 3,
      bootUp ]

/-- NMT Reset Communication. -/
def execNmtResetCommunication (t node : Nat) (s : State) : Host.Outcome State Fault Refusal :=
  nmtCommand t node resetCommunication s

/-- NMT Reset Node (R93, R96): a warm reset where NmtNodeResetMode is 1, else as Reset Communication. -/
def execNmtResetNode (t node : Nat) (s : State) : Host.Outcome State Fault Refusal :=
  nmtCommand t node (.read fun s => if s.reg K.NmtNodeResetMode = 1 then warmTrigger 6 else resetCommunication) s

/-- An operation of a Request (R412). -/
structure TetherOp where
  write : Bool
  sub : Nat
  idx : Nat
  off : Nat
  len : Nat
  data : List Nat
deriving DecidableEq, Repr

/-- The operations of a Request's payload, `n` of them and nothing after; none where it is malformed
(notes/assumptions/39.md). -/
def tetherOps : Nat → List Nat → Option (List TetherOp)
  | 0, l => if l.isEmpty then some [] else none
  | n + 1, l =>
    let len := field l 8 2
    let data := if field l 0 1 = 1 then (l.drop 12).take len else []
    if l.length < 12 || 1 < field l 0 1 || field l 10 2 ≠ 0 || (field l 0 1 = 1 && l.length < 12 + len) then none
    else
      (tetherOps n (l.drop (12 + data.length))).map fun ops =>
        ⟨field l 0 1 == 1, field l 1 1, field l 2 2, field l 4 4, len, data⟩ :: ops

/-- The objects that a client may write (R70 and the owners' tables). -/
def objectWritable (idx : Nat) : Bool :=
  [0x5500, 0x5600, 0x5601, 0x5603, 0x5610, 0x5921, 0x5D00].contains idx || (0x5700 ≤ idx && idx ≤ 0x5707)
    || (0x5900 ≤ idx && idx ≤ 0x5907)

/-- The objects in the boot flash and the one that is a snapshot (R70, R437, R438, R468). -/
def flashObject (idx : Nat) : Bool := idx == 0x5F01 || (0x5F10 ≤ idx && idx ≤ 0x5F17)

/-- The bytes that a calibration record gives; those the spec does not lay out are the caller's free values. -/
def CalRecord.bytes (r : CalRecord) (kind off n free : Nat) : List Nat :=
  let regs := fun (w : Nat) => (((recordKeys kind).flatMap fun k => leBytes w ((SMap.find r.regs k).getD 0)).drop off).take n
  let cell := fun (i : Nat) => (Memory.byte r.cells i).toNat
  match kind with
  | 1 => (List.range n).map fun i => cell (stitchBaseAt + off + i)
  | 2 => regs 1
  | 3 => regs 2
  | 4 => (List.range n).map fun i => cell (coefficientAt ((off + i) / 131072) true + (off + i) % 131072)
  | 5 => regs 1
  | 7 => regs 2
  | 8 => regs 2
  | _ => leBytes n free

/-- The bytes of a boot-flash object: what was saved last, free values where nothing was (notes/assumptions/5.md). -/
def State.flashBytes (s : State) (idx off n free : Nat) : List Nat :=
  if idx = 0x5F01 then ((s.health.savedLog.drop off).take n ++ leBytes n free).take n
  else
    match s.health.records.getD (idx - 0x5F10) none with
    | some r => (r.bytes (idx - 0x5F0F) off n free ++ leBytes n 0).take n
    | none => leBytes n free

/-- Offset access to an object of 0x5xxx (R69, R70, R412; notes/assumptions/39.md). -/
def objectOp (p : WPath) (op : TetherOp) (k : Nat → List Nat → Act) : Act :=
  .read fun s =>
    let at' := s.storeAt op.idx + op.off
    let dram := dramStart ≤ at'
    if (s.entry op.idx 1).isNone then k abIndex []
    else if !s.reachable || !s.served op.idx || s.health.shuttingDown then k abGeneral []
    else if op.write && !objectWritable op.idx then k abWriteRo []
    else if op.write && !Gate.i.admits (s.role p) (s.reg K.LifecycleState) then k abGate []
    else if op.idx = 0x5D10 && !s.countersReadable p then k abGate []
    else if s.storeSize op.idx < op.off + op.len then k abRange []
    else if op.idx = 0x5D10 || flashObject op.idx then
      drawFree fun v =>
        k 0 (if op.idx = 0x5D10 then leBytes op.len v else s.flashBytes op.idx op.off op.len v)
    else if dram && !s.dramUsable then k abGeneral []
    else if op.write then .seq (dmaStore at' op.data) (k 0 [])
    else if dram && s.poisoned at' op.len then k abGeneral []
    else k 0 (s.bytesAt at' op.len)

/-- The length of a read fits the entry (R64, R412): an entry of fixed width exactly, the others at least. -/
def State.readFits (s : State) (p : WPath) (idx sub len : Nat) : Bool :=
  match s.entry idx sub with
  | none => true
  | some e =>
    match e.ty with
    | .str => (s.entryBytes p e idx sub).length ≤ len
    | .domVar _ => (s.entryBytes p e idx sub).length ≤ len
    | .dom n => (if idx = 0x2002 then (s.entryBytes p e idx sub).length else n) ≤ len
    | t => len == t.bytes

/-- One operation of a Request of a session (R72, R409, R412), with `room` bytes left for its data in the Reply. -/
def tetherOp (i : Nat) (x : Session) (room : Nat) (op : TetherOp) (k : Nat → List Nat → Act) : Act :=
  let p := WPath.session i
  match servedAt x.client op.idx op.sub with
  | none => if op.write then .seq (recordRefusal p abIndex) (k abIndex []) else k abIndex []
  | some (idx, sub) =>
    let op := { op with idx := idx, sub := sub }
    let object := 0x5000 ≤ idx && idx < 0x6000 && sub == 0 && (op.off != 0 || op.len != 1)
    let refused := fun (code : Nat) => if op.write then Act.seq (recordRefusal p code) (k code []) else k code []
    if (x.version < 0x20 && 1024 < op.len) || (!op.write && room < op.len) then refused abLength
    else if object && 0x20 ≤ x.version then
      objectOp p op fun code b => if op.write && code ≠ 0 then .seq (recordRefusal p code) (k code b) else k code b
    else if op.write then writeAny idx sub ⟨p, op.off, op.len, leNat op.data⟩ fun code => k code []
    else
      .read fun s =>
        if checkRead s idx sub = 0 && (op.off != 0 || !s.readFits p idx sub op.len) then k abLength []
        else readAny p idx sub k

/-- The result of an operation in a Reply (R412). -/
def tetherResult (code : Nat) (b : List Nat) : List Nat := leBytes 4 code ++ leBytes 4 0 ++ leBytes 2 b.length ++ [0, 0] ++ b

/-- The operations of a Request in order (R412), the results so far given. -/
def tetherRun (i : Nat) (x : Session) : List TetherOp → List Nat → (List Nat → Act) → Act
  | [], got, k => k got
  | op :: rest, got, k =>
    tetherOp i x (1422 - got.length - 12 * (rest.length + 1)) op fun code b =>
      tetherRun i x rest (got ++ tetherResult code b) k

/-- A Request dropped or discarded (R92, R412). -/
def requestDropped : Act := addTo K.RequestsDropped 4 1

/-- A Request (R92, R412). -/
def execTetherRequest (t : Nat) (host : Host4) (data : List Nat) (s : State) : Host.Outcome State Fault Refusal :=
  perform t (.read fun s =>
    if s.islandReady islNET && !s.sys.dictReady then when (tetherShape 6 data) requestDropped
    else
      withSession 6 host data fun i x =>
        let seq := field data 8 4
        let pay := tetherPayload data
        let count := field pay 0 2
        if seq = x.seq && !x.reply.isEmpty then sendUdp host x.reply
        else if seq ≠ (x.seq + 1) % 2 ^ 32 then requestDropped
        else if pay.length < 2 || count = 0 || (if x.version < 0x21 then 1 else 16) < count then requestDropped
        else
          match tetherOps count (pay.drop 2) with
          | none => requestDropped
          | some ops =>
            tetherRun i x ops [] fun got =>
              let reply := tetherMessage x.key x.version 7 x.id seq (leBytes 2 count ++ got)
              .seq (setSession i fun y => { y with seq := seq, reply := reply }) (sendUdp host reply)) s

end Sys2Proof.Machine
end

