-- ==== Sys2Proof/Machine/Dispatch.lean ====
section
/-! DEFINITION. Sys2Proof/Machine/Dispatch.lean: one arm per command, each one call of its meaning. -/

namespace Sys2Proof.Machine

/-- The effect of a command on everything but the queue. -/
def exec (i : Instr) (s : State) : Host.Outcome State Fault Refusal :=
  match i with
  | .powerOnReset t cold => Sys2Proof.Machine.execPowerOnReset t cold s
  | .supplyMonitorTrip t group => Sys2Proof.Machine.execSupplyMonitorTrip t group s
  | .islandReady t isl => Sys2Proof.Machine.execIslandReady t isl s
  | .firmwareVerified t vendor slotA slotB => Sys2Proof.Machine.execFirmwareVerified t vendor slotA slotB s
  | .dictionaryReady t => Sys2Proof.Machine.execDictionaryReady t s
  | .canBootUp t => Sys2Proof.Machine.execCanBootUp t s
  | .warmResetRequest t w => Sys2Proof.Machine.execWarmResetRequest t w s
  | .warmrstNLow t width => Sys2Proof.Machine.execWarmrstNLow t width s
  | .watchdogExpired t realTime => Sys2Proof.Machine.execWatchdogExpired t realTime s
  | .islandResetRequest t w => Sys2Proof.Machine.execIslandResetRequest t w s
  | .powerConditionRequest t w => Sys2Proof.Machine.execPowerConditionRequest t w s
  | .wakeIn t => Sys2Proof.Machine.execWakeIn t s
  | .cfWakeActivity t => Sys2Proof.Machine.execCfWakeActivity t s
  | .pgoodMainTimeout t => Sys2Proof.Machine.execPgoodMainTimeout t s
  | .modeRequest t w => Sys2Proof.Machine.execModeRequest t w s
  | .modeChangeAtBoundary t => Sys2Proof.Machine.execModeChangeAtBoundary t s
  | .modeTransitionEnd t => Sys2Proof.Machine.execModeTransitionEnd t s
  | .orderlyStopRequest t w => Sys2Proof.Machine.execOrderlyStopRequest t w s
  | .functionDisable t f w => Sys2Proof.Machine.execFunctionDisable t f w s
  | .functionEnable t f w => Sys2Proof.Machine.execFunctionEnable t f w s
  | .functionDrainComplete t f queued => Sys2Proof.Machine.execFunctionDrainComplete t f queued s
  | .linkInkWrite t l w => Sys2Proof.Machine.execLinkInkWrite t l w s
  | .slackPeriodEnd t c => Sys2Proof.Machine.execSlackPeriodEnd t c s
  | .slackSlotGrant t owner len boundary => Sys2Proof.Machine.execSlackSlotGrant t owner len boundary s
  | .throttlePauseEnd t c => Sys2Proof.Machine.execThrottlePauseEnd t c s
  | .dictionaryWrite t idx sub w => Sys2Proof.Machine.execDictionaryWrite t idx sub w s
  | .stringStagingStore t core addr val => Sys2Proof.Machine.execStringStagingStore t core addr val s
  | .emcyInhibitExpiry t => Sys2Proof.Machine.execEmcyInhibitExpiry t s
  | .eventPendingClear t sub w => Sys2Proof.Machine.execEventPendingClear t sub w s
  | .eventMaskWrite t sub w => Sys2Proof.Machine.execEventMaskWrite t sub w s
  | .eventRouteWrite t n w => Sys2Proof.Machine.execEventRouteWrite t n w s
  | .eventCountClear t n w => Sys2Proof.Machine.execEventCountClear t n w s
  | .storeParameters t w => Sys2Proof.Machine.execStoreParameters t w s
  | .restoreDefaults t w => Sys2Proof.Machine.execRestoreDefaults t w s
  | .errorFieldCountClear t w => Sys2Proof.Machine.execErrorFieldCountClear t w s
  | .usdoRequest t req => Sys2Proof.Machine.execUsdoRequest t req s
  | .rpdoReceived t n data => Sys2Proof.Machine.execRpdoReceived t n data s
  | .canSyncReceived t => Sys2Proof.Machine.execCanSyncReceived t s
  | .tpdoEventTimer t n => Sys2Proof.Machine.execTpdoEventTimer t n s
  | .tpdoTransmit t n => Sys2Proof.Machine.execTpdoTransmit t n s
  | .heartbeatProduce t => Sys2Proof.Machine.execHeartbeatProduce t s
  | .consumerHeartbeatTimeout t k => Sys2Proof.Machine.execConsumerHeartbeatTimeout t k s
  | .nmtStart t node => Sys2Proof.Machine.execNmtStart t node s
  | .nmtStop t node => Sys2Proof.Machine.execNmtStop t node s
  | .nmtEnterPreOperational t node => Sys2Proof.Machine.execNmtEnterPreOperational t node s
  | .nmtResetCommunication t node => Sys2Proof.Machine.execNmtResetCommunication t node s
  | .nmtResetNode t node => Sys2Proof.Machine.execNmtResetNode t node s
  | .inputEdge t ch a b nodes => Sys2Proof.Machine.execInputEdge t ch a b nodes s
  | .analogueSample t n sin cos mark nodes => Sys2Proof.Machine.execAnalogueSample t n sin cos mark nodes s
  | .sincosTrimCalibration t n fit => Sys2Proof.Machine.execSincosTrimCalibration t n fit s
  | .serialRead t n datHigh => Sys2Proof.Machine.execSerialRead t n datHigh s
  | .serialWord t n word nodes => Sys2Proof.Machine.execSerialWord t n word nodes s
  | .serialTimeout t n => Sys2Proof.Machine.execSerialTimeout t n s
  | .standstill t ch => Sys2Proof.Machine.execStandstill t ch s
  | .copyLengthWrite t ch w => Sys2Proof.Machine.execCopyLengthWrite t ch w s
  | .softLimitWrite t ch high w => Sys2Proof.Machine.execSoftLimitWrite t ch high w s
  | .positionPreset t ch w => Sys2Proof.Machine.execPositionPreset t ch w s
  | .channelTypeWrite t ch w => Sys2Proof.Machine.execChannelTypeWrite t ch w s
  | .countingModeWrite t ch w => Sys2Proof.Machine.execCountingModeWrite t ch w s
  | .masterChannelWrite t w => Sys2Proof.Machine.execMasterChannelWrite t w s
  | .compareValueWrite t k w => Sys2Proof.Machine.execCompareValueWrite t k w s
  | .compareChannelWrite t k w => Sys2Proof.Machine.execCompareChannelWrite t k w s
  | .compareFiredClear t w => Sys2Proof.Machine.execCompareFiredClear t w s
  | .comparePulseEnd t k => Sys2Proof.Machine.execComparePulseEnd t k s
  | .emulationEdge t k => Sys2Proof.Machine.execEmulationEdge t k s
  | .webPositionLatch t path => Sys2Proof.Machine.execWebPositionLatch t path s
  | .ingestData t host data => Sys2Proof.Machine.execIngestData t host data s
  | .ackInterval t => Sys2Proof.Machine.execAckInterval t s
  | .nackDelay t flow => Sys2Proof.Machine.execNackDelay t flow s
  | .nackRetry t flow => Sys2Proof.Machine.execNackRetry t flow s
  | .flowIdleTimeout t flow => Sys2Proof.Machine.execFlowIdleTimeout t flow s
  | .refetchResend t stream => Sys2Proof.Machine.execRefetchResend t stream s
  | .refetchDeadline t stream => Sys2Proof.Machine.execRefetchDeadline t stream s
  | .jobDelete t w => Sys2Proof.Machine.execJobDelete t w s
  | .stripDecodeStart t lane stream strip => Sys2Proof.Machine.execStripDecodeStart t lane stream strip s
  | .stripDecodeEnd t lane => Sys2Proof.Machine.execStripDecodeEnd t lane s
  | .decodeResume t lane => Sys2Proof.Machine.execDecodeResume t lane s
  | .inputSpoolResume t lane w => Sys2Proof.Machine.execInputSpoolResume t lane w s
  | .encodeCommand t lane w => Sys2Proof.Machine.execEncodeCommand t lane w s
  | .encodeDone t lane => Sys2Proof.Machine.execEncodeDone t lane s
  | .flushRequest t lane w => Sys2Proof.Machine.execFlushRequest t lane w s
  | .flushDone t lane => Sys2Proof.Machine.execFlushDone t lane s
  | .spoolResume t lane w => Sys2Proof.Machine.execSpoolResume t lane w s
  | .composeLine t ink line parity => Sys2Proof.Machine.execComposeLine t ink line parity s
  | .copyDecision t => Sys2Proof.Machine.execCopyDecision t s
  | .layerCommit t l w => Sys2Proof.Machine.execLayerCommit t l w s
  | .layerEmptyCommit t l w => Sys2Proof.Machine.execLayerEmptyCommit t l w s
  | .fenceReached t l w => Sys2Proof.Machine.execFenceReached t l w s
  | .protectedLoad t w => Sys2Proof.Machine.execProtectedLoad t w s
  | .protectedLayerLoaded t => Sys2Proof.Machine.execProtectedLayerLoaded t s
  | .decideDropLine t ink parity => Sys2Proof.Machine.execDecideDropLine t ink parity s
  | .missingNozzleMark t w => Sys2Proof.Machine.execMissingNozzleMark t w s
  | .missingNozzleClear t w => Sys2Proof.Machine.execMissingNozzleClear t w s
  | .compensationBuild t => Sys2Proof.Machine.execCompensationBuild t s
  | .bankCopyRequest t w => Sys2Proof.Machine.execBankCopyRequest t w s
  | .bankCopyDone t => Sys2Proof.Machine.execBankCopyDone t s
  | .bankCommit t w => Sys2Proof.Machine.execBankCommit t w s
  | .bankCommitChecked t => Sys2Proof.Machine.execBankCommitChecked t s
  | .bankCommitCancel t w => Sys2Proof.Machine.execBankCommitCancel t w s
  | .screenArrayLoad t w => Sys2Proof.Machine.execScreenArrayLoad t w s
  | .screenArrayCommitted t => Sys2Proof.Machine.execScreenArrayCommitted t s
  | .screenArrayRelease t w => Sys2Proof.Machine.execScreenArrayRelease t w s
  | .rowLineIssue t => Sys2Proof.Machine.execRowLineIssue t s
  | .telemetryTimeout t l slot => Sys2Proof.Machine.execTelemetryTimeout t l slot s
  | .headRecovered t l slot => Sys2Proof.Machine.execHeadRecovered t l slot s
  | .tickleReady t => Sys2Proof.Machine.execTickleReady t s
  | .wavePushRequest t w => Sys2Proof.Machine.execWavePushRequest t w s
  | .waveAck t l slot data => Sys2Proof.Machine.execWaveAck t l slot data s
  | .waveAckTimeout t l slot => Sys2Proof.Machine.execWaveAckTimeout t l slot s
  | .wavePushCancel t w => Sys2Proof.Machine.execWavePushCancel t w s
  | .waveBankSwitch t ty w => Sys2Proof.Machine.execWaveBankSwitch t ty w s
  | .serviceSpit t w => Sys2Proof.Machine.execServiceSpit t w s
  | .servicePurge t w => Sys2Proof.Machine.execServicePurge t w s
  | .serviceLadder t w => Sys2Proof.Machine.execServiceLadder t w s
  | .serviceCancel t w => Sys2Proof.Machine.execServiceCancel t w s
  | .spitPulse t => Sys2Proof.Machine.execSpitPulse t s
  | .purgeEnd t => Sys2Proof.Machine.execPurgeEnd t s
  | .tempCurveWrite t l slot w => Sys2Proof.Machine.execTempCurveWrite t l slot w s
  | .statusRecord t l data => Sys2Proof.Machine.execStatusRecord t l data s
  | .bankReport t l slot data => Sys2Proof.Machine.execBankReport t l slot data s
  | .lateRecord t l slot data => Sys2Proof.Machine.execLateRecord t l slot data s
  | .rejectedRecord t l slot data => Sys2Proof.Machine.execRejectedRecord t l slot data s
  | .nozzleFlag t l slot data => Sys2Proof.Machine.execNozzleFlag t l slot data s
  | .cfgReply t l slot data => Sys2Proof.Machine.execCfgReply t l slot data s
  | .syncEcho t l data arrival => Sys2Proof.Machine.execSyncEcho t l data arrival s
  | .returnPacketRejected t l cause => Sys2Proof.Machine.execReturnPacketRejected t l cause s
  | .markerLock t l marker => Sys2Proof.Machine.execMarkerLock t l marker s
  | .linkUpTimeout t l => Sys2Proof.Machine.execLinkUpTimeout t l s
  | .trainingBlockReceived t l block n => Sys2Proof.Machine.execTrainingBlockReceived t l block n s
  | .linkLoss t l cause => Sys2Proof.Machine.execLinkLoss t l cause s
  | .linkRestart t l w => Sys2Proof.Machine.execLinkRestart t l w s
  | .linkVersionLimitWrite t l w => Sys2Proof.Machine.execLinkVersionLimitWrite t l w s
  | .prbsModeOn t l w => Sys2Proof.Machine.execPrbsModeOn t l w s
  | .prbsModeOff t l rx w => Sys2Proof.Machine.execPrbsModeOff t l rx w s
  | .amPeriod t l errors => Sys2Proof.Machine.execAmPeriod t l errors s
  | .claimSend t => Sys2Proof.Machine.execClaimSend t s
  | .headCfgRequest t l w => Sys2Proof.Machine.execHeadCfgRequest t l w s
  | .cfgTimeout t l => Sys2Proof.Machine.execCfgTimeout t l s
  | .recalibrationRequest t w => Sys2Proof.Machine.execRecalibrationRequest t w s
  | .recalibrationStep t l margin => Sys2Proof.Machine.execRecalibrationStep t l margin s
  | .csiPacket t p pkt => Sys2Proof.Machine.execCsiPacket t p pkt s
  | .frameEnd t p => Sys2Proof.Machine.execFrameEnd t p s
  | .frameTimeout t p => Sys2Proof.Machine.execFrameTimeout t p s
  | .lineStage t p => Sys2Proof.Machine.execLineStage t p s
  | .frameStageTake t p => Sys2Proof.Machine.execFrameStageTake t p s
  | .statisticsReady t => Sys2Proof.Machine.execStatisticsReady t s
  | .portCommit t p w => Sys2Proof.Machine.execPortCommit t p w s
  | .coefficientCommit t p w => Sys2Proof.Machine.execCoefficientCommit t p w s
  | .cciRequest t p w => Sys2Proof.Machine.execCciRequest t p w s
  | .cciDone t p status data => Sys2Proof.Machine.execCciDone t p status data s
  | .flatFieldCaptureRequest t w => Sys2Proof.Machine.execFlatFieldCaptureRequest t w s
  | .flatFieldCapture t p => Sys2Proof.Machine.execFlatFieldCapture t p s
  | .darkCapture t p => Sys2Proof.Machine.execDarkCapture t p s
  | .portRestart t p w => Sys2Proof.Machine.execPortRestart t p w s
  | .pulseEnd t c sum n clip isns vsns vend => Sys2Proof.Machine.execPulseEnd t c sum n clip isns vsns vend s
  | .stageCurrentFault t c => Sys2Proof.Machine.execStageCurrentFault t c s
  | .gapLinePulse t => Sys2Proof.Machine.execGapLinePulse t s
  | .diagnosticRound t => Sys2Proof.Machine.execDiagnosticRound t s
  | .illuminationCommit t w => Sys2Proof.Machine.execIlluminationCommit t w s
  | .illuminationRestart t w => Sys2Proof.Machine.execIlluminationRestart t w s
  | .zoneCaptureRequest t w => Sys2Proof.Machine.execZoneCaptureRequest t w s
  | .overlapCalibrationRequest t w => Sys2Proof.Machine.execOverlapCalibrationRequest t w s
  | .substitutionCalibrationRequest t w => Sys2Proof.Machine.execSubstitutionCalibrationRequest t w s
  | .wasteVerdict t => Sys2Proof.Machine.execWasteVerdict t s
  | .dramAccess t sc reqs read => Sys2Proof.Machine.execDramAccess t sc reqs read s
  | .accessError t who addr write => Sys2Proof.Machine.execAccessError t who addr write s
  | .deviceMarkClear t sc w => Sys2Proof.Machine.execDeviceMarkClear t sc w s
  | .alertN t sc writeCrc => Sys2Proof.Machine.execAlertN t sc writeCrc s
  | .refreshInterval t sc busy => Sys2Proof.Machine.execRefreshInterval t sc busy s
  | .pageIdleTimer t sc => Sys2Proof.Machine.execPageIdleTimer t sc s
  | .fullTraining t sc point first second intact => Sys2Proof.Machine.execFullTraining t sc point first second intact s
  | .trackingStep t sc drift => Sys2Proof.Machine.execTrackingStep t sc drift s
  | .zqCalibration t => Sys2Proof.Machine.execZqCalibration t s
  | .retrainRequest t w => Sys2Proof.Machine.execRetrainRequest t w s
  | .frequencyChange t took => Sys2Proof.Machine.execFrequencyChange t took s
  | .scrubUnit t read => Sys2Proof.Machine.execScrubUnit t read s
  | .ringAreaSizeWrite t w => Sys2Proof.Machine.execRingAreaSizeWrite t w s
  | .channelStart t c w => Sys2Proof.Machine.execChannelStart t c w s
  | .dmaBurst t bad => Sys2Proof.Machine.execDmaBurst t bad s
  | .move t c => Sys2Proof.Machine.execMove t c s
  | .fill t c => Sys2Proof.Machine.execFill t c s
  | .compare t c => Sys2Proof.Machine.execCompare t c s
  | .loop t c => Sys2Proof.Machine.execLoop t c s
  | .endloop t c => Sys2Proof.Machine.execEndloop t c s
  | .wait t c => Sys2Proof.Machine.execWait t c s
  | .waitEnd t c => Sys2Proof.Machine.execWaitEnd t c s
  | .waitTimeout t c => Sys2Proof.Machine.execWaitTimeout t c s
  | .signal t c => Sys2Proof.Machine.execSignal t c s
  | .stop t c => Sys2Proof.Machine.execStop t c s
  | .channelStop t c w => Sys2Proof.Machine.execChannelStop t c w s
  | .dmaTimer t k => Sys2Proof.Machine.execDmaTimer t k s
  | .softRequestWrite t w => Sys2Proof.Machine.execSoftRequestWrite t w s
  | .ethernetFrame t port data dwell fec fecBad => Sys2Proof.Machine.execEthernetFrame t port data dwell fec fecBad s
  | .arpRequest t port mac ip target => Sys2Proof.Machine.execArpRequest t port mac ip target s
  | .icmpEcho t port src target ident seq data fragment => Sys2Proof.Machine.execIcmpEcho t port src target ident seq data fragment s
  | .portLinkChange t port up => Sys2Proof.Machine.execPortLinkChange t port up s
  | .addressChange t idx port w => Sys2Proof.Machine.execAddressChange t idx port w s
  | .tetherHello t host vmin vmax keyId nonce client notify => Sys2Proof.Machine.execTetherHello t host vmin vmax keyId nonce client notify s
  | .tetherOpen t host data => Sys2Proof.Machine.execTetherOpen t host data s
  | .challengeTimeout t => Sys2Proof.Machine.execChallengeTimeout t s
  | .tetherRequest t host data => Sys2Proof.Machine.execTetherRequest t host data s
  | .tetherNotifyAck t host data => Sys2Proof.Machine.execTetherNotifyAck t host data s
  | .notifyRetry t session => Sys2Proof.Machine.execNotifyRetry t session s
  | .tetherKeepAlive t host data => Sys2Proof.Machine.execTetherKeepAlive t host data s
  | .tetherClose t host data => Sys2Proof.Machine.execTetherClose t host data s
  | .sessionTimeout t session => Sys2Proof.Machine.execSessionTimeout t session s
  | .canBusOff t txe rxe => Sys2Proof.Machine.execCanBusOff t txe rxe s
  | .canAutoRecover t => Sys2Proof.Machine.execCanAutoRecover t s
  | .canRecover t w => Sys2Proof.Machine.execCanRecover t w s
  | .ptpSync t port domain src logInt origin corr => Sys2Proof.Machine.execPtpSync t port domain src logInt origin corr s
  | .ptpAnnounce t port domain src logInt data => Sys2Proof.Machine.execPtpAnnounce t port domain src logInt data s
  | .announceTimeout t => Sys2Proof.Machine.execAnnounceTimeout t s
  | .ptpDelayMessage t port domain request sent remote corr => Sys2Proof.Machine.execPtpDelayMessage t port domain request sent remote corr s
  | .ptpMasterSync t => Sys2Proof.Machine.execPtpMasterSync t s
  | .diodeASample t code => Sys2Proof.Machine.execDiodeASample t code s
  | .diodeBSample t code => Sys2Proof.Machine.execDiodeBSample t code s
  | .thermalTrimReference t w => Sys2Proof.Machine.execThermalTrimReference t w s
  | .thermalTrimReading t => Sys2Proof.Machine.execThermalTrimReading t s
  | .faultLogSave t w => Sys2Proof.Machine.execFaultLogSave t w s
  | .calibrationRecordSave t w => Sys2Proof.Machine.execCalibrationRecordSave t w s
  | .calibrationAutoSave t => Sys2Proof.Machine.execCalibrationAutoSave t s
  | .pairStart t => Sys2Proof.Machine.execPairStart t s
  | .heartbeatSend t => Sys2Proof.Machine.execHeartbeatSend t s
  | .heartbeatReceived t nc data => Sys2Proof.Machine.execHeartbeatReceived t nc data s
  | .mirrorFrame t data => Sys2Proof.Machine.execMirrorFrame t data s
  | .peerAbsent t => Sys2Proof.Machine.execPeerAbsent t s
  | .takeoverGuardEnd t => Sys2Proof.Machine.execTakeoverGuardEnd t s
  | .returnPair t => Sys2Proof.Machine.execReturnPair t s
  | .lifecycleAdvance t w => Sys2Proof.Machine.execLifecycleAdvance t w s
  | .keyInstall t w => Sys2Proof.Machine.execKeyInstall t w s
  | .keyRevoke t w => Sys2Proof.Machine.execKeyRevoke t w s
  | .tokenChallenge t path => Sys2Proof.Machine.execTokenChallenge t path s
  | .roleToken t w => Sys2Proof.Machine.execRoleToken t w s
  | .canRoleTimeout t => Sys2Proof.Machine.execCanRoleTimeout t s
  | .lockoutEnd t path => Sys2Proof.Machine.execLockoutEnd t path s
  | .packageLoadFirmware t w => Sys2Proof.Machine.execPackageLoadFirmware t w s
  | .packageLoadDebugGrant t w => Sys2Proof.Machine.execPackageLoadDebugGrant t w s
  | .packageLoadLifecycle t w => Sys2Proof.Machine.execPackageLoadLifecycle t w s
  | .packageCheckDone t => Sys2Proof.Machine.execPackageCheckDone t s
  | .packageWriteDone t readBackOk => Sys2Proof.Machine.execPackageWriteDone t readBackOk s
  | .securityVersionCommit t w => Sys2Proof.Machine.execSecurityVersionCommit t w s
  | .debugLevelRequest t w => Sys2Proof.Machine.execDebugLevelRequest t w s
  | .grantExpiry t => Sys2Proof.Machine.execGrantExpiry t s
  | .performanceCountersRead t path => Sys2Proof.Machine.execPerformanceCountersRead t path s
  | .jtagBypass t tdi n => Sys2Proof.Machine.execJtagBypass t tdi n s
  | .jtagIdcode t tdi n => Sys2Proof.Machine.execJtagIdcode t tdi n s
  | .jtagSamplePreload t tdi n => Sys2Proof.Machine.execJtagSamplePreload t tdi n s
  | .jtagExtest t tdi n resetLow => Sys2Proof.Machine.execJtagExtest t tdi n resetLow s
  | .jtagClamp t tdi n resetLow => Sys2Proof.Machine.execJtagClamp t tdi n resetLow s
  | .jtagHighz t tdi n resetLow => Sys2Proof.Machine.execJtagHighz t tdi n resetLow s
  | .returnClockValid t l => Sys2Proof.Machine.execReturnClockValid t l s
  | .alertNDeasserted t sc window => Sys2Proof.Machine.execAlertNDeasserted t sc window s
  | .pgoodMainHigh t => Sys2Proof.Machine.execPgoodMainHigh t s
  | .timeNowLatch t path => Sys2Proof.Machine.execTimeNowLatch t path s
  | .calibrationRecordWritten t => Sys2Proof.Machine.execCalibrationRecordWritten t s
  | .dramInitialised t => Sys2Proof.Machine.execDramInitialised t s
  | .dmaTimerWidthEnd t k => Sys2Proof.Machine.execDmaTimerWidthEnd t k s

end Sys2Proof.Machine
end

