-- ==== Sys2Proof/Safety.lean ====
section
/-! DEFINITION. Sys2Proof/Safety.lean: the terms in which statements speak of a run: the invariant of the block's
plain data, what a command leaves alone, and a command that completes with an effect. -/

namespace Sys2Proof.Machine

/-- The event unit is in order (R74, R77, R79, R81, R82, R84): maps with rising keys, nothing of a reserved event
pending, counted or routed, reserved route fields 0, counters of 32 bits, queues within their lengths, and only AON's
events held. -/
def Ev.inv (e : Ev) : Bool :=
  SMap.wf e.counts && SMap.wf e.routes && SMap.wf e.totals
    && ((List.range 256).all fun n => !(reservedEvent n && e.pending.getLsbD n))
    && (e.counts.all fun p => !reservedEvent p.1 && decide (p.2 < 2 ^ 32))
    && (e.routes.all fun p => !reservedEvent p.1 && p.2 &&& 0x00FF0703 == p.2)
    && e.held.all aonEvent
    && decide (e.emcyQueue.length ≤ 16) && decide (e.errorHist.length ≤ 16)
    && e.notify.length == 8 && e.notify.all fun nt => decide (nt.q.length ≤ 1024)

/-- The invariant of the block's plain data: memory and registers in canonical form, the event unit in order. -/
def State.inv (s : State) : Bool := Memory.wf s.mem && SMap.wf s.dict && s.ev.inv

/-- The lists of the block's parts have one entry per part: 14 position channels, 4 emulations, 2 sine/cosine fits under
way, 32 decode lanes, 4 encoders, 8 layers, 192 heads of 4 rows, 16 links, 8 camera ports, 16 DMA channels, 4
subchannels, 128 flows, 8 sessions, 8 TPDOs and 8 calibration records. -/
def State.shape (s : State) : Bool :=
  s.pos.chans.length == 14 && s.pos.emus.length == 4 && s.pos.trimFirst.length == 2
    && s.codec.lanes.length == 32 && s.codec.encs.length == 4 && s.comp.layers.length == 8
    && s.fire.heads.length == 192 && (s.fire.heads.all fun h => h.rows.length == 4)
    && s.link.links.length == 16 && s.cam.ports.length == 8 && s.dma.chans.length == 16
    && s.dram.alert.length == 4 && s.dram.asserted.length == 4
    && s.net.flows.length == 128 && s.net.sessions.length == 8 && s.net.challenges.length == 8
    && s.can.tpdoAt.length == 8 && s.can.tpdoSync.length == 8 && s.health.records.length == 8

/-- The state in which a command of instant `t` acts: time has moved on, and no output stands from before. -/
def State.begun (s : State) (t : Nat) : State := { s with now := max s.now t, out := [] }

/-- The dictionary admits a write of an entry (R57, R59, R62–R64), which carries the value `v`. -/
def State.takes (s : State) (idx sub : Nat) (w : Wr) (v : Nat) : Prop :=
  ∃ e, s.entry idx sub = some e ∧ checkWrite s idx sub w = 0 ∧ v = valueOf e.ty w

/-- The pieces of State that a frame speaks of. Outputs and the sessions' own numbering of Notifies are no piece: any
command may send (R413). -/
inductive Piece where
  | mem | dict | ev | sys | can | pos | codec | comp | tone | fire | link | cam | ill | loop | dram | dma | net | time
  | health | bridle | sec
deriving DecidableEq, Repr

/-- Two states agree on a piece. -/
def Piece.same : Piece → State → State → Prop
  | .mem, b, u => u.mem = b.mem
  | .dict, b, u => u.dict = b.dict
  | .ev, b, u => u.ev = b.ev
  | .sys, b, u => u.sys = b.sys
  | .can, b, u => u.can = b.can
  | .pos, b, u => u.pos = b.pos
  | .codec, b, u => u.codec = b.codec
  | .comp, b, u => u.comp = b.comp
  | .tone, b, u => u.tone = b.tone
  | .fire, b, u => u.fire = b.fire
  | .link, b, u => u.link = b.link
  | .cam, b, u => u.cam = b.cam
  | .ill, b, u => u.ill = b.ill
  | .loop, b, u => u.loop = b.loop
  | .dram, b, u => u.dram = b.dram
  | .dma, b, u => u.dma = b.dma
  | .net, b, u => u.net.flows = b.net.flows ∧ u.net.refetches = b.net.refetches ∧ u.net.challenges = b.net.challenges
  | .time, b, u => u.time = b.time
  | .health, b, u => u.health = b.health
  | .bridle, b, u => u.bridle = b.bridle
  | .sec, b, u => u.sec = b.sec

/-- From `b` to `u` nothing changes outside the pieces listed. -/
def State.only (b : State) (l : List Piece) (u : State) : Prop := ∀ p : Piece, p ∉ l → p.same b u

/-- From `b` to `u` every register outside the keys listed reads as before. -/
def State.regsBut (b : State) (keys : List Nat) (u : State) : Prop := ∀ k, k ∉ keys → u.reg k = b.reg k

/-- From `b` to `u` the events listed have come to be pending where an event can arise (R77). -/
def State.raised (b : State) (events : List Nat) (u : State) : Prop :=
  b.islandReady islCTL = true → ∀ n ∈ events, u.ev.pending.getLsbD n = true

/-- What every power-on reset leaves (R86, R91, R93, R96): the cause, Ready, no island ready, the dictionary
unreachable, nothing pending, AON's events held until CTL is ready (R84), no claim on the pair, and every byte of the
map at its power-on content. -/
def State.poweredOn (u : State) (cause : Nat) (held : List Nat) : Prop :=
  u.reg K.ResetCause = cause ∧ u.mode = mReady ∧ u.sys.dictReady = false ∧ u.sys.deep = false
  ∧ (∀ i, 1 ≤ i → i ≤ 12 → u.islandReady i = false)
  ∧ u.ev.pending = 0#256 ∧ u.ev.held = held ∧ .ball .claimOut 0 ∈ u.out
  ∧ ∀ a, a < 2 ^ 40 → Memory.byte u.mem a = Memory.unlisted a

/-- What a warm reset leaves (R84, R93, R94, R96): the cause, one more counted, the dictionary unreachable, event 1 held,
every island but AON and TIME in reset, the release 40 µs later, and no claim. -/
def State.warmlyReset (b : State) (cause : Nat) (u : State) : Prop :=
  u.reg K.ResetCause = cause ∧ u.reg K.WarmResetCount = (b.reg K.WarmResetCount + 1) % 2 ^ 32
  ∧ u.sys.warming = true ∧ u.sys.dictReady = false ∧ u.sys.releaseAt = b.now + 40000 ∧ 1 ∈ u.ev.held
  ∧ (∀ i, 2 ≤ i → i ≤ 11 → u.islandReady i = false) ∧ u.islandReady islTIME = b.islandReady islTIME
  ∧ u.reg K.ClaimActual = 0 ∧ .ball .claimOut 0 ∈ u.out

/-- A write that a path makes is refused with a code (R64, R68): a core finds the code in its WindowAbortCode, CAN and
Tether in the reply, event 12 comes to be pending, and nothing else changes. -/
def State.refusedWith (b : State) (p : WPath) (code : Nat) (u : State) : Prop :=
  b.only [.dict, .ev] u ∧ b.raised [12] u
  ∧ match p with
    | .core k => (k < 8 → b.islandReady islCTL = true → u.reg (K.WindowAbortCode + k) = code)
        ∧ b.regsBut [K.WindowAbortCode + k] u
    | p => u.dict = b.dict ∧ .abort p code ∈ u.out

/-- The command completes from every state whose begun state meets `pre`, with an effect that relates the state it
acts in to the state it leaves. -/
def Completes (c : Instr) (t : Nat) (pre : State → Prop) (post : State → State → Prop) : Prop :=
  ∀ s, pre (s.begun t) → ∃ u, exec c s = .next u ∧ post (s.begun t) u

end Sys2Proof.Machine
end

