-- ==== Sys2Proof/WellFormed.lean ====
section
/-! DEFINITION. Sys2Proof/WellFormed.lean: the operands a command may carry: instance numbers within the full part's
counts (R1), widths, bytes and addresses within their fields. A meaning is total on every operand all the same. -/

namespace Sys2Proof

/-- A path of R56: cores 0 to 7, CAN, sessions 0 to 7. -/
def WPath.wf : WPath → Bool
  | .core k => k < 8
  | .can => true
  | .session i => i < 8

/-- A write's value fits its width (R67). -/
def Wr.wf (w : Wr) : Bool := w.path.wf && w.off < 8 && w.val < 2 ^ (8 * w.len)

/-- A far side: a port, an address and a UDP port in their fields. -/
def Host4.wf (h : Host4) : Bool := h.nic < 3 && h.ip < 2 ^ 32 && h.udp < 65536

/-- A list of bytes. -/
def isBytes (l : List Nat) : Bool := l.all fun b => b < 256

/-- The operands of a command lie in their ranges. -/
def Instr.wf : Instr → Bool
  | .powerOnReset _ _ => true
  | .supplyMonitorTrip _ group => 1 ≤ group && group ≤ 5
  | .islandReady _ isl => 1 ≤ isl && isl ≤ 12
  | .firmwareVerified _ _ _ _ => true
  | .dictionaryReady _ => true
  | .canBootUp _ => true
  | .warmResetRequest _ w => w.wf
  | .warmrstNLow _ _ => true
  | .watchdogExpired _ _ => true
  | .islandResetRequest _ w => w.wf
  | .powerConditionRequest _ w => w.wf
  | .wakeIn _ => true
  | .cfWakeActivity _ => true
  | .pgoodMainTimeout _ => true
  | .modeRequest _ w => w.wf
  | .modeChangeAtBoundary _ => true
  | .modeTransitionEnd _ => true
  | .orderlyStopRequest _ w => w.wf
  | .functionDisable _ f w => (1 ≤ f && f ≤ 11) && w.wf
  | .functionEnable _ f w => (1 ≤ f && f ≤ 11) && w.wf
  | .functionDrainComplete _ f _ => (1 ≤ f && f ≤ 11)
  | .linkInkWrite _ l w => l < 16 && w.wf
  | .slackPeriodEnd _ c => 1 ≤ c && c ≤ 8
  | .slackSlotGrant _ owner _ _ => owner < 8
  | .throttlePauseEnd _ c => 1 ≤ c && c ≤ 8
  | .dictionaryWrite _ idx sub w => idx < 65536 && sub < 256 && w.wf
  | .stringStagingStore _ core addr val => core < 8 && addr < 2 ^ 40 && val < 2 ^ 64
  | .emcyInhibitExpiry _ => true
  | .eventPendingClear _ sub w => sub < 256 && w.wf
  | .eventMaskWrite _ sub w => sub < 256 && w.wf
  | .eventRouteWrite _ n w => n < 256 && w.wf
  | .eventCountClear _ n w => n < 256 && w.wf
  | .storeParameters _ w => w.wf
  | .restoreDefaults _ w => w.wf
  | .errorFieldCountClear _ w => w.wf
  | .usdoRequest _ _ => true
  | .rpdoReceived _ n data => n < 8 && isBytes data
  | .canSyncReceived _ => true
  | .tpdoEventTimer _ n => n < 8
  | .tpdoTransmit _ n => n < 8
  | .heartbeatProduce _ => true
  | .consumerHeartbeatTimeout _ k => k < 4
  | .nmtStart _ node => node < 128
  | .nmtStop _ node => node < 128
  | .nmtEnterPreOperational _ node => node < 128
  | .nmtResetCommunication _ node => node < 128
  | .nmtResetNode _ node => node < 128
  | .inputEdge _ ch _ _ _ => ch < 14
  | .analogueSample _ n _ _ _ _ => n < 2
  | .sincosTrimCalibration _ n _ => n < 2
  | .serialRead _ n _ => n < 4
  | .serialWord _ n word _ => n < 4 && word < 2 ^ 64
  | .serialTimeout _ n => n < 4
  | .standstill _ ch => ch < 14
  | .copyLengthWrite _ ch w => ch < 14 && w.wf
  | .softLimitWrite _ ch _ w => ch < 14 && w.wf
  | .positionPreset _ ch w => ch < 14 && w.wf
  | .channelTypeWrite _ ch w => ch < 14 && w.wf
  | .countingModeWrite _ ch w => ch < 14 && w.wf
  | .masterChannelWrite _ w => w.wf
  | .compareValueWrite _ k w => k < 32 && w.wf
  | .compareChannelWrite _ k w => k < 32 && w.wf
  | .compareFiredClear _ w => w.wf
  | .comparePulseEnd _ k => k < 4
  | .emulationEdge _ k => k < 4
  | .webPositionLatch _ path => path.wf
  | .ingestData _ host data => host.wf && isBytes data
  | .ackInterval _ => true
  | .nackDelay _ flow => flow < 128
  | .nackRetry _ flow => flow < 128
  | .flowIdleTimeout _ flow => flow < 128
  | .refetchResend _ stream => stream < 2 ^ 32
  | .refetchDeadline _ stream => stream < 2 ^ 32
  | .jobDelete _ w => w.wf
  | .stripDecodeStart _ lane stream strip => lane < 32 && stream < 2 ^ 32 && strip < 2 ^ 32
  | .stripDecodeEnd _ lane => lane < 32
  | .decodeResume _ lane => lane < 32
  | .inputSpoolResume _ lane w => lane < 32 && w.wf
  | .encodeCommand _ lane w => lane < 4 && w.wf
  | .encodeDone _ lane => lane < 4
  | .flushRequest _ lane w => lane < 4 && w.wf
  | .flushDone _ lane => lane < 4
  | .spoolResume _ lane w => lane < 4 && w.wf
  | .composeLine _ ink _ _ => ink < 8
  | .copyDecision _ => true
  | .layerCommit _ l w => l < 8 && w.wf
  | .layerEmptyCommit _ l w => l < 8 && w.wf
  | .fenceReached _ l w => l < 8 && w.wf
  | .protectedLoad _ w => w.wf
  | .protectedLayerLoaded _ => true
  | .decideDropLine _ ink _ => ink < 8
  | .missingNozzleMark _ w => w.wf
  | .missingNozzleClear _ w => w.wf
  | .compensationBuild _ => true
  | .bankCopyRequest _ w => w.wf
  | .bankCopyDone _ => true
  | .bankCommit _ w => w.wf
  | .bankCommitChecked _ => true
  | .bankCommitCancel _ w => w.wf
  | .screenArrayLoad _ w => w.wf
  | .screenArrayCommitted _ => true
  | .screenArrayRelease _ w => w.wf
  | .rowLineIssue _ => true
  | .telemetryTimeout _ l slot => l < 16 && slot < 12
  | .headRecovered _ l slot => l < 16 && slot < 12
  | .tickleReady _ => true
  | .wavePushRequest _ w => w.wf
  | .waveAck _ l slot data => l < 16 && slot < 12 && isBytes data
  | .waveAckTimeout _ l slot => l < 16 && slot < 12
  | .wavePushCancel _ w => w.wf
  | .waveBankSwitch _ ty w => ty < 8 && w.wf
  | .serviceSpit _ w => w.wf
  | .servicePurge _ w => w.wf
  | .serviceLadder _ w => w.wf
  | .serviceCancel _ w => w.wf
  | .spitPulse _ => true
  | .purgeEnd _ => true
  | .tempCurveWrite _ l slot w => l < 16 && slot < 12 && w.wf
  | .statusRecord _ l data => l < 16 && isBytes data
  | .bankReport _ l slot data => l < 16 && slot < 16 && isBytes data
  | .lateRecord _ l slot data => l < 16 && slot < 16 && isBytes data
  | .rejectedRecord _ l slot data => l < 16 && slot < 16 && isBytes data
  | .nozzleFlag _ l slot data => l < 16 && slot < 16 && isBytes data
  | .cfgReply _ l slot data => l < 16 && slot < 16 && isBytes data
  | .syncEcho _ l data _ => l < 16 && isBytes data
  | .returnPacketRejected _ l _ => l < 16
  | .markerLock _ l marker => l < 16 && marker < 256
  | .linkUpTimeout _ l => l < 16
  | .trainingBlockReceived _ l _ _ => l < 16
  | .linkLoss _ l _ => l < 16
  | .linkRestart _ l w => l < 16 && w.wf
  | .linkVersionLimitWrite _ l w => l < 16 && w.wf
  | .prbsModeOn _ l w => l < 16 && w.wf
  | .prbsModeOff _ l rx w => l < 16 && rx < 8 && w.wf
  | .amPeriod _ l _ => l < 16
  | .claimSend _ => true
  | .headCfgRequest _ l w => l < 16 && w.wf
  | .cfgTimeout _ l => l < 16
  | .recalibrationRequest _ w => w.wf
  | .recalibrationStep _ l _ => l < 16
  | .csiPacket _ p _ => p < 8
  | .frameEnd _ p => p < 8
  | .frameTimeout _ p => p < 8
  | .lineStage _ p => p < 8
  | .frameStageTake _ p => p < 8
  | .statisticsReady _ => true
  | .portCommit _ p w => p < 8 && w.wf
  | .coefficientCommit _ p w => p < 8 && w.wf
  | .cciRequest _ p w => p < 8 && w.wf
  | .cciDone _ p status data => p < 8 && status < 256 && isBytes data
  | .flatFieldCaptureRequest _ w => w.wf
  | .flatFieldCapture _ p => p < 8
  | .darkCapture _ p => p < 8
  | .portRestart _ p w => p < 8 && w.wf
  | .pulseEnd _ c _ _ _ _ _ _ => c < 16
  | .stageCurrentFault _ c => c < 16
  | .gapLinePulse _ => true
  | .diagnosticRound _ => true
  | .illuminationCommit _ w => w.wf
  | .illuminationRestart _ w => w.wf
  | .zoneCaptureRequest _ w => w.wf
  | .overlapCalibrationRequest _ w => w.wf
  | .substitutionCalibrationRequest _ w => w.wf
  | .wasteVerdict _ => true
  | .dramAccess _ sc _ _ => sc < 4
  | .accessError _ _ addr _ => addr < 2 ^ 40
  | .deviceMarkClear _ sc w => sc < 4 && w.wf
  | .alertN _ sc _ => sc < 4
  | .refreshInterval _ sc _ => sc < 4
  | .pageIdleTimer _ sc => sc < 4
  | .fullTraining _ sc _ _ _ _ => sc < 4
  | .trackingStep _ sc _ => sc < 4
  | .zqCalibration _ => true
  | .retrainRequest _ w => w.wf
  | .frequencyChange _ _ => true
  | .scrubUnit _ _ => true
  | .ringAreaSizeWrite _ w => w.wf
  | .channelStart _ c w => c < 16 && w.wf
  | .dmaBurst _ _ => true
  | .move _ c => c < 16
  | .fill _ c => c < 16
  | .compare _ c => c < 16
  | .loop _ c => c < 16
  | .endloop _ c => c < 16
  | .wait _ c => c < 16
  | .waitEnd _ c => c < 16
  | .waitTimeout _ c => c < 16
  | .signal _ c => c < 16
  | .stop _ c => c < 16
  | .channelStop _ c w => c < 16 && w.wf
  | .dmaTimer _ k => k < 4
  | .softRequestWrite _ w => w.wf
  | .ethernetFrame _ port data _ _ _ => port < 3 && isBytes data
  | .arpRequest _ port mac ip target => port < 3 && mac < 2 ^ 48 && ip < 2 ^ 32 && target < 2 ^ 32
  | .icmpEcho _ port _ target ident _ data _ => port < 3 && target < 2 ^ 32 && ident < 65536 && isBytes data
  | .portLinkChange _ port _ => port < 3
  | .addressChange _ idx port w => idx < 65536 && port < 3 && w.wf
  | .tetherHello _ host vmin vmax keyId nonce client _ => host.wf && vmin < 256 && vmax < 256 && keyId < 256 && isBytes nonce && client < 65536
  | .tetherOpen _ host data => host.wf && isBytes data
  | .challengeTimeout _ => true
  | .tetherRequest _ host data => host.wf && isBytes data
  | .tetherNotifyAck _ host data => host.wf && isBytes data
  | .notifyRetry _ session => session < 8
  | .tetherKeepAlive _ host data => host.wf && isBytes data
  | .tetherClose _ host data => host.wf && isBytes data
  | .sessionTimeout _ session => session < 8
  | .canBusOff _ _ _ => true
  | .canAutoRecover _ => true
  | .canRecover _ w => w.wf
  | .ptpSync _ port domain _ _ _ _ => port < 3 && domain < 256
  | .ptpAnnounce _ port domain _ _ data => port < 3 && domain < 256 && isBytes data
  | .announceTimeout _ => true
  | .ptpDelayMessage _ port domain _ _ _ _ => port < 3 && domain < 256
  | .ptpMasterSync _ => true
  | .diodeASample _ _ => true
  | .diodeBSample _ _ => true
  | .thermalTrimReference _ w => w.wf
  | .thermalTrimReading _ => true
  | .faultLogSave _ w => w.wf
  | .calibrationRecordSave _ w => w.wf
  | .calibrationAutoSave _ => true
  | .pairStart _ => true
  | .heartbeatSend _ => true
  | .heartbeatReceived _ _ data => isBytes data
  | .mirrorFrame _ data => isBytes data
  | .peerAbsent _ => true
  | .takeoverGuardEnd _ => true
  | .returnPair _ => true
  | .lifecycleAdvance _ w => w.wf
  | .keyInstall _ w => w.wf
  | .keyRevoke _ w => w.wf
  | .tokenChallenge _ path => path.wf
  | .roleToken _ w => w.wf
  | .canRoleTimeout _ => true
  | .lockoutEnd _ path => 1 ≤ path && path ≤ 2
  | .packageLoadFirmware _ w => w.wf
  | .packageLoadDebugGrant _ w => w.wf
  | .packageLoadLifecycle _ w => w.wf
  | .packageCheckDone _ => true
  | .packageWriteDone _ _ => true
  | .securityVersionCommit _ w => w.wf
  | .debugLevelRequest _ w => w.wf
  | .grantExpiry _ => true
  | .performanceCountersRead _ path => path.wf
  | .jtagBypass _ _ _ => true
  | .jtagIdcode _ _ _ => true
  | .jtagSamplePreload _ _ _ => true
  | .jtagExtest _ _ _ _ => true
  | .jtagClamp _ _ _ _ => true
  | .jtagHighz _ _ _ _ => true
  | .returnClockValid _ l => l < 16
  | .alertNDeasserted _ sc _ => sc < 4
  | .pgoodMainHigh _ => true
  | .timeNowLatch _ path => path.wf
  | .calibrationRecordWritten _ => true
  | .dramInitialised _ => true
  | .dmaTimerWidthEnd _ k => k < 4

/-- The dictionary writes a command carries. -/
def Instr.writes : Instr → List Wr
  | .powerOnReset _ _ => []
  | .supplyMonitorTrip _ _ => []
  | .islandReady _ _ => []
  | .firmwareVerified _ _ _ _ => []
  | .dictionaryReady _ => []
  | .canBootUp _ => []
  | .warmResetRequest _ w => [w]
  | .warmrstNLow _ _ => []
  | .watchdogExpired _ _ => []
  | .islandResetRequest _ w => [w]
  | .powerConditionRequest _ w => [w]
  | .wakeIn _ => []
  | .cfWakeActivity _ => []
  | .pgoodMainTimeout _ => []
  | .modeRequest _ w => [w]
  | .modeChangeAtBoundary _ => []
  | .modeTransitionEnd _ => []
  | .orderlyStopRequest _ w => [w]
  | .functionDisable _ _ w => [w]
  | .functionEnable _ _ w => [w]
  | .functionDrainComplete _ _ _ => []
  | .linkInkWrite _ _ w => [w]
  | .slackPeriodEnd _ _ => []
  | .slackSlotGrant _ _ _ _ => []
  | .throttlePauseEnd _ _ => []
  | .dictionaryWrite _ _ _ w => [w]
  | .stringStagingStore _ _ _ _ => []
  | .emcyInhibitExpiry _ => []
  | .eventPendingClear _ _ w => [w]
  | .eventMaskWrite _ _ w => [w]
  | .eventRouteWrite _ _ w => [w]
  | .eventCountClear _ _ w => [w]
  | .storeParameters _ w => [w]
  | .restoreDefaults _ w => [w]
  | .errorFieldCountClear _ w => [w]
  | .usdoRequest _ _ => []
  | .rpdoReceived _ _ _ => []
  | .canSyncReceived _ => []
  | .tpdoEventTimer _ _ => []
  | .tpdoTransmit _ _ => []
  | .heartbeatProduce _ => []
  | .consumerHeartbeatTimeout _ _ => []
  | .nmtStart _ _ => []
  | .nmtStop _ _ => []
  | .nmtEnterPreOperational _ _ => []
  | .nmtResetCommunication _ _ => []
  | .nmtResetNode _ _ => []
  | .inputEdge _ _ _ _ _ => []
  | .analogueSample _ _ _ _ _ _ => []
  | .sincosTrimCalibration _ _ _ => []
  | .serialRead _ _ _ => []
  | .serialWord _ _ _ _ => []
  | .serialTimeout _ _ => []
  | .standstill _ _ => []
  | .copyLengthWrite _ _ w => [w]
  | .softLimitWrite _ _ _ w => [w]
  | .positionPreset _ _ w => [w]
  | .channelTypeWrite _ _ w => [w]
  | .countingModeWrite _ _ w => [w]
  | .masterChannelWrite _ w => [w]
  | .compareValueWrite _ _ w => [w]
  | .compareChannelWrite _ _ w => [w]
  | .compareFiredClear _ w => [w]
  | .comparePulseEnd _ _ => []
  | .emulationEdge _ _ => []
  | .webPositionLatch _ _ => []
  | .ingestData _ _ _ => []
  | .ackInterval _ => []
  | .nackDelay _ _ => []
  | .nackRetry _ _ => []
  | .flowIdleTimeout _ _ => []
  | .refetchResend _ _ => []
  | .refetchDeadline _ _ => []
  | .jobDelete _ w => [w]
  | .stripDecodeStart _ _ _ _ => []
  | .stripDecodeEnd _ _ => []
  | .decodeResume _ _ => []
  | .inputSpoolResume _ _ w => [w]
  | .encodeCommand _ _ w => [w]
  | .encodeDone _ _ => []
  | .flushRequest _ _ w => [w]
  | .flushDone _ _ => []
  | .spoolResume _ _ w => [w]
  | .composeLine _ _ _ _ => []
  | .copyDecision _ => []
  | .layerCommit _ _ w => [w]
  | .layerEmptyCommit _ _ w => [w]
  | .fenceReached _ _ w => [w]
  | .protectedLoad _ w => [w]
  | .protectedLayerLoaded _ => []
  | .decideDropLine _ _ _ => []
  | .missingNozzleMark _ w => [w]
  | .missingNozzleClear _ w => [w]
  | .compensationBuild _ => []
  | .bankCopyRequest _ w => [w]
  | .bankCopyDone _ => []
  | .bankCommit _ w => [w]
  | .bankCommitChecked _ => []
  | .bankCommitCancel _ w => [w]
  | .screenArrayLoad _ w => [w]
  | .screenArrayCommitted _ => []
  | .screenArrayRelease _ w => [w]
  | .rowLineIssue _ => []
  | .telemetryTimeout _ _ _ => []
  | .headRecovered _ _ _ => []
  | .tickleReady _ => []
  | .wavePushRequest _ w => [w]
  | .waveAck _ _ _ _ => []
  | .waveAckTimeout _ _ _ => []
  | .wavePushCancel _ w => [w]
  | .waveBankSwitch _ _ w => [w]
  | .serviceSpit _ w => [w]
  | .servicePurge _ w => [w]
  | .serviceLadder _ w => [w]
  | .serviceCancel _ w => [w]
  | .spitPulse _ => []
  | .purgeEnd _ => []
  | .tempCurveWrite _ _ _ w => [w]
  | .statusRecord _ _ _ => []
  | .bankReport _ _ _ _ => []
  | .lateRecord _ _ _ _ => []
  | .rejectedRecord _ _ _ _ => []
  | .nozzleFlag _ _ _ _ => []
  | .cfgReply _ _ _ _ => []
  | .syncEcho _ _ _ _ => []
  | .returnPacketRejected _ _ _ => []
  | .markerLock _ _ _ => []
  | .linkUpTimeout _ _ => []
  | .trainingBlockReceived _ _ _ _ => []
  | .linkLoss _ _ _ => []
  | .linkRestart _ _ w => [w]
  | .linkVersionLimitWrite _ _ w => [w]
  | .prbsModeOn _ _ w => [w]
  | .prbsModeOff _ _ _ w => [w]
  | .amPeriod _ _ _ => []
  | .claimSend _ => []
  | .headCfgRequest _ _ w => [w]
  | .cfgTimeout _ _ => []
  | .recalibrationRequest _ w => [w]
  | .recalibrationStep _ _ _ => []
  | .csiPacket _ _ _ => []
  | .frameEnd _ _ => []
  | .frameTimeout _ _ => []
  | .lineStage _ _ => []
  | .frameStageTake _ _ => []
  | .statisticsReady _ => []
  | .portCommit _ _ w => [w]
  | .coefficientCommit _ _ w => [w]
  | .cciRequest _ _ w => [w]
  | .cciDone _ _ _ _ => []
  | .flatFieldCaptureRequest _ w => [w]
  | .flatFieldCapture _ _ => []
  | .darkCapture _ _ => []
  | .portRestart _ _ w => [w]
  | .pulseEnd _ _ _ _ _ _ _ _ => []
  | .stageCurrentFault _ _ => []
  | .gapLinePulse _ => []
  | .diagnosticRound _ => []
  | .illuminationCommit _ w => [w]
  | .illuminationRestart _ w => [w]
  | .zoneCaptureRequest _ w => [w]
  | .overlapCalibrationRequest _ w => [w]
  | .substitutionCalibrationRequest _ w => [w]
  | .wasteVerdict _ => []
  | .dramAccess _ _ _ _ => []
  | .accessError _ _ _ _ => []
  | .deviceMarkClear _ _ w => [w]
  | .alertN _ _ _ => []
  | .refreshInterval _ _ _ => []
  | .pageIdleTimer _ _ => []
  | .fullTraining _ _ _ _ _ _ => []
  | .trackingStep _ _ _ => []
  | .zqCalibration _ => []
  | .retrainRequest _ w => [w]
  | .frequencyChange _ _ => []
  | .scrubUnit _ _ => []
  | .ringAreaSizeWrite _ w => [w]
  | .channelStart _ _ w => [w]
  | .dmaBurst _ _ => []
  | .move _ _ => []
  | .fill _ _ => []
  | .compare _ _ => []
  | .loop _ _ => []
  | .endloop _ _ => []
  | .wait _ _ => []
  | .waitEnd _ _ => []
  | .waitTimeout _ _ => []
  | .signal _ _ => []
  | .stop _ _ => []
  | .channelStop _ _ w => [w]
  | .dmaTimer _ _ => []
  | .softRequestWrite _ w => [w]
  | .ethernetFrame _ _ _ _ _ _ => []
  | .arpRequest _ _ _ _ _ => []
  | .icmpEcho _ _ _ _ _ _ _ _ => []
  | .portLinkChange _ _ _ => []
  | .addressChange _ _ _ w => [w]
  | .tetherHello _ _ _ _ _ _ _ _ => []
  | .tetherOpen _ _ _ => []
  | .challengeTimeout _ => []
  | .tetherRequest _ _ _ => []
  | .tetherNotifyAck _ _ _ => []
  | .notifyRetry _ _ => []
  | .tetherKeepAlive _ _ _ => []
  | .tetherClose _ _ _ => []
  | .sessionTimeout _ _ => []
  | .canBusOff _ _ _ => []
  | .canAutoRecover _ => []
  | .canRecover _ w => [w]
  | .ptpSync _ _ _ _ _ _ _ => []
  | .ptpAnnounce _ _ _ _ _ _ => []
  | .announceTimeout _ => []
  | .ptpDelayMessage _ _ _ _ _ _ _ => []
  | .ptpMasterSync _ => []
  | .diodeASample _ _ => []
  | .diodeBSample _ _ => []
  | .thermalTrimReference _ w => [w]
  | .thermalTrimReading _ => []
  | .faultLogSave _ w => [w]
  | .calibrationRecordSave _ w => [w]
  | .calibrationAutoSave _ => []
  | .pairStart _ => []
  | .heartbeatSend _ => []
  | .heartbeatReceived _ _ _ => []
  | .mirrorFrame _ _ => []
  | .peerAbsent _ => []
  | .takeoverGuardEnd _ => []
  | .returnPair _ => []
  | .lifecycleAdvance _ w => [w]
  | .keyInstall _ w => [w]
  | .keyRevoke _ w => [w]
  | .tokenChallenge _ _ => []
  | .roleToken _ w => [w]
  | .canRoleTimeout _ => []
  | .lockoutEnd _ _ => []
  | .packageLoadFirmware _ w => [w]
  | .packageLoadDebugGrant _ w => [w]
  | .packageLoadLifecycle _ w => [w]
  | .packageCheckDone _ => []
  | .packageWriteDone _ _ => []
  | .securityVersionCommit _ w => [w]
  | .debugLevelRequest _ w => [w]
  | .grantExpiry _ => []
  | .performanceCountersRead _ _ => []
  | .jtagBypass _ _ _ => []
  | .jtagIdcode _ _ _ => []
  | .jtagSamplePreload _ _ _ => []
  | .jtagExtest _ _ _ _ => []
  | .jtagClamp _ _ _ _ => []
  | .jtagHighz _ _ _ _ => []
  | .returnClockValid _ _ => []
  | .alertNDeasserted _ _ _ => []
  | .pgoodMainHigh _ => []
  | .timeNowLatch _ _ => []
  | .calibrationRecordWritten _ => []
  | .dramInitialised _ => []
  | .dmaTimerWidthEnd _ _ => []

end Sys2Proof
end

