-- ==== Sys2Proof/Certificates/Slice0/Obligations.lean ====
section
/-! DEFINITION. Sys2Proof/Certificates/Slice0/Obligations.lean: the statements for the provers. A family's statement says
of each of its commands, under hypotheses on the state and the operands alone, that it completes, what it leaves and what
it leaves alone. -/

open Sys2Proof Sys2Proof.Machine

/-- Power-on resets (R91, R93, R96, R476): RESET_N low and released gives cause 0 and turns the main supply on; a tripping
supply monitor, in Deep that of group 1 alone, gives cause 1 with event 14 held. Both leave what a power-on leaves;
the key store and the fuses' vendor floor stay. The model's own choices in it: notes/assumptions/1.md, 3.md, 8.md and
45.md. -/
def Obligations.PowerOnResetsComplete : Prop :=
  (∀ (t : Nat) (cold : Bool),
    Completes (.powerOnReset t cold) t (fun b => b.health.hardLatch = false ∨ cold = true)
      fun b u => u.poweredOn 0 [0] ∧ .ball .pwrenMain 1 ∈ u.out ∧ u.sec.keys = b.sec.keys
        ∧ u.sec.vendorFloor = b.sec.vendorFloor)
  ∧ (∀ (t group : Nat), 1 ≤ group → group ≤ 5 →
    Completes (.supplyMonitorTrip t group) t
      (fun b => b.islandReady islAON = true ∧ (b.sys.deep = true → group = 1))
      fun b u => u.poweredOn 1 [0, 14] ∧ u.sec.keys = b.sec.keys ∧ u.sec.vendorFloor = b.sec.vendorFloor)

/-- Bring-up (R84, R86–R88, R91, R92, R416, R440, R441, R463): an island that may leave reset reports ready, with the time
that this took and event 8 once the dictionary is ready; firmware verification runs the preferred customer image, else
the other, else none, and records which; the dictionary becomes reachable and the role in a pair begins; the CAN path
sends its boot-up message and is pre-operational. The model's own choices in it: notes/assumptions/1.md, 7.md and
47.md. -/
def Obligations.BringupCompletes : Prop :=
  (∀ (t isl : Nat), 1 ≤ isl → isl ≤ 12 →
    Completes (.islandReady t isl) t
      (fun b => b.inv = true ∧ b.islandReady isl = false ∧ b.sys.releaseAt ≤ b.now
        ∧ (isl = islAON ∨ (b.islandReady islAON = true ∧ b.sys.deep = false ∧ b.thermalHold = false)))
      fun b u => u.islandReady isl = true
        ∧ u.reg (K.IslandReadyTime + (isl - 1)) = min (b.now - b.sys.releaseAt) 0xFFFFFFFF
        ∧ (b.sys.dictReady = true → b.raised [8] u)
        ∧ b.only [.dict, .ev, .mem, .cam, .time, .pos, .health, .tone, .link, .loop] u)
  ∧ (∀ (t : Nat) (vendor slotA slotB : Image),
    Completes (.firmwareVerified t vendor slotA slotB) t
      (fun b => b.inv = true ∧ b.islandReady islCTL = true ∧ b.sys.verified = false)
      fun b u =>
        let pref := b.reg K.BootSlotPreferred
        let image := fun (n : Nat) => if n = 0 then slotA else slotB
        let v := b.imageRefusal 0x80 vendor
        let c := b.imageRefusal 1 (image pref)
        let d := b.imageRefusal 1 (image (1 - pref))
        u.sys.verified = true
        ∧ (v ≠ 0 → u.reg K.BootStatus = 3 ∧ u.reg K.BootSlotRun = 0xFF ∧ u.reg K.PackageRefusal = v
          ∧ u.sys.served = b.sys.served)
        ∧ (v = 0 → c = 0 → u.reg K.BootStatus = 0 ∧ u.reg K.BootSlotRun = pref
          ∧ u.reg K.FirmwareSecurityVersion = (image pref).version ∧ u.sys.served = true)
        ∧ (v = 0 → c ≠ 0 → d = 0 → u.reg K.BootStatus = 1 ∧ u.reg K.BootSlotRun = 1 - pref
          ∧ u.reg K.FirmwareSecurityVersion = (image (1 - pref)).version ∧ u.sys.served = true)
        ∧ (v = 0 → c ≠ 0 → d ≠ 0 → u.reg K.BootStatus = 2 ∧ u.reg K.BootSlotRun = 0xFF
          ∧ u.reg K.PackageRefusal = d ∧ u.sys.served = b.sys.served)
        ∧ b.only [.dict, .ev, .sys, .health, .sec] u)
  ∧ (∀ (t : Nat),
    Completes (.dictionaryReady t) t
      (fun b => b.inv = true ∧ b.sys.verified = true ∧ b.sys.dictReady = false ∧ b.islandReady islCTL = true)
      fun b u => u.sys.dictReady = true ∧ u.sys.warming = false
        ∧ (b.flag K.BridleEnable = true →
          u.reg K.BridleRole = 1 ∧ u.reg K.ClaimActual = 0 ∧ .ball .claimOut 0 ∈ u.out ∧ u.bridle.startAt = b.now)
        ∧ (b.flag K.BridleEnable = false →
          u.reg K.BridleRole = 0 ∧ u.reg K.ClaimActual = b.reg K.ConfiguredClaim ∧ .ball .claimOut 1 ∈ u.out)
        ∧ (b.reg K.LifecycleState = 3 → u.reg K.DebugLevelActual = 1)
        ∧ b.only [.dict, .ev, .mem, .sys, .cam, .loop, .bridle, .health, .tone, .ill] u)
  ∧ (∀ (t : Nat),
    Completes (.canBootUp t) t
      (fun b => b.reachable = true ∧ b.islandReady islNET = true ∧ b.can.booted = false)
      fun b u => u.can.booted = true ∧ u.can.nmt = .preOperational ∧ u.can.nodeId = b.reg K.CanNodeId
        ∧ u.can.timing = b.canTiming ∧ .can (0x700 + b.reg K.CanNodeId) [0] ∈ u.out ∧ b.only [.can, .ev] u)

/-- Warm resets and island resets (R93–R97): WarmResetRequest with 1, WARMRST_N low for 1 µs and a real-time core's
watchdog make a warm reset with causes 3, 2 and 4; an application core's watchdog raises event 13 alone; an island
reset clears the island's flag, raises event 2 and restarts its release. Only an island's own reset leaves the others
running. The model's own choices in it: notes/assumptions/1.md and 45.md. -/
def Obligations.WarmResetsComplete : Prop :=
  (∀ (t : Nat) (w : Wr), w.val = 1 →
    Completes (.warmResetRequest t w) t
      (fun b => b.inv = true ∧ b.takes 0x2203 1 w 1 ∧ b.health.latchH = false ∧ b.sys.hold = false
        ∧ b.sys.warming = false ∧ b.islandReady islAON = true)
      fun b u => b.warmlyReset 3 u)
  ∧ (∀ (t width : Nat), 1000 ≤ width →
    Completes (.warmrstNLow t width) t
      (fun b => b.inv = true ∧ b.sys.deep = false ∧ b.health.latchH = false ∧ b.sys.hold = false
        ∧ b.sys.warming = false ∧ b.islandReady islAON = true)
      fun b u => b.warmlyReset 2 u)
  ∧ (∀ (t : Nat),
    Completes (.watchdogExpired t true) t
      (fun b => b.inv = true ∧ b.sys.deep = false ∧ b.health.latchH = false ∧ b.sys.hold = false
        ∧ b.sys.warming = false ∧ b.islandReady islAON = true)
      fun b u => b.warmlyReset 4 u)
  ∧ (∀ (t : Nat),
    Completes (.watchdogExpired t false) t (fun _ => True) fun b u => b.raised [13] u ∧ b.only [.ev] u)
  ∧ (∀ (t : Nat) (w : Wr), 3 ≤ w.val → w.val ≤ 12 →
    Completes (.islandResetRequest t w) t
      (fun b => b.inv = true ∧ b.takes 0x2203 2 w w.val ∧ isPrint b.mode = false)
      fun b u => u.islandReady w.val = false ∧ u.sys.releaseAt = b.now ∧ b.raised [2] u
        ∧ (∀ j, 1 ≤ j → j ≤ 12 → j ≠ w.val → u.islandReady j = b.islandReady j)
        ∧ b.only [.mem, .dict, .ev, .sys, .pos, .codec, .comp, .tone, .fire, .link, .cam, .ill, .loop, .dram, .dma, .net,
          .time, .health, .sec] u)

/-- The power condition Deep (R37, R431, R475): a 1 written in Standby enters Deep, in Standby, with every island but AON
down, the stores lost and the main supply off; WAKE_IN and activity on CF wake it, PGOOD_MAIN high releases the
islands 1 ms later on the warm path, and its absence for 100 ms ends the wake with event 14 held. The model's own
choices in it: notes/assumptions/1.md, 8.md and 48.md. -/
def Obligations.DeepCompletes : Prop :=
  (∀ (t : Nat) (w : Wr), w.val = 1 →
    Completes (.powerConditionRequest t w) t
      (fun b => b.inv = true ∧ b.takes 0x2010 8 w 1 ∧ b.mode = mStandby)
      fun b u => u.sys.deep = true ∧ u.sys.dictReady = false ∧ u.mode = mStandby ∧ .ball .pwrenMain 0 ∈ u.out
        ∧ (∀ i, 2 ≤ i → i ≤ 12 → u.islandReady i = false)
        ∧ ∀ a, a < dramStart → Memory.byte u.mem a = Memory.unlisted a)
  ∧ (∀ (t : Nat),
    Completes (.wakeIn t) t
      (fun b => b.sys.deep = true ∧ b.sys.wakeAt = none ∧ (b.sys.hold = false ∨ b.health.latchH = true))
      fun b u => u.sys = { b.sys with wakeAt := some b.now } ∧ .ball .pwrenMain 1 ∈ u.out
        ∧ b.only [.dict, .ev, .sys, .health] u)
  ∧ (∀ (t : Nat),
    Completes (.wakeIn t) t
      (fun b => b.inv = true ∧ b.sys.hold = true ∧ b.health.latchH = false ∧ b.health.hardLatch = false ∧ b.cool = true)
      fun b u => u.sys.hold = false ∧ u.health.shuttingDown = false ∧ u.reg K.ResetCause = 5 ∧ u.sys.warming = true
        ∧ .ball .thermtripN 1 ∈ u.out ∧ b.only [.dict, .ev, .sys, .health] u)
  ∧ (∀ (t : Nat),
    Completes (.cfWakeActivity t) t (fun b => b.sys.deep = true ∧ b.sys.wakeAt = none)
      fun b u => u.sys = { b.sys with wakeAt := some b.now } ∧ .ball .pwrenMain 1 ∈ u.out ∧ b.only [.sys] u)
  ∧ (∀ (t : Nat),
    Completes (.pgoodMainHigh t) t (fun b => b.sys.deep = true ∧ b.sys.wakeAt ≠ none)
      fun b u => u.sys.deep = false ∧ u.sys.wakeAt = none ∧ u.sys.releaseAt = b.now + 1000000 ∧ u.sys.warming = true
        ∧ u.reg K.ResetCause = 5 ∧ u.reg K.WarmResetCount = (b.reg K.WarmResetCount + 1) % 2 ^ 32
        ∧ b.regsBut [K.ResetCause, K.WarmResetCount] u ∧ b.only [.dict, .ev, .sys] u)
  ∧ (∀ (t t0 : Nat),
    Completes (.pgoodMainTimeout t) t
      (fun b => b.sys.deep = true ∧ b.sys.wakeAt = some t0 ∧ t0 + 100000000 ≤ b.now)
      fun b u => u.sys = { b.sys with wakeAt := none } ∧ .ball .pwrenMain 0 ∈ u.out ∧ u.ev.held = b.ev.held ++ [14]
        ∧ b.only [.ev, .sys] u)

/-- Modes (R36, R40–R43, R45, R47, R50, R51): a request admitted with none pending takes effect at once where no copy
boundary is waited for, else becomes pending for the first eligible copy; a refused one leaves the mode and the
pending request, records its code and raises event 5; the pending mode becomes the present one when the boundary fires
and the transition ends when every row has followed; an orderly stop enters Ready, cancels requests and counts. The
model's own choices in it: notes/assumptions/1.md, 14.md, 15.md, 21.md and 43.md. -/
def Obligations.ModesComplete : Prop :=
  (∀ (t n : Nat) (w : Wr),
    Completes (.modeRequest t w) t
      (fun b => b.inv = true ∧ b.takes 0x2010 1 w n ∧ b.reg K.ModePending = 0xFF ∧ b.modeRefusal n = 0
        ∧ atBoundary b.mode n = false)
      fun b u => u.mode = n ∧ u.reg K.ModeRequest = n ∧ u.reg K.ModeRefusalCode = 0 ∧ u.reg K.ModePending = 0xFF
        ∧ (b.mode ≠ n → b.raised [4] u)
        ∧ b.only [.dict, .ev, .mem, .sys, .tone, .fire, .loop, .dram, .time] u)
  ∧ (∀ (t n : Nat) (w : Wr),
    Completes (.modeRequest t w) t
      (fun b => b.takes 0x2010 1 w n ∧ b.reg K.ModePending = 0xFF ∧ b.modeRefusal n = 0
        ∧ atBoundary b.mode n = true)
      fun b u => u.mode = b.mode ∧ u.reg K.ModeRequest = n ∧ u.reg K.ModeRefusalCode = 0 ∧ u.reg K.ModePending = n
        ∧ u.reg K.ModeChangeCopy = rawOf 8 b.eligibleCopy ∧ u.sys.locked = false
        ∧ b.only [.dict, .ev, .mem, .sys, .tone, .fire, .loop, .dram, .time] u)
  ∧ (∀ (t n : Nat) (w : Wr),
    Completes (.modeRequest t w) t
      (fun b => b.takes 0x2010 1 w n ∧ b.reg K.ModePending = 0xFF ∧ b.modeRefusal n ≠ 0)
      fun b u => u.mode = b.mode ∧ u.reg K.ModePending = 0xFF ∧ u.reg K.ModeRequest = b.reg K.ModeRequest
        ∧ u.reg K.ModeRefusalCode = b.modeRefusal n ∧ b.raised [5, 12] u
        ∧ b.only [.dict, .ev, .mem, .sys, .tone, .fire, .loop, .dram, .time] u)
  ∧ (∀ (t : Nat),
    Completes (.modeChangeAtBoundary t) t
      (fun b => b.inv = true ∧ b.reg K.ModePending ≠ 0xFF ∧ b.sys.locked = true ∧ b.inTransition = false)
      fun b u => u.mode = b.reg K.ModePending ∧ u.inTransition = true ∧ u.sys.transFrom = some b.mode
        ∧ (b.mode ≠ b.reg K.ModePending → b.raised [4] u) ∧ b.only [.dict, .ev, .mem, .sys, .tone, .loop, .time] u)
  ∧ (∀ (t : Nat),
    Completes (.modeTransitionEnd t) t (fun b => b.inv = true ∧ b.inTransition = true ∧ b.reg K.ModeQueued = 0xFF)
      fun b u => u.inTransition = false ∧ u.reg K.ModePending = 0xFF ∧ u.sys.transFrom = none ∧ u.sys.locked = false
        ∧ u.mode = b.mode ∧ b.only [.dict, .ev, .mem, .sys, .tone, .fire, .loop, .dram, .time] u)
  ∧ (∀ (t : Nat) (w : Wr),
    Completes (.orderlyStopRequest t w) t
      (fun b => b.inv = true ∧ b.takes 0x2010 7 w 1 ∧ b.mode ≠ mStandby)
      fun b u => u.mode = mReady ∧ u.reg K.ModePending = 0xFF ∧ u.reg K.ModeQueued = 0xFF
        ∧ u.reg K.ModeTransitionActive = 0 ∧ u.reg K.StopReason = 1
        ∧ u.reg K.StopCount = (b.reg K.StopCount + 1) % 2 ^ 32 ∧ u.fire.rings = [] ∧ (∀ c ∈ u.fire.copies, c.done = true)
        ∧ b.raised [7] u ∧ b.only [.dict, .ev, .mem, .sys, .tone, .fire, .loop, .dram, .time] u)

/-- Functions, ink assignment and background clients (R31–R35, R51–R53, R55, R219, R429): a function disabled drains and
then stops with its queued units counted as discarded, one enabled starts, each with event 11, and one on the print
path of a print mode is refused with code 15; LinkInk takes a value in Ready alone; a client's period without a slot
counts as missed and at the third raises event 10; granted slack goes to one client, whose missed periods are cleared;
the end of a throttling pause lets the client go. The model's own choices in it: notes/assumptions/1.md, 14.md, 16.md
and 44.md. -/
def Obligations.FunctionsComplete : Prop :=
  (∀ (t f : Nat) (w : Wr), 1 ≤ f → f ≤ 11 →
    Completes (.functionDisable t f w) t
      (fun b => b.takes 0x2020 f { w with val := 0 } 0 ∧ (isPrint b.mode && b.onPrintPath f) = false
        ∧ b.reg (K.FunctionStatus + (f - 1)) = 1)
      fun b u => u.reg (K.FunctionEnable + (f - 1)) = 0 ∧ u.reg (K.FunctionStatus + (f - 1)) = 2
        ∧ u.reg (K.FunctionRefusalCode + (f - 1)) = 0 ∧ b.raised [11] u)
  ∧ (∀ (t f : Nat) (w : Wr), 1 ≤ f → f ≤ 11 →
    Completes (.functionDisable t f w) t
      (fun b => b.takes 0x2020 f { w with val := 0 } 0 ∧ isPrint b.mode = true ∧ b.onPrintPath f = true)
      fun b u => u.reg (K.FunctionRefusalCode + (f - 1)) = 15 ∧ b.raised [12] u
        ∧ u.reg (K.FunctionEnable + (f - 1)) = b.reg (K.FunctionEnable + (f - 1))
        ∧ u.reg (K.FunctionStatus + (f - 1)) = b.reg (K.FunctionStatus + (f - 1)))
  ∧ (∀ (t f : Nat) (w : Wr), 1 ≤ f → f ≤ 11 →
    Completes (.functionEnable t f w) t
      (fun b => b.inv = true ∧ b.takes 0x2020 f { w with val := 1 } 1 ∧ b.reg (K.FunctionStatus + (f - 1)) = 0)
      fun b u => u.reg (K.FunctionEnable + (f - 1)) = 1 ∧ u.reg (K.FunctionStatus + (f - 1)) = 1
        ∧ u.reg (K.FunctionRefusalCode + (f - 1)) = 0 ∧ b.raised [11] u
        ∧ b.only [.dict, .ev, .mem, .tone, .ill, .loop] u)
  ∧ (∀ (t f queued : Nat), 1 ≤ f → f ≤ 11 →
    Completes (.functionDrainComplete t f queued) t
      (fun b => b.inv = true ∧ b.reg (K.FunctionStatus + (f - 1)) = 2)
      fun b u => u.reg (K.FunctionStatus + (f - 1)) = (if b.flag (K.FunctionEnable + (f - 1)) then 1 else 0)
        ∧ u.reg (K.DiscardedUnits + (f - 1)) = (b.reg (K.DiscardedUnits + (f - 1)) + queued) % 2 ^ 32 ∧ b.raised [11] u)
  ∧ (∀ (t l v : Nat) (w : Wr), l < 16 →
    Completes (.linkInkWrite t l w) t (fun b => b.takes 0x2030 (l + 1) w v ∧ b.mode = mReady)
      fun b u => u.reg (K.LinkInk + l) = v
        ∧ (b.reg K.BankCommitState = 1 ∨ b.reg K.BankCommitState = 2 →
          u.reg K.BankCommitState = 0 ∧ u.reg K.BankCommitCopy = 0xFFFFFFFFFFFFFFFF)
        ∧ b.regsBut [K.LinkInk + l, K.BankCommitState, K.BankCommitCopy] u ∧ b.only [.dict, .ev, .tone] u)
  ∧ (∀ (t c : Nat), 1 ≤ c → c ≤ 8 →
    Completes (.slackPeriodEnd t c) t
      (fun b => b.sys.slackHad.getD (c - 1) false = false ∧ b.paused c = false ∧ isPrint b.mode = true)
      fun b u =>
        let missed := b.reg (K.SlackMissedPeriods + (c - 1)) + 1
        u.reg (K.SlackMissedPeriods + (c - 1)) = missed % 2 ^ 32
        ∧ (3 ≤ missed → u.reg (K.SlackBacklog + (c - 1)) = missed % 2 ^ 32) ∧ (missed = 3 → b.raised [10] u)
        ∧ u.sys.slackHad.getD (c - 1) false = false
        ∧ b.regsBut [K.SlackMissedPeriods + (c - 1), K.SlackBacklog + (c - 1)] u ∧ b.only [.dict, .ev, .sys, .dma] u)
  ∧ (∀ (t owner len c : Nat) (boundary : Bool),
    Completes (.slackSlotGrant t owner len boundary) t
      (fun b => b.slackNextClient ((slackClients owner).filter fun c =>
        !b.paused c && (c != 2 || b.mode == mReady || boundary)) = some c)
      fun b u => u.reg (K.SlackMissedPeriods + (c - 1)) = 0 ∧ u.reg (K.SlackBacklog + (c - 1)) = 0
        ∧ u.sys.slackRound = c
        ∧ b.regsBut [K.SlackMissedPeriods + (c - 1), K.SlackBacklog + (c - 1)] u ∧ b.only [.dict, .sys, .dma] u)
  ∧ (∀ (t c : Nat), 1 ≤ c → c ≤ 8 →
    Completes (.throttlePauseEnd t c) t
      (fun b => b.paused c = false ∧ b.sys.slackForced.getD (c - 1) false = false)
      fun b u => u.sys = { b.sys with pauseUntil := b.sys.pauseUntil.set (c - 1) 0 } ∧ u.dict = b.dict
        ∧ b.only [.dict, .sys, .dma] u)

/-- The event entries (R74, R78–R81): a write of EventPending clears the events whose bit is 1 and no other, of EventMask
sets the mask of its 32 events, of EventRoute and EventCount acts on one event; ErrorFieldCount empties the history;
EmcyInhibitTime passing sends the oldest queued EMCY. No register and no memory changes. The model's own choices in
it: notes/assumptions/1.md and 51.md. -/
def Obligations.EventEntriesComplete : Prop :=
  (∀ (t sub : Nat) (w : Wr),
    Completes (.eventPendingClear t sub w) t (fun b => b.takes 0x2100 sub w w.val)
      fun b u => (∀ n, n < 256 → u.ev.pending.getLsbD n
          = (b.ev.pending.getLsbD n && !(decide (n / 32 + 1 = sub) && w.val.testBit (n % 32))))
        ∧ u.ev = { b.ev with pending := u.ev.pending } ∧ u.dict = b.dict ∧ b.only [.ev, .dict] u)
  ∧ (∀ (t sub : Nat) (w : Wr),
    Completes (.eventMaskWrite t sub w) t (fun b => b.takes 0x2101 sub w w.val)
      fun b u => (∀ n, n < 256 → u.ev.masked n = if n / 32 + 1 = sub then w.val.testBit (n % 32) else b.ev.masked n)
        ∧ u.ev = { b.ev with mask := u.ev.mask } ∧ u.dict = b.dict ∧ b.only [.ev, .dict] u)
  ∧ (∀ (t n : Nat) (w : Wr), reservedEvent n = false → w.val &&& 0x00FF0703 = w.val →
    Completes (.eventRouteWrite t n w) t
      (fun b => b.takes (eventPlace 0x2110 n).1 (eventPlace 0x2110 n).2 w w.val)
      fun b u => u.ev.route n = w.val ∧ (∀ m, m ≠ n → u.ev.route m = b.ev.route m)
        ∧ u.ev = { b.ev with routes := u.ev.routes } ∧ u.dict = b.dict ∧ b.only [.ev, .dict] u)
  ∧ (∀ (t n : Nat) (w : Wr), reservedEvent n = false → w.val = 0 →
    Completes (.eventCountClear t n w) t
      (fun b => b.takes (eventPlace 0x2120 n).1 (eventPlace 0x2120 n).2 w w.val)
      fun b u => u.ev.count n = 0 ∧ (∀ m, m ≠ n → u.ev.count m = b.ev.count m)
        ∧ u.ev = { b.ev with counts := u.ev.counts } ∧ u.dict = b.dict ∧ b.only [.ev, .dict] u)
  ∧ (∀ (t : Nat) (w : Wr),
    Completes (.errorFieldCountClear t w) t (fun b => b.takes 0x1003 0 w 0)
      fun b u => u.ev = { b.ev with errorHist := [] } ∧ u.dict = b.dict ∧ b.only [.ev, .dict] u)
  ∧ (∀ (t : Nat) (e : Emcy) (q : List Emcy),
    Completes (.emcyInhibitExpiry t) t
      (fun b => b.ev.emcyQueue = e :: q ∧ b.can.booted = true ∧ b.emcyFree = true)
      fun b u => .emcy b.emcyCob e b.ev.errorRegister ∈ u.out
        ∧ u.ev = { b.ev with emcyQueue := q, emcyLast := some b.now
                             errorHist := (e.code :: b.ev.errorHist).take 16 } ∧ b.only [.ev] u)

/-- The dictionary's own commands (R57, R58, R64, R68, R69, R76): an entry that its owner takes as written holds the value
written and no other register changes, CAN and Tether are answered; an 8-byte store into a staged object is kept until
the object's content is complete, and a HeadCfgRequest that its one store completes is taken as the link layer takes
it; StoreParameters keeps the values, routes and masks in the boot flash, and RestoreDefaults erases them. The model's
own choices in it: notes/assumptions/1.md, 12.md, 40.md, 42.md and 46.md. -/
def Obligations.DictionaryCompletes : Prop :=
  (∀ (t idx sub v : Nat) (w : Wr), ownerEffect idx sub = plain (idx * 256 + sub) → idx * 256 + sub ≠ K.ModeRequest →
    Completes (.dictionaryWrite t idx sub w) t
      (fun b => b.windowStaged idx sub w = none ∧ b.takes idx sub w v)
      fun b u => u.reg (idx * 256 + sub) = v ∧ b.regsBut [idx * 256 + sub] u ∧ b.only [.dict] u
        ∧ ((∀ k, w.path ≠ .core k) → .reply w.path 0 0 ∈ u.out))
  ∧ (∀ (t core addr val sub : Nat) (e : Entry), core < 8 → 0x40000000 ≤ addr → addr < 0x42800000 → val < 2 ^ 64 →
    e.ty.staged = true →
    Completes (.stringStagingStore t core addr val) t
      (fun b =>
        let idx := (windowPlace addr).1
        let off := ((windowPlace addr).2.1 - sub) * 8
        b.slotOwner idx (windowPlace addr).2.1 = some (sub, e) ∧ b.sys.staging.getD core none = none ∧ e.acc = .wo
        ∧ checkWrite b idx sub ⟨.core core, (windowPlace addr).2.2, min e.ty.bytes 2040, 0⟩ = 0
        ∧ stagedWhole (idx * 256 + sub) e.ty (b.slotsOf idx sub) off
            ((leBytes 2048 0).take off ++ leBytes 8 val ++ (leBytes 2048 0).drop (off + 8)) = false)
      fun b u =>
        let idx := (windowPlace addr).1
        let off := ((windowPlace addr).2.1 - sub) * 8
        u.sys = { b.sys with staging := b.sys.staging.set core (some (idx * 256 + sub, off + 8,
          leNat ((leBytes 2048 0).take off ++ leBytes 8 val ++ (leBytes 2048 0).drop (off + 8)))) }
        ∧ b.only [.sys] u)
  ∧ (∀ (t core l slot count addr val : Nat), core < 8 → l < 16 → slot < 12 → 1 ≤ count → count ≤ 64 → addr < 0x10000 →
    val = slot + count * 2 ^ 16 + addr * 2 ^ 32 →
    Completes (.stringStagingStore t core (windowAddr (0x4002 + 0x10 * l) 1) val) t
      (fun b => b.sys.staging.getD core none = none ∧ b.linkUp l = true ∧ b.lreg K.HeadCfgState l ≠ 1
        ∧ b.takes (0x4002 + 0x10 * l) 1 ⟨.core core, 0, 8, val⟩ val)
      fun b u => u.lreg K.HeadCfgState l = 1 ∧ (∃ d, .packet l pkCFG d ∈ u.out)
        ∧ b.regsBut [linkKey K.HeadCfgState l] u
        ∧ u.sys = { b.sys with staging := b.sys.staging.set core none } ∧ b.only [.sys, .dict, .link] u)
  ∧ (∀ (t : Nat) (w : Wr),
    Completes (.storeParameters t w) t (fun b => b.takes 0x1010 1 w 0x65766173)
      fun b u => u.sys.savedRoutes = b.ev.routes ∧ u.sys.savedMask = b.ev.mask
        ∧ (∀ k v, k ≠ K.EmcyCobId → (k, v) ∈ u.sys.saved → b.savable k = true)
        ∧ b.only [.sys] u)
  ∧ (∀ (t : Nat) (w : Wr),
    Completes (.restoreDefaults t w) t (fun b => b.takes 0x1011 1 w 0x64616F6C)
      fun b u => u.sys = { b.sys with saved := [], savedRoutes := [], savedMask := 0#256 }
        ∧ b.only [.sys] u)

/-- The CAN path's transfers (R74, R92): a USDO request is served while pre-operational or operational, a read answered
with the entry's bytes and a write with success; an RPDO of a SYNC type waits, one of type 254 or 255 writes its
mapped entries at once; a SYNC counts towards TPDOs of SYNC types, and sends those due; the event timer and a change
of mapped data send TPDOs of type 254; the heartbeat carries the NMT state, and a consumer's missed heartbeat ends
operational. The model's own choices in it: notes/assumptions/1.md, 9.md and 49.md. -/
def Obligations.CanTransfersComplete : Prop :=
  (∀ (t idx sub i k : Nat) (e : Entry),
    i * 256 + k ≠ K.WebPosition → i * 256 + k ≠ K.TimeNowSeconds → i * 256 + k ≠ K.TokenChallenge →
    Completes (.usdoRequest t (.read idx sub)) t
      (fun b => b.usdoServed = true ∧ b.canAt idx sub = some (i, k) ∧ b.entry i k = some e ∧ checkRead b i k = 0)
      fun b u => .reply .can (leNat (b.entryBytes .can e i k)) (b.entryBytes .can e i k).length ∈ u.out
        ∧ b.only [] u)
  ∧ (∀ (t idx sub len val i k v : Nat), ownerEffect i k = plain (i * 256 + k) → i * 256 + k ≠ K.ModeRequest →
    Completes (.usdoRequest t (.write idx sub len val)) t
      (fun b => b.usdoServed = true ∧ b.canAt idx sub = some (i, k) ∧ b.takes i k ⟨.can, 0, len, val % 2 ^ (8 * len)⟩ v)
      fun b u => u.reg (i * 256 + k) = v ∧ b.regsBut [i * 256 + k] u ∧ .reply .can 0 0 ∈ u.out ∧ b.only [.dict] u)
  ∧ (∀ (t n : Nat) (data : List Nat),
    Completes (.rpdoReceived t n data) t
      (fun b => b.pdoOn K.RpdoCobId n = true ∧ b.reg (K.RpdoTransmission + n * 256) ≤ 240)
      fun b u => u.can = { b.can with rpdoHeld := b.can.rpdoHeld.set n (some data) } ∧ b.only [.can] u)
  ∧ (∀ (t n idx sub len i k v : Nat) (data : List Nat), ownerEffect i k = plain (i * 256 + k) →
    i * 256 + k ≠ K.ModeRequest →
    Completes (.rpdoReceived t n data) t
      (fun b => b.pdoOn K.RpdoCobId n = true ∧ 240 < b.reg (K.RpdoTransmission + n * 256)
        ∧ b.mapping (0x1600 + n) = [(idx, sub, len)] ∧ len ≤ data.length ∧ b.canAt idx sub = some (i, k)
        ∧ b.takes i k ⟨.can, 0, len, leNat (data.take len)⟩ v)
      fun b u => u.reg (i * 256 + k) = v ∧ b.regsBut [i * 256 + k] u ∧ b.only [.dict] u)
  ∧ (∀ (t n : Nat), n < 8 →
    Completes (.canSyncReceived t) t
      (fun b => b.can.rpdoHeld = List.replicate 8 none ∧ b.can.tpdoAt.length = 8 ∧ b.can.tpdoSync.length = 8
        ∧ b.pdoOn K.TpdoCobId n = true ∧ 1 ≤ b.reg (K.TpdoTransmission + n * 256)
        ∧ b.reg (K.TpdoTransmission + n * 256) ≤ 240
        ∧ b.reg (K.TpdoTransmission + n * 256) ≤ b.can.tpdoSync.getD n 0 + 1)
      fun b u => u.can.tpdoSync.getD n 0 = 0 ∧ u.can.tpdoAt.getD n none = some b.now ∧ u.dict = b.dict ∧ u.mem = b.mem)
  ∧ (∀ (t n : Nat),
    Completes (.tpdoEventTimer t n) t
      (fun b => b.pdoOn K.TpdoCobId n = true ∧ b.reg (K.TpdoTransmission + n * 256) = 254
        ∧ b.reg (K.TpdoEventTimer + n * 256) ≠ 0 ∧ b.can.tpdoAt.getD n none = none)
      fun b u => .can (b.reg (K.TpdoCobId + n * 256) % 2 ^ 29) (b.tpdoData n) ∈ u.out
        ∧ u.can.tpdoAt = b.can.tpdoAt.set n (some b.now) ∧ b.only [.can] u)
  ∧ (∀ (t n : Nat),
    Completes (.tpdoTransmit t n) t
      (fun b => b.pdoOn K.TpdoCobId n = true ∧ b.reg (K.TpdoTransmission + n * 256) = 254
        ∧ b.can.tpdoSent.getD n none ≠ some (b.tpdoData n) ∧ b.tpdoFree n = true)
      fun b u => .can (b.reg (K.TpdoCobId + n * 256) % 2 ^ 29) (b.tpdoData n) ∈ u.out
        ∧ u.can.tpdoSent = b.can.tpdoSent.set n (some (b.tpdoData n)) ∧ b.only [.can] u)
  ∧ (∀ (t : Nat),
    Completes (.heartbeatProduce t) t (fun b => b.canUp = true ∧ b.reg K.ProducerHeartbeatTime ≠ 0)
      fun b u => .can (0x700 + b.can.nodeId) [nmtByte b.can.nmt] ∈ u.out ∧ b.only [] u)
  ∧ (∀ (t k : Nat), k < 4 →
    Completes (.consumerHeartbeatTimeout t k) t
      (fun b => b.canUp = true ∧ b.reg (K.ConsumerHeartbeatTime + k) % 65536 ≠ 0
        ∧ bits (b.reg (K.ConsumerHeartbeatTime + k)) 16 8 ≠ 0 ∧ b.reg K.CommErrorBehaviour = 0
        ∧ b.can.nmt = .operational)
      fun b u => u.can = { b.can with nmt := .preOperational } ∧ b.only [.can] u)

/-- NMT and the CAN bus (R74, R92, R93, R96, R415–R417, R460): an NMT command addressed to the node or to all sets the
state, or resets communication, or resets the node as NmtNodeResetMode says; the error counters set CanState, bus-off
raising event 219 and ending the CAN role; CF rejoins the bus on request or by itself where CanAutoRecover is set. The
model's own choices in it: notes/assumptions/1.md, 34.md and 50.md. -/
def Obligations.CanStatesComplete : Prop :=
  (∀ (t node : Nat),
    Completes (.nmtStart t node) t (fun b => b.canUp = true ∧ (node = 0 ∨ node = b.can.nodeId))
      fun b u => u.can = { b.can with nmt := .operational } ∧ b.only [.can] u)
  ∧ (∀ (t node : Nat),
    Completes (.nmtStop t node) t (fun b => b.canUp = true ∧ (node = 0 ∨ node = b.can.nodeId))
      fun b u => u.can = { b.can with nmt := .stopped } ∧ b.only [.can] u)
  ∧ (∀ (t node : Nat),
    Completes (.nmtEnterPreOperational t node) t (fun b => b.canUp = true ∧ (node = 0 ∨ node = b.can.nodeId))
      fun b u => u.can = { b.can with nmt := .preOperational } ∧ b.only [.can] u)
  ∧ (∀ (t node : Nat),
    Completes (.nmtResetCommunication t node) t (fun b => b.canUp = true ∧ (node = 0 ∨ node = b.can.nodeId))
      fun b u => u.can.booted = true ∧ u.can.nmt = .preOperational ∧ u.can.nodeId = u.reg K.CanNodeId
        ∧ u.can.timing = u.canTiming ∧ u.can.roleUntil = none ∧ u.reg K.CanRole = 0 ∧ b.raised [3] u
        ∧ .can (0x700 + u.can.nodeId) [0] ∈ u.out ∧ b.only [.dict, .ev, .can] u)
  ∧ (∀ (t node : Nat),
    Completes (.nmtResetNode t node) t
      (fun b => b.canUp = true ∧ (node = 0 ∨ node = b.can.nodeId) ∧ b.reg K.NmtNodeResetMode ≠ 1)
      fun b u => u.can.booted = true ∧ u.can.nmt = .preOperational ∧ u.reg K.CanRole = 0 ∧ b.raised [3] u)
  ∧ (∀ (t node : Nat),
    Completes (.nmtResetNode t node) t
      (fun b => b.inv = true ∧ b.canUp = true ∧ (node = 0 ∨ node = b.can.nodeId) ∧ b.reg K.NmtNodeResetMode = 1
        ∧ b.sys.deep = false ∧ b.health.latchH = false ∧ b.sys.hold = false ∧ b.sys.warming = false
        ∧ b.islandReady islAON = true)
      fun b u => b.warmlyReset 6 u)
  ∧ (∀ (t txe rxe : Nat),
    Completes (.canBusOff t txe rxe) t (fun b => b.islandReady islNET = true ∧ b.reg K.CanState ≠ 2)
      fun b u =>
        u.reg K.CanState = (if 256 ≤ txe then 2 else if 128 ≤ txe ∨ 128 ≤ rxe then 1 else 0)
        ∧ u.reg K.CanTxErrorCount = min 255 txe ∧ u.reg K.CanRxErrorCount = min 255 rxe
        ∧ (256 ≤ txe → b.raised [219] u ∧ u.reg K.CanRole = 0 ∧ u.can.roleUntil = none)
        ∧ (txe < 256 → (128 ≤ txe ∨ 128 ≤ rxe) → b.reg K.CanState = 0 → b.raised [220] u) ∧ b.only [.dict, .ev, .can] u)
  ∧ (∀ (t : Nat),
    Completes (.canAutoRecover t) t
      (fun b => b.islandReady islNET = true ∧ b.flag K.CanAutoRecover = true ∧ b.reg K.CanState = 2)
      fun b u => u.reg K.CanState = 0 ∧ u.reg K.CanTxErrorCount = 0 ∧ u.reg K.CanRxErrorCount = 0
        ∧ b.regsBut [K.CanState, K.CanTxErrorCount, K.CanRxErrorCount] u ∧ b.only [.dict] u)
  ∧ (∀ (t : Nat) (w : Wr),
    Completes (.canRecover t w) t (fun b => b.takes 0x2E30 0x0C w 1 ∧ b.reg K.CanState = 2)
      fun b u => u.reg K.CanState = 0 ∧ u.reg K.CanTxErrorCount = 0 ∧ u.reg K.CanRxErrorCount = 0
        ∧ b.regsBut [K.CanState, K.CanTxErrorCount, K.CanRxErrorCount] u ∧ b.only [.dict, .ev] u)

/-- Samples of the position channels (R100–R112, R122, R128, R129): an edge counts by its levels, the channel's type and
its direction, twice past a missing tooth, and moves the total by the pitch; an analogue sample sets the radius and,
within limits, the angle and the total, else raises event 27; fits of the trim count as calibrations when two agree; a
serial word is opened by a read, sets or moves the position when its CRC and error bit hold, else raises event 25 or
26; a missed word raises event 24; and standstill clears speed and raises event 22. The model's own choices in it:
notes/assumptions/1.md, 20.md, 52.md, 53.md, 54.md, 55.md, 56.md and 57.md. -/
def Obligations.SamplesComplete : Prop :=
  (∀ (t ch : Nat) (a c : Bool) (nodes : List Nat),
    Completes (.inputEdge t ch a c nodes) t
      (fun b => b.takesSample ch 0 8 = true ∧ ch < b.pos.chans.length
        ∧ edgeCount (b.reg (K.ChannelType + ch)) (b.flag (K.DirectionInvert + ch)) (b.chan ch).a (b.chan ch).b a c ≠ 0
        ∧ (b.reg (K.ChannelType + ch) = 3 ∨ b.toothKind ch ≠ 2))
      fun b u =>
        let n := edgeCount (b.reg (K.ChannelType + ch)) (b.flag (K.DirectionInvert + ch)) (b.chan ch).a (b.chan ch).b a c
        let m : Int := if b.reg (K.ChannelType + ch) ≠ 3 ∧ b.toothKind ch = 1 then 2 else 1
        (u.chan ch).total = (b.chan ch).total + n * m * (b.reg (K.CountPitch + ch) : Int)
        ∧ (u.chan ch).a = a ∧ (u.chan ch).b = c)
  ∧ (∀ (t n : Nat) (sin cos : Int) (mark : Bool) (nodes : List Nat),
    Completes (.analogueSample t n sin cos mark nodes) t
      (fun b => b.takesSample (8 + n) 8 10 = true ∧ 8 + n < b.pos.chans.length ∧ b.pos.trimNext.getD n none = none)
      fun b u =>
        let p := b.trimmed n sin cos
        let sq := (p.1 * p.1 + p.2 * p.2).natAbs
        let a := angleSteps p.1 p.2
        let pitch := b.reg (K.CountPitch + (8 + n))
        u.reg (K.AnalogueRadius + n) = roundRadius sq
        ∧ (sq < (2185 * 32768) ^ 2 ∨ (7099 * 32768) ^ 2 < sq → (u.chan (8 + n)).signalFault = true ∧ b.raised [27] u
          ∧ (u.chan (8 + n)).total = (b.chan (8 + n)).total)
        ∧ (¬ (sq < (2185 * 32768) ^ 2 ∨ (7099 * 32768) ^ 2 < sq) → (u.chan (8 + n)).angle = some a
          ∧ ∀ old, (b.chan (8 + n)).angle = some old →
            (u.chan (8 + n)).total = (b.chan (8 + n)).total + angleNm pitch a - angleNm pitch old
              + (if (a : Int) - old < -2048 then (pitch : Int) else if 2048 < (a : Int) - old then -(pitch : Int) else 0)))
  ∧ (∀ (t n : Nat) (fit : SinCosTrim),
    Completes (.sincosTrimCalibration t n fit) t
      (fun b => b.takesSample (8 + n) 8 10 = true ∧ n < b.pos.trimFirst.length ∧ b.pos.trimFirst.getD n none = none)
      fun b u => u.pos.trimFirst.getD n none = some fit ∧ u.dict = b.dict
        ∧ b.only [.dict, .ev, .pos, .health] u)
  ∧ (∀ (t n : Nat) (fit f : SinCosTrim),
    Completes (.sincosTrimCalibration t n fit) t
      (fun b => b.takesSample (8 + n) 8 10 = true ∧ n < b.pos.trimFirst.length ∧ b.pos.trimFirst.getD n none = some f)
      fun b u => u.pos.trimFirst.getD n none = none ∧ u.health.countsChanged = true
        ∧ (fitsAgree f fit = true → u.reg (K.CalibrationCount + 6) = (b.reg (K.CalibrationCount + 6) + 1) % 2 ^ 32
          ∧ b.raised [243] u)
        ∧ (fitsAgree f fit = false →
          u.reg (K.CalibrationDiscarded + 6) = (b.reg (K.CalibrationDiscarded + 6) + 1) % 2 ^ 32 ∧ b.raised [244] u)
        ∧ b.only [.dict, .ev, .pos, .health] u)
  ∧ (∀ (t n : Nat),
    Completes (.serialRead t n true) t
      (fun b => b.takesSample (10 + n) 10 14 = true ∧ 10 + n < b.pos.chans.length
        ∧ (b.chan (10 + n)).serialOpen = none
        ∧ ∀ v, (b.chan (10 + n)).lastRead = some v → v + b.reg (K.SerialReadPeriod + n) ≤ b.now)
      fun b u => (u.chan (10 + n)).serialOpen = some b.now ∧ .ball (.saClk n) 0 ∈ u.out ∧ u.dict = b.dict
        ∧ b.only [.dict, .ev, .mem, .pos, .fire, .health] u)
  ∧ (∀ (t n : Nat),
    Completes (.serialRead t n false) t
      (fun b => b.takesSample (10 + n) 10 14 = true ∧ 10 + n < b.pos.chans.length
        ∧ (b.chan (10 + n)).serialOpen = none
        ∧ ∀ v, (b.chan (10 + n)).lastRead = some v → v + b.reg (K.SerialReadPeriod + n) ≤ b.now)
      fun b u => (u.chan (10 + n)).signalFault = true ∧ (u.chan (10 + n)).word = none ∧ b.raised [24] u
        ∧ b.only [.dict, .ev, .mem, .pos, .fire, .health] u)
  ∧ (∀ (t n word at' : Nat) (nodes : List Nat),
    Completes (.serialWord t n word nodes) t
      (fun b => b.takesSample (10 + n) 10 14 = true ∧ 10 + n < b.pos.chans.length
        ∧ (b.chan (10 + n)).serialOpen = some at')
      fun b u =>
        let frame := b.reg (K.SerialFrame + n)
        let len := bits frame 20 5
        let err := if bit frame 15 then 1 else 0
        let width := bits frame 0 6
        let field := bits (word / 2 ^ (len + err)) 0 width
        let raw := if bit frame 16 then fromGray width field else field
        let holds := b.serialCrcHolds n frame word
        let failed := err == 1 && (bit word len != bit frame 14)
        (u.chan (10 + n)).serialOpen = none ∧ .ball (.saClk n) 1 ∈ u.out
        ∧ (holds = false → b.raised [25] u ∧ (u.chan (10 + n)).word = none)
        ∧ (holds = true → failed = true → b.raised [26] u ∧ (u.chan (10 + n)).word = none)
        ∧ (holds = true → failed = false → (u.chan (10 + n)).word = some raw
          ∧ ((b.chan (10 + n)).word = none → b.raised [16] u ∧ (u.chan (10 + n)).refFound = true
            ∧ (u.chan (10 + n)).total = (b.chan (10 + n)).total)
          ∧ ∀ old, (b.chan (10 + n)).word = some old →
            let diff := (raw + 2 ^ width - old) % 2 ^ width
            (u.chan (10 + n)).total = (b.chan (10 + n)).total
              + (if diff < 2 ^ (width - 1) then (diff : Int) else (diff : Int) - (2 ^ width : Nat))
                * (b.reg (K.CountPitch + (10 + n)) : Int)))
  ∧ (∀ (t n v : Nat),
    Completes (.serialTimeout t n) t
      (fun b => b.takesSample (10 + n) 10 14 = true ∧ 10 + n < b.pos.chans.length
        ∧ (b.chan (10 + n)).serialOpen = some v ∧ v + b.reg (K.SerialTimeout + n) ≤ b.now)
      fun b u => (u.chan (10 + n)).serialOpen = none ∧ (u.chan (10 + n)).signalFault = true ∧ b.raised [24] u
        ∧ .ball (.saClk n) 1 ∈ u.out ∧ b.only [.dict, .ev, .mem, .pos, .fire, .health] u)
  ∧ (∀ (t ch v : Nat), ch < 14 →
    Completes (.standstill t ch) t
      (fun b => ch < b.pos.chans.length ∧ b.counting ch = true ∧ (b.chan ch).lastEdge = some v
        ∧ v + b.reg (K.StandstillTimeout + ch) ≤ b.now ∧ (b.chan ch).standing = false)
      fun b u => (u.chan ch).standing = true ∧ (u.chan ch).valid = false ∧ (u.chan ch).speed = 0
        ∧ (u.chan ch).total = (b.chan ch).total ∧ b.raised [22] u
        ∧ b.only [.mem, .dict, .ev, .sys, .pos, .tone, .fire, .loop, .dram, .time] u)

/-- Writes of the position channels (R113–R119, R122): CopyLength at once, at the next wrap or at the first eligible copy;
the soft limits with low below high; a preset in web or axis mode; ChannelType and CountingMode restart the channel
and end its retirement; MasterChannel. The model's own choices in it: notes/assumptions/1.md. -/
def Obligations.PositionWritesComplete : Prop :=
  (∀ (t ch v : Nat) (w : Wr), ch < 14 → 1000000 ≤ v → v ≤ 100000000000 →
    Completes (.copyLengthWrite t ch w) t (fun b => b.takes 0x2313 (ch + 1) w v ∧ ch < b.pos.chans.length)
      fun b u => u.reg (K.CopyLength + ch) = v
        ∧ (b.counting ch = false ∨ b.webMode ch = false → u.chan ch = { b.chan ch with len := v, lenNext := none })
        ∧ (b.counting ch = true → b.webMode ch = true → b.masterPrinting ch = true →
          u.chan ch = { b.chan ch with lenNext := some (v, some b.eligibleCopy) })
        ∧ (b.counting ch = true → b.webMode ch = true → b.masterPrinting ch = false →
          u.chan ch = { b.chan ch with lenNext := some (v, none) })
        ∧ b.regsBut [K.CopyLength + ch] u ∧ b.only [.dict, .ev, .pos] u)
  ∧ (∀ (t ch v : Nat) (high : Bool) (w : Wr), ch < 14 →
    Completes (.softLimitWrite t ch high w) t
      (fun b => b.takes (if high then 0x2315 else 0x2314) (ch + 1) w v ∧ ch < b.pos.chans.length
        ∧ (if high then b.regI (K.SoftLimitLow + ch) 8 < signedOf 8 v
           else signedOf 8 v < b.regI (K.SoftLimitHigh + ch) 8))
      fun b u => u.reg ((if high then K.SoftLimitHigh else K.SoftLimitLow) + ch) = v
        ∧ (b.webMode ch = true → u.chan ch = b.chan ch)
        ∧ (b.webMode ch = false → u.chan ch = (b.chan ch).settle (u.softLimits ch))
        ∧ b.only [.dict, .ev, .pos] u)
  ∧ (∀ (t ch v : Nat) (w : Wr), ch < 14 →
    Completes (.positionPreset t ch w) t
      (fun b => b.takes 0x231F (ch + 1) w v ∧ ch < b.pos.chans.length ∧ b.masterPrinting ch = false
        ∧ b.webMode ch = true ∧ 0 ≤ signedOf 8 v ∧ signedOf 8 v < ((b.chan ch).len : Int))
      fun b u => u.chan ch = { b.chan ch with pos := signedOf 8 v * 2 ^ 32 } ∧ u.dict = b.dict
        ∧ b.only [.dict, .ev, .pos] u)
  ∧ (∀ (t ch v : Nat) (w : Wr), ch < 14 →
    Completes (.positionPreset t ch w) t
      (fun b => b.takes 0x231F (ch + 1) w v ∧ ch < b.pos.chans.length ∧ b.masterPrinting ch = false
        ∧ b.webMode ch = false ∧ (b.softLimits ch).1 ≤ signedOf 8 v * 2 ^ 32
        ∧ signedOf 8 v * 2 ^ 32 ≤ (b.softLimits ch).2)
      fun b u => u.chan ch = ({ b.chan ch with raw := signedOf 8 v * 2 ^ 32 } : Chan).settle (b.softLimits ch)
        ∧ b.only [.dict, .ev, .pos] u)
  ∧ (∀ (t ch v : Nat) (w : Wr), ch < 14 → typeAccepted ch v = true →
    Completes (.channelTypeWrite t ch w) t
      (fun b => b.takes 0x2310 (ch + 1) w v ∧ ch < b.pos.chans.length)
      fun b u => u.reg (K.ChannelType + ch) = v ∧ u.chan ch = (b.chan ch).restart
        ∧ u.isRetired (faultSource 4 ch) = false ∧ b.only [.mem, .dict, .ev, .pos, .health] u)
  ∧ (∀ (t ch v : Nat) (w : Wr), ch < 14 →
    Completes (.countingModeWrite t ch w) t
      (fun b => b.takes 0x2311 (ch + 1) w v ∧ ch < b.pos.chans.length
        ∧ (v = 1 → b.reg K.MasterChannel ≠ ch ∧ b.reg K.MasterBackupChannel ≠ ch))
      fun b u => u.reg (K.CountingMode + ch) = v ∧ u.chan ch = (b.chan ch).restart
        ∧ u.isRetired (faultSource 4 ch) = false ∧ b.only [.mem, .dict, .ev, .pos, .health] u)
  ∧ (∀ (t v : Nat) (w : Wr),
    Completes (.masterChannelWrite t w) t
      (fun b => b.takes 0x2300 1 w v ∧ (v ≠ 0xFF → b.webMode v = true))
      fun b u => u.reg K.MasterChannel = v ∧ u.pos = { b.pos with onBackup := false, bases := [], samples := [] }
        ∧ b.regsBut [K.MasterChannel] u ∧ b.only [.dict, .ev, .pos] u)

/-- Writes of the comparators (R123–R125, R128, 0x2355): a value arms the comparator and says on which side the channel
is, a change of its channel disarms it, and the fired bits written with 1 clear. The model's own choices in it:
notes/assumptions/1.md. -/
def Obligations.ComparatorWritesComplete : Prop :=
  (∀ (t k v : Nat) (w : Wr), k < 32 →
    Completes (.compareValueWrite t k w) t
      (fun b => b.takes 0x2351 (k + 1) w v ∧ b.reg (K.CompareChannel + k) < 14
        ∧ (b.webMode (b.reg (K.CompareChannel + k)) = true → bit (b.reg (K.CompareControl + k)) 4 = false →
          0 ≤ signedOf 8 v ∧ signedOf 8 v < ((b.chan (b.reg (K.CompareChannel + k))).len : Int)))
      fun b u => u.reg (K.CompareValue + k) = v
        ∧ u.reg K.CompareArmed = setBit (b.reg K.CompareArmed) k
            (!b.isRetired (faultSource 4 (b.reg (K.CompareChannel + k))))
        ∧ b.only [.dict, .ev] u)
  ∧ (∀ (t k v : Nat) (w : Wr), k < 32 →
    Completes (.compareChannelWrite t k w) t (fun b => b.takes 0x2350 (k + 1) w v)
      fun b u => u.reg (K.CompareChannel + k) = v
        ∧ u.reg K.CompareArmed = setBit (b.reg K.CompareArmed) k false
        ∧ b.regsBut [K.CompareChannel + k, K.CompareArmed] u ∧ b.only [.dict, .ev] u)
  ∧ (∀ (t v : Nat) (w : Wr),
    Completes (.compareFiredClear t w) t (fun b => b.takes 0x2355 1 w v)
      fun b u => u.reg K.CompareFired = b.reg K.CompareFired &&& (v ^^^ 0xFFFFFFFF)
        ∧ b.regsBut [K.CompareFired] u ∧ b.only [.dict, .ev] u)

/-- Outputs and reads of the position unit (R123, R126, R127, R131): a comparator's pulse ends at its end; an emulation
output sends one edge towards its target, at least 40 ns after the last, with the levels of quadrature; a read of
WebPosition latches its ten entries for the reader and answers the position. The model's own choices in it:
notes/assumptions/1.md and 41.md. -/
def Obligations.PositionOutputsComplete : Prop :=
  (∀ (t k v : Nat),
    Completes (.comparePulseEnd t k) t (fun b => b.pos.cmpUntil.getD k none = some v ∧ v ≤ b.now)
      fun b u => u.pos.cmpUntil.getD k none = none ∧ .ball (.cmpOut k) 0 ∈ u.out ∧ b.only [.dict, .pos] u)
  ∧ (∀ (t k : Nat), k < 4 →
    Completes (.emulationEdge t k) t
      (fun b => k < b.pos.emus.length ∧ b.counting (b.reg (K.EmulationSource + k)) = true
        ∧ b.flag (K.FunctionEnable + 10) = true
        ∧ (∀ v, (b.pos.emus.getD k {}).lastAt = some v → v + 40 ≤ b.now)
        ∧ b.emuTarget k (b.pos.emus.getD k {}) ≠ (b.pos.emus.getD k {}).count)
      fun b u =>
        let e := b.pos.emus.getD k {}
        let n := if e.count < b.emuTarget k e then e.count + 1 else e.count - 1
        (u.pos.emus.getD k {}).count = n ∧ (u.pos.emus.getD k {}).lastAt = some b.now
        ∧ u.reg (K.EmulationBacklog + k) = (b.emuTarget k e - n).natAbs
        ∧ .ball (.em k) ((quadLevels n).1 + 2 * (quadLevels n).2 + if b.emuZ k e n then 4 else 0) ∈ u.out
        ∧ b.regsBut [K.EmulationBacklog + k] u ∧ b.only [.dict, .pos] u)
  ∧ (∀ (t : Nat) (path : WPath),
    Completes (.webPositionLatch t path) t (fun b => checkRead b 0x2301 1 = 0)
      fun b u => u.webLatch path = some ((List.range 10).map fun i => b.webEntry (i + 1)) ∧ u.dict = b.dict
        ∧ .reply path (b.webEntry 1) 8 ∈ u.out ∧ u.mem = b.mem)

/-- Job ingest (R137, R165, R166, R399–R408): the datagram that starts a flow and the one next in order are taken and
counted; AckInterval sends each open flow its Ack with credit; a gap is answered by a Nack after NackDelay, repeated
up to NackRetries times and then fails the flow; an idle flow closes; a Refetch is sent again, and past its deadline
the strip is lost; and a job that no layer names is deleted with its streams. The model's own choices in it:
notes/assumptions/1.md, 13.md and 25.md. -/
def Obligations.IngestCompletes : Prop :=
  (∀ (t : Nat) (host : Host4) (data : List Nat), host.nic < 2 → ingestValid data = true →
    bit (field data 3 1) 0 = true → field data 8 4 = 0 →
    Completes (.ingestData t host data) t
      (fun b => (b.isH = true → host.nic = 0) ∧ b.islandReady islNET = true ∧ b.flag K.DramTrained = true
        ∧ b.fnOn fnIngest = true ∧ b.net.flows.length = 128)
      fun b u => u.reg K.IngestBytes = (b.reg K.IngestBytes + (data.drop 32).length) % 2 ^ 64
        ∧ (u.flow (64 * host.nic + field data 4 2)).host = host)
  ∧ (∀ (t : Nat) (host : Host4) (data : List Nat), host.nic < 2 → ingestValid data = true →
    (bit (field data 3 1) 0 = false ∨ field data 8 4 ≠ 0) →
    Completes (.ingestData t host data) t
      (fun b =>
        let f := 64 * host.nic + field data 4 2
        (b.isH = true → host.nic = 0) ∧ b.islandReady islNET = true ∧ b.flag K.DramTrained = true
        ∧ b.fnOn fnIngest = true ∧ b.flowOpen f = true ∧ f < b.net.flows.length ∧ (b.flow f).held = []
        ∧ (b.flow f).next = field data 8 4 ∧ (∀ c, (b.flow f).credit = some c → field data 16 8 + field data 6 2 ≤ c))
      fun b u => u.reg K.IngestBytes = (b.reg K.IngestBytes + (data.drop 32).length) % 2 ^ 64
        ∧ (u.flow (64 * host.nic + field data 4 2)).host = host)
  ∧ (∀ (t f via : Nat), f < 128 →
    Completes (.ackInterval t) t
      (fun b => b.islandReady islNET = true ∧ b.flowOpen f = true ∧ f < b.net.flows.length
        ∧ b.nextHop (b.flow f).host.nic (b.flow f).host.ip = some via)
      fun b u => (u.flow f).credit = some (b.creditOf f) ∧ (u.flow f).sinceAck = 0
        ∧ .udp (b.flow f).host via (ingestHeader 2 0 (f % 64) 0 (b.flow f).next (b.creditOf f)) ∈ u.out
        ∧ b.only [.net] u)
  ∧ (∀ (t f : Nat), f < 128 →
    Completes (.nackDelay t f) t
      (fun b => f < b.net.flows.length ∧ b.flowState f = 2 ∧ (b.flow f).nacks = 0
        ∧ (b.flow f).gapAt + b.reg K.NackDelay ≤ b.now)
      fun b u => (u.flow f).nacks = 1 ∧ (u.flow f).nackAt = b.now
        ∧ u.reg K.NacksSent = (b.reg K.NacksSent + 1) % 2 ^ 32 ∧ b.raised [222] u ∧ b.only [.net, .dict, .ev] u)
  ∧ (∀ (t f : Nat), f < 128 →
    Completes (.nackRetry t f) t
      (fun b => f < b.net.flows.length ∧ b.flowState f = 2 ∧ (b.flow f).nacks ≠ 0
        ∧ (b.flow f).nackAt + b.reg K.NackInterval ≤ b.now)
      fun b u => ((b.flow f).nacks ≤ b.reg K.NackRetries → (u.flow f).nacks = (b.flow f).nacks + 1
          ∧ (u.flow f).nackAt = b.now ∧ u.reg K.NacksSent = (b.reg K.NacksSent + 1) % 2 ^ 32)
        ∧ (b.reg K.NackRetries < (b.flow f).nacks → u.flowState f = 3 ∧ (u.flow f).held = [] ∧ (u.flow f).buf = [])
        ∧ b.only [.mem, .net, .dict, .codec, .dram] u)
  ∧ (∀ (t f : Nat), f < 128 →
    Completes (.flowIdleTimeout t f) t
      (fun b => f < b.net.flows.length ∧ b.flowState f ≠ 0 ∧ (b.flow f).lastAt + b.reg K.FlowIdleTimeout ≤ b.now)
      fun b u => u.flowState f = 0 ∧ (u.flow f).streams = (b.flow f).streams ∧ b.only [.net, .dict] u)
  ∧ (∀ (t stream : Nat) (r : Refetch),
    Completes (.refetchResend t stream) t
      (fun b => (b.net.refetches.find? fun x => x.stream == stream && x.sentAt + b.reg K.NackInterval ≤ b.now) = some r)
      fun b u => u.net.refetches = b.net.refetches.map (fun x => if x = r then { x with sentAt := b.now } else x)
        ∧ b.only [.net] u)
  ∧ (∀ (t stream : Nat) (r : Refetch),
    Completes (.refetchDeadline t stream) t
      (fun b => (b.net.refetches.find? fun x => x.stream == stream && x.deadline ≤ b.ptp) = some r)
      fun b u => u.net.refetches = b.net.refetches.filter (· != r)
        ∧ u.codec.streams = b.codec.streams.map (fun x => if x.id = stream then { x with lost := x.lost + 1 } else x)
        ∧ b.only [.mem, .net, .dict, .codec, .dram] u)
  ∧ (∀ (t v : Nat) (w : Wr),
    Completes (.jobDelete t w) t
      (fun b => b.takes 0x2401 6 w v ∧ (b.job? v).isSome = true ∧ b.jobNamed v = false)
      fun b u => u.codec.jobs = b.codec.jobs.filter (fun j => j.id != v)
        ∧ u.codec.streams = b.codec.streams.filter (fun x => x.job != v)
        ∧ u.reg K.JobCount = u.codec.jobs.length
        ∧ b.only [.mem, .net, .dict, .ev, .codec, .comp, .dram] u)

/-- Strips on the decode lanes (R149–R154, R159, R161–R166): a strip that the scheduler starts takes its lane; a strip
that ends with a good verdict is counted and the stream goes on to the next, one that ends with a bad one is recorded
with its reason, and either leaves its lane; a stalled lane that resumes takes what its chain holds, and stalls again
with event 37 while that is less than a header. The model's own choices in it: notes/assumptions/1.md, 13.md, 23.md
and 60.md. -/
def Obligations.DecodeCompletes : Prop :=
  (∀ (t lane stream n a len : Nat) (x : Stream), lane < 32 → x.streamed = false → 32 ≤ len →
    Completes (.stripDecodeStart t lane stream 0) t
      (fun b => b.fnOn fnDecode = true ∧ b.flag K.DramTrained = true ∧ b.codec.lanes.length = 32
        ∧ (b.lane lane).work = none ∧ (b.lane lane).retired = false
        ∧ (∀ k, k < 32 → ∀ w, (b.lane k).work = some w → w.stream ≠ stream)
        ∧ b.stream? stream = some x ∧ b.dec? stream = none ∧ b.freeSlot = some n
        ∧ b.storedStrip x 0 = some (a, len) ∧ flushByte (b.bytesAt a len) = true
        ∧ b.headerReason x { id := stream, slot := n } 0 len false ((b.bytesAt a len).take 32) = 0)
      fun _ u => ((u.lane lane).work.map fun w => (w.stream, w.strip)) = some (stream, 0)
        ∧ (u.dec? stream).isSome = true ∧ u.reg (K.DecodeLaneStream + lane) = stream)
  ∧ (∀ (t lane : Nat) (w : LaneWork) (x : Stream) (d : DecStream), lane < 32 → w.verdict = some 0 → x.streamed = false →
    Completes (.stripDecodeEnd t lane) t
      (fun b => b.codec.lanes.length = 32 ∧ (b.lane lane).work = some w ∧ b.stream? w.stream = some x
        ∧ b.dec? w.stream = some d)
      fun b u => (u.lane lane).work = none ∧ u.reg K.StripsDecoded = (b.reg K.StripsDecoded + 1) % 2 ^ 64
        ∧ u.reg K.RawLinesDecoded = (b.reg K.RawLinesDecoded + w.raws) % 2 ^ 64
        ∧ (u.dec? w.stream).map (·.next) = some (w.strip + 1))
  ∧ (∀ (t lane v : Nat) (w : LaneWork), lane < 32 → w.verdict = some v → v ≠ 0 →
    Completes (.stripDecodeEnd t lane) t
      (fun b => b.codec.lanes.length = 32 ∧ (b.lane lane).work = some w ∧ b.fnOn fnDecode = true)
      fun _ u => (u.lane lane).work = none ∧ u.reg K.LastFailedStream = w.stream ∧ u.reg K.LastFailedStrip = w.strip
        ∧ u.reg K.LastFailReason = v)
  ∧ (∀ (t lane : Nat) (w : LaneWork) (x : Stream) (d : DecStream) (c : Chain), lane < 32 → w.verdict = none →
    w.refetch = false →
    Completes (.decodeResume t lane) t
      (fun b => b.islandReady islCODEC = true ∧ b.codec.lanes.length = 32 ∧ (b.lane lane).work = some w
        ∧ b.stream? w.stream = some x ∧ b.dec? w.stream = some d ∧ b.chain? w.stream = some c
        ∧ (b.takeStrip c).1 ≠ [] ∧ (w.got ++ (b.takeStrip c).1).length < 32)
      fun b u => (u.lane lane).work = some { w with got := w.got ++ (b.takeStrip c).1 } ∧ b.raised [37] u)
  ∧ (∀ (t lane : Nat) (wr : Wr) (w : LaneWork) (x : Stream) (d : DecStream) (c : Chain), lane < 32 → w.verdict = none →
    w.refetch = false →
    Completes (.inputSpoolResume t lane wr) t
      (fun b => b.takes 0x2413 (lane + 1) wr 1 ∧ b.codec.lanes.length = 32 ∧ (b.lane lane).work = some w
        ∧ b.stream? w.stream = some x ∧ b.dec? w.stream = some d ∧ b.chain? w.stream = some c
        ∧ (b.takeStrip c).1 ≠ [] ∧ (w.got ++ (b.takeStrip c).1).length < 32)
      fun b u => (u.lane lane).work = some { w with got := w.got ++ (b.takeStrip c).1 } ∧ b.raised [37] u)

/-- Encode lanes (R152, R153, R155–R158): a valid command runs, one whose state slot does not hold the stream faults with
event 40; a lane whose lines are all encoded is Done with event 43; a flush request takes effect after the lines begun
by then, and its short strip written ends it with event 41; a stalled lane whose held bytes find buffers runs again.
The model's own choices in it: notes/assumptions/1.md, 13.md and 23.md. -/
def Obligations.EncodeCompletes : Prop :=
  (∀ (t lane v : Nat) (w : Wr), lane < 4 →
    Completes (.encodeCommand t lane w) t
      (fun b => b.takes 0x2420 (lane + 1) w v ∧ lane < b.codec.encs.length ∧ b.encStatus lane ≠ encRunning
        ∧ b.encStatus lane ≠ encStalled ∧ b.fnOn fnEncode = true ∧ encodeValid { cmd := leBytes 48 v } = true)
      fun b u =>
        let e : Enc := { cmd := leBytes 48 v }
        let lacks := bit e.flags 1 && !b.slotHolds e.stateSlot e.stream
        u.reg (K.EncodeBitsOut + lane) = 0 ∧ u.reg (K.EncodeRawLines + lane) = 0
        ∧ (lacks = true → u.encStatus lane = encFault ∧ b.raised [40] u ∧ u.codec = b.codec)
        ∧ (lacks = false → u.encStatus lane = encRunning ∧ (u.enc lane).cmd = leBytes 48 v ∧ (u.enc lane).done = 0)
        ∧ b.regsBut [K.EncodeBitsOut + lane, K.EncodeRawLines + lane, K.EncodeStatus + lane] u
        ∧ b.only [.dict, .ev, .codec] u)
  ∧ (∀ (t lane : Nat), lane < 4 →
    Completes (.encodeDone t lane) t
      (fun b =>
        let r := (encodeTo lane none).run b
        b.encStatus lane = encRunning ∧ (b.enc lane).short = false ∧ r.encStatus lane = encRunning
        ∧ (r.enc lane).done = (r.enc lane).lineCount)
      fun b u => u.encStatus lane = encDone ∧ b.raised [43] u ∧ b.only [.mem, .dict, .ev, .codec, .dram] u)
  ∧ (∀ (t lane : Nat) (w : Wr), lane < 4 →
    Completes (.flushRequest t lane w) t
      (fun b =>
        let r := (encodeTo lane (some b.now)).run b
        b.takes 0x2422 (lane + 1) w 1 ∧ b.encStatus lane = encRunning ∧ r.encStatus lane = encRunning
        ∧ lane < r.codec.encs.length)
      fun b u =>
        let e := ((encodeTo lane (some b.now)).run b).enc lane
        u.enc lane = (if e.count = 0 then { e with flush := true, st := e.params.fresh e.width }
          else { e with short := true }) ∧ b.only [.mem, .dict, .ev, .codec, .dram] u)
  ∧ (∀ (t lane : Nat), lane < 4 →
    Completes (.flushDone t lane) t
      (fun b =>
        let r := (when ((b.enc lane).count != 0) (emitStrip lane)).run b
        (b.enc lane).short = true ∧ (b.enc lane).held = [] ∧ (r.enc lane).held = [])
      fun b u => (u.enc lane).short = false ∧ b.raised [41] u ∧ b.only [.mem, .dict, .ev, .codec, .dram] u)
  ∧ (∀ (t lane : Nat) (w : Wr), lane < 4 →
    Completes (.spoolResume t lane w) t
      (fun b =>
        let r := (encodeOut lane (b.enc lane).held).run b
        b.takes 0x2423 (lane + 1) w 1 ∧ b.encStatus lane = encStalled ∧ (r.enc lane).held = [])
      fun b u => u.encStatus lane = encRunning ∧ (u.enc lane).held = []
        ∧ b.only [.mem, .dict, .ev, .codec, .dram] u)

/-- The compositor (R168, R172, R180–R185, R188, R190, R462): the next line of an ink is composed once its sources are
there; a copy is decided when the furthest-upstream row comes within 128 lines; a commit of a layer that passes the
checks of R182 waits for its copy, and one that fails leaves its code; the P package is checked and taken. The model's
own choices in it: notes/assumptions/1.md, 13.md, 24.md and 71.md. -/
def Obligations.CompositorCompletes : Prop :=
  (∀ (t ink line : Nat) (c : Copy) (x : Content), ink < 8 →
    Completes (.composeLine t ink line []) t
      (fun b => b.fnOn fnComp = true ∧ b.composeCopy ink = some c ∧ b.content? c.num = some x
        ∧ c.composed.getD ink 0 = line ∧ c.bandBlank ink (line / 64) ≠ some true ∧ line < 2
        ∧ line < c.written.getD ink 0 + 2 ∧ b.sourcesReady x ink line = true)
      fun b u =>
        u.mem = (if (b.compositeLine x ink line []).isEmpty then Memory.erase b.mem (compositeLineAt ink line) 196608
          else Memory.storeBytes b.mem (compositeLineAt ink line) ((b.compositeLine x ink line []).flatMap (leBytes 2)))
        ∧ u.fire.copies = b.fire.copies.map (fun k =>
            if k.num = c.num then { k with composed := modAt k.composed ink (· + 1) } else k)
        ∧ b.only [.mem, .dict, .fire, .comp, .codec] u)
  ∧ (∀ (t mode : Nat) (m : Int),
    Completes (.copyDecision t) t
      (fun b => b.fnOn fnComp = true ∧ b.nextDecision = some (m, mode) ∧ b.decisionDue m mode = true)
      fun b u => u.reg K.DecidedCopy = rawOf 8 m ∧ (u.copy? m).isSome = true
        ∧ b.only [.mem, .dict, .ev, .sys, .comp, .tone, .fire, .loop, .dram, .time] u)
  ∧ (∀ (t l v target : Nat) (w : Wr), l < 8 →
    Completes (.layerCommit t l w) t
      (fun b => b.takes (0x4301 + 0x10 * l) 1 w v ∧ target = (if v = 0 then b.nextUndecided else v)
        ∧ l < b.comp.layers.length ∧ b.takesFor target = true ∧ b.commitRefusal l (b.stagedDesc l) target = 0)
      fun b u => (u.comp.layers.getD l {}).pending = some (b.stagedDesc l, target)
        ∧ u.reg (layerKey K.CommitRefusal l) = 0 ∧ u.reg (layerKey K.PendingCopy l) = target
        ∧ b.regsBut [layerKey K.CommitRefusal l, layerKey K.PendingCopy l, layerKey K.LayerState l] u
        ∧ b.only [.dict, .comp] u)
  ∧ (∀ (t l v target : Nat) (w : Wr), l < 8 →
    Completes (.layerCommit t l w) t
      (fun b => b.takes (0x4301 + 0x10 * l) 1 w v ∧ target = (if v = 0 then b.nextUndecided else v)
        ∧ b.takesFor target = true ∧ b.commitRefusal l (b.stagedDesc l) target ≠ 0)
      fun b u => u.reg (layerKey K.CommitRefusal l) = b.commitRefusal l (b.stagedDesc l) target
        ∧ b.raised [50, 12] u ∧ b.only [.dict, .ev] u)
  ∧ (∀ (t l v target : Nat) (w : Wr), l < 8 →
    Completes (.layerEmptyCommit t l w) t
      (fun b => b.takes (0x4301 + 0x10 * l) 2 w v ∧ target = (if v = 0 then b.nextUndecided else v)
        ∧ l < b.comp.layers.length ∧ b.takesFor target = true ∧ b.copyDecided target = false)
      fun b u => (u.comp.layers.getD l {}).pending = some (emptyDesc (b.reg (layerKey K.RequiredFence l)), target)
        ∧ u.reg (layerKey K.CommitRefusal l) = 0 ∧ u.reg (layerKey K.PendingCopy l) = target
        ∧ b.regsBut [layerKey K.CommitRefusal l, layerKey K.PendingCopy l, layerKey K.LayerState l] u
        ∧ b.only [.dict, .comp] u)
  ∧ (∀ (t l v : Nat) (w : Wr), l < 8 →
    Completes (.fenceReached t l w) t (fun b => b.takes (0x4301 + 0x10 * l) 3 w v)
      fun b u => u.reg (layerKey K.FenceReached l) = v ∧ b.regsBut [layerKey K.FenceReached l] u ∧ b.only [.dict] u)
  ∧ (∀ (t : Nat) (w : Wr),
    Completes (.protectedLoad t w) t
      (fun b => b.takes 0x4381 1 w 1 ∧ b.isHolder = true ∧ b.comp.checking = false ∧ b.sec.loading = none)
      fun b u => u.comp = { b.comp with checking := true } ∧ b.only [.comp] u)
  ∧ (∀ (t : Nat),
    Completes (.protectedLayerLoaded t) t
      (fun b => b.comp.checking = true ∧ b.packageRefusal protectedInboxAt 0x1000000 2 false ≠ 0)
      fun b u => u.comp = { b.comp with checking := false }
        ∧ u.reg K.PackageRefusal = b.packageRefusal protectedInboxAt 0x1000000 2 false
        ∧ b.raised [254, 53] u ∧ b.regsBut [K.PackageRefusal] u ∧ b.only [.dict, .ev, .comp] u)
  ∧ (∀ (t : Nat) (p : List Nat),
    Completes (.protectedLayerLoaded t) t
      (fun b => b.comp.checking = true ∧ b.packageRefusal protectedInboxAt 0x1000000 2 false = 0
        ∧ p = b.bytesAt (protectedInboxAt + 224) (Memory.value b.mem (protectedInboxAt + 12) 4)
        ∧ b.payloadFits p = true)
      fun b u => u.comp.checking = false ∧ u.comp.accepted = some b.comp.nextPackage
        ∧ u.comp.packages = (b.comp.nextPackage, p) :: b.comp.packages
        ∧ u.mem = Memory.storeBytes (Memory.erase b.mem protectedStart 0x1000000) protectedStart p
        ∧ b.raised [52] u ∧ b.only [.mem, .ev, .comp, .dram] u)

/-- The tone pipeline (R197, R201, R204, R206): an ink lane decides its next drop line; a nozzle enters and leaves the
missing set; and the builder writes its staging bank. The model's own choices in it: notes/assumptions/1.md. -/
def Obligations.ToneCompletes : Prop :=
  (∀ (t ink : Nat) (c : Copy) (r : Ring), ink < 8 →
    Completes (.decideDropLine t ink []) t
      (fun b => b.fnOn fnTone = true ∧ b.laneCopy ink = some c ∧ b.copy? c.num = some c
        ∧ b.ring? c.mode ink = some r ∧ c.ladder = none ∧ c.dropped = []
        ∧ c.bandBlank ink (c.written.getD ink 0 / 64) = some false ∧ c.written.getD ink 0 < c.composed.getD ink 0)
      fun b u =>
        let y := c.written.getD ink 0
        u.mem = Memory.storeBytes b.mem (r.lineAt c y)
          (packCodes (codeBits c.mode) ((b.inkNozzles ink).map fun n => (b.decideNozzle c ink y n []).1))
        ∧ u.reg K.LinesDecided = (b.reg K.LinesDecided + 1) % 2 ^ 64
        ∧ (∃ c', u.copy? c.num = some c' ∧ c'.written = modAt c.written ink (· + 1))
        ∧ b.regsBut [K.LinesDecided, K.InkLimitColumns, K.CompensationClipped] u
        ∧ b.only [.mem, .dict, .ev, .fire, .dram] u)
  ∧ (∀ (t v : Nat) (w : Wr),
    Completes (.missingNozzleMark t w) t
      (fun b => b.inv = true ∧ b.takes 0x2630 3 w v ∧ v < b.nozzleCount ∧ b.missingOf v = 0)
      fun b u => u.missingOf v = 3 ∧ u.reg K.MissingCount = (b.reg K.MissingCount + 1) % 2 ^ 32 ∧ b.raised [66] u
        ∧ b.regsBut [K.MissingCount] u ∧ b.only [.mem, .dict, .ev, .tone] u)
  ∧ (∀ (t v : Nat) (w : Wr),
    Completes (.missingNozzleClear t w) t
      (fun b => b.inv = true ∧ b.takes 0x2630 4 w v ∧ v < b.nozzleCount ∧ b.missingOf v ≠ 0)
      fun b u => u.missingOf v = 0 ∧ u.reg K.MissingCount = b.reg K.MissingCount - 1
        ∧ b.regsBut [K.MissingCount] u ∧ b.only [.mem, .dict, .tone] u)
  ∧ (∀ (t : Nat),
    Completes (.compensationBuild t) t
      (fun b => b.reg K.BankOwner = 1 ∧ b.tone.wanted = true ∧ b.reg K.BankCommitState ≠ 1
        ∧ b.reg K.BankCommitState ≠ 2 ∧ b.flag K.BankCopyBusy = false ∧ b.isHolder = true)
      fun b u => u.tone.wanted = false ∧ u.tone.curves = [] ∧ u.tone.builder = true
        ∧ u.reg K.BankCommitState = 1 ∧ u.reg K.BankCommitRefusal = 0 ∧ u.reg K.BankCommitCopy = b.nextUndecided
        ∧ b.only [.mem, .dict, .ev, .tone] u)

/-- The nozzle banks (R206, R217): a copy of the bank in force runs; a commit is requested, checked, comes into force at
its copy or is refused with its code, and is cancelled. The model's own choices in it: notes/assumptions/1.md and
13.md. -/
def Obligations.BankCompletes : Prop :=
  (∀ (t : Nat) (w : Wr),
    Completes (.bankCopyRequest t w) t
      (fun b => b.takes 0x2601 6 w 1 ∧ b.flag K.BankCopyBusy = false ∧ b.reg K.BankCommitState ≠ 1
        ∧ b.reg K.BankCommitState ≠ 2)
      fun b u => u.reg K.BankCopyBusy = 1 ∧ u.tone = { b.tone with copying := true } ∧ b.regsBut [K.BankCopyBusy] u
        ∧ b.only [.dict, .tone] u)
  ∧ (∀ (t : Nat),
    Completes (.bankCopyDone t) t (fun b => b.tone.copying = true)
      fun b u => u.mem = Memory.copy b.mem (bankAt (b.reg K.BankInForce)) (bankAt b.stagingBank) b.bankBytes
        ∧ (∀ i < 4, u.reg (K.WaveMap2 + i) = b.reg (K.WaveMap2InForce + i)
          ∧ u.reg (K.WaveMap4 + i) = b.reg (K.WaveMap4InForce + i))
        ∧ u.reg K.BankCopyBusy = 0 ∧ u.tone = { b.tone with copying := false } ∧ b.only [.mem, .dict, .tone] u)
  ∧ (∀ (t v target : Nat) (w : Wr),
    Completes (.bankCommit t w) t
      (fun b => b.takes 0x2601 1 w v ∧ target = (if v = 0 then b.nextUndecided else v) ∧ b.takesFor target = true
        ∧ b.reg K.BankOwner ≠ 1 ∧ b.flag K.BankCopyBusy = false ∧ b.reg K.BankCommitState ≠ 1
        ∧ b.reg K.BankCommitState ≠ 2)
      fun b u => u.reg K.BankCommitState = 1 ∧ u.reg K.BankCommitRefusal = 0 ∧ u.reg K.BankCommitCopy = target
        ∧ b.regsBut [K.BankCommitState, K.BankCommitRefusal, K.BankCommitCopy] u ∧ b.only [.dict, .tone] u)
  ∧ (∀ (t : Nat),
    Completes (.bankCommitChecked t) t (fun b => b.reg K.BankCommitState = 1 ∧ b.bankRefusal ≠ 0)
      fun b u => u.reg K.BankCommitState = 3 ∧ u.reg K.BankCommitRefusal = b.bankRefusal
        ∧ u.reg K.BankCommitCopy = 0xFFFFFFFFFFFFFFFF ∧ b.raised [65] u
        ∧ b.regsBut [K.BankCommitState, K.BankCommitRefusal, K.BankCommitCopy] u ∧ b.only [.dict, .ev, .tone] u)
  ∧ (∀ (t : Nat),
    Completes (.bankCommitChecked t) t
      (fun b => b.reg K.BankCommitState = 1 ∧ b.bankRefusal = 0 ∧ isPrint b.mode = true)
      fun b u => u.reg K.BankCommitState = 2 ∧ b.regsBut [K.BankCommitState] u ∧ b.only [.dict] u)
  ∧ (∀ (t : Nat),
    Completes (.bankCommitChecked t) t
      (fun b => b.reg K.BankCommitState = 1 ∧ b.bankRefusal = 0 ∧ isPrint b.mode = false)
      fun b u => u.reg K.BankInForce = b.stagingBank ∧ u.reg K.BankStaging = 1 - b.stagingBank
        ∧ u.reg K.BankInForceVersion = (b.reg K.BankInForceVersion + 1) % 2 ^ 32
        ∧ u.reg K.BankInForceSince = b.reg K.BankCommitCopy
        ∧ (∀ i < 4, u.reg (K.WaveMap2InForce + i) = b.reg (K.WaveMap2 + i)
          ∧ u.reg (K.WaveMap4InForce + i) = b.reg (K.WaveMap4 + i))
        ∧ u.reg K.BankCommitState = 0 ∧ b.raised [64] u ∧ b.only [.dict, .ev, .tone, .loop] u)
  ∧ (∀ (t : Nat) (w : Wr),
    Completes (.bankCommitCancel t w) t
      (fun b => b.takes 0x2601 2 w 1 ∧ (b.reg K.BankCommitState = 1 ∨ b.reg K.BankCommitState = 2))
      fun b u => u.reg K.BankCommitState = 0 ∧ u.reg K.BankCommitCopy = 0xFFFFFFFFFFFFFFFF
        ∧ b.regsBut [K.BankCommitState, K.BankCommitCopy] u ∧ b.only [.dict, .tone] u)

/-- Threshold arrays (R210, R216, R218): a load reads the inbox and waits for its check, is refused with its code where it
fails, is committed to its slot, and a slot not in use is released. The model's own choices in it:
notes/assumptions/1.md, 8.md and 13.md. -/
def Obligations.ScreensComplete : Prop :=
  (∀ (t v : Nat) (w : Wr),
    Completes (.screenArrayLoad t w) t
      (fun b => b.takes 0x2610 1 w v ∧ v &&& 0x01FF0107 = v
        ∧ b.screenRefusal (bits v 0 3) (bits v 8 1) (bits v 16 9) = 0)
      fun b u => u.tone.load = some ⟨bits v 0 3, bits v 8 1, bits v 16 9⟩ ∧ u.reg K.ScreenLoadRefusal = 0
        ∧ u.reg K.ScreenLoadState = 1 ∧ b.regsBut [K.ScreenLoadRefusal, K.ScreenLoadState] u ∧ b.only [.dict, .tone] u)
  ∧ (∀ (t v : Nat) (w : Wr),
    Completes (.screenArrayLoad t w) t
      (fun b => b.takes 0x2610 1 w v ∧ v &&& 0x01FF0107 = v
        ∧ b.screenRefusal (bits v 0 3) (bits v 8 1) (bits v 16 9) ≠ 0)
      fun b u => u.reg K.ScreenLoadRefusal = b.screenRefusal (bits v 0 3) (bits v 8 1) (bits v 16 9)
        ∧ b.raised [65] u ∧ b.regsBut [K.ScreenLoadRefusal, K.ScreenLoadState] u ∧ b.only [.dict, .ev] u)
  ∧ (∀ (t slot format unit : Nat), slot < 8 →
    Completes (.screenArrayCommitted t) t (fun b => b.tone.load = some ⟨slot, format, unit⟩)
      fun b u => u.mem = Memory.copy b.mem screenInboxAt (screenAt + unit * 32768) (arrayUnits format * 32768)
        ∧ u.reg (K.ScreenSlotState + slot) = 2 ^ 31 + unit * 2 ^ 16 + format * 2 ^ 8 ∧ u.reg K.ScreenLoadState = 2
        ∧ u.tone = { b.tone with load := none } ∧ b.raised [69] u ∧ b.only [.mem, .dict, .ev, .tone] u)
  ∧ (∀ (t v : Nat) (w : Wr), v < 8 →
    Completes (.screenArrayRelease t w) t (fun b => b.takes 0x2610 2 w v ∧ b.slotInUse v = false)
      fun b u => u.reg (K.ScreenSlotState + v) = 0 ∧ b.regsBut [K.ScreenSlotState + v, K.ScreenUnitsFree] u
        ∧ b.only [.dict] u)

/-- Firing (R229–R231, R241, R242, R244): a row line that is due is sent or skipped and its row moves on; heads whose
telemetry fails are inhibited and recover; the tickle goes out in Ready; and a gain curve that ascends is taken. The
model's own choices in it: notes/assumptions/1.md. -/
def Obligations.FiringCompletes : Prop :=
  (∀ (t : Nat) (d : Due) (c : Copy) (ring : Ring) (bank : Nat),
    Completes (.rowLineIssue t) t
      (fun b => b.fnOn fnFire = true ∧ b.fire.service = none
        ∧ (b.copyDue (b.predictor (signedOf 4 (Config.freeValue b.free)))).foldr insertDue [] = [d] ∧ d.fate = .send
        ∧ b.copy? d.num = some c ∧ b.ring? c.mode (b.linkInk d.l) = some ring
        ∧ b.bankOf d.l d.sl (b.versionFor d.num (b.headType d.l d.sl)) = some bank
        ∧ 12 * d.l + d.sl < b.fire.heads.length ∧ d.r < (b.head d.l d.sl).rows.length)
      fun b u => u.reg K.RowLinesIssued = (b.reg K.RowLinesIssued + 1) % 2 ^ 64
        ∧ (u.row d.l d.sl d.r).next = some (d.num, d.y + 1) ∧ (u.row d.l d.sl d.r).last = some d.stamp.toNat
        ∧ (∃ p, .packet d.l pkLINE p ∈ u.out) ∧ b.only [.dict, .ev, .fire, .link, .loop] u)
  ∧ (∀ (t : Nat) (d : Due) (c : Copy),
    Completes (.rowLineIssue t) t
      (fun b => b.fnOn fnFire = true ∧ b.fire.service = none
        ∧ (b.copyDue (b.predictor (signedOf 4 (Config.freeValue b.free)))).foldr insertDue [] = [d] ∧ d.fate = .skip
        ∧ b.copy? d.num = some c
        ∧ 12 * d.l + d.sl < b.fire.heads.length ∧ d.r < (b.head d.l d.sl).rows.length)
      fun b u => u.reg K.LinesSkippedCount = (b.reg K.LinesSkippedCount + 1) % 2 ^ 32
        ∧ u.reg K.RowLinesIssued = b.reg K.RowLinesIssued
        ∧ (u.row d.l d.sl d.r).next = some (d.num, d.y + 1) ∧ b.raised [97] u
        ∧ b.only [.dict, .ev, .fire, .loop] u)
  ∧ (∀ (t l slot : Nat),
    Completes (.telemetryTimeout t l slot) t
      (fun b => (b.headState l slot = 2 ∨ b.headState l slot = 3) ∧ 12 * l + slot < b.fire.heads.length
        ∧ ∀ x, (b.head l slot).reportAt = some x → x + b.reg K.TelemetryTimeout ≤ b.now)
      fun b u => u.headState l slot = 4 ∧ (u.head l slot).lost = true ∧ b.raised [101] u
        ∧ b.regsBut [slotKey K.HeadState l slot, K.FiringEventSlot + 5] u ∧ b.only [.dict, .ev, .fire] u)
  ∧ (∀ (t l slot x : Nat),
    Completes (.headRecovered t l slot) t
      (fun b => (b.headState l slot = 3 ∨ b.headState l slot = 4) ∧ 12 * l + slot < b.fire.heads.length
        ∧ (b.head l slot).goodSince = some x ∧ x + b.reg K.HeadRecoverTime ≤ b.now)
      fun b u => u.headState l slot = 2 ∧ (u.head l slot).hot = false ∧ b.raised [100] u
        ∧ b.regsBut [slotKey K.HeadState l slot, K.FiringEventSlot + 4] u ∧ b.only [.dict, .ev, .fire] u)
  ∧ (∀ (t : Nat),
    Completes (.tickleReady t) t
      (fun b => b.reg K.TickleReadyRate ≠ 0 ∧ b.health.shuttingDown = false ∧ b.mode = mReady ∧ b.inTransition = false
        ∧ b.fire.tickleAt + 1000000000 / b.reg K.TickleReadyRate ≤ b.now)
      fun b u => u.fire = { b.fire with tickleAt := b.now }
        ∧ (∀ p ∈ b.slots, b.slotSendable p.1 p.2 = true → (b.idleBank p.1 p.2).isSome = true →
          (b.factsOf (b.headType p.1 p.2)).tickle ≠ 0xFF → ∃ d, .packet p.1 pkFIRE d ∈ u.out)
        ∧ b.only [.dict, .fire, .link] u)
  ∧ (∀ (t l slot v : Nat) (w : Wr), slot < 12 →
    Completes (.tempCurveWrite t l slot w) t
      (fun b => l < b.linkCount ∧ b.takes (0x4100 + 12 * l + slot) 0x0F w v ∧ curveAscends v = true)
      fun b u => u.reg (slotKey K.TempCurve l slot) = v ∧ b.regsBut [slotKey K.TempCurve l slot] u ∧ b.only [.dict] u)

/-- Waveforms (R245–R248): a push that passes its checks sends the table to the first slot, and one that fails is refused
with its code; an acknowledgement moves the push on, a wrong one and a timeout fail it, a cancel ends it; and the
staged version of a head type is switched at its copy. The model's own choices in it: notes/assumptions/1.md. -/
def Obligations.WaveformsComplete : Prop :=
  (∀ (t v : Nat) (w : Wr),
    Completes (.wavePushRequest t w) t
      (fun b => b.takes 0x2710 1 w v ∧ b.isHolder = true ∧ b.pushRefusal v = 0)
      fun b u => u.reg K.WavePushRefusal = 0 ∧ u.reg K.WavePushState = 1 ∧ u.reg K.WavePushFailSlot = 0xFFFF
        ∧ u.fire.push.map (·.version) = some (b.reg K.WavePushVersion) ∧ b.raised [104] u
        ∧ b.regsBut [K.WavePushRefusal, K.WavePushState, K.WavePushFailSlot] u ∧ b.only [.dict, .ev, .fire, .link] u)
  ∧ (∀ (t v : Nat) (w : Wr),
    Completes (.wavePushRequest t w) t
      (fun b => b.takes 0x2710 1 w v ∧ b.isHolder = true ∧ b.pushRefusal v ≠ 0)
      fun b u => u.reg K.WavePushRefusal = b.pushRefusal v
        ∧ b.regsBut [K.WavePushRefusal, K.WavePushState] u ∧ b.only [.dict] u)
  ∧ (∀ (t l slot : Nat) (data : List Nat) (p : Push),
    Completes (.waveAck t l slot data) t
      (fun b => b.fire.push = some p ∧ field data 1 1 = 0 ∧ field data 4 4 = p.version ∧ field data 0 1 = 0
        ∧ p.waiting.any (fun x => x.1 == 12 * l + slot) = true)
      fun b u => u.fire.push.map (·.acked) = some (p.acked ++ [12 * l + slot])
        ∧ b.regsBut [K.WavePushState] u ∧ b.only [.dict, .ev, .fire, .link] u)
  ∧ (∀ (t l slot : Nat) (data : List Nat) (p : Push),
    Completes (.waveAck t l slot data) t
      (fun b => b.fire.push = some p ∧ field data 1 1 = 0 ∧ field data 4 4 = p.version ∧ field data 0 1 = 1
        ∧ p.tokens = [12 * l + slot])
      fun b u => u.fire.push = none ∧ u.reg K.WavePushState = 3
        ∧ (∀ ty ∈ typesOf p.mask, u.reg (K.WaveVersionStaged + ty) = p.version) ∧ b.only [.dict, .fire] u)
  ∧ (∀ (t l slot : Nat) (p : Push),
    Completes (.waveAckTimeout t l slot) t
      (fun b => b.fire.push = some p
        ∧ p.waiting.any (fun x => x.1 == 12 * l + slot && x.2 + b.reg K.WaveAckTimeout ≤ b.now) = true)
      fun b u => u.fire = { b.fire with push := none } ∧ u.reg K.WavePushState = 5
        ∧ u.reg K.WavePushFailSlot = 12 * l + slot ∧ b.raised [106] u ∧ b.only [.dict, .ev, .fire] u)
  ∧ (∀ (t : Nat) (w : Wr),
    Completes (.wavePushCancel t w) t (fun b => b.takes 0x2710 6 w 1 ∧ b.reg K.WavePushState = 1)
      fun b u => u.fire = { b.fire with push := none } ∧ u.reg K.WavePushState = 5
        ∧ u.reg K.WavePushFailSlot = 0xFFFF ∧ b.raised [106] u
        ∧ b.regsBut [K.WavePushState, K.WavePushFailSlot] u ∧ b.only [.dict, .ev, .fire] u)
  ∧ (∀ (t ty v target : Nat) (w : Wr), ty < 8 →
    Completes (.waveBankSwitch t ty w) t
      (fun b => b.takes 0x2713 (ty + 1) w v ∧ target = (if v = 0 then b.nextUndecided else v) ∧ b.takesFor target = true
        ∧ b.reg (K.WaveVersionStaged + ty) ≠ 0 ∧ b.untokened ty (b.reg (K.WaveVersionStaged + ty)) = false)
      fun b u =>
        (isPrint b.mode = true → u.reg (K.WaveSwitchCopy + ty) = target ∧ b.regsBut [K.WaveSwitchCopy + ty] u)
        ∧ (isPrint b.mode = false → u.reg (K.WaveVersionInForce + ty) = b.reg (K.WaveVersionStaged + ty)
          ∧ u.reg (K.WaveVersionStaged + ty) = 0
          ∧ b.regsBut [K.WaveVersionInForce + ty, K.WaveVersionStaged + ty, K.WaveSwitchCopy + ty] u)
        ∧ b.only [.dict, .fire] u)

/-- Service patterns (R253, R254): in Service a spit, a purge and a ladder start on the slots of the inks in
ServiceInkMask; a spit's pulses go out in turn; and a pattern ends by its last pulse, by its duration or by a cancel.
The model's own choices in it: notes/assumptions/1.md and 15.md. -/
def Obligations.ServiceCompletes : Prop :=
  (∀ (t : Nat) (w : Wr),
    Completes (.serviceSpit t w) t
      (fun b => w.val = 1 ∧ b.takes 0x2740 1 w 1 ∧ b.mode = mService ∧ b.fire.service = none
        ∧ (b.reg K.SpitCode ≤ 3 ∨ b.serviceNarrow = false))
      fun b u =>
        let v : Service := { pattern := 1, slots := b.serviceTargets, left := b.reg K.SpitCount, nextAt := b.now }
        u.fire = { b.fire with service := some v } ∧ u.reg K.ServiceState = 1 ∧ b.regsBut [K.ServiceState] u ∧ b.only [.dict, .fire, .time] u)
  ∧ (∀ (t : Nat) (w : Wr),
    Completes (.servicePurge t w) t
      (fun b => w.val = 2 ∧ b.takes 0x2740 1 w 2 ∧ b.mode = mService ∧ b.fire.service = none)
      fun b u =>
        let v : Service := { pattern := 2, slots := b.serviceTargets, endAt := b.now + b.reg K.PurgeDuration + 100000000 }
        u.fire = { b.fire with service := some v } ∧ u.reg K.ServiceState = 1 ∧ b.regsBut [K.ServiceState] u ∧ b.only [.dict, .fire, .time, .link] u)
  ∧ (∀ (t : Nat) (w : Wr),
    Completes (.serviceLadder t w) t
      (fun b => w.val = 3 ∧ b.takes 0x2740 1 w 3 ∧ b.mode = mService ∧ b.fire.service = none ∧ b.speedValid = true
        ∧ b.webSpeed ≤ 500000 ∧ (b.reg K.LadderCode ≤ 3 ∨ b.serviceNarrow = false))
      fun b u =>
        let v : Service := { pattern := 3, slots := b.serviceTargets, passes := if b.hasUpper then 2 else 1 }
        u.fire = { b.fire with service := some v } ∧ u.reg K.ServiceState = 1 ∧ u.reg K.LadderStartTotal = rawOf 8 b.ladderStart
        ∧ b.regsBut [K.ServiceState, K.LadderStartTotal] u ∧ b.only [.dict, .fire, .time] u)
  ∧ (∀ (t : Nat) (w : Wr),
    Completes (.serviceCancel t w) t
      (fun b => w.val = 0 ∧ b.takes 0x2740 1 w 0 ∧ b.mode = mService ∧ b.fire.service.isSome = true)
      fun b u => u.fire = { b.fire with service := none } ∧ u.reg K.ServiceState = 0 ∧ u.reg K.ServiceLastResult = 1
        ∧ b.raised [107] u ∧ b.regsBut [K.ServiceState, K.ServiceLastResult] u ∧ b.only [.dict, .ev, .fire] u)
  ∧ (∀ (t : Nat) (v : Service),
    Completes (.spitPulse t) t
      (fun b => b.fire.service = some v ∧ v.pattern = 1 ∧ v.nextAt ≤ b.now)
      fun b u =>
        (2 ≤ v.left → u.fire.service = some { v with left := v.left - 1, nextAt := b.now + 1000000000 / b.reg K.SpitRate })
        ∧ (v.left ≤ 1 → u.fire = { b.fire with service := none } ∧ u.reg K.ServiceState = 0
          ∧ u.reg K.ServiceLastResult = 0 ∧ b.raised [107] u)
        ∧ b.only [.dict, .ev, .fire, .link] u)
  ∧ (∀ (t : Nat) (v : Service),
    Completes (.purgeEnd t) t (fun b => b.fire.service = some v ∧ v.pattern = 2 ∧ v.endAt ≤ b.now)
      fun b u => u.fire = { b.fire with service := none } ∧ u.reg K.ServiceState = 0 ∧ u.reg K.ServiceLastResult = 0
        ∧ b.raised [107] u ∧ b.regsBut [K.ServiceState, K.ServiceLastResult] u ∧ b.only [.dict, .ev, .fire] u)

/-- Reports on the head links (R231, R237, R249–R252, R264, R268, R273, R277, R279, R282): the first Status record brings
a link up; a bank report, a late record, a rejected packet and a nozzle flag are counted and act; a CFG reply is kept
or the request tried again; an echo enters the path delay; a return packet that fails is counted. The model's own
choices in it: notes/assumptions/1.md, 36.md and 62.md. -/
def Obligations.LinkReportsComplete : Prop :=
  (∀ (t l : Nat) (data : List Nat),
    Completes (.statusRecord t l data) t
      (fun b => b.linkThere l = true ∧ (b.lnk l).lock = true ∧ b.lreg K.LinkVersion l ≠ 0
        ∧ (b.linkState l = 1 ∨ b.linkState l = 2) ∧ l < b.link.links.length)
      fun b u => u.linkState l = 3 ∧ bit (u.reg K.LinksUp) l = true ∧ (u.lnk l).present = field data 0 2 % 4096
        ∧ u.lreg K.FarEndClaimHolder l = field data 3 1
        ∧ u.lreg K.LinkUpTime l = min (b.now - (b.lnk l).startAt) (2 ^ 32 - 1)
        ∧ b.only [.dict, .ev, .sys, .fire, .link, .loop, .dram, .time, .bridle] u)
  ∧ (∀ (t l : Nat) (data : List Nat),
    Completes (.statusRecord t l data) t
      (fun b => b.linkThere l = true ∧ (b.lnk l).lock = true ∧ b.lreg K.LinkVersion l ≠ 0 ∧ b.linkState l = 3
        ∧ l < b.link.links.length ∧ field data 3 1 ≠ 1)
      fun b u => u.linkState l = 3 ∧ (u.lnk l).present = field data 0 2 % 4096
        ∧ u.reg (linkKey K.LaneErrors l) = (b.reg (linkKey K.LaneErrors l) + field data 4 2) % 2 ^ 32
        ∧ u.reg (linkKey K.LaneErrors l + 1) = (b.reg (linkKey K.LaneErrors l + 1) + field data 6 2) % 2 ^ 32
        ∧ u.lreg K.FarEndClaimHolder l = field data 3 1 ∧ b.only [.dict, .ev, .fire, .link, .bridle] u)
  ∧ (∀ (t l slot : Nat) (data : List Nat),
    Completes (.bankReport t l slot data) t (fun b => l < b.link.links.length)
      fun b u => u.reg (slotKey K.Bank0Version l slot) = field data 0 4
        ∧ u.reg (slotKey K.Bank1Version l slot) = field data 4 4 ∧ bit (u.lnk l).reports slot = true
        ∧ b.only [.dict, .ev, .fire, .link] u)
  ∧ (∀ (t l slot : Nat) (data : List Nat),
    Completes (.lateRecord t l slot data) t (fun _ => True)
      fun b u => u.reg K.LinesSkippedCount = (b.reg K.LinesSkippedCount + 1) % 2 ^ 32
        ∧ u.reg (slotKey K.HeadLinesSkipped l slot) = (b.reg (slotKey K.HeadLinesSkipped l slot) + 1) % 2 ^ 32
        ∧ u.fire.copies = b.fire.copies.map (fun c =>
            if some c.num = b.sentCopy l slot (field data 0 1) (field data 2 2)
            then { c with waste := setBit c.waste wHead true } else c)
        ∧ b.raised [97] u
        ∧ b.regsBut [K.LinesSkippedCount, slotKey K.HeadLinesSkipped l slot, K.FiringEventSlot + 1] u
        ∧ b.only [.dict, .ev, .fire] u)
  ∧ (∀ (t l slot : Nat) (data : List Nat) (x : Sent), slot < 16 → field data 0 1 ≠ 1 →
    Completes (.rejectedRecord t l slot data) t
      (fun b => ((b.lnk l).sent.find? fun y => y.seq == field data 2 2) = some x ∧ x.kind = pkLINE)
      fun b u => u.reg K.LinesRejectedCount = (b.reg K.LinesRejectedCount + 1) % 2 ^ 32
        ∧ u.reg (slotKey K.HeadLinesRejected l x.slot) = (b.reg (slotKey K.HeadLinesRejected l x.slot) + 1) % 2 ^ 32
        ∧ u.fire.copies = b.fire.copies.map (fun c =>
            if c.num = x.copy then { c with waste := setBit c.waste wHead true } else c)
        ∧ b.raised [103] u ∧ b.only [.dict, .ev, .fire] u)
  ∧ (∀ (t l slot : Nat) (data : List Nat), slot < 16 → field data 0 1 = 1 →
    Completes (.rejectedRecord t l slot data) t (fun _ => True)
      fun b u => u.reg (linkKey K.ForwardPacketsLost l)
          = (b.reg (linkKey K.ForwardPacketsLost l) + field data 4 2) % 2 ^ 32
        ∧ b.only [.dict, .ev, .fire, .link] u)
  ∧ (∀ (t l slot : Nat) (data : List Nat),
    Completes (.nozzleFlag t l slot data) t
      (fun b =>
        let n := 49152 * l + b.reg (slotKey K.SlotFirstNozzle l slot) + field data 2 2
        b.inv = true ∧ field data 1 1 ≤ 2 ∧ bit (b.reg K.NozzleFlagKindMask) (field data 1 1) = true
        ∧ bit (b.reg K.SourceMask) 0 = true ∧ n < b.nozzleCount ∧ b.missingOf n = 0)
      fun b u => u.missingOf (49152 * l + b.reg (slotKey K.SlotFirstNozzle l slot) + field data 2 2) = 1
        ∧ u.reg K.NozzleFlagsReceived = (b.reg K.NozzleFlagsReceived + 1) % 2 ^ 32
        ∧ u.reg K.NozzleFlagsAdded = (b.reg K.NozzleFlagsAdded + 1) % 2 ^ 32
        ∧ u.reg K.MissingCount = (b.reg K.MissingCount + 1) % 2 ^ 32
        ∧ b.raised [102, 66] u ∧ b.only [.mem, .dict, .ev, .tone] u)
  ∧ (∀ (t l slot : Nat) (data : List Nat), bit (field data 1 1) 7 = true →
    Completes (.nozzleFlag t l slot data) t (fun _ => True)
      fun b u => u.reg K.NozzleFlagsReceived = (b.reg K.NozzleFlagsReceived + 1) % 2 ^ 32
        ∧ u.reg (slotKey K.NozzleFlagsFromHead l slot) = (b.reg (slotKey K.NozzleFlagsFromHead l slot) + 1) % 2 ^ 32
        ∧ b.raised [102] u
        ∧ b.regsBut [K.NozzleFlagsReceived, slotKey K.NozzleFlagsFromHead l slot, K.FiringEventSlot + 6] u
        ∧ b.only [.dict, .ev] u)
  ∧ (∀ (t l slot : Nat) (data : List Nat) (c : CfgReq),
    Completes (.cfgReply t l slot data) t
      (fun b => ((b.lnk l).cfgs.find? fun c => c.tag == field data 0 1 && c.slot == slot) = some c ∧ c.use = 0
        ∧ l < b.link.links.length)
      fun b u => u.lreg K.HeadCfgState l = 2
        ∧ u.lreg K.HeadCfgReply l
          = closeBytes ([field data 1 1, field data 2 1, 0, 0] ++ (data.drop 4).take 256)
        ∧ (u.lnk l).cfgs = (b.lnk l).cfgs.filter (fun x => x.tag != c.tag)
        ∧ b.regsBut [linkKey K.HeadCfgState l, linkKey K.HeadCfgReply l] u ∧ b.only [.dict, .link] u)
  ∧ (∀ (t l : Nat) (c : CfgReq),
    Completes (.cfgTimeout t l) t
      (fun b => ((b.lnk l).cfgs.find? fun c => c.since + b.reg K.CfgTimeout ≤ b.now) = some c ∧ c.use = 0)
      fun b u => (c.tries < 3 → ∃ d, .packet l pkCFG d ∈ u.out)
        ∧ (3 ≤ c.tries → u.lreg K.HeadCfgState l = 3) ∧ b.regsBut [linkKey K.HeadCfgState l] u
        ∧ b.only [.dict, .link] u)
  ∧ (∀ (t l arrival q dep : Nat) (data : List Nat),
    Completes (.syncEcho t l data arrival) t
      (fun b => ((b.lnk l).echoWait.find? fun e => e.1 == field data 0 2) = some (q, dep) ∧ (b.lnk l).accepted < 16
        ∧ l < b.link.links.length)
      fun b u =>
        let echoes := (((arrival : Int) - dep - field data 4 8) :: (b.lnk l).echoes).take 16
        (u.lnk l).echoes = echoes ∧ (u.lnk l).accepted = (b.lnk l).accepted + 1
        ∧ u.lreg K.PathDelay l = rawOf 4 (roundDiv (echoes.sum * 1000) (2 * echoes.length * 65536))
        ∧ b.regsBut [linkKey K.PathDelay l] u ∧ b.only [.dict, .link] u)
  ∧ (∀ (t l cause : Nat), cause ≤ 3 →
    Completes (.returnPacketRejected t l cause) t (fun b => b.linkThere l = true)
      fun b u => u.lreg K.ReturnPacketsRejected l = (b.lreg K.ReturnPacketsRejected l + 1) % 2 ^ 32
        ∧ b.regsBut [linkKey K.ReturnPacketsRejected l] u ∧ b.only [.dict] u)

/-- Bring-up of the head links (R257, R261–R266, R284, R492): a return clock starts a link and a marker locks it;
forerunner training runs; a link that stays down or is lost counts a fault and starts anew. The model's own choices in
it: notes/assumptions/1.md. -/
def Obligations.LinkUpCompletes : Prop :=
  (∀ (t l : Nat),
    Completes (.returnClockValid t l) t
      (fun b => b.linkThere l = true ∧ (b.lnk l).clock = false ∧ (b.linkState l = 0 ∨ b.linkState l = 4)
        ∧ l < b.link.links.length)
      fun b u => (u.lnk l).clock = true ∧ (u.lnk l).lock = false ∧ (u.lnk l).clockAt = b.now
        ∧ u.linkState l = (if (b.lnk l).old = true ∨ b.lreg K.LinkVersionLimit l = 0x12 then 2 else 1)
        ∧ bit (u.reg K.LinksUp) l = false ∧ b.only [.dict, .link] u)
  ∧ (∀ (t l marker v : Nat),
    Completes (.markerLock t l marker) t
      (fun b =>
        let inv := bits marker 0 8 == 255 - 0x4B
        b.linkThere l = true ∧ (b.lnk l).clock = true ∧ (b.lnk l).lock = false ∧ b.linkState l = 1
        ∧ l < b.link.links.length ∧ (List.range 4).map (blockByte marker inv) = [0x4B, 2, 0x5A, 0xC3]
        ∧ v = agreedVersion (b.lreg K.LinkVersionLimit l) (blockByte marker inv 5) (blockByte marker inv 4) false)
      fun b u => u.lreg K.LinkVersion l = v
        ∧ u.lreg K.PartnerVersionMax l = blockByte marker (bits marker 0 8 == 255 - 0x4B) 4
        ∧ (v ≠ 0 → (u.lnk l).lock = true ∧ u.linkState l = 1) ∧ (v = 0 → (u.lnk l).lock = false ∧ u.linkState l = 4)
        ∧ b.only [.dict, .link] u)
  ∧ (∀ (t l block n : Nat), 16 ≤ n → blockByte block (bits block 0 8 == 255 - 0x2D) 0 = 0x2D →
    Completes (.trainingBlockReceived t l block n) t
      (fun b => b.linkThere l = true ∧ (b.lnk l).clock = true ∧ (b.lnk l).lock = false ∧ b.linkState l = 1)
      fun b u => u.linkState l = 2 ∧ .blocks l bsTs1 ∈ u.out
        ∧ b.regsBut [linkKey K.LinkState l, linkKey K.LaneCorrection l] u ∧ b.only [.dict, .link] u)
  ∧ (∀ (t l : Nat),
    Completes (.linkUpTimeout t l) t
      (fun b => b.linkThere l = true ∧ (b.lnk l).clock = true ∧ (b.linkState l = 1 ∨ b.linkState l = 2)
        ∧ (b.lnk l).clockAt + b.reg K.LinkUpTimeout ≤ b.now)
      fun b u => u.reg K.LastFaultSource = faultSource 1 l
        ∧ (u.linkState l = 1 ∨ u.linkState l = 2 ∨ u.linkState l = 6)
        ∧ b.only [.mem, .dict, .ev, .sys, .fire, .link, .dram, .time, .health] u)
  ∧ (∀ (t l cause : Nat), cause ≤ 2 →
    Completes (.linkLoss t l cause) t (fun b => b.linkThere l = true ∧ b.linkState l = 3)
      fun b u => u.lreg K.LinkLossCount l = bump 4 (b.lreg K.LinkLossCount l) ∧ u.linkState l ≠ 3
        ∧ bit (u.reg K.LinksUp) l = false ∧ u.reg K.LastFaultSource = faultSource 1 l ∧ b.raised [128 + l] u
        ∧ b.only [.mem, .dict, .ev, .sys, .fire, .link, .dram, .time, .health] u)

/-- Care of the head links (R265, R266, R273, R275, R276, R284–R288): a link is restarted, limited, tested and
recalibrated on request; AM periods, claims and CFG requests go out. The model's own choices in it:
notes/assumptions/1.md and 63.md. -/
def Obligations.LinkCareCompletes : Prop :=
  (∀ (t l : Nat) (w : Wr),
    Completes (.linkRestart t l w) t
      (fun b => b.takes (0x4000 + 0x10 * l) 0x0F w 1 ∧ (b.mode = mStandby ∨ b.mode = mReady))
      fun b u => u.isRetired (faultSource 1 l) = false ∧ bit (u.reg K.LinksRetired) l = false
        ∧ bit (u.reg K.LinksUp) l = false
        ∧ u.linkState l = (if (b.lnk l).clock = false then 0
            else if (b.lnk l).old = true ∨ b.lreg K.LinkVersionLimit l = 0x12 then 2 else 1)
        ∧ b.only [.mem, .dict, .ev, .health, .link] u)
  ∧ (∀ (t l v : Nat) (w : Wr), v = 0x12 ∨ v = 0x20 ∨ v = 0x21 →
    Completes (.linkVersionLimitWrite t l w) t
      (fun b => b.takes (0x4000 + 0x10 * l) 5 w v ∧ b.linkState l ≠ 6)
      fun b u => u.lreg K.LinkVersionLimit l = v ∧ u.lreg K.LinkVersion l = 0 ∧ bit (u.reg K.LinksUp) l = false
        ∧ b.only [.dict, .ev, .link] u)
  ∧ (∀ (t l : Nat) (w : Wr),
    Completes (.prbsModeOn t l w) t
      (fun b => w.val = 1 ∧ b.takes (0x4001 + 0x10 * l) 7 w 1 ∧ b.mode = mReady ∧ b.inTransition = false
        ∧ b.linkUp l = true ∧ 0x20 ≤ b.lreg K.LinkVersion l ∧ bit (b.lreg K.PartnerFeatures l) 1 = true)
      fun b u => u.lreg K.PrbsMode l = 1 ∧ (∃ d, .packet l pkCFG d ∈ u.out) ∧ b.regsBut [linkKey K.PrbsMode l] u
        ∧ b.only [.dict, .link] u)
  ∧ (∀ (t l rx : Nat) (w : Wr),
    Completes (.prbsModeOff t l rx w) t
      (fun b => w.val = 0 ∧ b.takes (0x4001 + 0x10 * l) 7 w 0 ∧ b.mode = mReady ∧ b.inTransition = false
        ∧ b.linkState l = 5)
      fun b u => u.lreg K.PrbsMode l = 0 ∧ u.reg (linkKey K.PrbsErrors l + 2) = rx % 2 ^ 32 ∧ u.linkState l ≠ 5
        ∧ b.only [.dict, .link] u)
  ∧ (∀ (t l errors : Nat),
    Completes (.amPeriod t l errors) t
      (fun b => b.linkThere l = true ∧ b.linkState l ≠ 5 ∧ l < b.link.links.length)
      fun b u => .blocks l bsAm ∈ u.out ∧ (u.lnk l).amErrors = errors
        ∧ u.reg (linkKey K.LaneErrors l + 2) = (b.reg (linkKey K.LaneErrors l + 2) + errors) % 2 ^ 32
        ∧ ((0 < errors ∨ (b.lnk l).amFresh = true) → (b.lnk l).hadError = false → b.raised [144 + l] u)
        ∧ b.regsBut [linkKey K.LaneErrors l + 2] u ∧ b.only [.dict, .ev, .link] u)
  ∧ (∀ (t : Nat),
    Completes (.claimSend t) t (fun b => b.sys.dictReady = true)
      fun b u => u.link.claimSeq = (b.link.claimSeq + 1) % 65536
        ∧ (∀ l < b.linkCount, (b.lnk l).lock = true → 0x20 ≤ b.lreg K.LinkVersion l → b.linkState l ≠ 6 →
          ∃ d, .packet l pkCLAIM d ∈ u.out)
        ∧ b.only [.link] u)
  ∧ (∀ (t l v : Nat) (w : Wr),
    Completes (.headCfgRequest t l w) t
      (fun b => b.takes (0x4002 + 0x10 * l) 1 w v ∧ b.linkUp l = true ∧ b.lreg K.HeadCfgState l ≠ 1
        ∧ (bits v 0 8 < 12 ∨ bits v 0 8 = 15)
        ∧ (bits v 8 8 = 0 ∨ (bits v 8 8 = 1 ∧ 0x80 ≤ bits v 32 16 ∧ b.isHolder = true))
        ∧ 1 ≤ bits v 16 8 ∧ bits v 16 8 ≤ 64 ∧ bits v 24 8 = 0 ∧ bits v 48 16 = 0)
      fun b u => u.lreg K.HeadCfgState l = 1 ∧ (∃ d, .packet l pkCFG d ∈ u.out)
        ∧ b.regsBut [linkKey K.HeadCfgState l] u ∧ b.only [.dict, .link] u)
  ∧ (∀ (t v : Nat) (w : Wr),
    Completes (.recalibrationRequest t w) t (fun b => b.takes 0x2800 0x0D w v ∧ b.mode = mReady)
      fun b u => (∀ l < b.linkCount, bit v l = true → l < b.link.links.length → (u.lnk l).recal.isSome = true)
        ∧ b.only [.link] u)
  ∧ (∀ (t l margin : Nat),
    Completes (.recalibrationStep t l margin) t
      (fun b => b.linkThere l = true ∧ b.mode = mReady ∧ b.linkUp l = true
        ∧ bit (b.lreg K.PartnerFeatures l) 2 = true ∧ l < b.link.links.length
        ∧ ∃ r, (b.lnk l).recal = some r ∧ r.got.length < 15)
      fun b u => (∃ r, (b.lnk l).recal = some r
          ∧ (u.lnk l).recal = some { r with got := r.got ++ [(r.got.length / 8, r.got.length % 8, margin)] })
        ∧ b.only [.link] u)

/-- Inspection frames (R290, R294, R298, R300, R303, R305): a frame starts, fills with lines, ends or times out; the line
stage corrects a line and the frame stage takes a frame, whose statistics then go to the port's ring. The model's own
choices in it: notes/assumptions/1.md, 29.md and 64.md. -/
def Obligations.InspectionCompletes : Prop :=
  (∀ (t p : Nat) (pkt : CsiPacket) (sh : Shot) (rest : List Shot), pkt.ecc = 0 → pkt.dataType = 0 →
    Completes (.csiPacket t p pkt) t
      (fun b => p < b.portCount ∧ p < b.cam.ports.length ∧ b.islandReady islCAM = true ∧ b.portLive p = true
        ∧ b.mode ≠ mStandby ∧ pkt.vc = (b.prt p).conf.image ∧ (b.prt p).frame = none ∧ (b.prt p).shots = sh :: rest)
      fun b u => u.reg (portKey K.PortFramesReceived p) = (b.reg (portKey K.PortFramesReceived p) + 1) % 2 ^ 32
        ∧ u.portState p = 2 ∧ (u.prt p).shots = rest ∧ (u.prt p).frame.map (·.shot) = some sh
        ∧ b.only [.mem, .dict, .ev, .cam, .tone, .loop] u)
  ∧ (∀ (t p : Nat) (pkt : CsiPacket) (f : Frame), pkt.ecc = 0 → pkt.crcOk = true →
    pkt.dataType = 0x2B ∨ pkt.dataType = 0x2C ∨ pkt.dataType = 0x2E →
    Completes (.csiPacket t p pkt) t
      (fun b => p < b.portCount ∧ p < b.cam.ports.length ∧ b.islandReady islCAM = true ∧ b.portLive p = true
        ∧ b.mode ≠ mStandby ∧ pkt.vc = (b.prt p).conf.image
        ∧ pkt.dataType = (b.prt p).conf.dataType ∧ (b.prt p).frame = some f ∧ (b.prt p).ended = none
        ∧ (b.prt p).dropping = false ∧ f.shot.exps ≠ 2 ∧ f.lines < b.reg K.FrameLines
        ∧ (unpackPixels pkt.dataType pkt.payload).length = (b.prt p).conf.width)
      fun b u => (u.prt p).ready = (b.prt p).ready ++ [⟨f.lines, unpackPixels pkt.dataType pkt.payload, none,
            if f.shot.bands = 0 then 0 else f.lines % f.shot.bands, b.now⟩]
        ∧ (u.prt p).frame.map (·.lines) = some (f.lines + 1) ∧ b.only [.cam] u)
  ∧ (∀ (t p : Nat) (f : Frame),
    Completes (.frameEnd t p) t
      (fun b => p < b.portCount ∧ p < b.cam.ports.length ∧ b.portLive p = true ∧ (b.prt p).frame = some f
        ∧ (b.prt p).dropping = false ∧ (b.prt p).ended = none ∧ b.reg K.FrameLines ≤ f.lines ∧ f.frayed = false)
      fun b u => (u.prt p).frame = none ∧ (u.prt p).ended = some { f with endAt := b.now } ∧ b.only [.cam] u)
  ∧ (∀ (t p x : Nat) (f : Frame),
    Completes (.frameTimeout t p) t
      (fun b => p < b.cam.ports.length ∧ b.portLive p = true ∧ (b.prt p).frame = some f ∧ f.shot.last = some x
        ∧ x + b.reg K.FrameTimeout ≤ b.now)
      fun b u => (u.prt p).frame = none
        ∧ u.reg (portKey K.FrameTimeouts p) = (b.reg (portKey K.FrameTimeouts p) + 1) % 2 ^ 32
        ∧ b.only [.mem, .dict, .ev, .cam, .tone, .loop, .health] u)
  ∧ (∀ (t p : Nat) (r : RawLine) (rest : List RawLine),
    Completes (.lineStage t p) t
      (fun b => p < b.cam.ports.length ∧ (b.prt p).ready = r :: rest ∧ b.lineNext p = true)
      fun b u => u.mem = Memory.storeBytes b.mem (shareAt p + 12288 * r.line)
          ((b.replaced p (b.gained p r.pos (b.mergedLine p r))).flatMap (leBytes 2))
        ∧ (u.prt p).ready = rest ∧ b.only [.mem, .dict, .ev, .cam] u)
  ∧ (∀ (t p : Nat),
    Completes (.frameStageTake t p) t
      (fun b => p < b.cam.ports.length ∧ b.fnOn fnInspect = true ∧ b.takeNext p = true)
      fun b u => u.cam.stage = b.cam.stage ++ [p] ∧ (u.prt p).ended = none ∧ (u.prt p).staged.isSome = true
        ∧ u.reg K.FramesInFrameStage = b.cam.stage.length + 1 ∧ b.regsBut [K.FramesInFrameStage] u
        ∧ b.only [.dict, .cam] u)
  ∧ (∀ (t p : Nat) (rest : List Nat) (f : Frame),
    Completes (.statisticsReady t) t
      (fun b => b.cam.stage = p :: rest ∧ p < b.cam.ports.length ∧ (b.prt p).staged = some f)
      fun b u => u.cam.stage = rest ∧ (u.prt p).staged = none
        ∧ u.reg (portKey K.StatisticsWriteIndex p) = (b.reg (portKey K.StatisticsWriteIndex p) + 1) % 2 ^ 32
        ∧ b.raised [169] u ∧ b.only [.mem, .dict, .ev, .cam, .health, .tone, .fire, .loop, .dram] u)

/-- Camera ports (R293, R301, R302, R309–R312): configuration, coefficients and CCI transfers are committed or refused
with their codes; dark and flat captures run; a retired port restarts. The model's own choices in it:
notes/assumptions/1.md and 65.md. -/
def Obligations.CameraCommandsComplete : Prop :=
  (∀ (t p : Nat) (w : Wr), p < 8 →
    Completes (.portCommit t p w) t
      (fun b => p < b.cam.ports.length ∧ b.takes (0x4200 + 0x10 * p) 0x0B w 1 ∧ b.portRefusal p (b.portStaged p) = 0)
      fun b u => (u.prt p).conf = b.portStaged p ∧ (u.prt p).frame = none
        ∧ u.reg (portKey K.PortCommitRefusal p) = 0
        ∧ (b.portState p ≠ 3 → u.portState p = if (b.portStaged p).enable = true then 1 else 0)
        ∧ b.only [.mem, .dict, .ev, .cam, .tone, .loop] u)
  ∧ (∀ (t p : Nat) (w : Wr), p < 8 →
    Completes (.portCommit t p w) t
      (fun b => b.takes (0x4200 + 0x10 * p) 0x0B w 1 ∧ b.portRefusal p (b.portStaged p) ≠ 0)
      fun b u => u.reg (portKey K.PortCommitRefusal p) = b.portRefusal p (b.portStaged p) ∧ b.raised [12] u
        ∧ b.only [.dict, .ev] u)
  ∧ (∀ (t p : Nat) (w : Wr), p < 8 →
    Completes (.coefficientCommit t p w) t
      (fun b => p < b.cam.ports.length ∧ b.takes 0x2903 (p + 1) w 1)
      fun b u =>
        let block := b.bytesAt (coefficientAt p false) 131072
        let code := coefRefusal (b.prt p).conf.width block
        u.reg (K.CoefficientCommitRefusal + p) = code
        ∧ (code = 0 → (u.prt p).pend = some (block, if isPrint b.mode then some (b.master.copies + 1) else none)
          ∧ b.regsBut [K.CoefficientCommitRefusal + p] u)
        ∧ (code ≠ 0 → u.cam = b.cam ∧ b.raised [12] u)
        ∧ b.only [.dict, .ev, .cam] u)
  ∧ (∀ (t p v : Nat) (w : Wr) (c : List Nat), p < 8 → 8 ≤ w.len → c = leBytes w.len v → field c 0 1 ≤ 1 →
    field c 1 1 ≤ 127 → 1 ≤ field c 2 1 → field c 2 1 ≤ 2 → 1 ≤ field c 3 1 → field c 3 1 ≤ 32 → field c 6 2 = 0 →
    (field c 0 1 = 1 → w.len = 8 + field c 3 1) →
    Completes (.cciRequest t p w) t
      (fun b => b.takes (0x4202 + 0x10 * p) 1 w v ∧ b.reg (portKey K.CciState p) ≠ 1)
      fun b u => u.reg (portKey K.CciState p) = 1 ∧ u.cam = { b.cam with cci := b.cam.cci.set p c } ∧ .cci p c ∈ u.out
        ∧ b.regsBut [portKey K.CciState p] u ∧ b.only [.dict, .cam] u)
  ∧ (∀ (t p status : Nat) (data : List Nat),
    Completes (.cciDone t p status data) t (fun b => b.reg (portKey K.CciState p) = 1)
      fun b u => u.reg (portKey K.CciState p) = (if status = 0 then 2 else 3)
        ∧ u.cam = { b.cam with cci := b.cam.cci.set p [] } ∧ (status ≠ 0 → b.raised [172] u)
        ∧ b.regsBut [portKey K.CciState p, portKey K.CciReply p, K.InspectionEventPort + 12] u
        ∧ b.only [.dict, .ev, .cam] u)
  ∧ (∀ (t : Nat) (w : Wr),
    Completes (.flatFieldCaptureRequest t w) t
      (fun b => b.takes 0x2900 0x0F w 1 ∧ (b.mode = mReady ∨ b.mode = mService) ∧ b.speedValid = true)
      fun b u => (∀ p ∈ b.livePorts, p < b.cam.ports.length → (u.prt p).flatOn = true ∧ (u.prt p).flatFrames = 0
          ∧ (u.prt p).flatPrior = none)
        ∧ b.regsBut [K.CalibrationState] u ∧ b.only [.dict, .cam] u)
  ∧ (∀ (t p : Nat),
    Completes (.flatFieldCapture t p) t
      (fun b => p < b.cam.ports.length ∧ (b.prt p).flatOn = true
        ∧ b.reg K.FlatFramesPerCapture ≤ (b.prt p).flatFrames ∧ (b.prt p).flatPrior = none)
      fun b u => (u.prt p).flatPrior = some (b.flatGains (b.prt p).flatSum) ∧ (u.prt p).flatFrames = 0
        ∧ (u.prt p).flatOn = true ∧ b.regsBut [K.CalibrationState] u ∧ b.only [.dict, .cam] u)
  ∧ (∀ (t p : Nat) (g : List (List Nat)), p < 8 →
    Completes (.flatFieldCapture t p) t
      (fun b => p < b.cam.ports.length ∧ (b.prt p).flatOn = true
        ∧ b.reg K.FlatFramesPerCapture ≤ (b.prt p).flatFrames ∧ (b.prt p).flatPrior = some g)
      fun b u =>
        let good := capturesAgree (b.reg K.FlatTolerance) (fun _ => true) g (b.flatGains (b.prt p).flatSum)
        (u.prt p).flatOn = false
        ∧ (good = true → (u.prt p).pend.isSome = true
          ∧ u.reg (K.CalibrationCount + 3) = (b.reg (K.CalibrationCount + 3) + 1) % 2 ^ 32 ∧ b.raised [243] u)
        ∧ (good = false → (u.prt p).pend = (b.prt p).pend
          ∧ u.reg (K.CalibrationDiscarded + 3) = (b.reg (K.CalibrationDiscarded + 3) + 1) % 2 ^ 32 ∧ b.raised [244] u)
        ∧ b.only [.dict, .ev, .cam, .health] u)
  ∧ (∀ (t p : Nat),
    Completes (.darkCapture t p) t
      (fun b => p < b.cam.ports.length ∧ b.portLive p = true ∧ b.mode ≠ mStandby
        ∧ exposures b.mode ≤ (b.prt p).darkLines.length ∧ (b.prt p).darkSum.length = exposures b.mode
        ∧ (b.prt p).darkCount + 1 < b.reg K.DarkLinesPerCapture)
      fun b u => (u.prt p).darkCount = (b.prt p).darkCount + 1 ∧ (u.prt p).darkLines = []
        ∧ b.regsBut [K.CalibrationState] u ∧ b.only [.dict, .cam] u)
  ∧ (∀ (t p : Nat) (w : Wr), p < 8 →
    Completes (.portRestart t p w) t
      (fun b => b.takes (0x4200 + 0x10 * p) 0x0C w 1 ∧ b.mode ≤ 1 ∧ b.portState p = 3)
      fun b u => u.isRetired (faultSource 2 p) = false
        ∧ u.portState p = (if (b.prt p).conf.enable = true then 1 else 0)
        ∧ .ball (.camRstN p) (if (b.prt p).conf.enable = true then 1 else 0) ∈ u.out
        ∧ b.only [.mem, .dict, .ev, .tone, .loop, .health] u)

/-- Illumination (R316, R320–R326, R328, R330): a pulse ends and its column's gate falls; stage current out of range ends
a pulse; gap lines carry the confirming and diagnostic pulses; a configuration that passes its checks waits for its
frame; and the driver restarts after a failure. The model's own choices in it: notes/assumptions/1.md and 67.md. -/
def Obligations.IlluminationCompletes : Prop :=
  (∀ (t c sum n isns vsns vend : Nat) (clip : Bool) (p : Pulse) (rest : List Pulse),
    Completes (.pulseEnd t c sum n clip isns vsns vend) t (fun b => b.ill.pulses.getD c [] = p :: rest)
      fun b u => .ball (.gate c) 0 ∈ u.out ∧ (rest = [] → .ball (.row p.row) 0 ∈ u.out)
        ∧ (p.width < 2000 → u.ill.pulses = b.ill.pulses.set c rest)
        ∧ b.only [.mem, .dict, .ev, .health, .tone, .loop, .ill] u)
  ∧ (∀ (t c : Nat), c < 16 →
    Completes (.stageCurrentFault t c) t (fun _ => True)
      fun b u => .ball (.gate c) 0 ∈ u.out ∧ b.raised [180] u
        ∧ b.only [.mem, .dict, .ev, .health, .tone, .loop, .ill] u)
  ∧ (∀ (t n : Nat) (rest : List Nat),
    Completes (.gapLinePulse t) t
      (fun b => b.illWorks = true ∧ b.isHolder = true ∧ b.ill.confirm = n :: rest)
      fun b u => u.reg K.DiagnosticPulses = (b.reg K.DiagnosticPulses + 1) % 2 ^ 32
        ∧ .ball (.row (n % 8)) 1 ∈ u.out ∧ .ball (.gate (n / 8)) 1 ∈ u.out
        ∧ u.ill.openAt = b.now + b.illConf.precharge + b.illConf.delay + 2000 + b.illConf.release
        ∧ b.regsBut [K.DiagnosticPulses] u ∧ b.only [.dict, .ill] u)
  ∧ (∀ (t r : Nat) (rest : List Nat),
    Completes (.gapLinePulse t) t
      (fun b => b.illWorks = true ∧ b.isHolder = true ∧ b.ill.confirm = [] ∧ b.ill.queue = r :: rest)
      fun b u => u.ill.queue = b.ill.queue.filter (· != rest.foldl min r)
        ∧ u.reg K.DiagnosticPulses
          = (b.reg K.DiagnosticPulses + (b.rowStrings (rest.foldl min r)).length) % 2 ^ 32
        ∧ b.regsBut [K.DiagnosticPulses] u ∧ b.only [.dict, .ill] u)
  ∧ (∀ (t : Nat),
    Completes (.diagnosticRound t) t (fun b => b.illWorks = true ∧ b.isHolder = true)
      fun b u =>
        let due := (List.range 8).filter fun r =>
          b.ill.queue.contains r || (List.range 16).any fun c => b.needsPulse (8 * c + r)
        u.ill = { b.ill with queue := due } ∧ b.only [.ill] u)
  ∧ (∀ (t : Nat) (w : Wr),
    Completes (.illuminationCommit t w) t (fun b => b.takes 0x2A00 2 w 1 ∧ b.illRefusal b.illStaged = 0)
      fun b u => u.ill = { b.ill with next := some b.illStaged } ∧ u.reg K.IlluminationCommitRefusal = 0
        ∧ b.only [.mem, .dict, .ev, .tone, .loop, .ill] u)
  ∧ (∀ (t : Nat) (w : Wr),
    Completes (.illuminationCommit t w) t (fun b => b.takes 0x2A00 2 w 1 ∧ b.illRefusal b.illStaged ≠ 0)
      fun b u => u.reg K.IlluminationCommitRefusal = b.illRefusal b.illStaged ∧ b.raised [12] u ∧ b.only [.dict, .ev] u)
  ∧ (∀ (t : Nat) (w : Wr),
    Completes (.illuminationRestart t w) t
      (fun b => b.takes 0x2A00 0x0D w 1 ∧ b.mode ≤ 2 ∧ b.reg K.IlluminationState = 3)
      fun b u => u.reg K.IlluminationState = 1 ∧ u.reg K.OffCause = 0
        ∧ (∀ c < 16, u.isRetired (faultSource 3 c) = false)
        ∧ b.only [.mem, .dict, .ev, .health, .tone, .loop, .ill] u)

/-- The colour loop and the verdicts (R340, R344–R348): references are captured anew from the next copy, the overlap and
substitution calibrations start in a print mode, and the Holder issues the verdict of the next copy. The model's own
choices in it: notes/assumptions/1.md and 18.md. -/
def Obligations.LoopCompletes : Prop :=
  (∀ (t : Nat) (w : Wr),
    Completes (.zoneCaptureRequest t w) t (fun b => b.takes 0x2B00 0x12 w 1)
      fun b u => u.loop.captureFrom = List.replicate 8 (some (b.master.copies + 1)) ∧ u.loop.held = []
        ∧ b.only [.mem, .dict, .ev, .tone, .loop] u)
  ∧ (∀ (t : Nat) (w : Wr),
    Completes (.overlapCalibrationRequest t w) t (fun b => b.takes 0x2B00 0x13 w 1 ∧ isPrint b.mode = true)
      fun b u => u.loop = { b.loop with overlapOn := true, overlapFirst := none } ∧ b.only [.loop] u)
  ∧ (∀ (t : Nat) (w : Wr),
    Completes (.substitutionCalibrationRequest t w) t (fun b => b.takes 0x2B00 0x14 w 1 ∧ isPrint b.mode = true)
      fun b u => u.loop = { b.loop with substOn := true } ∧ b.only [.loop] u)
  ∧ (∀ (t : Nat) (c : Copy) (amended : Bool),
    Completes (.wasteVerdict t) t (fun b => b.isHolder = true ∧ b.verdictNext = some (c, amended))
      fun b u => u.reg K.VerdictWriteIndex = bump 4 (b.reg K.VerdictWriteIndex)
        ∧ u.reg K.LastVerdictCopy = rawOf 8 c.num ∧ u.reg K.LastVerdictReasons = c.waste
        ∧ u.fire.copies = b.fire.copies.map (fun x => if x.num = c.num then { x with verdict := some c.waste } else x)
        ∧ (c.waste ≠ 0 → b.raised [89] u)
        ∧ b.regsBut [K.VerdictWriteIndex, K.LastVerdictCopy, K.LastVerdictReasons, K.WasteCopyCount,
          K.RejectLateCount] u
        ∧ b.only [.mem, .dict, .ev, .fire, .loop, .dram] u)

/-- DRAM accesses (R351, R352, R354, R359–R368): a queued request is written or read with ECC and poison; an access
outside the map is answered with an error; a device mark is cleared; alerts are replayed; refresh and idle pages run.
The model's own choices in it: notes/assumptions/1.md, 5.md and 13.md. -/
def Obligations.MemoryCompletes : Prop :=
  (∀ (t sc : Nat) (reqs : List DramReq) (read : BurstRead) (r : DramReq) (l : List Nat),
    Completes (.dramAccess t sc reqs read) t
      (fun b => b.dramUsable = true ∧ b.dram.asserted.getD sc false = false ∧ b.reg (K.SubchannelState + sc) = 3
        ∧ b.nextRequest sc (reqs.filter fun r =>
            (b.dramMap r.addr).1 == sc && dramStart ≤ r.addr && r.addr < b.dramEnd) = some r
        ∧ protectedFrom r.who r.addr = false ∧ r.write = some l)
      fun b u => u.mem = Memory.storeBytes b.mem r.addr (l.take (64 - r.addr % 64)) ∧ b.only [.mem, .dram] u)
  ∧ (∀ (t sc : Nat) (reqs : List DramReq) (read : BurstRead) (r : DramReq),
    Completes (.dramAccess t sc reqs read) t
      (fun b =>
        let a := r.addr / 64 * 64
        b.dramUsable = true ∧ b.dram.asserted.getD sc false = false ∧ b.reg (K.SubchannelState + sc) = 3
        ∧ b.nextRequest sc (reqs.filter fun r =>
            (b.dramMap r.addr).1 == sc && dramStart ≤ r.addr && r.addr < b.dramEnd) = some r
        ∧ protectedFrom r.who r.addr = false ∧ r.write = none
        ∧ (a ∈ b.dram.poison ∨ eccOf (b.markedOn sc (b.rankOf (b.dramMap a).2)) read.errors = .clean))
      fun b u =>
        let a := r.addr / 64 * 64
        (a ∉ b.dram.poison → .loaded r.who a (b.bytesAt a 64) ∈ u.out ∧ b.only [.dram] u)
        ∧ (a ∈ b.dram.poison → u.reg (K.PoisonedReads + sc) = (b.reg (K.PoisonedReads + sc) + 1) % 2 ^ 32
          ∧ b.raised [186] u ∧ b.only [.dict, .ev, .dram] u))
  ∧ (∀ (t addr : Nat) (who : Initiator) (write : Bool),
    Completes (.accessError t who addr write) t
      (fun b => b.mapped addr = false ∨ (protectedFrom who addr = true ∧ addr < b.dramEnd))
      fun b u => (write = false → .loaded who addr [0] ∈ u.out) ∧ (∀ k, who = .core k → .accessFault k addr ∈ u.out)
        ∧ (∀ c, who = .dma c → .busError c addr ∈ u.out) ∧ b.regsBut [K.ProtectedAccessRefused] u ∧ b.only [.dict] u)
  ∧ (∀ (t sc : Nat) (w : Wr),
    Completes (.deviceMarkClear t sc w) t (fun b => b.takes 0x2C18 (sc + 1) w 1 ∧ b.mode = mReady)
      fun b u => u.reg (K.MarkedDevice + sc) = 0xFF
        ∧ u.dram = { b.dram with marks := b.dram.marks.filter fun m => m.1 != sc }
        ∧ b.regsBut [K.MarkedDevice + sc] u ∧ b.only [.dict, .dram] u)
  ∧ (∀ (t sc : Nat) (writeCrc : Bool), sc < 4 →
    Completes (.alertN t sc writeCrc) t
      (fun b => b.reg (K.SubchannelState + sc) = 3 ∧ b.dram.alert.getD sc none = none ∧ sc < b.dram.alert.length
        ∧ sc < b.dram.asserted.length)
      fun b u => u.dram.alert.getD sc none = some 0 ∧ u.dram.asserted.getD sc false = true
        ∧ u.reg K.LastFaultSource = faultSource 0 sc ∧ b.raised [if writeCrc = true then 188 else 187] u
        ∧ b.only [.mem, .dict, .ev, .sys, .codec, .comp, .fire, .loop, .dram, .net, .time, .health] u)
  ∧ (∀ (t sc n : Nat) (writeCrc : Bool), sc < 4 → 3 ≤ n →
    Completes (.alertN t sc writeCrc) t
      (fun b => b.reg (K.SubchannelState + sc) = 3 ∧ b.dram.alert.getD sc none = some n
        ∧ b.isRetired (faultSource 0 sc) = false)
      fun b u => u.dram.alert.getD sc none = none ∧ u.reg (K.SubchannelState + sc) = 5
        ∧ u.isRetired (faultSource 0 sc) = true ∧ b.raised [189, 241, 242, 195] u
        ∧ b.only [.mem, .dict, .ev, .sys, .codec, .comp, .fire, .loop, .dram, .net, .time, .health] u)
  ∧ (∀ (t sc window n : Nat),
    Completes (.alertNDeasserted t sc window) t
      (fun b => b.dram.alert.getD sc none = some n ∧ b.dram.asserted.getD sc false = true)
      fun b u => u.dram.alert.getD sc none = some (n + 1) ∧ u.dram.asserted.getD sc false = false
        ∧ u.reg (K.AlertReplays + sc) = (b.reg (K.AlertReplays + sc) + 1) % 2 ^ 32
        ∧ b.regsBut [K.AlertReplays + sc] u ∧ b.only [.mem, .dict, .dram] u)
  ∧ (∀ (t sc : Nat) (busy : List Nat), sc < 4 →
    Completes (.refreshInterval t sc busy) t
      (fun b => b.reg (K.SubchannelState + sc) = 3 ∧ b.reg K.DramOperatingPoint ≠ 0)
      fun b u => (∀ key < 4 * b.reg K.RanksPerSubchannel, u.owedOf sc key =
            if busy.contains key = false then 0 else if 4 ≤ b.owedOf sc key then 1 else b.owedOf sc key + 1)
        ∧ b.regsBut [K.ForcedRefreshes + sc, K.MemoryEventSource + 6] u ∧ b.only [.dict, .ev, .dram] u)
  ∧ (∀ (t sc : Nat),
    Completes (.pageIdleTimer t sc) t (fun _ => True)
      fun b u =>
        let open' := b.dram.openRows.filter fun r => !(r.1 == sc && r.2.2.2 + b.reg K.PageIdleTimer ≤ b.now)
        u.dram = { b.dram with openRows := open' } ∧ b.only [.dram] u)

/-- The care of DRAM (R358, R360, R371–R377, R493): training, tracking, ZQ, frequency changes and the scrubber run; the
fixed areas come into use and the ring area is resized. The model's own choices in it: notes/assumptions/1.md, 22.md,
43.md and 94.md. -/
def Obligations.DramCareCompletes : Prop :=
  (∀ (t sc point : Nat) (first second : TrainRun) (intact : Bool), point = 3200 ∨ point = 4800 ∨ point = 6400 →
    first.window = true → second.window = true →
    Completes (.fullTraining t sc point first second intact) t
      (fun b => b.islandReady islMEM = true ∧ b.fitted.contains sc = true
        ∧ (point = 3200 ∨ bit (b.reg (K.PointsTrained + sc)) 0 = true)
        ∧ (b.dram.wantTraining = true ∨ bit (b.reg (K.PointsTrained + sc)) (pointBit point) = false)
        ∧ (b.mode = mReady ∨ b.mode = mService) ∧ runsAgree (b.reg K.TrainingTolerance) first second = true)
      fun b u => bit (u.reg (K.PointsTrained + sc)) (pointBit point) = true ∧ u.reg (K.RetrainNeeded + sc) = 0
        ∧ u.reg (K.CalibrationCount + 5) = (b.reg (K.CalibrationCount + 5) + 1) % 2 ^ 32 ∧ b.raised [191, 243] u
        ∧ b.only [.mem, .dict, .ev, .codec, .comp, .tone, .loop, .dram, .net, .health] u)
  ∧ (∀ (t sc : Nat) (drift : Int), sc < 4 →
    Completes (.trackingStep t sc drift) t
      (fun b => b.reg (K.SubchannelState + sc) = 3 ∧ b.mode ≠ mStandby ∧ b.sys.deep = false)
      fun b u =>
        let lim : Int := b.reg K.DriftLimit
        u.dram = { b.dram with drift := modAt b.dram.drift sc (· + clampInt (-lim) lim drift) }
        ∧ (lim < drift.natAbs → u.reg (K.RetrainNeeded + sc) = 1) ∧ b.regsBut [K.RetrainNeeded + sc] u
        ∧ b.only [.dict, .dram] u)
  ∧ (∀ (t : Nat),
    Completes (.zqCalibration t) t
      (fun b => b.dramUsable = true ∧ b.mode ≠ mStandby ∧ b.dram.zqAt + 128000000 ≤ b.now)
      fun b u => u.dram = { b.dram with zqAt := b.now } ∧ b.only [.dram] u)
  ∧ (∀ (t : Nat) (w : Wr),
    Completes (.retrainRequest t w) t
      (fun b => b.takes 0x2C00 0x0F w 1 ∧ (b.mode = mReady ∨ b.mode = mService))
      fun b u => u.dram = { b.dram with wantTraining := true } ∧ b.only [.dram] u)
  ∧ (∀ (t took p : Nat), p ≠ 0 →
    Completes (.frequencyChange t took) t
      (fun b => b.dram.freqNext = some p ∧ b.flag K.DramTrained = true ∧ b.reg K.DramOperatingPoint ≠ p
        ∧ b.pointTrained p = true)
      fun b u => u.reg K.DramOperatingPoint = p ∧ u.dram.freqNext = none
        ∧ u.reg K.FrequencyChangeTime = min took (2 ^ 32 - 1)
        ∧ (∀ sc ∈ b.working, u.reg (K.SubchannelState + sc) = 3) ∧ b.raised [198, 193] u
        ∧ b.only [.mem, .dict, .ev, .dram] u)
  ∧ (∀ (t took : Nat),
    Completes (.frequencyChange t took) t
      (fun b => b.dram.freqNext = some 0 ∧ b.flag K.DramTrained = true ∧ b.reg K.DramOperatingPoint ≠ 0)
      fun b u => u.reg K.DramOperatingPoint = 0 ∧ u.dram.freqNext = none
        ∧ (∀ sc ∈ b.working, u.reg (K.SubchannelState + sc) = 4) ∧ b.raised [197] u ∧ b.only [.mem, .dict, .ev, .dram] u)
  ∧ (∀ (t : Nat) (read : BurstRead),
    Completes (.scrubUnit t read) t (fun b => b.dramUsable = true ∧ b.dram.swept = false)
      fun b u =>
        let a := b.reg K.ScrubPosition
        u.mem = Memory.erase b.mem a 64 ∧ u.reg K.InitialisedUpTo = a + 64
        ∧ u.reg K.ScrubPosition = (if b.dramEnd ≤ a + 64 then dramStart else a + 64)
        ∧ (b.dramEnd ≤ a + 64 → u.dram.swept = true ∧ b.raised [194] u) ∧ b.only [.mem, .dict, .ev, .dram] u)
  ∧ (∀ (t : Nat) (read : BurstRead),
    Completes (.scrubUnit t read) t
      (fun b =>
        let a := b.reg K.ScrubPosition
        b.dramUsable = true ∧ b.dram.swept = true ∧ a ∉ b.dram.poison
        ∧ eccOf (b.markedOn (b.dramMap a).1 (b.rankOf (b.dramMap a).2)) read.errors = .clean)
      fun b u =>
        let a := b.reg K.ScrubPosition
        u.reg K.ScrubPosition = (if b.dramEnd ≤ a + 64 then dramStart else a + 64)
        ∧ (b.dramEnd ≤ a + 64 → u.reg K.ScrubPassCount = (b.reg K.ScrubPassCount + 1) % 2 ^ 32 ∧ b.raised [194] u)
        ∧ b.regsBut [K.ScrubPosition, K.ScrubPassCount] u ∧ b.only [.dict, .ev] u)
  ∧ (∀ (t v : Nat) (w : Wr),
    Completes (.ringAreaSizeWrite t w) t (fun b => b.takes 0x2C00 6 w v ∧ b.reg K.JobCount = 0)
      fun b u => u.reg K.RingAreaSize = v ∧ u.reg K.JobStoreBase = ringStart + v
        ∧ u.reg K.JobStoreSize = b.reg K.MappedCapacity - (2 ^ 31 + v)
        ∧ b.regsBut [K.RingAreaSize, K.JobStoreBase, K.JobStoreSize, K.JobStoreFree, K.JobCount] u ∧ b.only [.dict] u)
  ∧ (∀ (t : Nat),
    Completes (.dramInitialised t) t
      (fun b => b.pointTrained 3200 = true ∧ b.dram.initialised = false ∧ b.reg K.DramOperatingPoint ≠ 0)
      fun b u => u.reg K.DramTrained = 1 ∧ u.dram.initialised = true ∧ u.reg K.InitialisedUpTo = b.jobStart
        ∧ b.only [.mem, .dict, .tone, .dram, .health] u)

/-- The DMA engine (R379–R382, R387–R392): a program that passes its checks starts and one that fails ends in a program
fault; bursts are granted and end; a channel is disabled; timers assert and withdraw their lines, and SoftRequest is
written. The model's own choices in it: notes/assumptions/1.md, 13.md, 30.md and 72.md. -/
def Obligations.DmaCompletes : Prop :=
  (∀ (t c : Nat) (w : Wr) (prog : List (List Nat)), c < 16 →
    Completes (.channelStart t c w) t
      (fun b => b.takes (0x4400 + 0x10 * c) 6 w 1 ∧ (b.dmaStatus c = 0 ∨ 3 < b.dmaStatus c) ∧ c < b.dma.chans.length
        ∧ b.reg (dmaKey K.ProgramAddress c) % 16 = 0
        ∧ b.fetchProgram c 256 (b.reg (dmaKey K.ProgramAddress c)) = (prog, false)
        ∧ progFault (b.reg (dmaKey K.RequestLine c)) prog 0 0 = none)
      fun b u => u.dmaStatus c = 1 ∧ u.reg (dmaKey K.ProgramCounter c) = 0 ∧ u.dmaChan c = { prog := prog }
        ∧ b.regsBut [dmaKey K.ProgramCounter c, dmaKey K.DmaChannelStatus c] u ∧ b.only [.dict, .dma] u)
  ∧ (∀ (t c : Nat) (w : Wr), c < 16 →
    Completes (.channelStart t c w) t
      (fun b => b.takes (0x4400 + 0x10 * c) 6 w 1 ∧ (b.dmaStatus c = 0 ∨ 3 < b.dmaStatus c)
        ∧ b.reg (dmaKey K.ProgramAddress c) % 16 ≠ 0)
      fun b u => u.dmaStatus c = 5 ∧ u.reg (dmaKey K.ProgramFaultReason c) = 1 ∧ u.reg (dmaKey K.LastCause c) = 3
        ∧ b.raised [200 + c] u
        ∧ b.regsBut [dmaKey K.ProgramCounter c, dmaKey K.ProgramFaultReason c, dmaKey K.DmaChannelStatus c,
          dmaKey K.LastCause c] u
        ∧ b.only [.dict, .ev, .dma] u)
  ∧ (∀ (t c : Nat) (bad : Option Nat),
    Completes (.dmaBurst t bad) t
      (fun b => (∀ k < 16, (b.dmaChan k).flight = none) ∧ b.islandReady islFAB = true ∧ b.dmaGrant = some c
        ∧ c < b.dma.chans.length)
      fun b u =>
        let x := b.dmaChan c
        let i := b.dmaInstr c
        let n := burstBytes i (x.offset true (diSource i)) (x.offset false (diTarget i)) x.done
        u.dmaChan c = { x with flight := some n } ∧ u.reg K.BurstsIssued = (b.reg K.BurstsIssued + 1) % 2 ^ 64
        ∧ (x.tries = 0 → u.reg (dmaKey K.RemainingCount c) = b.reg (dmaKey K.RemainingCount c) - n)
        ∧ b.regsBut [dmaKey K.RemainingCount c, K.BurstsIssued] u ∧ b.only [.dict, .dma] u)
  ∧ (∀ (t c n : Nat) (bad : Option Nat),
    Completes (.dmaBurst t bad) t
      (fun b => ((List.range 16).find? fun k => (b.dmaChan k).flight.isSome) = some c
        ∧ (b.dmaChan c).flight = some n ∧ b.burstFails c n bad = none ∧ diOp (b.dmaInstr c) = 1
        ∧ screenAt ≤ b.burstTarget c)
      fun b u => u.mem = Memory.storeBytes b.mem (b.burstTarget c) (b.bytesAt (b.burstSource c) n)
        ∧ u.reg (dmaKey K.BurstsCompleted c) = (b.reg (dmaKey K.BurstsCompleted c) + 1) % 2 ^ 64
        ∧ b.only [.mem, .dict, .ev, .dma, .dram] u)
  ∧ (∀ (t c a n : Nat) (bad : Option Nat),
    Completes (.dmaBurst t bad) t
      (fun b => ((List.range 16).find? fun k => (b.dmaChan k).flight.isSome) = some c
        ∧ (b.dmaChan c).flight = some n ∧ b.burstFails c n bad = some a)
      fun b u => u.mem = b.mem ∧ u.reg (dmaKey K.FaultAddress c) = a
        ∧ u.reg (dmaKey K.BusErrors c) = (b.reg (dmaKey K.BusErrors c) + 1) % 2 ^ 32
        ∧ (b.reg (dmaKey K.RetryLimit c) ≤ (b.dmaChan c).tries → u.dmaStatus c = 5
          ∧ u.reg (dmaKey K.LastCause c) = 4 ∧ b.raised [200 + c] u)
        ∧ b.only [.dict, .ev, .dma] u)
  ∧ (∀ (t c : Nat) (w : Wr), c < 16 →
    Completes (.channelStop t c w) t (fun b => b.takes (0x4400 + 0x10 * c) 7 w 1 ∧ b.dmaStatus c = 1)
      fun b u =>
        ((b.dmaChan c).flight.isSome = true ∨ (b.dmaChan c).tries ≠ 0 → u.dmaStatus c = 3 ∧ b.only [.dict] u)
        ∧ ((b.dmaChan c).flight = none ∧ (b.dmaChan c).tries = 0 → u.dmaStatus c = 0
          ∧ u.reg (dmaKey K.DiscardedBursts c) = (b.reg (dmaKey K.DiscardedBursts c) + b.dmaDiscards c) % 2 ^ 32
          ∧ u.reg (dmaKey K.LastCause c) = 6 ∧ b.raised [200 + c] u)
        ∧ b.regsBut [dmaKey K.DmaChannelStatus c, dmaKey K.DiscardedBursts c, dmaKey K.LastCause c] u
        ∧ b.only [.dict, .ev, .dma] u)
  ∧ (∀ (t k : Nat), k < 4 →
    Completes (.dmaTimer t k) t
      (fun b => b.time.running = true
        ∧ (b.dma.timers.getD k (0, false)).1 ≠ b.ptp / 65536 / b.reg (K.DmaTimerPeriod + k))
      fun b u => u.dma = { b.dma with
            timers := b.dma.timers.set k (b.ptp / 65536 / b.reg (K.DmaTimerPeriod + k), true) }
        ∧ b.only [.dma] u)
  ∧ (∀ (t k q : Nat), k < 4 →
    Completes (.dmaTimerWidthEnd t k) t
      (fun b => b.dma.timers.getD k (0, false) = (q, true)
        ∧ q * b.reg (K.DmaTimerPeriod + k) + b.reg (K.DmaTimerWidth + k) ≤ b.ptp / 65536)
      fun b u => u.dma = { b.dma with timers := b.dma.timers.set k (q, false) } ∧ b.only [.dict, .dma] u)
  ∧ (∀ (t v : Nat) (w : Wr),
    Completes (.softRequestWrite t w) t (fun b => b.takes 0x2D01 1 w v)
      fun b u => u.reg K.SoftRequest = v ∧ b.only [.dict] u)

/-- The instructions of a DMA channel (R381–R388): MOVE, FILL and COMPARE begin; LOOP opens a level or skips its body;
ENDLOOP goes round or closes the level; WAIT begins, ends and times out; SIGNAL raises its event; STOP ends the
program. The model's own choices in it: notes/assumptions/1.md and 30.md. -/
def Obligations.DmaProgramsComplete : Prop :=
  (∀ (t c op : Nat),
    let begun := fun (b u : State) => u.dmaChan c = { b.dmaChan c with active := true, done := 0, tries := 0 }
      ∧ u.reg (dmaKey K.RemainingCount c) = diLength (b.dmaInstr c) ∧ b.regsBut [dmaKey K.RemainingCount c] u
      ∧ b.only [.dict, .dma] u
    let pre := fun (b : State) => b.dmaIdle c = true ∧ diOp (b.dmaInstr c) = op ∧ c < b.dma.chans.length
    (op = 1 → Completes (.move t c) t pre begun) ∧ (op = 2 → Completes (.fill t c) t pre begun)
      ∧ (op = 3 → Completes (.compare t c) t pre begun))
  ∧ (∀ (t c : Nat),
    Completes (.loop t c) t
      (fun b => b.dmaIdle c = true ∧ diOp (b.dmaInstr c) = 4 ∧ c < b.dma.chans.length)
      fun b u =>
        let i := b.dmaInstr c
        let pc := b.reg (dmaKey K.ProgramCounter c)
        (u.dmaChan c).levels = ⟨pc + 1, field i 4 4, 0, signedOf 4 (field i 8 4), signedOf 4 (field i 12 4)⟩
            :: (b.dmaChan c).levels
        ∧ u.reg (dmaKey K.ProgramCounter c) = pc + 1 ∧ b.regsBut [dmaKey K.ProgramCounter c] u
        ∧ b.only [.dict, .dma] u)
  ∧ (∀ (t c : Nat) (l : DmaLevel) (rest : List DmaLevel),
    Completes (.endloop t c) t
      (fun b => b.dmaIdle c = true ∧ diOp (b.dmaInstr c) = 5 ∧ c < b.dma.chans.length
        ∧ (b.dmaChan c).levels = l :: rest)
      fun b u =>
        (l.index + 1 < l.count → (u.dmaChan c).levels = { l with index := l.index + 1 } :: rest
          ∧ u.reg (dmaKey K.ProgramCounter c) = l.back)
        ∧ (l.count ≤ l.index + 1 → (u.dmaChan c).levels = rest
          ∧ u.reg (dmaKey K.ProgramCounter c) = b.reg (dmaKey K.ProgramCounter c) + 1)
        ∧ b.regsBut [dmaKey K.ProgramCounter c] u ∧ b.only [.dict, .dma] u)
  ∧ (∀ (t c : Nat),
    Completes (.wait t c) t
      (fun b => b.dmaIdle c = true ∧ diOp (b.dmaInstr c) = 6 ∧ c < b.dma.chans.length)
      fun b u =>
        let i := b.dmaInstr c
        let now := field i 1 1 = 0 ∧ b.lineLevel (field i 2 1) = true
        (now → u.reg (dmaKey K.ProgramCounter c) = b.reg (dmaKey K.ProgramCounter c) + 1 ∧ (u.dmaChan c).wait = none)
        ∧ (¬ now → (u.dmaChan c).wait = some (b.now, b.ev.total (field i 2 1)) ∧ u.dict = b.dict)
        ∧ b.regsBut [dmaKey K.ProgramCounter c] u ∧ b.only [.dict, .dma] u)
  ∧ (∀ (t c : Nat),
    Completes (.waitEnd t c) t (fun b => b.dmaStatus c = 1 ∧ b.waitOver c = true ∧ c < b.dma.chans.length)
      fun b u => u.reg (dmaKey K.ProgramCounter c) = b.reg (dmaKey K.ProgramCounter c) + 1
        ∧ (u.dmaChan c).wait = none ∧ b.regsBut [dmaKey K.ProgramCounter c] u ∧ b.only [.dict, .dma] u)
  ∧ (∀ (t c since n : Nat),
    Completes (.waitTimeout t c) t
      (fun b => b.dmaStatus c = 1 ∧ (b.dmaChan c).wait = some (since, n) ∧ field (b.dmaInstr c) 4 4 ≠ 0
        ∧ since + field (b.dmaInstr c) 4 4 ≤ b.now ∧ b.waitOver c = false)
      fun b u => u.dmaStatus c = 5 ∧ u.reg (dmaKey K.LastCause c) = 5 ∧ b.raised [200 + c] u
        ∧ b.regsBut [dmaKey K.DmaChannelStatus c, dmaKey K.LastCause c] u ∧ b.only [.dict, .ev, .dma] u)
  ∧ (∀ (t c : Nat),
    Completes (.signal t c) t (fun b => b.dmaIdle c = true ∧ diOp (b.dmaInstr c) = 7)
      fun b u => u.reg (dmaKey K.LastSignalCode c) = field (b.dmaInstr c) 2 1 ∧ u.reg (dmaKey K.LastCause c) = 1
        ∧ u.reg (dmaKey K.ProgramCounter c) = b.reg (dmaKey K.ProgramCounter c) + 1 ∧ b.raised [200 + c] u
        ∧ b.regsBut [dmaKey K.LastSignalCode c, dmaKey K.LastCause c, dmaKey K.ProgramCounter c] u
        ∧ b.only [.dict, .ev, .dma] u)
  ∧ (∀ (t c : Nat),
    Completes (.stop t c) t
      (fun b => b.dmaIdle c = true ∧ diOp (b.dmaInstr c) = 8 ∧ c < b.dma.chans.length)
      fun b u => u.dmaStatus c = 4 ∧ u.dmaChan c = {} ∧ u.reg (dmaKey K.LastCause c) = 2 ∧ b.raised [200 + c] u
        ∧ b.regsBut [dmaKey K.DmaChannelStatus c, dmaKey K.LastCause c] u ∧ b.only [.dict, .ev, .dma] u)

/-- Frames, ARP, ICMP, links and addresses (R396–R398): an accepted frame is counted as received and any other as
discarded; ARP and echo requests to the port's address are answered; a link's change and an address's are taken, the
latter closing the port's sessions and flows. The model's own choices in it: notes/assumptions/1.md, 31.md, 73.md and
75.md. -/
def Obligations.PortsComplete : Prop :=
  (∀ (t port fec fecBad : Nat) (data dwell : List Nat),
    Completes (.ethernetFrame t port data dwell fec fecBad) t
      (fun b => b.portThere port = true ∧ b.islandReady islNET = true)
      fun b u =>
        (b.acceptsFrame port data = true →
          u.reg (K.EthFramesReceived + port) = (b.reg (K.EthFramesReceived + port) + 1) % 2 ^ 64
          ∧ u.reg (K.FramesDiscarded + port) = b.reg (K.FramesDiscarded + port))
        ∧ (b.acceptsFrame port data = false →
          u.reg (K.FramesDiscarded + port) = (b.reg (K.FramesDiscarded + port) + 1) % 2 ^ 64
          ∧ u.reg (K.EthFramesReceived + port) = b.reg (K.EthFramesReceived + port))
        ∧ (port < 2 → u.reg (K.FecCorrected + port) = (b.reg (K.FecCorrected + port) + fec) % 2 ^ 64
          ∧ u.reg (K.FecUncorrected + port) = (b.reg (K.FecUncorrected + port) + fecBad) % 2 ^ 64)
        ∧ b.regsBut [K.EthFramesReceived + port, K.FramesDiscarded + port, K.FecCorrected + port,
          K.FecUncorrected + port, K.TcResidenceMax] u
        ∧ b.only [.dict] u)
  ∧ (∀ (t port mac ip target : Nat),
    Completes (.arpRequest t port mac ip target) t (fun b => b.answersAt port target = true)
      fun b u => .eth port (b.frameOf port (beBytes 6 mac ++ beBytes 6 (b.mac port)) 0x0806
            ([0, 1, 8, 0, 6, 4, 0, 2] ++ beBytes 6 (b.mac port) ++ beBytes 4 target ++ beBytes 6 mac ++ beBytes 4 ip))
          ∈ u.out
        ∧ b.only [] u)
  ∧ (∀ (t port src target ident seq via : Nat) (data : List Nat), data.length ≤ 1472 →
    Completes (.icmpEcho t port src target ident seq data false) t
      (fun b => b.answersAt port target = true ∧ b.nextHop port src = some via)
      fun b u => (∃ sum, .ip port via src 1 ([0, 0] ++ sum ++ (beBytes 2 ident ++ beBytes 2 seq ++ data)) ∈ u.out)
        ∧ b.only [] u)
  ∧ (∀ (t port : Nat) (up : Bool),
    Completes (.portLinkChange t port up) t
      (fun b => b.portThere port = true ∧ b.islandReady islNET = true ∧ b.flag (K.PortLinkUp + port) ≠ up)
      fun b u => u.reg (K.PortLinkUp + port) = (if up = true then 1 else 0)
        ∧ u.reg (K.NetworkEventPort + port) = port ∧ b.raised [216 + port] u
        ∧ b.regsBut [K.PortLinkUp + port, K.NetworkEventPort + port] u ∧ b.only [.dict, .ev] u)
  ∧ (∀ (t idx port v : Nat) (w : Wr), 0x2E01 ≤ idx → idx ≤ 0x2E03 → port < 3 →
    Completes (.addressChange t idx port w) t
      (fun b => b.takes idx (port + 1) w v ∧ b.reg (idx * 256 + port + 1) ≠ v)
      fun b u => u.reg (idx * 256 + port + 1) = v
        ∧ (∀ i < 8, ∀ x, b.session? i = some x → x.host.nic = port → u.session? i = none)
        ∧ (port < 2 → ∀ f < 64, u.flowState (64 * port + f) = 0)
        ∧ b.only [.dict, .ev, .net, .time, .pos, .sec] u)

/-- Tether sessions (R409–R411, R414): a Hello is answered by a Challenge; an Open with its Tag opens the session and one
without counts a failure; a challenge times out; a session lives on its messages, whose Notifies the acknowledgement
drops, and ends by Close or timeout. The model's own choices in it: notes/assumptions/1.md, 5.md and 74.md. -/
def Obligations.TetherCompletes : Prop :=
  (∀ (t vmin vmax keyId client i v : Nat) (host : Host4) (nonce : List Nat) (rest : List Nat) (notify : Bool),
    nonce.length = 16 → tetherAgreed vmin vmax = some v →
    Completes (.tetherHello t host vmin vmax keyId nonce client notify) t
      (fun b => b.tetherAt host = true ∧ b.freeSessions = i :: rest ∧ i < b.net.challenges.length
        ∧ (roleSlot keyId = true ∨ keyId = 0x21) ∧ b.keyLive keyId = true ∧ b.lockedOut pathTether = false)
      fun b u => (∃ x, u.net.challenges = b.net.challenges.set i (some x) ∧ x.host = host ∧ x.keyId = keyId
          ∧ x.role = roleOf keyId ∧ x.version = v ∧ x.lastAt = b.now ∧ 1 ≤ x.id
          ∧ ∀ via, b.nextHop host.nic host.ip = some via → ∃ d, .udp host via (tetherPlain v 2 x.id d) ∈ u.out)
        ∧ b.only [.net] u)
  ∧ (∀ (t i : Nat) (host : Host4) (data : List Nat) (x : Session),
    Completes (.tetherOpen t host data) t
      (fun b => b.tetherAt host = true ∧ tetherShape 3 data = true ∧ b.challengeOf data = some (i, x)
        ∧ x.host.nic = host.nic ∧ b.now < x.lastAt + 1000000000 ∧ b.lockedOut pathTether = false
        ∧ tagHolds x.key data = true ∧ field data 8 4 = 0 ∧ field data 2 1 = x.version ∧ i < b.net.sessions.length)
      fun b u => (∃ y, u.session? i = some y ∧ y.id = x.id ∧ y.role = x.role ∧ y.key = x.key ∧ y.host = host
          ∧ y.lastAt = b.now)
        ∧ u.net.challenges = b.net.challenges.set i none ∧ b.raised [224] u ∧ b.only [.dict, .ev, .net] u)
  ∧ (∀ (t i : Nat) (host : Host4) (data : List Nat) (x : Session),
    Completes (.tetherOpen t host data) t
      (fun b => b.tetherAt host = true ∧ tetherShape 3 data = true ∧ b.challengeOf data = some (i, x)
        ∧ x.host.nic = host.nic ∧ b.now < x.lastAt + 1000000000 ∧ b.lockedOut pathTether = false
        ∧ tagHolds x.key data = false)
      fun b u => u.net.challenges = b.net.challenges.set i none
        ∧ u.reg K.AuthFailures = (b.reg K.AuthFailures + 1) % 2 ^ 32 ∧ b.raised [226, 252] u
        ∧ b.only [.dict, .ev, .net, .sec] u)
  ∧ (∀ (t : Nat),
    Completes (.challengeTimeout t) t (fun _ => True)
      fun b u =>
        let keep := fun (c : Option Session) => c.filter fun x => b.now < x.lastAt + 1000000000
        u.net.challenges = b.net.challenges.map keep ∧ u.net.flows = b.net.flows ∧ b.only [.net] u)
  ∧ (∀ (t i : Nat) (host : Host4) (data : List Nat) (x : Session),
    let pre := fun (kind : Nat) (b : State) => b.tetherAt host = true ∧ tetherShape kind data = true
      ∧ b.sessionOf data = some (i, x) ∧ x.host.nic = host.nic ∧ field data 2 1 = x.version
      ∧ tagHolds x.key data = true
    let kept := fun (b u : State) => ∃ y, u.session? i = some y ∧ y.id = x.id ∧ y.host = host ∧ y.lastAt = b.now
    Completes (.tetherKeepAlive t host data) t (pre 10) (fun b u => kept b u ∧ b.only [] u)
    ∧ Completes (.tetherNotifyAck t host data) t (pre 9) (fun b u =>
        let upTo := field data 8 4
        let covered := if upTo < x.nextNotify then x.sent.filter fun n => n.1 ≤ upTo else []
        kept b u ∧ u.ev = b.ev.dropNotify i (covered.map fun n => n.2.1).sum ∧ b.only [.ev] u)
    ∧ Completes (.tetherClose t host data) t (pre 11) (fun b u =>
        u.session? i = none ∧ b.raised [225] u ∧ b.only [.dict, .ev, .time, .pos, .sec] u))
  ∧ (∀ (t i : Nat) (x : Session),
    Completes (.sessionTimeout t i) t
      (fun b => b.session? i = some x ∧ x.lastAt + b.reg K.SessionTimeout * 1000000 ≤ b.now)
      fun b u => u.session? i = none ∧ b.raised [225] u
        ∧ b.regsBut [K.SessionsOpen, K.NetworkEventPort + 9] u ∧ b.only [.dict, .ev, .time, .pos, .sec] u)

/-- Tether Requests (R412, R413): a Request's operation is made and answered once, and its repetition answered from the
kept Reply; a Notify that is not acknowledged is sent again. The model's own choices in it: notes/assumptions/1.md,
39.md and 51.md. -/
def Obligations.TetherRequestsComplete : Prop :=
  (∀ (t i via : Nat) (host : Host4) (data : List Nat) (x : Session) (op : TetherOp),
    Completes (.tetherRequest t host data) t
      (fun b => b.tetherAt host = true ∧ tetherShape 6 data = true ∧ b.sessionOf data = some (i, x)
        ∧ x.host.nic = host.nic ∧ field data 2 1 = x.version ∧ tagHolds x.key data = true
        ∧ field data 8 4 = (x.seq + 1) % 2 ^ 32 ∧ 2 ≤ (tetherPayload data).length
        ∧ field (tetherPayload data) 0 2 = 1 ∧ tetherOps 1 ((tetherPayload data).drop 2) = some [op]
        ∧ op.write = false ∧ b.nextHop host.nic host.ip = some via)
      fun b u => (∃ code got y r,
            r = tetherMessage x.key x.version 7 x.id (field data 8 4) (leBytes 2 1 ++ tetherResult code got)
            ∧ .udp host via r ∈ u.out ∧ u.session? i = some y ∧ y.seq = field data 8 4 ∧ y.reply = r ∧ y.lastAt = b.now)
        ∧ u.dict = b.dict ∧ b.only [.pos, .time, .sec] u)
  ∧ (∀ (t i via : Nat) (host : Host4) (data : List Nat) (x : Session),
    Completes (.tetherRequest t host data) t
      (fun b => b.tetherAt host = true ∧ tetherShape 6 data = true ∧ b.sessionOf data = some (i, x)
        ∧ x.host.nic = host.nic ∧ field data 2 1 = x.version ∧ tagHolds x.key data = true
        ∧ field data 8 4 = x.seq ∧ x.reply ≠ [] ∧ b.nextHop host.nic host.ip = some via)
      fun b u => .udp host via x.reply ∈ u.out ∧ b.only [] u)
  ∧ (∀ (t i via : Nat) (x : Session),
    Completes (.notifyRetry t i) t
      (fun b => b.session? i = some x ∧ b.nextHop x.host.nic x.host.ip = some via)
      fun b u => (∀ m ∈ retryNotifies x (b.reg K.NotifyRetry) b.now (b.ev.notify.getD i {}).q x.sent,
          .udp x.host via m ∈ u.out)
        ∧ b.only [] u)

/-- Network time (R418–R423): a Sync of the master sets the offset; Announces are remembered and choose the master, whose
silence ends lock; delay messages measure the path or are answered; as master the clock sends Sync; and a read of
TimeNowSeconds latches the other two fields for its reader. The model's own choices in it: notes/assumptions/1.md,
31.md, 33.md and 76.md. -/
def Obligations.NetworkTimeCompletes : Prop :=
  (∀ (t port domain src origin : Nat) (logInt corr : Int), -7 ≤ logInt → logInt ≤ 1 →
    Completes (.ptpSync t port domain src logInt origin corr) t
      (fun b => b.ptpOn port domain = true ∧ b.time.parent = some src ∧ 1 ≤ b.reg K.PtpState ∧ b.reg K.PtpState ≤ 3)
      fun b u =>
        let delta := b.ingressStamp port - (origin : Int) - corr
        u.reg K.PtpOffset = rawOf 8 (ticksPs (delta - b.asymmetry port - b.pathDelay port))
        ∧ u.time.syncDelta = some delta ∧ 1 ≤ u.reg K.PtpState ∧ u.reg K.PtpState ≤ 3
        ∧ b.only [.dict, .ev, .time] u)
  ∧ (∀ (t port domain src : Nat) (logInt : Int) (data : List Nat), data.length = 7 →
    Completes (.ptpAnnounce t port domain src logInt data) t (fun b => b.ptpOn port domain = true)
      fun b u => (∃ f, u.time.foreign = f :: b.time.foreign.filter (fun f => f.1 != src) ∧ f.1 = src ∧ f.2.1 = data
          ∧ f.2.2.1 = b.now)
        ∧ b.only [.dict, .ev, .time] u)
  ∧ (∀ (t a : Nat),
    Completes (.announceTimeout t) t
      (fun b => b.time.announceAt = some a ∧ b.ptpOn (b.reg K.PtpPort) (b.reg K.PtpDomain) = true
        ∧ b.reg K.PtpState = 2 ∧ a + 3 * b.time.announceEvery ≤ b.now)
      fun b u => u.reg K.PtpState ≠ 2 ∧ u.time.inLock = 0 ∧ b.raised [228] u ∧ b.only [.dict, .ev, .time] u)
  ∧ (∀ (t port domain sent remote : Nat) (corr delta : Int),
    Completes (.ptpDelayMessage t port domain false sent remote corr) t
      (fun b => b.ptpOn port domain = true ∧ b.reg K.PtpDelayMechanism ≠ 1 ∧ b.time.syncDelta = some delta)
      fun b u =>
        let d := roundDiv (delta + (remote : Int) - b.egressStamp port sent - corr) 2
        u.time = { b.time with pathDelay := d } ∧ u.reg K.PtpMeanPathDelay = rawOf 8 (ticksPs d)
        ∧ b.regsBut [K.PtpMeanPathDelay] u ∧ b.only [.dict, .time] u)
  ∧ (∀ (t port domain sent remote : Nat) (corr : Int),
    Completes (.ptpDelayMessage t port domain true sent remote corr) t
      (fun b => b.ptpOn port domain = true ∧ (b.reg K.PtpDelayMechanism = 1 ∨ b.reg K.PtpState = 4))
      fun b u => .ptp port (if b.reg K.PtpDelayMechanism = 1 then 3 else 9) 0 (b.ingressStamp port).toNat corr ∈ u.out
        ∧ b.only [] u)
  ∧ (∀ (t : Nat),
    Completes (.ptpMasterSync t) t
      (fun b => b.ptpOn (b.reg K.PtpPort) (b.reg K.PtpDomain) = true ∧ b.reg K.PtpState = 4)
      fun b u =>
        let port := b.reg K.PtpPort
        .ptp port 0 (b.time.masterSeq % 65536) (b.egressStamp port b.now).toNat 0 ∈ u.out
        ∧ u.time.masterSeq = b.time.masterSeq + 1 ∧ b.only [.time] u)
  ∧ (∀ (t : Nat) (path : WPath),
    Completes (.timeNowLatch t path) t (fun b => checkRead b 0x2E40 0x10 = 0)
      fun b u => u.timeLatch path = some [ptpNs b.ptp, ptpFrac b.ptp] ∧ .reply path (ptpSec b.ptp) 8 ∈ u.out
        ∧ b.only [.time] u)

/-- Die health (R426–R434): a diode's sample enters its mean, the higher diode is the die temperature, and the warning and
throttle thresholds follow it with their hysteresis; the H part's shutdown holds every island at once, the F part's
runs its sequence and holds them 45 ms later; and the hard trip of diode B latches until a reset and a cool die. The
model's own choices in it: notes/assumptions/1.md, 77.md and 78.md. -/
def Obligations.HealthCompletes : Prop :=
  let temperature := fun (x y : List Int) =>
    max ((diodeValue x).getD ((diodeValue y).getD 0)) ((diodeValue y).getD ((diodeValue x).getD 0))
  let next := fun (b : State) (second : Bool) (code : Int) =>
    ((code + b.regI (if second then K.ThermalTrim + 1 else K.ThermalTrim) 2)
      :: if second then b.health.samplesB else b.health.samplesA).take 4
  let warmer := fun (b u : State) (v : Int) =>
    u.reg K.DieTemperature = rawOf 2 v
    ∧ u.health.warn = (crossing b.health.warn v (b.regI K.WarningThreshold 2) (b.reg K.ThresholdHysteresis)).getD
        b.health.warn
    ∧ u.health.throttle = (crossing b.health.throttle v (b.regI K.ThrottleThreshold 2)
        (b.reg (K.ThresholdHysteresis + 1))).getD b.health.throttle
    ∧ (b.health.warn = false → b.regI K.WarningThreshold 2 ≤ v → b.raised [232] u)
    ∧ (b.health.throttle = false → b.regI K.ThrottleThreshold 2 ≤ v → b.raised [234] u)
  let calm := fun (b : State) (v : Int) => b.islandReady islAON = true ∧ b.health.shuttingDown = false
    ∧ b.health.hardLatch = false ∧ (v < b.regI K.ShutdownThreshold 2 ∨ b.health.shutdown = true)
  (∀ (t : Nat) (code : Int),
    Completes (.diodeASample t code) t (fun b => calm b (temperature (next b false code) b.health.samplesB))
      fun b u =>
        let l := next b false code
        warmer b u (temperature l b.health.samplesB) ∧ u.health.rawA = code ∧ u.health.samplesA = l
        ∧ (∀ x, diodeValue l = some x → u.reg K.DieSensorA = rawOf 2 x) ∧ u.health.samplesB = b.health.samplesB
        ∧ b.only [.mem, .dict, .ev, .health] u)
  ∧ (∀ (t : Nat) (code : Int), code < 1984 →
    Completes (.diodeBSample t code) t (fun b => calm b (temperature b.health.samplesA (next b true code)))
      fun b u =>
        let l := next b true code
        warmer b u (temperature b.health.samplesA l) ∧ u.health.rawB = code ∧ u.health.samplesB = l
        ∧ (∀ x, diodeValue l = some x → u.reg K.DieSensorB = rawOf 2 x) ∧ u.health.samplesA = b.health.samplesA
        ∧ b.only [.mem, .dict, .ev, .health] u)
  ∧ (∀ (t : Nat) (code : Int),
    Completes (.diodeASample t code) t
      (fun b => b.inv = true ∧ b.islandReady islAON = true ∧ b.isH = true ∧ b.health.shutdown = false ∧ b.health.latchH = false
        ∧ b.regI K.ShutdownThreshold 2 ≤ temperature (next b false code) b.health.samplesB)
      fun b u => u.health.latchH = true ∧ u.sys.hold = true ∧ .ball .thermtripN 0 ∈ u.out
        ∧ u.reg K.LastShutdownKind = 2 ∧ u.reg K.ThermalShutdownCount = (b.reg K.ThermalShutdownCount + 1) % 2 ^ 16
        ∧ ∀ i, 2 ≤ i → i ≤ 12 → u.islandReady i = false)
  ∧ (∀ (t : Nat) (code : Int),
    Completes (.diodeASample t code) t
      (fun b => b.inv = true ∧ b.islandReady islAON = true ∧ b.islandReady islCTL = true ∧ b.isH = false ∧ b.sys.hold = false
        ∧ b.health.shutdown = false
        ∧ b.regI K.ShutdownThreshold 2 ≤ temperature (next b false code) b.health.samplesB)
      fun b u => u.health.shuttingDown = true ∧ u.health.shutAt = b.now ∧ u.sys.hold = false
        ∧ u.reg K.LastShutdownKind = 1 ∧ u.reg K.ClaimActual = 0 ∧ .ball .claimOut 0 ∈ u.out ∧ b.raised [236] u)
  ∧ (∀ (t : Nat) (code : Int),
    Completes (.diodeASample t code) t
      (fun b => b.inv = true ∧ b.islandReady islAON = true ∧ b.health.shutdown = true ∧ b.health.shuttingDown = true
        ∧ b.sys.hold = false ∧ b.health.shutAt + 45000000 ≤ b.now)
      fun b u => u.sys.hold = true ∧ ∀ i, 2 ≤ i → i ≤ 12 → u.islandReady i = false)
  ∧ (∀ (t : Nat) (code : Int), 1984 ≤ code →
    Completes (.diodeBSample t code) t
      (fun b => b.inv = true ∧ b.islandReady islAON = true ∧ b.isH = false ∧ b.health.hardLatch = false ∧ b.health.hardReset = false)
      fun b u => u.health.hardLatch = true ∧ u.sys.hold = true ∧ .ball .thermtripN 0 ∈ u.out
        ∧ u.reg K.LastShutdownKind = 3 ∧ ∀ i, 2 ≤ i → i ≤ 12 → u.islandReady i = false)
  ∧ (∀ (t : Nat) (code : Int),
    Completes (.diodeASample t code) t
      (fun b => b.islandReady islAON = true ∧ b.health.hardLatch = true ∧ b.health.hardReset = true
        ∧ b.health.shuttingDown = false
        ∧ temperature (next b false code) b.health.samplesB
            < b.regI K.ShutdownThreshold 2 - (b.reg (K.ThresholdHysteresis + 2) : Int))
      fun b u => u.health.hardLatch = false ∧ u.health.hardReset = false ∧ .ball .thermtripN 1 ∈ u.out)

/-- Thermal trim and records (R426, R437, R438): a thermal trim reads twice one second apart and is applied within 10 °C;
the fault log and the calibration records are saved, and a save is numbered when it is written. The model's own
choices in it: notes/assumptions/1.md, 46.md and 79.md. -/
def Obligations.RecordsComplete : Prop :=
  (∀ (t v : Nat) (w : Wr), w.val = v →
    Completes (.thermalTrimReference t w) t
      (fun b => b.takes 0x2F03 1 w v ∧ (b.mode = mStandby ∨ b.mode = mReady))
      fun b u => u.health.trimFirst = some (signedOf 2 v, b.health.rawA, b.health.rawB) ∧ u.health.trimAt = b.now
        ∧ u.reg K.ThermalTrimState = 1 ∧ b.regsBut [K.ThermalTrimState] u ∧ b.only [.dict, .health] u)
  ∧ (∀ (t : Nat) (ref x y : Int),
    Completes (.thermalTrimReading t) t
      (fun b => b.health.trimFirst = some (ref, x, y) ∧ b.health.trimAt + 1000000000 ≤ b.now)
      fun b u =>
        let ta := ref - roundDiv (x + b.health.rawA) 2
        let tb := ref - roundDiv (y + b.health.rawB) 2
        let good := (x - b.health.rawA).natAbs ≤ 8 ∧ (y - b.health.rawB).natAbs ≤ 8 ∧ ta.natAbs ≤ 160 ∧ tb.natAbs ≤ 160
        u.health.trimFirst = none
        ∧ (good → u.reg K.ThermalTrim = rawOf 2 ta ∧ u.reg (K.ThermalTrim + 1) = rawOf 2 tb
          ∧ u.reg K.ThermalTrimState = 2
          ∧ u.reg (K.CalibrationCount + 7) = (b.reg (K.CalibrationCount + 7) + 1) % 2 ^ 32 ∧ b.raised [239, 243] u)
        ∧ (¬ good → u.reg K.ThermalTrimState = 3
          ∧ u.reg (K.CalibrationDiscarded + 7) = (b.reg (K.CalibrationDiscarded + 7) + 1) % 2 ^ 32
          ∧ b.regsBut [K.ThermalTrimState, K.CalibrationDiscarded + 7] u ∧ b.raised [244] u)
        ∧ b.only [.dict, .ev, .health] u)
  ∧ (∀ (t : Nat) (w : Wr), w.val = 1 →
    Completes (.faultLogSave t w) t (fun b => b.takes 0x2142 2 w 1)
      fun b u => u.health = { b.health with savedLog := b.newestLog }
        ∧ u.reg (versionKey 0x5F01) = (b.reg (versionKey 0x5F01) + 1) % 2 ^ 32
        ∧ b.regsBut [versionKey 0x5F01] u ∧ b.only [.dict, .health] u)
  ∧ (∀ (t v : Nat) (w : Wr), w.val = v →
    Completes (.calibrationRecordSave t w) t (fun b => b.takes 0x2F10 1 w v)
      fun b u => u.reg K.CalibrationRecordState = 1 ∧ b.regsBut [K.CalibrationRecordState] u
        ∧ (∃ j : SaveJob, u.health.writing = b.health.writing ++ [j] ∧ j.auto = false
          ∧ ∀ kind r, (kind, r) ∈ j.recs ↔ (1 ≤ kind ∧ kind ≤ 8 ∧ bit v (kind - 1) = true ∧ r = b.recordOf kind))
        ∧ u.health.countsChanged = false ∧ b.only [.dict, .health] u)
  ∧ (∀ (t : Nat),
    Completes (.calibrationAutoSave t) t
      (fun b => b.islandReady islCTL = true ∧ b.health.countsChanged = true
        ∧ ∀ t0, b.health.countsSavedAt = some t0 → t0 + 60000000000 ≤ b.now)
      fun b u => u.health.countsSavedAt = some b.now ∧ u.health.countsChanged = false
        ∧ (∃ j : SaveJob, u.health.writing = b.health.writing ++ [j] ∧ j.auto = true ∧ j.recs = []
          ∧ j.counts = b.countsNow)
        ∧ b.only [.health] u)
  ∧ (∀ (t : Nat) (j : SaveJob) (rest : List SaveJob),
    Completes (.calibrationRecordWritten t) t
      (fun b => b.health.writing = j :: rest ∧ ∀ r ∈ j.recs, 1 ≤ r.1 ∧ r.1 ≤ 8)
      fun b u => u.health.writing = rest
        ∧ u.reg K.CalibrationRecordSequence = (b.reg K.CalibrationRecordSequence + 1) % 2 ^ 32
        ∧ u.reg K.CalibrationRecordsValid = b.reg K.CalibrationRecordsValid ||| kindMask (j.recs.map (·.1))
        ∧ (∀ kind, (∀ r ∈ j.recs, r.1 ≠ kind) → 1 ≤ kind →
            u.health.records.getD (kind - 1) none = b.health.records.getD (kind - 1) none)
        ∧ (∀ kind r, j.recs = [(kind, r)] → kind ≤ b.health.records.length →
            u.health.records.getD (kind - 1) none = some r)
        ∧ (j.auto = false → b.raised [245] u
          ∧ u.reg K.CalibrationRecordState = if rest.any (fun r => !r.auto) then 1 else 2)
        ∧ b.only [.dict, .ev, .health] u)

/-- The Bridle pair (R440–R446): a Starting controller takes the claim or stands by as R441 orders them; heartbeats go out
on both paths and, from the Holder, mirrored state; a heartbeat heard on either path refreshes the peer, and one that
is not valid does not. The model's own choices in it: notes/assumptions/1.md, 38.md, 86.md and 91.md. -/
def Obligations.BridleCompletes : Prop :=
  let due := fun (b : State) => b.reg K.BridleRole = 1 ∧ b.bridle.lostClaim = false ∧ b.bridle.startAt + b.threeClaims ≤ b.now
  let gained := fun (b u : State) => u.reg K.BridleRole = 2 ∧ u.reg K.ClaimActual = b.reg K.ConfiguredClaim
    ∧ .ball .claimOut 1 ∈ u.out ∧ u.reg K.MirrorCompleteFlag = 0 ∧ b.raised [248] u
    ∧ b.only [.dict, .ev, .link, .bridle] u
  let heardBefore := fun (b : State) => ∃ a ∈ b.bridle.heard, a.isSome = true
  let paired := fun (b : State) => b.sys.dictReady = true ∧ b.reg K.BridleRole ≠ 0
  (∀ (t : Nat),
    Completes (.pairStart t) t (fun b => due b ∧ ∀ a ∈ b.bridle.heard, a = none) gained)
  ∧ (∀ (t : Nat),
    Completes (.pairStart t) t
      (fun b => due b ∧ heardBefore b ∧ field b.bridle.peer 5 1 ≠ 2
        ∧ (field b.bridle.peer 4 1 < b.reg K.ConfiguredClaim
          ∨ field b.bridle.peer 4 1 = b.reg K.ConfiguredClaim ∧ Config.dieSerial.toNat < Config.peerControllerId))
      fun b u => gained b u
        ∧ (field b.bridle.peer 4 1 = b.reg K.ConfiguredClaim → u.reg K.PairConflict = 1))
  ∧ (∀ (t : Nat),
    Completes (.pairStart t) t
      (fun b => due b ∧ heardBefore b ∧ (field b.bridle.peer 5 1 = 2
        ∨ b.reg K.ConfiguredClaim < field b.bridle.peer 4 1
        ∨ field b.bridle.peer 4 1 = b.reg K.ConfiguredClaim ∧ Config.peerControllerId ≤ Config.dieSerial.toNat))
      fun b u => u.reg K.BridleRole = 3 ∧ u.reg K.ClaimActual = b.reg K.ClaimActual
        ∧ b.regsBut [K.BridleRole, K.PairConflict] u ∧ b.only [.dict] u)
  ∧ (∀ (t : Nat),
    Completes (.heartbeatSend t) t (fun b => paired b ∧ b.reg K.BridleRole = 2)
      fun b u => (∃ d, .bridle true d ∈ u.out ∧ heartbeatHolds d = true ∧ field d 3 1 = b.reg K.ClaimActual % 256
          ∧ field d 4 1 = b.reg K.ConfiguredClaim % 256 ∧ field d 5 1 = 2 ∧ field d 8 2 = b.bridle.hbSeq % 65536)
        ∧ u.bridle.hbSeq = (b.bridle.hbSeq + 1) % 65536
        ∧ u.bridle.mirrorSeq = (b.bridle.mirrorSeq + 1) % 2 ^ 32
        ∧ (b.bridle.fullAt = none → u.bridle.fullAt = some b.bridle.mirrorSeq)
        ∧ b.only [.dict, .ev, .bridle] u)
  ∧ (∀ (t : Nat),
    Completes (.heartbeatSend t) t (fun b => paired b ∧ b.reg K.BridleRole = 3)
      fun b u => (∃ d, .bridle true d ∈ u.out ∧ heartbeatHolds d = true ∧ field d 5 1 = 3
          ∧ field d 12 4 = b.bridle.mirrorIn.getD 0 % 2 ^ 32)
        ∧ u.bridle.hbSeq = (b.bridle.hbSeq + 1) % 65536 ∧ u.bridle.mirrorSeq = b.bridle.mirrorSeq
        ∧ (b.bridle.mirrorIn.isSome = true → b.bridle.aligned = true → u.reg K.MirrorCompleteFlag = 1)
        ∧ b.only [.dict, .ev, .bridle] u)
  ∧ (∀ (t : Nat) (nc : Bool) (d : List Nat),
    Completes (.heartbeatReceived t nc d) t (fun b => paired b ∧ heartbeatHolds d = true)
      fun b u => u.bridle.heard = b.bridle.heard.set (if nc then 1 else 0) (some b.now) ∧ u.bridle.peer = d
        ∧ u.bridle.absent = false ∧ u.reg K.PeerClaim = field d 3 1
        ∧ (field d 4 1 ≠ b.reg K.ConfiguredClaim → b.reg K.PairConflict ≤ 1 → u.reg K.PairConflict = 0)
        ∧ (b.reg K.BridleRole = 1 → b.bridle.lostClaim = true → u.reg K.BridleRole = 3)
        ∧ (b.reg K.BridleRole = 2 → bit (field d 6 1) 2 = true → u.reg K.MirrorCompleteFlag = 0
          ∧ u.bridle.fullAt = some b.bridle.mirrorSeq)
        ∧ b.only [.dict, .ev, .bridle] u)
  ∧ (∀ (t : Nat) (nc : Bool) (d : List Nat),
    Completes (.heartbeatReceived t nc d) t (fun b => paired b ∧ heartbeatHolds d = false)
      fun b u => u.reg K.HeartbeatsRejected = (b.reg K.HeartbeatsRejected + 1) % 2 ^ 32
        ∧ b.regsBut [K.HeartbeatsRejected] u ∧ b.only [.dict] u)

/-- Mirroring, takeover and return (R446–R454): a mirror frame applies in order and a gap asks for the full state; a
Standby that hears no peer and is ready takes over, and becomes Holder when the guard ends; and a healthy Standby of
the higher claim begins its return. The model's own choices in it: notes/assumptions/1.md, 37.md, 87.md and 88.md. -/
def Obligations.TakeoversComplete : Prop :=
  (∀ (t : Nat) (d : List Nat),
    let mirrored := fun (b : State) => b.sys.dictReady = true ∧ (b.reg K.BridleRole = 3 ∨ b.reg K.BridleRole = 4)
      ∧ field d 0 2 = 0x4D42 ∧ field d 2 1 = 0x10
    Completes (.mirrorFrame t d) t
      (fun b => mirrored b ∧ bit (field d 3 1) 0 = false
        ∧ ∀ q, b.bridle.mirrorIn = some q → field d 4 4 ≠ (q + 1) % 2 ^ 32)
      (fun b u => u.bridle.resync = true ∧ u.bridle.mirrorIn = none ∧ u.reg K.MirrorCompleteFlag = 0
        ∧ u.reg K.BridleRole = 3
        ∧ (b.bridle.resync = false → u.reg K.MirrorResyncs = (b.reg K.MirrorResyncs + 1) % 2 ^ 32)
        ∧ b.only [.dict, .bridle] u)
    ∧ Completes (.mirrorFrame t d) t
      (fun b => mirrored b ∧ (bit (field d 3 1) 0 = true ∨ ∃ q, b.bridle.mirrorIn = some q ∧ field d 4 4 = (q + 1) % 2 ^ 32))
      (fun b u => u.bridle.mirrorIn = some (field d 4 4) ∧ u.bridle.resync = false
        ∧ (∀ data, mirrorSplit d.length (d.drop 8) = [(5, data)] → u.reg K.NextSerial = field data 0 8
          ∧ u.reg K.LastIssuedSerial = field data 8 8 ∧ u.reg K.LastIssuedCopy = field data 16 8
          ∧ b.only [.dict, .bridle] u)
        ∧ b.only [.mem, .dict, .ev, .sys, .pos, .comp, .tone, .fire, .loop, .dram, .time, .bridle] u))
  ∧ (∀ (t : Nat),
    let silent := fun (b : State) => b.reg K.BridleRole ≠ 0 ∧ b.bridle.absent = false ∧ (∃ a, some a ∈ b.bridle.heard)
      ∧ ∀ a, some a ∈ b.bridle.heard → a + b.threeClaims ≤ b.now
    let takes := fun (b : State) => (b.reg K.BridleRole = 3 ∨ b.reg K.BridleRole = 4) ∧ b.flag K.PairReady = true
      ∧ b.bridle.guardEnd = none
    Completes (.peerAbsent t) t (fun b => silent b ∧ ¬ takes b)
      (fun b u => u.bridle = { b.bridle with absent := true } ∧ b.raised [250] u
        ∧ b.only [.ev, .bridle] u)
    ∧ Completes (.peerAbsent t) t (fun b => silent b ∧ takes b)
      (fun b u => u.bridle.absent = true ∧ u.reg K.ClaimActual = b.reg K.ConfiguredClaim ∧ u.reg K.BridleRole = 3
        ∧ u.bridle.guardEnd = some (b.now + b.reg K.TakeoverGuard) ∧ .ball .claimOut 1 ∈ u.out
        ∧ (∃ d, .bridle true d ∈ u.out ∧ field d 3 1 = b.reg K.ConfiguredClaim % 256) ∧ b.raised [250] u
        ∧ b.only [.dict, .ev, .link, .fire, .bridle] u))
  ∧ (∀ (t e : Nat),
    Completes (.takeoverGuardEnd t) t
      (fun b => b.bridle.guardEnd = some e ∧ e ≤ b.now
        ∧ ∀ l ∈ b.sharedLinks, b.linkUp l = true → b.bridle.cleared.contains l = true)
      fun b u => u.reg K.BridleRole = 2 ∧ u.bridle.guardEnd = none
        ∧ u.reg K.NextSerial = (b.reg K.LastIssuedSerial + 1 + b.reg K.SerialTakeoverSkip) % 2 ^ 64
        ∧ u.reg K.TakeoverCount = (b.reg K.TakeoverCount + 1) % 2 ^ 32
        ∧ u.bridle.resumeFrom = b.ptp + b.reg K.IssueLead * 65536 ∧ b.raised [248] u
        ∧ b.only [.mem, .dict, .ev, .tone, .loop, .bridle] u)
  ∧ (∀ (t u0 : Nat),
    Completes (.returnPair t) t
      (fun b => b.reg K.BridleRole = 3 ∧ b.flag K.ReturnEnable = true
        ∧ field b.bridle.peer 4 1 < b.reg K.ConfiguredClaim ∧ b.bridle.healthySince = some u0
        ∧ u0 + b.reg K.ReturnHealthyTime * 1000000 ≤ b.now ∧ b.healthy = true
        ∧ b.flag K.MirrorCompleteFlag = true ∧ b.bridle.guardEnd = none ∧ b.bridle.absent = false)
      fun b u => u.reg K.BridleRole = 4 ∧ u.reg K.ReturnCopyPending = rawOf 8 b.eligibleCopy
        ∧ b.regsBut [K.BridleRole, K.ReturnCopyPending] u ∧ b.only [.dict] u)

/-- Security (R456–R460, R467, R468, R470): the lifecycle advances where its keys or its signed image allow; keys are
installed into empty slots and revoked, never the last signing key for firmware; a token challenge draws a nonce, the
right token for it gives the CAN path its role until its timeout, and a wrong one counts; a lockout ends; the debug
level and a grant's end follow their conditions; and the counters are read. The model's own choices in it:
notes/assumptions/1.md, 5.md, 32.md, 80.md, 81.md, 82.md and 85.md. -/
def Obligations.SecurityCompletes : Prop :=
  (∀ (t v : Nat) (w : Wr), w.val = v →
    Completes (.lifecycleAdvance t w) t
      (fun b => b.takes 0x3100 2 w v ∧ isPrint b.mode = false
        ∧ (v = 1 ∧ b.reg K.LifecycleState = 0 ∧ 0 < b.firmwareKeys
            ∧ (∃ i, i < 4 ∧ b.keyLive (0x11 + i) = true)
          ∨ v = 2 ∧ b.reg K.LifecycleState = 1 ∧ b.sec.signed = true))
      fun b u => u.reg K.LifecycleState = v ∧ u.sec.grant = none ∧ u.reg K.GrantExpiry = 0 ∧ b.raised [253] u
        ∧ b.regsBut [K.LifecycleState, K.GrantExpiry, K.DebugLevelActual] u ∧ b.only [.dict, .ev, .sec] u)
  ∧ (∀ (t : Nat) (w : Wr) (k : List Nat), k = leBytes w.len w.val →
    Completes (.keyInstall t w) t
      (fun b => b.takes 0x3130 1 w w.val ∧ isPrint b.mode = false ∧ installFits k = true
        ∧ b.keyStatus (field k 0 1) = 0 ∧ (roleSlot (field k 0 1) = true → ∃ c, w.path = .core c))
      fun b u => u.reg (keyStatusKey (field k 0 1)) = 0x40 + field k 1 1
        ∧ u.keyBytes (field k 0 1) = installKey k
        ∧ (∀ id, id ≠ field k 0 1 → u.keyBytes id = b.keyBytes id)
        ∧ b.regsBut [keyStatusKey (field k 0 1)] u ∧ b.only [.dict, .sec] u)
  ∧ (∀ (t : Nat) (w : Wr),
    Completes (.keyRevoke t w) t
      (fun b => b.takes 0x3130 2 w w.val ∧ isPrint b.mode = false ∧ keySlots.contains w.val = true
        ∧ ¬ (signingSlot w.val = true ∧ b.keyLive w.val = true ∧ bit (b.keyStatus w.val) 0 = true
          ∧ b.firmwareKeys = 1))
      fun b u => u.reg (keyStatusKey w.val) = setBit (b.keyStatus w.val) 7 true ∧ u.keyLive w.val = false
        ∧ b.regsBut [keyStatusKey w.val] u ∧ b.only [.dict] u)
  ∧ (∀ (t : Nat) (path : WPath),
    Completes (.tokenChallenge t path) t (fun b => checkRead b 0x3110 1 = 0)
      fun b u => (∃ n, n.length = 16 ∧ u.sec = { b.sec with nonce := some (n, b.now) }
          ∧ .reply path (leNat n) 16 ∈ u.out)
        ∧ u.dict = b.dict ∧ b.only [.sec] u)
  ∧ (∀ (t : Nat) (w : Wr) (n : List Nat) (t0 : Nat), w.path = .can →
    let k := leBytes 17 w.val
    let right := fun (b : State) => b.now < t0 + 1000000000 ∧ roleSlot (field k 0 1) = true
      ∧ b.keyLive (field k 0 1) = true ∧ k.drop 1 = tokenFor (b.keyBytes (field k 0 1)) n b.can.nodeId
    Completes (.roleToken t w) t
      (fun b => b.takes 0x3110 2 w w.val ∧ b.lockedOut pathCan = false ∧ b.sec.nonce = some (n, t0) ∧ right b)
      (fun b u => u.reg K.CanRole = roleOf (field k 0 1)
        ∧ u.can.roleUntil = some (b.now + b.reg K.CanRoleTimeout * 1000000000)
        ∧ b.regsBut [K.CanRole] u ∧ b.only [.dict, .can] u)
    ∧ Completes (.roleToken t w) t
      (fun b => b.takes 0x3110 2 w w.val ∧ b.lockedOut pathCan = false ∧ b.sec.nonce = some (n, t0) ∧ ¬ right b)
      (fun b u => u.reg K.AuthenticationFailures = (b.reg K.AuthenticationFailures + 1) % 2 ^ 32
        ∧ u.reg K.CanRole = b.reg K.CanRole ∧ .abort .can abGate ∈ u.out ∧ b.raised [252] u
        ∧ (7 ≤ (b.sec.fails.filter fun f => f.1 == pathCan && decide (b.now < f.2 + 60000000000)).length →
          u.lockedOut pathCan = true)
        ∧ b.only [.dict, .ev, .sec] u))
  ∧ (∀ (t u0 : Nat),
    Completes (.canRoleTimeout t) t (fun b => b.can.roleUntil = some u0 ∧ u0 ≤ b.now)
      fun b u => u.reg K.CanRole = 0 ∧ u.can = { b.can with roleUntil := none } ∧ b.regsBut [K.CanRole] u
        ∧ b.only [.dict, .can] u)
  ∧ (∀ (t path : Nat),
    Completes (.lockoutEnd t path) t (fun b => ∀ l ∈ b.sec.lockedUntil, l.1 = path → l.2 ≤ b.now)
      fun b u => u.lockedOut path = false
        ∧ u.sec = { b.sec with lockedUntil := b.sec.lockedUntil.filter fun l => l.1 != path } ∧ b.only [.sec] u)
  ∧ (∀ (t v : Nat) (w : Wr), w.val = v →
    Completes (.debugLevelRequest t w) t (fun b => b.takes 0x3120 1 w v ∧ b.debugPermits v = true)
      fun b u => u.reg K.DebugLevelRequest = v ∧ u.reg K.DebugLevelActual = v
        ∧ (b.reg K.DebugLevelActual ≠ v → b.raised [255] u)
        ∧ b.regsBut [K.DebugLevelRequest, K.DebugLevelActual] u ∧ b.only [.dict, .ev, .sec] u)
  ∧ (∀ (t sources till : Nat),
    Completes (.grantExpiry t) t
      (fun b => b.sec.grant = some (sources, till) ∧ (till ≤ b.now ∨ b.reg K.GrantExpiry ≤ ptpSec b.ptp))
      fun b u => u.sec = { b.sec with grant := none } ∧ u.reg K.GrantExpiry = 0
        ∧ (b.reg K.LifecycleState = 2 → u.reg K.DebugLevelActual ≠ 2)
        ∧ b.regsBut [K.GrantExpiry, K.DebugLevelActual] u ∧ b.only [.dict, .ev, .sec] u)
  ∧ (∀ (t : Nat) (path : WPath),
    Completes (.performanceCountersRead t path) t
      (fun b => b.reachable = true ∧ b.countersReadable path = true)
      fun b u => (∃ v, .reply path v 2048 ∈ u.out) ∧ u.dict = b.dict ∧ b.only [] u)

/-- Packages (R459, R461–R464, R470): a package is loaded, checked, refused with its reason or acted on, and a customer
image is written to the other slot; the security version is committed in Secured. The model's own choices in it:
notes/assumptions/1.md, 28.md, 47.md and 84.md. -/
def Obligations.PackagesComplete : Prop :=
  (∀ (t : Nat) (w : Wr),
    let loads := fun (c : Instr) (kind : Nat) => Completes c t
      (fun b => b.takes 0x3102 1 { w with val := kind } kind ∧ b.sec.loading = none ∧ b.comp.checking = false)
      (fun b u => u.reg K.PackageState = 1 ∧ u.sec = { b.sec with loading := some kind }
        ∧ b.regsBut [K.PackageState] u ∧ b.only [.dict, .sec] u)
    loads (.packageLoadFirmware t w) 1 ∧ loads (.packageLoadDebugGrant t w) 3 ∧ loads (.packageLoadLifecycle t w) 4)
  ∧ (∀ (t kind : Nat),
    let checked := fun (b : State) => b.sec.loading = some kind ∧ b.reg K.PackageState = 1
    let refusal := fun (b : State) => b.packageRefusal packageInboxAt 8388832 kind false
    let payload := fun (b : State) => b.bytesAt (packageInboxAt + 224) (Memory.value b.mem (packageInboxAt + 12) 4)
    Completes (.packageCheckDone t) t checked fun b u =>
      (refusal b ≠ 0 → u.reg K.PackageState = 4 ∧ u.reg K.PackageRefusal = refusal b
        ∧ u.sec = { b.sec with loading := none } ∧ b.regsBut [K.PackageState, K.PackageRefusal] u
        ∧ b.raised [254] u ∧ b.only [.dict, .ev, .sec] u)
      ∧ (refusal b = 0 → kind = 1 → u.reg K.PackageState = 2 ∧ u.reg K.PackageRefusal = 0
        ∧ b.regsBut [K.PackageState, K.PackageRefusal] u ∧ b.only [.dict] u)
      ∧ (refusal b = 0 → kind = 3 → u.reg K.PackageState = 3 ∧ u.sec.loading = none
        ∧ u.reg K.GrantExpiry = field (payload b) 0 6 ∧ (∃ e, u.sec.grant = some (field (payload b) 8 2, e))
        ∧ b.only [.dict, .ev, .sec] u)
      ∧ (refusal b = 0 → kind = 4 → u.reg K.PackageState = 3 ∧ u.sec.loading = none
        ∧ ∀ r, lifecycleRecords ((payload b).length / 104) (payload b) = [r] →
            (field r 0 1 = 1 → b.keyStatus (field r 1 1) = 0 → u.keyBytes (field r 1 1) = installKey (r.drop 1)
              ∧ b.only [.dict, .sec] u)
            ∧ (field r 0 1 = 2 → u.keyLive (field r 1 1) = false ∧ b.only [.dict, .sec] u)
            ∧ (field r 0 1 = 3 → u.reg K.LifecycleState = 3 ∧ u.reg K.DebugLevelActual = 1 ∧ b.raised [253] u)))
  ∧ (∀ (t : Nat) (ok : Bool),
    Completes (.packageWriteDone t ok) t
      (fun b => b.reg K.PackageState = 2 ∧ b.sec.loading.isSome = true ∧ b.reg K.BootSlotRun ≤ 1)
      fun b u => u.reg K.PackageState = (if ok then 3 else 4) ∧ u.sec = { b.sec with loading := none }
        ∧ u.reg K.BootSlotPreferred = (if ok then 1 - b.reg K.BootSlotRun else b.reg K.BootSlotPreferred)
        ∧ b.regsBut [K.PackageState, K.BootSlotPreferred] u ∧ b.only [.dict, .sec] u)
  ∧ (∀ (t : Nat) (w : Wr), w.val = 1 →
    Completes (.securityVersionCommit t w) t
      (fun b => b.takes 0x3101 6 w 1 ∧ b.reg K.LifecycleState = 2 ∧ b.reg K.FirmwareSecurityVersion ≤ 64)
      fun b u => u.reg K.SecurityVersionFloor = max (b.reg K.FirmwareSecurityVersion) (b.reg K.SecurityVersionFloor)
        ∧ b.regsBut [K.SecurityVersionFloor] u ∧ b.only [.dict] u)

/-- The test port (R466): BYPASS is one bit that captures 0, IDCODE shifts out the 32 bits of the device's code, SAMPLE
and PRELOAD the boundary cells; EXTEST, CLAMP and HIGHZ act on the balls while RESET_N is low. No instruction of the
test port touches the block's own state beyond the boundary cells. The model's own choices in it:
notes/assumptions/1.md, 7.md and 83.md. -/
def Obligations.TestPortCompletes : Prop :=
  ∀ (t tdi n : Nat),
    let shifts := fun (c : Instr) (post : State → State → Prop) => Completes c t (fun _ => True)
      fun b u => post b u ∧ u.dict = b.dict ∧ b.only [.sec] u
    let bypassed := fun (u : State) => .ball .tdo (tdi * 2 % 2 ^ n) ∈ u.out
    let scanned := fun (b u : State) => ∃ cells, cells < 2 ^ Config.boundaryLength
      ∧ .ball .tdo ((cells + tdi * 2 ^ Config.boundaryLength) % 2 ^ n) ∈ u.out
      ∧ u.sec = { b.sec with
          boundary := (cells + tdi * 2 ^ Config.boundaryLength) / 2 ^ n % 2 ^ Config.boundaryLength }
    shifts (.jtagBypass t tdi n) (fun b u => bypassed u ∧ u.sec = b.sec)
    ∧ shifts (.jtagIdcode t tdi n) (fun b u =>
        .ball .tdo ((Config.idCode.toNat + tdi * 2 ^ 32) % 2 ^ n) ∈ u.out ∧ u.sec = b.sec)
    ∧ shifts (.jtagSamplePreload t tdi n) (fun b u => scanned b u)
    ∧ shifts (.jtagExtest t tdi n true) (fun b u => scanned b u ∧ .pins (some u.sec.boundary) ∈ u.out)
    ∧ shifts (.jtagExtest t tdi n false) (fun b u => bypassed u ∧ u.sec = b.sec)
    ∧ shifts (.jtagClamp t tdi n true) (fun b u =>
        bypassed u ∧ .pins (some b.sec.boundary) ∈ u.out ∧ u.sec = b.sec)
    ∧ shifts (.jtagClamp t tdi n false) (fun b u => bypassed u ∧ u.sec = b.sec)
    ∧ shifts (.jtagHighz t tdi n true) (fun b u => bypassed u ∧ .pins none ∈ u.out ∧ u.sec = b.sec)
    ∧ shifts (.jtagHighz t tdi n false) (fun b u => bypassed u ∧ u.sec = b.sec)

/-- A refused write changes nothing (R57, R62–R64, R68): every command that writes an entry of its own, when the
dictionary refuses the write, reports the dictionary's code on the path that wrote, raises event 12 and leaves
everything else as it was. ModeRequest and FunctionEnable, which also keep a refusal code of their own, are
ModesComplete's and FunctionsComplete's. The model's own choices in it: notes/assumptions/1.md and 12.md. -/
def Obligations.RefusedWritesKeepAll : Prop :=
  ∀ (t : Nat) (w : Wr),
    let refused := fun (c : Instr) (idx sub : Nat) (w : Wr) => Completes c t (fun b => checkWrite b idx sub w ≠ 0)
      fun b u => b.refusedWith w.path (checkWrite b idx sub w) u
    refused (.warmResetRequest t w) 0x2203 1 w
    ∧ refused (.islandResetRequest t w) 0x2203 2 w
    ∧ refused (.powerConditionRequest t w) 0x2010 8 w
    ∧ refused (.canRecover t w) 0x2E30 0x0C w
    ∧ (∀ lane, refused (.inputSpoolResume t lane w) 0x2413 (lane + 1) w)
    ∧ (∀ l, l < 8 → refused (.layerCommit t l w) (0x4301 + 0x10 * l) 1 w)
    ∧ (∀ l, l < 8 → refused (.layerEmptyCommit t l w) (0x4301 + 0x10 * l) 2 w)
    ∧ (∀ l, l < 8 → refused (.fenceReached t l w) (0x4301 + 0x10 * l) 3 w)
    ∧ refused (.protectedLoad t w) 0x4381 1 w
    ∧ (∀ sub, refused (.eventPendingClear t sub w) 0x2100 sub w)
    ∧ (∀ sub, refused (.eventMaskWrite t sub w) 0x2101 sub w)
    ∧ (∀ n, refused (.eventRouteWrite t n w) (eventPlace 0x2110 n).1 (eventPlace 0x2110 n).2 w)
    ∧ (∀ n, refused (.eventCountClear t n w) (eventPlace 0x2120 n).1 (eventPlace 0x2120 n).2 w)
    ∧ refused (.storeParameters t w) 0x1010 1 w
    ∧ refused (.restoreDefaults t w) 0x1011 1 w
    ∧ refused (.errorFieldCountClear t w) 0x1003 0 w
    ∧ (∀ c, c < 16 → refused (.channelStart t c w) (0x4400 + 0x10 * c) 6 w)
    ∧ (∀ c, c < 16 → refused (.channelStop t c w) (0x4400 + 0x10 * c) 7 w)
    ∧ refused (.softRequestWrite t w) 0x2D01 1 w
    ∧ (∀ lane, refused (.encodeCommand t lane w) 0x2420 (lane + 1) w)
    ∧ (∀ lane, refused (.flushRequest t lane w) 0x2422 (lane + 1) w)
    ∧ (∀ lane, refused (.spoolResume t lane w) 0x2423 (lane + 1) w)
    ∧ refused (.wavePushRequest t w) 0x2710 1 w
    ∧ refused (.wavePushCancel t w) 0x2710 6 w
    ∧ (∀ ty, refused (.waveBankSwitch t ty w) 0x2713 (ty + 1) w)
    ∧ (w.val = 1 → refused (.serviceSpit t w) 0x2740 1 w)
    ∧ (w.val = 2 → refused (.servicePurge t w) 0x2740 1 w)
    ∧ (w.val = 3 → refused (.serviceLadder t w) 0x2740 1 w)
    ∧ (w.val = 0 → refused (.serviceCancel t w) 0x2740 1 w)
    ∧ (∀ l slot, Completes (.tempCurveWrite t l slot w) t
        (fun b => l < b.linkCount ∧ slot < 12 ∧ checkWrite b (0x4100 + 12 * l + slot) 0x0F w ≠ 0)
        fun b u => b.refusedWith w.path (checkWrite b (0x4100 + 12 * l + slot) 0x0F w) u)
    ∧ (∀ l, refused (.linkInkWrite t l w) 0x2030 (l + 1) w)
    ∧ (∀ l, refused (.linkRestart t l w) (0x4000 + 0x10 * l) 0x0F w)
    ∧ (∀ l, refused (.linkVersionLimitWrite t l w) (0x4000 + 0x10 * l) 5 w)
    ∧ (∀ l, w.val = 1 → refused (.prbsModeOn t l w) (0x4001 + 0x10 * l) 7 w)
    ∧ (∀ l rx, w.val = 0 → refused (.prbsModeOff t l rx w) (0x4001 + 0x10 * l) 7 w)
    ∧ (∀ l, refused (.headCfgRequest t l w) (0x4002 + 0x10 * l) 1 w)
    ∧ refused (.recalibrationRequest t w) 0x2800 0x0D w
    ∧ refused (.thermalTrimReference t w) 0x2F03 1 w
    ∧ refused (.faultLogSave t w) 0x2142 2 w
    ∧ refused (.calibrationRecordSave t w) 0x2F10 1 w
    ∧ refused (.illuminationCommit t w) 0x2A00 2 w
    ∧ refused (.illuminationRestart t w) 0x2A00 0x0D w
    ∧ (∀ p, p < 8 → refused (.portCommit t p w) (0x4200 + 0x10 * p) 0x0B w)
    ∧ (∀ p, p < 8 → refused (.portRestart t p w) (0x4200 + 0x10 * p) 0x0C w)
    ∧ (∀ p, p < 8 → refused (.coefficientCommit t p w) 0x2903 (p + 1) w)
    ∧ (∀ p, p < 8 → refused (.cciRequest t p w) (0x4202 + 0x10 * p) 1 w)
    ∧ refused (.flatFieldCaptureRequest t w) 0x2900 0x0F w
    ∧ refused (.jobDelete t w) 0x2401 6 w
    ∧ refused (.zoneCaptureRequest t w) 0x2B00 0x12 w
    ∧ refused (.overlapCalibrationRequest t w) 0x2B00 0x13 w
    ∧ refused (.substitutionCalibrationRequest t w) 0x2B00 0x14 w
    ∧ (∀ sc, refused (.deviceMarkClear t sc w) 0x2C18 (sc + 1) w)
    ∧ refused (.retrainRequest t w) 0x2C00 0x0F w
    ∧ refused (.ringAreaSizeWrite t w) 0x2C00 6 w
    ∧ refused (.orderlyStopRequest t w) 0x2010 7 w
    ∧ (∀ ch, refused (.copyLengthWrite t ch w) 0x2313 (ch + 1) w)
    ∧ (∀ ch (high : Bool), refused (.softLimitWrite t ch high w) (if high then 0x2315 else 0x2314) (ch + 1) w)
    ∧ (∀ ch, refused (.positionPreset t ch w) 0x231F (ch + 1) w)
    ∧ (∀ ch, refused (.channelTypeWrite t ch w) 0x2310 (ch + 1) w)
    ∧ (∀ ch, refused (.countingModeWrite t ch w) 0x2311 (ch + 1) w)
    ∧ refused (.masterChannelWrite t w) 0x2300 1 w
    ∧ (∀ k, refused (.compareValueWrite t k w) 0x2351 (k + 1) w)
    ∧ (∀ k, refused (.compareChannelWrite t k w) 0x2350 (k + 1) w)
    ∧ refused (.compareFiredClear t w) 0x2355 1 w
    ∧ refused (.debugLevelRequest t w) 0x3120 1 w
    ∧ refused (.lifecycleAdvance t w) 0x3100 2 w
    ∧ refused (.keyInstall t w) 0x3130 1 w
    ∧ refused (.keyRevoke t w) 0x3130 2 w
    ∧ refused (.roleToken t w) 0x3110 2 w
    ∧ refused (.packageLoadFirmware t w) 0x3102 1 { w with val := 1 }
    ∧ refused (.packageLoadDebugGrant t w) 0x3102 1 { w with val := 3 }
    ∧ refused (.packageLoadLifecycle t w) 0x3102 1 { w with val := 4 }
    ∧ refused (.securityVersionCommit t w) 0x3101 6 w
    ∧ (∀ idx port, 0x2E01 ≤ idx ∧ idx ≤ 0x2E03 ∧ port < 3 → refused (.addressChange t idx port w) idx (port + 1) w)
    ∧ refused (.missingNozzleMark t w) 0x2630 3 w
    ∧ refused (.missingNozzleClear t w) 0x2630 4 w
    ∧ refused (.bankCommit t w) 0x2601 1 w
    ∧ refused (.bankCommitCancel t w) 0x2601 2 w
    ∧ refused (.bankCopyRequest t w) 0x2601 6 w
    ∧ refused (.screenArrayLoad t w) 0x2610 1 w
    ∧ refused (.screenArrayRelease t w) 0x2610 2 w

/-- R63: a write whose value lies outside its type's encoding or outside the range its table states is refused with
0x0609_0030 and leaves the entry, and every other, unchanged. It holds of any rule an owner may have (`eff`), of every
entry that may be written by this path now and of a width that fits. The model's own choices in it:
notes/assumptions/12.md. -/
def Obligations.OutOfRangeWritesRefused : Prop :=
  ∀ (b : State) (idx sub : Nat) (w : Wr) (e : Entry) (eff : Effect),
    b.entry idx sub = some e → b.reachable = true → b.health.shuttingDown = false → b.served idx = true →
    (e.acc = .rw ∨ e.acc = .wo) → e.gate.admits (b.role w.path) (b.reg K.LifecycleState) = true →
    lengthFits e.ty w = true → surplusFits e.ty w = true →
    (e.ty.encodes (valueOf e.ty w) = false ∨ e.rng.admits e.ty (valueOf e.ty w) = false) →
    checkWrite b idx sub w = 0x06090030
    ∧ b.refusedWith w.path 0x06090030 ((writeBy idx sub eff w).run b)
    ∧ ((writeBy idx sub eff w).run b).reg (idx * 256 + sub) = b.reg (idx * 256 + sub)

/-- From R78: event n is bit (n mod 32) of 0x2100:(n div 32 + 1) EventPending, as any reader reads it, and the same bit of
0x2101 is its mask. -/
def Obligations.EventBitsNumbered : Prop :=
  ∀ (s : State) (p : WPath) (n : Nat), n < 256 →
    (s.view p 0x2100 (n / 32 + 1)).testBit (n % 32) = s.ev.pending.getLsbD n
    ∧ (s.view p 0x2101 (n / 32 + 1)).testBit (n % 32) = s.ev.masked n

/-- Routes and counters (R79): where event n's lie and what they read; a counter takes 0 alone and is cleared; a route
with a reserved bit is refused with 0x0609_0030 and stays; reserved events never occur, read 0 in both and take
nothing but 0. The model's own choices in it: notes/assumptions/10.md. -/
def Obligations.RoutesAndCountersKeepR79 : Prop :=
  ∀ (s : State) (p : WPath) (n : Nat), s.inv = true → n < 256 →
    let sub := if n < 128 then n + 1 else n - 127
    let at' := fun (base : Nat) => if n < 128 then base else base + 1
    s.view p (at' 0x2110) sub = s.ev.route n ∧ s.view p (at' 0x2120) sub = s.ev.count n
    ∧ s.ev.route n &&& 0x00FF0703 = s.ev.route n ∧ State.reset.ev.route n ≤ 1
    ∧ (reservedEvent n = true → s.ev.route n = 0 ∧ s.ev.count n = 0 ∧ s.occur n = s)
    ∧ (∀ (t : Nat) (w : Wr),
      Completes (.eventCountClear t n w) t (fun b => b.takes (at' 0x2120) sub w w.val ∧ w.val ≠ 0)
        (fun b u => b.refusedWith w.path abRange u ∧ (n ≠ 12 → n ≠ 15 → u.ev.count n = b.ev.count n))
      ∧ Completes (.eventRouteWrite t n w) t
        (fun b => b.takes (at' 0x2110) sub w w.val
          ∧ (w.val &&& 0x00FF0703 ≠ w.val ∨ reservedEvent n = true ∧ w.val ≠ 0))
        (fun b u => b.refusedWith w.path abRange u ∧ u.ev.route n = b.ev.route n))

/-- R80: an interrupt line is a level, asserted while at least one event routed to it is pending and unmasked; so a write
that clears the last such pending bit, or masks it, deasserts the line, and one that unmasks an event still pending
asserts its line at once. It speaks of a ready dictionary: before that nothing is routed (R84). -/
def Obligations.LinesAreLevels : Prop :=
  ∀ (core line : Nat), core < 8 → line < 8 →
    let routed := fun (s : State) (n : Nat) => n < 256 ∧ s.ev.pending.getLsbD n = true
      ∧ (s.ev.route n).testBit (16 + core) = true ∧ s.ev.route n / 2 ^ 8 % 2 ^ 3 = line
    (∀ s : State, s.sys.dictReady = true →
      (s.lineAsserted core line = true ↔ ∃ n, routed s n ∧ s.ev.masked n = false))
    ∧ ∀ (t sub : Nat) (w : Wr),
      Completes (.eventPendingClear t sub w) t (fun b => b.takes 0x2100 sub w w.val)
        (fun b u => u.lineAsserted core line = true
          ↔ ∃ n, routed b n ∧ b.ev.masked n = false ∧ ¬ (n / 32 + 1 = sub ∧ w.val.testBit (n % 32) = true))
      ∧ Completes (.eventMaskWrite t sub w) t (fun b => b.takes 0x2101 sub w w.val)
        (fun b u => u.lineAsserted core line = true
          ↔ ∃ n, routed b n ∧ (if n / 32 + 1 = sub then w.val.testBit (n % 32) else b.ev.masked n) = false)

/-- R67: an entry's window address; the window's span; each subindex owns the 8 bytes of its slot and no other; and a read
of the slot's start returns the value, sign-extended for INTEGER8, INTEGER16 and INTEGER32 and with 0 above every
other type: an INTEGER16 that holds −2 reads 0xFFFF_FFFF_FFFF_FFFE over 8 bytes and an UNSIGNED16 that holds 0xFFFE
reads 0x0000_0000_0000_FFFE. The model's own choices in it: notes/assumptions/41.md. -/
def Obligations.WindowSlotsFollowR67 : Prop :=
  (∀ idx sub, 0x1000 ≤ idx → idx < 0x6000 → sub < 256 →
    windowAddr idx sub = 0x40000000 + (idx - 0x1000) * 0x800 + sub * 8
    ∧ 0x40000000 ≤ windowAddr idx sub ∧ windowAddr idx sub + 7 ≤ 0x427FFFFF
    ∧ ∀ k, k < 8 → windowPlace (windowAddr idx sub + k) = (idx, sub, k))
  ∧ (∀ addr, 0x40000000 ≤ addr → addr ≤ 0x427FFFFF →
    let at' := windowPlace addr
    0x1000 ≤ at'.1 ∧ at'.1 < 0x6000 ∧ at'.2.1 < 256 ∧ at'.2.2 < 8 ∧ windowAddr at'.1 at'.2.1 + at'.2.2 = addr)
  ∧ ∀ (s : State) (core idx sub width : Nat) (e : Entry), s.entry idx sub = some e → checkRead s idx sub = 0 →
    (width = 1 ∨ width = 2 ∨ width = 4 ∨ width = 8) → e.ty.bytes ≤ width →
    let v := s.view (.core core) idx sub
    let r := s.windowRead core idx sub width
    (∀ n, e.ty = .i n → (n = 1 ∨ n = 2 ∨ n = 4 ∨ n = 8) → v < 2 ^ (8 * n) →
      r = if v < 2 ^ (8 * n - 1) then v else 2 ^ (8 * width) - 2 ^ (8 * n) + v)
    ∧ ((∀ n, e.ty ≠ .i n) → r = v)
    ∧ (e.ty = .i 2 → width = 8 → v = 0xFFFE → r = 0xFFFFFFFFFFFFFFFE)
    ∧ (e.ty = .u 2 → width = 8 → v = 0xFFFE → r = 0x000000000000FFFE)

/-- From R59: what the dictionary admits of a path is a rw or wo entry whose gate admits the path's role in the lifecycle
state; the gates are those of the rule's table, and a higher role holds every right of a lower one. A read that the
dictionary admits is answered on every path, whatever its role. The model's own choices in it:
notes/assumptions/12.md. -/
def Obligations.GatesFollowR59 : Prop :=
  (∀ (s : State) (idx sub : Nat) (w : Wr), checkWrite s idx sub w = 0 →
    ∃ e, s.entry idx sub = some e ∧ (e.acc = .rw ∨ e.acc = .wo)
      ∧ e.gate.admits (s.role w.path) (s.reg K.LifecycleState) = true)
  ∧ (∀ (g : Gate) (role life : Nat), role ≤ 2 → life ≤ 3 →
    (g.admits role life = true ↔ match g with
      | .o => life ≤ 2
      | .i => 1 ≤ role ∧ life ≤ 2
      | .p => 1 ≤ role ∧ life ≤ 1
      | .v => role = 2))
  ∧ (∀ (g : Gate) (low high life : Nat), low ≤ high → high ≤ 2 → g.admits low life = true → g.admits high life = true)
  ∧ ∀ (s : State) (p : WPath) (idx sub : Nat), checkRead s idx sub = 0 →
    ∃ v n, .reply p v n ∈ ((readReply p idx sub).run s).out

/-- Key material is never readable (R59, R458): what a read of any entry answers on any path, and what a window read
returns, is the same whatever keys the store holds. -/
def Obligations.KeysAreNeverRead : Prop :=
  ∀ (s : State) (keys : List (Nat × List Nat)) (p : WPath) (idx sub width core : Nat),
    let s' := { s with sec := { s.sec with keys := keys } }
    ((readReply p idx sub).run s').out = ((readReply p idx sub).run s).out
    ∧ s'.windowRead core idx sub width = s.windowRead core idx sub width

/-- One step runs the oldest waiting command with the queue's rest, and idles where none waits. The model's own choices in
it: notes/assumptions/2.md. -/
def Obligations.StepRunsFront : Prop :=
  (∀ (c : Instr) (s : State) (rest : List Instr),
    step { s with pending := c :: rest } = exec c { s with pending := rest })
  ∧ ∀ s : State, s.pending = [] → step s = .next s

/-- Every command completes, in its place and in its time: a step with a command waiting answers a next state, in which
that command and no other has left the queue, time has not gone back, and the part is the same. The model's own
choices in it: notes/assumptions/1.md, 17.md and 26.md. -/
def Obligations.StepsTakeOneCommand : Prop :=
  ∀ (c : Instr) (s : State) (rest : List Instr), s.pending = c :: rest →
    ∃ u, step s = .next u ∧ u.pending = rest ∧ s.now ≤ u.now ∧ u.part = s.part

/-- The state right after reset meets both invariants. The model's own choices in it: notes/assumptions/3.md. -/
def Obligations.ResetMeetsInvariants : Prop :=
  State.reset.inv = true ∧ State.reset.shape = true

/-- Every step keeps the invariant of the block's plain data (R10, R70, R77, R79, R81, R82, R84): memory and registers in
canonical form, no reserved event pending, counted or routed, reserved route bits 0, 32-bit counters, the queues
within their lengths, and only AON's events held. The model's own choices in it: notes/assumptions/8.md. -/
def Obligations.StepsKeepInvariant : Prop :=
  ∀ s u : State, s.inv = true → step s = .next u → u.inv = true

/-- Every step keeps the number of the block's channels, lanes, layers, heads, links, ports, flows and sessions (R5, R6,
R16, R24, R65). -/
def Obligations.StepsKeepShape : Prop :=
  ∀ s u : State, s.shape = true → step s = .next u → u.shape = true

/-- The fuses only ever advance (R456, R459, R464): over a step of any well-formed command the lifecycle state and the
security-version floor never fall, and a key slot that was revoked stays revoked. The model's own choices in it:
notes/assumptions/3.md and 84.md. -/
def Obligations.FusesOnlyAdvance : Prop :=
  ∀ (c : Instr) (rest : List Instr) (s u : State), c.wf = true → s.inv = true → s.pending = c :: rest → step s = .next u →
    s.reg K.LifecycleState ≤ u.reg K.LifecycleState ∧ s.reg K.SecurityVersionFloor ≤ u.reg K.SecurityVersionFloor
    ∧ ∀ id, keySlots.contains id = true → bit (s.keyStatus id) 7 = true → bit (u.keyStatus id) 7 = true
end

