-- ==== Sys2Proof/Laws/Maps.lean ====
section
/-! SUPPORT. Sys2Proof/Laws/Maps.lean: finite maps and the byte memory: a read after a write, what a write leaves
alone, and that every operation keeps the canonical form. -/

namespace Sys2Proof.Machine

/-- A put key holds its value. -/
@[simp] theorem SMap.find_put_same (m : SMap) (q w : Nat) : (m.put q w).find q = some w := by
  induction m with
  | nil => simp [SMap.put, SMap.find]
  | cons p m ih =>
    obtain ⟨k, v⟩ := p
    simp only [SMap.put]
    split
    · simp [SMap.find]
    · split
      · next h => simp [SMap.find, h]
      · next h h' => simp [SMap.find, Ne.symm h', h, ih]

/-- Other keys keep theirs. -/
theorem SMap.find_put_ne (m : SMap) {q r : Nat} (w : Nat) (h : r ≠ q) : (m.put q w).find r = m.find r := by
  induction m with
  | nil =>
    simp only [SMap.put, SMap.find]
    rw [if_neg (Ne.symm h)]
    simp
  | cons p m ih =>
    obtain ⟨k, v⟩ := p
    simp only [SMap.put]
    split
    · next hq =>
      by_cases hr : r < k
      · simp only [SMap.find, if_neg (Ne.symm h)]
        have : k ≠ r := by omega
        simp [this, hr]
      · have h1 : ¬ r < q := by omega
        simp [SMap.find, Ne.symm h, h1]
    · split
      · next hk => subst hk; simp [SMap.find, Ne.symm h]
      · simp only [SMap.find, ih]

/-- What a map finds after a put. -/
theorem SMap.find_put (m : SMap) (q r w : Nat) : (m.put q w).find r = if r = q then some w else m.find r := by
  split
  · rename_i h
    rw [h, SMap.find_put_same]
  · rename_i h
    exact SMap.find_put_ne m w h

/-- A put keeps the keys rising above a bound that the new key respects. -/
theorem SMap.above_put {m : SMap} {b q w : Nat} (h : SMap.above b m = true) (hq : b ≤ q) :
    SMap.above b (m.put q w) = true := by
  induction m generalizing b with
  | nil => simp [SMap.put, SMap.above, hq]
  | cons p m ih =>
    obtain ⟨k, v⟩ := p
    simp only [SMap.above, Bool.and_eq_true, decide_eq_true_eq] at h
    simp only [SMap.put]
    split
    · next hlt =>
      simp only [SMap.above, Bool.and_eq_true, decide_eq_true_eq]
      exact ⟨hq, hlt, h.2⟩
    · split
      · next hk => simp [SMap.above, h.1, h.2]
      · next h1 h2 =>
        simp only [SMap.above, Bool.and_eq_true, decide_eq_true_eq]
        exact ⟨h.1, ih h.2 (by omega)⟩

/-- A put keeps the canonical form. -/
theorem SMap.wf_put {m : SMap} {q w : Nat} (h : m.wf = true) : (m.put q w).wf = true :=
  SMap.above_put h (Nat.zero_le q)

/-- Keys above a bound are above a lower one. -/
theorem SMap.above_mono {m : SMap} {a b : Nat} (h : SMap.above b m = true) (hab : a ≤ b) :
    SMap.above a m = true := by
  cases m with
  | nil => rfl
  | cons p m =>
    simp only [SMap.above, Bool.and_eq_true, decide_eq_true_eq] at h ⊢
    exact ⟨by omega, h.2⟩

/-- Keys kept by a test stay rising. -/
theorem SMap.above_keep {m : SMap} {b : Nat} (p : Nat → Bool) (h : SMap.above b m = true) :
    SMap.above b (m.keep p) = true := by
  induction m generalizing b with
  | nil => rfl
  | cons x m ih =>
    simp only [SMap.above, Bool.and_eq_true, decide_eq_true_eq] at h
    simp only [SMap.keep, List.filter]
    split
    · simp only [SMap.above, Bool.and_eq_true, decide_eq_true_eq]
      exact ⟨h.1, ih h.2⟩
    · exact above_mono (ih h.2) (by omega)

/-- A filtered map keeps the canonical form. -/
theorem SMap.wf_keep {m : SMap} (p : Nat → Bool) (h : m.wf = true) : (m.keep p).wf = true := SMap.above_keep p h

/-- One map put over another keeps the canonical form. -/
theorem SMap.wf_over {m : SMap} (r : SMap) (h : m.wf = true) : (m.over r).wf = true := by
  induction r generalizing m with
  | nil => exact h
  | cons p r ih => exact ih (wf_put h)

/-- A stored byte reads back. -/
@[simp] theorem Memory.byte_store_same (m : Memory) (a : Nat) (b : Byte) (h : Memory.wf m = true) :
    Memory.byte (Memory.store m a b) a = b := by
  suffices ∀ lo, Memory.wfFrom lo m = true → Memory.byte (Memory.store m a b) a = b from this 0 h
  clear h
  induction m with
  | nil =>
    intro lo _
    simp only [Memory.store]
    split
    · next hb => simp [Memory.byte, hb]
    · simp [Memory.byte]
  | cons p m ih =>
    obtain ⟨k, v⟩ := p
    intro lo h
    simp only [Memory.wfFrom, Bool.and_eq_true, decide_eq_true_eq] at h
    simp only [Memory.store]
    split
    · next hlt =>
      split
      · next hb =>
        have : k ≠ a := by omega
        simp [Memory.byte, this, hlt, hb]
      · simp [Memory.byte]
    · split
      · next hk =>
        subst hk
        split
        · next hb =>
          cases m with
          | nil => simp [Memory.byte, hb]
          | cons q m =>
            obtain ⟨k2, v2⟩ := q
            have h2 := h.2
            simp only [Memory.wfFrom, Bool.and_eq_true, decide_eq_true_eq] at h2
            have h3 : k2 ≠ a := by omega
            have h4 : a < k2 := by omega
            simp [Memory.byte, h3, h4, hb]
        · simp [Memory.byte]
      · next h1 h2 =>
        have : k ≠ a := fun e => h2 e.symm
        simp only [Memory.byte, if_neg this, if_neg h1]
        exact ih _ h.2

/-- A store leaves every other byte alone. -/
theorem Memory.byte_store_ne {m : Memory} {a x : Nat} (b : Byte) (h : Memory.wf m = true) (hx : x ≠ a) :
    Memory.byte (Memory.store m a b) x = Memory.byte m x := by
  suffices ∀ lo, Memory.wfFrom lo m = true → Memory.byte (Memory.store m a b) x = Memory.byte m x from this 0 h
  clear h
  induction m with
  | nil =>
    intro lo _
    simp only [Memory.store]
    split
    · rfl
    · simp only [Memory.byte, if_neg (Ne.symm hx)]
      split <;> rfl
  | cons p m ih =>
    obtain ⟨k, v⟩ := p
    intro lo h
    simp only [Memory.wfFrom, Bool.and_eq_true, decide_eq_true_eq] at h
    simp only [Memory.store]
    split
    · next hlt =>
      split
      · rfl
      · by_cases hxa : x < a
        · have h1 : k ≠ x := by omega
          have h2 : x < k := by omega
          simp [Memory.byte, Ne.symm hx, hxa, h1, h2]
        · simp [Memory.byte, Ne.symm hx, hxa]
    · split
      · next hk =>
        subst hk
        split
        · cases m with
          | nil =>
            simp only [Memory.byte, if_neg (Ne.symm hx)]
            split <;> rfl
          | cons q m =>
            obtain ⟨k2, v2⟩ := q
            have h2 := h.2
            simp only [Memory.wfFrom, Bool.and_eq_true, decide_eq_true_eq] at h2
            by_cases hxa : x < a
            · have h3 : k2 ≠ x := by omega
              have h4 : x < k2 := by omega
              simp [Memory.byte, Ne.symm hx, hxa, h3, h4]
            · simp [Memory.byte, Ne.symm hx, hxa]
        · simp [Memory.byte, Ne.symm hx]
      · simp only [Memory.byte, ih _ h.2]

/-- A lower bound may be lowered. -/
theorem Memory.wfFrom_mono {m : Memory} {a b : Nat} (h : Memory.wfFrom b m = true) (hab : a ≤ b) :
    Memory.wfFrom a m = true := by
  cases m with
  | nil => rfl
  | cons p m =>
    simp only [Memory.wfFrom, Bool.and_eq_true, decide_eq_true_eq] at h ⊢
    exact ⟨⟨by omega, h.1.2⟩, h.2⟩

/-- A store keeps the canonical form above a bound. -/
theorem Memory.wfFrom_store {m : Memory} {lo a : Nat} (b : Byte) (h : Memory.wfFrom lo m = true) (ha : lo ≤ a) :
    Memory.wfFrom lo (Memory.store m a b) = true := by
  induction m generalizing lo with
  | nil =>
    simp only [Memory.store]
    split
    · rfl
    · next hb => simp [Memory.wfFrom, ha, hb]
  | cons p m ih =>
    obtain ⟨k, v⟩ := p
    have h0 := h
    simp only [Memory.wfFrom, Bool.and_eq_true, decide_eq_true_eq] at h
    simp only [Memory.store]
    split
    · next hlt =>
      split
      · exact h0
      · next hb =>
        simp only [Memory.wfFrom, Bool.and_eq_true, decide_eq_true_eq]
        exact ⟨⟨ha, by simpa using hb⟩, ⟨by omega, h.1.2⟩, h.2⟩
    · split
      · next hk =>
        split
        · exact wfFrom_mono h.2 (by omega)
        · next hb =>
          simp only [Memory.wfFrom, Bool.and_eq_true, decide_eq_true_eq]
          exact ⟨⟨h.1.1, by rw [← hk]; simpa using hb⟩, h.2⟩
      · next h1 h2 =>
        simp only [Memory.wfFrom, Bool.and_eq_true, decide_eq_true_eq]
        exact ⟨h.1, ih h.2 (by omega)⟩

/-- A store keeps the canonical form. -/
theorem Memory.wf_store {m : Memory} (a : Nat) (b : Byte) (h : Memory.wf m = true) :
    Memory.wf (Memory.store m a b) = true := Memory.wfFrom_store b h (Nat.zero_le a)

/-- Storing bytes keeps the canonical form. -/
theorem Memory.wf_storeBytes {m : Memory} (a : Nat) (l : List Nat) (h : Memory.wf m = true) :
    Memory.wf (Memory.storeBytes m a l) = true := by
  induction l generalizing m a with
  | nil => exact h
  | cons b l ih => exact ih _ (wf_store _ _ h)

/-- Storing a value keeps the canonical form. -/
theorem Memory.wf_storeValue {m : Memory} (a n v : Nat) (h : Memory.wf m = true) :
    Memory.wf (Memory.storeValue m a n v) = true := by
  induction n generalizing m a v with
  | zero => exact h
  | succ n ih => exact ih _ _ (wf_store _ _ h)

/-- Storing cells keeps the canonical form. -/
theorem Memory.wf_storeCells {m : Memory} (d : Int) (l : Memory) (h : Memory.wf m = true) :
    Memory.wf (Memory.storeCells m d l) = true := by
  induction l generalizing m with
  | nil => exact h
  | cons c l ih => exact ih (wf_store _ _ h)

/-- Cells kept by a test stay canonical. -/
theorem Memory.wfFrom_filter {m : Memory} {lo : Nat} (p : Host.Cell → Bool) (h : Memory.wfFrom lo m = true) :
    Memory.wfFrom lo (m.filter p) = true := by
  induction m generalizing lo with
  | nil => rfl
  | cons x m ih =>
    obtain ⟨k, v⟩ := x
    simp only [Memory.wfFrom, Bool.and_eq_true, decide_eq_true_eq] at h
    simp only [List.filter]
    split
    · simp only [Memory.wfFrom, Bool.and_eq_true, decide_eq_true_eq]
      exact ⟨h.1, ih h.2⟩
    · exact wfFrom_mono (ih h.2) (by omega)

/-- Erasing a range keeps the canonical form. -/
theorem Memory.wf_erase {m : Memory} (a n : Nat) (h : Memory.wf m = true) : Memory.wf (Memory.erase m a n) = true :=
  Memory.wfFrom_filter _ h

/-- A copy keeps the canonical form. -/
theorem Memory.wf_copy {m : Memory} (a b n : Nat) (h : Memory.wf m = true) : Memory.wf (Memory.copy m a b n) = true :=
  Memory.wf_storeCells _ _ (Memory.wf_erase _ _ h)

/-- Stored bytes leave every byte outside them alone. -/
theorem Memory.byte_storeBytes_out {m : Memory} {a x : Nat} (l : List Nat) (h : Memory.wf m = true)
    (hx : x < a ∨ a + l.length ≤ x) : Memory.byte (Memory.storeBytes m a l) x = Memory.byte m x := by
  induction l generalizing m a with
  | nil => rfl
  | cons b l ih =>
    simp only [List.length_cons] at hx
    show Memory.byte (Memory.storeBytes (Memory.store m a (BitVec.ofNat 8 b)) (a + 1) l) x = _
    rw [ih (wf_store _ _ h) (by omega), byte_store_ne _ h (by omega)]

/-- A key that a filter drops is found nowhere. -/
theorem SMap.find_keep_out (m : SMap) {p : Nat → Bool} {q : Nat} (h : p q = false) : (m.keep p).find q = none := by
  induction m with
  | nil => rfl
  | cons x m ih =>
    obtain ⟨k, v⟩ := x
    unfold SMap.keep at ih ⊢
    simp only [List.filter_cons]
    split
    · rename_i hk
      have hne : k ≠ q := by
        rintro rfl
        simp [h] at hk
      simp only [SMap.find, hne, if_false]
      split
      · rfl
      · exact ih
    · exact ih

/-- A key below all of a map is not in it. -/
theorem SMap.find_below {m : SMap} {b q : Nat} (h : SMap.above b m = true) (hq : q < b) : m.find q = none := by
  cases m with
  | nil => rfl
  | cons x m =>
    obtain ⟨k, v⟩ := x
    simp only [SMap.above, Bool.and_eq_true, decide_eq_true_eq] at h
    have h1 : ¬ k = q := by omega
    have h2 : q < k := by omega
    simp [SMap.find, h1, h2]

/-- A key that a filter keeps is found as before. -/
theorem SMap.find_keep_in {m : SMap} {b : Nat} {p : Nat → Bool} {q : Nat} (hm : SMap.above b m = true) (h : p q = true) :
    (m.keep p).find q = m.find q := by
  induction m generalizing b with
  | nil => rfl
  | cons x m ih =>
    obtain ⟨k, v⟩ := x
    simp only [SMap.above, Bool.and_eq_true, decide_eq_true_eq] at hm
    have ih := ih hm.2
    unfold SMap.keep at ih ⊢
    simp only [List.filter_cons]
    by_cases hkq : k = q
    · subst hkq
      simp [h, SMap.find]
    · by_cases hlt : q < k
      · have hnone : SMap.find m q = none := SMap.find_below (b := k + 1) hm.2 (by omega)
        split
        · simp [SMap.find, hkq, hlt]
        · rw [ih, hnone]
          simp [SMap.find, hkq, hlt]
      · split
        · simp [SMap.find, hkq, hlt, ih]
        · simp [SMap.find, hkq, hlt, ih]

/-- Putting a map over another leaves the keys that it does not hold. -/
theorem SMap.find_over_out (m r : SMap) {q : Nat} (h : ∀ x ∈ r, x.1 ≠ q) : (m.over r).find q = m.find q := by
  induction r generalizing m with
  | nil => rfl
  | cons x r ih =>
    obtain ⟨k, v⟩ := x
    rw [SMap.over, ih _ fun y hy => h y (List.mem_cons_of_mem _ hy)]
    exact SMap.find_put_ne _ _ (Ne.symm (h (k, v) (List.mem_cons_self)))

/-- Only the keys that a filter keeps are in what it leaves. -/
theorem SMap.mem_keep {m : SMap} {p : Nat → Bool} {x : Nat × Nat} (h : x ∈ m.keep p) : p x.1 = true := by
  simp only [SMap.keep, List.mem_filter] at h
  exact h.2

/-- Memory without a cell at an address reads there as its unlisted content. -/
theorem Memory.byte_unlisted {m : Memory} {a : Nat} (h : ∀ c ∈ m, c.1 ≠ a) : Memory.byte m a = Memory.unlisted a := by
  induction m with
  | nil => rfl
  | cons c m ih =>
    obtain ⟨k, v⟩ := c
    have hk : k ≠ a := h (k, v) (List.mem_cons_self)
    simp only [Memory.byte, hk, if_false]
    split
    · rfl
    · exact ih fun c hc => h c (List.mem_cons_of_mem _ hc)

end Sys2Proof.Machine
end

