-- ==== Sys2Proof/Laws/State.lean ====
section
/-! SUPPORT. Sys2Proof/Laws/State.lean: one lemma per field and update: what the named changes of State leave
alone, and what they set. -/

set_option Elab.async false

namespace Sys2Proof.Machine

/-- Only the event unit and the outputs differ. -/
def EvOnly (s u : State) : Prop := u = { s with ev := u.ev, out := u.out }

theorem EvOnly.refl (s : State) : EvOnly s s := rfl

theorem EvOnly.trans {s u v : State} (h : EvOnly s u) (k : EvOnly u v) : EvOnly s v := by
  unfold EvOnly at *
  rw [k, h]

theorem EvOnly.mark (s : State) (n : Nat) : EvOnly s (s.mark n) := rfl

theorem EvOnly.sendEmcy (s : State) (e : Emcy) : EvOnly s (s.sendEmcy e) := rfl

theorem EvOnly.emcyFor (s : State) (n : Nat) : EvOnly s (s.emcyFor n) := by
  unfold State.emcyFor
  dsimp only
  split
  · rfl
  · split
    · rfl
    · split <;> rfl

theorem EvOnly.emcyNext (s : State) : EvOnly s s.emcyNext := by
  unfold State.emcyNext
  split
  · rfl
  · split <;> rfl

theorem EvOnly.notifyFor (s : State) (n : Nat) : EvOnly s (s.notifyFor n).1 := rfl

theorem EvOnly.routeOne (s : State) (n : Nat) : EvOnly s (s.routeOne n).1 := by
  unfold State.routeOne
  split
  · rfl
  · dsimp only
    split
    · split
      · exact (EvOnly.emcyFor s n).trans (EvOnly.notifyFor _ n)
      · exact EvOnly.notifyFor s n
    · split
      · exact EvOnly.emcyFor s n
      · rfl

theorem EvOnly.overflow (s : State) (n : Nat) :
    EvOnly s (if (s.routeOne n).2 then (((s.routeOne n).1.mark 15).routeOne 15).1 else (s.routeOne n).1) := by
  split
  · exact ((EvOnly.routeOne s n).trans (EvOnly.mark _ 15)).trans (EvOnly.routeOne _ 15)
  · exact EvOnly.routeOne s n

theorem EvOnly.occur (s : State) (n : Nat) : EvOnly s (s.occur n) := by
  unfold State.occur
  split
  · rfl
  · split
    · split <;> rfl
    · dsimp only
      split
      · rfl
      · exact (EvOnly.mark s n).trans (EvOnly.overflow _ n)

theorem EvOnly.holdEvent (s : State) (n : Nat) : EvOnly s (s.holdEvent n) := by
  unfold State.holdEvent
  split <;> rfl

theorem EvOnly.foldl {α : Type} (f : State → α → State) (h : ∀ s x, EvOnly s (f s x)) (l : List α) (s : State) :
    EvOnly s (l.foldl f s) := by
  induction l generalizing s with
  | nil => rfl
  | cons x l ih => exact (h s x).trans (ih _)

theorem EvOnly.releaseHeld (s : State) : EvOnly s s.releaseHeld := by
  unfold State.releaseHeld
  dsimp only
  refine EvOnly.trans (EvOnly.foldl _ ?_ s.ev.held s) rfl
  intro st n
  split
  · rfl
  · exact EvOnly.mark st n

theorem EvOnly.routePending (s : State) : EvOnly s s.routePending := by
  unfold State.routePending
  refine EvOnly.foldl _ ?_ _ s
  intro st n
  split
  · exact EvOnly.overflow st n
  · rfl

/-- Only the sessions and the outputs differ. -/
def NetOnly (s u : State) : Prop := u = { s with net := { s.net with sessions := u.net.sessions }, out := u.out }

theorem NetOnly.trans {s u v : State} (h : NetOnly s u) (k : NetOnly u v) : NetOnly s v := by
  unfold NetOnly at *
  rw [k, h]

theorem NetOnly.notifySession (s : State) (i : Nat) : NetOnly s (s.notifySession i) := by
  unfold State.notifySession
  split
  · rfl
  · dsimp only
    split <;> rfl

theorem NetOnly.notifySend (s : State) : NetOnly s s.notifySend := by
  unfold State.notifySend
  generalize List.range 8 = l
  induction l generalizing s with
  | nil => rfl
  | cons i l ih => exact (NetOnly.notifySession s i).trans (ih _)

theorem EvOnly.pending {s u : State} (h : EvOnly s u) : u.pending = s.pending := by
  rw [show u = _ from h]
theorem EvOnly.part {s u : State} (h : EvOnly s u) : u.part = s.part := by
  rw [show u = _ from h]
theorem EvOnly.now {s u : State} (h : EvOnly s u) : u.now = s.now := by
  rw [show u = _ from h]
theorem EvOnly.free {s u : State} (h : EvOnly s u) : u.free = s.free := by
  rw [show u = _ from h]
theorem EvOnly.dict {s u : State} (h : EvOnly s u) : u.dict = s.dict := by
  rw [show u = _ from h]
theorem EvOnly.mem {s u : State} (h : EvOnly s u) : u.mem = s.mem := by
  rw [show u = _ from h]
theorem EvOnly.sys {s u : State} (h : EvOnly s u) : u.sys = s.sys := by
  rw [show u = _ from h]
theorem EvOnly.can {s u : State} (h : EvOnly s u) : u.can = s.can := by
  rw [show u = _ from h]
theorem EvOnly.pos {s u : State} (h : EvOnly s u) : u.pos = s.pos := by
  rw [show u = _ from h]
theorem EvOnly.codec {s u : State} (h : EvOnly s u) : u.codec = s.codec := by
  rw [show u = _ from h]
theorem EvOnly.comp {s u : State} (h : EvOnly s u) : u.comp = s.comp := by
  rw [show u = _ from h]
theorem EvOnly.tone {s u : State} (h : EvOnly s u) : u.tone = s.tone := by
  rw [show u = _ from h]
theorem EvOnly.fire {s u : State} (h : EvOnly s u) : u.fire = s.fire := by
  rw [show u = _ from h]
theorem EvOnly.link {s u : State} (h : EvOnly s u) : u.link = s.link := by
  rw [show u = _ from h]
theorem EvOnly.cam {s u : State} (h : EvOnly s u) : u.cam = s.cam := by
  rw [show u = _ from h]
theorem EvOnly.ill {s u : State} (h : EvOnly s u) : u.ill = s.ill := by
  rw [show u = _ from h]
theorem EvOnly.loop {s u : State} (h : EvOnly s u) : u.loop = s.loop := by
  rw [show u = _ from h]
theorem EvOnly.dram {s u : State} (h : EvOnly s u) : u.dram = s.dram := by
  rw [show u = _ from h]
theorem EvOnly.dma {s u : State} (h : EvOnly s u) : u.dma = s.dma := by
  rw [show u = _ from h]
theorem EvOnly.net {s u : State} (h : EvOnly s u) : u.net = s.net := by
  rw [show u = _ from h]
theorem EvOnly.time {s u : State} (h : EvOnly s u) : u.time = s.time := by
  rw [show u = _ from h]
theorem EvOnly.health {s u : State} (h : EvOnly s u) : u.health = s.health := by
  rw [show u = _ from h]
theorem EvOnly.bridle {s u : State} (h : EvOnly s u) : u.bridle = s.bridle := by
  rw [show u = _ from h]
theorem EvOnly.sec {s u : State} (h : EvOnly s u) : u.sec = s.sec := by
  rw [show u = _ from h]
theorem NetOnly.pending {s u : State} (h : NetOnly s u) : u.pending = s.pending := by
  rw [show u = _ from h]
theorem NetOnly.part {s u : State} (h : NetOnly s u) : u.part = s.part := by
  rw [show u = _ from h]
theorem NetOnly.now {s u : State} (h : NetOnly s u) : u.now = s.now := by
  rw [show u = _ from h]
theorem NetOnly.free {s u : State} (h : NetOnly s u) : u.free = s.free := by
  rw [show u = _ from h]
theorem NetOnly.dict {s u : State} (h : NetOnly s u) : u.dict = s.dict := by
  rw [show u = _ from h]
theorem NetOnly.mem {s u : State} (h : NetOnly s u) : u.mem = s.mem := by
  rw [show u = _ from h]
theorem NetOnly.sys {s u : State} (h : NetOnly s u) : u.sys = s.sys := by
  rw [show u = _ from h]
theorem NetOnly.can {s u : State} (h : NetOnly s u) : u.can = s.can := by
  rw [show u = _ from h]
theorem NetOnly.pos {s u : State} (h : NetOnly s u) : u.pos = s.pos := by
  rw [show u = _ from h]
theorem NetOnly.codec {s u : State} (h : NetOnly s u) : u.codec = s.codec := by
  rw [show u = _ from h]
theorem NetOnly.comp {s u : State} (h : NetOnly s u) : u.comp = s.comp := by
  rw [show u = _ from h]
theorem NetOnly.tone {s u : State} (h : NetOnly s u) : u.tone = s.tone := by
  rw [show u = _ from h]
theorem NetOnly.fire {s u : State} (h : NetOnly s u) : u.fire = s.fire := by
  rw [show u = _ from h]
theorem NetOnly.link {s u : State} (h : NetOnly s u) : u.link = s.link := by
  rw [show u = _ from h]
theorem NetOnly.cam {s u : State} (h : NetOnly s u) : u.cam = s.cam := by
  rw [show u = _ from h]
theorem NetOnly.ill {s u : State} (h : NetOnly s u) : u.ill = s.ill := by
  rw [show u = _ from h]
theorem NetOnly.loop {s u : State} (h : NetOnly s u) : u.loop = s.loop := by
  rw [show u = _ from h]
theorem NetOnly.dram {s u : State} (h : NetOnly s u) : u.dram = s.dram := by
  rw [show u = _ from h]
theorem NetOnly.dma {s u : State} (h : NetOnly s u) : u.dma = s.dma := by
  rw [show u = _ from h]
theorem NetOnly.time {s u : State} (h : NetOnly s u) : u.time = s.time := by
  rw [show u = _ from h]
theorem NetOnly.health {s u : State} (h : NetOnly s u) : u.health = s.health := by
  rw [show u = _ from h]
theorem NetOnly.bridle {s u : State} (h : NetOnly s u) : u.bridle = s.bridle := by
  rw [show u = _ from h]
theorem NetOnly.sec {s u : State} (h : NetOnly s u) : u.sec = s.sec := by
  rw [show u = _ from h]
theorem NetOnly.ev {s u : State} (h : NetOnly s u) : u.ev = s.ev := by
  rw [show u = _ from h]
theorem NetOnly.net_flows {s u : State} (h : NetOnly s u) : u.net.flows = s.net.flows := by
  rw [show u = _ from h]
theorem NetOnly.net_refetches {s u : State} (h : NetOnly s u) : u.net.refetches = s.net.refetches := by
  rw [show u = _ from h]
theorem NetOnly.net_challenges {s u : State} (h : NetOnly s u) : u.net.challenges = s.net.challenges := by
  rw [show u = _ from h]
@[simp] theorem State.occur_pending (s : State) (n : Nat) : (s.occur n).pending = s.pending :=
  (EvOnly.occur s n).pending
@[simp] theorem State.occur_part (s : State) (n : Nat) : (s.occur n).part = s.part :=
  (EvOnly.occur s n).part
@[simp] theorem State.occur_now (s : State) (n : Nat) : (s.occur n).now = s.now :=
  (EvOnly.occur s n).now
@[simp] theorem State.occur_free (s : State) (n : Nat) : (s.occur n).free = s.free :=
  (EvOnly.occur s n).free
@[simp] theorem State.occur_dict (s : State) (n : Nat) : (s.occur n).dict = s.dict :=
  (EvOnly.occur s n).dict
@[simp] theorem State.occur_mem (s : State) (n : Nat) : (s.occur n).mem = s.mem :=
  (EvOnly.occur s n).mem
@[simp] theorem State.occur_sys (s : State) (n : Nat) : (s.occur n).sys = s.sys :=
  (EvOnly.occur s n).sys
@[simp] theorem State.occur_can (s : State) (n : Nat) : (s.occur n).can = s.can :=
  (EvOnly.occur s n).can
@[simp] theorem State.occur_pos (s : State) (n : Nat) : (s.occur n).pos = s.pos :=
  (EvOnly.occur s n).pos
@[simp] theorem State.occur_codec (s : State) (n : Nat) : (s.occur n).codec = s.codec :=
  (EvOnly.occur s n).codec
@[simp] theorem State.occur_comp (s : State) (n : Nat) : (s.occur n).comp = s.comp :=
  (EvOnly.occur s n).comp
@[simp] theorem State.occur_tone (s : State) (n : Nat) : (s.occur n).tone = s.tone :=
  (EvOnly.occur s n).tone
@[simp] theorem State.occur_fire (s : State) (n : Nat) : (s.occur n).fire = s.fire :=
  (EvOnly.occur s n).fire
@[simp] theorem State.occur_link (s : State) (n : Nat) : (s.occur n).link = s.link :=
  (EvOnly.occur s n).link
@[simp] theorem State.occur_cam (s : State) (n : Nat) : (s.occur n).cam = s.cam :=
  (EvOnly.occur s n).cam
@[simp] theorem State.occur_ill (s : State) (n : Nat) : (s.occur n).ill = s.ill :=
  (EvOnly.occur s n).ill
@[simp] theorem State.occur_loop (s : State) (n : Nat) : (s.occur n).loop = s.loop :=
  (EvOnly.occur s n).loop
@[simp] theorem State.occur_dram (s : State) (n : Nat) : (s.occur n).dram = s.dram :=
  (EvOnly.occur s n).dram
@[simp] theorem State.occur_dma (s : State) (n : Nat) : (s.occur n).dma = s.dma :=
  (EvOnly.occur s n).dma
@[simp] theorem State.occur_net (s : State) (n : Nat) : (s.occur n).net = s.net :=
  (EvOnly.occur s n).net
@[simp] theorem State.occur_time (s : State) (n : Nat) : (s.occur n).time = s.time :=
  (EvOnly.occur s n).time
@[simp] theorem State.occur_health (s : State) (n : Nat) : (s.occur n).health = s.health :=
  (EvOnly.occur s n).health
@[simp] theorem State.occur_bridle (s : State) (n : Nat) : (s.occur n).bridle = s.bridle :=
  (EvOnly.occur s n).bridle
@[simp] theorem State.occur_sec (s : State) (n : Nat) : (s.occur n).sec = s.sec :=
  (EvOnly.occur s n).sec
@[simp] theorem State.holdEvent_pending (s : State) (n : Nat) : (s.holdEvent n).pending = s.pending :=
  (EvOnly.holdEvent s n).pending
@[simp] theorem State.holdEvent_part (s : State) (n : Nat) : (s.holdEvent n).part = s.part :=
  (EvOnly.holdEvent s n).part
@[simp] theorem State.holdEvent_now (s : State) (n : Nat) : (s.holdEvent n).now = s.now :=
  (EvOnly.holdEvent s n).now
@[simp] theorem State.holdEvent_free (s : State) (n : Nat) : (s.holdEvent n).free = s.free :=
  (EvOnly.holdEvent s n).free
@[simp] theorem State.holdEvent_dict (s : State) (n : Nat) : (s.holdEvent n).dict = s.dict :=
  (EvOnly.holdEvent s n).dict
@[simp] theorem State.holdEvent_mem (s : State) (n : Nat) : (s.holdEvent n).mem = s.mem :=
  (EvOnly.holdEvent s n).mem
@[simp] theorem State.holdEvent_sys (s : State) (n : Nat) : (s.holdEvent n).sys = s.sys :=
  (EvOnly.holdEvent s n).sys
@[simp] theorem State.holdEvent_can (s : State) (n : Nat) : (s.holdEvent n).can = s.can :=
  (EvOnly.holdEvent s n).can
@[simp] theorem State.holdEvent_pos (s : State) (n : Nat) : (s.holdEvent n).pos = s.pos :=
  (EvOnly.holdEvent s n).pos
@[simp] theorem State.holdEvent_codec (s : State) (n : Nat) : (s.holdEvent n).codec = s.codec :=
  (EvOnly.holdEvent s n).codec
@[simp] theorem State.holdEvent_comp (s : State) (n : Nat) : (s.holdEvent n).comp = s.comp :=
  (EvOnly.holdEvent s n).comp
@[simp] theorem State.holdEvent_tone (s : State) (n : Nat) : (s.holdEvent n).tone = s.tone :=
  (EvOnly.holdEvent s n).tone
@[simp] theorem State.holdEvent_fire (s : State) (n : Nat) : (s.holdEvent n).fire = s.fire :=
  (EvOnly.holdEvent s n).fire
@[simp] theorem State.holdEvent_link (s : State) (n : Nat) : (s.holdEvent n).link = s.link :=
  (EvOnly.holdEvent s n).link
@[simp] theorem State.holdEvent_cam (s : State) (n : Nat) : (s.holdEvent n).cam = s.cam :=
  (EvOnly.holdEvent s n).cam
@[simp] theorem State.holdEvent_ill (s : State) (n : Nat) : (s.holdEvent n).ill = s.ill :=
  (EvOnly.holdEvent s n).ill
@[simp] theorem State.holdEvent_loop (s : State) (n : Nat) : (s.holdEvent n).loop = s.loop :=
  (EvOnly.holdEvent s n).loop
@[simp] theorem State.holdEvent_dram (s : State) (n : Nat) : (s.holdEvent n).dram = s.dram :=
  (EvOnly.holdEvent s n).dram
@[simp] theorem State.holdEvent_dma (s : State) (n : Nat) : (s.holdEvent n).dma = s.dma :=
  (EvOnly.holdEvent s n).dma
@[simp] theorem State.holdEvent_net (s : State) (n : Nat) : (s.holdEvent n).net = s.net :=
  (EvOnly.holdEvent s n).net
@[simp] theorem State.holdEvent_time (s : State) (n : Nat) : (s.holdEvent n).time = s.time :=
  (EvOnly.holdEvent s n).time
@[simp] theorem State.holdEvent_health (s : State) (n : Nat) : (s.holdEvent n).health = s.health :=
  (EvOnly.holdEvent s n).health
@[simp] theorem State.holdEvent_bridle (s : State) (n : Nat) : (s.holdEvent n).bridle = s.bridle :=
  (EvOnly.holdEvent s n).bridle
@[simp] theorem State.holdEvent_sec (s : State) (n : Nat) : (s.holdEvent n).sec = s.sec :=
  (EvOnly.holdEvent s n).sec
@[simp] theorem State.releaseHeld_pending (s : State) : (s.releaseHeld).pending = s.pending :=
  (EvOnly.releaseHeld s).pending
@[simp] theorem State.releaseHeld_part (s : State) : (s.releaseHeld).part = s.part :=
  (EvOnly.releaseHeld s).part
@[simp] theorem State.releaseHeld_now (s : State) : (s.releaseHeld).now = s.now :=
  (EvOnly.releaseHeld s).now
@[simp] theorem State.releaseHeld_free (s : State) : (s.releaseHeld).free = s.free :=
  (EvOnly.releaseHeld s).free
@[simp] theorem State.releaseHeld_dict (s : State) : (s.releaseHeld).dict = s.dict :=
  (EvOnly.releaseHeld s).dict
@[simp] theorem State.releaseHeld_mem (s : State) : (s.releaseHeld).mem = s.mem :=
  (EvOnly.releaseHeld s).mem
@[simp] theorem State.releaseHeld_sys (s : State) : (s.releaseHeld).sys = s.sys :=
  (EvOnly.releaseHeld s).sys
@[simp] theorem State.releaseHeld_can (s : State) : (s.releaseHeld).can = s.can :=
  (EvOnly.releaseHeld s).can
@[simp] theorem State.releaseHeld_pos (s : State) : (s.releaseHeld).pos = s.pos :=
  (EvOnly.releaseHeld s).pos
@[simp] theorem State.releaseHeld_codec (s : State) : (s.releaseHeld).codec = s.codec :=
  (EvOnly.releaseHeld s).codec
@[simp] theorem State.releaseHeld_comp (s : State) : (s.releaseHeld).comp = s.comp :=
  (EvOnly.releaseHeld s).comp
@[simp] theorem State.releaseHeld_tone (s : State) : (s.releaseHeld).tone = s.tone :=
  (EvOnly.releaseHeld s).tone
@[simp] theorem State.releaseHeld_fire (s : State) : (s.releaseHeld).fire = s.fire :=
  (EvOnly.releaseHeld s).fire
@[simp] theorem State.releaseHeld_link (s : State) : (s.releaseHeld).link = s.link :=
  (EvOnly.releaseHeld s).link
@[simp] theorem State.releaseHeld_cam (s : State) : (s.releaseHeld).cam = s.cam :=
  (EvOnly.releaseHeld s).cam
@[simp] theorem State.releaseHeld_ill (s : State) : (s.releaseHeld).ill = s.ill :=
  (EvOnly.releaseHeld s).ill
@[simp] theorem State.releaseHeld_loop (s : State) : (s.releaseHeld).loop = s.loop :=
  (EvOnly.releaseHeld s).loop
@[simp] theorem State.releaseHeld_dram (s : State) : (s.releaseHeld).dram = s.dram :=
  (EvOnly.releaseHeld s).dram
@[simp] theorem State.releaseHeld_dma (s : State) : (s.releaseHeld).dma = s.dma :=
  (EvOnly.releaseHeld s).dma
@[simp] theorem State.releaseHeld_net (s : State) : (s.releaseHeld).net = s.net :=
  (EvOnly.releaseHeld s).net
@[simp] theorem State.releaseHeld_time (s : State) : (s.releaseHeld).time = s.time :=
  (EvOnly.releaseHeld s).time
@[simp] theorem State.releaseHeld_health (s : State) : (s.releaseHeld).health = s.health :=
  (EvOnly.releaseHeld s).health
@[simp] theorem State.releaseHeld_bridle (s : State) : (s.releaseHeld).bridle = s.bridle :=
  (EvOnly.releaseHeld s).bridle
@[simp] theorem State.releaseHeld_sec (s : State) : (s.releaseHeld).sec = s.sec :=
  (EvOnly.releaseHeld s).sec
@[simp] theorem State.routePending_pending (s : State) : (s.routePending).pending = s.pending :=
  (EvOnly.routePending s).pending
@[simp] theorem State.routePending_part (s : State) : (s.routePending).part = s.part :=
  (EvOnly.routePending s).part
@[simp] theorem State.routePending_now (s : State) : (s.routePending).now = s.now :=
  (EvOnly.routePending s).now
@[simp] theorem State.routePending_free (s : State) : (s.routePending).free = s.free :=
  (EvOnly.routePending s).free
@[simp] theorem State.routePending_dict (s : State) : (s.routePending).dict = s.dict :=
  (EvOnly.routePending s).dict
@[simp] theorem State.routePending_mem (s : State) : (s.routePending).mem = s.mem :=
  (EvOnly.routePending s).mem
@[simp] theorem State.routePending_sys (s : State) : (s.routePending).sys = s.sys :=
  (EvOnly.routePending s).sys
@[simp] theorem State.routePending_can (s : State) : (s.routePending).can = s.can :=
  (EvOnly.routePending s).can
@[simp] theorem State.routePending_pos (s : State) : (s.routePending).pos = s.pos :=
  (EvOnly.routePending s).pos
@[simp] theorem State.routePending_codec (s : State) : (s.routePending).codec = s.codec :=
  (EvOnly.routePending s).codec
@[simp] theorem State.routePending_comp (s : State) : (s.routePending).comp = s.comp :=
  (EvOnly.routePending s).comp
@[simp] theorem State.routePending_tone (s : State) : (s.routePending).tone = s.tone :=
  (EvOnly.routePending s).tone
@[simp] theorem State.routePending_fire (s : State) : (s.routePending).fire = s.fire :=
  (EvOnly.routePending s).fire
@[simp] theorem State.routePending_link (s : State) : (s.routePending).link = s.link :=
  (EvOnly.routePending s).link
@[simp] theorem State.routePending_cam (s : State) : (s.routePending).cam = s.cam :=
  (EvOnly.routePending s).cam
@[simp] theorem State.routePending_ill (s : State) : (s.routePending).ill = s.ill :=
  (EvOnly.routePending s).ill
@[simp] theorem State.routePending_loop (s : State) : (s.routePending).loop = s.loop :=
  (EvOnly.routePending s).loop
@[simp] theorem State.routePending_dram (s : State) : (s.routePending).dram = s.dram :=
  (EvOnly.routePending s).dram
@[simp] theorem State.routePending_dma (s : State) : (s.routePending).dma = s.dma :=
  (EvOnly.routePending s).dma
@[simp] theorem State.routePending_net (s : State) : (s.routePending).net = s.net :=
  (EvOnly.routePending s).net
@[simp] theorem State.routePending_time (s : State) : (s.routePending).time = s.time :=
  (EvOnly.routePending s).time
@[simp] theorem State.routePending_health (s : State) : (s.routePending).health = s.health :=
  (EvOnly.routePending s).health
@[simp] theorem State.routePending_bridle (s : State) : (s.routePending).bridle = s.bridle :=
  (EvOnly.routePending s).bridle
@[simp] theorem State.routePending_sec (s : State) : (s.routePending).sec = s.sec :=
  (EvOnly.routePending s).sec
@[simp] theorem State.emcyNext_pending (s : State) : (s.emcyNext).pending = s.pending :=
  (EvOnly.emcyNext s).pending
@[simp] theorem State.emcyNext_part (s : State) : (s.emcyNext).part = s.part :=
  (EvOnly.emcyNext s).part
@[simp] theorem State.emcyNext_now (s : State) : (s.emcyNext).now = s.now :=
  (EvOnly.emcyNext s).now
@[simp] theorem State.emcyNext_free (s : State) : (s.emcyNext).free = s.free :=
  (EvOnly.emcyNext s).free
@[simp] theorem State.emcyNext_dict (s : State) : (s.emcyNext).dict = s.dict :=
  (EvOnly.emcyNext s).dict
@[simp] theorem State.emcyNext_mem (s : State) : (s.emcyNext).mem = s.mem :=
  (EvOnly.emcyNext s).mem
@[simp] theorem State.emcyNext_sys (s : State) : (s.emcyNext).sys = s.sys :=
  (EvOnly.emcyNext s).sys
@[simp] theorem State.emcyNext_can (s : State) : (s.emcyNext).can = s.can :=
  (EvOnly.emcyNext s).can
@[simp] theorem State.emcyNext_pos (s : State) : (s.emcyNext).pos = s.pos :=
  (EvOnly.emcyNext s).pos
@[simp] theorem State.emcyNext_codec (s : State) : (s.emcyNext).codec = s.codec :=
  (EvOnly.emcyNext s).codec
@[simp] theorem State.emcyNext_comp (s : State) : (s.emcyNext).comp = s.comp :=
  (EvOnly.emcyNext s).comp
@[simp] theorem State.emcyNext_tone (s : State) : (s.emcyNext).tone = s.tone :=
  (EvOnly.emcyNext s).tone
@[simp] theorem State.emcyNext_fire (s : State) : (s.emcyNext).fire = s.fire :=
  (EvOnly.emcyNext s).fire
@[simp] theorem State.emcyNext_link (s : State) : (s.emcyNext).link = s.link :=
  (EvOnly.emcyNext s).link
@[simp] theorem State.emcyNext_cam (s : State) : (s.emcyNext).cam = s.cam :=
  (EvOnly.emcyNext s).cam
@[simp] theorem State.emcyNext_ill (s : State) : (s.emcyNext).ill = s.ill :=
  (EvOnly.emcyNext s).ill
@[simp] theorem State.emcyNext_loop (s : State) : (s.emcyNext).loop = s.loop :=
  (EvOnly.emcyNext s).loop
@[simp] theorem State.emcyNext_dram (s : State) : (s.emcyNext).dram = s.dram :=
  (EvOnly.emcyNext s).dram
@[simp] theorem State.emcyNext_dma (s : State) : (s.emcyNext).dma = s.dma :=
  (EvOnly.emcyNext s).dma
@[simp] theorem State.emcyNext_net (s : State) : (s.emcyNext).net = s.net :=
  (EvOnly.emcyNext s).net
@[simp] theorem State.emcyNext_time (s : State) : (s.emcyNext).time = s.time :=
  (EvOnly.emcyNext s).time
@[simp] theorem State.emcyNext_health (s : State) : (s.emcyNext).health = s.health :=
  (EvOnly.emcyNext s).health
@[simp] theorem State.emcyNext_bridle (s : State) : (s.emcyNext).bridle = s.bridle :=
  (EvOnly.emcyNext s).bridle
@[simp] theorem State.emcyNext_sec (s : State) : (s.emcyNext).sec = s.sec :=
  (EvOnly.emcyNext s).sec
@[simp] theorem State.notifySend_pending (s : State) : s.notifySend.pending = s.pending :=
  (NetOnly.notifySend s).pending
@[simp] theorem State.notifySend_part (s : State) : s.notifySend.part = s.part :=
  (NetOnly.notifySend s).part
@[simp] theorem State.notifySend_now (s : State) : s.notifySend.now = s.now :=
  (NetOnly.notifySend s).now
@[simp] theorem State.notifySend_free (s : State) : s.notifySend.free = s.free :=
  (NetOnly.notifySend s).free
@[simp] theorem State.notifySend_dict (s : State) : s.notifySend.dict = s.dict :=
  (NetOnly.notifySend s).dict
@[simp] theorem State.notifySend_mem (s : State) : s.notifySend.mem = s.mem :=
  (NetOnly.notifySend s).mem
@[simp] theorem State.notifySend_sys (s : State) : s.notifySend.sys = s.sys :=
  (NetOnly.notifySend s).sys
@[simp] theorem State.notifySend_can (s : State) : s.notifySend.can = s.can :=
  (NetOnly.notifySend s).can
@[simp] theorem State.notifySend_pos (s : State) : s.notifySend.pos = s.pos :=
  (NetOnly.notifySend s).pos
@[simp] theorem State.notifySend_codec (s : State) : s.notifySend.codec = s.codec :=
  (NetOnly.notifySend s).codec
@[simp] theorem State.notifySend_comp (s : State) : s.notifySend.comp = s.comp :=
  (NetOnly.notifySend s).comp
@[simp] theorem State.notifySend_tone (s : State) : s.notifySend.tone = s.tone :=
  (NetOnly.notifySend s).tone
@[simp] theorem State.notifySend_fire (s : State) : s.notifySend.fire = s.fire :=
  (NetOnly.notifySend s).fire
@[simp] theorem State.notifySend_link (s : State) : s.notifySend.link = s.link :=
  (NetOnly.notifySend s).link
@[simp] theorem State.notifySend_cam (s : State) : s.notifySend.cam = s.cam :=
  (NetOnly.notifySend s).cam
@[simp] theorem State.notifySend_ill (s : State) : s.notifySend.ill = s.ill :=
  (NetOnly.notifySend s).ill
@[simp] theorem State.notifySend_loop (s : State) : s.notifySend.loop = s.loop :=
  (NetOnly.notifySend s).loop
@[simp] theorem State.notifySend_dram (s : State) : s.notifySend.dram = s.dram :=
  (NetOnly.notifySend s).dram
@[simp] theorem State.notifySend_dma (s : State) : s.notifySend.dma = s.dma :=
  (NetOnly.notifySend s).dma
@[simp] theorem State.notifySend_time (s : State) : s.notifySend.time = s.time :=
  (NetOnly.notifySend s).time
@[simp] theorem State.notifySend_health (s : State) : s.notifySend.health = s.health :=
  (NetOnly.notifySend s).health
@[simp] theorem State.notifySend_bridle (s : State) : s.notifySend.bridle = s.bridle :=
  (NetOnly.notifySend s).bridle
@[simp] theorem State.notifySend_sec (s : State) : s.notifySend.sec = s.sec :=
  (NetOnly.notifySend s).sec
@[simp] theorem State.notifySend_ev (s : State) : s.notifySend.ev = s.ev :=
  (NetOnly.notifySend s).ev
@[simp] theorem State.notifySend_flows (s : State) : s.notifySend.net.flows = s.net.flows :=
  (NetOnly.notifySend s).net_flows
@[simp] theorem State.notifySend_refetches (s : State) : s.notifySend.net.refetches = s.net.refetches :=
  (NetOnly.notifySend s).net_refetches
@[simp] theorem State.notifySend_challenges (s : State) : s.notifySend.net.challenges = s.net.challenges :=
  (NetOnly.notifySend s).net_challenges

/-- A register reads the same where the registers and the part are the same. -/
theorem State.reg_congr {s u : State} (hd : u.dict = s.dict) (hp : u.part = s.part) (k : Nat) : u.reg k = s.reg k := by
  unfold State.reg
  rw [hd, hp]

@[simp] theorem State.occur_reg (s : State) (n : Nat) (k : Nat) : (s.occur n).reg k = s.reg k :=
  State.reg_congr (s.occur_dict n) (s.occur_part n) k
@[simp] theorem State.holdEvent_reg (s : State) (n : Nat) (k : Nat) : (s.holdEvent n).reg k = s.reg k :=
  State.reg_congr (s.holdEvent_dict n) (s.holdEvent_part n) k
@[simp] theorem State.releaseHeld_reg (s : State) (k : Nat) : (s.releaseHeld).reg k = s.reg k :=
  State.reg_congr (s.releaseHeld_dict) (s.releaseHeld_part) k
@[simp] theorem State.routePending_reg (s : State) (k : Nat) : (s.routePending).reg k = s.reg k :=
  State.reg_congr (s.routePending_dict) (s.routePending_part) k
@[simp] theorem State.emcyNext_reg (s : State) (k : Nat) : (s.emcyNext).reg k = s.reg k :=
  State.reg_congr (s.emcyNext_dict) (s.emcyNext_part) k
@[simp] theorem State.notifySend_reg (s : State) (k : Nat) : s.notifySend.reg k = s.reg k :=
  State.reg_congr s.notifySend_dict s.notifySend_part k

/-- A register just put reads as put. -/
@[simp] theorem State.reg_set_same (s : State) (k v : Nat) :
    ({ s with dict := SMap.put s.dict k v } : State).reg k = v := by
  simp [State.reg]

/-- Another register reads as before. -/
theorem State.reg_set_ne (s : State) {k q : Nat} (v : Nat) (h : q ≠ k) :
    ({ s with dict := SMap.put s.dict k v } : State).reg q = s.reg q := by
  simp [State.reg, SMap.find_put_ne _ _ h]

end Sys2Proof.Machine
end

