-- ==== Sys2Proof/Laws/Act.lean ====
section
/-! SUPPORT. Sys2Proof/Laws/Act.lean: how a tree of changes runs, what every command is, and how a fact that every
primitive keeps is kept by every command. -/

set_option Elab.async false

namespace Sys2Proof.Machine

@[simp] theorem Act.run_skip (s : State) : Act.skip.run s = s := rfl

@[simp] theorem Act.run_prim (p : Prim) (s : State) : (Act.prim p).run s = p.apply s := rfl

@[simp] theorem Act.run_seq (a b : Act) (s : State) : (Act.seq a b).run s = b.run (a.run s) := rfl

@[simp] theorem Act.run_read (f : State → Act) (s : State) : (Act.read f).run s = (f s).run s := rfl

@[simp] theorem run_seqs_nil (s : State) : (seqs []).run s = s := rfl

@[simp] theorem run_seqs_cons (a : Act) (l : List Act) (s : State) : (seqs (a :: l)).run s = (seqs l).run (a.run s) := rfl

@[simp] theorem run_when (b : Bool) (a : Act) (s : State) : (when b a).run s = if b then a.run s else s := by
  cases b <;> rfl

@[simp] theorem run_put (k v : Nat) (s : State) : (put k v).run s = { s with dict := SMap.put s.dict k v } := rfl

@[simp] theorem run_raise (n : Nat) (s : State) : (raise n).run s = s.occur n := rfl

@[simp] theorem run_send (o : Out) (s : State) : (send o).run s = { s with out := s.out ++ [o] } := rfl

@[simp] theorem run_each_nil {α : Type} (f : α → Act) (s : State) : (each [] f).run s = s := rfl

@[simp] theorem run_each_cons {α : Type} (x : α) (l : List α) (f : α → Act) (s : State) :
    (each (x :: l) f).run s = (each l f).run ((f x).run s) := rfl

/-- What every primitive keeps of a state, every tree of changes keeps. -/
theorem Act.run_keeps (P : State → Prop) (h : ∀ (p : Prim) s, P s → P (p.apply s)) (a : Act) (s : State) (hs : P s) :
    P (a.run s) := by
  induction a generalizing s with
  | skip => exact hs
  | prim p => exact h p s hs
  | seq a b iha ihb => exact ihb _ (iha _ hs)
  | read f ih => exact ih s s hs

/-- A command's meaning runs a tree of changes after time has moved to its instant, then sends notifications. -/
theorem perform_eq (t : Nat) (a : Act) (s : State) :
    perform t a s = .next (a.run { s with now := max s.now t, out := [] }).notifySend := rfl

/-- Every command is a tree of changes. -/
theorem exec_is_act (c : Instr) (s : State) : ∃ a : Act, exec c s = .next (a.run s) := by
  cases c <;> exact ⟨_, rfl⟩

/-- Every primitive of the tree, in whatever state it is decided, is of a kind. -/
def Act.All (P : Prim → Prop) : Act → Prop
  | .skip => True
  | .prim p => P p
  | .seq a b => a.All P ∧ b.All P
  | .read f => ∀ s, (f s).All P

@[simp] theorem Act.all_skip (P : Prim → Prop) : Act.skip.All P := trivial

@[simp] theorem Act.all_prim (P : Prim → Prop) (p : Prim) : (Act.prim p).All P ↔ P p := Iff.rfl

@[simp] theorem Act.all_seq (P : Prim → Prop) (a b : Act) : (Act.seq a b).All P ↔ a.All P ∧ b.All P := Iff.rfl

@[simp] theorem Act.all_read (P : Prim → Prop) (f : State → Act) : (Act.read f).All P ↔ ∀ s, (f s).All P := Iff.rfl

@[simp] theorem all_seqs_nil (P : Prim → Prop) : (seqs []).All P := trivial

@[simp] theorem all_seqs_cons (P : Prim → Prop) (a : Act) (l : List Act) :
    (seqs (a :: l)).All P ↔ a.All P ∧ (seqs l).All P := Iff.rfl

@[simp] theorem all_put (P : Prim → Prop) (k v : Nat) : (put k v).All P ↔ P (.set k v) := Iff.rfl

@[simp] theorem all_raise (P : Prim → Prop) (n : Nat) : (raise n).All P ↔ P (.occur n) := Iff.rfl

@[simp] theorem all_send (P : Prim → Prop) (o : Out) : (send o).All P ↔ P (.out o) := Iff.rfl

theorem all_when {P : Prim → Prop} {b : Bool} {a : Act} (h : b = true → a.All P) : (when b a).All P := by
  cases b
  · trivial
  · exact h rfl

theorem all_each {α : Type} {P : Prim → Prop} {l : List α} {f : α → Act} (h : ∀ x ∈ l, (f x).All P) :
    (each l f).All P := by
  induction l with
  | nil => trivial
  | cons x l ih => exact ⟨h x (List.mem_cons_self), ih fun y hy => h y (List.mem_cons_of_mem _ hy)⟩

/-- What every primitive of a kind leaves alone, a tree of that kind leaves alone. -/
theorem Act.All.keeps {α : Type} {P : Prim → Prop} {a : Act} (g : State → α)
    (hp : ∀ p s, P p → g (p.apply s) = g s) (h : a.All P) (s : State) : g (a.run s) = g s := by
  induction a generalizing s with
  | skip => rfl
  | prim p => exact hp p s h
  | seq a b iha ihb => exact (ihb h.2 _).trans (iha h.1 s)
  | read f ih => exact ih s (h s) s

theorem Act.All.mono {P Q : Prim → Prop} {a : Act} (h : a.All P) (hpq : ∀ p, P p → Q p) : a.All Q := by
  induction a with
  | skip => trivial
  | prim p => exact hpq p h
  | seq a b iha ihb => exact ⟨iha h.1, ihb h.2⟩
  | read f ih => exact fun s => ih s (h s)

/-- The primitive sets, drops or loads a key. -/
def Prim.sets (q : Nat) : Prim → Prop
  | .set k _ => k = q
  | .unset keep => keep q = false
  | .load m => ∃ x ∈ m, x.1 = q
  | _ => False

/-- The pieces of State that a primitive may change. -/
def Prim.touches : Prim → List Piece
  | .set _ _ => [.dict]
  | .unset _ => [.dict]
  | .load _ => [.dict]
  | .occur _ => [.ev]
  | .held _ => [.ev]
  | .release => [.ev]
  | .route => [.ev]
  | .emcyNext => [.ev]
  | .evClear _ => [.ev]
  | .evMask _ => [.ev]
  | .evRoute _ _ => [.ev]
  | .evCount _ _ => [.ev]
  | .evHistory => [.ev]
  | .evReset => [.ev]
  | .notifyOn _ _ => [.ev]
  | .notifyDrop _ _ => [.ev]
  | .store _ _ _ => [.mem]
  | .storeBytes _ _ => [.mem]
  | .copy _ _ _ => [.mem]
  | .erase _ _ => [.mem]
  | .sys _ => [.sys]
  | .can _ => [.can]
  | .pos _ => [.pos]
  | .codec _ => [.codec]
  | .comp _ => [.comp]
  | .tone _ => [.tone]
  | .fire _ => [.fire]
  | .link _ => [.link]
  | .cam _ => [.cam]
  | .ill _ => [.ill]
  | .loop _ => [.loop]
  | .dram _ => [.dram]
  | .dma _ => [.dma]
  | .net _ => [.net]
  | .time _ => [.time]
  | .health _ => [.health]
  | .bridle _ => [.bridle]
  | .sec _ => [.sec]
  | .begin _ => []
  | .notifySend => []
  | .out _ => []
  | .fresh => []

theorem Piece.same_refl (p : Piece) (s : State) : p.same s s := by
  cases p <;> simp [Piece.same]

theorem Piece.same_trans {p : Piece} {s u v : State} (h : p.same s u) (k : p.same u v) : p.same s v := by
  cases p <;> simp_all [Piece.same]

/-- A state that differs in one piece only. -/
theorem only_one {s u : State} (q : Piece) (h : ∀ p, p ≠ q → p.same s u) : s.only [q] u :=
  fun p hp => h p fun e => hp (List.mem_singleton.mpr e)

theorem only_of_evOnly {s u : State} (h : EvOnly s u) : s.only [.ev] u :=
  only_one .ev fun p hp => by
    cases p
    case ev => exact absurd rfl hp
    case mem => exact h.mem
    case dict => exact h.dict
    case sys => exact h.sys
    case can => exact h.can
    case pos => exact h.pos
    case codec => exact h.codec
    case comp => exact h.comp
    case tone => exact h.tone
    case fire => exact h.fire
    case link => exact h.link
    case cam => exact h.cam
    case ill => exact h.ill
    case loop => exact h.loop
    case dram => exact h.dram
    case dma => exact h.dma
    case net => exact ⟨by rw [h.net], by rw [h.net], by rw [h.net]⟩
    case time => exact h.time
    case health => exact h.health
    case bridle => exact h.bridle
    case sec => exact h.sec

theorem only_of_netOnly {s u : State} (h : NetOnly s u) : s.only [] u := fun p _ => by
  cases p
  case mem => exact h.mem
  case dict => exact h.dict
  case ev => exact h.ev
  case sys => exact h.sys
  case can => exact h.can
  case pos => exact h.pos
  case codec => exact h.codec
  case comp => exact h.comp
  case tone => exact h.tone
  case fire => exact h.fire
  case link => exact h.link
  case cam => exact h.cam
  case ill => exact h.ill
  case loop => exact h.loop
  case dram => exact h.dram
  case dma => exact h.dma
  case net => exact ⟨h.net_flows, h.net_refetches, h.net_challenges⟩
  case time => exact h.time
  case health => exact h.health
  case bridle => exact h.bridle
  case sec => exact h.sec

theorem only_mem (s : State) (m : Memory) : s.only [.mem] { s with mem := m } :=
  only_one .mem fun p hp => by
    cases p <;> first | exact absurd rfl hp | exact ⟨rfl, rfl, rfl⟩ | exact rfl

theorem only_dict (s : State) (m : SMap) : s.only [.dict] { s with dict := m } :=
  only_one .dict fun p hp => by
    cases p <;> first | exact absurd rfl hp | exact ⟨rfl, rfl, rfl⟩ | exact rfl

theorem only_ev (s : State) (e : Ev) : s.only [.ev] { s with ev := e } :=
  only_one .ev fun p hp => by
    cases p <;> first | exact absurd rfl hp | exact ⟨rfl, rfl, rfl⟩ | exact rfl

theorem only_out (s : State) (o : List Out) : s.only [] { s with out := o } := fun p _ => by
  cases p <;> first | exact ⟨rfl, rfl, rfl⟩ | exact rfl

theorem only_free (s : State) (n : Nat) : s.only [] { s with free := n } := fun p _ => by
  cases p <;> first | exact ⟨rfl, rfl, rfl⟩ | exact rfl

theorem only_begun (s : State) (n : Nat) (o : List Out) : s.only [] { s with now := n, out := o } := fun p _ => by
  cases p <;> first | exact ⟨rfl, rfl, rfl⟩ | exact rfl

theorem only_sys (s : State) (x : Sys) : s.only [.sys] { s with sys := x } :=
  only_one .sys fun p hp => by
    cases p <;> first | exact absurd rfl hp | exact ⟨rfl, rfl, rfl⟩ | exact rfl

theorem only_can (s : State) (x : CanSt) : s.only [.can] { s with can := x } :=
  only_one .can fun p hp => by
    cases p <;> first | exact absurd rfl hp | exact ⟨rfl, rfl, rfl⟩ | exact rfl

theorem only_pos (s : State) (x : Pos) : s.only [.pos] { s with pos := x } :=
  only_one .pos fun p hp => by
    cases p <;> first | exact absurd rfl hp | exact ⟨rfl, rfl, rfl⟩ | exact rfl

theorem only_codec (s : State) (x : Codec) : s.only [.codec] { s with codec := x } :=
  only_one .codec fun p hp => by
    cases p <;> first | exact absurd rfl hp | exact ⟨rfl, rfl, rfl⟩ | exact rfl

theorem only_comp (s : State) (x : Comp) : s.only [.comp] { s with comp := x } :=
  only_one .comp fun p hp => by
    cases p <;> first | exact absurd rfl hp | exact ⟨rfl, rfl, rfl⟩ | exact rfl

theorem only_tone (s : State) (x : Tone) : s.only [.tone] { s with tone := x } :=
  only_one .tone fun p hp => by
    cases p <;> first | exact absurd rfl hp | exact ⟨rfl, rfl, rfl⟩ | exact rfl

theorem only_fire (s : State) (x : Fire) : s.only [.fire] { s with fire := x } :=
  only_one .fire fun p hp => by
    cases p <;> first | exact absurd rfl hp | exact ⟨rfl, rfl, rfl⟩ | exact rfl

theorem only_link (s : State) (x : Links) : s.only [.link] { s with link := x } :=
  only_one .link fun p hp => by
    cases p <;> first | exact absurd rfl hp | exact ⟨rfl, rfl, rfl⟩ | exact rfl

theorem only_cam (s : State) (x : Cam) : s.only [.cam] { s with cam := x } :=
  only_one .cam fun p hp => by
    cases p <;> first | exact absurd rfl hp | exact ⟨rfl, rfl, rfl⟩ | exact rfl

theorem only_ill (s : State) (x : Illum) : s.only [.ill] { s with ill := x } :=
  only_one .ill fun p hp => by
    cases p <;> first | exact absurd rfl hp | exact ⟨rfl, rfl, rfl⟩ | exact rfl

theorem only_loop (s : State) (x : Loop) : s.only [.loop] { s with loop := x } :=
  only_one .loop fun p hp => by
    cases p <;> first | exact absurd rfl hp | exact ⟨rfl, rfl, rfl⟩ | exact rfl

theorem only_dram (s : State) (x : Dram) : s.only [.dram] { s with dram := x } :=
  only_one .dram fun p hp => by
    cases p <;> first | exact absurd rfl hp | exact ⟨rfl, rfl, rfl⟩ | exact rfl

theorem only_dma (s : State) (x : Dma) : s.only [.dma] { s with dma := x } :=
  only_one .dma fun p hp => by
    cases p <;> first | exact absurd rfl hp | exact ⟨rfl, rfl, rfl⟩ | exact rfl

theorem only_net (s : State) (x : Net) : s.only [.net] { s with net := x } :=
  only_one .net fun p hp => by
    cases p <;> first | exact absurd rfl hp | exact ⟨rfl, rfl, rfl⟩ | exact rfl

theorem only_time (s : State) (x : TimeSt) : s.only [.time] { s with time := x } :=
  only_one .time fun p hp => by
    cases p <;> first | exact absurd rfl hp | exact ⟨rfl, rfl, rfl⟩ | exact rfl

theorem only_health (s : State) (x : Health) : s.only [.health] { s with health := x } :=
  only_one .health fun p hp => by
    cases p <;> first | exact absurd rfl hp | exact ⟨rfl, rfl, rfl⟩ | exact rfl

theorem only_bridle (s : State) (x : Bridle) : s.only [.bridle] { s with bridle := x } :=
  only_one .bridle fun p hp => by
    cases p <;> first | exact absurd rfl hp | exact ⟨rfl, rfl, rfl⟩ | exact rfl

theorem only_sec (s : State) (x : Sec) : s.only [.sec] { s with sec := x } :=
  only_one .sec fun p hp => by
    cases p <;> first | exact absurd rfl hp | exact ⟨rfl, rfl, rfl⟩ | exact rfl

/-- A primitive changes only what it touches. -/
theorem Prim.only_touches (p : Prim) (s : State) : s.only p.touches (p.apply s) := by
  cases p
  case begin t => exact only_begun s _ _
  case set k v => exact only_dict s _
  case unset keep => exact only_dict s _
  case load m => exact only_dict s _
  case occur n => exact only_of_evOnly (EvOnly.occur s n)
  case held n => exact only_of_evOnly (EvOnly.holdEvent s n)
  case release => exact only_of_evOnly (EvOnly.releaseHeld s)
  case route => exact only_of_evOnly (EvOnly.routePending s)
  case emcyNext => exact only_of_evOnly (EvOnly.emcyNext s)
  case notifySend => exact only_of_netOnly (NetOnly.notifySend s)
  case store a n v => exact only_mem s _
  case storeBytes a l => exact only_mem s _
  case copy a b n => exact only_mem s _
  case erase a n => exact only_mem s _
  case out o => exact only_out s _
  case fresh => exact only_free s _
  case sys f => exact only_sys s _
  case can f => exact only_can s _
  case pos f => exact only_pos s _
  case codec f => exact only_codec s _
  case comp f => exact only_comp s _
  case tone f => exact only_tone s _
  case fire f => exact only_fire s _
  case link f => exact only_link s _
  case cam f => exact only_cam s _
  case ill f => exact only_ill s _
  case loop f => exact only_loop s _
  case dram f => exact only_dram s _
  case dma f => exact only_dma s _
  case net f => exact only_net s _
  case time f => exact only_time s _
  case health f => exact only_health s _
  case bridle f => exact only_bridle s _
  case sec f => exact only_sec s _
  all_goals exact only_ev s _

@[simp] theorem Prim.apply_part (p : Prim) (s : State) : (p.apply s).part = s.part := by
  cases p <;> simp [Prim.apply]

/-- A primitive that does not set a key leaves its register, and keeps the registers' form. -/
theorem Prim.reg_of_not_sets {p : Prim} {q : Nat} (h : ¬ p.sets q) {s : State} (hs : SMap.wf s.dict = true) :
    (p.apply s).reg q = s.reg q ∧ SMap.wf (p.apply s).dict = true := by
  by_cases hd : Piece.dict ∈ p.touches
  · cases p <;> simp [Prim.touches] at hd
    case set k v => exact ⟨State.reg_set_ne s v fun e => h e.symm, SMap.wf_put hs⟩
    case unset keep =>
      have hk : keep q = true := Bool.of_not_eq_false h
      exact ⟨by simp [Prim.apply, State.reg, SMap.find_keep_in (b := 0) hs hk], SMap.wf_keep keep hs⟩
    case load m =>
      have : SMap.find (SMap.over s.dict m) q = SMap.find s.dict q :=
        SMap.find_over_out s.dict m fun x hx e => h ⟨x, hx, e⟩
      exact ⟨by simp [Prim.apply, State.reg, this], SMap.wf_over m hs⟩
  · have hk : (p.apply s).dict = s.dict := Prim.only_touches p s .dict hd
    exact ⟨State.reg_congr hk (Prim.apply_part p s) q, hk ▸ hs⟩

/-- A tree that never sets a key leaves the register as it was, in a state whose registers are in canonical form. -/
theorem Act.All.reg {a : Act} {q : Nat} (h : a.All fun p => ¬ p.sets q) (s : State) (hs : SMap.wf s.dict = true) :
    (a.run s).reg q = s.reg q := by
  have key : ∀ s : State, SMap.wf s.dict = true →
      (a.run s).reg q = s.reg q ∧ SMap.wf (a.run s).dict = true := by
    induction a with
    | skip => exact fun s hs => ⟨rfl, hs⟩
    | prim p => exact fun s hs => Prim.reg_of_not_sets h hs
    | seq a b iha ihb =>
      intro s hs
      obtain ⟨h1, h2⟩ := iha h.1 s hs
      obtain ⟨h3, h4⟩ := ihb h.2 _ h2
      exact ⟨h3.trans h1, h4⟩
    | read f ih => exact fun s hs => ih s (h s) s hs
  exact (key s hs).1

/-- A tree whose primitives touch only listed pieces changes only those. -/
theorem Act.All.only {a : Act} {l : List Piece} (h : a.All fun p => ∀ q ∈ p.touches, q ∈ l) (s : State) :
    s.only l (a.run s) := by
  intro q hq
  induction a generalizing s with
  | skip => exact q.same_refl s
  | prim p => exact Prim.only_touches p s q fun hm => hq (h q hm)
  | seq a b iha ihb => exact Piece.same_trans (iha h.1 s) (ihb h.2 _)
  | read f ih => exact ih s (h s) s

end Sys2Proof.Machine
end

