-- ==== Sys2Proof/Laws/Ops.lean ====
section
/-! SUPPORT. Sys2Proof/Laws/Ops.lean: what each shared operation can do, said once. -/

set_option Elab.async false

namespace Sys2Proof.Machine

@[simp] theorem State.begun_reg (s : State) (t k : Nat) : (s.begun t).reg k = s.reg k := rfl
@[simp] theorem State.begun_dict (s : State) (t : Nat) : (s.begun t).dict = s.dict := rfl
@[simp] theorem State.begun_part (s : State) (t : Nat) : (s.begun t).part = s.part := rfl
@[simp] theorem State.begun_mem (s : State) (t : Nat) : (s.begun t).mem = s.mem := rfl
@[simp] theorem State.begun_ev (s : State) (t : Nat) : (s.begun t).ev = s.ev := rfl
@[simp] theorem State.begun_out (s : State) (t : Nat) : (s.begun t).out = [] := rfl
@[simp] theorem State.begun_now (s : State) (t : Nat) : (s.begun t).now = max s.now t := rfl

/-- A command whose meaning is a tree of changes leaves the state that the tree and the notifications leave. -/
theorem completes_of {c : Instr} {t : Nat} {a : Act} {pre : State → Prop} {post : State → State → Prop}
    (hc : ∀ s, exec c s = perform t a s) (h : ∀ b, b.out = [] → pre b → post b (a.run b).notifySend) :
    Completes c t pre post := fun s hp => ⟨_, hc s, h _ rfl hp⟩

/-- A counter of `bytes` bytes takes its next value. -/
@[simp] theorem run_addTo (k bytes n : Nat) (s : State) :
    (addTo k bytes n).run s = { s with dict := SMap.put s.dict k ((s.reg k + n) % 2 ^ (8 * bytes)) } := rfl

/-- A free value is the next of the sequence, and is not drawn again. -/
@[simp] theorem run_drawFree (f : Nat → Act) (s : State) :
    (drawFree f).run s = (f (Config.freeValue s.free)).run { s with free := s.free + 1 } := rfl

/-- What a write does: the judge's verdict is enacted, then answered. -/
theorem run_writeBy (idx sub : Nat) (eff : Effect) (w : Wr) (s : State) :
    (writeBy idx sub eff w).run s
      = (answer w.path (judge idx sub eff s w).code).run ((enact w.path (judge idx sub eff s w)).run s) := rfl

/-- A write that the dictionary admits is its owner's to judge. -/
theorem judge_of {idx sub : Nat} {s : State} {w : Wr} {e : Entry} (eff : Effect) (he : s.entry idx sub = some e)
    (hc : checkWrite s idx sub w = 0) : judge idx sub eff s w = eff s { w with val := valueOf e.ty w } := by
  simp [judge, he, hc]

/-- A write that the dictionary admits with a value is its owner's to judge on that value. -/
theorem judge_takes {idx sub : Nat} {s : State} {w : Wr} {v : Nat} (eff : Effect) (h : s.takes idx sub w v) :
    judge idx sub eff s w = eff s { w with val := v } := by
  obtain ⟨e, he, hc, rfl⟩ := h
  exact judge_of eff he hc

/-- A write that the dictionary refuses has the dictionary's code, and no owner acts. -/
theorem judge_refused {idx sub : Nat} {s : State} {w : Wr} (eff : Effect) (hc : checkWrite s idx sub w ≠ 0) :
    judge idx sub eff s w = refuse (checkWrite s idx sub w) := by
  unfold judge
  split
  · rfl
  · simp [hc]

/-- An accepted write makes its owner's changes and is answered. -/
theorem run_writeBy_accepted {idx sub : Nat} {s : State} {w : Wr} {e : Entry} {eff : Effect} {a : Act}
    (he : s.entry idx sub = some e) (hc : checkWrite s idx sub w = 0)
    (ha : eff s { w with val := valueOf e.ty w } = accept a) :
    (writeBy idx sub eff w).run s = (answer w.path 0).run (a.run s) := by
  rw [run_writeBy, judge_of eff he hc, ha]
  rfl

/-- A write that the dictionary admits and the owner accepts makes the owner's changes and is answered. -/
theorem run_writeBy_takes {idx sub : Nat} {s : State} {w : Wr} {v : Nat} {eff : Effect} {a : Act}
    (h : s.takes idx sub w v) (ha : eff s { w with val := v } = accept a) :
    (writeBy idx sub eff w).run s = (answer w.path 0).run (a.run s) := by
  rw [run_writeBy, judge_takes eff h, ha]
  rfl

/-- An entry of the part comes from a row of the table of its index, with the row's type and gate. -/
theorem entry_row {s : State} {idx sub : Nat} {e : Entry} (h : s.entry idx sub = some e) :
    ∃ r ∈ entriesOfPage (idx / 256), r.has idx sub = true ∧ e.ty = r.ty ∧ e.gate = r.gate ∧ e.rng = r.rng
      ∧ (e.acc = r.acc ∨ (r.acc = .rw ∧ e.acc = .ro)) := by
  unfold State.entry at h
  split at h
  · exact absurd h (by simp)
  · have key : ∀ r, findEntry idx sub = some r →
        r ∈ entriesOfPage (idx / 256) ∧ r.has idx sub = true := fun r hr =>
      ⟨List.mem_of_find?_eq_some hr, by simpa using List.find?_some (p := fun (e : Entry) => e.has idx sub) hr⟩
    split at h
    · cases hf : findEntry idx sub with
      | none => simp [hf] at h
      | some r =>
        simp only [hf, Option.map_some, Option.some.injEq] at h
        subst h
        refine ⟨r, (key r hf).1, (key r hf).2, rfl, rfl, rfl, ?_⟩
        by_cases hr : r.acc = .rw
        · right; simp [hr]
        · left; simp [hr]
    · exact ⟨e, (key e h).1, (key e h).2, rfl, rfl, rfl, Or.inl rfl⟩

/-- What the dictionary admits is a rw or wo entry, of a value that fits its type (R57, R63, R68). -/
theorem fits_of_checkWrite {s : State} {idx sub : Nat} {w : Wr} {e : Entry} (he : s.entry idx sub = some e)
    (hc : checkWrite s idx sub w = 0) :
    e.acc ≠ .const ∧ e.acc ≠ .ro ∧ lengthFits e.ty w = true ∧ surplusFits e.ty w = true
      ∧ e.ty.encodes (valueOf e.ty w) = true ∧ e.rng.admits e.ty (valueOf e.ty w) = true := by
  unfold checkWrite at hc
  simp only [he] at hc
  repeat' split at hc
  all_goals first
    | exact absurd hc (by decide)
    | skip
  simp_all

/-- The row covers the index. -/
def Entry.covers (e : Entry) (idx : Nat) : Bool :=
  e.idx ≤ idx && (idx - e.idx) % e.stride == 0 && (idx - e.idx) / e.stride < e.n

/-- An admitted write of an index whose writable rows have one type carries a value of that type. -/
theorem takes_type {s : State} {idx sub : Nat} {w : Wr} {v : Nat} (ty : Ty) (h : s.takes idx sub w v)
    (ht : ((entriesOfPage (idx / 256)).all fun r =>
      !(r.covers idx) || r.acc == .const || r.acc == .ro || r.ty == ty) = true) :
    v = valueOf ty w ∧ surplusFits ty w = true ∧ lengthFits ty w = true ∧ ty.encodes v = true := by
  obtain ⟨e, he, hc, rfl⟩ := h
  obtain ⟨hk, hr, hl, hs, hen, -⟩ := fits_of_checkWrite he hc
  obtain ⟨r, hm, hh, hty, -, -, hacc⟩ := entry_row he
  have hrow := List.all_eq_true.mp ht r hm
  have hcov : r.covers idx = true := by
    simp only [Entry.has, Bool.and_eq_true] at hh
    simp only [Entry.covers, Bool.and_eq_true]
    exact hh.1.1
  have hac : e.acc = r.acc := by
    rcases hacc with h | h
    · exact h
    · exact absurd h.2 hr
  rw [hac] at hk hr
  have hty2 : r.ty = ty := by
    simpa [hcov, hk, hr] using hrow
  rw [hty, hty2] at hl hs hen ⊢
  exact ⟨rfl, hs, hl, hen⟩

/-- An admitted write names a subindex of a writable row. -/
theorem takes_sub {s : State} {idx sub : Nat} {w : Wr} {v : Nat} (lo hi : Nat) (h : s.takes idx sub w v)
    (ht : ((entriesOfPage (idx / 256)).all fun r =>
      !(r.covers idx) || r.acc == .const || r.acc == .ro || (decide (lo ≤ r.s0) && decide (r.s1 ≤ hi))) = true) :
    lo ≤ sub ∧ sub ≤ hi := by
  obtain ⟨e, he, hc, rfl⟩ := h
  obtain ⟨hk, hr, -⟩ := fits_of_checkWrite he hc
  obtain ⟨r, hm, hh, -, -, -, hacc⟩ := entry_row he
  have hrow := List.all_eq_true.mp ht r hm
  have hac : e.acc = r.acc := by
    rcases hacc with h | h
    · exact h
    · exact absurd h.2 hr
  rw [hac] at hk hr
  simp only [Entry.has, Bool.and_eq_true, decide_eq_true_eq] at hh
  have hcov : r.covers idx = true := by
    simp only [Entry.covers, Bool.and_eq_true, decide_eq_true_eq]
    exact hh.1.1
  have : lo ≤ r.s0 ∧ r.s1 ≤ hi := by simpa [hcov, hk, hr] using hrow
  omega

/-- An admitted write of an unsigned entry carries its value as written. -/
theorem takes_unsigned {s : State} {idx sub : Nat} {w : Wr} {v : Nat} (n : Nat) (h : s.takes idx sub w v)
    (ht : ((entriesOfPage (idx / 256)).all fun r =>
      !(r.covers idx) || r.acc == .const || r.acc == .ro || r.ty == .u n) = true) :
    v = w.val ∧ w.val < 2 ^ (8 * n) := by
  obtain ⟨rfl, hs, -, -⟩ := takes_type (.u n) h ht
  have : w.val < 2 ^ (8 * n) := by simpa [surplusFits] using hs
  exact ⟨Nat.mod_eq_of_lt this, this⟩

/-- An answer only adds to the outputs. -/
theorem run_answer (p : WPath) (code : Nat) (s : State) :
    (answer p code).run s = { s with out := ((answer p code).run s).out } := by
  cases p <;> rfl

@[simp] theorem answer_reg (p : WPath) (code k : Nat) (s : State) : ((answer p code).run s).reg k = s.reg k := by
  rw [run_answer]
  rfl

/-- Outputs already made stay among the outputs. -/
theorem mem_out_notifySession {s : State} {o : Out} (i : Nat) (h : o ∈ s.out) : o ∈ (s.notifySession i).out := by
  unfold State.notifySession
  split
  · exact h
  · dsimp only
    split
    · exact h
    · exact List.mem_append_left _ h

/-- Outputs already made stay among the outputs when notifications go out. -/
theorem mem_out_notifySend {s : State} {o : Out} (h : o ∈ s.out) : o ∈ s.notifySend.out := by
  unfold State.notifySend
  generalize List.range 8 = l
  induction l generalizing s with
  | nil => exact h
  | cons i l ih => exact ih (mem_out_notifySession i h)

theorem pending_emcyFor (s : State) (n : Nat) : (s.emcyFor n).ev.pending = s.ev.pending := by
  unfold State.emcyFor
  dsimp only
  split
  · rfl
  · split
    · rfl
    · split <;> rfl

theorem pending_routeOne (s : State) (n : Nat) : (s.routeOne n).1.ev.pending = s.ev.pending := by
  unfold State.routeOne
  split
  · rfl
  · dsimp only
    split
    · split
      · exact pending_emcyFor s n
      · rfl
    · split
      · exact pending_emcyFor s n
      · rfl

/-- Marking an event keeps what is pending. -/
theorem pending_mark_of {s : State} {m : Nat} (n : Nat) (h : s.ev.pending.getLsbD m = true) :
    (s.mark n).ev.pending.getLsbD m = true := by
  simp [State.mark, h]

/-- A marked event is pending. -/
theorem pending_mark {s : State} {n : Nat} (h : n < 256) : (s.mark n).ev.pending.getLsbD n = true := by
  simp [State.mark, h]

/-- Numbers from 256 on are no events. -/
theorem lt_of_reserved {n : Nat} (h : reservedEvent n = false) : n < 256 := by
  simp [reservedEvent] at h
  omega

/-- What is pending after an occurrence: what was, the event, and TetherQueueOverflow where an overflow begins. -/
theorem pending_occur_of {s : State} {m : Nat} (n : Nat) (h : s.ev.pending.getLsbD m = true) :
    (s.occur n).ev.pending.getLsbD m = true := by
  unfold State.occur
  split
  · exact h
  · split
    · split <;> exact h
    · dsimp only
      split
      · exact pending_mark_of n h
      · split
        · rw [pending_routeOne]
          apply pending_mark_of
          rw [pending_routeOne]
          exact pending_mark_of n h
        · rw [pending_routeOne]
          exact pending_mark_of n h

/-- An event that AON or CTL may take is pending after it occurs, once CTL is ready (R77). -/
theorem pending_occur {s : State} {n : Nat} (hr : reservedEvent n = false) (hc : s.islandReady islCTL = true) :
    (s.occur n).ev.pending.getLsbD n = true := by
  have hm := pending_mark (s := s) (lt_of_reserved hr)
  simp only [State.occur, hr, hc]
  simp only [Bool.false_eq_true, if_false, Bool.not_true]
  split
  · exact hm
  · split
    · rw [pending_routeOne]
      apply pending_mark_of
      rw [pending_routeOne]
      exact hm
    · rw [pending_routeOne]
      exact hm

/-- An event just raised is pending, once CTL is ready. -/
theorem pending_occur_self (s : State) (n : Nat) (hr : reservedEvent n = false) :
    s.islandReady islCTL = true → (s.occur n).ev.pending.getLsbD n = true := fun hc => pending_occur hr hc

/-- An output just made is among the outputs. -/
theorem mem_out_send (s : State) (o : Out) : o ∈ ({ s with out := s.out ++ [o] } : State).notifySend.out :=
  mem_out_notifySend (List.mem_append_right _ (List.mem_singleton.mpr rfl))

/-- A write makes its owner's changes, records a refusal and answers. -/
theorem all_writeBy {P : Prim → Prop} {idx sub : Nat} {eff : Effect} {w : Wr}
    (hcode : ∀ k v, k < 8 → P (.set (K.WindowAbortCode + k) v)) (hraise : P (.occur 12)) (hout : ∀ o, P (.out o))
    (heff : ∀ s v, (eff s { w with val := v }).act.All P) : (writeBy idx sub eff w).All P := by
  intro s
  refine ⟨?_, ?_⟩
  · have hact : (judge idx sub eff s w).act.All P := by
      unfold judge
      split
      · trivial
      · split
        · exact heff s _
        · trivial
    unfold enact
    split
    · exact hact
    · refine ⟨hact, fun s => ⟨?_, hraise, trivial⟩⟩
      split
      · refine all_when fun h => ?_
        simp only [Bool.and_eq_true, decide_eq_true_eq] at h
        exact hcode _ _ h.1
      · trivial
  · unfold answer
    split
    · trivial
    · exact hout _

end Sys2Proof.Machine
end

