-- ==== Sys2Proof/Laws/Frames.lean ====
section
/-! SUPPORT. Sys2Proof/Laws/Frames.lean: what a tree of changes leaves alone, what stays pending, and what a refused write
does. -/

set_option Elab.async false

namespace Sys2Proof.Machine

/-- What a step's notifications leave alone stays left alone. -/
theorem only_sent {b u : State} {l : List Piece} (h : b.only l u) : b.only l u.notifySend :=
  fun p hp => Piece.same_trans (h p hp) (only_of_netOnly (NetOnly.notifySend u) p (by simp))

/-- A write that the dictionary refuses is recorded and answered with the dictionary's code. -/
theorem run_writeBy_refused {idx sub : Nat} {s : State} {w : Wr} (eff : Effect) (hc : checkWrite s idx sub w ≠ 0) :
    (writeBy idx sub eff w).run s = (answer w.path (checkWrite s idx sub w)).run
      ((recordRefusal w.path (checkWrite s idx sub w)).run s) := by
  rw [run_writeBy, judge_refused eff hc]
  simp [enact, refuse, hc]

/-- What a recorded refusal leaves: a core's code where CTL is ready, and event 12. -/
theorem run_recordRefusal (p : WPath) (code : Nat) (b : State) : ∃ m, (recordRefusal p code).run b = ({ b with dict := m } : State).occur 12
    ∧ (match p with
      | .core k => if k < 8 && b.islandReady islCTL then m = SMap.put b.dict (K.WindowAbortCode + k) code else m = b.dict
      | _ => m = b.dict) := by
  cases p
  case core k =>
    by_cases h : (k < 8 && b.islandReady islCTL) = true
    · exact ⟨SMap.put b.dict (K.WindowAbortCode + k) code, by simp [recordRefusal, h], by simp [h]⟩
    · exact ⟨b.dict, by simp [recordRefusal, h], by simp [h]⟩
  all_goals exact ⟨b.dict, rfl, rfl⟩

/-- A refusal recorded and answered leaves the state that `State.refusedWith` says. -/
theorem refusedWith_run (p : WPath) (code : Nat) (hc : code ≠ 0) (b : State) :
    b.refusedWith p code ((answer p code).run ((recordRefusal p code).run b)).notifySend := by
  have hall : (Act.seq (recordRefusal p code) (answer p code)).All fun p => ∀ q ∈ p.touches, q ∈ [Piece.dict, .ev] := by
    refine ⟨fun s => ⟨?_, by simp [Prim.touches], trivial⟩, ?_⟩
    · cases p
      · exact all_when fun _ => by simp [put, Prim.touches]
      · trivial
      · trivial
    · cases p
      · trivial
      all_goals simp [answer, send, Prim.touches]
  refine ⟨only_sent (Act.All.only hall b), ?_, ?_⟩
  all_goals obtain ⟨m, hm, hp⟩ := run_recordRefusal p code b
  · intro hctl n hn
    rw [List.mem_singleton.mp hn, (NetOnly.notifySend _).ev, run_answer, hm]
    refine pending_occur_self _ 12 (by decide) ?_
    rw [← hctl]
    cases p
    case core k =>
      dsimp only at hp
      split at hp
      · subst hp
        rename_i h
        simp only [Bool.and_eq_true, decide_eq_true_eq] at h
        have hk : K.IslandReady + (islCTL - 1) ≠ K.WindowAbortCode + k := by
          simp only [K.IslandReady, K.WindowAbortCode, islCTL]
          omega
        simp only [State.islandReady, State.flag, State.reg_set_ne b code hk]
      · subst hp; rfl
    all_goals subst hp; rfl
  · have hd : ((answer p code).run ((recordRefusal p code).run b)).notifySend.dict = m := by
      rw [(NetOnly.notifySend _).dict, run_answer, hm]
      exact (EvOnly.occur _ 12).dict
    have hpt : ((answer p code).run ((recordRefusal p code).run b)).notifySend.part = b.part := by
      rw [(NetOnly.notifySend _).part, run_answer, hm]
      exact (EvOnly.occur _ 12).part
    cases p
    case core k =>
      dsimp only at hp ⊢
      split at hp
      · subst hp
        constructor
        · intro _ _
          rw [State.reg_congr (s := { b with dict := SMap.put b.dict (K.WindowAbortCode + k) code }) hd hpt]
          simp [State.reg]
        · intro q hq
          rw [State.reg_congr (s := { b with dict := SMap.put b.dict (K.WindowAbortCode + k) code }) hd hpt]
          exact State.reg_set_ne b code (by simpa using hq)
      · subst hp
        rename_i h
        constructor
        · intro h8 hctl
          exact absurd (by simp [h8, hctl]) h
        · intro q _
          exact State.reg_congr hd hpt q
    all_goals
      subst hp
      refine ⟨hd, mem_out_notifySend ?_⟩
      simp [answer, hc]

/-- A command that is one dictionary write, when the dictionary refuses the write. -/
theorem refused_completes {c : Instr} {t idx sub : Nat} {w : Wr} {eff : Effect}
    (hx : ∀ s, exec c s = perform t (writeBy idx sub eff w) s) :
    Completes c t (fun b => checkWrite b idx sub w ≠ 0) fun b u => b.refusedWith w.path (checkWrite b idx sub w) u :=
  completes_of hx fun b _ hc => by
    rw [run_writeBy_refused eff hc]
    exact refusedWith_run w.path _ hc b

/-- A frame may always be widened. -/
theorem only_mono {b u : State} {l m : List Piece} (h : b.only l u) (hs : ∀ p ∈ l, p ∈ m) : b.only m u :=
  fun p hp => h p fun hm => hp (hs p hm)

/-- Loading saved values sets only what the filter keeps. -/
theorem not_sets_load {q : Nat} (m : SMap) {p : Nat → Bool} (h : p q = false) : ¬ Prim.sets q (.load (SMap.keep m p)) := by
  rintro ⟨x, hx, rfl⟩
  have := SMap.mem_keep hx
  rw [h] at this; cases this

/-- An entry that no row makes rw is never saved. -/
theorem savable_ro (s : State) (k : Nat) (h : ((entriesOfPage (k/256/256)).all fun r => !(r.has (k/256) (k%256)) || r.acc != .rw) = true) :
    s.savable k = false := by
  unfold State.savable
  cases he : s.entry (k/256) (k%256) with
  | none => simp
  | some e =>
    obtain ⟨r, hm, hh, h1, h2, h3, hacc⟩ := entry_row he
    have hrow := List.all_eq_true.mp h r hm
    have : r.acc ≠ .rw := by simpa [hh] using hrow
    have : e.acc ≠ .rw := by
      rcases hacc with h | h
      · rw [h]; exact this
      · exact absurd h.1 this
    simp [this]

/-- Loading saved values sets no such entry. -/
theorem not_sets_saved {q : Nat} (s : State) (p : Nat → Bool) (h : ((entriesOfPage (q/256/256)).all fun r => !(r.has (q/256) (q%256)) || r.acc != .rw) = true) :
    ¬ Prim.sets q (.load (s.savedOf p)) := not_sets_load _ (by simp [savable_ro s q h])

/-- A choice has a property where both of its sides have it. -/
theorem all_ite {P : Prim → Prop} {c : Prop} [Decidable c] {a b : Act} (h : c → a.All P) (k : ¬c → b.All P) : (if c then a else b).All P := by
  by_cases hc : c
  · rw [if_pos hc]; exact h hc
  · rw [if_neg hc]; exact k hc

/-- A choice of verdicts has a property where both of its sides have it. -/
theorem all_vite {P : Prim → Prop} {c : Prop} [Decidable c] {a b : Verdict} (h : c → a.act.All P) (k : ¬c → b.act.All P) : (if c then a else b).act.All P := by
  by_cases hc : c
  · rw [if_pos hc]; exact h hc
  · rw [if_neg hc]; exact k hc

/-- No change breaks the form of the register map. -/
theorem wf_run (a : Act) (s : State) (h : SMap.wf s.dict = true) : SMap.wf (a.run s).dict = true := by
  refine Act.run_keeps (fun s => SMap.wf s.dict = true) ?_ a s h
  intro p s hs
  by_cases hd : Piece.dict ∈ p.touches
  · cases p <;> simp [Prim.touches] at hd
    case set k v => exact SMap.wf_put hs
    case unset keep => exact SMap.wf_keep keep hs
    case load m => exact SMap.wf_over m hs
  · have : (p.apply s).dict = s.dict := Prim.only_touches p s .dict hd
    rw [this]; exact hs

/-- The invariant holds the form of the register map. -/
theorem inv_wf {s : State} (h : s.inv = true) : SMap.wf s.dict = true := by
  simp [State.inv] at h; exact h.1.2

/-- A register that the rest of a sequence does not set reads as its first change leaves it. -/
theorem reg_seqs_tail {q : Nat} {s : State} (hs : SMap.wf s.dict = true) (a : Act) (l : List Act) (h : (seqs l).All fun p => ¬ p.sets q) :
   ((seqs (a :: l)).run s).reg q = (a.run s).reg q := Act.All.reg h _ (wf_run a s hs)

/-- A register that the second change does not set reads as the first leaves it. -/
theorem reg_seq_tail {q : Nat} {s : State} (hs : SMap.wf s.dict = true) (a b : Act) (h : b.All fun p => ¬ p.sets q) :
   ((Act.seq a b).run s).reg q = (a.run s).reg q := Act.All.reg h _ (wf_run a s hs)

/-- The changes after which an event may no longer be pending. -/
def Prim.forgets : Prim → Bool
  | .evClear _ => true
  | .evReset => true
  | _ => false

/-- Releasing the held events keeps what is pending. -/
theorem pending_releaseHeld_of {s : State} {m : Nat} (h : s.ev.pending.getLsbD m = true) : s.releaseHeld.ev.pending.getLsbD m = true := by
  unfold State.releaseHeld
  simp only
  generalize s.ev.held = l
  induction l generalizing s with
  | nil => exact h
  | cons i l ih =>
    simp only [List.foldl_cons]
    split
    · exact ih h
    · exact ih (pending_mark_of i h)

/-- Routing the pending events keeps what is pending. -/
theorem pending_routePending_of {s : State} {m : Nat} (h : s.ev.pending.getLsbD m = true) : s.routePending.ev.pending.getLsbD m = true := by
  unfold State.routePending
  generalize List.range 256 = l
  induction l generalizing s with
  | nil => exact h
  | cons i l ih =>
    simp only [List.foldl_cons]
    apply ih
    split
    · split
      · rw [pending_routeOne]; apply pending_mark_of; rw [pending_routeOne]; exact h
      · rw [pending_routeOne]; exact h
    · exact h

/-- Sending an EMCY changes nothing pending. -/
theorem pending_emcyNext (s : State) : s.emcyNext.ev.pending = s.ev.pending := by
  unfold State.emcyNext; split
  · rfl
  · split <;> rfl

/-- Holding an event changes nothing pending. -/
theorem pending_holdEvent (s : State) (n : Nat) : (s.holdEvent n).ev.pending = s.ev.pending := by
  unfold State.holdEvent; split <;> rfl

/-- Every other change keeps what is pending. -/
theorem Prim.keeps_pending {p : Prim} (hp : p.forgets = false) {s : State} {m : Nat} (h : s.ev.pending.getLsbD m = true) :
    (p.apply s).ev.pending.getLsbD m = true := by
  cases p
  case occur n => exact pending_occur_of n h
  case held n => simpa [Prim.apply, pending_holdEvent] using h
  case release => exact pending_releaseHeld_of h
  case route => exact pending_routePending_of h
  case emcyNext => simpa [Prim.apply, pending_emcyNext] using h
  case evClear m => simp [Prim.forgets] at hp
  case evReset => simp [Prim.forgets] at hp
  case evRoute n v => simp only [Prim.apply, Ev.setRoute]; split <;> exact h
  case evCount n v => simp only [Prim.apply, Ev.setCount]; split <;> exact h
  case notifySend => simpa [Prim.apply] using h
  all_goals exact h

/-- A tree of such changes keeps what is pending. -/
theorem Act.All.pending {a : Act} (ha : a.All fun p => p.forgets = false) {s : State} {m : Nat} (h : s.ev.pending.getLsbD m = true) :
    (a.run s).ev.pending.getLsbD m = true := by
  induction a generalizing s with
  | skip => exact h
  | prim p => exact Prim.keeps_pending ha h
  | seq a b iha ihb => exact ihb ha.2 (iha ha.1 h)
  | read f ih => exact ih s (ha s) h

/-- What depends on a piece alone is kept by a change that does not touch the piece. -/
theorem Prim.keeps_piece {α : Type} (g : State → α) (pc : Piece) (hg : ∀ s u : State, pc.same s u → g u = g s) (p : Prim) (s : State) (hp : pc ∉ p.touches) : g (p.apply s) = g s :=
  hg _ _ (Prim.only_touches p s pc hp)

/-- A tree that never touches a piece leaves it as it was. -/
theorem Act.All.piece {a : Act} (pc : Piece) (h : a.All fun p => pc ∉ p.touches) (s : State) : pc.same s (a.run s) := by
  induction a generalizing s with
  | skip => exact pc.same_refl s
  | prim p => exact Prim.only_touches p s pc h
  | seq a b iha ihb => exact Piece.same_trans (iha h.1 s) (ihb h.2 _)
  | read f ih => exact ih s (h s) s

/-- What is restored from the saved values keeps an entry that is never saved. -/
theorem find_over_savedOf (s : State) (m : SMap) (p : Nat → Bool) (k : Nat) (h : s.savable k = false) :
    SMap.find (SMap.over m (s.savedOf p)) k = SMap.find m k :=
  SMap.find_over_out _ _ fun x hx e => by
    have := SMap.mem_keep hx
    rw [e, h] at this
    simp at this

end Sys2Proof.Machine
end

