-- ==== Sys2Proof/Laws/PerInstr.lean ====
section
/-! SUPPORT. Sys2Proof/Laws/PerInstr.lean: the family OneWrite: a command carries at most one dictionary write (R58),
one lemma per command. -/

set_option Elab.async false

namespace Sys2Proof.Laws.OneWrite

/-- The command carries at most one dictionary write. -/
def Statement (i : Instr) : Prop := i.writes.length ≤ 1

theorem powerOnReset {t} {cold} : Statement (.powerOnReset t cold) := Nat.zero_le 1
theorem supplyMonitorTrip {t} {group} : Statement (.supplyMonitorTrip t group) := Nat.zero_le 1
theorem islandReady {t} {isl} : Statement (.islandReady t isl) := Nat.zero_le 1
theorem firmwareVerified {t} {vendor} {slotA} {slotB} : Statement (.firmwareVerified t vendor slotA slotB) := Nat.zero_le 1
theorem dictionaryReady {t} : Statement (.dictionaryReady t) := Nat.zero_le 1
theorem canBootUp {t} : Statement (.canBootUp t) := Nat.zero_le 1
theorem warmResetRequest {t} {w} : Statement (.warmResetRequest t w) := Nat.le_refl 1
theorem warmrstNLow {t} {width} : Statement (.warmrstNLow t width) := Nat.zero_le 1
theorem watchdogExpired {t} {realTime} : Statement (.watchdogExpired t realTime) := Nat.zero_le 1
theorem islandResetRequest {t} {w} : Statement (.islandResetRequest t w) := Nat.le_refl 1
theorem powerConditionRequest {t} {w} : Statement (.powerConditionRequest t w) := Nat.le_refl 1
theorem wakeIn {t} : Statement (.wakeIn t) := Nat.zero_le 1
theorem cfWakeActivity {t} : Statement (.cfWakeActivity t) := Nat.zero_le 1
theorem pgoodMainTimeout {t} : Statement (.pgoodMainTimeout t) := Nat.zero_le 1
theorem modeRequest {t} {w} : Statement (.modeRequest t w) := Nat.le_refl 1
theorem modeChangeAtBoundary {t} : Statement (.modeChangeAtBoundary t) := Nat.zero_le 1
theorem modeTransitionEnd {t} : Statement (.modeTransitionEnd t) := Nat.zero_le 1
theorem orderlyStopRequest {t} {w} : Statement (.orderlyStopRequest t w) := Nat.le_refl 1
theorem functionDisable {t} {f} {w} : Statement (.functionDisable t f w) := Nat.le_refl 1
theorem functionEnable {t} {f} {w} : Statement (.functionEnable t f w) := Nat.le_refl 1
theorem functionDrainComplete {t} {f} {queued} : Statement (.functionDrainComplete t f queued) := Nat.zero_le 1
theorem linkInkWrite {t} {l} {w} : Statement (.linkInkWrite t l w) := Nat.le_refl 1
theorem slackPeriodEnd {t} {c} : Statement (.slackPeriodEnd t c) := Nat.zero_le 1
theorem slackSlotGrant {t} {owner} {len} {boundary} : Statement (.slackSlotGrant t owner len boundary) := Nat.zero_le 1
theorem throttlePauseEnd {t} {c} : Statement (.throttlePauseEnd t c) := Nat.zero_le 1
theorem dictionaryWrite {t} {idx} {sub} {w} : Statement (.dictionaryWrite t idx sub w) := Nat.le_refl 1
theorem stringStagingStore {t} {core} {addr} {val} : Statement (.stringStagingStore t core addr val) := Nat.zero_le 1
theorem emcyInhibitExpiry {t} : Statement (.emcyInhibitExpiry t) := Nat.zero_le 1
theorem eventPendingClear {t} {sub} {w} : Statement (.eventPendingClear t sub w) := Nat.le_refl 1
theorem eventMaskWrite {t} {sub} {w} : Statement (.eventMaskWrite t sub w) := Nat.le_refl 1
theorem eventRouteWrite {t} {n} {w} : Statement (.eventRouteWrite t n w) := Nat.le_refl 1
theorem eventCountClear {t} {n} {w} : Statement (.eventCountClear t n w) := Nat.le_refl 1
theorem storeParameters {t} {w} : Statement (.storeParameters t w) := Nat.le_refl 1
theorem restoreDefaults {t} {w} : Statement (.restoreDefaults t w) := Nat.le_refl 1
theorem errorFieldCountClear {t} {w} : Statement (.errorFieldCountClear t w) := Nat.le_refl 1
theorem usdoRequest {t} {req} : Statement (.usdoRequest t req) := Nat.zero_le 1
theorem rpdoReceived {t} {n} {data} : Statement (.rpdoReceived t n data) := Nat.zero_le 1
theorem canSyncReceived {t} : Statement (.canSyncReceived t) := Nat.zero_le 1
theorem tpdoEventTimer {t} {n} : Statement (.tpdoEventTimer t n) := Nat.zero_le 1
theorem tpdoTransmit {t} {n} : Statement (.tpdoTransmit t n) := Nat.zero_le 1
theorem heartbeatProduce {t} : Statement (.heartbeatProduce t) := Nat.zero_le 1
theorem consumerHeartbeatTimeout {t} {k} : Statement (.consumerHeartbeatTimeout t k) := Nat.zero_le 1
theorem nmtStart {t} {node} : Statement (.nmtStart t node) := Nat.zero_le 1
theorem nmtStop {t} {node} : Statement (.nmtStop t node) := Nat.zero_le 1
theorem nmtEnterPreOperational {t} {node} : Statement (.nmtEnterPreOperational t node) := Nat.zero_le 1
theorem nmtResetCommunication {t} {node} : Statement (.nmtResetCommunication t node) := Nat.zero_le 1
theorem nmtResetNode {t} {node} : Statement (.nmtResetNode t node) := Nat.zero_le 1
theorem inputEdge {t} {ch} {a} {b} {nodes} : Statement (.inputEdge t ch a b nodes) := Nat.zero_le 1
theorem analogueSample {t} {n} {sin} {cos} {mark} {nodes} : Statement (.analogueSample t n sin cos mark nodes) := Nat.zero_le 1
theorem sincosTrimCalibration {t} {n} {fit} : Statement (.sincosTrimCalibration t n fit) := Nat.zero_le 1
theorem serialRead {t} {n} {datHigh} : Statement (.serialRead t n datHigh) := Nat.zero_le 1
theorem serialWord {t} {n} {word} {nodes} : Statement (.serialWord t n word nodes) := Nat.zero_le 1
theorem serialTimeout {t} {n} : Statement (.serialTimeout t n) := Nat.zero_le 1
theorem standstill {t} {ch} : Statement (.standstill t ch) := Nat.zero_le 1
theorem copyLengthWrite {t} {ch} {w} : Statement (.copyLengthWrite t ch w) := Nat.le_refl 1
theorem softLimitWrite {t} {ch} {high} {w} : Statement (.softLimitWrite t ch high w) := Nat.le_refl 1
theorem positionPreset {t} {ch} {w} : Statement (.positionPreset t ch w) := Nat.le_refl 1
theorem channelTypeWrite {t} {ch} {w} : Statement (.channelTypeWrite t ch w) := Nat.le_refl 1
theorem countingModeWrite {t} {ch} {w} : Statement (.countingModeWrite t ch w) := Nat.le_refl 1
theorem masterChannelWrite {t} {w} : Statement (.masterChannelWrite t w) := Nat.le_refl 1
theorem compareValueWrite {t} {k} {w} : Statement (.compareValueWrite t k w) := Nat.le_refl 1
theorem compareChannelWrite {t} {k} {w} : Statement (.compareChannelWrite t k w) := Nat.le_refl 1
theorem compareFiredClear {t} {w} : Statement (.compareFiredClear t w) := Nat.le_refl 1
theorem comparePulseEnd {t} {k} : Statement (.comparePulseEnd t k) := Nat.zero_le 1
theorem emulationEdge {t} {k} : Statement (.emulationEdge t k) := Nat.zero_le 1
theorem webPositionLatch {t} {path} : Statement (.webPositionLatch t path) := Nat.zero_le 1
theorem ingestData {t} {host} {data} : Statement (.ingestData t host data) := Nat.zero_le 1
theorem ackInterval {t} : Statement (.ackInterval t) := Nat.zero_le 1
theorem nackDelay {t} {flow} : Statement (.nackDelay t flow) := Nat.zero_le 1
theorem nackRetry {t} {flow} : Statement (.nackRetry t flow) := Nat.zero_le 1
theorem flowIdleTimeout {t} {flow} : Statement (.flowIdleTimeout t flow) := Nat.zero_le 1
theorem refetchResend {t} {stream} : Statement (.refetchResend t stream) := Nat.zero_le 1
theorem refetchDeadline {t} {stream} : Statement (.refetchDeadline t stream) := Nat.zero_le 1
theorem jobDelete {t} {w} : Statement (.jobDelete t w) := Nat.le_refl 1
theorem stripDecodeStart {t} {lane} {stream} {strip} : Statement (.stripDecodeStart t lane stream strip) := Nat.zero_le 1
theorem stripDecodeEnd {t} {lane} : Statement (.stripDecodeEnd t lane) := Nat.zero_le 1
theorem decodeResume {t} {lane} : Statement (.decodeResume t lane) := Nat.zero_le 1
theorem inputSpoolResume {t} {lane} {w} : Statement (.inputSpoolResume t lane w) := Nat.le_refl 1
theorem encodeCommand {t} {lane} {w} : Statement (.encodeCommand t lane w) := Nat.le_refl 1
theorem encodeDone {t} {lane} : Statement (.encodeDone t lane) := Nat.zero_le 1
theorem flushRequest {t} {lane} {w} : Statement (.flushRequest t lane w) := Nat.le_refl 1
theorem flushDone {t} {lane} : Statement (.flushDone t lane) := Nat.zero_le 1
theorem spoolResume {t} {lane} {w} : Statement (.spoolResume t lane w) := Nat.le_refl 1
theorem composeLine {t} {ink} {line} {parity} : Statement (.composeLine t ink line parity) := Nat.zero_le 1
theorem copyDecision {t} : Statement (.copyDecision t) := Nat.zero_le 1
theorem layerCommit {t} {l} {w} : Statement (.layerCommit t l w) := Nat.le_refl 1
theorem layerEmptyCommit {t} {l} {w} : Statement (.layerEmptyCommit t l w) := Nat.le_refl 1
theorem fenceReached {t} {l} {w} : Statement (.fenceReached t l w) := Nat.le_refl 1
theorem protectedLoad {t} {w} : Statement (.protectedLoad t w) := Nat.le_refl 1
theorem protectedLayerLoaded {t} : Statement (.protectedLayerLoaded t) := Nat.zero_le 1
theorem decideDropLine {t} {ink} {parity} : Statement (.decideDropLine t ink parity) := Nat.zero_le 1
theorem missingNozzleMark {t} {w} : Statement (.missingNozzleMark t w) := Nat.le_refl 1
theorem missingNozzleClear {t} {w} : Statement (.missingNozzleClear t w) := Nat.le_refl 1
theorem compensationBuild {t} : Statement (.compensationBuild t) := Nat.zero_le 1
theorem bankCopyRequest {t} {w} : Statement (.bankCopyRequest t w) := Nat.le_refl 1
theorem bankCopyDone {t} : Statement (.bankCopyDone t) := Nat.zero_le 1
theorem bankCommit {t} {w} : Statement (.bankCommit t w) := Nat.le_refl 1
theorem bankCommitChecked {t} : Statement (.bankCommitChecked t) := Nat.zero_le 1
theorem bankCommitCancel {t} {w} : Statement (.bankCommitCancel t w) := Nat.le_refl 1
theorem screenArrayLoad {t} {w} : Statement (.screenArrayLoad t w) := Nat.le_refl 1
theorem screenArrayCommitted {t} : Statement (.screenArrayCommitted t) := Nat.zero_le 1
theorem screenArrayRelease {t} {w} : Statement (.screenArrayRelease t w) := Nat.le_refl 1
theorem rowLineIssue {t} : Statement (.rowLineIssue t) := Nat.zero_le 1
theorem telemetryTimeout {t} {l} {slot} : Statement (.telemetryTimeout t l slot) := Nat.zero_le 1
theorem headRecovered {t} {l} {slot} : Statement (.headRecovered t l slot) := Nat.zero_le 1
theorem tickleReady {t} : Statement (.tickleReady t) := Nat.zero_le 1
theorem wavePushRequest {t} {w} : Statement (.wavePushRequest t w) := Nat.le_refl 1
theorem waveAck {t} {l} {slot} {data} : Statement (.waveAck t l slot data) := Nat.zero_le 1
theorem waveAckTimeout {t} {l} {slot} : Statement (.waveAckTimeout t l slot) := Nat.zero_le 1
theorem wavePushCancel {t} {w} : Statement (.wavePushCancel t w) := Nat.le_refl 1
theorem waveBankSwitch {t} {ty} {w} : Statement (.waveBankSwitch t ty w) := Nat.le_refl 1
theorem serviceSpit {t} {w} : Statement (.serviceSpit t w) := Nat.le_refl 1
theorem servicePurge {t} {w} : Statement (.servicePurge t w) := Nat.le_refl 1
theorem serviceLadder {t} {w} : Statement (.serviceLadder t w) := Nat.le_refl 1
theorem serviceCancel {t} {w} : Statement (.serviceCancel t w) := Nat.le_refl 1
theorem spitPulse {t} : Statement (.spitPulse t) := Nat.zero_le 1
theorem purgeEnd {t} : Statement (.purgeEnd t) := Nat.zero_le 1
theorem tempCurveWrite {t} {l} {slot} {w} : Statement (.tempCurveWrite t l slot w) := Nat.le_refl 1
theorem statusRecord {t} {l} {data} : Statement (.statusRecord t l data) := Nat.zero_le 1
theorem bankReport {t} {l} {slot} {data} : Statement (.bankReport t l slot data) := Nat.zero_le 1
theorem lateRecord {t} {l} {slot} {data} : Statement (.lateRecord t l slot data) := Nat.zero_le 1
theorem rejectedRecord {t} {l} {slot} {data} : Statement (.rejectedRecord t l slot data) := Nat.zero_le 1
theorem nozzleFlag {t} {l} {slot} {data} : Statement (.nozzleFlag t l slot data) := Nat.zero_le 1
theorem cfgReply {t} {l} {slot} {data} : Statement (.cfgReply t l slot data) := Nat.zero_le 1
theorem syncEcho {t} {l} {data} {arrival} : Statement (.syncEcho t l data arrival) := Nat.zero_le 1
theorem returnPacketRejected {t} {l} {cause} : Statement (.returnPacketRejected t l cause) := Nat.zero_le 1
theorem markerLock {t} {l} {marker} : Statement (.markerLock t l marker) := Nat.zero_le 1
theorem linkUpTimeout {t} {l} : Statement (.linkUpTimeout t l) := Nat.zero_le 1
theorem trainingBlockReceived {t} {l} {block} {n} : Statement (.trainingBlockReceived t l block n) := Nat.zero_le 1
theorem linkLoss {t} {l} {cause} : Statement (.linkLoss t l cause) := Nat.zero_le 1
theorem linkRestart {t} {l} {w} : Statement (.linkRestart t l w) := Nat.le_refl 1
theorem linkVersionLimitWrite {t} {l} {w} : Statement (.linkVersionLimitWrite t l w) := Nat.le_refl 1
theorem prbsModeOn {t} {l} {w} : Statement (.prbsModeOn t l w) := Nat.le_refl 1
theorem prbsModeOff {t} {l} {rx} {w} : Statement (.prbsModeOff t l rx w) := Nat.le_refl 1
theorem amPeriod {t} {l} {errors} : Statement (.amPeriod t l errors) := Nat.zero_le 1
theorem claimSend {t} : Statement (.claimSend t) := Nat.zero_le 1
theorem headCfgRequest {t} {l} {w} : Statement (.headCfgRequest t l w) := Nat.le_refl 1
theorem cfgTimeout {t} {l} : Statement (.cfgTimeout t l) := Nat.zero_le 1
theorem recalibrationRequest {t} {w} : Statement (.recalibrationRequest t w) := Nat.le_refl 1
theorem recalibrationStep {t} {l} {margin} : Statement (.recalibrationStep t l margin) := Nat.zero_le 1
theorem csiPacket {t} {p} {pkt} : Statement (.csiPacket t p pkt) := Nat.zero_le 1
theorem frameEnd {t} {p} : Statement (.frameEnd t p) := Nat.zero_le 1
theorem frameTimeout {t} {p} : Statement (.frameTimeout t p) := Nat.zero_le 1
theorem lineStage {t} {p} : Statement (.lineStage t p) := Nat.zero_le 1
theorem frameStageTake {t} {p} : Statement (.frameStageTake t p) := Nat.zero_le 1
theorem statisticsReady {t} : Statement (.statisticsReady t) := Nat.zero_le 1
theorem portCommit {t} {p} {w} : Statement (.portCommit t p w) := Nat.le_refl 1
theorem coefficientCommit {t} {p} {w} : Statement (.coefficientCommit t p w) := Nat.le_refl 1
theorem cciRequest {t} {p} {w} : Statement (.cciRequest t p w) := Nat.le_refl 1
theorem cciDone {t} {p} {status} {data} : Statement (.cciDone t p status data) := Nat.zero_le 1
theorem flatFieldCaptureRequest {t} {w} : Statement (.flatFieldCaptureRequest t w) := Nat.le_refl 1
theorem flatFieldCapture {t} {p} : Statement (.flatFieldCapture t p) := Nat.zero_le 1
theorem darkCapture {t} {p} : Statement (.darkCapture t p) := Nat.zero_le 1
theorem portRestart {t} {p} {w} : Statement (.portRestart t p w) := Nat.le_refl 1
theorem pulseEnd {t} {c} {sum} {n} {clip} {isns} {vsns} {vend} : Statement (.pulseEnd t c sum n clip isns vsns vend) := Nat.zero_le 1
theorem stageCurrentFault {t} {c} : Statement (.stageCurrentFault t c) := Nat.zero_le 1
theorem gapLinePulse {t} : Statement (.gapLinePulse t) := Nat.zero_le 1
theorem diagnosticRound {t} : Statement (.diagnosticRound t) := Nat.zero_le 1
theorem illuminationCommit {t} {w} : Statement (.illuminationCommit t w) := Nat.le_refl 1
theorem illuminationRestart {t} {w} : Statement (.illuminationRestart t w) := Nat.le_refl 1
theorem zoneCaptureRequest {t} {w} : Statement (.zoneCaptureRequest t w) := Nat.le_refl 1
theorem overlapCalibrationRequest {t} {w} : Statement (.overlapCalibrationRequest t w) := Nat.le_refl 1
theorem substitutionCalibrationRequest {t} {w} : Statement (.substitutionCalibrationRequest t w) := Nat.le_refl 1
theorem wasteVerdict {t} : Statement (.wasteVerdict t) := Nat.zero_le 1
theorem dramAccess {t} {sc} {reqs} {read} : Statement (.dramAccess t sc reqs read) := Nat.zero_le 1
theorem accessError {t} {who} {addr} {write} : Statement (.accessError t who addr write) := Nat.zero_le 1
theorem deviceMarkClear {t} {sc} {w} : Statement (.deviceMarkClear t sc w) := Nat.le_refl 1
theorem alertN {t} {sc} {writeCrc} : Statement (.alertN t sc writeCrc) := Nat.zero_le 1
theorem refreshInterval {t} {sc} {busy} : Statement (.refreshInterval t sc busy) := Nat.zero_le 1
theorem pageIdleTimer {t} {sc} : Statement (.pageIdleTimer t sc) := Nat.zero_le 1
theorem fullTraining {t} {sc} {point} {first} {second} {intact} : Statement (.fullTraining t sc point first second intact) := Nat.zero_le 1
theorem trackingStep {t} {sc} {drift} : Statement (.trackingStep t sc drift) := Nat.zero_le 1
theorem zqCalibration {t} : Statement (.zqCalibration t) := Nat.zero_le 1
theorem retrainRequest {t} {w} : Statement (.retrainRequest t w) := Nat.le_refl 1
theorem frequencyChange {t} {took} : Statement (.frequencyChange t took) := Nat.zero_le 1
theorem scrubUnit {t} {read} : Statement (.scrubUnit t read) := Nat.zero_le 1
theorem ringAreaSizeWrite {t} {w} : Statement (.ringAreaSizeWrite t w) := Nat.le_refl 1
theorem channelStart {t} {c} {w} : Statement (.channelStart t c w) := Nat.le_refl 1
theorem dmaBurst {t} {bad} : Statement (.dmaBurst t bad) := Nat.zero_le 1
theorem move {t} {c} : Statement (.move t c) := Nat.zero_le 1
theorem fill {t} {c} : Statement (.fill t c) := Nat.zero_le 1
theorem compare {t} {c} : Statement (.compare t c) := Nat.zero_le 1
theorem loop {t} {c} : Statement (.loop t c) := Nat.zero_le 1
theorem endloop {t} {c} : Statement (.endloop t c) := Nat.zero_le 1
theorem wait {t} {c} : Statement (.wait t c) := Nat.zero_le 1
theorem waitEnd {t} {c} : Statement (.waitEnd t c) := Nat.zero_le 1
theorem waitTimeout {t} {c} : Statement (.waitTimeout t c) := Nat.zero_le 1
theorem signal {t} {c} : Statement (.signal t c) := Nat.zero_le 1
theorem stop {t} {c} : Statement (.stop t c) := Nat.zero_le 1
theorem channelStop {t} {c} {w} : Statement (.channelStop t c w) := Nat.le_refl 1
theorem dmaTimer {t} {k} : Statement (.dmaTimer t k) := Nat.zero_le 1
theorem softRequestWrite {t} {w} : Statement (.softRequestWrite t w) := Nat.le_refl 1
theorem ethernetFrame {t} {port} {data} {dwell} {fec} {fecBad} : Statement (.ethernetFrame t port data dwell fec fecBad) := Nat.zero_le 1
theorem arpRequest {t} {port} {mac} {ip} {target} : Statement (.arpRequest t port mac ip target) := Nat.zero_le 1
theorem icmpEcho {t} {port} {src} {target} {ident} {seq} {data} {fragment} : Statement (.icmpEcho t port src target ident seq data fragment) := Nat.zero_le 1
theorem portLinkChange {t} {port} {up} : Statement (.portLinkChange t port up) := Nat.zero_le 1
theorem addressChange {t} {idx} {port} {w} : Statement (.addressChange t idx port w) := Nat.le_refl 1
theorem tetherHello {t} {host} {vmin} {vmax} {keyId} {nonce} {client} {notify} : Statement (.tetherHello t host vmin vmax keyId nonce client notify) := Nat.zero_le 1
theorem tetherOpen {t} {host} {data} : Statement (.tetherOpen t host data) := Nat.zero_le 1
theorem challengeTimeout {t} : Statement (.challengeTimeout t) := Nat.zero_le 1
theorem tetherRequest {t} {host} {data} : Statement (.tetherRequest t host data) := Nat.zero_le 1
theorem tetherNotifyAck {t} {host} {data} : Statement (.tetherNotifyAck t host data) := Nat.zero_le 1
theorem notifyRetry {t} {session} : Statement (.notifyRetry t session) := Nat.zero_le 1
theorem tetherKeepAlive {t} {host} {data} : Statement (.tetherKeepAlive t host data) := Nat.zero_le 1
theorem tetherClose {t} {host} {data} : Statement (.tetherClose t host data) := Nat.zero_le 1
theorem sessionTimeout {t} {session} : Statement (.sessionTimeout t session) := Nat.zero_le 1
theorem canBusOff {t} {txe} {rxe} : Statement (.canBusOff t txe rxe) := Nat.zero_le 1
theorem canAutoRecover {t} : Statement (.canAutoRecover t) := Nat.zero_le 1
theorem canRecover {t} {w} : Statement (.canRecover t w) := Nat.le_refl 1
theorem ptpSync {t} {port} {domain} {src} {logInt} {origin} {corr} : Statement (.ptpSync t port domain src logInt origin corr) := Nat.zero_le 1
theorem ptpAnnounce {t} {port} {domain} {src} {logInt} {data} : Statement (.ptpAnnounce t port domain src logInt data) := Nat.zero_le 1
theorem announceTimeout {t} : Statement (.announceTimeout t) := Nat.zero_le 1
theorem ptpDelayMessage {t} {port} {domain} {request} {sent} {remote} {corr} : Statement (.ptpDelayMessage t port domain request sent remote corr) := Nat.zero_le 1
theorem ptpMasterSync {t} : Statement (.ptpMasterSync t) := Nat.zero_le 1
theorem diodeASample {t} {code} : Statement (.diodeASample t code) := Nat.zero_le 1
theorem diodeBSample {t} {code} : Statement (.diodeBSample t code) := Nat.zero_le 1
theorem thermalTrimReference {t} {w} : Statement (.thermalTrimReference t w) := Nat.le_refl 1
theorem thermalTrimReading {t} : Statement (.thermalTrimReading t) := Nat.zero_le 1
theorem faultLogSave {t} {w} : Statement (.faultLogSave t w) := Nat.le_refl 1
theorem calibrationRecordSave {t} {w} : Statement (.calibrationRecordSave t w) := Nat.le_refl 1
theorem calibrationAutoSave {t} : Statement (.calibrationAutoSave t) := Nat.zero_le 1
theorem pairStart {t} : Statement (.pairStart t) := Nat.zero_le 1
theorem heartbeatSend {t} : Statement (.heartbeatSend t) := Nat.zero_le 1
theorem heartbeatReceived {t} {nc} {data} : Statement (.heartbeatReceived t nc data) := Nat.zero_le 1
theorem mirrorFrame {t} {data} : Statement (.mirrorFrame t data) := Nat.zero_le 1
theorem peerAbsent {t} : Statement (.peerAbsent t) := Nat.zero_le 1
theorem takeoverGuardEnd {t} : Statement (.takeoverGuardEnd t) := Nat.zero_le 1
theorem returnPair {t} : Statement (.returnPair t) := Nat.zero_le 1
theorem lifecycleAdvance {t} {w} : Statement (.lifecycleAdvance t w) := Nat.le_refl 1
theorem keyInstall {t} {w} : Statement (.keyInstall t w) := Nat.le_refl 1
theorem keyRevoke {t} {w} : Statement (.keyRevoke t w) := Nat.le_refl 1
theorem tokenChallenge {t} {path} : Statement (.tokenChallenge t path) := Nat.zero_le 1
theorem roleToken {t} {w} : Statement (.roleToken t w) := Nat.le_refl 1
theorem canRoleTimeout {t} : Statement (.canRoleTimeout t) := Nat.zero_le 1
theorem lockoutEnd {t} {path} : Statement (.lockoutEnd t path) := Nat.zero_le 1
theorem packageLoadFirmware {t} {w} : Statement (.packageLoadFirmware t w) := Nat.le_refl 1
theorem packageLoadDebugGrant {t} {w} : Statement (.packageLoadDebugGrant t w) := Nat.le_refl 1
theorem packageLoadLifecycle {t} {w} : Statement (.packageLoadLifecycle t w) := Nat.le_refl 1
theorem packageCheckDone {t} : Statement (.packageCheckDone t) := Nat.zero_le 1
theorem packageWriteDone {t} {readBackOk} : Statement (.packageWriteDone t readBackOk) := Nat.zero_le 1
theorem securityVersionCommit {t} {w} : Statement (.securityVersionCommit t w) := Nat.le_refl 1
theorem debugLevelRequest {t} {w} : Statement (.debugLevelRequest t w) := Nat.le_refl 1
theorem grantExpiry {t} : Statement (.grantExpiry t) := Nat.zero_le 1
theorem performanceCountersRead {t} {path} : Statement (.performanceCountersRead t path) := Nat.zero_le 1
theorem jtagBypass {t} {tdi} {n} : Statement (.jtagBypass t tdi n) := Nat.zero_le 1
theorem jtagIdcode {t} {tdi} {n} : Statement (.jtagIdcode t tdi n) := Nat.zero_le 1
theorem jtagSamplePreload {t} {tdi} {n} : Statement (.jtagSamplePreload t tdi n) := Nat.zero_le 1
theorem jtagExtest {t} {tdi} {n} {resetLow} : Statement (.jtagExtest t tdi n resetLow) := Nat.zero_le 1
theorem jtagClamp {t} {tdi} {n} {resetLow} : Statement (.jtagClamp t tdi n resetLow) := Nat.zero_le 1
theorem jtagHighz {t} {tdi} {n} {resetLow} : Statement (.jtagHighz t tdi n resetLow) := Nat.zero_le 1
theorem returnClockValid {t} {l} : Statement (.returnClockValid t l) := Nat.zero_le 1
theorem alertNDeasserted {t} {sc} {window} : Statement (.alertNDeasserted t sc window) := Nat.zero_le 1
theorem pgoodMainHigh {t} : Statement (.pgoodMainHigh t) := Nat.zero_le 1
theorem timeNowLatch {t} {path} : Statement (.timeNowLatch t path) := Nat.zero_le 1
theorem calibrationRecordWritten {t} : Statement (.calibrationRecordWritten t) := Nat.zero_le 1
theorem dramInitialised {t} : Statement (.dramInitialised t) := Nat.zero_le 1
theorem dmaTimerWidthEnd {t} {k} : Statement (.dmaTimerWidthEnd t k) := Nat.zero_le 1

end Sys2Proof.Laws.OneWrite
end

