-- ==== Sys2Proof/Tests/Slice0.lean ====
section
/-! SUPPORT. Sys2Proof/Tests/Slice0.lean: the model's own tests: the spec's worked examples; ill-formed terms, which the
checks refuse; and for every clause of every statement with hypotheses a state and operands that meet them together. The
small states are built by `lab`. -/

set_option Elab.async false
set_option maxRecDepth 20000

namespace Sys2Proof.Tests

open Sys2Proof.Machine

/-- A state out of reset with the dictionary served, every island ready and the registers listed. -/
def lab (regs : SMap) : State :=
  { State.reset with
    dict := (regs.foldl (fun m p => SMap.put m p.1 p.2) ((List.range 12).map fun i => (K.IslandReady + i, 1)))
    sys := { State.reset.sys with dictReady := true, served := true, verified := true }
    can := { State.reset.can with booted := true } }

/-- An entry asked for under the newest dictionary version is served where it stands. -/
theorem servedAt_new (idx sub : Nat) : servedAt 0xFFFF idx sub = some (idx, sub) := by
  unfold servedAt
  have h : ((Config.compatibility.map BitVec.toNat).find? fun r =>
      bits r 0 16 == idx && bits r 16 8 == sub && 0xFFFF < (fun (r : Nat) => bits r 60 4 * 256 + bits r 56 4) r) = none := by
    rw [List.find?_eq_none]
    intro x _
    have h1 : bits x 60 4 < 16 := Nat.mod_lt _ (by decide)
    have h2 : bits x 56 4 < 16 := Nat.mod_lt _ (by decide)
    have : ¬ (0xFFFF < bits x 60 4 * 256 + bits x 56 4) := by omega
    simp [this]
  simp only [h]

/-- An empty DRAM reads as zeros in the screen inbox, so its image is accepted. -/
theorem quiet_inbox (i : Nat) (hi : i < 1000000) : ((lab []).begun 5).inboxThreshold i = 0 := by
  have hb : ∀ a, screenInboxAt ≤ a → a < 0x2008000000 → Memory.byte [] a = 0#8 := by
    intro a ha hb
    have h : powerOnByte a = 0 := by
      unfold powerOnByte
      simp only [coefficientBase, nozzleTermAt, zoneStateAt, screenInboxAt, Bool.and_eq_true, decide_eq_true_eq] at *
      rw [if_neg (by omega), if_neg (by omega), if_neg (by omega)]
    simp [Memory.byte, Memory.unlisted, h]
  have hm : ((lab []).begun 5).mem = [] := rfl
  unfold State.inboxThreshold
  have h1 : i * 12 / 8 < 2000000 := by omega
  have h2 := hb (screenInboxAt + i * 12 / 8) (by omega) (by simp only [screenInboxAt]; omega)
  have h3 := hb (screenInboxAt + i * 12 / 8 + 1) (by omega) (by simp only [screenInboxAt]; omega)
  simp only [hm, Memory.value, h2, h3]
  simp [bits]

/-- An array of zeros is accepted. -/
theorem screen_accepted : ((lab []).begun 5).screenRefusal 2 1 5 = 0 := by
  unfold State.screenRefusal
  rw [if_neg (by decide +kernel), if_neg (by decide +kernel), if_neg (by decide +kernel), if_neg (by decide +kernel),
    if_neg (by decide +kernel), if_neg]
  simp only [Bool.not_eq_true', Bool.not_eq_false, List.all_eq_true, List.mem_range, cellMonotone]
  intro c hc j hj
  have h15 : (if 1 = 0 then 3 else 15 : Nat) = 15 := rfl
  have h16 : (if 1 = 0 then 262144 else 65536 : Nat) = 65536 := rfl
  simp only [h15, h16] at *
  rw [quiet_inbox _ (by omega), quiet_inbox _ (by omega)]
  rfl

/-! ### The spec's worked examples -/

/-- R67's worked examples: the window addresses of 0x2010:01 and of subindex 3 of 0x4070. -/
theorem test_window_addresses : windowAddr 0x2010 1 = 0x40808008 ∧ windowAddr 0x4070 3 = 0x41838018 := by decide

/-- R65's worked examples: head slot 5.11 and illumination string column 9, row 6. -/
theorem test_instance_indices : slotKey K.TempCurve 5 11 / 256 = 0x4147 ∧ stringKey K.CurrentActual 78 / 256 = 0x464E := by
  decide

/-- R203's worked example: a 300 % limit leaves 16,398 of INK3's 17,381. -/
theorem test_ink_limit : (inkLimited (List.replicate 8 65535 ++ [196605, 255])
    [52000, 48000, 40000, 17381, 30000, 12000, 0, 9000]).getD 3 0 = 16398 := by decide

/-- The nozzle entry of the worked example of spec/08_tone_pipeline.md, nozzle 356,344. -/
def exampleNozzle : Nat := 0x0014243034281808F05000002002EA61

/-- Its fields: column 60,001, present, weight 16 from the left, Lower with share 240. -/
theorem test_nozzle_entry : neColumn exampleNozzle = 60001 ∧ nePresent exampleNozzle = true
    ∧ neMissing exampleNozzle = false ∧ neLeft1 exampleNozzle = 16 ∧ neLeft2 exampleNozzle = 0
    ∧ neWaveSet exampleNozzle = 1 ∧ neRole exampleNozzle = 1 ∧ neShare exampleNozzle = 0xF0
    ∧ neKnot exampleNozzle 4 = 52 := by decide +kernel

/-- Its stages 2, 3 and 6: 25,599, then 28,255, and Lower fires. -/
theorem test_nozzle_stages :
    compensated exampleNozzle (fun _ x => if x = 60000 then 16398 else 17400) 3 = 25599
    ∧ toneCurve exampleNozzle 25599 = 28255 ∧ stitchOrder 60001 2000 = 128
    ∧ nozzleFires exampleNozzle 60001 2000 = true := by decide +kernel

/-- R357's worked example: address 0x20_4000_1240 on four subchannels of two ranks, and with one of them retired. -/
theorem test_dram_map :
    let s := lab [(K.SubchannelsWorking, 15), (K.RanksPerSubchannel, 2)]
    s.dramMap 0x2040001240 = (2, 0x10000440) ∧ s.rankOf 0x10000440 = 0 ∧ (s.bankRow 0x10000440).2 = 1024
    ∧ (lab [(K.SubchannelsWorking, 13), (K.RanksPerSubchannel, 2)]).dramMap 0x2040001240 = (2, 0x15555B40) := by
  decide +kernel

/-- R243's worked example: 41.5 °C between the points 640 and 720 gives 33,178. -/
theorem test_gain_curve : gainFrom (640 + 0x8400 * 2 ^ 16 + 720 * 2 ^ 32 + 0x7C00 * 2 ^ 48) 664 7 0 = 33178 := by decide

/-- The worked example of spec/13_colour_loop.md: the gain 17,158 after the correction. -/
theorem test_loop_gain : clampInt 0 65535 (roundShift ((16900 * 16634 : Nat) : Int) 14) = 17158 := by decide

/-- The check of CRC-32 that R147's published polynomial gives for "123456789". -/
theorem test_crc32 : crc32 [0x31, 0x32, 0x33, 0x34, 0x35, 0x36, 0x37, 0x38, 0x39] = 0xCBF43926 := by decide +kernel

/-- The LINE packet of the worked example of spec/10_head_link.md: its first 28 bytes. -/
theorem test_line_packet :
    let b := lab [(slotKey K.TempCurve 7 2, 640 + 0x8400 * 2 ^ 16 + 720 * 2 ^ 32 + 0x7C00 * 2 ^ 48),
      (slotKey K.HeadTemperature 7 2, 664), (slotKey K.SlotGain 7 2, 0x8000), (K.ClaimActual, 200)]
    let s := { b with link := { b.link with links := b.link.links.set 7 { seqOut := 0x3C7E } } }
    (((sendLine 7 2 0 0xD000 0 2 2048 ((1700000000 * 1000000000 + 9993) * 65536 + 49152) true
        (List.replicate 512 0) 0).run s).out.map fun o =>
      match o with
      | .packet 7 1 d => d.take 28
      | _ => [])
    = [[0x01, 0x02, 0x14, 0x02, 0x7E, 0x3C, 0xC8, 0x00, 0x00, 0xD0, 0x04, 0x00, 0x9A, 0x81, 0x00, 0x08,
        0x00, 0xF1, 0x53, 0x65, 0x00, 0x00, 0x09, 0x27, 0x00, 0x00, 0x00, 0xC0]] := by decide +kernel

/-- R301's worked example: pixel 3,000 of port 5 in RAW12, from the raw values 400 and 1,600 to 7,833. -/
theorem test_pixel_corrected :
    let c := coefficientAt 5 true
    let m := [(2048 + 6000, 1024), (14336 + 6000, 1536), (32 + 42, 5400), (32 + 44, 5600), (546 + 188, 24100),
      (546 + 190, 24300), (26624 + 12288 * 5 + 6000, 21300)].foldl (fun m x => Memory.storeValue m (c + x.1) 2 x.2) []
    let b := { lab [(K.MergeThreshold, 60000)] with mem := m }
    let s := { b with ill := { b.ill with conf := some { merge := 0x0400 } } }
    s.linear 5 12 3000 400 false = 5400 ∧ s.linear 5 12 3000 1600 true = 24100
    ∧ s.merged 5 12 3000 400 (some 1600) = some (6025, false)
    ∧ (s.gained 5 5 (List.replicate 3000 none ++ [some (6025, false)])).getD 3000 0 = 7833 := by decide +kernel

/-! ### Well-formed and ill-formed commands -/

/-- Each of these commands breaks one check of `Instr.wf`, which refuses it. -/
theorem test_ill_formed_1 :
    (([.supplyMonitorTrip 0 0, .supplyMonitorTrip 0 6, .islandReady 0 0, .islandReady 0 13,
     .warmResetRequest 0 ⟨.can, 0, 1, 256⟩, .islandResetRequest 0 ⟨.can, 0, 1, 256⟩,
     .powerConditionRequest 0 ⟨.can, 0, 1, 256⟩, .modeRequest 0 ⟨.can, 0, 1, 256⟩, .modeRequest 0 ⟨.can, 8, 1, 0⟩,
     .modeRequest 0 ⟨.core 8, 0, 1, 0⟩, .modeRequest 0 ⟨.session 8, 0, 1, 0⟩,
     .orderlyStopRequest 0 ⟨.can, 0, 1, 256⟩, .functionDisable 0 0 ⟨.can, 0, 1, 0⟩,
     .functionDisable 0 12 ⟨.can, 0, 1, 0⟩, .functionDisable 0 1 ⟨.can, 0, 1, 256⟩,
     .functionEnable 0 0 ⟨.can, 0, 1, 0⟩, .functionEnable 0 12 ⟨.can, 0, 1, 0⟩,
     .functionEnable 0 1 ⟨.can, 0, 1, 256⟩, .functionDrainComplete 0 0 0, .functionDrainComplete 0 12 0,
     .linkInkWrite 0 16 ⟨.can, 0, 1, 0⟩, .linkInkWrite 0 0 ⟨.can, 0, 1, 256⟩, .slackPeriodEnd 0 0,
     .slackPeriodEnd 0 9, .slackSlotGrant 0 8 0 false, .throttlePauseEnd 0 0, .throttlePauseEnd 0 9,
     .dictionaryWrite 0 65536 0 ⟨.can, 0, 1, 0⟩, .dictionaryWrite 0 0 256 ⟨.can, 0, 1, 0⟩,
     .dictionaryWrite 0 0 0 ⟨.can, 0, 1, 256⟩, .stringStagingStore 0 8 0 0,
     .stringStagingStore 0 0 1099511627776 0, .stringStagingStore 0 0 0 18446744073709551616,
     .eventPendingClear 0 256 ⟨.can, 0, 1, 0⟩, .eventPendingClear 0 0 ⟨.can, 0, 1, 256⟩,
     .eventMaskWrite 0 256 ⟨.can, 0, 1, 0⟩, .eventMaskWrite 0 0 ⟨.can, 0, 1, 256⟩,
     .eventRouteWrite 0 256 ⟨.can, 0, 1, 0⟩, .eventRouteWrite 0 0 ⟨.can, 0, 1, 256⟩,
     .eventCountClear 0 256 ⟨.can, 0, 1, 0⟩] : List Instr).all fun i => !i.wf) = true := by
  decide

/-- Each of these commands breaks one check of `Instr.wf`, which refuses it. -/
theorem test_ill_formed_2 :
    (([.eventCountClear 0 0 ⟨.can, 0, 1, 256⟩, .storeParameters 0 ⟨.can, 0, 1, 256⟩,
     .restoreDefaults 0 ⟨.can, 0, 1, 256⟩, .errorFieldCountClear 0 ⟨.can, 0, 1, 256⟩, .rpdoReceived 0 8 [],
     .rpdoReceived 0 0 [256], .tpdoEventTimer 0 8, .tpdoTransmit 0 8, .consumerHeartbeatTimeout 0 4,
     .nmtStart 0 128, .nmtStop 0 128, .nmtEnterPreOperational 0 128, .nmtResetCommunication 0 128,
     .nmtResetNode 0 128, .inputEdge 0 14 false false [], .analogueSample 0 2 0 0 false [],
     .sincosTrimCalibration 0 2 ⟨0, 0, 0, 0, 0⟩, .serialRead 0 4 false, .serialWord 0 4 0 [],
     .serialWord 0 0 18446744073709551616 [], .serialTimeout 0 4, .standstill 0 14,
     .copyLengthWrite 0 14 ⟨.can, 0, 1, 0⟩, .copyLengthWrite 0 0 ⟨.can, 0, 1, 256⟩,
     .softLimitWrite 0 14 false ⟨.can, 0, 1, 0⟩, .softLimitWrite 0 0 false ⟨.can, 0, 1, 256⟩,
     .positionPreset 0 14 ⟨.can, 0, 1, 0⟩, .positionPreset 0 0 ⟨.can, 0, 1, 256⟩,
     .channelTypeWrite 0 14 ⟨.can, 0, 1, 0⟩, .channelTypeWrite 0 0 ⟨.can, 0, 1, 256⟩,
     .countingModeWrite 0 14 ⟨.can, 0, 1, 0⟩, .countingModeWrite 0 0 ⟨.can, 0, 1, 256⟩,
     .masterChannelWrite 0 ⟨.can, 0, 1, 256⟩, .compareValueWrite 0 32 ⟨.can, 0, 1, 0⟩,
     .compareValueWrite 0 0 ⟨.can, 0, 1, 256⟩, .compareChannelWrite 0 32 ⟨.can, 0, 1, 0⟩,
     .compareChannelWrite 0 0 ⟨.can, 0, 1, 256⟩, .compareFiredClear 0 ⟨.can, 0, 1, 256⟩, .comparePulseEnd 0 4,
     .emulationEdge 0 4] : List Instr).all fun i => !i.wf) = true := by
  decide

/-- Each of these commands breaks one check of `Instr.wf`, which refuses it. -/
theorem test_ill_formed_3 :
    (([.webPositionLatch 0 (.core 8), .webPositionLatch 0 (.session 8), .ingestData 0 ⟨3, 0, 0⟩ [],
     .ingestData 0 ⟨0, 4294967296, 0⟩ [], .ingestData 0 ⟨0, 0, 65536⟩ [], .ingestData 0 ⟨0, 0, 0⟩ [256],
     .nackDelay 0 128, .nackRetry 0 128, .flowIdleTimeout 0 128, .refetchResend 0 4294967296,
     .refetchDeadline 0 4294967296, .jobDelete 0 ⟨.can, 0, 1, 256⟩, .stripDecodeStart 0 32 0 0,
     .stripDecodeStart 0 0 4294967296 0, .stripDecodeStart 0 0 0 4294967296, .stripDecodeEnd 0 32,
     .decodeResume 0 32, .inputSpoolResume 0 32 ⟨.can, 0, 1, 0⟩, .inputSpoolResume 0 0 ⟨.can, 0, 1, 256⟩,
     .encodeCommand 0 4 ⟨.can, 0, 1, 0⟩, .encodeCommand 0 0 ⟨.can, 0, 1, 256⟩, .encodeDone 0 4,
     .flushRequest 0 4 ⟨.can, 0, 1, 0⟩, .flushRequest 0 0 ⟨.can, 0, 1, 256⟩, .flushDone 0 4,
     .spoolResume 0 4 ⟨.can, 0, 1, 0⟩, .spoolResume 0 0 ⟨.can, 0, 1, 256⟩, .composeLine 0 8 0 [],
     .layerCommit 0 8 ⟨.can, 0, 1, 0⟩, .layerCommit 0 0 ⟨.can, 0, 1, 256⟩, .layerEmptyCommit 0 8 ⟨.can, 0, 1, 0⟩,
     .layerEmptyCommit 0 0 ⟨.can, 0, 1, 256⟩, .fenceReached 0 8 ⟨.can, 0, 1, 0⟩,
     .fenceReached 0 0 ⟨.can, 0, 1, 256⟩, .protectedLoad 0 ⟨.can, 0, 1, 256⟩, .decideDropLine 0 8 [],
     .missingNozzleMark 0 ⟨.can, 0, 1, 256⟩, .missingNozzleClear 0 ⟨.can, 0, 1, 256⟩,
     .bankCopyRequest 0 ⟨.can, 0, 1, 256⟩, .bankCommit 0 ⟨.can, 0, 1, 256⟩] : List Instr).all fun i => !i.wf) = true := by
  decide

/-- Each of these commands breaks one check of `Instr.wf`, which refuses it. -/
theorem test_ill_formed_4 :
    (([.bankCommitCancel 0 ⟨.can, 0, 1, 256⟩, .screenArrayLoad 0 ⟨.can, 0, 1, 256⟩,
     .screenArrayRelease 0 ⟨.can, 0, 1, 256⟩, .telemetryTimeout 0 16 0, .telemetryTimeout 0 0 12,
     .headRecovered 0 16 0, .headRecovered 0 0 12, .wavePushRequest 0 ⟨.can, 0, 1, 256⟩, .waveAck 0 16 0 [],
     .waveAck 0 0 12 [], .waveAck 0 0 0 [256], .waveAckTimeout 0 16 0, .waveAckTimeout 0 0 12,
     .wavePushCancel 0 ⟨.can, 0, 1, 256⟩, .waveBankSwitch 0 8 ⟨.can, 0, 1, 0⟩,
     .waveBankSwitch 0 0 ⟨.can, 0, 1, 256⟩, .serviceSpit 0 ⟨.can, 0, 1, 256⟩, .servicePurge 0 ⟨.can, 0, 1, 256⟩,
     .serviceLadder 0 ⟨.can, 0, 1, 256⟩, .serviceCancel 0 ⟨.can, 0, 1, 256⟩,
     .tempCurveWrite 0 16 0 ⟨.can, 0, 1, 0⟩, .tempCurveWrite 0 0 12 ⟨.can, 0, 1, 0⟩,
     .tempCurveWrite 0 0 0 ⟨.can, 0, 1, 256⟩, .statusRecord 0 16 [], .statusRecord 0 0 [256],
     .bankReport 0 16 0 [], .bankReport 0 0 16 [], .bankReport 0 0 0 [256], .lateRecord 0 16 0 [],
     .lateRecord 0 0 16 [], .lateRecord 0 0 0 [256], .rejectedRecord 0 16 0 [], .rejectedRecord 0 0 16 [],
     .rejectedRecord 0 0 0 [256], .nozzleFlag 0 16 0 [], .nozzleFlag 0 0 16 [], .nozzleFlag 0 0 0 [256],
     .cfgReply 0 16 0 [], .cfgReply 0 0 16 [], .cfgReply 0 0 0 [256]] : List Instr).all fun i => !i.wf) = true := by
  decide

/-- Each of these commands breaks one check of `Instr.wf`, which refuses it. -/
theorem test_ill_formed_5 :
    (([.syncEcho 0 16 [] 0, .syncEcho 0 0 [256] 0, .returnPacketRejected 0 16 0, .markerLock 0 16 0,
     .markerLock 0 0 256, .linkUpTimeout 0 16, .trainingBlockReceived 0 16 0 0, .linkLoss 0 16 0,
     .linkRestart 0 16 ⟨.can, 0, 1, 0⟩, .linkRestart 0 0 ⟨.can, 0, 1, 256⟩,
     .linkVersionLimitWrite 0 16 ⟨.can, 0, 1, 0⟩, .linkVersionLimitWrite 0 0 ⟨.can, 0, 1, 256⟩,
     .prbsModeOn 0 16 ⟨.can, 0, 1, 0⟩, .prbsModeOn 0 0 ⟨.can, 0, 1, 256⟩, .prbsModeOff 0 16 0 ⟨.can, 0, 1, 0⟩,
     .prbsModeOff 0 0 8 ⟨.can, 0, 1, 0⟩, .prbsModeOff 0 0 0 ⟨.can, 0, 1, 256⟩, .amPeriod 0 16 0,
     .headCfgRequest 0 16 ⟨.can, 0, 1, 0⟩, .headCfgRequest 0 0 ⟨.can, 0, 1, 256⟩, .cfgTimeout 0 16,
     .recalibrationRequest 0 ⟨.can, 0, 1, 256⟩, .recalibrationStep 0 16 0, .csiPacket 0 8 ⟨0, 0, 0, [], true, 0⟩,
     .frameEnd 0 8, .frameTimeout 0 8, .lineStage 0 8, .frameStageTake 0 8, .portCommit 0 8 ⟨.can, 0, 1, 0⟩,
     .portCommit 0 0 ⟨.can, 0, 1, 256⟩, .coefficientCommit 0 8 ⟨.can, 0, 1, 0⟩,
     .coefficientCommit 0 0 ⟨.can, 0, 1, 256⟩, .cciRequest 0 8 ⟨.can, 0, 1, 0⟩, .cciRequest 0 0 ⟨.can, 0, 1, 256⟩,
     .cciDone 0 8 0 [], .cciDone 0 0 256 [], .cciDone 0 0 0 [256], .flatFieldCaptureRequest 0 ⟨.can, 0, 1, 256⟩,
     .flatFieldCapture 0 8, .darkCapture 0 8] : List Instr).all fun i => !i.wf) = true := by
  decide

/-- Each of these commands breaks one check of `Instr.wf`, which refuses it. -/
theorem test_ill_formed_6 :
    (([.portRestart 0 8 ⟨.can, 0, 1, 0⟩, .portRestart 0 0 ⟨.can, 0, 1, 256⟩, .pulseEnd 0 16 0 0 false 0 0 0,
     .stageCurrentFault 0 16, .illuminationCommit 0 ⟨.can, 0, 1, 256⟩, .illuminationRestart 0 ⟨.can, 0, 1, 256⟩,
     .zoneCaptureRequest 0 ⟨.can, 0, 1, 256⟩, .overlapCalibrationRequest 0 ⟨.can, 0, 1, 256⟩,
     .substitutionCalibrationRequest 0 ⟨.can, 0, 1, 256⟩, .dramAccess 0 4 [] ⟨[], []⟩,
     .accessError 0 (.core 0) 1099511627776 false, .deviceMarkClear 0 4 ⟨.can, 0, 1, 0⟩,
     .deviceMarkClear 0 0 ⟨.can, 0, 1, 256⟩, .alertN 0 4 false, .refreshInterval 0 4 [], .pageIdleTimer 0 4,
     .fullTraining 0 4 0 ⟨[], [], true⟩ ⟨[], [], true⟩ false, .trackingStep 0 4 0,
     .retrainRequest 0 ⟨.can, 0, 1, 256⟩, .ringAreaSizeWrite 0 ⟨.can, 0, 1, 256⟩,
     .channelStart 0 16 ⟨.can, 0, 1, 0⟩, .channelStart 0 0 ⟨.can, 0, 1, 256⟩, .move 0 16, .fill 0 16,
     .compare 0 16, .loop 0 16, .endloop 0 16, .wait 0 16, .waitEnd 0 16, .waitTimeout 0 16, .signal 0 16,
     .stop 0 16, .channelStop 0 16 ⟨.can, 0, 1, 0⟩, .channelStop 0 0 ⟨.can, 0, 1, 256⟩, .dmaTimer 0 4,
     .softRequestWrite 0 ⟨.can, 0, 1, 256⟩, .ethernetFrame 0 3 [] [] 0 0, .ethernetFrame 0 0 [256] [] 0 0,
     .arpRequest 0 3 0 0 0, .arpRequest 0 0 281474976710656 0 0] : List Instr).all fun i => !i.wf) = true := by
  decide

/-- Each of these commands breaks one check of `Instr.wf`, which refuses it. -/
theorem test_ill_formed_7 :
    (([.arpRequest 0 0 0 4294967296 0, .arpRequest 0 0 0 0 4294967296, .icmpEcho 0 3 0 0 0 0 [] false,
     .icmpEcho 0 0 0 4294967296 0 0 [] false, .icmpEcho 0 0 0 0 65536 0 [] false,
     .icmpEcho 0 0 0 0 0 0 [256] false, .portLinkChange 0 3 false, .addressChange 0 65536 0 ⟨.can, 0, 1, 0⟩,
     .addressChange 0 0 3 ⟨.can, 0, 1, 0⟩, .addressChange 0 0 0 ⟨.can, 0, 1, 256⟩,
     .tetherHello 0 ⟨3, 0, 0⟩ 0 0 0 [] 0 false, .tetherHello 0 ⟨0, 4294967296, 0⟩ 0 0 0 [] 0 false,
     .tetherHello 0 ⟨0, 0, 65536⟩ 0 0 0 [] 0 false, .tetherHello 0 ⟨0, 0, 0⟩ 256 0 0 [] 0 false,
     .tetherHello 0 ⟨0, 0, 0⟩ 0 256 0 [] 0 false, .tetherHello 0 ⟨0, 0, 0⟩ 0 0 256 [] 0 false,
     .tetherHello 0 ⟨0, 0, 0⟩ 0 0 0 [256] 0 false, .tetherHello 0 ⟨0, 0, 0⟩ 0 0 0 [] 65536 false,
     .tetherOpen 0 ⟨3, 0, 0⟩ [], .tetherOpen 0 ⟨0, 4294967296, 0⟩ [], .tetherOpen 0 ⟨0, 0, 65536⟩ [],
     .tetherOpen 0 ⟨0, 0, 0⟩ [256], .tetherRequest 0 ⟨3, 0, 0⟩ [], .tetherRequest 0 ⟨0, 4294967296, 0⟩ [],
     .tetherRequest 0 ⟨0, 0, 65536⟩ [], .tetherRequest 0 ⟨0, 0, 0⟩ [256], .tetherNotifyAck 0 ⟨3, 0, 0⟩ [],
     .tetherNotifyAck 0 ⟨0, 4294967296, 0⟩ [], .tetherNotifyAck 0 ⟨0, 0, 65536⟩ [],
     .tetherNotifyAck 0 ⟨0, 0, 0⟩ [256], .notifyRetry 0 8, .tetherKeepAlive 0 ⟨3, 0, 0⟩ [],
     .tetherKeepAlive 0 ⟨0, 4294967296, 0⟩ [], .tetherKeepAlive 0 ⟨0, 0, 65536⟩ [],
     .tetherKeepAlive 0 ⟨0, 0, 0⟩ [256], .tetherClose 0 ⟨3, 0, 0⟩ [], .tetherClose 0 ⟨0, 4294967296, 0⟩ [],
     .tetherClose 0 ⟨0, 0, 65536⟩ [], .tetherClose 0 ⟨0, 0, 0⟩ [256], .sessionTimeout 0 8] : List Instr).all fun i => !i.wf) = true := by
  decide

/-- Each of these commands breaks one check of `Instr.wf`, which refuses it. -/
theorem test_ill_formed_8 :
    (([.canRecover 0 ⟨.can, 0, 1, 256⟩, .ptpSync 0 3 0 0 0 0 0, .ptpSync 0 0 256 0 0 0 0, .ptpAnnounce 0 3 0 0 0 [],
     .ptpAnnounce 0 0 256 0 0 [], .ptpAnnounce 0 0 0 0 0 [256], .ptpDelayMessage 0 3 0 false 0 0 0,
     .ptpDelayMessage 0 0 256 false 0 0 0, .thermalTrimReference 0 ⟨.can, 0, 1, 256⟩,
     .faultLogSave 0 ⟨.can, 0, 1, 256⟩, .calibrationRecordSave 0 ⟨.can, 0, 1, 256⟩,
     .heartbeatReceived 0 false [256], .mirrorFrame 0 [256], .lifecycleAdvance 0 ⟨.can, 0, 1, 256⟩,
     .keyInstall 0 ⟨.can, 0, 1, 256⟩, .keyRevoke 0 ⟨.can, 0, 1, 256⟩, .tokenChallenge 0 (.core 8),
     .tokenChallenge 0 (.session 8), .roleToken 0 ⟨.can, 0, 1, 256⟩, .lockoutEnd 0 0, .lockoutEnd 0 3,
     .packageLoadFirmware 0 ⟨.can, 0, 1, 256⟩, .packageLoadDebugGrant 0 ⟨.can, 0, 1, 256⟩,
     .packageLoadLifecycle 0 ⟨.can, 0, 1, 256⟩, .securityVersionCommit 0 ⟨.can, 0, 1, 256⟩,
     .debugLevelRequest 0 ⟨.can, 0, 1, 256⟩, .performanceCountersRead 0 (.core 8),
     .performanceCountersRead 0 (.session 8), .returnClockValid 0 16, .alertNDeasserted 0 4 0,
     .timeNowLatch 0 (.core 8), .timeNowLatch 0 (.session 8), .dmaTimerWidthEnd 0 4] : List Instr).all fun i => !i.wf) = true := by
  decide

/-- The same commands with that operand in its range are well formed. -/
theorem test_well_formed_1 :
    (([.supplyMonitorTrip 0 1, .islandReady 0 1, .warmResetRequest 0 ⟨.can, 0, 1, 0⟩,
     .islandResetRequest 0 ⟨.can, 0, 1, 0⟩, .powerConditionRequest 0 ⟨.can, 0, 1, 0⟩,
     .modeRequest 0 ⟨.can, 0, 1, 0⟩, .orderlyStopRequest 0 ⟨.can, 0, 1, 0⟩, .functionDisable 0 1 ⟨.can, 0, 1, 0⟩,
     .functionEnable 0 1 ⟨.can, 0, 1, 0⟩, .functionDrainComplete 0 1 0, .linkInkWrite 0 0 ⟨.can, 0, 1, 0⟩,
     .slackPeriodEnd 0 1, .slackSlotGrant 0 0 0 false, .throttlePauseEnd 0 1,
     .dictionaryWrite 0 0 0 ⟨.can, 0, 1, 0⟩, .stringStagingStore 0 0 0 0, .eventPendingClear 0 0 ⟨.can, 0, 1, 0⟩,
     .eventMaskWrite 0 0 ⟨.can, 0, 1, 0⟩, .eventRouteWrite 0 0 ⟨.can, 0, 1, 0⟩,
     .eventCountClear 0 0 ⟨.can, 0, 1, 0⟩, .storeParameters 0 ⟨.can, 0, 1, 0⟩, .restoreDefaults 0 ⟨.can, 0, 1, 0⟩,
     .errorFieldCountClear 0 ⟨.can, 0, 1, 0⟩, .rpdoReceived 0 0 [], .tpdoEventTimer 0 0, .tpdoTransmit 0 0,
     .consumerHeartbeatTimeout 0 0, .nmtStart 0 0, .nmtStop 0 0, .nmtEnterPreOperational 0 0,
     .nmtResetCommunication 0 0, .nmtResetNode 0 0, .inputEdge 0 0 false false [],
     .analogueSample 0 0 0 0 false [], .sincosTrimCalibration 0 0 ⟨0, 0, 0, 0, 0⟩, .serialRead 0 0 false,
     .serialWord 0 0 0 [], .serialTimeout 0 0, .standstill 0 0, .copyLengthWrite 0 0 ⟨.can, 0, 1, 0⟩] : List Instr).all fun i => i.wf) = true := by
  decide

/-- The same commands with that operand in its range are well formed. -/
theorem test_well_formed_2 :
    (([.softLimitWrite 0 0 false ⟨.can, 0, 1, 0⟩, .positionPreset 0 0 ⟨.can, 0, 1, 0⟩,
     .channelTypeWrite 0 0 ⟨.can, 0, 1, 0⟩, .countingModeWrite 0 0 ⟨.can, 0, 1, 0⟩,
     .masterChannelWrite 0 ⟨.can, 0, 1, 0⟩, .compareValueWrite 0 0 ⟨.can, 0, 1, 0⟩,
     .compareChannelWrite 0 0 ⟨.can, 0, 1, 0⟩, .compareFiredClear 0 ⟨.can, 0, 1, 0⟩, .comparePulseEnd 0 0,
     .emulationEdge 0 0, .webPositionLatch 0 .can, .ingestData 0 ⟨0, 0, 0⟩ [], .nackDelay 0 0, .nackRetry 0 0,
     .flowIdleTimeout 0 0, .refetchResend 0 0, .refetchDeadline 0 0, .jobDelete 0 ⟨.can, 0, 1, 0⟩,
     .stripDecodeStart 0 0 0 0, .stripDecodeEnd 0 0, .decodeResume 0 0, .inputSpoolResume 0 0 ⟨.can, 0, 1, 0⟩,
     .encodeCommand 0 0 ⟨.can, 0, 1, 0⟩, .encodeDone 0 0, .flushRequest 0 0 ⟨.can, 0, 1, 0⟩, .flushDone 0 0,
     .spoolResume 0 0 ⟨.can, 0, 1, 0⟩, .composeLine 0 0 0 [], .layerCommit 0 0 ⟨.can, 0, 1, 0⟩,
     .layerEmptyCommit 0 0 ⟨.can, 0, 1, 0⟩, .fenceReached 0 0 ⟨.can, 0, 1, 0⟩, .protectedLoad 0 ⟨.can, 0, 1, 0⟩,
     .decideDropLine 0 0 [], .missingNozzleMark 0 ⟨.can, 0, 1, 0⟩, .missingNozzleClear 0 ⟨.can, 0, 1, 0⟩,
     .bankCopyRequest 0 ⟨.can, 0, 1, 0⟩, .bankCommit 0 ⟨.can, 0, 1, 0⟩, .bankCommitCancel 0 ⟨.can, 0, 1, 0⟩,
     .screenArrayLoad 0 ⟨.can, 0, 1, 0⟩, .screenArrayRelease 0 ⟨.can, 0, 1, 0⟩] : List Instr).all fun i => i.wf) = true := by
  decide

/-- The same commands with that operand in its range are well formed. -/
theorem test_well_formed_3 :
    (([.telemetryTimeout 0 0 0, .headRecovered 0 0 0, .wavePushRequest 0 ⟨.can, 0, 1, 0⟩, .waveAck 0 0 0 [],
     .waveAckTimeout 0 0 0, .wavePushCancel 0 ⟨.can, 0, 1, 0⟩, .waveBankSwitch 0 0 ⟨.can, 0, 1, 0⟩,
     .serviceSpit 0 ⟨.can, 0, 1, 0⟩, .servicePurge 0 ⟨.can, 0, 1, 0⟩, .serviceLadder 0 ⟨.can, 0, 1, 0⟩,
     .serviceCancel 0 ⟨.can, 0, 1, 0⟩, .tempCurveWrite 0 0 0 ⟨.can, 0, 1, 0⟩, .statusRecord 0 0 [],
     .bankReport 0 0 0 [], .lateRecord 0 0 0 [], .rejectedRecord 0 0 0 [], .nozzleFlag 0 0 0 [],
     .cfgReply 0 0 0 [], .syncEcho 0 0 [] 0, .returnPacketRejected 0 0 0, .markerLock 0 0 0, .linkUpTimeout 0 0,
     .trainingBlockReceived 0 0 0 0, .linkLoss 0 0 0, .linkRestart 0 0 ⟨.can, 0, 1, 0⟩,
     .linkVersionLimitWrite 0 0 ⟨.can, 0, 1, 0⟩, .prbsModeOn 0 0 ⟨.can, 0, 1, 0⟩,
     .prbsModeOff 0 0 0 ⟨.can, 0, 1, 0⟩, .amPeriod 0 0 0, .headCfgRequest 0 0 ⟨.can, 0, 1, 0⟩, .cfgTimeout 0 0,
     .recalibrationRequest 0 ⟨.can, 0, 1, 0⟩, .recalibrationStep 0 0 0, .csiPacket 0 0 ⟨0, 0, 0, [], true, 0⟩,
     .frameEnd 0 0, .frameTimeout 0 0, .lineStage 0 0, .frameStageTake 0 0, .portCommit 0 0 ⟨.can, 0, 1, 0⟩,
     .coefficientCommit 0 0 ⟨.can, 0, 1, 0⟩] : List Instr).all fun i => i.wf) = true := by
  decide

/-- The same commands with that operand in its range are well formed. -/
theorem test_well_formed_4 :
    (([.cciRequest 0 0 ⟨.can, 0, 1, 0⟩, .cciDone 0 0 0 [], .flatFieldCaptureRequest 0 ⟨.can, 0, 1, 0⟩,
     .flatFieldCapture 0 0, .darkCapture 0 0, .portRestart 0 0 ⟨.can, 0, 1, 0⟩, .pulseEnd 0 0 0 0 false 0 0 0,
     .stageCurrentFault 0 0, .illuminationCommit 0 ⟨.can, 0, 1, 0⟩, .illuminationRestart 0 ⟨.can, 0, 1, 0⟩,
     .zoneCaptureRequest 0 ⟨.can, 0, 1, 0⟩, .overlapCalibrationRequest 0 ⟨.can, 0, 1, 0⟩,
     .substitutionCalibrationRequest 0 ⟨.can, 0, 1, 0⟩, .dramAccess 0 0 [] ⟨[], []⟩,
     .accessError 0 (.core 0) 0 false, .deviceMarkClear 0 0 ⟨.can, 0, 1, 0⟩, .alertN 0 0 false,
     .refreshInterval 0 0 [], .pageIdleTimer 0 0, .fullTraining 0 0 0 ⟨[], [], true⟩ ⟨[], [], true⟩ false,
     .trackingStep 0 0 0, .retrainRequest 0 ⟨.can, 0, 1, 0⟩, .ringAreaSizeWrite 0 ⟨.can, 0, 1, 0⟩,
     .channelStart 0 0 ⟨.can, 0, 1, 0⟩, .move 0 0, .fill 0 0, .compare 0 0, .loop 0 0, .endloop 0 0, .wait 0 0,
     .waitEnd 0 0, .waitTimeout 0 0, .signal 0 0, .stop 0 0, .channelStop 0 0 ⟨.can, 0, 1, 0⟩, .dmaTimer 0 0,
     .softRequestWrite 0 ⟨.can, 0, 1, 0⟩, .ethernetFrame 0 0 [] [] 0 0, .arpRequest 0 0 0 0 0,
     .icmpEcho 0 0 0 0 0 0 [] false] : List Instr).all fun i => i.wf) = true := by
  decide

/-- The same commands with that operand in its range are well formed. -/
theorem test_well_formed_5 :
    (([.portLinkChange 0 0 false, .addressChange 0 0 0 ⟨.can, 0, 1, 0⟩, .tetherHello 0 ⟨0, 0, 0⟩ 0 0 0 [] 0 false,
     .tetherOpen 0 ⟨0, 0, 0⟩ [], .tetherRequest 0 ⟨0, 0, 0⟩ [], .tetherNotifyAck 0 ⟨0, 0, 0⟩ [], .notifyRetry 0 0,
     .tetherKeepAlive 0 ⟨0, 0, 0⟩ [], .tetherClose 0 ⟨0, 0, 0⟩ [], .sessionTimeout 0 0,
     .canRecover 0 ⟨.can, 0, 1, 0⟩, .ptpSync 0 0 0 0 0 0 0, .ptpAnnounce 0 0 0 0 0 [],
     .ptpDelayMessage 0 0 0 false 0 0 0, .thermalTrimReference 0 ⟨.can, 0, 1, 0⟩, .faultLogSave 0 ⟨.can, 0, 1, 0⟩,
     .calibrationRecordSave 0 ⟨.can, 0, 1, 0⟩, .heartbeatReceived 0 false [], .mirrorFrame 0 [],
     .lifecycleAdvance 0 ⟨.can, 0, 1, 0⟩, .keyInstall 0 ⟨.can, 0, 1, 0⟩, .keyRevoke 0 ⟨.can, 0, 1, 0⟩,
     .tokenChallenge 0 .can, .roleToken 0 ⟨.can, 0, 1, 0⟩, .lockoutEnd 0 1, .packageLoadFirmware 0 ⟨.can, 0, 1, 0⟩,
     .packageLoadDebugGrant 0 ⟨.can, 0, 1, 0⟩, .packageLoadLifecycle 0 ⟨.can, 0, 1, 0⟩,
     .securityVersionCommit 0 ⟨.can, 0, 1, 0⟩, .debugLevelRequest 0 ⟨.can, 0, 1, 0⟩,
     .performanceCountersRead 0 .can, .returnClockValid 0 0, .alertNDeasserted 0 0 0, .timeNowLatch 0 .can,
     .dmaTimerWidthEnd 0 0] : List Instr).all fun i => i.wf) = true := by
  decide

/-! ### The dictionary, the events, the window and the step -/

/-- Before the dictionary is ready it refuses every write. -/
theorem test_refused_write : ∀ idx sub : Nat, checkWrite (State.reset.begun 5) idx sub ⟨.can, 0, 1, 0⟩ ≠ 0 := by
  intro idx sub
  have h : (State.reset.begun 5).reachable = false := by decide
  simp [checkWrite, h]

/-- A gate that a core passes and a client of CAN does not: the write of ModeRequest alone is refused. -/
theorem test_refused_gate : checkWrite ((lab []).begun 5) 0x2300 1 ⟨.can, 0, 1, 0⟩ = abGate
    ∧ checkWrite ((lab []).begun 5) 0x2300 1 ⟨.core 0, 0, 1, 0⟩ = 0 := by decide +kernel

/-- MasterChannel takes 0 to 13, and 14 lies outside its range. -/
theorem test_out_of_range : ∃ (b : State) (idx sub : Nat) (w : Wr) (e : Entry),
    b.entry idx sub = some e ∧ b.reachable = true ∧ b.health.shuttingDown = false ∧ b.served idx = true
    ∧ (e.acc = .rw ∨ e.acc = .wo) ∧ e.gate.admits (b.role w.path) (b.reg K.LifecycleState) = true
    ∧ lengthFits e.ty w = true ∧ surplusFits e.ty w = true
    ∧ (e.ty.encodes (valueOf e.ty w) = false ∨ e.rng.admits e.ty (valueOf e.ty w) = false) :=
  ⟨lab [], 0x2300, 1, ⟨.core 0, 0, 1, 200⟩, _, rfl, by decide +kernel, by decide +kernel, by decide +kernel,
    Or.inl (by decide +kernel), by decide +kernel, by decide +kernel, by decide +kernel, Or.inr (by decide +kernel)⟩

/-- A BOOLEAN holds 0 or 1, and 2 lies outside its encoding. -/
theorem test_out_of_encoding : ∃ (b : State) (idx sub : Nat) (w : Wr) (e : Entry),
    b.entry idx sub = some e ∧ checkWrite b idx sub { w with val := 1 } = 0 ∧ e.ty.encodes (valueOf e.ty w) = false :=
  ⟨lab [], 0x2E30, 11, ⟨.core 0, 0, 1, 2⟩, _, rfl, by decide +kernel, by decide +kernel⟩

/-- A counter is asked to take 1, and a route a reserved bit. -/
theorem test_events_kept : ∃ (b : State) (n : Nat) (w : Wr), b.inv = true ∧ n < 256
    ∧ b.takes 0x2120 (n + 1) w w.val ∧ b.takes 0x2110 (n + 1) w w.val ∧ w.val ≠ 0 ∧ w.val &&& 0x00FF0703 ≠ w.val :=
  ⟨lab [], 5, ⟨.core 0, 0, 4, 0x80⟩, by decide +kernel, by decide, ⟨_, rfl, by decide +kernel, rfl⟩,
    ⟨_, rfl, by decide +kernel, rfl⟩, by decide, by decide⟩

/-- A reserved event, whose route takes 0 alone. -/
theorem test_events_reserved : ∃ (b : State) (n : Nat) (w : Wr), b.inv = true ∧ reservedEvent n = true
    ∧ b.takes 0x2111 (n - 127) w w.val ∧ w.val = 1 :=
  ⟨lab [], 247, ⟨.core 0, 0, 4, 1⟩, by decide +kernel, by decide +kernel, ⟨_, rfl, by decide +kernel, rfl⟩, rfl⟩

/-- An event routed to a line of a core, pending and unmasked, asserts the line. -/
theorem test_line_asserted : ∃ s : State, s.sys.dictReady = true ∧ s.lineAsserted 2 3 = true :=
  ⟨{ lab [] with ev := { State.reset.ev with pending := 1#256 <<< 5, routes := [(5, 0x00040300)] } }, by decide +kernel,
    by decide +kernel⟩

/-- A write of EventPending and one of EventMask that the dictionary admits. -/
theorem test_line_writes : ∃ (b : State) (sub : Nat) (w : Wr), b.takes 0x2100 sub w w.val ∧ b.takes 0x2101 sub w w.val :=
  ⟨lab [], 1, ⟨.core 0, 0, 4, 32⟩, ⟨_, rfl, by decide +kernel, rfl⟩, ⟨_, rfl, by decide +kernel, rfl⟩⟩

/-- The two reads of R67's own example: an INTEGER16 that holds −2, an UNSIGNED16 that holds 0xFFFE. -/
theorem test_window_widened :
    (lab [(K.DieTemperature, 0xFFFE)]).windowRead 0 0x2F00 1 8 = 0xFFFFFFFFFFFFFFFE
    ∧ (lab [(K.WarmResetCount, 0xFFFE)]).windowRead 0 (K.WarmResetCount / 256) (K.WarmResetCount % 256) 8
      = 0x000000000000FFFE := by decide +kernel

/-- The entries of that example are there and may be read. -/
theorem test_window_read : ∃ (s : State) (e f : Entry), s.entry 0x2F00 1 = some e ∧ checkRead s 0x2F00 1 = 0 ∧ e.ty = .i 2
    ∧ s.view (.core 0) 0x2F00 1 = 0xFFFE ∧ s.entry 0x2500 3 = some f ∧ checkRead s 0x2500 3 = 0 ∧ f.ty.bytes ≤ 8 :=
  ⟨lab [(K.DieTemperature, 0xFFFE)], _, _, rfl, by decide +kernel, rfl, by decide +kernel, rfl, by decide +kernel,
    by decide +kernel⟩

/-- The last slot of the window and its last byte. -/
theorem test_window_ends : windowAddr 0x5FFF 255 = 0x427FFFF8 ∧ windowPlace 0x427FFFFF = (0x5FFF, 255, 7)
    ∧ windowPlace 0x40000000 = (0x1000, 0, 0) := by decide

/-- A write that the dictionary admits of a core, and a read that it admits. -/
theorem test_gate_passed : checkWrite (lab []) 0x2300 1 ⟨.core 0, 0, 1, 0⟩ = 0 ∧ checkRead (lab []) 0x2300 1 = 0 := by
  decide +kernel

/-- Gate P at its last lifecycle state, and gate V beyond it. -/
theorem test_gate_ends : Gate.p.admits 1 1 = true ∧ Gate.p.admits 1 2 = false ∧ Gate.v.admits 2 3 = true
    ∧ Gate.o.admits 2 3 = false := by decide

/-- A state that meets both invariants with a command waiting, which its step takes; a revoked key in it. -/
theorem test_step_front : ∃ (c : Instr) (rest : List Instr) (s u : State), c.wf = true ∧ s.inv = true ∧ s.shape = true
    ∧ s.pending = c :: rest ∧ step s = .next u ∧ keySlots.contains 0x11 = true ∧ bit (s.keyStatus 0x11) 7 = true :=
  ⟨.zqCalibration 5, [.claimSend 6],
    { lab [(K.ModeActual, 1), (keyStatusKey 0x11, 0xC1)] with pending := [.zqCalibration 5, .claimSend 6] }, _,
    by decide +kernel, by decide +kernel, by decide +kernel, rfl, rfl, by decide +kernel, by decide +kernel⟩

/-- An empty queue. -/
theorem test_step_idle : State.reset.pending = [] ∧ step State.reset = .next State.reset := ⟨rfl, rfl⟩

/-! ### Hypotheses that are met: Power-on resets -/

theorem test_powerOnReset : ∃ (t : Nat) (cold : Bool) (s : State),
  (fun b => b.health.hardLatch = false ∨ cold = true) (s.begun t) :=
  ⟨5, true, lab [], Or.inr rfl⟩

theorem test_supplyMonitorTrip : ∃ (t group : Nat) (s : State),
  (1 ≤ group) ∧ (group ≤ 5) ∧ (fun b => b.islandReady islAON = true ∧ (b.sys.deep = true → group = 1)) (s.begun t) :=
  ⟨5, 2, lab [], by decide +kernel, by decide +kernel, ⟨by decide +kernel, by decide +kernel⟩⟩


/-! ### Hypotheses that are met: Bring-up -/

theorem test_islandReady : ∃ (t isl : Nat) (s : State),
  (1 ≤ isl) ∧ (isl ≤ 12) ∧ (fun b => b.inv = true ∧ b.islandReady isl = false ∧ b.sys.releaseAt ≤ b.now
        ∧ (isl = islAON ∨ (b.islandReady islAON = true ∧ b.sys.deep = false ∧ b.thermalHold = false))) (s.begun t) :=
  ⟨5, 3, { lab [] with dict := [(K.IslandReady, 1)] }, by decide +kernel, by decide +kernel, ⟨by decide +kernel, by decide +kernel, by decide +kernel, by decide +kernel⟩⟩

theorem test_firmwareVerified : ∃ (t : Nat) (vendor slotA slotB : Image) (s : State),
  (fun b => b.inv = true ∧ b.islandReady islCTL = true ∧ b.sys.verified = false) (s.begun t) :=
  ⟨5, ⟨true, true, 1, 0x40, 0, 0, true, true⟩, ⟨true, true, 1, 0x40, 0, 0, true, true⟩, ⟨true, true, 1, 0x40, 0, 0, true, true⟩, { lab [] with sys := { (lab []).sys with verified := false } }, ⟨by decide +kernel, by decide +kernel, by decide +kernel⟩⟩

theorem test_dictionaryReady : ∃ (t : Nat) (s : State),
  (fun b => b.inv = true ∧ b.sys.verified = true ∧ b.sys.dictReady = false ∧ b.islandReady islCTL = true) (s.begun t) :=
  ⟨5, { lab [] with sys := { (lab []).sys with dictReady := false } }, ⟨by decide +kernel, by decide +kernel, by decide +kernel, by decide +kernel⟩⟩

theorem test_canBootUp : ∃ (t : Nat) (s : State),
  (fun b => b.reachable = true ∧ b.islandReady islNET = true ∧ b.can.booted = false) (s.begun t) :=
  ⟨5, { lab [] with can := { (lab []).can with booted := false } }, ⟨by decide +kernel, by decide +kernel, by decide +kernel⟩⟩


/-! ### Hypotheses that are met: Warm resets and island resets -/

theorem test_warmResetRequest : ∃ (t : Nat) (w : Wr) (s : State),
  (w.val = 1) ∧ (fun b => b.inv = true ∧ b.takes 0x2203 1 w 1 ∧ b.health.latchH = false ∧ b.sys.hold = false
        ∧ b.sys.warming = false ∧ b.islandReady islAON = true) (s.begun t) :=
  ⟨5, ⟨.core 0, 0, 1, 1⟩, lab [], by decide +kernel, ⟨by decide +kernel, ⟨_, rfl, by decide +kernel, rfl⟩, by decide +kernel, by decide +kernel, by decide +kernel, by decide +kernel⟩⟩

theorem test_warmrstNLow : ∃ (t width : Nat) (s : State),
  (1000 ≤ width) ∧ (fun b => b.inv = true ∧ b.sys.deep = false ∧ b.health.latchH = false ∧ b.sys.hold = false
        ∧ b.sys.warming = false ∧ b.islandReady islAON = true) (s.begun t) :=
  ⟨5, 1000, lab [], by decide +kernel, ⟨by decide +kernel, by decide +kernel, by decide +kernel, by decide +kernel, by decide +kernel, by decide +kernel⟩⟩

theorem test_watchdogExpired_1 : ∃ (t : Nat) (s : State),
  (fun b => b.inv = true ∧ b.sys.deep = false ∧ b.health.latchH = false ∧ b.sys.hold = false
        ∧ b.sys.warming = false ∧ b.islandReady islAON = true) (s.begun t) :=
  ⟨5, lab [], ⟨by decide +kernel, by decide +kernel, by decide +kernel, by decide +kernel, by decide +kernel, by decide +kernel⟩⟩

theorem test_watchdogExpired_2 : ∃ (t : Nat) (s : State),
  (fun _ => True) (s.begun t) :=
  ⟨5, lab [], trivial⟩

theorem test_islandResetRequest : ∃ (t : Nat) (w : Wr) (s : State),
  (3 ≤ w.val) ∧ (w.val ≤ 12) ∧ (fun b => b.inv = true ∧ b.takes 0x2203 2 w w.val ∧ isPrint b.mode = false) (s.begun t) :=
  ⟨5, ⟨.core 0, 0, 1, 3⟩, lab [], by decide +kernel, by decide +kernel, ⟨by decide +kernel, ⟨_, rfl, by decide +kernel, rfl⟩, by decide +kernel⟩⟩


/-! ### Hypotheses that are met: The power condition Deep -/

theorem test_powerConditionRequest : ∃ (t : Nat) (w : Wr) (s : State),
  (w.val = 1) ∧ (fun b => b.inv = true ∧ b.takes 0x2010 8 w 1 ∧ b.mode = mStandby) (s.begun t) :=
  ⟨5, ⟨.core 0, 0, 1, 1⟩, lab [(K.ModeActual, 0)], by decide +kernel, ⟨by decide +kernel, ⟨_, rfl, by decide +kernel, rfl⟩, by decide +kernel⟩⟩

theorem test_wakeIn_1 : ∃ (t : Nat) (s : State),
  (fun b => b.sys.deep = true ∧ b.sys.wakeAt = none ∧ (b.sys.hold = false ∨ b.health.latchH = true)) (s.begun t) :=
  ⟨5, { lab [] with sys := { (lab []).sys with deep := true } }, ⟨by decide +kernel, by decide +kernel, by decide +kernel⟩⟩

theorem test_wakeIn_2 : ∃ (t : Nat) (s : State),
  (fun b => b.inv = true ∧ b.sys.hold = true ∧ b.health.latchH = false ∧ b.health.hardLatch = false
      ∧ b.cool = true) (s.begun t) :=
  ⟨5, { lab [] with sys := { (lab []).sys with hold := true } }, ⟨by decide +kernel, by decide +kernel, by decide +kernel, by decide +kernel, by decide +kernel⟩⟩

theorem test_cfWakeActivity : ∃ (t : Nat) (s : State),
  (fun b => b.sys.deep = true ∧ b.sys.wakeAt = none) (s.begun t) :=
  ⟨5, { lab [] with sys := { (lab []).sys with deep := true } }, ⟨by decide +kernel, by decide +kernel⟩⟩

theorem test_pgoodMainHigh : ∃ (t : Nat) (s : State),
  (fun b => b.sys.deep = true ∧ b.sys.wakeAt ≠ none) (s.begun t) :=
  ⟨5, { lab [] with sys := { (lab []).sys with deep := true, wakeAt := some 1 } }, ⟨by decide +kernel, by decide +kernel⟩⟩

theorem test_pgoodMainTimeout : ∃ (t t0 : Nat) (s : State),
  (fun b => b.sys.deep = true ∧ b.sys.wakeAt = some t0 ∧ t0 + 100000000 ≤ b.now) (s.begun t) :=
  ⟨100000005, 1, { lab [] with sys := { (lab []).sys with deep := true, wakeAt := some 1 } }, ⟨by decide +kernel, by decide +kernel, by decide +kernel⟩⟩


/-! ### Hypotheses that are met: Modes -/

theorem test_modeRequest_1 : ∃ (t n : Nat) (w : Wr) (s : State),
  (fun b => b.inv = true ∧ b.takes 0x2010 1 w n ∧ b.reg K.ModePending = 0xFF ∧ b.modeRefusal n = 0
        ∧ atBoundary b.mode n = false) (s.begun t) :=
  ⟨5, 2, ⟨.core 0, 0, 1, 2⟩, lab [(K.DramTrained, 1)], ⟨by decide +kernel, ⟨_, rfl, by decide +kernel, rfl⟩, by decide +kernel, by decide +kernel, by decide +kernel⟩⟩

theorem test_modeRequest_2 : ∃ (t n : Nat) (w : Wr) (s : State),
  (fun b => b.takes 0x2010 1 w n ∧ b.reg K.ModePending = 0xFF ∧ b.modeRefusal n = 0
        ∧ atBoundary b.mode n = true) (s.begun t) :=
  ⟨5, 1, ⟨.core 0, 0, 1, 1⟩, lab [(K.ModeActual, 3)], ⟨⟨_, rfl, by decide +kernel, rfl⟩, by decide +kernel, by decide +kernel, by decide +kernel⟩⟩

theorem test_modeRequest_3 : ∃ (t n : Nat) (w : Wr) (s : State),
  (fun b => b.takes 0x2010 1 w n ∧ b.reg K.ModePending = 0xFF ∧ b.modeRefusal n ≠ 0) (s.begun t) :=
  ⟨5, 2, ⟨.core 0, 0, 1, 2⟩, lab [], ⟨⟨_, rfl, by decide +kernel, rfl⟩, by decide +kernel, by decide +kernel⟩⟩

theorem test_modeChangeAtBoundary : ∃ (t : Nat) (s : State),
  (fun b => b.inv = true ∧ b.reg K.ModePending ≠ 0xFF ∧ b.sys.locked = true ∧ b.inTransition = false) (s.begun t) :=
  ⟨5, { lab [(K.ModePending, 2)] with sys := { (lab [(K.ModePending, 2)]).sys with locked := true } }, ⟨by decide +kernel, by decide +kernel, by decide +kernel, by decide +kernel⟩⟩

theorem test_modeTransitionEnd : ∃ (t : Nat) (s : State),
  (fun b => b.inv = true ∧ b.inTransition = true ∧ b.reg K.ModeQueued = 0xFF) (s.begun t) :=
  ⟨5, lab [(K.ModeTransitionActive, 1)], ⟨by decide +kernel, by decide +kernel, by decide +kernel⟩⟩

theorem test_orderlyStopRequest : ∃ (t : Nat) (w : Wr) (s : State),
  (fun b => b.inv = true ∧ b.takes 0x2010 7 w 1 ∧ b.mode ≠ mStandby) (s.begun t) :=
  ⟨5, ⟨.core 0, 0, 1, 1⟩, lab [], ⟨by decide +kernel, ⟨_, rfl, by decide +kernel, rfl⟩, by decide +kernel⟩⟩


/-! ### Hypotheses that are met: Functions, ink assignment and background clients -/

theorem test_functionDisable_1 : ∃ (t f : Nat) (w : Wr) (s : State),
  (1 ≤ f) ∧ (f ≤ 11) ∧ (fun b => b.takes 0x2020 f { w with val := 0 } 0 ∧ (isPrint b.mode && b.onPrintPath f) = false
        ∧ b.reg (K.FunctionStatus + (f - 1)) = 1) (s.begun t) :=
  ⟨5, 3, ⟨.core 0, 0, 1, 0⟩, lab [(K.FunctionStatus + 2, 1)], by decide +kernel, by decide +kernel, ⟨⟨_, rfl, by decide +kernel, rfl⟩, by decide +kernel, by decide +kernel⟩⟩

theorem test_functionDisable_2 : ∃ (t f : Nat) (w : Wr) (s : State),
  (1 ≤ f) ∧ (f ≤ 11) ∧ (fun b => b.takes 0x2020 f { w with val := 0 } 0 ∧ isPrint b.mode = true
      ∧ b.onPrintPath f = true) (s.begun t) :=
  ⟨5, 1, ⟨.core 0, 0, 1, 0⟩, lab [(K.ModeActual, 3)], by decide +kernel, by decide +kernel, ⟨⟨_, rfl, by decide +kernel, rfl⟩, by decide +kernel, by decide +kernel⟩⟩

theorem test_functionEnable : ∃ (t f : Nat) (w : Wr) (s : State),
  (1 ≤ f) ∧ (f ≤ 11) ∧ (fun b => b.inv = true ∧ b.takes 0x2020 f { w with val := 1 } 1
      ∧ b.reg (K.FunctionStatus + (f - 1)) = 0) (s.begun t) :=
  ⟨5, 3, ⟨.core 0, 0, 1, 1⟩, lab [(K.FunctionStatus + 2, 0)], by decide +kernel, by decide +kernel, ⟨by decide +kernel, ⟨_, rfl, by decide +kernel, rfl⟩, by decide +kernel⟩⟩

theorem test_functionDrainComplete : ∃ (t f queued : Nat) (s : State),
  (1 ≤ f) ∧ (f ≤ 11) ∧ (fun b => b.inv = true ∧ b.reg (K.FunctionStatus + (f - 1)) = 2) (s.begun t) :=
  ⟨5, 3, 0, lab [(K.FunctionStatus + 2, 2)], by decide +kernel, by decide +kernel, ⟨by decide +kernel, by decide +kernel⟩⟩

theorem test_linkInkWrite : ∃ (t l v : Nat) (w : Wr) (s : State),
  (l < 16) ∧ (fun b => b.takes 0x2030 (l + 1) w v ∧ b.mode = mReady) (s.begun t) :=
  ⟨5, 2, 7, ⟨.core 0, 0, 1, 7⟩, lab [], by decide +kernel, ⟨⟨_, rfl, by decide +kernel, rfl⟩, by decide +kernel⟩⟩

theorem test_slackPeriodEnd : ∃ (t c : Nat) (s : State),
  (1 ≤ c) ∧ (c ≤ 8) ∧ (fun b => b.sys.slackHad.getD (c - 1) false = false ∧ b.paused c = false
      ∧ isPrint b.mode = true) (s.begun t) :=
  ⟨5, 3, lab [(K.ModeActual, 3)], by decide +kernel, by decide +kernel, ⟨by decide +kernel, by decide +kernel, by decide +kernel⟩⟩

theorem test_slackSlotGrant : ∃ (t owner len c : Nat) (boundary : Bool) (s : State),
  (fun b => b.slackNextClient ((slackClients owner).filter fun c =>
        !b.paused c && (c != 2 || b.mode == mReady || boundary)) = some c) (s.begun t) :=
  ⟨5, 0, 1000, 1, false, lab [], by decide +kernel⟩

theorem test_throttlePauseEnd : ∃ (t c : Nat) (s : State),
  (1 ≤ c) ∧ (c ≤ 8) ∧ (fun b => b.paused c = false ∧ b.sys.slackForced.getD (c - 1) false = false) (s.begun t) :=
  ⟨5, 3, lab [], by decide +kernel, by decide +kernel, ⟨by decide +kernel, by decide +kernel⟩⟩


/-! ### Hypotheses that are met: The event entries -/

theorem test_eventPendingClear : ∃ (t sub : Nat) (w : Wr) (s : State),
  (fun b => b.takes 0x2100 sub w w.val) (s.begun t) :=
  ⟨5, 1, ⟨.core 0, 0, 4, 8⟩, { lab [] with ev := { (lab []).ev with pending := 8#256 } }, ⟨_, rfl, by decide +kernel, rfl⟩⟩

theorem test_eventMaskWrite : ∃ (t sub : Nat) (w : Wr) (s : State),
  (fun b => b.takes 0x2101 sub w w.val) (s.begun t) :=
  ⟨5, 1, ⟨.core 0, 0, 4, 8⟩, lab [], ⟨_, rfl, by decide +kernel, rfl⟩⟩

theorem test_eventRouteWrite : ∃ (t n : Nat) (w : Wr) (s : State),
  (reservedEvent n = false) ∧ (w.val &&& 0x00FF0703 = w.val)
      ∧ (fun b => b.takes (eventPlace 0x2110 n).1 (eventPlace 0x2110 n).2 w w.val) (s.begun t) :=
  ⟨5, 200, ⟨.core 0, 0, 4, 0x10001⟩, lab [], by decide +kernel, by decide +kernel, ⟨_, rfl, by decide +kernel, rfl⟩⟩

theorem test_eventCountClear : ∃ (t n : Nat) (w : Wr) (s : State),
  (reservedEvent n = false) ∧ (w.val = 0)
      ∧ (fun b => b.takes (eventPlace 0x2120 n).1 (eventPlace 0x2120 n).2 w w.val) (s.begun t) :=
  ⟨5, 200, ⟨.core 0, 0, 4, 0⟩, { lab [] with ev := { (lab []).ev with counts := [(200, 3)] } }, by decide +kernel, by decide +kernel, ⟨_, rfl, by decide +kernel, rfl⟩⟩

theorem test_errorFieldCountClear : ∃ (t : Nat) (w : Wr) (s : State),
  (fun b => b.takes 0x1003 0 w 0) (s.begun t) :=
  ⟨5, ⟨.core 0, 0, 1, 0⟩, { lab [] with ev := { (lab []).ev with errorHist := [5] } }, ⟨_, rfl, by decide +kernel, rfl⟩⟩

theorem test_emcyInhibitExpiry : ∃ (t : Nat) (e : Emcy) (q : List Emcy) (s : State),
  (fun b => b.ev.emcyQueue = e :: q ∧ b.can.booted = true ∧ b.emcyFree = true) (s.begun t) :=
  ⟨5, ⟨0xFF07, 7, 1, 0⟩, [], { lab [] with ev := { (lab []).ev with emcyQueue := [⟨0xFF07, 7, 1, 0⟩] } }, ⟨by decide +kernel, by decide +kernel, by decide +kernel⟩⟩


/-! ### Hypotheses that are met: The dictionary's own commands -/

theorem test_dictionaryWrite : ∃ (t idx sub v : Nat) (w : Wr) (s : State),
  (ownerEffect idx sub = plain (idx * 256 + sub)) ∧ (idx * 256 + sub ≠ K.ModeRequest)
      ∧ (fun b => b.windowStaged idx sub w = none ∧ b.takes idx sub w v) (s.begun t) :=
  ⟨5, 0x2356, 1, 900, ⟨.core 0, 0, 4, 900⟩, lab [], rfl, by decide +kernel, ⟨by decide +kernel, ⟨_, rfl, by decide +kernel, rfl⟩⟩⟩

theorem test_stringStagingStore_1 : ∃ (t core addr val sub : Nat) (e : Entry) (s : State),
  (core < 8) ∧ (0x40000000 ≤ addr) ∧ (addr < 0x42800000) ∧ (val < 2 ^ 64) ∧ (e.ty.staged = true) ∧ (fun b =>
        let idx := (windowPlace addr).1
        let off := ((windowPlace addr).2.1 - sub) * 8
        b.slotOwner idx (windowPlace addr).2.1 = some (sub, e) ∧ b.sys.staging.getD core none = none ∧ e.acc = .wo
        ∧ checkWrite b idx sub ⟨.core core, (windowPlace addr).2.2, min e.ty.bytes 2040, 0⟩ = 0
        ∧ stagedWhole (idx * 256 + sub) e.ty (b.slotsOf idx sub) off
            ((leBytes 2048 0).take off ++ leBytes 8 val ++ (leBytes 2048 0).drop (off + 8)) = false) (s.begun t) :=
  ⟨5, 0, windowAddr 0x3130 1, 0x31, 1, ⟨0x3130, 1, 1, 1, 1, (.domVar 100), .wo, .p, false, (.k 0), .any⟩, lab [], by decide +kernel, by decide +kernel, by decide +kernel, by decide +kernel, by decide +kernel, ⟨by decide +kernel, by decide +kernel, by decide +kernel, by decide +kernel, by decide +kernel⟩⟩

theorem test_stringStagingStore_2 : ∃ (t core l slot count addr val : Nat) (s : State),
  (core < 8) ∧ (l < 16) ∧ (slot < 12) ∧ (1 ≤ count) ∧ (count ≤ 64) ∧ (addr < 0x10000)
      ∧ (val = slot + count * 2 ^ 16 + addr * 2 ^ 32) ∧ (fun b => b.sys.staging.getD core none = none
      ∧ b.linkUp l = true ∧ b.lreg K.HeadCfgState l ≠ 1
        ∧ b.takes (0x4002 + 0x10 * l) 1 ⟨.core core, 0, 8, val⟩ val) (s.begun t) :=
  ⟨5, 0, 0, 0, 1, 0, 65536, lab [(K.LinkState, 3)], by decide +kernel, by decide +kernel, by decide +kernel, by decide +kernel, by decide +kernel, by decide +kernel, by decide +kernel, ⟨by decide +kernel, by decide +kernel, by decide +kernel, ⟨_, rfl, by decide +kernel, rfl⟩⟩⟩

theorem test_storeParameters : ∃ (t : Nat) (w : Wr) (s : State),
  (fun b => b.takes 0x1010 1 w 0x65766173) (s.begun t) :=
  ⟨5, ⟨.core 0, 0, 4, 0x65766173⟩, lab [(K.MinEdgeSpacing, 0)], ⟨_, rfl, by decide +kernel, rfl⟩⟩

theorem test_restoreDefaults : ∃ (t : Nat) (w : Wr) (s : State),
  (fun b => b.takes 0x1011 1 w 0x64616F6C) (s.begun t) :=
  ⟨5, ⟨.core 0, 0, 4, 0x64616F6C⟩, { lab [] with sys := { (lab []).sys with saved := [(5, 5)] } }, ⟨_, rfl, by decide +kernel, rfl⟩⟩


/-! ### Hypotheses that are met: The CAN path's transfers -/

theorem test_usdoRequest_1 : ∃ (t idx sub i k : Nat) (e : Entry) (s : State),
  (i * 256 + k ≠ K.WebPosition) ∧ (i * 256 + k ≠ K.TimeNowSeconds) ∧ (i * 256 + k ≠ K.TokenChallenge)
      ∧ (fun b => b.usdoServed = true ∧ b.canAt idx sub = some (i, k) ∧ b.entry i k = some e
      ∧ checkRead b i k = 0) (s.begun t) :=
  ⟨5, 0x2010, 2, 0x2010, 2, ⟨0x2010, 1, 1, 2, 2, (.u 1), .ro, .i, false, (.k 1), .any⟩, { lab [(K.CanClientDictionaryVersion, 0xFFFF)] with can := { (lab [(K.CanClientDictionaryVersion, 0xFFFF)]).can with nmt := .operational } }, by decide +kernel, by decide +kernel, by decide +kernel, ⟨by decide +kernel, servedAt_new _ _, by decide +kernel, by decide +kernel⟩⟩

theorem test_usdoRequest_2 : ∃ (t idx sub len val i k v : Nat) (s : State),
  (ownerEffect i k = plain (i * 256 + k)) ∧ (i * 256 + k ≠ K.ModeRequest) ∧ (fun b => b.usdoServed = true
      ∧ b.canAt idx sub = some (i, k) ∧ b.takes i k ⟨.can, 0, len, val % 2 ^ (8 * len)⟩ v) (s.begun t) :=
  ⟨5, 0x2356, 1, 4, 900, 0x2356, 1, 900, { lab [(K.CanClientDictionaryVersion, 0xFFFF), (K.CanRole, 1)] with can := { (lab [(K.CanClientDictionaryVersion, 0xFFFF), (K.CanRole, 1)]).can with nmt := .operational } }, rfl, by decide +kernel, ⟨by decide +kernel, servedAt_new _ _, ⟨_, rfl, by decide +kernel, rfl⟩⟩⟩

theorem test_rpdoReceived_1 : ∃ (t n : Nat) (data : List Nat) (s : State),
  (fun b => b.pdoOn K.RpdoCobId n = true ∧ b.reg (K.RpdoTransmission + n * 256) ≤ 240) (s.begun t) :=
  ⟨5, 0, [7], { lab [(K.RpdoCobId, 0x200), (K.RpdoTransmission, 1)] with can := { (lab [(K.RpdoCobId, 0x200), (K.RpdoTransmission, 1)]).can with nmt := .operational } }, ⟨by decide +kernel, by decide +kernel⟩⟩

theorem test_rpdoReceived_2 : ∃ (t n idx sub len i k v : Nat) (data : List Nat) (s : State),
  (ownerEffect i k = plain (i * 256 + k)) ∧ (i * 256 + k ≠ K.ModeRequest)
      ∧ (fun b => b.pdoOn K.RpdoCobId n = true ∧ 240 < b.reg (K.RpdoTransmission + n * 256)
        ∧ b.mapping (0x1600 + n) = [(idx, sub, len)] ∧ len ≤ data.length ∧ b.canAt idx sub = some (i, k)
        ∧ b.takes i k ⟨.can, 0, len, leNat (data.take len)⟩ v) (s.begun t) :=
  ⟨5, 0, 0x2356, 1, 4, 0x2356, 1, 900, [132, 3, 0, 0], { lab [(K.RpdoCobId, 0x200), (K.RpdoTransmission, 254), (0x160000, 1), (0x160001, 0x23560120), (K.CanRole, 1), (K.CanClientDictionaryVersion, 0xFFFF)] with can := { (lab [(K.RpdoCobId, 0x200), (K.RpdoTransmission, 254), (0x160000, 1), (0x160001, 0x23560120), (K.CanRole, 1), (K.CanClientDictionaryVersion, 0xFFFF)]).can with nmt := .operational } }, rfl, by decide +kernel, ⟨by decide +kernel, by decide +kernel, by decide +kernel, by decide +kernel, servedAt_new _ _, ⟨_, rfl, by decide +kernel, rfl⟩⟩⟩

theorem test_canSyncReceived : ∃ (t n : Nat) (s : State),
  (n < 8) ∧ (fun b => b.can.rpdoHeld = List.replicate 8 none ∧ b.can.tpdoAt.length = 8 ∧ b.can.tpdoSync.length = 8
        ∧ b.pdoOn K.TpdoCobId n = true ∧ 1 ≤ b.reg (K.TpdoTransmission + n * 256)
        ∧ b.reg (K.TpdoTransmission + n * 256) ≤ 240
        ∧ b.reg (K.TpdoTransmission + n * 256) ≤ b.can.tpdoSync.getD n 0 + 1) (s.begun t) :=
  ⟨5, 0, { lab [(K.TpdoCobId, 0x180), (K.TpdoTransmission, 1)] with can := { (lab [(K.TpdoCobId, 0x180), (K.TpdoTransmission, 1)]).can with nmt := .operational } }, by decide +kernel, ⟨by decide +kernel, by decide +kernel, by decide +kernel, by decide +kernel, by decide +kernel, by decide +kernel, by decide +kernel⟩⟩

theorem test_tpdoEventTimer : ∃ (t n : Nat) (s : State),
  (fun b => b.pdoOn K.TpdoCobId n = true ∧ b.reg (K.TpdoTransmission + n * 256) = 254
        ∧ b.reg (K.TpdoEventTimer + n * 256) ≠ 0 ∧ b.can.tpdoAt.getD n none = none) (s.begun t) :=
  ⟨5, 0, { lab [(K.TpdoCobId, 0x180), (K.TpdoTransmission, 254), (K.TpdoEventTimer, 10)] with can := { (lab [(K.TpdoCobId, 0x180), (K.TpdoTransmission, 254), (K.TpdoEventTimer, 10)]).can with nmt := .operational } }, ⟨by decide +kernel, by decide +kernel, by decide +kernel, by decide +kernel⟩⟩

theorem test_tpdoTransmit : ∃ (t n : Nat) (s : State),
  (fun b => b.pdoOn K.TpdoCobId n = true ∧ b.reg (K.TpdoTransmission + n * 256) = 254
        ∧ b.can.tpdoSent.getD n none ≠ some (b.tpdoData n) ∧ b.tpdoFree n = true) (s.begun t) :=
  ⟨5, 0, { lab [(K.TpdoCobId, 0x180), (K.TpdoTransmission, 254)] with can := { (lab [(K.TpdoCobId, 0x180), (K.TpdoTransmission, 254)]).can with nmt := .operational } }, ⟨by decide +kernel, by decide +kernel, by decide +kernel, by decide +kernel⟩⟩

theorem test_heartbeatProduce : ∃ (t : Nat) (s : State),
  (fun b => b.canUp = true ∧ b.reg K.ProducerHeartbeatTime ≠ 0) (s.begun t) :=
  ⟨5, { lab [(K.ProducerHeartbeatTime, 100)] with can := { (lab [(K.ProducerHeartbeatTime, 100)]).can with nmt := .operational } }, ⟨by decide +kernel, by decide +kernel⟩⟩

theorem test_consumerHeartbeatTimeout : ∃ (t k : Nat) (s : State),
  (k < 4) ∧ (fun b => b.canUp = true ∧ b.reg (K.ConsumerHeartbeatTime + k) % 65536 ≠ 0
        ∧ bits (b.reg (K.ConsumerHeartbeatTime + k)) 16 8 ≠ 0 ∧ b.reg K.CommErrorBehaviour = 0
        ∧ b.can.nmt = .operational) (s.begun t) :=
  ⟨5, 0, { lab [(K.ConsumerHeartbeatTime, 0x10064), (K.CommErrorBehaviour, 0)] with can := { (lab [(K.ConsumerHeartbeatTime, 0x10064), (K.CommErrorBehaviour, 0)]).can with nmt := .operational } }, by decide +kernel, ⟨by decide +kernel, by decide +kernel, by decide +kernel, by decide +kernel, by decide +kernel⟩⟩


/-! ### Hypotheses that are met: NMT and the CAN bus -/

theorem test_nmtStart : ∃ (t node : Nat) (s : State),
  (fun b => b.canUp = true ∧ (node = 0 ∨ node = b.can.nodeId)) (s.begun t) :=
  ⟨5, 0, { lab [] with can := { (lab []).can with nmt := .preOperational } }, ⟨by decide +kernel, by decide +kernel⟩⟩

theorem test_nmtStop : ∃ (t node : Nat) (s : State),
  (fun b => b.canUp = true ∧ (node = 0 ∨ node = b.can.nodeId)) (s.begun t) :=
  ⟨5, 16, { lab [] with can := { (lab []).can with nmt := .operational } }, ⟨by decide +kernel, by decide +kernel⟩⟩

theorem test_nmtEnterPreOperational : ∃ (t node : Nat) (s : State),
  (fun b => b.canUp = true ∧ (node = 0 ∨ node = b.can.nodeId)) (s.begun t) :=
  ⟨5, 0, { lab [] with can := { (lab []).can with nmt := .operational } }, ⟨by decide +kernel, by decide +kernel⟩⟩

theorem test_nmtResetCommunication : ∃ (t node : Nat) (s : State),
  (fun b => b.canUp = true ∧ (node = 0 ∨ node = b.can.nodeId)) (s.begun t) :=
  ⟨5, 0, { lab [] with can := { (lab []).can with nmt := .operational } }, ⟨by decide +kernel, by decide +kernel⟩⟩

theorem test_nmtResetNode_1 : ∃ (t node : Nat) (s : State),
  (fun b => b.canUp = true ∧ (node = 0 ∨ node = b.can.nodeId) ∧ b.reg K.NmtNodeResetMode ≠ 1) (s.begun t) :=
  ⟨5, 0, { lab [] with can := { (lab []).can with nmt := .operational } }, ⟨by decide +kernel, by decide +kernel, by decide +kernel⟩⟩

theorem test_nmtResetNode_2 : ∃ (t node : Nat) (s : State),
  (fun b => b.inv = true ∧ b.canUp = true ∧ (node = 0 ∨ node = b.can.nodeId) ∧ b.reg K.NmtNodeResetMode = 1
        ∧ b.sys.deep = false ∧ b.health.latchH = false ∧ b.sys.hold = false ∧ b.sys.warming = false
        ∧ b.islandReady islAON = true) (s.begun t) :=
  ⟨5, 0, { lab [(K.NmtNodeResetMode, 1)] with can := { (lab [(K.NmtNodeResetMode, 1)]).can with nmt := .operational } }, ⟨by decide +kernel, by decide +kernel, by decide +kernel, by decide +kernel, by decide +kernel, by decide +kernel, by decide +kernel, by decide +kernel, by decide +kernel⟩⟩

theorem test_canBusOff : ∃ (t txe rxe : Nat) (s : State),
  (fun b => b.islandReady islNET = true ∧ b.reg K.CanState ≠ 2) (s.begun t) :=
  ⟨5, 256, 0, lab [], ⟨by decide +kernel, by decide +kernel⟩⟩

theorem test_canAutoRecover : ∃ (t : Nat) (s : State),
  (fun b => b.islandReady islNET = true ∧ b.flag K.CanAutoRecover = true ∧ b.reg K.CanState = 2) (s.begun t) :=
  ⟨5, lab [(K.CanAutoRecover, 1), (K.CanState, 2)], ⟨by decide +kernel, by decide +kernel, by decide +kernel⟩⟩

theorem test_canRecover : ∃ (t : Nat) (w : Wr) (s : State),
  (fun b => b.takes 0x2E30 0x0C w 1 ∧ b.reg K.CanState = 2) (s.begun t) :=
  ⟨5, ⟨.core 0, 0, 1, 1⟩, lab [(K.CanState, 2)], ⟨⟨_, rfl, by decide +kernel, rfl⟩, by decide +kernel⟩⟩


/-! ### Hypotheses that are met: Samples of the position channels -/

theorem test_inputEdge : ∃ (t ch : Nat) (a c : Bool) (nodes : List Nat) (s : State),
  (fun b => b.takesSample ch 0 8 = true ∧ ch < b.pos.chans.length
        ∧ edgeCount (b.reg (K.ChannelType + ch)) (b.flag (K.DirectionInvert + ch)) (b.chan ch).a (b.chan ch).b a c ≠ 0
        ∧ (b.reg (K.ChannelType + ch) = 3 ∨ b.toothKind ch ≠ 2)) (s.begun t) :=
  ⟨5, 0, true, false, [], lab [(K.ChannelType, 1), (K.CountPitch, 1000)], ⟨by decide +kernel, by decide +kernel, by decide +kernel, by decide +kernel⟩⟩

theorem test_analogueSample : ∃ (t n : Nat) (sin cos : Int) (mark : Bool) (nodes : List Nat) (s : State),
  (fun b => b.takesSample (8 + n) 8 10 = true ∧ 8 + n < b.pos.chans.length
      ∧ b.pos.trimNext.getD n none = none) (s.begun t) :=
  ⟨5, 0, 16000, 0, false, [], { lab [(K.ChannelType + 8, 4), (K.CountPitch + 8, 1000)] with pos := { (lab [(K.ChannelType + 8, 4), (K.CountPitch + 8, 1000)]).pos with chans := State.reset.pos.chans.set 8 { angle := some 0 } } }, ⟨by decide +kernel, by decide +kernel, by decide +kernel⟩⟩

theorem test_sincosTrimCalibration_1 : ∃ (t n : Nat) (fit : SinCosTrim) (s : State),
  (fun b => b.takesSample (8 + n) 8 10 = true ∧ n < b.pos.trimFirst.length
      ∧ b.pos.trimFirst.getD n none = none) (s.begun t) :=
  ⟨5, 0, ⟨0, 0, 32768, 32768, 0⟩, lab [(K.ChannelType + 8, 4)], ⟨by decide +kernel, by decide +kernel, by decide +kernel⟩⟩

theorem test_sincosTrimCalibration_2 : ∃ (t n : Nat) (fit f : SinCosTrim) (s : State),
  (fun b => b.takesSample (8 + n) 8 10 = true ∧ n < b.pos.trimFirst.length
      ∧ b.pos.trimFirst.getD n none = some f) (s.begun t) :=
  ⟨5, 0, ⟨0, 0, 32768, 32768, 0⟩, ⟨0, 0, 32768, 32768, 0⟩, { lab [(K.ChannelType + 8, 4)] with pos := { (lab [(K.ChannelType + 8, 4)]).pos with trimFirst := [some ⟨0, 0, 32768, 32768, 0⟩, none] } }, ⟨by decide +kernel, by decide +kernel, by decide +kernel⟩⟩

theorem test_serialRead_1 : ∃ (t n : Nat) (s : State),
  (fun b => b.takesSample (10 + n) 10 14 = true ∧ 10 + n < b.pos.chans.length
        ∧ (b.chan (10 + n)).serialOpen = none
        ∧ ∀ v, (b.chan (10 + n)).lastRead = some v → v + b.reg (K.SerialReadPeriod + n) ≤ b.now) (s.begun t) :=
  ⟨5, 0, lab [(K.ChannelType + 10, 5), (K.SerialReadPeriod + 0, 1000), (K.SerialTimeout + 0, 100), (K.SerialFrame + 0, 0x01900019)], ⟨by decide +kernel, by decide +kernel, by decide +kernel, (fun v hv => by cases hv)⟩⟩

theorem test_serialRead_2 : ∃ (t n : Nat) (s : State),
  (fun b => b.takesSample (10 + n) 10 14 = true ∧ 10 + n < b.pos.chans.length
        ∧ (b.chan (10 + n)).serialOpen = none
        ∧ ∀ v, (b.chan (10 + n)).lastRead = some v → v + b.reg (K.SerialReadPeriod + n) ≤ b.now) (s.begun t) :=
  ⟨5, 0, lab [(K.ChannelType + 10, 5), (K.SerialReadPeriod + 0, 1000), (K.SerialTimeout + 0, 100), (K.SerialFrame + 0, 0x01900019)], ⟨by decide +kernel, by decide +kernel, by decide +kernel, (fun v hv => by cases hv)⟩⟩

theorem test_serialWord : ∃ (t n word at' : Nat) (nodes : List Nat) (s : State),
  (fun b => b.takesSample (10 + n) 10 14 = true ∧ 10 + n < b.pos.chans.length
        ∧ (b.chan (10 + n)).serialOpen = some at') (s.begun t) :=
  ⟨5, 0, 12, 3, [], { lab [(K.ChannelType + 10, 5), (K.SerialReadPeriod + 0, 1000), (K.SerialTimeout + 0, 100), (K.SerialFrame + 0, 0x01900019)] with pos := { (lab [(K.ChannelType + 10, 5), (K.SerialReadPeriod + 0, 1000), (K.SerialTimeout + 0, 100), (K.SerialFrame + 0, 0x01900019)]).pos with chans := State.reset.pos.chans.set 10 { serialOpen := some 3 } } }, ⟨by decide +kernel, by decide +kernel, by decide +kernel⟩⟩

theorem test_serialTimeout : ∃ (t n v : Nat) (s : State),
  (fun b => b.takesSample (10 + n) 10 14 = true ∧ 10 + n < b.pos.chans.length
        ∧ (b.chan (10 + n)).serialOpen = some v ∧ v + b.reg (K.SerialTimeout + n) ≤ b.now) (s.begun t) :=
  ⟨500, 0, 3, { lab [(K.ChannelType + 10, 5), (K.SerialReadPeriod + 0, 1000), (K.SerialTimeout + 0, 100), (K.SerialFrame + 0, 0x01900019)] with pos := { (lab [(K.ChannelType + 10, 5), (K.SerialReadPeriod + 0, 1000), (K.SerialTimeout + 0, 100), (K.SerialFrame + 0, 0x01900019)]).pos with chans := State.reset.pos.chans.set 10 { serialOpen := some 3 } } }, ⟨by decide +kernel, by decide +kernel, by decide +kernel, by decide +kernel⟩⟩

theorem test_standstill : ∃ (t ch v : Nat) (s : State),
  (ch < 14) ∧ (fun b => ch < b.pos.chans.length ∧ b.counting ch = true ∧ (b.chan ch).lastEdge = some v
        ∧ v + b.reg (K.StandstillTimeout + ch) ≤ b.now ∧ (b.chan ch).standing = false) (s.begun t) :=
  ⟨20000000000, 0, 3, { lab [(K.ChannelType, 1)] with pos := { (lab [(K.ChannelType, 1)]).pos with chans := State.reset.pos.chans.set 0 { lastEdge := some 3, valid := true } } }, by decide +kernel, ⟨by decide +kernel, by decide +kernel, by decide +kernel, by decide +kernel, by decide +kernel⟩⟩


/-! ### Hypotheses that are met: Writes of the position unit -/

theorem test_copyLengthWrite : ∃ (t ch v : Nat) (w : Wr) (s : State),
  (ch < 14) ∧ (1000000 ≤ v) ∧ (v ≤ 100000000000) ∧ (fun b => b.takes 0x2313 (ch + 1) w v
      ∧ ch < b.pos.chans.length) (s.begun t) :=
  ⟨5, 0, 2000000, ⟨.core 0, 0, 8, 2000000⟩, lab [(K.ChannelType, 1)], by decide +kernel, by decide +kernel, by decide +kernel, ⟨⟨_, rfl, by decide +kernel, rfl⟩, by decide +kernel⟩⟩

theorem test_softLimitWrite : ∃ (t ch v : Nat) (high : Bool) (w : Wr) (s : State),
  (ch < 14) ∧ (fun b => b.takes (if high then 0x2315 else 0x2314) (ch + 1) w v ∧ ch < b.pos.chans.length
        ∧ (if high then b.regI (K.SoftLimitLow + ch) 8 < signedOf 8 v
           else signedOf 8 v < b.regI (K.SoftLimitHigh + ch) 8)) (s.begun t) :=
  ⟨5, 0, 77, true, ⟨.core 0, 0, 8, 77⟩, lab [(K.CountingMode, 1)], by decide +kernel, ⟨⟨_, rfl, by decide +kernel, rfl⟩, by decide +kernel, by decide +kernel⟩⟩

theorem test_positionPreset_1 : ∃ (t ch v : Nat) (w : Wr) (s : State),
  (ch < 14) ∧ (fun b => b.takes 0x231F (ch + 1) w v ∧ ch < b.pos.chans.length ∧ b.masterPrinting ch = false
        ∧ b.webMode ch = true ∧ 0 ≤ signedOf 8 v ∧ signedOf 8 v < ((b.chan ch).len : Int)) (s.begun t) :=
  ⟨5, 0, 77, ⟨.core 0, 0, 8, 77⟩, lab [], by decide +kernel, ⟨⟨_, rfl, by decide +kernel, rfl⟩, by decide +kernel, by decide +kernel, by decide +kernel, by decide +kernel, by decide +kernel⟩⟩

theorem test_positionPreset_2 : ∃ (t ch v : Nat) (w : Wr) (s : State),
  (ch < 14) ∧ (fun b => b.takes 0x231F (ch + 1) w v ∧ ch < b.pos.chans.length ∧ b.masterPrinting ch = false
        ∧ b.webMode ch = false ∧ (b.softLimits ch).1 ≤ signedOf 8 v * 2 ^ 32
        ∧ signedOf 8 v * 2 ^ 32 ≤ (b.softLimits ch).2) (s.begun t) :=
  ⟨5, 0, 77, ⟨.core 0, 0, 8, 77⟩, lab [(K.CountingMode, 1), (K.SoftLimitLow, 0), (K.SoftLimitHigh, 1000)], by decide +kernel, ⟨⟨_, rfl, by decide +kernel, rfl⟩, by decide +kernel, by decide +kernel, by decide +kernel, by decide +kernel, by decide +kernel⟩⟩

theorem test_channelTypeWrite : ∃ (t ch v : Nat) (w : Wr) (s : State),
  (ch < 14) ∧ (typeAccepted ch v = true) ∧ (fun b => b.takes 0x2310 (ch + 1) w v
      ∧ ch < b.pos.chans.length) (s.begun t) :=
  ⟨5, 0, 1, ⟨.core 0, 0, 1, 1⟩, lab [], by decide +kernel, by decide +kernel, ⟨⟨_, rfl, by decide +kernel, rfl⟩, by decide +kernel⟩⟩

theorem test_countingModeWrite : ∃ (t ch v : Nat) (w : Wr) (s : State),
  (ch < 14) ∧ (fun b => b.takes 0x2311 (ch + 1) w v ∧ ch < b.pos.chans.length
        ∧ (v = 1 → b.reg K.MasterChannel ≠ ch ∧ b.reg K.MasterBackupChannel ≠ ch)) (s.begun t) :=
  ⟨5, 0, 1, ⟨.core 0, 0, 1, 1⟩, lab [(K.MasterChannel, 3), (K.MasterBackupChannel, 0xFF)], by decide +kernel, ⟨⟨_, rfl, by decide +kernel, rfl⟩, by decide +kernel, by decide +kernel⟩⟩

theorem test_masterChannelWrite : ∃ (t v : Nat) (w : Wr) (s : State),
  (fun b => b.takes 0x2300 1 w v ∧ (v ≠ 0xFF → b.webMode v = true)) (s.begun t) :=
  ⟨5, 2, ⟨.core 0, 0, 1, 2⟩, lab [], ⟨⟨_, rfl, by decide +kernel, rfl⟩, by decide +kernel⟩⟩

theorem test_compareValueWrite : ∃ (t k v : Nat) (w : Wr) (s : State),
  (k < 32) ∧ (fun b => b.takes 0x2351 (k + 1) w v ∧ b.reg (K.CompareChannel + k) < 14
        ∧ (b.webMode (b.reg (K.CompareChannel + k)) = true → bit (b.reg (K.CompareControl + k)) 4 = false →
          0 ≤ signedOf 8 v ∧ signedOf 8 v < ((b.chan (b.reg (K.CompareChannel + k))).len : Int))) (s.begun t) :=
  ⟨5, 31, 77, ⟨.core 0, 0, 8, 77⟩, lab [(K.CompareChannel + 31, 2)], by decide +kernel, ⟨⟨_, rfl, by decide +kernel, rfl⟩, by decide +kernel, by decide +kernel⟩⟩

theorem test_compareChannelWrite : ∃ (t k v : Nat) (w : Wr) (s : State),
  (k < 32) ∧ (fun b => b.takes 0x2350 (k + 1) w v) (s.begun t) :=
  ⟨5, 31, 2, ⟨.core 0, 0, 1, 2⟩, lab [], by decide +kernel, ⟨_, rfl, by decide +kernel, rfl⟩⟩

theorem test_compareFiredClear : ∃ (t v : Nat) (w : Wr) (s : State),
  (fun b => b.takes 0x2355 1 w v) (s.begun t) :=
  ⟨5, 0x80000001, ⟨.core 0, 0, 4, 0x80000001⟩, lab [(K.CompareFired, 0x80000003)], ⟨_, rfl, by decide +kernel, rfl⟩⟩


/-! ### Hypotheses that are met: Outputs and reads of the position unit -/

theorem test_comparePulseEnd : ∃ (t k v : Nat) (s : State),
  (fun b => b.pos.cmpUntil.getD k none = some v ∧ v ≤ b.now) (s.begun t) :=
  ⟨5, 3, 3, { lab [] with pos := { (lab []).pos with cmpUntil := [none, none, none, some 3] } }, ⟨by decide +kernel, by decide +kernel⟩⟩

theorem test_emulationEdge : ∃ (t k : Nat) (s : State),
  (k < 4) ∧ (fun b => k < b.pos.emus.length ∧ b.counting (b.reg (K.EmulationSource + k)) = true
        ∧ b.flag (K.FunctionEnable + 10) = true
        ∧ (∀ v, (b.pos.emus.getD k {}).lastAt = some v → v + 40 ≤ b.now)
        ∧ b.emuTarget k (b.pos.emus.getD k {}) ≠ (b.pos.emus.getD k {}).count) (s.begun t) :=
  ⟨500, 0, { lab [(K.EmulationSource, 1), (K.EmulationPitch, 100), (K.ChannelType + 1, 1), (K.FunctionEnable + 10, 1)] with pos := { (lab [(K.EmulationSource, 1), (K.EmulationPitch, 100), (K.ChannelType + 1, 1), (K.FunctionEnable + 10, 1)]).pos with chans := State.reset.pos.chans.set 1 { total := 1000 } } }, by decide +kernel, ⟨by decide +kernel, by decide +kernel, by decide +kernel, by decide +kernel, by decide +kernel⟩⟩

theorem test_webPositionLatch : ∃ (t : Nat) (path : WPath) (s : State),
  (fun b => checkRead b 0x2301 1 = 0) (s.begun t) :=
  ⟨5, .core 0, lab [], by decide +kernel⟩


/-! ### Hypotheses that are met: Job ingest -/

theorem test_ingestData_1 : ∃ (t : Nat) (host : Host4) (data : List Nat) (s : State),
  (host.nic < 2) ∧ (ingestValid data = true) ∧ (bit (field data 3 1) 0 = true) ∧ (field data 8 4 = 0)
      ∧ (fun b => (b.isH = true → host.nic = 0) ∧ b.islandReady islNET = true ∧ b.flag K.DramTrained = true
        ∧ b.fnOn fnIngest = true ∧ b.net.flows.length = 128) (s.begun t) :=
  ⟨5, ⟨0, 5, 6⟩, (ingestHeader 1 1 2 0 0 0), lab [(K.DramTrained, 1), (K.FunctionStatus + 2, 1)], by decide +kernel, by decide +kernel, by decide +kernel, by decide +kernel, ⟨by decide +kernel, by decide +kernel, by decide +kernel, by decide +kernel, by decide +kernel⟩⟩

theorem test_ingestData_2 : ∃ (t : Nat) (host : Host4) (data : List Nat) (s : State),
  (host.nic < 2) ∧ (ingestValid data = true) ∧ ((bit (field data 3 1) 0 = false ∨ field data 8 4 ≠ 0)) ∧ (fun b =>
        let f := 64 * host.nic + field data 4 2
        (b.isH = true → host.nic = 0) ∧ b.islandReady islNET = true ∧ b.flag K.DramTrained = true
        ∧ b.fnOn fnIngest = true ∧ b.flowOpen f = true ∧ f < b.net.flows.length ∧ (b.flow f).held = []
        ∧ (b.flow f).next = field data 8 4
      ∧ (∀ c, (b.flow f).credit = some c → field data 16 8 + field data 6 2 ≤ c)) (s.begun t) :=
  ⟨5, ⟨0, 5, 6⟩, (ingestHeader 1 0 2 0 4 0), { lab [(K.FlowState + 2, 1), (K.DramTrained, 1), (K.FunctionStatus + 2, 1)] with net := { (lab [(K.FlowState + 2, 1), (K.DramTrained, 1), (K.FunctionStatus + 2, 1)]).net with flows := State.reset.net.flows.set 2 { host := ⟨0, 5, 6⟩, next := 4 } } }, by decide +kernel, by decide +kernel, by decide +kernel, ⟨by decide +kernel, by decide +kernel, by decide +kernel, by decide +kernel, by decide +kernel, by decide +kernel, by decide +kernel, by decide +kernel, (fun c hc => by cases hc)⟩⟩

theorem test_ackInterval : ∃ (t f via : Nat) (s : State),
  (f < 128) ∧ (fun b => b.islandReady islNET = true ∧ b.flowOpen f = true ∧ f < b.net.flows.length
        ∧ b.nextHop (b.flow f).host.nic (b.flow f).host.ip = some via) (s.begun t) :=
  ⟨5, 2, 9, { lab [(K.FlowState + 2, 1), (K.Ipv4Netmask, 255), (K.Ipv4Gateway, 9), (K.DramTrained, 1), (K.FunctionStatus + 2, 1)] with net := { (lab [(K.FlowState + 2, 1), (K.Ipv4Netmask, 255), (K.Ipv4Gateway, 9), (K.DramTrained, 1), (K.FunctionStatus + 2, 1)]).net with flows := State.reset.net.flows.set 2 { host := ⟨0, 5, 6⟩, next := 4 } } }, by decide +kernel, ⟨by decide +kernel, by decide +kernel, by decide +kernel, by decide +kernel⟩⟩

theorem test_nackDelay : ∃ (t f : Nat) (s : State),
  (f < 128) ∧ (fun b => f < b.net.flows.length ∧ b.flowState f = 2 ∧ (b.flow f).nacks = 0
        ∧ (b.flow f).gapAt + b.reg K.NackDelay ≤ b.now) (s.begun t) :=
  ⟨1000000000, 2, { lab [(K.FlowState + 2, 2), (K.NackDelay, 1000), (K.DramTrained, 1), (K.FunctionStatus + 2, 1)] with net := { (lab [(K.FlowState + 2, 2), (K.NackDelay, 1000), (K.DramTrained, 1), (K.FunctionStatus + 2, 1)]).net with flows := State.reset.net.flows.set 2 { host := ⟨0, 5, 6⟩, next := 4, gapAt := 7 } } }, by decide +kernel, ⟨by decide +kernel, by decide +kernel, by decide +kernel, by decide +kernel⟩⟩

theorem test_nackRetry : ∃ (t f : Nat) (s : State),
  (f < 128) ∧ (fun b => f < b.net.flows.length ∧ b.flowState f = 2 ∧ (b.flow f).nacks ≠ 0
        ∧ (b.flow f).nackAt + b.reg K.NackInterval ≤ b.now) (s.begun t) :=
  ⟨1000000000, 2, { lab [(K.FlowState + 2, 2), (K.NackInterval, 1000), (K.NackRetries, 1), (K.DramTrained, 1), (K.FunctionStatus + 2, 1)] with net := { (lab [(K.FlowState + 2, 2), (K.NackInterval, 1000), (K.NackRetries, 1), (K.DramTrained, 1), (K.FunctionStatus + 2, 1)]).net with flows := State.reset.net.flows.set 2 { host := ⟨0, 5, 6⟩, next := 4, gapAt := 7, nacks := 1 } } }, by decide +kernel, ⟨by decide +kernel, by decide +kernel, by decide +kernel, by decide +kernel⟩⟩

theorem test_flowIdleTimeout : ∃ (t f : Nat) (s : State),
  (f < 128) ∧ (fun b => f < b.net.flows.length ∧ b.flowState f ≠ 0
      ∧ (b.flow f).lastAt + b.reg K.FlowIdleTimeout ≤ b.now) (s.begun t) :=
  ⟨1000000000, 2, { lab [(K.FlowState + 2, 1), (K.FlowIdleTimeout, 1000), (K.DramTrained, 1), (K.FunctionStatus + 2, 1)] with net := { (lab [(K.FlowState + 2, 1), (K.FlowIdleTimeout, 1000), (K.DramTrained, 1), (K.FunctionStatus + 2, 1)]).net with flows := State.reset.net.flows.set 2 { host := ⟨0, 5, 6⟩, next := 4 } } }, by decide +kernel, ⟨by decide +kernel, by decide +kernel, by decide +kernel⟩⟩

theorem test_refetchResend : ∃ (t stream : Nat) (r : Refetch) (s : State),
  (fun b => (b.net.refetches.find? fun x => x.stream == stream && x.sentAt + b.reg K.NackInterval ≤ b.now) = some r) (s.begun t) :=
  ⟨1000000000, 7, ⟨7, 2, 0, 3⟩, { lab [(K.NackInterval, 1000)] with net := { (lab [(K.NackInterval, 1000)]).net with refetches := [⟨7, 2, 0, 3⟩] } }, by decide +kernel⟩

theorem test_refetchDeadline : ∃ (t stream : Nat) (r : Refetch) (s : State),
  (fun b => (b.net.refetches.find? fun x => x.stream == stream && x.deadline ≤ b.ptp) = some r) (s.begun t) :=
  ⟨1000000000, 7, ⟨7, 2, 0, 3⟩, { lab [(K.NackInterval, 1000)] with net := { (lab [(K.NackInterval, 1000)]).net with refetches := [⟨7, 2, 0, 3⟩] }, codec := { (lab [(K.NackInterval, 1000)]).codec with streams := [{ id := 7, job := 3, hdr := leBytes 64 0 }] } }, by decide +kernel⟩

theorem test_jobDelete : ∃ (t v : Nat) (w : Wr) (s : State),
  (fun b => b.takes 0x2401 6 w v ∧ (b.job? v).isSome = true ∧ b.jobNamed v = false) (s.begun t) :=
  ⟨5, 3, ⟨.core 0, 0, 4, 3⟩, { lab [] with codec := { (lab []).codec with jobs := [{ id := 3, place := 0 }] } }, ⟨⟨_, rfl, by decide +kernel, rfl⟩, by decide +kernel, by decide +kernel⟩⟩


/-! ### Hypotheses that are met: Strips on the decode lanes -/

theorem test_stripDecodeStart : ∃ (t lane stream n a len : Nat) (x : Stream) (s : State),
  (lane < 32) ∧ (x.streamed = false) ∧ (32 ≤ len) ∧ (fun b => b.fnOn fnDecode = true
      ∧ b.flag K.DramTrained = true ∧ b.codec.lanes.length = 32
        ∧ (b.lane lane).work = none ∧ (b.lane lane).retired = false
        ∧ (∀ k, k < 32 → ∀ w, (b.lane k).work = some w → w.stream ≠ stream)
        ∧ b.stream? stream = some x ∧ b.dec? stream = none ∧ b.freeSlot = some n
        ∧ b.storedStrip x 0 = some (a, len) ∧ flushByte (b.bytesAt a len) = true
        ∧ b.headerReason x { id := stream, slot := n } 0 len false ((b.bytesAt a len).take 32) = 0) (s.begun t) :=
  ⟨5, 5, 7, 0, 139586437184, 40, ⟨7, 3, leBytes 64 4553199691407594953604636521877162771895667613248333686381085026781767151856288595968, 137455730688, 2, 0, []⟩, { { lab [(K.RingAreaSize, 0), (K.FunctionStatus, 1), (K.DramTrained, 1)] with codec := { (lab [(K.RingAreaSize, 0), (K.FunctionStatus, 1), (K.DramTrained, 1)]).codec with streams := [⟨7, 3, leBytes 64 4553199691407594953604636521877162771895667613248333686381085026781767151856288595968, 137455730688, 2, 0, []⟩] } } with mem := [(137455730688, 40#8), (137455730691, 64#8), (139586437184, 83#8), (139586437185, 75#8), (139586437186, 49#8), (139586437187, 1#8), (139586437188, 7#8), (139586437200, 16#8), (139586437201, 1#8), (139586437204, 8#8), (139586437212, 172#8), (139586437213, 117#8), (139586437214, 65#8), (139586437215, 111#8)] }, by decide +kernel, by decide +kernel, by decide +kernel, ⟨by decide +kernel, by decide +kernel, by decide +kernel, by decide +kernel, by decide +kernel, (by intro k hk w hw; interval_cases k <;> cases hw), by decide +kernel, by decide +kernel, by decide +kernel, by decide +kernel, by decide +kernel, by decide +kernel⟩⟩

theorem test_stripDecodeEnd_1 : ∃ (t lane : Nat) (w : LaneWork) (x : Stream) (d : DecStream) (s : State),
  (lane < 32) ∧ (w.verdict = some 0) ∧ (x.streamed = false) ∧ (fun b => b.codec.lanes.length = 32
      ∧ (b.lane lane).work = some w ∧ b.stream? w.stream = some x
        ∧ b.dec? w.stream = some d) (s.begun t) :=
  ⟨5, 5, ⟨7, 0, 0, false, [], 100, 16, 0, 2, some 0, {}, 16, 0⟩, ⟨7, 3, leBytes 64 4553199691407594953604636521877162771895667613248333686381085026781767151856288595968, 137455730688, 2, 0, []⟩, { id := 7, slot := 0 }, { lab [(K.RingAreaSize, 0), (K.FunctionStatus, 1), (K.DramTrained, 1)] with codec := { (lab [(K.RingAreaSize, 0), (K.FunctionStatus, 1), (K.DramTrained, 1)]).codec with streams := [⟨7, 3, leBytes 64 4553199691407594953604636521877162771895667613248333686381085026781767151856288595968, 137455730688, 2, 0, []⟩], decs := [{ id := 7, slot := 0 }], lanes := State.reset.codec.lanes.set 5 { work := some ⟨7, 0, 0, false, [], 100, 16, 0, 2, some 0, {}, 16, 0⟩ } } }, by decide +kernel, by decide +kernel, by decide +kernel, ⟨by decide +kernel, by decide +kernel, by decide +kernel, by decide +kernel⟩⟩

theorem test_stripDecodeEnd_2 : ∃ (t lane v : Nat) (w : LaneWork) (s : State),
  (lane < 32) ∧ (w.verdict = some v) ∧ (v ≠ 0) ∧ (fun b => b.codec.lanes.length = 32
      ∧ (b.lane lane).work = some w ∧ b.fnOn fnDecode = true) (s.begun t) :=
  ⟨5, 5, 3, ⟨7, 0, 0, false, [], 100, 16, 0, 2, some 3, {}, 16, 0⟩, { lab [(K.RingAreaSize, 0), (K.FunctionStatus, 1), (K.DramTrained, 1)] with codec := { (lab [(K.RingAreaSize, 0), (K.FunctionStatus, 1), (K.DramTrained, 1)]).codec with streams := [⟨7, 3, leBytes 64 4553199691407594953604636521877162771895667613248333686381085026781767151856288595968, 137455730688, 2, 0, []⟩], decs := [{ id := 7, slot := 0 }], lanes := State.reset.codec.lanes.set 5 { work := some ⟨7, 0, 0, false, [], 100, 16, 0, 2, some 3, {}, 16, 0⟩ } } }, by decide +kernel, by decide +kernel, by decide +kernel, ⟨by decide +kernel, by decide +kernel, by decide +kernel⟩⟩

theorem test_decodeResume : ∃ (t lane : Nat) (w : LaneWork) (x : Stream) (d : DecStream) (c : Chain) (s : State),
  (lane < 32) ∧ (w.verdict = none) ∧ (w.refetch = false) ∧ (fun b => b.islandReady islCODEC = true
      ∧ b.codec.lanes.length = 32 ∧ (b.lane lane).work = some w
        ∧ b.stream? w.stream = some x ∧ b.dec? w.stream = some d ∧ b.chain? w.stream = some c
        ∧ (b.takeStrip c).1 ≠ [] ∧ (w.got ++ (b.takeStrip c).1).length < 32) (s.begun t) :=
  ⟨5, 5, ⟨7, 0, 0, false, [], 100, 16, 0, 2, none, {}, 16, 0⟩, ⟨7, 3, leBytes 64 4553199691407594953604636521877162771895667613248333686381085026781767151856288595968, 137455730688, 2, 0, []⟩, { id := 7, slot := 0 }, { stream := 7, bufs := [(139586437376, 4, 0)], strips := [(0, 100)] }, { lab [(K.RingAreaSize, 0), (K.FunctionStatus, 1), (K.DramTrained, 1)] with codec := { (lab [(K.RingAreaSize, 0), (K.FunctionStatus, 1), (K.DramTrained, 1)]).codec with streams := [⟨7, 3, leBytes 64 4553199691407594953604636521877162771895667613248333686381085026781767151856288595968, 137455730688, 2, 0, []⟩], decs := [{ id := 7, slot := 0 }], chains := [{ stream := 7, bufs := [(139586437376, 4, 0)], strips := [(0, 100)] }], lanes := State.reset.codec.lanes.set 5 { work := some ⟨7, 0, 0, false, [], 100, 16, 0, 2, none, {}, 16, 0⟩ } } }, by decide +kernel, by decide +kernel, by decide +kernel, ⟨by decide +kernel, by decide +kernel, by decide +kernel, by decide +kernel, by decide +kernel, by decide +kernel, by decide +kernel, by decide +kernel⟩⟩

theorem test_inputSpoolResume : ∃ (t lane : Nat) (wr : Wr) (w : LaneWork) (x : Stream) (d : DecStream) (c : Chain) (s : State),
  (lane < 32) ∧ (w.verdict = none) ∧ (w.refetch = false) ∧ (fun b => b.takes 0x2413 (lane + 1) wr 1
      ∧ b.codec.lanes.length = 32 ∧ (b.lane lane).work = some w
        ∧ b.stream? w.stream = some x ∧ b.dec? w.stream = some d ∧ b.chain? w.stream = some c
        ∧ (b.takeStrip c).1 ≠ [] ∧ (w.got ++ (b.takeStrip c).1).length < 32) (s.begun t) :=
  ⟨5, 5, ⟨.core 0, 0, 1, 1⟩, ⟨7, 0, 0, false, [], 100, 16, 0, 2, none, {}, 16, 0⟩, ⟨7, 3, leBytes 64 4553199691407594953604636521877162771895667613248333686381085026781767151856288595968, 137455730688, 2, 0, []⟩, { id := 7, slot := 0 }, { stream := 7, bufs := [(139586437376, 4, 0)], strips := [(0, 100)] }, { lab [(K.RingAreaSize, 0), (K.FunctionStatus, 1), (K.DramTrained, 1)] with codec := { (lab [(K.RingAreaSize, 0), (K.FunctionStatus, 1), (K.DramTrained, 1)]).codec with streams := [⟨7, 3, leBytes 64 4553199691407594953604636521877162771895667613248333686381085026781767151856288595968, 137455730688, 2, 0, []⟩], decs := [{ id := 7, slot := 0 }], chains := [{ stream := 7, bufs := [(139586437376, 4, 0)], strips := [(0, 100)] }], lanes := State.reset.codec.lanes.set 5 { work := some ⟨7, 0, 0, false, [], 100, 16, 0, 2, none, {}, 16, 0⟩ } } }, by decide +kernel, by decide +kernel, by decide +kernel, ⟨⟨_, rfl, by decide +kernel, rfl⟩, by decide +kernel, by decide +kernel, by decide +kernel, by decide +kernel, by decide +kernel, by decide +kernel, by decide +kernel⟩⟩


/-! ### Hypotheses that are met: Encode lanes -/

theorem test_encodeCommand : ∃ (t lane v : Nat) (w : Wr) (s : State),
  (lane < 4) ∧ (fun b => b.takes 0x2420 (lane + 1) w v ∧ lane < b.codec.encs.length ∧ b.encStatus lane ≠ encRunning
        ∧ b.encStatus lane ≠ encStalled ∧ b.fnOn fnEncode = true
      ∧ encodeValid { cmd := leBytes 48 v } = true) (s.begun t) :=
  ⟨5, 3, 810560526284799664439354888887254533600842218539917207229032063010683370864640, ⟨.core 0, 0, 48, 810560526284799664439354888887254533600842218539917207229032063010683370864640⟩, lab [(K.FunctionStatus + 1, 1)], by decide +kernel, ⟨⟨_, rfl, by decide +kernel, rfl⟩, by decide +kernel, by decide +kernel, by decide +kernel, by decide +kernel, by decide +kernel⟩⟩

theorem test_encodeDone : ∃ (t lane : Nat) (s : State),
  (lane < 4) ∧ (fun b =>
        let r := (encodeTo lane none).run b
        b.encStatus lane = encRunning ∧ (b.enc lane).short = false ∧ r.encStatus lane = encRunning
        ∧ (r.enc lane).done = (r.enc lane).lineCount) (s.begun t) :=
  ⟨5, 3, { lab [(K.EncodeStatus + 3, 1)] with codec := { (lab [(K.EncodeStatus + 3, 1)]).codec with encs := State.reset.codec.encs.set 3 { cmd := leBytes 48 810560526284799664439354888887254533600842218539917207229032063010683370864640, done := 1 } } }, by decide +kernel, ⟨by decide +kernel, by decide +kernel, by decide +kernel, by decide +kernel⟩⟩

theorem test_flushRequest : ∃ (t lane : Nat) (w : Wr) (s : State),
  (lane < 4) ∧ (fun b =>
        let r := (encodeTo lane (some b.now)).run b
        b.takes 0x2422 (lane + 1) w 1 ∧ b.encStatus lane = encRunning ∧ r.encStatus lane = encRunning
        ∧ lane < r.codec.encs.length) (s.begun t) :=
  ⟨5, 3, ⟨.core 0, 0, 1, 1⟩, { lab [(K.EncodeStatus + 3, 1)] with codec := { (lab [(K.EncodeStatus + 3, 1)]).codec with encs := State.reset.codec.encs.set 3 { cmd := leBytes 48 810560526284799664439354888887254533600842218539917207229032063010683370864640, done := 1 } } }, by decide +kernel, ⟨⟨_, rfl, by decide +kernel, rfl⟩, by decide +kernel, by decide +kernel, by decide +kernel⟩⟩

theorem test_flushDone : ∃ (t lane : Nat) (s : State),
  (lane < 4) ∧ (fun b =>
        let r := (when ((b.enc lane).count != 0) (emitStrip lane)).run b
        (b.enc lane).short = true ∧ (b.enc lane).held = [] ∧ (r.enc lane).held = []) (s.begun t) :=
  ⟨5, 3, { lab [(K.EncodeStatus + 3, 1)] with codec := { (lab [(K.EncodeStatus + 3, 1)]).codec with encs := State.reset.codec.encs.set 3 { cmd := leBytes 48 810560526284799664439354888887254533600842218539917207229032063010683370864640, short := true } } }, by decide +kernel, ⟨by decide +kernel, by decide +kernel, by decide +kernel⟩⟩

theorem test_spoolResume : ∃ (t lane : Nat) (w : Wr) (s : State),
  (lane < 4) ∧ (fun b =>
        let r := (encodeOut lane (b.enc lane).held).run b
        b.takes 0x2423 (lane + 1) w 1 ∧ b.encStatus lane = encStalled ∧ (r.enc lane).held = []) (s.begun t) :=
  ⟨5, 3, ⟨.core 0, 0, 1, 1⟩, { lab [(K.EncodeStatus + 3, 2)] with codec := { (lab [(K.EncodeStatus + 3, 2)]).codec with encs := State.reset.codec.encs.set 3 { cmd := leBytes 48 810560526284799664439354888887254533600842218539917207229032063010683370864640, done := 0 } } }, by decide +kernel, ⟨⟨_, rfl, by decide +kernel, rfl⟩, by decide +kernel, by decide +kernel⟩⟩


/-! ### Hypotheses that are met: The compositor -/

theorem test_composeLine : ∃ (t ink line : Nat) (c : Copy) (x : Content) (s : State),
  (ink < 8) ∧ (fun b => b.fnOn fnComp = true ∧ b.composeCopy ink = some c ∧ b.content? c.num = some x
        ∧ c.composed.getD ink 0 = line ∧ c.bandBlank ink (line / 64) ≠ some true ∧ line < 2
        ∧ line < c.written.getD ink 0 + 2 ∧ b.sourcesReady x ink line = true) (s.begun t) :=
  ⟨5, 2, 0, { num := 0, mode := 3, lines := 64, composed := List.replicate 8 0 }, { num := 0, layers := List.replicate 8 none, package := none, centre := 0 }, { lab [(K.FunctionStatus + 3, 1)] with fire := { (lab [(K.FunctionStatus + 3, 1)]).fire with copies := [{ num := 0, mode := 3, lines := 64, composed := List.replicate 8 0 }] }, comp := { (lab [(K.FunctionStatus + 3, 1)]).comp with contents := [{ num := 0, layers := List.replicate 8 none, package := none, centre := 0 }] } }, by decide +kernel, ⟨by decide +kernel, by decide +kernel, by decide +kernel, by decide +kernel, by decide +kernel, by decide +kernel, by decide +kernel, by decide +kernel⟩⟩

theorem test_copyDecision : ∃ (t mode : Nat) (m : Int) (s : State),
  (fun b => b.fnOn fnComp = true ∧ b.nextDecision = some (m, mode) ∧ b.decisionDue m mode = true) (s.begun t) :=
  ⟨5, 3, 0, { lab [(K.FunctionStatus + 3, 1), (K.ModePending, 3), (K.ChannelType, 1), (K.MasterChannel, 0)] with pos := { (lab [(K.FunctionStatus + 3, 1), (K.ModePending, 3), (K.ChannelType, 1), (K.MasterChannel, 0)]).pos with chans := State.reset.pos.chans.set 0 { total := 10^30 } } }, ⟨by decide +kernel, by decide +kernel, by decide +kernel⟩⟩

theorem test_layerCommit_1 : ∃ (t l v target : Nat) (w : Wr) (s : State),
  (l < 8) ∧ (fun b => b.takes (0x4301 + 0x10 * l) 1 w v ∧ target = (if v = 0 then b.nextUndecided else v)
        ∧ l < b.comp.layers.length ∧ b.takesFor target = true
      ∧ b.commitRefusal l (b.stagedDesc l) target = 0) (s.begun t) :=
  ⟨5, 2, 9, 9, ⟨.core 0, 0, 8, 9⟩, { lab [(K.JobId + 2 * 0x1000, 3)] with comp := { State.reset.comp with layers := State.reset.comp.layers }, codec := { State.reset.codec with jobs := [{ id := 3, place := 0, state := 2 }] } }, by decide +kernel, ⟨⟨_, rfl, by decide +kernel, rfl⟩, by decide +kernel, by decide +kernel, by decide +kernel, by decide +kernel⟩⟩

theorem test_layerCommit_2 : ∃ (t l v target : Nat) (w : Wr) (s : State),
  (l < 8) ∧ (fun b => b.takes (0x4301 + 0x10 * l) 1 w v ∧ target = (if v = 0 then b.nextUndecided else v)
        ∧ b.takesFor target = true ∧ b.commitRefusal l (b.stagedDesc l) target ≠ 0) (s.begun t) :=
  ⟨5, 2, 9, 9, ⟨.core 0, 0, 8, 9⟩, lab [], by decide +kernel, ⟨⟨_, rfl, by decide +kernel, rfl⟩, by decide +kernel, by decide +kernel, by decide +kernel⟩⟩

theorem test_layerEmptyCommit : ∃ (t l v target : Nat) (w : Wr) (s : State),
  (l < 8) ∧ (fun b => b.takes (0x4301 + 0x10 * l) 2 w v ∧ target = (if v = 0 then b.nextUndecided else v)
        ∧ l < b.comp.layers.length ∧ b.takesFor target = true ∧ b.copyDecided target = false) (s.begun t) :=
  ⟨5, 2, 9, 9, ⟨.core 0, 0, 8, 9⟩, lab [], by decide +kernel, ⟨⟨_, rfl, by decide +kernel, rfl⟩, by decide +kernel, by decide +kernel, by decide +kernel, by decide +kernel⟩⟩

theorem test_fenceReached : ∃ (t l v : Nat) (w : Wr) (s : State),
  (l < 8) ∧ (fun b => b.takes (0x4301 + 0x10 * l) 3 w v) (s.begun t) :=
  ⟨5, 2, 9, ⟨.core 0, 0, 4, 9⟩, lab [], by decide +kernel, ⟨_, rfl, by decide +kernel, rfl⟩⟩

theorem test_protectedLoad : ∃ (t : Nat) (w : Wr) (s : State),
  (fun b => b.takes 0x4381 1 w 1 ∧ b.isHolder = true ∧ b.comp.checking = false ∧ b.sec.loading = none) (s.begun t) :=
  ⟨5, ⟨.core 0, 0, 1, 1⟩, lab [], ⟨⟨_, rfl, by decide +kernel, rfl⟩, by decide +kernel, by decide +kernel, by decide +kernel⟩⟩

theorem test_protectedLayerLoaded_1 : ∃ (t : Nat) (s : State),
  (fun b => b.comp.checking = true ∧ b.packageRefusal protectedInboxAt 0x1000000 2 false ≠ 0) (s.begun t) :=
  ⟨5, { lab [] with comp := { (lab []).comp with checking := true } }, ⟨by decide +kernel, by decide +kernel⟩⟩

theorem test_protectedLayerLoaded_2 : ∃ (t : Nat) (p : List Nat) (s : State),
  (fun b => b.comp.checking = true ∧ b.packageRefusal protectedInboxAt 0x1000000 2 false = 0
        ∧ p = b.bytesAt (protectedInboxAt + 224) (Memory.value b.mem (protectedInboxAt + 12) 4)
        ∧ b.payloadFits p = true) (s.begun t) :=
  ⟨5, ((leBytes 395 0x100010000000000000001000000000000000100010002000000000000000000105053)), { lab [(K.KeyStatus + 9, 66)] with mem := [(137489285120, 80#8), (137489285121, 75#8), (137489285122, 16#8), (137489285123, 2#8), (137489285124, 49#8), (137489285132, 139#8), (137489285133, 1#8), (137489285152, 255#8), (137489285153, 20#8), (137489285154, 245#8), (137489285155, 197#8), (137489285156, 118#8), (137489285157, 61#8), (137489285158, 171#8), (137489285159, 180#8), (137489285160, 161#8), (137489285161, 212#8), (137489285162, 143#8), (137489285163, 105#8), (137489285164, 241#8), (137489285165, 65#8), (137489285166, 63#8), (137489285167, 175#8), (137489285168, 48#8), (137489285169, 164#8), (137489285170, 136#8), (137489285171, 4#8), (137489285172, 104#8), (137489285173, 30#8), (137489285174, 83#8), (137489285175, 217#8), (137489285176, 108#8), (137489285177, 33#8), (137489285178, 3#8), (137489285179, 37#8), (137489285180, 151#8), (137489285181, 102#8), (137489285182, 255#8), (137489285183, 110#8), (137489285184, 25#8), (137489285185, 207#8), (137489285186, 130#8), (137489285187, 54#8), (137489285188, 47#8), (137489285189, 58#8), (137489285190, 96#8), (137489285191, 127#8), (137489285192, 140#8), (137489285193, 205#8), (137489285194, 124#8), (137489285195, 251#8), (137489285196, 32#8), (137489285197, 169#8), (137489285198, 232#8), (137489285199, 28#8), (137489285248, 50#8), (137489285249, 238#8), (137489285250, 92#8), (137489285251, 66#8), (137489285252, 178#8), (137489285253, 254#8), (137489285254, 86#8), (137489285255, 52#8), (137489285256, 114#8), (137489285257, 3#8), (137489285258, 184#8), (137489285259, 237#8), (137489285260, 234#8), (137489285261, 132#8), (137489285262, 65#8), (137489285263, 159#8), (137489285264, 132#8), (137489285265, 7#8), (137489285266, 1#8), (137489285267, 64#8), (137489285268, 77#8), (137489285269, 73#8), (137489285270, 195#8), (137489285271, 93#8), (137489285272, 169#8), (137489285273, 183#8), (137489285274, 149#8), (137489285275, 238#8), (137489285277, 9#8), (137489285278, 5#8), (137489285279, 65#8), (137489285280, 148#8), (137489285281, 82#8), (137489285282, 190#8), (137489285283, 16#8), (137489285284, 98#8), (137489285285, 50#8), (137489285286, 96#8), (137489285287, 184#8), (137489285288, 124#8), (137489285289, 204#8), (137489285290, 96#8), (137489285291, 170#8), (137489285292, 255#8), (137489285293, 246#8), (137489285294, 66#8), (137489285295, 57#8), (137489285296, 155#8), (137489285297, 118#8), (137489285298, 4#8), (137489285299, 28#8), (137489285300, 219#8), (137489285301, 162#8), (137489285302, 17#8), (137489285303, 129#8), (137489285304, 32#8), (137489285305, 201#8), (137489285306, 112#8), (137489285307, 123#8), (137489285308, 165#8), (137489285309, 13#8), (137489285310, 164#8), (137489285311, 96#8), (137489285312, 76#8), (137489285313, 191#8), (137489285314, 255#8), (137489285315, 167#8), (137489285316, 20#8), (137489285317, 139#8), (137489285318, 49#8), (137489285319, 78#8), (137489285320, 99#8), (137489285321, 13#8), (137489285322, 158#8), (137489285323, 113#8), (137489285324, 217#8), (137489285325, 237#8), (137489285326, 4#8), (137489285327, 233#8), (137489285328, 52#8), (137489285329, 165#8), (137489285330, 213#8), (137489285331, 228#8), (137489285332, 95#8), (137489285333, 67#8), (137489285334, 27#8), (137489285335, 243#8), (137489285336, 89#8), (137489285337, 109#8), (137489285338, 174#8), (137489285339, 196#8), (137489285340, 34#8), (137489285341, 247#8), (137489285342, 134#8), (137489285343, 133#8), (137489285344, 83#8), (137489285345, 80#8), (137489285346, 16#8), (137489285356, 2#8), (137489285358, 1#8), (137489285360, 1#8), (137489285368, 1#8), (137489285376, 1#8), (137489285378, 1#8)], comp := { State.reset.comp with checking := true }, sec := { State.reset.sec with keys := [(0x31, beBytes 96 0xfbf96095915eb587390f850ec95b35f618ae121c72a70808ad8f9f4c261b602b63541743e395f7c778e52bb28c18dc83016a6ff3f72c9368326ad50a3bd148a53cd2213bb480e4730ad019db87ae100995ec65df011e19811a15dc9ddfc9ab3c)] } }, ⟨by decide +kernel, by decide +kernel, by decide +kernel, by decide +kernel⟩⟩


/-! ### Hypotheses that are met: The tone pipeline -/

theorem test_decideDropLine : ∃ (t ink : Nat) (c : Copy) (r : Ring) (s : State),
  (ink < 8) ∧ (fun b => b.fnOn fnTone = true ∧ b.laneCopy ink = some c ∧ b.copy? c.num = some c
        ∧ b.ring? c.mode ink = some r ∧ c.ladder = none ∧ c.dropped = []
        ∧ c.bandBlank ink (c.written.getD ink 0 / 64) = some false
      ∧ c.written.getD ink 0 < c.composed.getD ink 0) (s.begun t) :=
  ⟨5, 2, { num := 0, mode := 3, lines := 64, composed := List.replicate 8 1, bands := [(2, 0, false)] }, ⟨2, 3, 0x2080000000, 64, 16⟩, { lab [(K.FunctionStatus + 4, 1)] with fire := { (lab [(K.FunctionStatus + 4, 1)]).fire with copies := [{ num := 0, mode := 3, lines := 64, composed := List.replicate 8 1, bands := [(2, 0, false)] }], rings := [⟨2, 3, 0x2080000000, 64, 16⟩] } }, by decide +kernel, ⟨by decide +kernel, by decide +kernel, by decide +kernel, by decide +kernel, by decide +kernel, by decide +kernel, by decide +kernel, by decide +kernel⟩⟩

theorem test_missingNozzleMark : ∃ (t v : Nat) (w : Wr) (s : State),
  (fun b => b.inv = true ∧ b.takes 0x2630 3 w v ∧ v < b.nozzleCount ∧ b.missingOf v = 0) (s.begun t) :=
  ⟨5, 9, ⟨.core 0, 0, 4, 9⟩, lab [], ⟨by decide +kernel, ⟨_, rfl, by decide +kernel, rfl⟩, by decide +kernel, by decide +kernel⟩⟩

theorem test_missingNozzleClear : ∃ (t v : Nat) (w : Wr) (s : State),
  (fun b => b.inv = true ∧ b.takes 0x2630 4 w v ∧ v < b.nozzleCount ∧ b.missingOf v ≠ 0) (s.begun t) :=
  ⟨5, 9, ⟨.core 0, 0, 4, 9⟩, { lab [(K.MissingCount, 1)] with mem := [(0x2005000002, 4#8)] }, ⟨by decide +kernel, ⟨_, rfl, by decide +kernel, rfl⟩, by decide +kernel, by decide +kernel⟩⟩

theorem test_compensationBuild : ∃ (t : Nat) (s : State),
  (fun b => b.reg K.BankOwner = 1 ∧ b.tone.wanted = true ∧ b.reg K.BankCommitState ≠ 1
        ∧ b.reg K.BankCommitState ≠ 2 ∧ b.flag K.BankCopyBusy = false ∧ b.isHolder = true) (s.begun t) :=
  ⟨5, { lab [(K.BankOwner, 1)] with tone := { (lab [(K.BankOwner, 1)]).tone with wanted := true } }, ⟨by decide +kernel, by decide +kernel, by decide +kernel, by decide +kernel, by decide +kernel, by decide +kernel⟩⟩

theorem test_bankCopyRequest : ∃ (t : Nat) (w : Wr) (s : State),
  (fun b => b.takes 0x2601 6 w 1 ∧ b.flag K.BankCopyBusy = false ∧ b.reg K.BankCommitState ≠ 1
        ∧ b.reg K.BankCommitState ≠ 2) (s.begun t) :=
  ⟨5, ⟨.core 0, 0, 1, 1⟩, lab [], ⟨⟨_, rfl, by decide +kernel, rfl⟩, by decide +kernel, by decide +kernel, by decide +kernel⟩⟩

theorem test_bankCopyDone : ∃ (t : Nat) (s : State),
  (fun b => b.tone.copying = true) (s.begun t) :=
  ⟨5, { lab [(K.BankCopyBusy, 1)] with tone := { (lab [(K.BankCopyBusy, 1)]).tone with copying := true } }, by decide +kernel⟩

theorem test_bankCommit : ∃ (t v target : Nat) (w : Wr) (s : State),
  (fun b => b.takes 0x2601 1 w v ∧ target = (if v = 0 then b.nextUndecided else v) ∧ b.takesFor target = true
        ∧ b.reg K.BankOwner ≠ 1 ∧ b.flag K.BankCopyBusy = false ∧ b.reg K.BankCommitState ≠ 1
        ∧ b.reg K.BankCommitState ≠ 2) (s.begun t) :=
  ⟨5, 9, 9, ⟨.core 0, 0, 8, 9⟩, lab [(K.BankOwner, 0)], ⟨⟨_, rfl, by decide +kernel, rfl⟩, by decide +kernel, by decide +kernel, by decide +kernel, by decide +kernel, by decide +kernel, by decide +kernel⟩⟩

theorem test_bankCommitChecked_1 : ∃ (t : Nat) (s : State),
  (fun b => b.reg K.BankCommitState = 1 ∧ b.bankRefusal ≠ 0) (s.begun t) :=
  ⟨5, { lab [(K.BankCommitState, 1)] with tone := { (lab [(K.BankCommitState, 1)]).tone with late := true } }, ⟨by decide +kernel, by decide +kernel⟩⟩

theorem test_bankCommitChecked_2 : ∃ (t : Nat) (s : State),
  (fun b => b.reg K.BankCommitState = 1 ∧ b.bankRefusal = 0 ∧ isPrint b.mode = true) (s.begun t) :=
  ⟨5, lab [(K.BankCommitState, 1), (K.ModeActual, 3)], ⟨by decide +kernel, by decide +kernel, by decide +kernel⟩⟩

theorem test_bankCommitChecked_3 : ∃ (t : Nat) (s : State),
  (fun b => b.reg K.BankCommitState = 1 ∧ b.bankRefusal = 0 ∧ isPrint b.mode = false) (s.begun t) :=
  ⟨5, lab [(K.BankCommitState, 1)], ⟨by decide +kernel, by decide +kernel, by decide +kernel⟩⟩

theorem test_bankCommitCancel : ∃ (t : Nat) (w : Wr) (s : State),
  (fun b => b.takes 0x2601 2 w 1 ∧ (b.reg K.BankCommitState = 1 ∨ b.reg K.BankCommitState = 2)) (s.begun t) :=
  ⟨5, ⟨.core 0, 0, 1, 1⟩, lab [(K.BankCommitState, 2)], ⟨⟨_, rfl, by decide +kernel, rfl⟩, by decide +kernel⟩⟩

theorem test_screenArrayLoad_1 : ∃ (t v : Nat) (w : Wr) (s : State),
  (fun b => b.takes 0x2610 1 w v ∧ v &&& 0x01FF0107 = v
        ∧ b.screenRefusal (bits v 0 3) (bits v 8 1) (bits v 16 9) = 0) (s.begun t) :=
  ⟨5, 327938, ⟨.core 0, 0, 4, 327938⟩, lab [], ⟨⟨_, rfl, by decide +kernel, rfl⟩, by decide +kernel, screen_accepted⟩⟩

theorem test_screenArrayLoad_2 : ∃ (t v : Nat) (w : Wr) (s : State),
  (fun b => b.takes 0x2610 1 w v ∧ v &&& 0x01FF0107 = v
        ∧ b.screenRefusal (bits v 0 3) (bits v 8 1) (bits v 16 9) ≠ 0) (s.begun t) :=
  ⟨5, 33489154, ⟨.core 0, 0, 4, 33489154⟩, lab [], ⟨⟨_, rfl, by decide +kernel, rfl⟩, by decide +kernel, by decide +kernel⟩⟩

theorem test_screenArrayCommitted : ∃ (t slot format unit : Nat) (s : State),
  (slot < 8) ∧ (fun b => b.tone.load = some ⟨slot, format, unit⟩) (s.begun t) :=
  ⟨5, 2, 1, 5, { lab [] with tone := { (lab []).tone with load := some ⟨2, 1, 5⟩ } }, by decide +kernel, by decide +kernel⟩

theorem test_screenArrayRelease : ∃ (t v : Nat) (w : Wr) (s : State),
  (v < 8) ∧ (fun b => b.takes 0x2610 2 w v ∧ b.slotInUse v = false) (s.begun t) :=
  ⟨5, 2, ⟨.core 0, 0, 1, 2⟩, lab [(K.ScreenSlotState + 2, 0x80050100)], by decide +kernel, ⟨⟨_, rfl, by decide +kernel, rfl⟩, by decide +kernel⟩⟩


/-! ### Hypotheses that are met: Firing -/

theorem test_rowLineIssue_1 : ∃ (t : Nat) (d : Due) (c : Copy) (ring : Ring) (bank : Nat) (s : State),
  (fun b => b.fnOn fnFire = true ∧ b.fire.service = none
        ∧ (b.copyDue (b.predictor (signedOf 4 (Config.freeValue b.free)))).foldr insertDue [] = [d] ∧ d.fate = .send
        ∧ b.copy? d.num = some c ∧ b.ring? c.mode (b.linkInk d.l) = some ring
        ∧ b.bankOf d.l d.sl (b.versionFor d.num (b.headType d.l d.sl)) = some bank
        ∧ 12 * d.l + d.sl < b.fire.heads.length ∧ d.r < (b.head d.l d.sl).rows.length) (s.begun t) :=
  ⟨1000000, ⟨0, 0, 0, 0, 63, 5727338889216000, 218562560000, .send⟩, { num := 0, mode := 3, lines := 64, composed := List.replicate 8 64, written := List.replicate 8 64, versions := List.replicate 8 5 }, ⟨2, 3, 0x2080000000, 64, 16⟩, 0, { lab [(K.PredictionWindow, 100), (K.IssueLead, 20000000), (K.Bank0Version, 5), (K.BankStatus, 2), (K.SlotConfigured, 1), (K.HeadState, 2), (K.LinkInk, 2), (K.RowCount, 1), (K.LinkState, 3), (K.ChannelType, 1), (K.MasterChannel, 0), (K.FunctionStatus + 5, 1), (K.FunctionStatus + 6, 1)] with fire := { (lab [(K.PredictionWindow, 100), (K.IssueLead, 20000000), (K.Bank0Version, 5), (K.BankStatus, 2), (K.SlotConfigured, 1), (K.HeadState, 2), (K.LinkInk, 2), (K.RowCount, 1), (K.LinkState, 3), (K.ChannelType, 1), (K.MasterChannel, 0), (K.FunctionStatus + 5, 1), (K.FunctionStatus + 6, 1)]).fire with copies := [{ num := 0, mode := 3, lines := 64, composed := List.replicate 8 64, written := List.replicate 8 64, versions := List.replicate 8 5 }], rings := [⟨2, 3, 0x2080000000, 64, 16⟩], heads := State.reset.fire.heads.set 0 { rows := [{ next := some (0, 63) }, {}, {}, {}] } }, pos := { (lab [(K.PredictionWindow, 100), (K.IssueLead, 20000000), (K.Bank0Version, 5), (K.BankStatus, 2), (K.SlotConfigured, 1), (K.HeadState, 2), (K.LinkInk, 2), (K.RowCount, 1), (K.LinkState, 3), (K.ChannelType, 1), (K.MasterChannel, 0), (K.FunctionStatus + 5, 1), (K.FunctionStatus + 6, 1)]).pos with chans := State.reset.pos.chans.set 0 { total := 4294967296000000, valid := true, speed := 100000 }, bases := [(0, 0)], samples := [(1000000, 4294967296000000, 100000), (0, 0, 100000)] } }, ⟨by decide +kernel, by decide +kernel, by decide +kernel, by decide +kernel, by decide +kernel, by decide +kernel, by decide +kernel, by decide +kernel, by decide +kernel⟩⟩

theorem test_rowLineIssue_2 : ∃ (t : Nat) (d : Due) (c : Copy) (s : State),
  (fun b => b.fnOn fnFire = true ∧ b.fire.service = none
        ∧ (b.copyDue (b.predictor (signedOf 4 (Config.freeValue b.free)))).foldr insertDue [] = [d] ∧ d.fate = .skip
        ∧ b.copy? d.num = some c
        ∧ 12 * d.l + d.sl < b.fire.heads.length ∧ d.r < (b.head d.l d.sl).rows.length) (s.begun t) :=
  ⟨1000000, ⟨0, 0, 0, 0, 63, 5727338889216000, 0, .skip⟩, { num := 0, mode := 3, lines := 64, composed := List.replicate 8 64, written := List.replicate 8 64, versions := List.replicate 8 5 }, { lab [(K.SlotConfigured, 1), (K.HeadState, 2), (K.LinkInk, 2), (K.RowCount, 1), (K.LinkState, 3), (K.ChannelType, 1), (K.MasterChannel, 0), (K.FunctionStatus + 5, 1), (K.FunctionStatus + 6, 1)] with fire := { (lab [(K.SlotConfigured, 1), (K.HeadState, 2), (K.LinkInk, 2), (K.RowCount, 1), (K.LinkState, 3), (K.ChannelType, 1), (K.MasterChannel, 0), (K.FunctionStatus + 5, 1), (K.FunctionStatus + 6, 1)]).fire with copies := [{ num := 0, mode := 3, lines := 64, composed := List.replicate 8 64, written := List.replicate 8 64, versions := List.replicate 8 5 }], rings := [⟨2, 3, 0x2080000000, 64, 16⟩], heads := State.reset.fire.heads.set 0 { rows := [{ next := some (0, 63) }, {}, {}, {}] } }, pos := { (lab [(K.SlotConfigured, 1), (K.HeadState, 2), (K.LinkInk, 2), (K.RowCount, 1), (K.LinkState, 3), (K.ChannelType, 1), (K.MasterChannel, 0), (K.FunctionStatus + 5, 1), (K.FunctionStatus + 6, 1)]).pos with chans := State.reset.pos.chans.set 0 { total := 1000000000000000000000000000000 }, bases := [(0, 0)] } }, ⟨by decide +kernel, by decide +kernel, by decide +kernel, by decide +kernel, by decide +kernel, by decide +kernel, by decide +kernel⟩⟩

theorem test_telemetryTimeout : ∃ (t l slot : Nat) (s : State),
  (fun b => (b.headState l slot = 2 ∨ b.headState l slot = 3) ∧ 12 * l + slot < b.fire.heads.length
        ∧ ∀ x, (b.head l slot).reportAt = some x → x + b.reg K.TelemetryTimeout ≤ b.now) (s.begun t) :=
  ⟨1000000000000, 0, 0, { lab [(K.TelemetryTimeout, 1000), (K.SlotConfigured, 1), (K.HeadState, 2), (K.LinkInk, 2), (K.RowCount, 1), (K.LinkState, 3)] with fire := { (lab [(K.TelemetryTimeout, 1000), (K.SlotConfigured, 1), (K.HeadState, 2), (K.LinkInk, 2), (K.RowCount, 1), (K.LinkState, 3)]).fire with heads := State.reset.fire.heads.set 0 { reportAt := some 4 } } }, ⟨by decide +kernel, by decide +kernel, (fun x hx => by cases hx; decide +kernel)⟩⟩

theorem test_headRecovered : ∃ (t l slot x : Nat) (s : State),
  (fun b => (b.headState l slot = 3 ∨ b.headState l slot = 4) ∧ 12 * l + slot < b.fire.heads.length
        ∧ (b.head l slot).goodSince = some x ∧ x + b.reg K.HeadRecoverTime ≤ b.now) (s.begun t) :=
  ⟨1000000000000, 0, 0, 4, { lab [(K.SlotConfigured, 1), (K.HeadState, 3), (K.LinkInk, 2), (K.RowCount, 1), (K.LinkState, 3)] with fire := { (lab [(K.SlotConfigured, 1), (K.HeadState, 3), (K.LinkInk, 2), (K.RowCount, 1), (K.LinkState, 3)]).fire with heads := State.reset.fire.heads.set 0 { goodSince := some 4 } } }, ⟨by decide +kernel, by decide +kernel, by decide +kernel, by decide +kernel⟩⟩

theorem test_tickleReady : ∃ (t : Nat) (s : State),
  (fun b => b.reg K.TickleReadyRate ≠ 0 ∧ b.health.shuttingDown = false ∧ b.mode = mReady ∧ b.inTransition = false
        ∧ b.fire.tickleAt + 1000000000 / b.reg K.TickleReadyRate ≤ b.now) (s.begun t) :=
  ⟨1000000000000, lab [(K.ModeActual, 1), (K.TickleReadyRate, 10), (K.Bank0Version, 5), (K.BankStatus, 2), (K.WaveVersionInForce, 5), (K.SlotConfigured, 1), (K.HeadState, 2), (K.LinkInk, 2), (K.RowCount, 1), (K.LinkState, 3), (K.FunctionStatus + 5, 1), (K.FunctionStatus + 6, 1)], ⟨by decide +kernel, by decide +kernel, by decide +kernel, by decide +kernel, by decide +kernel⟩⟩

theorem test_wavePushRequest_1 : ∃ (t v : Nat) (w : Wr) (s : State),
  (fun b => b.takes 0x2710 1 w v ∧ b.isHolder = true ∧ b.pushRefusal v = 0) (s.begun t) :=
  ⟨5, 1, ⟨.core 0, 0, 1, 1⟩, { lab [(K.WavePushVersion, 5), (K.SlotConfigured, 1), (K.HeadState, 2), (K.LinkInk, 2), (K.RowCount, 1), (K.LinkState, 3), (K.FunctionStatus + 5, 1), (K.FunctionStatus + 6, 1)] with mem := [(137573171200, 87#8), (137573171201, 70#8), (137573171202, 16#8), (137573171203, 1#8), (137573171204, 1#8), (137573171205, 255#8), (137573171212, 16#8), (137573171213, 39#8), (137573171217, 128#8), (137573171218, 128#8), (137573171219, 128#8), (137573173312, 244#8), (137573173313, 111#8), (137573173314, 196#8), (137573173315, 105#8)] }, ⟨⟨_, rfl, by decide +kernel, rfl⟩, by decide +kernel, by decide +kernel⟩⟩

theorem test_wavePushRequest_2 : ∃ (t v : Nat) (w : Wr) (s : State),
  (fun b => b.takes 0x2710 1 w v ∧ b.isHolder = true ∧ b.pushRefusal v ≠ 0) (s.begun t) :=
  ⟨5, 1, ⟨.core 0, 0, 1, 1⟩, lab [(K.WavePushVersion, 5)], ⟨⟨_, rfl, by decide +kernel, rfl⟩, by decide +kernel, by decide +kernel⟩⟩

theorem test_waveAck_1 : ∃ (t l slot : Nat) (data : List Nat) (p : Push) (s : State),
  (fun b => b.fire.push = some p ∧ field data 1 1 = 0 ∧ field data 4 4 = p.version ∧ field data 0 1 = 0
        ∧ p.waiting.any (fun x => x.1 == 12 * l + slot) = true) (s.begun t) :=
  ⟨5, 0, 0, [0, 0, 0, 0, 5, 0, 0, 0], ({ mask := 1, version := 5, tables := [], todo := [], waiting := [(0, 3)] }), { lab [(K.SlotConfigured, 1), (K.HeadState, 2), (K.LinkInk, 2), (K.RowCount, 1), (K.LinkState, 3)] with fire := { (lab [(K.SlotConfigured, 1), (K.HeadState, 2), (K.LinkInk, 2), (K.RowCount, 1), (K.LinkState, 3)]).fire with push := some { mask := 1, version := 5, tables := [], todo := [], waiting := [(0, 3)] } } }, ⟨by decide +kernel, by decide +kernel, by decide +kernel, by decide +kernel, by decide +kernel⟩⟩

theorem test_waveAck_2 : ∃ (t l slot : Nat) (data : List Nat) (p : Push) (s : State),
  (fun b => b.fire.push = some p ∧ field data 1 1 = 0 ∧ field data 4 4 = p.version ∧ field data 0 1 = 1
        ∧ p.tokens = [12 * l + slot]) (s.begun t) :=
  ⟨5, 0, 0, [1, 0, 0, 0, 5, 0, 0, 0], ({ mask := 1, version := 5, tables := [], todo := [], acked := [0], tokens := [0] }), { lab [(K.SlotConfigured, 1), (K.HeadState, 2), (K.LinkInk, 2), (K.RowCount, 1), (K.LinkState, 3)] with fire := { (lab [(K.SlotConfigured, 1), (K.HeadState, 2), (K.LinkInk, 2), (K.RowCount, 1), (K.LinkState, 3)]).fire with push := some { mask := 1, version := 5, tables := [], todo := [], acked := [0], tokens := [0] } } }, ⟨by decide +kernel, by decide +kernel, by decide +kernel, by decide +kernel, by decide +kernel⟩⟩

theorem test_waveAckTimeout : ∃ (t l slot : Nat) (p : Push) (s : State),
  (fun b => b.fire.push = some p
        ∧ p.waiting.any (fun x => x.1 == 12 * l + slot && x.2 + b.reg K.WaveAckTimeout ≤ b.now) = true) (s.begun t) :=
  ⟨1000000000000, 0, 0, ({ mask := 1, version := 5, tables := [], todo := [], waiting := [(0, 3)] }), { lab [(K.SlotConfigured, 1), (K.HeadState, 2), (K.LinkInk, 2), (K.RowCount, 1), (K.LinkState, 3)] with fire := { (lab [(K.SlotConfigured, 1), (K.HeadState, 2), (K.LinkInk, 2), (K.RowCount, 1), (K.LinkState, 3)]).fire with push := some { mask := 1, version := 5, tables := [], todo := [], waiting := [(0, 3)] } } }, ⟨by decide +kernel, by decide +kernel⟩⟩

theorem test_wavePushCancel : ∃ (t : Nat) (w : Wr) (s : State),
  (fun b => b.takes 0x2710 6 w 1 ∧ b.reg K.WavePushState = 1) (s.begun t) :=
  ⟨5, ⟨.core 0, 0, 1, 1⟩, { lab [(K.WavePushState, 1)] with fire := { (lab [(K.WavePushState, 1)]).fire with push := some { mask := 1, version := 5, tables := [], todo := [], waiting := [(0, 3)] } } }, ⟨⟨_, rfl, by decide +kernel, rfl⟩, by decide +kernel⟩⟩

theorem test_waveBankSwitch : ∃ (t ty v target : Nat) (w : Wr) (s : State),
  (ty < 8) ∧ (fun b => b.takes 0x2713 (ty + 1) w v ∧ target = (if v = 0 then b.nextUndecided else v)
      ∧ b.takesFor target = true
        ∧ b.reg (K.WaveVersionStaged + ty) ≠ 0
      ∧ b.untokened ty (b.reg (K.WaveVersionStaged + ty)) = false) (s.begun t) :=
  ⟨5, 0, 9, 9, ⟨.core 0, 0, 8, 9⟩, lab [(K.WaveVersionStaged, 5), (K.WaveSwitchCopy, 0xFFFFFFFFFFFFFFFF)], by decide +kernel, ⟨⟨_, rfl, by decide +kernel, rfl⟩, by decide +kernel, by decide +kernel, by decide +kernel, by decide +kernel⟩⟩

theorem test_serviceSpit : ∃ (t : Nat) (w : Wr) (s : State),
  (fun b => w.val = 1 ∧ b.takes 0x2740 1 w 1 ∧ b.mode = mService ∧ b.fire.service = none
        ∧ (b.reg K.SpitCode ≤ 3 ∨ b.serviceNarrow = false)) (s.begun t) :=
  ⟨5, ⟨.core 0, 0, 1, 1⟩, lab [(K.ModeActual, 2)], ⟨by decide +kernel, ⟨_, rfl, by decide +kernel, rfl⟩, by decide +kernel, by decide +kernel, by decide +kernel⟩⟩

theorem test_servicePurge : ∃ (t : Nat) (w : Wr) (s : State),
  (fun b => w.val = 2 ∧ b.takes 0x2740 1 w 2 ∧ b.mode = mService ∧ b.fire.service = none) (s.begun t) :=
  ⟨5, ⟨.core 0, 0, 1, 2⟩, lab [(K.ModeActual, 2)], ⟨by decide +kernel, ⟨_, rfl, by decide +kernel, rfl⟩, by decide +kernel, by decide +kernel⟩⟩

theorem test_serviceLadder : ∃ (t : Nat) (w : Wr) (s : State),
  (fun b => w.val = 3 ∧ b.takes 0x2740 1 w 3 ∧ b.mode = mService ∧ b.fire.service = none ∧ b.speedValid = true
        ∧ b.webSpeed ≤ 500000 ∧ (b.reg K.LadderCode ≤ 3 ∨ b.serviceNarrow = false)) (s.begun t) :=
  ⟨5, ⟨.core 0, 0, 1, 3⟩, { lab [(K.ModeActual, 2), (K.ChannelType, 1), (K.MasterChannel, 0)] with pos := { (lab [(K.ModeActual, 2), (K.ChannelType, 1), (K.MasterChannel, 0)]).pos with chans := State.reset.pos.chans.set 0 { valid := true, speed := 1000 } } }, ⟨by decide +kernel, ⟨_, rfl, by decide +kernel, rfl⟩, by decide +kernel, by decide +kernel, by decide +kernel, by decide +kernel, by decide +kernel⟩⟩

theorem test_serviceCancel : ∃ (t : Nat) (w : Wr) (s : State),
  (fun b => w.val = 0 ∧ b.takes 0x2740 1 w 0 ∧ b.mode = mService ∧ b.fire.service.isSome = true) (s.begun t) :=
  ⟨5, ⟨.core 0, 0, 1, 0⟩, { lab [(K.ModeActual, 2), (K.ServiceState, 1)] with fire := { (lab [(K.ModeActual, 2), (K.ServiceState, 1)]).fire with service := some { pattern := 1, slots := [0], left := 3, nextAt := 4 } } }, ⟨by decide +kernel, ⟨_, rfl, by decide +kernel, rfl⟩, by decide +kernel, by decide +kernel⟩⟩

theorem test_spitPulse : ∃ (t : Nat) (v : Service) (s : State),
  (fun b => b.fire.service = some v ∧ v.pattern = 1 ∧ v.nextAt ≤ b.now) (s.begun t) :=
  ⟨5, { pattern := 1, slots := [0], left := 3, nextAt := 4 }, { lab [(K.ModeActual, 2), (K.ServiceState, 1), (K.SpitRate, 10)] with fire := { (lab [(K.ModeActual, 2), (K.ServiceState, 1), (K.SpitRate, 10)]).fire with service := some { pattern := 1, slots := [0], left := 3, nextAt := 4 } } }, ⟨by decide +kernel, by decide +kernel, by decide +kernel⟩⟩

theorem test_purgeEnd : ∃ (t : Nat) (v : Service) (s : State),
  (fun b => b.fire.service = some v ∧ v.pattern = 2 ∧ v.endAt ≤ b.now) (s.begun t) :=
  ⟨5, { pattern := 2, slots := [0], endAt := 4 }, { lab [(K.ModeActual, 2), (K.ServiceState, 1)] with fire := { (lab [(K.ModeActual, 2), (K.ServiceState, 1)]).fire with service := some { pattern := 2, slots := [0], endAt := 4 } } }, ⟨by decide +kernel, by decide +kernel, by decide +kernel⟩⟩

theorem test_tempCurveWrite : ∃ (t l slot v : Nat) (w : Wr) (s : State),
  (slot < 12) ∧ (fun b => l < b.linkCount ∧ b.takes (0x4100 + 12 * l + slot) 0x0F w v
      ∧ curveAscends v = true) (s.begun t) :=
  ⟨5, 0, 0, 0x70320000702bc00070258000701f4000701900007012c000700c800070064, ⟨.core 0, 0, 32, 0x70320000702bc00070258000701f4000701900007012c000700c800070064⟩, lab [], by decide +kernel, ⟨by decide +kernel, ⟨_, rfl, by decide +kernel, rfl⟩, by decide +kernel⟩⟩


/-! ### Hypotheses that are met: Reports on the head links -/

theorem test_statusRecord_1 : ∃ (t l : Nat) (data : List Nat) (s : State),
  (fun b => b.linkThere l = true ∧ (b.lnk l).lock = true ∧ b.lreg K.LinkVersion l ≠ 0
        ∧ (b.linkState l = 1 ∨ b.linkState l = 2) ∧ l < b.link.links.length) (s.begun t) :=
  ⟨5, 0, (leBytes 128 0), { lab [(K.LinkState, 1), (K.LinkVersion, 0x21)] with link := { (lab [(K.LinkState, 1), (K.LinkVersion, 0x21)]).link with links := State.reset.link.links.set 0 { clock := true, lock := true } } }, ⟨by decide +kernel, by decide +kernel, by decide +kernel, by decide +kernel, by decide +kernel⟩⟩

theorem test_statusRecord_2 : ∃ (t l : Nat) (data : List Nat) (s : State),
  (fun b => b.linkThere l = true ∧ (b.lnk l).lock = true ∧ b.lreg K.LinkVersion l ≠ 0 ∧ b.linkState l = 3
        ∧ l < b.link.links.length ∧ field data 3 1 ≠ 1) (s.begun t) :=
  ⟨5, 0, (leBytes 128 0), { lab [(K.LinkState, 3), (K.LinkVersion, 0x21)] with link := { (lab [(K.LinkState, 3), (K.LinkVersion, 0x21)]).link with links := State.reset.link.links.set 0 { clock := true, lock := true } } }, ⟨by decide +kernel, by decide +kernel, by decide +kernel, by decide +kernel, by decide +kernel, by decide +kernel⟩⟩

theorem test_bankReport : ∃ (t l slot : Nat) (data : List Nat) (s : State),
  (fun b => l < b.link.links.length) (s.begun t) :=
  ⟨5, 0, 0, (leBytes 32 0), { lab [(K.LinkState, 3), (K.LinkVersion, 0x21)] with link := { (lab [(K.LinkState, 3), (K.LinkVersion, 0x21)]).link with links := State.reset.link.links.set 0 {  } } }, by decide +kernel⟩

theorem test_lateRecord : ∃ (t l slot : Nat) (data : List Nat) (s : State),
  (fun _ => True) (s.begun t) :=
  ⟨5, 0, 0, (leBytes 32 0), { lab [(K.LinkState, 3), (K.LinkVersion, 0x21)] with link := { (lab [(K.LinkState, 3), (K.LinkVersion, 0x21)]).link with links := State.reset.link.links.set 0 {  } } }, trivial⟩

theorem test_rejectedRecord_1 : ∃ (t l slot : Nat) (data : List Nat) (x : Sent) (s : State),
  (slot < 16) ∧ (field data 0 1 ≠ 1) ∧ (fun b => ((b.lnk l).sent.find? fun y => y.seq == field data 2 2) = some x
      ∧ x.kind = pkLINE) (s.begun t) :=
  ⟨5, 0, 0, [0, 0, 9, 0, 0, 0, 0, 0], { seq := 9, kind := pkLINE, slot := 0 }, { lab [(K.LinkState, 3), (K.LinkVersion, 0x21)] with link := { (lab [(K.LinkState, 3), (K.LinkVersion, 0x21)]).link with links := State.reset.link.links.set 0 { sent := [{ seq := 9, kind := pkLINE, slot := 0 }] } } }, by decide +kernel, by decide +kernel, ⟨by decide +kernel, by decide +kernel⟩⟩

theorem test_rejectedRecord_2 : ∃ (t l slot : Nat) (data : List Nat) (s : State),
  (slot < 16) ∧ (field data 0 1 = 1) ∧ (fun _ => True) (s.begun t) :=
  ⟨5, 0, 0, [1, 0, 9, 0, 0, 0, 0, 0], { lab [(K.LinkState, 3), (K.LinkVersion, 0x21)] with link := { (lab [(K.LinkState, 3), (K.LinkVersion, 0x21)]).link with links := State.reset.link.links.set 0 { sent := [{ seq := 9, kind := pkLINE, slot := 0 }] } } }, by decide +kernel, by decide +kernel, trivial⟩

theorem test_nozzleFlag_1 : ∃ (t l slot : Nat) (data : List Nat) (s : State),
  (fun b =>
        let n := 49152 * l + b.reg (slotKey K.SlotFirstNozzle l slot) + field data 2 2
        b.inv = true ∧ field data 1 1 ≤ 2 ∧ bit (b.reg K.NozzleFlagKindMask) (field data 1 1) = true
        ∧ bit (b.reg K.SourceMask) 0 = true ∧ n < b.nozzleCount ∧ b.missingOf n = 0) (s.begun t) :=
  ⟨5, 0, 0, [0, 1, 9, 0, 0, 0, 0, 0], { lab [(K.NozzleFlagKindMask, 7), (K.SourceMask, 1), (K.LinkState, 3), (K.LinkVersion, 0x21)] with link := { (lab [(K.NozzleFlagKindMask, 7), (K.SourceMask, 1), (K.LinkState, 3), (K.LinkVersion, 0x21)]).link with links := State.reset.link.links.set 0 {  } } }, ⟨by decide +kernel, by decide +kernel, by decide +kernel, by decide +kernel, by decide +kernel, by decide +kernel⟩⟩

theorem test_nozzleFlag_2 : ∃ (t l slot : Nat) (data : List Nat) (s : State),
  (bit (field data 1 1) 7 = true) ∧ (fun _ => True) (s.begun t) :=
  ⟨5, 0, 0, [0, 129, 9, 0, 0, 0, 0, 0], { lab [(K.LinkState, 3), (K.LinkVersion, 0x21)] with link := { (lab [(K.LinkState, 3), (K.LinkVersion, 0x21)]).link with links := State.reset.link.links.set 0 {  } } }, by decide +kernel, trivial⟩

theorem test_cfgReply : ∃ (t l slot : Nat) (data : List Nat) (c : CfgReq) (s : State),
  (fun b => ((b.lnk l).cfgs.find? fun c => c.tag == field data 0 1 && c.slot == slot) = some c ∧ c.use = 0
        ∧ l < b.link.links.length) (s.begun t) :=
  ⟨5, 0, 0, [7, 0, 0, 0, 9, 0, 0, 0], { slot := 0, op := 0, count := 1, addr := 0, data := [], tag := 7, tries := 1, since := 3, use := 0 }, { lab [(K.HeadCfgState, 1), (K.LinkState, 3), (K.LinkVersion, 0x21)] with link := { (lab [(K.HeadCfgState, 1), (K.LinkState, 3), (K.LinkVersion, 0x21)]).link with links := State.reset.link.links.set 0 { cfgs := [{ slot := 0, op := 0, count := 1, addr := 0, data := [], tag := 7, tries := 1, since := 3, use := 0 }] } } }, ⟨by decide +kernel, by decide +kernel, by decide +kernel⟩⟩

theorem test_cfgTimeout : ∃ (t l : Nat) (c : CfgReq) (s : State),
  (fun b => ((b.lnk l).cfgs.find? fun c => c.since + b.reg K.CfgTimeout ≤ b.now) = some c ∧ c.use = 0) (s.begun t) :=
  ⟨1000000000, 0, { slot := 0, op := 0, count := 1, addr := 0, data := [], tag := 7, tries := 1, since := 3, use := 0 }, { lab [(K.HeadCfgState, 1), (K.CfgTimeout, 1000), (K.LinkState, 3), (K.LinkVersion, 0x21)] with link := { (lab [(K.HeadCfgState, 1), (K.CfgTimeout, 1000), (K.LinkState, 3), (K.LinkVersion, 0x21)]).link with links := State.reset.link.links.set 0 { cfgs := [{ slot := 0, op := 0, count := 1, addr := 0, data := [], tag := 7, tries := 1, since := 3, use := 0 }] } } }, ⟨by decide +kernel, by decide +kernel⟩⟩

theorem test_syncEcho : ∃ (t l arrival q dep : Nat) (data : List Nat) (s : State),
  (fun b => ((b.lnk l).echoWait.find? fun e => e.1 == field data 0 2) = some (q, dep) ∧ (b.lnk l).accepted < 16
        ∧ l < b.link.links.length) (s.begun t) :=
  ⟨5000, 0, 4000, 3, 100, (leBytes 16 3), { lab [(K.LinkState, 3), (K.LinkVersion, 0x21)] with link := { (lab [(K.LinkState, 3), (K.LinkVersion, 0x21)]).link with links := State.reset.link.links.set 0 { echoWait := [(3, 100)] } } }, ⟨by decide +kernel, by decide +kernel, by decide +kernel⟩⟩

theorem test_returnPacketRejected : ∃ (t l cause : Nat) (s : State),
  (cause ≤ 3) ∧ (fun b => b.linkThere l = true) (s.begun t) :=
  ⟨5, 0, 2, { lab [(K.LinkState, 3), (K.LinkVersion, 0x21)] with link := { (lab [(K.LinkState, 3), (K.LinkVersion, 0x21)]).link with links := State.reset.link.links.set 0 {  } } }, by decide +kernel, by decide +kernel⟩


/-! ### Hypotheses that are met: Bring-up and care of the head links -/

theorem test_returnClockValid : ∃ (t l : Nat) (s : State),
  (fun b => b.linkThere l = true ∧ (b.lnk l).clock = false ∧ (b.linkState l = 0 ∨ b.linkState l = 4)
        ∧ l < b.link.links.length) (s.begun t) :=
  ⟨5, 0, { lab [] with link := { (lab []).link with links := State.reset.link.links.set 0 {  } } }, ⟨by decide +kernel, by decide +kernel, by decide +kernel, by decide +kernel⟩⟩

theorem test_markerLock : ∃ (t l marker v : Nat) (s : State),
  (fun b =>
        let inv := bits marker 0 8 == 255 - 0x4B
        b.linkThere l = true ∧ (b.lnk l).clock = true ∧ (b.lnk l).lock = false ∧ b.linkState l = 1
        ∧ l < b.link.links.length ∧ (List.range 4).map (blockByte marker inv) = [0x4B, 2, 0x5A, 0xC3]
        ∧ v = agreedVersion (b.lreg K.LinkVersionLimit l) (blockByte marker inv 5) (blockByte marker inv 4) false) (s.begun t) :=
  ⟨5, 0, 35329383465547, 0x21, { lab [(K.LinkVersionLimit, 0x21), (K.LinkState, 1)] with link := { (lab [(K.LinkVersionLimit, 0x21), (K.LinkState, 1)]).link with links := State.reset.link.links.set 0 { clock := true } } }, ⟨by decide +kernel, by decide +kernel, by decide +kernel, by decide +kernel, by decide +kernel, by decide +kernel, by decide +kernel⟩⟩

theorem test_trainingBlockReceived : ∃ (t l block n : Nat) (s : State),
  (16 ≤ n) ∧ (blockByte block (bits block 0 8 == 255 - 0x2D) 0 = 0x2D) ∧ (fun b => b.linkThere l = true
      ∧ (b.lnk l).clock = true ∧ (b.lnk l).lock = false ∧ b.linkState l = 1) (s.begun t) :=
  ⟨5, 0, 45, 20, { lab [(K.LinkState, 1)] with link := { (lab [(K.LinkState, 1)]).link with links := State.reset.link.links.set 0 { clock := true } } }, by decide +kernel, by decide +kernel, ⟨by decide +kernel, by decide +kernel, by decide +kernel, by decide +kernel⟩⟩

theorem test_linkUpTimeout : ∃ (t l : Nat) (s : State),
  (fun b => b.linkThere l = true ∧ (b.lnk l).clock = true ∧ (b.linkState l = 1 ∨ b.linkState l = 2)
        ∧ (b.lnk l).clockAt + b.reg K.LinkUpTimeout ≤ b.now) (s.begun t) :=
  ⟨1000000000000, 0, { lab [(K.LinkState, 1), (K.LinkUpTimeout, 1000)] with link := { (lab [(K.LinkState, 1), (K.LinkUpTimeout, 1000)]).link with links := State.reset.link.links.set 0 { clock := true, clockAt := 3 } } }, ⟨by decide +kernel, by decide +kernel, by decide +kernel, by decide +kernel⟩⟩

theorem test_linkLoss : ∃ (t l cause : Nat) (s : State),
  (cause ≤ 2) ∧ (fun b => b.linkThere l = true ∧ b.linkState l = 3) (s.begun t) :=
  ⟨5, 0, 1, { lab [(K.LinkState, 3), (K.LinkVersion, 0x21)] with link := { (lab [(K.LinkState, 3), (K.LinkVersion, 0x21)]).link with links := State.reset.link.links.set 0 { clock := true, lock := true } } }, by decide +kernel, ⟨by decide +kernel, by decide +kernel⟩⟩

theorem test_linkRestart : ∃ (t l : Nat) (w : Wr) (s : State),
  (fun b => b.takes (0x4000 + 0x10 * l) 0x0F w 1 ∧ (b.mode = mStandby ∨ b.mode = mReady)) (s.begun t) :=
  ⟨5, 0, ⟨.core 0, 0, 1, 1⟩, { lab [(K.LinkState, 3), (K.LinkVersion, 0x21)] with link := { (lab [(K.LinkState, 3), (K.LinkVersion, 0x21)]).link with links := State.reset.link.links.set 0 {  } } }, ⟨⟨_, rfl, by decide +kernel, rfl⟩, by decide +kernel⟩⟩

theorem test_linkVersionLimitWrite : ∃ (t l v : Nat) (w : Wr) (s : State),
  (v = 0x12 ∨ v = 0x20 ∨ v = 0x21) ∧ (fun b => b.takes (0x4000 + 0x10 * l) 5 w v ∧ b.linkState l ≠ 6) (s.begun t) :=
  ⟨5, 0, 0x20, ⟨.core 0, 0, 1, 0x20⟩, { lab [(K.LinkState, 3), (K.LinkVersion, 0x21)] with link := { (lab [(K.LinkState, 3), (K.LinkVersion, 0x21)]).link with links := State.reset.link.links.set 0 {  } } }, Or.inr (Or.inl rfl), ⟨⟨_, rfl, by decide +kernel, rfl⟩, by decide +kernel⟩⟩

theorem test_prbsModeOn : ∃ (t l : Nat) (w : Wr) (s : State),
  (fun b => w.val = 1 ∧ b.takes (0x4001 + 0x10 * l) 7 w 1 ∧ b.mode = mReady ∧ b.inTransition = false
        ∧ b.linkUp l = true ∧ 0x20 ≤ b.lreg K.LinkVersion l ∧ bit (b.lreg K.PartnerFeatures l) 1 = true) (s.begun t) :=
  ⟨5, 0, ⟨.core 0, 0, 1, 1⟩, { lab [(K.ModeActual, 1), (K.PartnerFeatures, 7), (K.LinkState, 3), (K.LinkVersion, 0x21)] with link := { (lab [(K.ModeActual, 1), (K.PartnerFeatures, 7), (K.LinkState, 3), (K.LinkVersion, 0x21)]).link with links := State.reset.link.links.set 0 {  } } }, ⟨by decide +kernel, ⟨_, rfl, by decide +kernel, rfl⟩, by decide +kernel, by decide +kernel, by decide +kernel, by decide +kernel, by decide +kernel⟩⟩

theorem test_prbsModeOff : ∃ (t l rx : Nat) (w : Wr) (s : State),
  (fun b => w.val = 0 ∧ b.takes (0x4001 + 0x10 * l) 7 w 0 ∧ b.mode = mReady ∧ b.inTransition = false
        ∧ b.linkState l = 5) (s.begun t) :=
  ⟨5, 0, 3, ⟨.core 0, 0, 1, 0⟩, { lab [(K.ModeActual, 1), (K.PartnerFeatures, 7), (K.LinkState, 5), (K.LinkVersion, 0x21)] with link := { (lab [(K.ModeActual, 1), (K.PartnerFeatures, 7), (K.LinkState, 5), (K.LinkVersion, 0x21)]).link with links := State.reset.link.links.set 0 {  } } }, ⟨by decide +kernel, ⟨_, rfl, by decide +kernel, rfl⟩, by decide +kernel, by decide +kernel, by decide +kernel⟩⟩

theorem test_amPeriod : ∃ (t l errors : Nat) (s : State),
  (fun b => b.linkThere l = true ∧ b.linkState l ≠ 5 ∧ l < b.link.links.length) (s.begun t) :=
  ⟨5, 0, 2, { lab [(K.LinkState, 3), (K.LinkVersion, 0x21)] with link := { (lab [(K.LinkState, 3), (K.LinkVersion, 0x21)]).link with links := State.reset.link.links.set 0 { clock := true, lock := true } } }, ⟨by decide +kernel, by decide +kernel, by decide +kernel⟩⟩

theorem test_claimSend : ∃ (t : Nat) (s : State),
  (fun b => b.sys.dictReady = true) (s.begun t) :=
  ⟨5, { lab [(K.LinkState, 3), (K.LinkVersion, 0x21)] with link := { (lab [(K.LinkState, 3), (K.LinkVersion, 0x21)]).link with links := State.reset.link.links.set 0 { clock := true, lock := true } } }, by decide +kernel⟩

theorem test_headCfgRequest : ∃ (t l v : Nat) (w : Wr) (s : State),
  (fun b => b.takes (0x4002 + 0x10 * l) 1 w v ∧ b.linkUp l = true ∧ b.lreg K.HeadCfgState l ≠ 1
        ∧ (bits v 0 8 < 12 ∨ bits v 0 8 = 15)
        ∧ (bits v 8 8 = 0 ∨ (bits v 8 8 = 1 ∧ 0x80 ≤ bits v 32 16 ∧ b.isHolder = true))
        ∧ 1 ≤ bits v 16 8 ∧ bits v 16 8 ≤ 64 ∧ bits v 24 8 = 0 ∧ bits v 48 16 = 0) (s.begun t) :=
  ⟨5, 0, 65536, ⟨.core 0, 0, 264, 65536⟩, { lab [(K.LinkState, 3), (K.LinkVersion, 0x21)] with link := { (lab [(K.LinkState, 3), (K.LinkVersion, 0x21)]).link with links := State.reset.link.links.set 0 {  } } }, ⟨⟨_, rfl, by decide +kernel, rfl⟩, by decide +kernel, by decide +kernel, by decide +kernel, by decide +kernel, by decide +kernel, by decide +kernel, by decide +kernel, by decide +kernel⟩⟩

theorem test_recalibrationRequest : ∃ (t v : Nat) (w : Wr) (s : State),
  (fun b => b.takes 0x2800 0x0D w v ∧ b.mode = mReady) (s.begun t) :=
  ⟨5, 1, ⟨.core 0, 0, 4, 1⟩, { lab [(K.ModeActual, 1), (K.LinkState, 3), (K.LinkVersion, 0x21)] with link := { (lab [(K.ModeActual, 1), (K.LinkState, 3), (K.LinkVersion, 0x21)]).link with links := State.reset.link.links.set 0 {  } } }, ⟨⟨_, rfl, by decide +kernel, rfl⟩, by decide +kernel⟩⟩

theorem test_recalibrationStep : ∃ (t l margin : Nat) (s : State),
  (fun b => b.linkThere l = true ∧ b.mode = mReady ∧ b.linkUp l = true
        ∧ bit (b.lreg K.PartnerFeatures l) 2 = true ∧ l < b.link.links.length
        ∧ ∃ r, (b.lnk l).recal = some r ∧ r.got.length < 15) (s.begun t) :=
  ⟨5, 0, 9, { lab [(K.ModeActual, 1), (K.PartnerFeatures, 7), (K.LinkState, 3), (K.LinkVersion, 0x21)] with link := { (lab [(K.ModeActual, 1), (K.PartnerFeatures, 7), (K.LinkState, 3), (K.LinkVersion, 0x21)]).link with links := State.reset.link.links.set 0 { recal := some {} } } }, ⟨by decide +kernel, by decide +kernel, by decide +kernel, by decide +kernel, by decide +kernel, ⟨{}, rfl, by decide⟩⟩⟩


/-! ### Hypotheses that are met: Inspection -/

theorem test_csiPacket_1 : ∃ (t p : Nat) (pkt : CsiPacket) (sh : Shot) (rest : List Shot) (s : State),
  (pkt.ecc = 0) ∧ (pkt.dataType = 0) ∧ (fun b => p < b.portCount ∧ p < b.cam.ports.length
      ∧ b.islandReady islCAM = true ∧ b.portLive p = true
        ∧ b.mode ≠ mStandby ∧ pkt.vc = (b.prt p).conf.image ∧ (b.prt p).frame = none
      ∧ (b.prt p).shots = sh :: rest) (s.begun t) :=
  ⟨5, 0, ⟨0, 0, 16, [], true, 0⟩, ⟨0, 3, 0, 1, 1, 0, 5, 5, some 5, false⟩, [], { lab [(K.PortState, 1), (K.ModeActual, 1)] with cam := { (lab [(K.PortState, 1), (K.ModeActual, 1)]).cam with ports := State.reset.cam.ports.set 0 { shots := [⟨0, 3, 0, 1, 1, 0, 5, 5, some 5, false⟩] } } }, by decide +kernel, by decide +kernel, ⟨by decide +kernel, by decide +kernel, by decide +kernel, by decide +kernel, by decide +kernel, by decide +kernel, by decide +kernel, by decide +kernel⟩⟩

theorem test_csiPacket_2 : ∃ (t p : Nat) (pkt : CsiPacket) (f : Frame) (s : State),
  (pkt.ecc = 0) ∧ (pkt.crcOk = true) ∧ (pkt.dataType = 0x2B ∨ pkt.dataType = 0x2C ∨ pkt.dataType = 0x2E)
      ∧ (fun b => p < b.portCount ∧ p < b.cam.ports.length ∧ b.islandReady islCAM = true ∧ b.portLive p = true
        ∧ b.mode ≠ mStandby ∧ pkt.vc = (b.prt p).conf.image
        ∧ pkt.dataType = (b.prt p).conf.dataType ∧ (b.prt p).frame = some f ∧ (b.prt p).ended = none
        ∧ (b.prt p).dropping = false ∧ f.shot.exps ≠ 2 ∧ f.lines < b.reg K.FrameLines
        ∧ (unpackPixels pkt.dataType pkt.payload).length = (b.prt p).conf.width) (s.begun t) :=
  ⟨5, 0, ⟨0, 0x2E, 16, (List.replicate 32 7), true, 0⟩, ({ shot := ⟨0, 3, 0, 1, 1, 0, 5, 5, some 5, false⟩, number := 0, seq := 0, lines := 3 }), { lab [(K.PortState, 1), (K.ModeActual, 1), (K.FrameLines, 64)] with cam := { (lab [(K.PortState, 1), (K.ModeActual, 1), (K.FrameLines, 64)]).cam with ports := State.reset.cam.ports.set 0 { conf := { width := 16, dataType := 0x2E }, frame := some { shot := ⟨0, 3, 0, 1, 1, 0, 5, 5, some 5, false⟩, number := 0, seq := 0, lines := 3 } } } }, by decide +kernel, by decide +kernel, Or.inr (Or.inr rfl), ⟨by decide +kernel, by decide +kernel, by decide +kernel, by decide +kernel, by decide +kernel, by decide +kernel, by decide +kernel, by decide +kernel, by decide +kernel, by decide +kernel, by decide +kernel, by decide +kernel, by decide +kernel⟩⟩

theorem test_frameEnd : ∃ (t p : Nat) (f : Frame) (s : State),
  (fun b => p < b.portCount ∧ p < b.cam.ports.length ∧ b.portLive p = true ∧ (b.prt p).frame = some f
        ∧ (b.prt p).dropping = false ∧ (b.prt p).ended = none ∧ b.reg K.FrameLines ≤ f.lines
      ∧ f.frayed = false) (s.begun t) :=
  ⟨5, 0, ({ shot := ⟨0, 3, 0, 1, 1, 0, 5, 5, some 5, false⟩, number := 0, seq := 0, lines := 64 }), { lab [(K.PortState, 1), (K.ModeActual, 1), (K.FrameLines, 64)] with cam := { (lab [(K.PortState, 1), (K.ModeActual, 1), (K.FrameLines, 64)]).cam with ports := State.reset.cam.ports.set 0 { frame := some { shot := ⟨0, 3, 0, 1, 1, 0, 5, 5, some 5, false⟩, number := 0, seq := 0, lines := 64 } } } }, ⟨by decide +kernel, by decide +kernel, by decide +kernel, by decide +kernel, by decide +kernel, by decide +kernel, by decide +kernel, by decide +kernel⟩⟩

theorem test_frameTimeout : ∃ (t p x : Nat) (f : Frame) (s : State),
  (fun b => p < b.cam.ports.length ∧ b.portLive p = true ∧ (b.prt p).frame = some f ∧ f.shot.last = some x
        ∧ x + b.reg K.FrameTimeout ≤ b.now) (s.begun t) :=
  ⟨1000000000, 0, 5, ({ shot := ⟨0, 3, 0, 1, 1, 0, 5, 5, some 5, false⟩, number := 0, seq := 0, lines := 3 }), { lab [(K.PortState, 1), (K.ModeActual, 1), (K.FrameLines, 64), (K.FrameTimeout, 1000)] with cam := { (lab [(K.PortState, 1), (K.ModeActual, 1), (K.FrameLines, 64), (K.FrameTimeout, 1000)]).cam with ports := State.reset.cam.ports.set 0 { frame := some { shot := ⟨0, 3, 0, 1, 1, 0, 5, 5, some 5, false⟩, number := 0, seq := 0, lines := 3 } } } }, ⟨by decide +kernel, by decide +kernel, by decide +kernel, by decide +kernel, by decide +kernel⟩⟩

theorem test_lineStage : ∃ (t p : Nat) (r : RawLine) (rest : List RawLine) (s : State),
  (fun b => p < b.cam.ports.length ∧ (b.prt p).ready = r :: rest ∧ b.lineNext p = true) (s.begun t) :=
  ⟨5, 0, ⟨0, [5, 6], none, 0, 3⟩, [], { lab [(K.PortState, 1), (K.ModeActual, 1)] with cam := { (lab [(K.PortState, 1), (K.ModeActual, 1)]).cam with ports := State.reset.cam.ports.set 0 { conf := { width := 2 }, ready := [⟨0, [5, 6], none, 0, 3⟩] } } }, ⟨by decide +kernel, by decide +kernel, by decide +kernel⟩⟩

theorem test_frameStageTake : ∃ (t p : Nat) (s : State),
  (fun b => p < b.cam.ports.length ∧ b.fnOn fnInspect = true ∧ b.takeNext p = true) (s.begun t) :=
  ⟨5, 0, { lab [(K.PortState, 1), (K.ModeActual, 1), (K.FunctionStatus + 7, 1), (K.FrameLines, 4)] with cam := { (lab [(K.PortState, 1), (K.ModeActual, 1), (K.FunctionStatus + 7, 1), (K.FrameLines, 4)]).cam with ports := State.reset.cam.ports.set 0 { conf := { width := 2 }, ended := some { shot := ⟨0, 3, 0, 1, 1, 0, 5, 5, some 5, false⟩, number := 0, seq := 0, lines := 4 } } } }, ⟨by decide +kernel, by decide +kernel, by decide +kernel⟩⟩

theorem test_statisticsReady : ∃ (t p : Nat) (rest : List Nat) (f : Frame) (s : State),
  (fun b => b.cam.stage = p :: rest ∧ p < b.cam.ports.length ∧ (b.prt p).staged = some f) (s.begun t) :=
  ⟨5, 0, [], ({ shot := ⟨0, 3, 0, 1, 1, 0, 5, 5, some 5, false⟩, number := 0, seq := 0, lines := 4 }), { lab [(K.PortState, 1), (K.ModeActual, 1), (K.FunctionStatus + 7, 1), (K.FrameLines, 4)] with cam := { (lab [(K.PortState, 1), (K.ModeActual, 1), (K.FunctionStatus + 7, 1), (K.FrameLines, 4)]).cam with ports := State.reset.cam.ports.set 0 { conf := { width := 2 }, staged := some { shot := ⟨0, 3, 0, 1, 1, 0, 5, 5, some 5, false⟩, number := 0, seq := 0, lines := 4 } }, stage := [0] } }, ⟨by decide +kernel, by decide +kernel, by decide +kernel⟩⟩

theorem test_portCommit_1 : ∃ (t p : Nat) (w : Wr) (s : State),
  (p < 8) ∧ (fun b => p < b.cam.ports.length ∧ b.takes (0x4200 + 0x10 * p) 0x0B w 1
      ∧ b.portRefusal p (b.portStaged p) = 0) (s.begun t) :=
  ⟨5, 0, ⟨.core 0, 0, 1, 1⟩, lab [(K.PortEnable, 1), (K.CalibrationState, 0)], by decide +kernel, ⟨by decide +kernel, ⟨_, rfl, by decide +kernel, rfl⟩, by decide +kernel⟩⟩

theorem test_portCommit_2 : ∃ (t p : Nat) (w : Wr) (s : State),
  (p < 8) ∧ (fun b => b.takes (0x4200 + 0x10 * p) 0x0B w 1 ∧ b.portRefusal p (b.portStaged p) ≠ 0) (s.begun t) :=
  ⟨5, 0, ⟨.core 0, 0, 1, 1⟩, lab [(K.LaneCount, 3)], by decide +kernel, ⟨⟨_, rfl, by decide +kernel, rfl⟩, by decide +kernel⟩⟩

theorem test_coefficientCommit : ∃ (t p : Nat) (w : Wr) (s : State),
  (p < 8) ∧ (fun b => p < b.cam.ports.length ∧ b.takes 0x2903 (p + 1) w 1) (s.begun t) :=
  ⟨5, 0, ⟨.core 0, 0, 1, 1⟩, lab [], by decide +kernel, ⟨by decide +kernel, ⟨_, rfl, by decide +kernel, rfl⟩⟩⟩

theorem test_cciRequest : ∃ (t p v : Nat) (w : Wr) (c : List Nat) (s : State),
  (p < 8) ∧ (8 ≤ w.len) ∧ (c = leBytes w.len v) ∧ (field c 0 1 ≤ 1) ∧ (field c 1 1 ≤ 127) ∧ (1 ≤ field c 2 1)
      ∧ (field c 2 1 ≤ 2) ∧ (1 ≤ field c 3 1) ∧ (field c 3 1 ≤ 32) ∧ (field c 6 2 = 0)
      ∧ ((field c 0 1 = 1 → w.len = 8 + field c 3 1)) ∧ (fun b => b.takes (0x4202 + 0x10 * p) 1 w v
      ∧ b.reg (portKey K.CciState p) ≠ 1) (s.begun t) :=
  ⟨5, 0, 67178496, ⟨.core 0, 0, 8, 67178496⟩, [0, 16, 1, 4, 0, 0, 0, 0], lab [], by decide +kernel, by decide +kernel, by decide +kernel, by decide +kernel, by decide +kernel, by decide +kernel, by decide +kernel, by decide +kernel, by decide +kernel, by decide +kernel, (by intro h; cases h), ⟨⟨_, rfl, by decide +kernel, rfl⟩, by decide +kernel⟩⟩

theorem test_cciDone : ∃ (t p status : Nat) (data : List Nat) (s : State),
  (fun b => b.reg (portKey K.CciState p) = 1) (s.begun t) :=
  ⟨5, 0, 0, [9], lab [(K.CciState, 1)], by decide +kernel⟩

theorem test_flatFieldCaptureRequest : ∃ (t : Nat) (w : Wr) (s : State),
  (fun b => b.takes 0x2900 0x0F w 1 ∧ (b.mode = mReady ∨ b.mode = mService) ∧ b.speedValid = true) (s.begun t) :=
  ⟨5, ⟨.core 0, 0, 1, 1⟩, { lab [(K.ModeActual, 1), (K.ChannelType, 1), (K.MasterChannel, 0)] with pos := { (lab [(K.ModeActual, 1), (K.ChannelType, 1), (K.MasterChannel, 0)]).pos with chans := State.reset.pos.chans.set 0 { valid := true, speed := 1000 } } }, ⟨⟨_, rfl, by decide +kernel, rfl⟩, by decide +kernel, by decide +kernel⟩⟩

theorem test_flatFieldCapture_1 : ∃ (t p : Nat) (s : State),
  (fun b => p < b.cam.ports.length ∧ (b.prt p).flatOn = true
        ∧ b.reg K.FlatFramesPerCapture ≤ (b.prt p).flatFrames ∧ (b.prt p).flatPrior = none) (s.begun t) :=
  ⟨5, 0, { lab [(K.PortState, 1), (K.ModeActual, 1), (K.FlatFramesPerCapture, 2)] with cam := { (lab [(K.PortState, 1), (K.ModeActual, 1), (K.FlatFramesPerCapture, 2)]).cam with ports := State.reset.cam.ports.set 0 { conf := { width := 2 }, flatOn := true, flatFrames := 2 } } }, ⟨by decide +kernel, by decide +kernel, by decide +kernel, by decide +kernel⟩⟩

theorem test_flatFieldCapture_2 : ∃ (t p : Nat) (g : List (List Nat)) (s : State),
  (p < 8) ∧ (fun b => p < b.cam.ports.length ∧ (b.prt p).flatOn = true
        ∧ b.reg K.FlatFramesPerCapture ≤ (b.prt p).flatFrames ∧ (b.prt p).flatPrior = some g) (s.begun t) :=
  ⟨5, 0, [], { lab [(K.PortState, 1), (K.ModeActual, 1), (K.FlatFramesPerCapture, 2)] with cam := { (lab [(K.PortState, 1), (K.ModeActual, 1), (K.FlatFramesPerCapture, 2)]).cam with ports := State.reset.cam.ports.set 0 { conf := { width := 2 }, flatOn := true, flatFrames := 2, flatPrior := some [] } } }, by decide +kernel, ⟨by decide +kernel, by decide +kernel, by decide +kernel, by decide +kernel⟩⟩

theorem test_darkCapture : ∃ (t p : Nat) (s : State),
  (fun b => p < b.cam.ports.length ∧ b.portLive p = true ∧ b.mode ≠ mStandby
        ∧ exposures b.mode ≤ (b.prt p).darkLines.length ∧ (b.prt p).darkSum.length = exposures b.mode
        ∧ (b.prt p).darkCount + 1 < b.reg K.DarkLinesPerCapture) (s.begun t) :=
  ⟨5, 0, { lab [(K.PortState, 1), (K.ModeActual, 1), (K.DarkLinesPerCapture, 4)] with cam := { (lab [(K.PortState, 1), (K.ModeActual, 1), (K.DarkLinesPerCapture, 4)]).cam with ports := State.reset.cam.ports.set 0 { conf := { width := 2 }, darkLines := [[1, 2]], darkSum := [[3, 4]], darkCount := 1 } } }, ⟨by decide +kernel, by decide +kernel, by decide +kernel, by decide +kernel, by decide +kernel, by decide +kernel⟩⟩

theorem test_portRestart : ∃ (t p : Nat) (w : Wr) (s : State),
  (p < 8) ∧ (fun b => b.takes (0x4200 + 0x10 * p) 0x0C w 1 ∧ b.mode ≤ 1 ∧ b.portState p = 3) (s.begun t) :=
  ⟨5, 0, ⟨.core 0, 0, 1, 1⟩, { lab [(K.PortState, 3)] with cam := { (lab [(K.PortState, 3)]).cam with ports := State.reset.cam.ports.set 0 { conf := { enable := true } } } }, by decide +kernel, ⟨⟨_, rfl, by decide +kernel, rfl⟩, by decide +kernel, by decide +kernel⟩⟩


/-! ### Hypotheses that are met: Illumination -/

theorem test_pulseEnd : ∃ (t c sum n isns vsns vend : Nat) (clip : Bool) (p : Pulse) (rest : List Pulse) (s : State),
  (fun b => b.ill.pulses.getD c [] = p :: rest) (s.begun t) :=
  ⟨5, 2, 100, 3, 5, 6, 7, false, ⟨1, 4000, 0, 3⟩, [], { lab [(K.FunctionStatus + 8, 1), (K.IlluminationState, 2)] with ill := { (lab [(K.FunctionStatus + 8, 1), (K.IlluminationState, 2)]).ill with conf := some { strings := { enable := true, width := 4000, initial := 500, limit := 1000 } :: List.replicate 127 {} }, pulses := State.reset.ill.pulses.set 2 [⟨1, 4000, 0, 3⟩] } }, by decide +kernel⟩

theorem test_stageCurrentFault : ∃ (t c : Nat) (s : State),
  (c < 16) ∧ (fun _ => True) (s.begun t) :=
  ⟨5, 2, { lab [(K.FunctionStatus + 8, 1), (K.IlluminationState, 2)] with ill := { (lab [(K.FunctionStatus + 8, 1), (K.IlluminationState, 2)]).ill with conf := some { strings := { enable := true, width := 4000, initial := 500, limit := 1000 } :: List.replicate 127 {} } } }, by decide +kernel, trivial⟩

theorem test_gapLinePulse_1 : ∃ (t n : Nat) (rest : List Nat) (s : State),
  (fun b => b.illWorks = true ∧ b.isHolder = true ∧ b.ill.confirm = n :: rest) (s.begun t) :=
  ⟨5, 9, [], { lab [(K.FunctionStatus + 8, 1), (K.IlluminationState, 2)] with ill := { (lab [(K.FunctionStatus + 8, 1), (K.IlluminationState, 2)]).ill with conf := some { strings := { enable := true, width := 4000, initial := 500, limit := 1000 } :: List.replicate 127 {} }, confirm := [9] } }, ⟨by decide +kernel, by decide +kernel, by decide +kernel⟩⟩

theorem test_gapLinePulse_2 : ∃ (t r : Nat) (rest : List Nat) (s : State),
  (fun b => b.illWorks = true ∧ b.isHolder = true ∧ b.ill.confirm = [] ∧ b.ill.queue = r :: rest) (s.begun t) :=
  ⟨5, 0, [], { lab [(K.FunctionStatus + 8, 1), (K.IlluminationState, 2)] with ill := { (lab [(K.FunctionStatus + 8, 1), (K.IlluminationState, 2)]).ill with conf := some { strings := { enable := true, width := 4000, initial := 500, limit := 1000 } :: List.replicate 127 {} }, queue := [0] } }, ⟨by decide +kernel, by decide +kernel, by decide +kernel, by decide +kernel⟩⟩

theorem test_diagnosticRound : ∃ (t : Nat) (s : State),
  (fun b => b.illWorks = true ∧ b.isHolder = true) (s.begun t) :=
  ⟨5, { lab [(K.FunctionStatus + 8, 1), (K.IlluminationState, 2)] with ill := { (lab [(K.FunctionStatus + 8, 1), (K.IlluminationState, 2)]).ill with conf := some { strings := { enable := true, width := 4000, initial := 500, limit := 1000 } :: List.replicate 127 {} } } }, ⟨by decide +kernel, by decide +kernel⟩⟩

theorem test_illuminationCommit_1 : ∃ (t : Nat) (w : Wr) (s : State),
  (fun b => b.takes 0x2A00 2 w 1 ∧ b.illRefusal b.illStaged = 0) (s.begun t) :=
  ⟨5, ⟨.core 0, 0, 1, 1⟩, lab [(K.StringEnable, 1)], ⟨⟨_, rfl, by decide +kernel, rfl⟩, by decide +kernel⟩⟩

theorem test_illuminationCommit_2 : ∃ (t : Nat) (w : Wr) (s : State),
  (fun b => b.takes 0x2A00 2 w 1 ∧ b.illRefusal b.illStaged ≠ 0) (s.begun t) :=
  ⟨5, ⟨.core 0, 0, 1, 1⟩, lab [], ⟨⟨_, rfl, by decide +kernel, rfl⟩, by decide +kernel⟩⟩

theorem test_illuminationRestart : ∃ (t : Nat) (w : Wr) (s : State),
  (fun b => b.takes 0x2A00 0x0D w 1 ∧ b.mode ≤ 2 ∧ b.reg K.IlluminationState = 3) (s.begun t) :=
  ⟨5, ⟨.core 0, 0, 1, 1⟩, { lab [(K.IlluminationState, 3), (K.OffCause, 2)] with ill := { (lab [(K.IlluminationState, 3), (K.OffCause, 2)]).ill with conf := some { strings := { enable := true, width := 4000, initial := 500, limit := 1000 } :: List.replicate 127 {} } } }, ⟨⟨_, rfl, by decide +kernel, rfl⟩, by decide +kernel, by decide +kernel⟩⟩


/-! ### Hypotheses that are met: The colour loop and the verdicts -/

theorem test_zoneCaptureRequest : ∃ (t : Nat) (w : Wr) (s : State),
  (fun b => b.takes 0x2B00 0x12 w 1) (s.begun t) :=
  ⟨5, ⟨.core 0, 0, 1, 1⟩, lab [], ⟨_, rfl, by decide +kernel, rfl⟩⟩

theorem test_overlapCalibrationRequest : ∃ (t : Nat) (w : Wr) (s : State),
  (fun b => b.takes 0x2B00 0x13 w 1 ∧ isPrint b.mode = true) (s.begun t) :=
  ⟨5, ⟨.core 0, 0, 1, 1⟩, lab [(K.ModeActual, 3)], ⟨⟨_, rfl, by decide +kernel, rfl⟩, by decide +kernel⟩⟩

theorem test_substitutionCalibrationRequest : ∃ (t : Nat) (w : Wr) (s : State),
  (fun b => b.takes 0x2B00 0x14 w 1 ∧ isPrint b.mode = true) (s.begun t) :=
  ⟨5, ⟨.core 0, 0, 1, 1⟩, lab [(K.ModeActual, 3)], ⟨⟨_, rfl, by decide +kernel, rfl⟩, by decide +kernel⟩⟩

theorem test_wasteVerdict : ∃ (t : Nat) (c : Copy) (amended : Bool) (s : State),
  (fun b => b.isHolder = true ∧ b.verdictNext = some (c, amended)) (s.begun t) :=
  ⟨5, { num := 0, mode := 3, lines := 64, done := true, waste := 5 }, false, { lab [(K.WasteDeviation, 0)] with fire := { (lab [(K.WasteDeviation, 0)]).fire with copies := [{ num := 0, mode := 3, lines := 64, done := true, waste := 5 }] } }, ⟨by decide +kernel, by decide +kernel⟩⟩


/-! ### Hypotheses that are met: DRAM -/

theorem test_dramAccess_1 : ∃ (t sc : Nat) (reqs : List DramReq) (read : BurstRead) (r : DramReq) (l : List Nat) (s : State),
  (fun b => b.dramUsable = true ∧ b.dram.asserted.getD sc false = false ∧ b.reg (K.SubchannelState + sc) = 3
        ∧ b.nextRequest sc (reqs.filter fun r =>
            (b.dramMap r.addr).1 == sc && dramStart ≤ r.addr && r.addr < b.dramEnd) = some r
        ∧ protectedFrom r.who r.addr = false ∧ r.write = some l) (s.begun t) :=
  ⟨5, 0, [⟨1, .unit 7, 3, 0x2080000100, some [1, 2, 3]⟩], ⟨[], []⟩, ⟨1, .unit 7, 3, 0x2080000100, some [1, 2, 3]⟩, [1, 2, 3], lab [(K.DramTrained, 1), (K.DramOperatingPoint, 3200), (K.SubchannelsWorking, 1), (K.SubchannelsFitted, 1), (K.PointsTrained, 7), (K.SubchannelState, 3), (K.MappedCapacity, 4294967296), (K.DeviceDensity, 16), (K.RanksPerSubchannel, 1)], ⟨by decide +kernel, by decide +kernel, by decide +kernel, by decide +kernel, by decide +kernel, by decide +kernel⟩⟩

theorem test_dramAccess_2 : ∃ (t sc : Nat) (reqs : List DramReq) (read : BurstRead) (r : DramReq) (s : State),
  (fun b =>
        let a := r.addr / 64 * 64
        b.dramUsable = true ∧ b.dram.asserted.getD sc false = false ∧ b.reg (K.SubchannelState + sc) = 3
        ∧ b.nextRequest sc (reqs.filter fun r =>
            (b.dramMap r.addr).1 == sc && dramStart ≤ r.addr && r.addr < b.dramEnd) = some r
        ∧ protectedFrom r.who r.addr = false ∧ r.write = none
        ∧ (a ∈ b.dram.poison ∨ eccOf (b.markedOn sc (b.rankOf (b.dramMap a).2)) read.errors = .clean)) (s.begun t) :=
  ⟨5, 0, [⟨1, .unit 7, 3, 0x2080000100, none⟩], ⟨[], []⟩, ⟨1, .unit 7, 3, 0x2080000100, none⟩, lab [(K.DramTrained, 1), (K.DramOperatingPoint, 3200), (K.SubchannelsWorking, 1), (K.SubchannelsFitted, 1), (K.PointsTrained, 7), (K.SubchannelState, 3), (K.MappedCapacity, 4294967296), (K.DeviceDensity, 16), (K.RanksPerSubchannel, 1)], ⟨by decide +kernel, by decide +kernel, by decide +kernel, by decide +kernel, by decide +kernel, by decide +kernel, Or.inr (by decide +kernel)⟩⟩

theorem test_accessError : ∃ (t addr : Nat) (who : Initiator) (write : Bool) (s : State),
  (fun b => b.mapped addr = false ∨ (protectedFrom who addr = true ∧ addr < b.dramEnd)) (s.begun t) :=
  ⟨5, 0x30000000, (.core 1), false, lab [], Or.inl (by decide +kernel)⟩

theorem test_deviceMarkClear : ∃ (t sc : Nat) (w : Wr) (s : State),
  (fun b => b.takes 0x2C18 (sc + 1) w 1 ∧ b.mode = mReady) (s.begun t) :=
  ⟨5, 2, ⟨.core 0, 0, 1, 1⟩, lab [(K.DramTrained, 1), (K.DramOperatingPoint, 3200), (K.SubchannelsWorking, 1), (K.SubchannelsFitted, 1), (K.PointsTrained, 7), (K.SubchannelState, 3), (K.MappedCapacity, 4294967296), (K.DeviceDensity, 16), (K.RanksPerSubchannel, 1), (K.ModeActual, 1)], ⟨⟨_, rfl, by decide +kernel, rfl⟩, by decide +kernel⟩⟩

theorem test_alertN_1 : ∃ (t sc : Nat) (writeCrc : Bool) (s : State),
  (sc < 4) ∧ (fun b => b.reg (K.SubchannelState + sc) = 3 ∧ b.dram.alert.getD sc none = none
      ∧ sc < b.dram.alert.length
        ∧ sc < b.dram.asserted.length) (s.begun t) :=
  ⟨5, 0, false, lab [(K.DramTrained, 1), (K.DramOperatingPoint, 3200), (K.SubchannelsWorking, 1), (K.SubchannelsFitted, 1), (K.PointsTrained, 7), (K.SubchannelState, 3), (K.MappedCapacity, 4294967296), (K.DeviceDensity, 16), (K.RanksPerSubchannel, 1)], by decide +kernel, ⟨by decide +kernel, by decide +kernel, by decide +kernel, by decide +kernel⟩⟩

theorem test_alertN_2 : ∃ (t sc n : Nat) (writeCrc : Bool) (s : State),
  (sc < 4) ∧ (3 ≤ n) ∧ (fun b => b.reg (K.SubchannelState + sc) = 3 ∧ b.dram.alert.getD sc none = some n
        ∧ b.isRetired (faultSource 0 sc) = false) (s.begun t) :=
  ⟨5, 0, 3, false, { lab [(K.DramTrained, 1), (K.DramOperatingPoint, 3200), (K.SubchannelsWorking, 1), (K.SubchannelsFitted, 1), (K.PointsTrained, 7), (K.SubchannelState, 3), (K.MappedCapacity, 4294967296), (K.DeviceDensity, 16), (K.RanksPerSubchannel, 1)] with dram := { (lab [(K.DramTrained, 1), (K.DramOperatingPoint, 3200), (K.SubchannelsWorking, 1), (K.SubchannelsFitted, 1), (K.PointsTrained, 7), (K.SubchannelState, 3), (K.MappedCapacity, 4294967296), (K.DeviceDensity, 16), (K.RanksPerSubchannel, 1)]).dram with alert := [some 3, none, none, none] } }, by decide +kernel, by decide +kernel, ⟨by decide +kernel, by decide +kernel, by decide +kernel⟩⟩

theorem test_alertNDeasserted : ∃ (t sc window n : Nat) (s : State),
  (fun b => b.dram.alert.getD sc none = some n ∧ b.dram.asserted.getD sc false = true) (s.begun t) :=
  ⟨5, 0, 100, 1, { lab [(K.DramTrained, 1), (K.DramOperatingPoint, 3200), (K.SubchannelsWorking, 1), (K.SubchannelsFitted, 1), (K.PointsTrained, 7), (K.SubchannelState, 3), (K.MappedCapacity, 4294967296), (K.DeviceDensity, 16), (K.RanksPerSubchannel, 1)] with dram := { (lab [(K.DramTrained, 1), (K.DramOperatingPoint, 3200), (K.SubchannelsWorking, 1), (K.SubchannelsFitted, 1), (K.PointsTrained, 7), (K.SubchannelState, 3), (K.MappedCapacity, 4294967296), (K.DeviceDensity, 16), (K.RanksPerSubchannel, 1)]).dram with alert := [some 1, none, none, none], asserted := [true, false, false, false] } }, ⟨by decide +kernel, by decide +kernel⟩⟩

theorem test_refreshInterval : ∃ (t sc : Nat) (busy : List Nat) (s : State),
  (sc < 4) ∧ (fun b => b.reg (K.SubchannelState + sc) = 3 ∧ b.reg K.DramOperatingPoint ≠ 0) (s.begun t) :=
  ⟨5, 0, [1], lab [(K.DramTrained, 1), (K.DramOperatingPoint, 3200), (K.SubchannelsWorking, 1), (K.SubchannelsFitted, 1), (K.PointsTrained, 7), (K.SubchannelState, 3), (K.MappedCapacity, 4294967296), (K.DeviceDensity, 16), (K.RanksPerSubchannel, 1)], by decide +kernel, ⟨by decide +kernel, by decide +kernel⟩⟩

theorem test_pageIdleTimer : ∃ (t sc : Nat) (s : State),
  (fun _ => True) (s.begun t) :=
  ⟨5, 0, lab [(K.DramTrained, 1), (K.DramOperatingPoint, 3200), (K.SubchannelsWorking, 1), (K.SubchannelsFitted, 1), (K.PointsTrained, 7), (K.SubchannelState, 3), (K.MappedCapacity, 4294967296), (K.DeviceDensity, 16), (K.RanksPerSubchannel, 1)], trivial⟩

theorem test_fullTraining : ∃ (t sc point : Nat) (first second : TrainRun) (intact : Bool) (s : State),
  (point = 3200 ∨ point = 4800 ∨ point = 6400) ∧ (first.window = true) ∧ (second.window = true)
      ∧ (fun b => b.islandReady islMEM = true ∧ b.fitted.contains sc = true
        ∧ (point = 3200 ∨ bit (b.reg (K.PointsTrained + sc)) 0 = true)
        ∧ (b.dram.wantTraining = true ∨ bit (b.reg (K.PointsTrained + sc)) (pointBit point) = false)
        ∧ (b.mode = mReady ∨ b.mode = mService)
      ∧ runsAgree (b.reg K.TrainingTolerance) first second = true) (s.begun t) :=
  ⟨5, 0, 4800, ⟨[10], [5], true⟩, ⟨[11], [5], true⟩, true, lab [(K.DramTrained, 1), (K.DramOperatingPoint, 3200), (K.SubchannelsWorking, 1), (K.SubchannelsFitted, 1), (K.PointsTrained, 7), (K.SubchannelState, 3), (K.MappedCapacity, 4294967296), (K.DeviceDensity, 16), (K.RanksPerSubchannel, 1), (K.ModeActual, 1), (K.TrainingTolerance, 2)], Or.inr (Or.inl rfl), by decide +kernel, by decide +kernel, ⟨by decide +kernel, by decide +kernel, Or.inr (by decide +kernel), Or.inl (by decide +kernel), Or.inl (by decide +kernel), by decide +kernel⟩⟩

theorem test_trackingStep : ∃ (t sc : Nat) (drift : Int) (s : State),
  (sc < 4) ∧ (fun b => b.reg (K.SubchannelState + sc) = 3 ∧ b.mode ≠ mStandby ∧ b.sys.deep = false) (s.begun t) :=
  ⟨5, 0, 2, lab [(K.DramTrained, 1), (K.DramOperatingPoint, 3200), (K.SubchannelsWorking, 1), (K.SubchannelsFitted, 1), (K.PointsTrained, 7), (K.SubchannelState, 3), (K.MappedCapacity, 4294967296), (K.DeviceDensity, 16), (K.RanksPerSubchannel, 1), (K.ModeActual, 1)], by decide +kernel, ⟨by decide +kernel, by decide +kernel, by decide +kernel⟩⟩

theorem test_zqCalibration : ∃ (t : Nat) (s : State),
  (fun b => b.dramUsable = true ∧ b.mode ≠ mStandby ∧ b.dram.zqAt + 128000000 ≤ b.now) (s.begun t) :=
  ⟨128000000, lab [(K.DramTrained, 1), (K.DramOperatingPoint, 3200), (K.SubchannelsWorking, 1), (K.SubchannelsFitted, 1), (K.PointsTrained, 7), (K.SubchannelState, 3), (K.MappedCapacity, 4294967296), (K.DeviceDensity, 16), (K.RanksPerSubchannel, 1), (K.ModeActual, 1)], ⟨by decide +kernel, by decide +kernel, by decide +kernel⟩⟩

theorem test_retrainRequest : ∃ (t : Nat) (w : Wr) (s : State),
  (fun b => b.takes 0x2C00 0x0F w 1 ∧ (b.mode = mReady ∨ b.mode = mService)) (s.begun t) :=
  ⟨5, ⟨.core 0, 0, 1, 1⟩, lab [(K.DramTrained, 1), (K.DramOperatingPoint, 3200), (K.SubchannelsWorking, 1), (K.SubchannelsFitted, 1), (K.PointsTrained, 7), (K.SubchannelState, 3), (K.MappedCapacity, 4294967296), (K.DeviceDensity, 16), (K.RanksPerSubchannel, 1), (K.ModeActual, 1)], ⟨⟨_, rfl, by decide +kernel, rfl⟩, Or.inl (by decide +kernel)⟩⟩

theorem test_frequencyChange_1 : ∃ (t took p : Nat) (s : State),
  (p ≠ 0) ∧ (fun b => b.dram.freqNext = some p ∧ b.flag K.DramTrained = true ∧ b.reg K.DramOperatingPoint ≠ p
        ∧ b.pointTrained p = true) (s.begun t) :=
  ⟨5, 900, 6400, { lab [(K.DramTrained, 1), (K.DramOperatingPoint, 3200), (K.SubchannelsWorking, 1), (K.SubchannelsFitted, 1), (K.PointsTrained, 7), (K.SubchannelState, 3), (K.MappedCapacity, 4294967296), (K.DeviceDensity, 16), (K.RanksPerSubchannel, 1)] with dram := { (lab [(K.DramTrained, 1), (K.DramOperatingPoint, 3200), (K.SubchannelsWorking, 1), (K.SubchannelsFitted, 1), (K.PointsTrained, 7), (K.SubchannelState, 3), (K.MappedCapacity, 4294967296), (K.DeviceDensity, 16), (K.RanksPerSubchannel, 1)]).dram with freqNext := some 6400 } }, by decide +kernel, ⟨by decide +kernel, by decide +kernel, by decide +kernel, by decide +kernel⟩⟩

theorem test_frequencyChange_2 : ∃ (t took : Nat) (s : State),
  (fun b => b.dram.freqNext = some 0 ∧ b.flag K.DramTrained = true ∧ b.reg K.DramOperatingPoint ≠ 0) (s.begun t) :=
  ⟨5, 900, { lab [(K.DramTrained, 1), (K.DramOperatingPoint, 3200), (K.SubchannelsWorking, 1), (K.SubchannelsFitted, 1), (K.PointsTrained, 7), (K.SubchannelState, 3), (K.MappedCapacity, 4294967296), (K.DeviceDensity, 16), (K.RanksPerSubchannel, 1)] with dram := { (lab [(K.DramTrained, 1), (K.DramOperatingPoint, 3200), (K.SubchannelsWorking, 1), (K.SubchannelsFitted, 1), (K.PointsTrained, 7), (K.SubchannelState, 3), (K.MappedCapacity, 4294967296), (K.DeviceDensity, 16), (K.RanksPerSubchannel, 1)]).dram with freqNext := some 0 } }, ⟨by decide +kernel, by decide +kernel, by decide +kernel⟩⟩

theorem test_scrubUnit_1 : ∃ (t : Nat) (read : BurstRead) (s : State),
  (fun b => b.dramUsable = true ∧ b.dram.swept = false) (s.begun t) :=
  ⟨5, ⟨[], []⟩, lab [(K.DramTrained, 1), (K.DramOperatingPoint, 3200), (K.SubchannelsWorking, 1), (K.SubchannelsFitted, 1), (K.PointsTrained, 7), (K.SubchannelState, 3), (K.MappedCapacity, 4294967296), (K.DeviceDensity, 16), (K.RanksPerSubchannel, 1)], ⟨by decide +kernel, by decide +kernel⟩⟩

theorem test_scrubUnit_2 : ∃ (t : Nat) (read : BurstRead) (s : State),
  (fun b =>
        let a := b.reg K.ScrubPosition
        b.dramUsable = true ∧ b.dram.swept = true ∧ a ∉ b.dram.poison
        ∧ eccOf (b.markedOn (b.dramMap a).1 (b.rankOf (b.dramMap a).2)) read.errors = .clean) (s.begun t) :=
  ⟨5, ⟨[], []⟩, { lab [(K.DramTrained, 1), (K.DramOperatingPoint, 3200), (K.SubchannelsWorking, 1), (K.SubchannelsFitted, 1), (K.PointsTrained, 7), (K.SubchannelState, 3), (K.MappedCapacity, 4294967296), (K.DeviceDensity, 16), (K.RanksPerSubchannel, 1), (K.ScrubPosition, 139586437120)] with dram := { (lab [(K.DramTrained, 1), (K.DramOperatingPoint, 3200), (K.SubchannelsWorking, 1), (K.SubchannelsFitted, 1), (K.PointsTrained, 7), (K.SubchannelState, 3), (K.MappedCapacity, 4294967296), (K.DeviceDensity, 16), (K.RanksPerSubchannel, 1), (K.ScrubPosition, 139586437120)]).dram with swept := true } }, ⟨by decide +kernel, by decide +kernel, by decide +kernel, by decide +kernel⟩⟩

theorem test_ringAreaSizeWrite : ∃ (t v : Nat) (w : Wr) (s : State),
  (fun b => b.takes 0x2C00 6 w v ∧ b.reg K.JobCount = 0) (s.begun t) :=
  ⟨5, 536870912, ⟨.core 0, 0, 8, 536870912⟩, lab [(K.DramTrained, 1), (K.DramOperatingPoint, 3200), (K.SubchannelsWorking, 1), (K.SubchannelsFitted, 1), (K.PointsTrained, 7), (K.SubchannelState, 3), (K.MappedCapacity, 4294967296), (K.DeviceDensity, 16), (K.RanksPerSubchannel, 1)], ⟨⟨_, rfl, by decide +kernel, rfl⟩, by decide +kernel⟩⟩

theorem test_dramInitialised : ∃ (t : Nat) (s : State),
  (fun b => b.pointTrained 3200 = true ∧ b.dram.initialised = false ∧ b.reg K.DramOperatingPoint ≠ 0) (s.begun t) :=
  ⟨5, lab [(K.DramTrained, 1), (K.DramOperatingPoint, 3200), (K.SubchannelsWorking, 1), (K.SubchannelsFitted, 1), (K.PointsTrained, 7), (K.SubchannelState, 3), (K.MappedCapacity, 4294967296), (K.DeviceDensity, 16), (K.RanksPerSubchannel, 1)], ⟨by decide +kernel, by decide +kernel, by decide +kernel⟩⟩


/-! ### Hypotheses that are met: The DMA engine -/

theorem test_channelStart_1 : ∃ (t c : Nat) (w : Wr) (prog : List (List Nat)) (s : State),
  (c < 16) ∧ (fun b => b.takes (0x4400 + 0x10 * c) 6 w 1 ∧ (b.dmaStatus c = 0 ∨ 3 < b.dmaStatus c)
      ∧ c < b.dma.chans.length
        ∧ b.reg (dmaKey K.ProgramAddress c) % 16 = 0
        ∧ b.fetchProgram c 256 (b.reg (dmaKey K.ProgramAddress c)) = (prog, false)
        ∧ progFault (b.reg (dmaKey K.RequestLine c)) prog 0 0 = none) (s.begun t) :=
  ⟨5, 0, ⟨.core 0, 0, 1, 1⟩, [(leBytes 16 0x90007), (leBytes 16 0x8)], { lab [(K.ProgramAddress, 117448704), (K.RequestLine, 255)] with mem := [(117448704, 7#8), (117448706, 9#8), (117448720, 8#8)] }, by decide +kernel, ⟨⟨_, rfl, by decide +kernel, rfl⟩, by decide +kernel, by decide +kernel, by decide +kernel, by decide +kernel, by decide +kernel⟩⟩

theorem test_channelStart_2 : ∃ (t c : Nat) (w : Wr) (s : State),
  (c < 16) ∧ (fun b => b.takes (0x4400 + 0x10 * c) 6 w 1 ∧ (b.dmaStatus c = 0 ∨ 3 < b.dmaStatus c)
        ∧ b.reg (dmaKey K.ProgramAddress c) % 16 ≠ 0) (s.begun t) :=
  ⟨5, 0, ⟨.core 0, 0, 1, 1⟩, lab [(K.ProgramAddress, 117448707)], by decide +kernel, ⟨⟨_, rfl, by decide +kernel, rfl⟩, by decide +kernel, by decide +kernel⟩⟩

theorem test_dmaBurst_1 : ∃ (t c : Nat) (bad : Option Nat) (s : State),
  (fun b => (∀ k < 16, (b.dmaChan k).flight = none) ∧ b.islandReady islFAB = true ∧ b.dmaGrant = some c
        ∧ c < b.dma.chans.length) (s.begun t) :=
  ⟨5, 0, none, { lab [(K.DmaChannelStatus, 1)] with dma := { (lab [(K.DmaChannelStatus, 1)]).dma with chans := State.reset.dma.chans.set 0 { prog := [(leBytes 16 0x80000700100000070000000001)], active := true } } }, ⟨by decide +kernel, by decide +kernel, by decide +kernel, by decide +kernel⟩⟩

theorem test_dmaBurst_2 : ∃ (t c n : Nat) (bad : Option Nat) (s : State),
  (fun b => ((List.range 16).find? fun k => (b.dmaChan k).flight.isSome) = some c
        ∧ (b.dmaChan c).flight = some n ∧ b.burstFails c n bad = none ∧ diOp (b.dmaInstr c) = 1
        ∧ screenAt ≤ b.burstTarget c) (s.begun t) :=
  ⟨5, 0, 64, none, { lab [(K.DmaChannelStatus, 1)] with dma := { (lab [(K.DmaChannelStatus, 1)]).dma with chans := State.reset.dma.chans.set 0 { prog := [(leBytes 16 0x80000700100000070000000001)], active := true, flight := some 64 } } }, ⟨by decide +kernel, by decide +kernel, by decide +kernel, by decide +kernel, by decide +kernel⟩⟩

theorem test_dmaBurst_3 : ∃ (t c a n : Nat) (bad : Option Nat) (s : State),
  (fun b => ((List.range 16).find? fun k => (b.dmaChan k).flight.isSome) = some c
        ∧ (b.dmaChan c).flight = some n ∧ b.burstFails c n bad = some a) (s.begun t) :=
  ⟨5, 0, 0x07001000, 64, (some 0x07001000), { lab [(K.DmaChannelStatus, 1)] with dma := { (lab [(K.DmaChannelStatus, 1)]).dma with chans := State.reset.dma.chans.set 0 { prog := [(leBytes 16 0x80000700100000070000000001)], active := true, flight := some 64 } } }, ⟨by decide +kernel, by decide +kernel, by decide +kernel⟩⟩

theorem test_move : ∃ (t c op : Nat) (s : State),
  (op = 1) ∧ (fun b => b.dmaIdle c = true ∧ diOp (b.dmaInstr c) = op ∧ c < b.dma.chans.length) (s.begun t) :=
  ⟨5, 0, 1, { lab [(K.DmaChannelStatus, 1)] with dma := { (lab [(K.DmaChannelStatus, 1)]).dma with chans := State.reset.dma.chans.set 0 { prog := [(leBytes 16 0x80000700100000070000000001)] } } }, by decide +kernel, ⟨by decide +kernel, by decide +kernel, by decide +kernel⟩⟩

theorem test_fill : ∃ (t c op : Nat) (s : State),
  (op = 2) ∧ (fun b => b.dmaIdle c = true ∧ diOp (b.dmaInstr c) = op ∧ c < b.dma.chans.length) (s.begun t) :=
  ⟨5, 0, 2, { lab [(K.DmaChannelStatus, 1)] with dma := { (lab [(K.DmaChannelStatus, 1)]).dma with chans := State.reset.dma.chans.set 0 { prog := [(leBytes 16 0x800000070000000002)] } } }, by decide +kernel, ⟨by decide +kernel, by decide +kernel, by decide +kernel⟩⟩

theorem test_compare : ∃ (t c op : Nat) (s : State),
  (op = 3) ∧ (fun b => b.dmaIdle c = true ∧ diOp (b.dmaInstr c) = op ∧ c < b.dma.chans.length) (s.begun t) :=
  ⟨5, 0, 3, { lab [(K.DmaChannelStatus, 1)] with dma := { (lab [(K.DmaChannelStatus, 1)]).dma with chans := State.reset.dma.chans.set 0 { prog := [(leBytes 16 0x80000700100000070000000003)] } } }, by decide +kernel, ⟨by decide +kernel, by decide +kernel, by decide +kernel⟩⟩

theorem test_loop : ∃ (t c : Nat) (s : State),
  (fun b => b.dmaIdle c = true ∧ diOp (b.dmaInstr c) = 4 ∧ c < b.dma.chans.length) (s.begun t) :=
  ⟨5, 0, { lab [(K.DmaChannelStatus, 1)] with dma := { (lab [(K.DmaChannelStatus, 1)]).dma with chans := State.reset.dma.chans.set 0 { prog := [(leBytes 16 0x300000004)] } } }, ⟨by decide +kernel, by decide +kernel, by decide +kernel⟩⟩

theorem test_endloop : ∃ (t c : Nat) (l : DmaLevel) (rest : List DmaLevel) (s : State),
  (fun b => b.dmaIdle c = true ∧ diOp (b.dmaInstr c) = 5 ∧ c < b.dma.chans.length
        ∧ (b.dmaChan c).levels = l :: rest) (s.begun t) :=
  ⟨5, 0, { back := 0, count := 3, src := 0, dst := 0 }, [], { lab [(K.DmaChannelStatus, 1)] with dma := { (lab [(K.DmaChannelStatus, 1)]).dma with chans := State.reset.dma.chans.set 0 { prog := [(leBytes 16 0x5)], levels := [{ back := 0, count := 3, src := 0, dst := 0 }] } } }, ⟨by decide +kernel, by decide +kernel, by decide +kernel, by decide +kernel⟩⟩

theorem test_wait : ∃ (t c : Nat) (s : State),
  (fun b => b.dmaIdle c = true ∧ diOp (b.dmaInstr c) = 6 ∧ c < b.dma.chans.length) (s.begun t) :=
  ⟨5, 0, { lab [(K.DmaChannelStatus, 1)] with dma := { (lab [(K.DmaChannelStatus, 1)]).dma with chans := State.reset.dma.chans.set 0 { prog := [(leBytes 16 0x6400280006)] } } }, ⟨by decide +kernel, by decide +kernel, by decide +kernel⟩⟩

theorem test_waitEnd : ∃ (t c : Nat) (s : State),
  (fun b => b.dmaStatus c = 1 ∧ b.waitOver c = true ∧ c < b.dma.chans.length) (s.begun t) :=
  ⟨5, 0, { lab [(K.DmaChannelStatus, 1), (K.SoftRequest, 256)] with dma := { (lab [(K.DmaChannelStatus, 1), (K.SoftRequest, 256)]).dma with chans := State.reset.dma.chans.set 0 { prog := [(leBytes 16 0x6400280006)], wait := some (3, 0) } } }, ⟨by decide +kernel, by decide +kernel, by decide +kernel⟩⟩

theorem test_waitTimeout : ∃ (t c since n : Nat) (s : State),
  (fun b => b.dmaStatus c = 1 ∧ (b.dmaChan c).wait = some (since, n) ∧ field (b.dmaInstr c) 4 4 ≠ 0
        ∧ since + field (b.dmaInstr c) 4 4 ≤ b.now ∧ b.waitOver c = false) (s.begun t) :=
  ⟨500, 0, 3, 0, { lab [(K.DmaChannelStatus, 1)] with dma := { (lab [(K.DmaChannelStatus, 1)]).dma with chans := State.reset.dma.chans.set 0 { prog := [(leBytes 16 0x6400280006)], wait := some (3, 0) } } }, ⟨by decide +kernel, by decide +kernel, by decide +kernel, by decide +kernel, by decide +kernel⟩⟩

theorem test_signal : ∃ (t c : Nat) (s : State),
  (fun b => b.dmaIdle c = true ∧ diOp (b.dmaInstr c) = 7) (s.begun t) :=
  ⟨5, 0, { lab [(K.DmaChannelStatus, 1)] with dma := { (lab [(K.DmaChannelStatus, 1)]).dma with chans := State.reset.dma.chans.set 0 { prog := [(leBytes 16 0x90007)] } } }, ⟨by decide +kernel, by decide +kernel⟩⟩

theorem test_stop : ∃ (t c : Nat) (s : State),
  (fun b => b.dmaIdle c = true ∧ diOp (b.dmaInstr c) = 8 ∧ c < b.dma.chans.length) (s.begun t) :=
  ⟨5, 0, { lab [(K.DmaChannelStatus, 1)] with dma := { (lab [(K.DmaChannelStatus, 1)]).dma with chans := State.reset.dma.chans.set 0 { prog := [(leBytes 16 0x8)] } } }, ⟨by decide +kernel, by decide +kernel, by decide +kernel⟩⟩

theorem test_channelStop : ∃ (t c : Nat) (w : Wr) (s : State),
  (c < 16) ∧ (fun b => b.takes (0x4400 + 0x10 * c) 7 w 1 ∧ b.dmaStatus c = 1) (s.begun t) :=
  ⟨5, 0, ⟨.core 0, 0, 1, 1⟩, { lab [(K.DmaChannelStatus, 1)] with dma := { (lab [(K.DmaChannelStatus, 1)]).dma with chans := State.reset.dma.chans.set 0 { prog := [(leBytes 16 0x8)] } } }, by decide +kernel, ⟨⟨_, rfl, by decide +kernel, rfl⟩, by decide +kernel⟩⟩

theorem test_dmaTimer : ∃ (t k : Nat) (s : State),
  (k < 4) ∧ (fun b => b.time.running = true
        ∧ (b.dma.timers.getD k (0, false)).1 ≠ b.ptp / 65536 / b.reg (K.DmaTimerPeriod + k)) (s.begun t) :=
  ⟨5000000, 2, { lab [(K.DmaTimerPeriod + 2, 1000000)] with time := { (lab [(K.DmaTimerPeriod + 2, 1000000)]).time with running := true } }, by decide +kernel, ⟨by decide +kernel, by decide +kernel⟩⟩

theorem test_dmaTimerWidthEnd : ∃ (t k q : Nat) (s : State),
  (k < 4) ∧ (fun b => b.dma.timers.getD k (0, false) = (q, true)
        ∧ q * b.reg (K.DmaTimerPeriod + k) + b.reg (K.DmaTimerWidth + k) ≤ b.ptp / 65536) (s.begun t) :=
  ⟨5000000, 2, 1, { lab [(K.DmaTimerPeriod + 2, 1000000), (K.DmaTimerWidth + 2, 1000)] with time := { (lab [(K.DmaTimerPeriod + 2, 1000000), (K.DmaTimerWidth + 2, 1000)]).time with running := true }, dma := { (lab [(K.DmaTimerPeriod + 2, 1000000), (K.DmaTimerWidth + 2, 1000)]).dma with timers := [(0, false), (0, false), (1, true), (0, false)] } }, by decide +kernel, ⟨by decide +kernel, by decide +kernel⟩⟩

theorem test_softRequestWrite : ∃ (t v : Nat) (w : Wr) (s : State),
  (fun b => b.takes 0x2D01 1 w v) (s.begun t) :=
  ⟨5, 9, ⟨.core 0, 0, 4, 9⟩, lab [], ⟨_, rfl, by decide +kernel, rfl⟩⟩


/-! ### Hypotheses that are met: Frames, ARP, ICMP, links and addresses -/

theorem test_ethernetFrame : ∃ (t port fec fecBad : Nat) (data dwell : List Nat) (s : State),
  (fun b => b.portThere port = true ∧ b.islandReady islNET = true) (s.begun t) :=
  ⟨5, 0, 1, 2, (List.replicate 64 0), [], lab [], ⟨by decide +kernel, by decide +kernel⟩⟩

theorem test_arpRequest : ∃ (t port mac ip target : Nat) (s : State),
  (fun b => b.answersAt port target = true) (s.begun t) :=
  ⟨5, 0, 9, 3, 1, lab [(K.Ipv4Address, 1), (K.Ipv4Netmask, 0), (K.TetherPorts, 1), (K.LifecycleState, 0)], by decide +kernel⟩

theorem test_icmpEcho : ∃ (t port src target ident seq via : Nat) (data : List Nat) (s : State),
  (data.length ≤ 1472) ∧ (fun b => b.answersAt port target = true ∧ b.nextHop port src = some via) (s.begun t) :=
  ⟨5, 0, 9, 1, 2, 3, 9, [1, 2, 3], lab [(K.Ipv4Address, 1), (K.Ipv4Netmask, 0), (K.TetherPorts, 1), (K.LifecycleState, 0)], by decide +kernel, ⟨by decide +kernel, by decide +kernel⟩⟩

theorem test_portLinkChange : ∃ (t port : Nat) (up : Bool) (s : State),
  (fun b => b.portThere port = true ∧ b.islandReady islNET = true ∧ b.flag (K.PortLinkUp + port) ≠ up) (s.begun t) :=
  ⟨5, 0, true, lab [(K.PortLinkUp, 0)], ⟨by decide +kernel, by decide +kernel, by decide +kernel⟩⟩

theorem test_addressChange : ∃ (t idx port v : Nat) (w : Wr) (s : State),
  (0x2E01 ≤ idx) ∧ (idx ≤ 0x2E03) ∧ (port < 3) ∧ (fun b => b.takes idx (port + 1) w v
      ∧ b.reg (idx * 256 + port + 1) ≠ v) (s.begun t) :=
  ⟨5, 0x2E01, 0, 7, ⟨.core 0, 0, 4, 7⟩, lab [(K.Ipv4Address, 1), (K.Ipv4Netmask, 0), (K.TetherPorts, 1), (K.LifecycleState, 0)], by decide +kernel, by decide +kernel, by decide +kernel, ⟨⟨_, rfl, by decide +kernel, rfl⟩, by decide +kernel⟩⟩


/-! ### Hypotheses that are met: Tether -/

theorem test_tetherHello : ∃ (t vmin vmax keyId client i v : Nat) (host : Host4) (nonce : List Nat) (rest : List Nat) (notify : Bool) (s : State),
  (nonce.length = 16) ∧ (tetherAgreed vmin vmax = some v) ∧ (fun b => b.tetherAt host = true
      ∧ b.freeSessions = i :: rest ∧ i < b.net.challenges.length
        ∧ (roleSlot keyId = true ∨ keyId = 0x21) ∧ b.keyLive keyId = true
      ∧ b.lockedOut pathTether = false) (s.begun t) :=
  ⟨5, 0, 255, 1, 0xFFFF, 0, 0x21, ⟨0, 5, 6⟩, (List.replicate 16 3), [1, 2, 3, 4, 5, 6, 7], true, { lab [(K.KeyStatus, 64), (K.Ipv4Address, 1), (K.Ipv4Netmask, 0), (K.TetherPorts, 1), (K.LifecycleState, 0)] with sec := { (lab [(K.KeyStatus, 64), (K.Ipv4Address, 1), (K.Ipv4Netmask, 0), (K.TetherPorts, 1), (K.LifecycleState, 0)]).sec with keys := [(1, (List.replicate 32 7))] } }, by decide +kernel, by decide +kernel, ⟨by decide +kernel, by decide +kernel, by decide +kernel, by decide +kernel, by decide +kernel, by decide +kernel⟩⟩

theorem test_tetherOpen_1 : ∃ (t i : Nat) (host : Host4) (data : List Nat) (x : Session) (s : State),
  (fun b => b.tetherAt host = true ∧ tetherShape 3 data = true ∧ b.challengeOf data = some (i, x)
        ∧ x.host.nic = host.nic ∧ b.now < x.lastAt + 1000000000 ∧ b.lockedOut pathTether = false
        ∧ tagHolds x.key data = true ∧ field data 8 4 = 0 ∧ field data 2 1 = x.version
      ∧ i < b.net.sessions.length) (s.begun t) :=
  ⟨5, 2, ⟨0, 5, 6⟩, (tetherMessage (List.replicate 32 7) 0x10 3 77 0 []), ({ host := ⟨0, 5, 6⟩, id := 77, keyId := 1, role := 0, version := 0x10, key := (List.replicate 32 7), client := 0xFFFF, notify := true, lastAt := 3, seq := 4 }), { lab [(K.Ipv4Address, 1), (K.Ipv4Netmask, 0), (K.TetherPorts, 1), (K.LifecycleState, 0)] with net := { (lab [(K.Ipv4Address, 1), (K.Ipv4Netmask, 0), (K.TetherPorts, 1), (K.LifecycleState, 0)]).net with challenges := State.reset.net.challenges.set 2 (some { host := ⟨0, 5, 6⟩, id := 77, keyId := 1, role := 0, version := 0x10, key := (List.replicate 32 7), client := 0xFFFF, notify := true, lastAt := 3, seq := 4 }) } }, ⟨by decide +kernel, by decide +kernel, by decide +kernel, by decide +kernel, by decide +kernel, by decide +kernel, by decide +kernel, by decide +kernel, by decide +kernel, by decide +kernel⟩⟩

theorem test_tetherOpen_2 : ∃ (t i : Nat) (host : Host4) (data : List Nat) (x : Session) (s : State),
  (fun b => b.tetherAt host = true ∧ tetherShape 3 data = true ∧ b.challengeOf data = some (i, x)
        ∧ x.host.nic = host.nic ∧ b.now < x.lastAt + 1000000000 ∧ b.lockedOut pathTether = false
        ∧ tagHolds x.key data = false) (s.begun t) :=
  ⟨5, 2, ⟨0, 5, 6⟩, (tetherMessage [9] 0x10 3 77 0 []), ({ host := ⟨0, 5, 6⟩, id := 77, keyId := 1, role := 0, version := 0x10, key := (List.replicate 32 7), client := 0xFFFF, notify := true, lastAt := 3, seq := 4 }), { lab [(K.Ipv4Address, 1), (K.Ipv4Netmask, 0), (K.TetherPorts, 1), (K.LifecycleState, 0)] with net := { (lab [(K.Ipv4Address, 1), (K.Ipv4Netmask, 0), (K.TetherPorts, 1), (K.LifecycleState, 0)]).net with challenges := State.reset.net.challenges.set 2 (some { host := ⟨0, 5, 6⟩, id := 77, keyId := 1, role := 0, version := 0x10, key := (List.replicate 32 7), client := 0xFFFF, notify := true, lastAt := 3, seq := 4 }) } }, ⟨by decide +kernel, by decide +kernel, by decide +kernel, by decide +kernel, by decide +kernel, by decide +kernel, by decide +kernel⟩⟩

theorem test_tetherRequest_1 : ∃ (t i via : Nat) (host : Host4) (data : List Nat) (x : Session) (op : TetherOp) (s : State),
  (fun b => b.tetherAt host = true ∧ tetherShape 6 data = true ∧ b.sessionOf data = some (i, x)
        ∧ x.host.nic = host.nic ∧ field data 2 1 = x.version ∧ tagHolds x.key data = true
        ∧ field data 8 4 = (x.seq + 1) % 2 ^ 32 ∧ 2 ≤ (tetherPayload data).length
        ∧ field (tetherPayload data) 0 2 = 1 ∧ tetherOps 1 ((tetherPayload data).drop 2) = some [op]
        ∧ op.write = false ∧ b.nextHop host.nic host.ip = some via) (s.begun t) :=
  ⟨5, 2, 5, ⟨0, 5, 6⟩, (tetherMessage (List.replicate 32 7) 0x10 6 77 5 (leBytes 2 1 ++ [0, 1] ++ leBytes 2 0x2010 ++ leBytes 4 0 ++ leBytes 2 0 ++ [0, 0])), ({ host := ⟨0, 5, 6⟩, id := 77, keyId := 1, role := 0, version := 0x10, key := (List.replicate 32 7), client := 0xFFFF, notify := true, lastAt := 3, seq := 4 }), ⟨false, 1, 0x2010, 0, 0, []⟩, { lab [(K.Ipv4Address, 1), (K.Ipv4Netmask, 0), (K.TetherPorts, 1), (K.LifecycleState, 0)] with net := { (lab [(K.Ipv4Address, 1), (K.Ipv4Netmask, 0), (K.TetherPorts, 1), (K.LifecycleState, 0)]).net with sessions := State.reset.net.sessions.set 2 (some { host := ⟨0, 5, 6⟩, id := 77, keyId := 1, role := 0, version := 0x10, key := (List.replicate 32 7), client := 0xFFFF, notify := true, lastAt := 3, seq := 4 }) } }, ⟨by decide +kernel, by decide +kernel, by decide +kernel, by decide +kernel, by decide +kernel, by decide +kernel, by decide +kernel, by decide +kernel, by decide +kernel, by decide +kernel, by decide +kernel, by decide +kernel⟩⟩

theorem test_tetherRequest_2 : ∃ (t i via : Nat) (host : Host4) (data : List Nat) (x : Session) (s : State),
  (fun b => b.tetherAt host = true ∧ tetherShape 6 data = true ∧ b.sessionOf data = some (i, x)
        ∧ x.host.nic = host.nic ∧ field data 2 1 = x.version ∧ tagHolds x.key data = true
        ∧ field data 8 4 = x.seq ∧ x.reply ≠ [] ∧ b.nextHop host.nic host.ip = some via) (s.begun t) :=
  ⟨5, 2, 5, ⟨0, 5, 6⟩, (tetherMessage (List.replicate 32 7) 0x10 6 77 4 (leBytes 2 1 ++ [0, 1] ++ leBytes 2 0x2010 ++ leBytes 4 0 ++ leBytes 2 0 ++ [0, 0])), ({ host := ⟨0, 5, 6⟩, id := 77, keyId := 1, role := 0, version := 0x10, key := (List.replicate 32 7), client := 0xFFFF, notify := true, lastAt := 3, seq := 4, reply := [1, 2] }), { lab [(K.Ipv4Address, 1), (K.Ipv4Netmask, 0), (K.TetherPorts, 1), (K.LifecycleState, 0)] with net := { (lab [(K.Ipv4Address, 1), (K.Ipv4Netmask, 0), (K.TetherPorts, 1), (K.LifecycleState, 0)]).net with sessions := State.reset.net.sessions.set 2 (some { host := ⟨0, 5, 6⟩, id := 77, keyId := 1, role := 0, version := 0x10, key := (List.replicate 32 7), client := 0xFFFF, notify := true, lastAt := 3, seq := 4, reply := [1, 2] }) } }, ⟨by decide +kernel, by decide +kernel, by decide +kernel, by decide +kernel, by decide +kernel, by decide +kernel, by decide +kernel, by decide +kernel, by decide +kernel⟩⟩

theorem test_challengeTimeout : ∃ (t : Nat) (s : State),
  (fun _ => True) (s.begun t) :=
  ⟨5, { lab [(K.Ipv4Address, 1), (K.Ipv4Netmask, 0), (K.TetherPorts, 1), (K.LifecycleState, 0)] with net := { (lab [(K.Ipv4Address, 1), (K.Ipv4Netmask, 0), (K.TetherPorts, 1), (K.LifecycleState, 0)]).net with challenges := State.reset.net.challenges.set 2 (some { host := ⟨0, 5, 6⟩, id := 77, keyId := 1, role := 0, version := 0x10, key := (List.replicate 32 7), client := 0xFFFF, notify := true, lastAt := 3, seq := 4 }) } }, trivial⟩

theorem test_tetherKeepAlive : ∃ (t i : Nat) (host : Host4) (data : List Nat) (x : Session) (s : State),
  (fun b => b.tetherAt host = true ∧ tetherShape 10 data = true ∧ b.sessionOf data = some (i, x)
      ∧ x.host.nic = host.nic ∧ field data 2 1 = x.version ∧ tagHolds x.key data = true) (s.begun t) :=
  ⟨5, 2, ⟨0, 5, 6⟩, (tetherMessage (List.replicate 32 7) 0x10 10 77 5 []), ({ host := ⟨0, 5, 6⟩, id := 77, keyId := 1, role := 0, version := 0x10, key := (List.replicate 32 7), client := 0xFFFF, notify := true, lastAt := 3, seq := 4 }), { lab [(K.Ipv4Address, 1), (K.Ipv4Netmask, 0), (K.TetherPorts, 1), (K.LifecycleState, 0)] with net := { (lab [(K.Ipv4Address, 1), (K.Ipv4Netmask, 0), (K.TetherPorts, 1), (K.LifecycleState, 0)]).net with sessions := State.reset.net.sessions.set 2 (some { host := ⟨0, 5, 6⟩, id := 77, keyId := 1, role := 0, version := 0x10, key := (List.replicate 32 7), client := 0xFFFF, notify := true, lastAt := 3, seq := 4 }) } }, ⟨by decide +kernel, by decide +kernel, by decide +kernel, by decide +kernel, by decide +kernel, by decide +kernel⟩⟩

theorem test_tetherNotifyAck : ∃ (t i : Nat) (host : Host4) (data : List Nat) (x : Session) (s : State),
  (fun b => b.tetherAt host = true ∧ tetherShape 9 data = true ∧ b.sessionOf data = some (i, x)
      ∧ x.host.nic = host.nic ∧ field data 2 1 = x.version ∧ tagHolds x.key data = true) (s.begun t) :=
  ⟨5, 2, ⟨0, 5, 6⟩, (tetherMessage (List.replicate 32 7) 0x10 9 77 0 []), ({ host := ⟨0, 5, 6⟩, id := 77, keyId := 1, role := 0, version := 0x10, key := (List.replicate 32 7), client := 0xFFFF, notify := true, lastAt := 3, seq := 4 }), { lab [(K.Ipv4Address, 1), (K.Ipv4Netmask, 0), (K.TetherPorts, 1), (K.LifecycleState, 0)] with net := { (lab [(K.Ipv4Address, 1), (K.Ipv4Netmask, 0), (K.TetherPorts, 1), (K.LifecycleState, 0)]).net with sessions := State.reset.net.sessions.set 2 (some { host := ⟨0, 5, 6⟩, id := 77, keyId := 1, role := 0, version := 0x10, key := (List.replicate 32 7), client := 0xFFFF, notify := true, lastAt := 3, seq := 4 }) } }, ⟨by decide +kernel, by decide +kernel, by decide +kernel, by decide +kernel, by decide +kernel, by decide +kernel⟩⟩

theorem test_tetherClose : ∃ (t i : Nat) (host : Host4) (data : List Nat) (x : Session) (s : State),
  (fun b => b.tetherAt host = true ∧ tetherShape 11 data = true ∧ b.sessionOf data = some (i, x)
      ∧ x.host.nic = host.nic ∧ field data 2 1 = x.version ∧ tagHolds x.key data = true) (s.begun t) :=
  ⟨5, 2, ⟨0, 5, 6⟩, (tetherMessage (List.replicate 32 7) 0x10 11 77 5 []), ({ host := ⟨0, 5, 6⟩, id := 77, keyId := 1, role := 0, version := 0x10, key := (List.replicate 32 7), client := 0xFFFF, notify := true, lastAt := 3, seq := 4 }), { lab [(K.Ipv4Address, 1), (K.Ipv4Netmask, 0), (K.TetherPorts, 1), (K.LifecycleState, 0)] with net := { (lab [(K.Ipv4Address, 1), (K.Ipv4Netmask, 0), (K.TetherPorts, 1), (K.LifecycleState, 0)]).net with sessions := State.reset.net.sessions.set 2 (some { host := ⟨0, 5, 6⟩, id := 77, keyId := 1, role := 0, version := 0x10, key := (List.replicate 32 7), client := 0xFFFF, notify := true, lastAt := 3, seq := 4 }) } }, ⟨by decide +kernel, by decide +kernel, by decide +kernel, by decide +kernel, by decide +kernel, by decide +kernel⟩⟩

theorem test_notifyRetry : ∃ (t i via : Nat) (x : Session) (s : State),
  (fun b => b.session? i = some x ∧ b.nextHop x.host.nic x.host.ip = some via) (s.begun t) :=
  ⟨5, 2, 5, ({ host := ⟨0, 5, 6⟩, id := 77, keyId := 1, role := 0, version := 0x10, key := (List.replicate 32 7), client := 0xFFFF, notify := true, lastAt := 3, seq := 4 }), { lab [(K.Ipv4Address, 1), (K.Ipv4Netmask, 0), (K.TetherPorts, 1), (K.LifecycleState, 0)] with net := { (lab [(K.Ipv4Address, 1), (K.Ipv4Netmask, 0), (K.TetherPorts, 1), (K.LifecycleState, 0)]).net with sessions := State.reset.net.sessions.set 2 (some { host := ⟨0, 5, 6⟩, id := 77, keyId := 1, role := 0, version := 0x10, key := (List.replicate 32 7), client := 0xFFFF, notify := true, lastAt := 3, seq := 4 }) } }, ⟨by decide +kernel, by decide +kernel⟩⟩

theorem test_sessionTimeout : ∃ (t i : Nat) (x : Session) (s : State),
  (fun b => b.session? i = some x ∧ x.lastAt + b.reg K.SessionTimeout * 1000000 ≤ b.now) (s.begun t) :=
  ⟨1000000000000, 2, ({ host := ⟨0, 5, 6⟩, id := 77, keyId := 1, role := 0, version := 0x10, key := (List.replicate 32 7), client := 0xFFFF, notify := true, lastAt := 3, seq := 4 }), { lab [(K.Ipv4Address, 1), (K.Ipv4Netmask, 0), (K.TetherPorts, 1), (K.LifecycleState, 0), (K.SessionTimeout, 1000)] with net := { (lab [(K.Ipv4Address, 1), (K.Ipv4Netmask, 0), (K.TetherPorts, 1), (K.LifecycleState, 0), (K.SessionTimeout, 1000)]).net with sessions := State.reset.net.sessions.set 2 (some { host := ⟨0, 5, 6⟩, id := 77, keyId := 1, role := 0, version := 0x10, key := (List.replicate 32 7), client := 0xFFFF, notify := true, lastAt := 3, seq := 4 }) } }, ⟨by decide +kernel, by decide +kernel⟩⟩


/-! ### Hypotheses that are met: Network time -/

theorem test_ptpSync : ∃ (t port domain src origin : Nat) (logInt corr : Int) (s : State),
  (-7 ≤ logInt) ∧ (logInt ≤ 1) ∧ (fun b => b.ptpOn port domain = true ∧ b.time.parent = some src
      ∧ 1 ≤ b.reg K.PtpState ∧ b.reg K.PtpState ≤ 3) (s.begun t) :=
  ⟨5, 0, 0, 9, 3, 0, 0, { lab [(K.PtpPort, 0), (K.PtpDomain, 0), (K.PtpState, 2)] with time := { (lab [(K.PtpPort, 0), (K.PtpDomain, 0), (K.PtpState, 2)]).time with parent := some 9 } }, by decide +kernel, by decide +kernel, ⟨by decide +kernel, by decide +kernel, by decide +kernel, by decide +kernel⟩⟩

theorem test_ptpAnnounce : ∃ (t port domain src : Nat) (logInt : Int) (data : List Nat) (s : State),
  (data.length = 7) ∧ (fun b => b.ptpOn port domain = true) (s.begun t) :=
  ⟨5, 0, 0, 9, 0, [1, 2, 3, 4, 5, 6, 7], { lab [(K.PtpPort, 0), (K.PtpDomain, 0), (K.PtpState, 2)] with time := { (lab [(K.PtpPort, 0), (K.PtpDomain, 0), (K.PtpState, 2)]).time with parent := some 9 } }, by decide +kernel, by decide +kernel⟩

theorem test_announceTimeout : ∃ (t a : Nat) (s : State),
  (fun b => b.time.announceAt = some a ∧ b.ptpOn (b.reg K.PtpPort) (b.reg K.PtpDomain) = true
        ∧ b.reg K.PtpState = 2 ∧ a + 3 * b.time.announceEvery ≤ b.now) (s.begun t) :=
  ⟨1000000000000, 3, { lab [(K.PtpPort, 0), (K.PtpDomain, 0), (K.PtpState, 2)] with time := { (lab [(K.PtpPort, 0), (K.PtpDomain, 0), (K.PtpState, 2)]).time with parent := some 9, announceAt := some 3 } }, ⟨by decide +kernel, by decide +kernel, by decide +kernel, by decide +kernel⟩⟩

theorem test_ptpDelayMessage_1 : ∃ (t port domain sent remote : Nat) (corr delta : Int) (s : State),
  (fun b => b.ptpOn port domain = true ∧ b.reg K.PtpDelayMechanism ≠ 1 ∧ b.time.syncDelta = some delta) (s.begun t) :=
  ⟨5, 0, 0, 3, 4, 0, 7, { lab [(K.PtpPort, 0), (K.PtpDomain, 0), (K.PtpState, 2)] with time := { (lab [(K.PtpPort, 0), (K.PtpDomain, 0), (K.PtpState, 2)]).time with parent := some 9, syncDelta := some 7 } }, ⟨by decide +kernel, by decide +kernel, by decide +kernel⟩⟩

theorem test_ptpDelayMessage_2 : ∃ (t port domain sent remote : Nat) (corr : Int) (s : State),
  (fun b => b.ptpOn port domain = true ∧ (b.reg K.PtpDelayMechanism = 1 ∨ b.reg K.PtpState = 4)) (s.begun t) :=
  ⟨5, 0, 0, 3, 4, 0, { lab [(K.PtpPort, 0), (K.PtpDomain, 0), (K.PtpState, 4)] with time := { (lab [(K.PtpPort, 0), (K.PtpDomain, 0), (K.PtpState, 4)]).time with masterSeq := 0 } }, ⟨by decide +kernel, by decide +kernel⟩⟩

theorem test_ptpMasterSync : ∃ (t : Nat) (s : State),
  (fun b => b.ptpOn (b.reg K.PtpPort) (b.reg K.PtpDomain) = true ∧ b.reg K.PtpState = 4) (s.begun t) :=
  ⟨5, { lab [(K.PtpPort, 0), (K.PtpDomain, 0), (K.PtpState, 4)] with time := { (lab [(K.PtpPort, 0), (K.PtpDomain, 0), (K.PtpState, 4)]).time with masterSeq := 0 } }, ⟨by decide +kernel, by decide +kernel⟩⟩

theorem test_timeNowLatch : ∃ (t : Nat) (path : WPath) (s : State),
  (fun b => checkRead b 0x2E40 0x10 = 0) (s.begun t) :=
  ⟨5, (.core 0), { lab [(K.PtpPort, 0), (K.PtpDomain, 0), (K.PtpState, 2)] with time := { (lab [(K.PtpPort, 0), (K.PtpDomain, 0), (K.PtpState, 2)]).time with masterSeq := 0 } }, by decide +kernel⟩


/-! ### Hypotheses that are met: Die health -/

theorem test_diodeASample_1 : ∃ (t : Nat) (code : Int) (s : State),
  let temperature := fun (x y : List Int) =>
    max ((diodeValue x).getD ((diodeValue y).getD 0)) ((diodeValue y).getD ((diodeValue x).getD 0))
  let next := fun (b : State) (second : Bool) (code : Int) =>
    ((code + b.regI (if second then K.ThermalTrim + 1 else K.ThermalTrim) 2)
      :: if second then b.health.samplesB else b.health.samplesA).take 4
  let calm := fun (b : State) (v : Int) => b.islandReady islAON = true ∧ b.health.shuttingDown = false
    ∧ b.health.hardLatch = false ∧ (v < b.regI K.ShutdownThreshold 2 ∨ b.health.shutdown = true)
  (fun b => calm b (temperature (next b false code) b.health.samplesB)) (s.begun t) :=
  ⟨5, 400, lab [], ⟨by decide +kernel, by decide +kernel, by decide +kernel, Or.inl (by decide +kernel)⟩⟩

theorem test_diodeBSample_1 : ∃ (t : Nat) (code : Int) (s : State),
  let temperature := fun (x y : List Int) =>
    max ((diodeValue x).getD ((diodeValue y).getD 0)) ((diodeValue y).getD ((diodeValue x).getD 0))
  let next := fun (b : State) (second : Bool) (code : Int) =>
    ((code + b.regI (if second then K.ThermalTrim + 1 else K.ThermalTrim) 2)
      :: if second then b.health.samplesB else b.health.samplesA).take 4
  let calm := fun (b : State) (v : Int) => b.islandReady islAON = true ∧ b.health.shuttingDown = false
    ∧ b.health.hardLatch = false ∧ (v < b.regI K.ShutdownThreshold 2 ∨ b.health.shutdown = true)
  (code < 1984) ∧ (fun b => calm b (temperature b.health.samplesA (next b true code))) (s.begun t) :=
  ⟨5, 400, lab [], by decide +kernel, ⟨by decide +kernel, by decide +kernel, by decide +kernel, Or.inl (by decide +kernel)⟩⟩

theorem test_diodeASample_2 : ∃ (t : Nat) (code : Int) (s : State),
  let temperature := fun (x y : List Int) =>
    max ((diodeValue x).getD ((diodeValue y).getD 0)) ((diodeValue y).getD ((diodeValue x).getD 0))
  let next := fun (b : State) (second : Bool) (code : Int) =>
    ((code + b.regI (if second then K.ThermalTrim + 1 else K.ThermalTrim) 2)
      :: if second then b.health.samplesB else b.health.samplesA).take 4
  (fun b => b.inv = true ∧ b.islandReady islAON = true ∧ b.isH = true ∧ b.health.shutdown = false
      ∧ b.health.latchH = false
        ∧ b.regI K.ShutdownThreshold 2 ≤ temperature (next b false code) b.health.samplesB) (s.begun t) :=
  ⟨5, 1900, { lab [] with part := .h }, ⟨by decide +kernel, by decide +kernel, by decide +kernel, by decide +kernel, by decide +kernel, by decide +kernel⟩⟩

theorem test_diodeASample_3 : ∃ (t : Nat) (code : Int) (s : State),
  let temperature := fun (x y : List Int) =>
    max ((diodeValue x).getD ((diodeValue y).getD 0)) ((diodeValue y).getD ((diodeValue x).getD 0))
  let next := fun (b : State) (second : Bool) (code : Int) =>
    ((code + b.regI (if second then K.ThermalTrim + 1 else K.ThermalTrim) 2)
      :: if second then b.health.samplesB else b.health.samplesA).take 4
  (fun b => b.inv = true ∧ b.islandReady islAON = true ∧ b.islandReady islCTL = true ∧ b.isH = false
      ∧ b.sys.hold = false
        ∧ b.health.shutdown = false
        ∧ b.regI K.ShutdownThreshold 2 ≤ temperature (next b false code) b.health.samplesB) (s.begun t) :=
  ⟨5, 1900, lab [], ⟨by decide +kernel, by decide +kernel, by decide +kernel, by decide +kernel, by decide +kernel, by decide +kernel, by decide +kernel⟩⟩

theorem test_diodeASample_4 : ∃ (t : Nat) (code : Int) (s : State),
  (fun b => b.inv = true ∧ b.islandReady islAON = true ∧ b.health.shutdown = true ∧ b.health.shuttingDown = true
        ∧ b.sys.hold = false ∧ b.health.shutAt + 45000000 ≤ b.now) (s.begun t) :=
  ⟨1000000000, 1900, { lab [] with health := { (lab []).health with shutdown := true, shuttingDown := true, shutAt := 3 } }, ⟨by decide +kernel, by decide +kernel, by decide +kernel, by decide +kernel, by decide +kernel, by decide +kernel⟩⟩

theorem test_diodeBSample_2 : ∃ (t : Nat) (code : Int) (s : State),
  (1984 ≤ code) ∧ (fun b => b.inv = true ∧ b.islandReady islAON = true ∧ b.isH = false
      ∧ b.health.hardLatch = false ∧ b.health.hardReset = false) (s.begun t) :=
  ⟨5, 1984, lab [], by decide +kernel, ⟨by decide +kernel, by decide +kernel, by decide +kernel, by decide +kernel, by decide +kernel⟩⟩

theorem test_diodeASample_5 : ∃ (t : Nat) (code : Int) (s : State),
  let temperature := fun (x y : List Int) =>
    max ((diodeValue x).getD ((diodeValue y).getD 0)) ((diodeValue y).getD ((diodeValue x).getD 0))
  let next := fun (b : State) (second : Bool) (code : Int) =>
    ((code + b.regI (if second then K.ThermalTrim + 1 else K.ThermalTrim) 2)
      :: if second then b.health.samplesB else b.health.samplesA).take 4
  (fun b => b.islandReady islAON = true ∧ b.health.hardLatch = true ∧ b.health.hardReset = true
        ∧ b.health.shuttingDown = false
        ∧ temperature (next b false code) b.health.samplesB
            < b.regI K.ShutdownThreshold 2 - (b.reg (K.ThresholdHysteresis + 2) : Int)) (s.begun t) :=
  ⟨5, 400, { lab [] with health := { (lab []).health with hardLatch := true, hardReset := true } }, ⟨by decide +kernel, by decide +kernel, by decide +kernel, by decide +kernel, by decide +kernel⟩⟩

theorem test_thermalTrimReference : ∃ (t v : Nat) (w : Wr) (s : State),
  (w.val = v) ∧ (fun b => b.takes 0x2F03 1 w v ∧ (b.mode = mStandby ∨ b.mode = mReady)) (s.begun t) :=
  ⟨5, 400, ⟨.core 0, 0, 2, 400⟩, lab [], by decide +kernel, ⟨⟨_, rfl, by decide +kernel, rfl⟩, by decide +kernel⟩⟩

theorem test_thermalTrimReading : ∃ (t : Nat) (ref x y : Int) (s : State),
  (fun b => b.health.trimFirst = some (ref, x, y) ∧ b.health.trimAt + 1000000000 ≤ b.now) (s.begun t) :=
  ⟨2000000000, 400, 380, 390, { lab [] with health := { (lab []).health with trimFirst := some (400, 380, 390), rawA := 382, rawB := 391 } }, ⟨by decide +kernel, by decide +kernel⟩⟩

theorem test_faultLogSave : ∃ (t : Nat) (w : Wr) (s : State),
  (w.val = 1) ∧ (fun b => b.takes 0x2142 2 w 1) (s.begun t) :=
  ⟨5, ⟨.core 0, 0, 1, 1⟩, lab [], by decide +kernel, ⟨_, rfl, by decide +kernel, rfl⟩⟩

theorem test_calibrationRecordSave : ∃ (t v : Nat) (w : Wr) (s : State),
  (w.val = v) ∧ (fun b => b.takes 0x2F10 1 w v) (s.begun t) :=
  ⟨5, 129, ⟨.core 0, 0, 4, 129⟩, lab [], by decide +kernel, ⟨_, rfl, by decide +kernel, rfl⟩⟩

theorem test_calibrationAutoSave : ∃ (t : Nat) (s : State),
  (fun b => b.islandReady islCTL = true ∧ b.health.countsChanged = true
        ∧ ∀ t0, b.health.countsSavedAt = some t0 → t0 + 60000000000 ≤ b.now) (s.begun t) :=
  ⟨5, { lab [] with health := { (lab []).health with countsChanged := true } }, ⟨by decide +kernel, by decide +kernel, (fun t0 h => by cases h)⟩⟩

theorem test_calibrationRecordWritten : ∃ (t : Nat) (j : SaveJob) (rest : List SaveJob) (s : State),
  (fun b => b.health.writing = j :: rest ∧ ∀ r ∈ j.recs, 1 ≤ r.1 ∧ r.1 ≤ 8) (s.begun t) :=
  ⟨5, ({ recs := [(1, { part := .f })], counts := [], auto := false }), [], { lab [] with health := { (lab []).health with writing := [{ recs := [(1, { part := .f })], counts := [], auto := false }] } }, ⟨by decide +kernel, by decide +kernel⟩⟩


/-! ### Hypotheses that are met: The Bridle pair -/

theorem test_pairStart_1 : ∃ (t : Nat) (s : State),
  let due := fun (b : State) => b.reg K.BridleRole = 1 ∧ b.bridle.lostClaim = false
      ∧ b.bridle.startAt + b.threeClaims ≤ b.now
  (fun b => due b ∧ ∀ a ∈ b.bridle.heard, a = none) (s.begun t) :=
  ⟨1000000, { lab [(K.BridleRole, 1), (K.ClaimInterval, 1000), (K.ConfiguredClaim, 9)] with bridle := { (lab [(K.BridleRole, 1), (K.ClaimInterval, 1000), (K.ConfiguredClaim, 9)]).bridle with startAt := 3 } }, ⟨⟨by decide +kernel, by decide +kernel, by decide +kernel⟩, by decide +kernel⟩⟩

theorem test_pairStart_2 : ∃ (t : Nat) (s : State),
  let due := fun (b : State) => b.reg K.BridleRole = 1 ∧ b.bridle.lostClaim = false
      ∧ b.bridle.startAt + b.threeClaims ≤ b.now
  let heardBefore := fun (b : State) => ∃ a ∈ b.bridle.heard, a.isSome = true
  (fun b => due b ∧ heardBefore b ∧ field b.bridle.peer 5 1 ≠ 2
        ∧ (field b.bridle.peer 4 1 < b.reg K.ConfiguredClaim
          ∨ field b.bridle.peer 4 1 = b.reg K.ConfiguredClaim
      ∧ Config.dieSerial.toNat < Config.peerControllerId)) (s.begun t) :=
  ⟨1000000, { lab [(K.BridleRole, 1), (K.ClaimInterval, 1000), (K.ConfiguredClaim, 12)] with bridle := { (lab [(K.BridleRole, 1), (K.ClaimInterval, 1000), (K.ConfiguredClaim, 12)]).bridle with startAt := 3, heard := [some 3, none], peer := [66, 72, 16, 5, 9, 1, 0, 0, 0, 0, 0, 0, 0, 0, 0, 0, 0, 0, 0, 0, 0, 0, 0, 0, 68, 6, 223, 82] } }, ⟨⟨by decide +kernel, by decide +kernel, by decide +kernel⟩, ⟨some 3, by decide +kernel, rfl⟩, by decide +kernel, Or.inl (by decide +kernel)⟩⟩

theorem test_pairStart_3 : ∃ (t : Nat) (s : State),
  let due := fun (b : State) => b.reg K.BridleRole = 1 ∧ b.bridle.lostClaim = false
      ∧ b.bridle.startAt + b.threeClaims ≤ b.now
  let heardBefore := fun (b : State) => ∃ a ∈ b.bridle.heard, a.isSome = true
  (fun b => due b ∧ heardBefore b ∧ (field b.bridle.peer 5 1 = 2
        ∨ b.reg K.ConfiguredClaim < field b.bridle.peer 4 1
        ∨ field b.bridle.peer 4 1 = b.reg K.ConfiguredClaim
      ∧ Config.peerControllerId ≤ Config.dieSerial.toNat)) (s.begun t) :=
  ⟨1000000, { lab [(K.BridleRole, 1), (K.ClaimInterval, 1000), (K.ConfiguredClaim, 9)] with bridle := { (lab [(K.BridleRole, 1), (K.ClaimInterval, 1000), (K.ConfiguredClaim, 9)]).bridle with startAt := 3, heard := [some 3, none], peer := [66, 72, 16, 5, 9, 2, 0, 0, 0, 0, 0, 0, 0, 0, 0, 0, 0, 0, 0, 0, 0, 0, 0, 0, 237, 128, 137, 241] } }, ⟨⟨by decide +kernel, by decide +kernel, by decide +kernel⟩, ⟨some 3, by decide +kernel, rfl⟩, Or.inl (by decide +kernel)⟩⟩

theorem test_heartbeatSend_1 : ∃ (t : Nat) (s : State),
  let paired := fun (b : State) => b.sys.dictReady = true ∧ b.reg K.BridleRole ≠ 0
  (fun b => paired b ∧ b.reg K.BridleRole = 2) (s.begun t) :=
  ⟨5, lab [(K.BridleRole, 2), (K.ClaimActual, 5), (K.ConfiguredClaim, 9)], ⟨⟨by decide +kernel, by decide +kernel⟩, by decide +kernel⟩⟩

theorem test_heartbeatSend_2 : ∃ (t : Nat) (s : State),
  let paired := fun (b : State) => b.sys.dictReady = true ∧ b.reg K.BridleRole ≠ 0
  (fun b => paired b ∧ b.reg K.BridleRole = 3) (s.begun t) :=
  ⟨5, lab [(K.BridleRole, 3), (K.ClaimActual, 5), (K.ConfiguredClaim, 9)], ⟨⟨by decide +kernel, by decide +kernel⟩, by decide +kernel⟩⟩

theorem test_heartbeatReceived_1 : ∃ (t : Nat) (nc : Bool) (d : List Nat) (s : State),
  let paired := fun (b : State) => b.sys.dictReady = true ∧ b.reg K.BridleRole ≠ 0
  (fun b => paired b ∧ heartbeatHolds d = true) (s.begun t) :=
  ⟨5, false, [66, 72, 16, 5, 9, 2, 0, 0, 0, 0, 0, 0, 0, 0, 0, 0, 0, 0, 0, 0, 0, 0, 0, 0, 237, 128, 137, 241], { lab [(K.BridleRole, 3), (K.ConfiguredClaim, 4)] with bridle := { (lab [(K.BridleRole, 3), (K.ConfiguredClaim, 4)]).bridle with heard := [none, none] } }, ⟨⟨by decide +kernel, by decide +kernel⟩, by decide +kernel⟩⟩

theorem test_heartbeatReceived_2 : ∃ (t : Nat) (nc : Bool) (d : List Nat) (s : State),
  let paired := fun (b : State) => b.sys.dictReady = true ∧ b.reg K.BridleRole ≠ 0
  (fun b => paired b ∧ heartbeatHolds d = false) (s.begun t) :=
  ⟨5, false, [1, 2], lab [(K.BridleRole, 3)], ⟨⟨by decide +kernel, by decide +kernel⟩, by decide +kernel⟩⟩

theorem test_mirrorFrame_1 : ∃ (t : Nat) (d : List Nat) (s : State),
    let mirrored := fun (b : State) => b.sys.dictReady = true ∧ (b.reg K.BridleRole = 3 ∨ b.reg K.BridleRole = 4)
      ∧ field d 0 2 = 0x4D42 ∧ field d 2 1 = 0x10
    (fun b => mirrored b ∧ bit (field d 3 1) 0 = false
        ∧ ∀ q, b.bridle.mirrorIn = some q → field d 4 4 ≠ (q + 1) % 2 ^ 32) (s.begun t) :=
  ⟨5, (leBytes 8 (0x00104D42 + 2 ^ 32 * 9)), { lab [(K.BridleRole, 3), (K.ClaimInterval, 1000)] with bridle := { (lab [(K.BridleRole, 3), (K.ClaimInterval, 1000)]).bridle with mirrorIn := some 3 } }, ⟨⟨by decide +kernel, Or.inl (by decide +kernel), by decide +kernel, by decide +kernel⟩, by decide +kernel, (by intro q hq; cases hq; decide +kernel)⟩⟩

theorem test_mirrorFrame_2 : ∃ (t : Nat) (d : List Nat) (s : State),
    let mirrored := fun (b : State) => b.sys.dictReady = true ∧ (b.reg K.BridleRole = 3 ∨ b.reg K.BridleRole = 4)
      ∧ field d 0 2 = 0x4D42 ∧ field d 2 1 = 0x10
    (fun b => mirrored b ∧ (bit (field d 3 1) 0 = true ∨ ∃ q, b.bridle.mirrorIn = some q
      ∧ field d 4 4 = (q + 1) % 2 ^ 32)) (s.begun t) :=
  ⟨5, (leBytes 8 (0x01104D42 + 2 ^ 32 * 9)), { lab [(K.BridleRole, 3), (K.ClaimInterval, 1000)] with bridle := { (lab [(K.BridleRole, 3), (K.ClaimInterval, 1000)]).bridle with mirrorIn := some 3 } }, ⟨⟨by decide +kernel, Or.inl (by decide +kernel), by decide +kernel, by decide +kernel⟩, Or.inl (by decide +kernel)⟩⟩

theorem test_peerAbsent_1 : ∃ (t : Nat) (s : State),
    let silent := fun (b : State) => b.reg K.BridleRole ≠ 0 ∧ b.bridle.absent = false ∧ (∃ a, some a ∈ b.bridle.heard)
      ∧ ∀ a, some a ∈ b.bridle.heard → a + b.threeClaims ≤ b.now
    let takes := fun (b : State) => (b.reg K.BridleRole = 3 ∨ b.reg K.BridleRole = 4) ∧ b.flag K.PairReady = true
      ∧ b.bridle.guardEnd = none
    (fun b => silent b ∧ ¬ takes b) (s.begun t) :=
  ⟨1000000, { lab [(K.BridleRole, 3), (K.ClaimInterval, 1000)] with bridle := { (lab [(K.BridleRole, 3), (K.ClaimInterval, 1000)]).bridle with heard := [some 3, none] } }, ⟨⟨by decide +kernel, by decide +kernel, ⟨3, by decide +kernel⟩, (by intro a ha; have h : some a ∈ [some 3, none] := ha; simp at h; subst h; decide +kernel)⟩, (fun h => absurd h.2.1 (by decide +kernel))⟩⟩

theorem test_peerAbsent_2 : ∃ (t : Nat) (s : State),
    let silent := fun (b : State) => b.reg K.BridleRole ≠ 0 ∧ b.bridle.absent = false ∧ (∃ a, some a ∈ b.bridle.heard)
      ∧ ∀ a, some a ∈ b.bridle.heard → a + b.threeClaims ≤ b.now
    let takes := fun (b : State) => (b.reg K.BridleRole = 3 ∨ b.reg K.BridleRole = 4) ∧ b.flag K.PairReady = true
      ∧ b.bridle.guardEnd = none
    (fun b => silent b ∧ takes b) (s.begun t) :=
  ⟨1000000, { lab [(K.BridleRole, 3), (K.ClaimInterval, 1000), (K.PairReady, 1)] with bridle := { (lab [(K.BridleRole, 3), (K.ClaimInterval, 1000), (K.PairReady, 1)]).bridle with heard := [some 3, none] } }, ⟨⟨by decide +kernel, by decide +kernel, ⟨3, by decide +kernel⟩, (by intro a ha; have h : some a ∈ [some 3, none] := ha; simp at h; subst h; decide +kernel)⟩, ⟨Or.inl (by decide +kernel), by decide +kernel, rfl⟩⟩⟩

theorem test_takeoverGuardEnd : ∃ (t e : Nat) (s : State),
  (fun b => b.bridle.guardEnd = some e ∧ e ≤ b.now
        ∧ ∀ l ∈ b.sharedLinks, b.linkUp l = true → b.bridle.cleared.contains l = true) (s.begun t) :=
  ⟨1000000, 5, { lab [(K.BridleRole, 3), (K.ClaimInterval, 1000)] with bridle := { (lab [(K.BridleRole, 3), (K.ClaimInterval, 1000)]).bridle with guardEnd := some 5 } }, ⟨by decide +kernel, by decide +kernel, by decide +kernel⟩⟩

theorem test_returnPair : ∃ (t u0 : Nat) (s : State),
  (fun b => b.reg K.BridleRole = 3 ∧ b.flag K.ReturnEnable = true
        ∧ field b.bridle.peer 4 1 < b.reg K.ConfiguredClaim ∧ b.bridle.healthySince = some u0
        ∧ u0 + b.reg K.ReturnHealthyTime * 1000000 ≤ b.now ∧ b.healthy = true
        ∧ b.flag K.MirrorCompleteFlag = true ∧ b.bridle.guardEnd = none ∧ b.bridle.absent = false) (s.begun t) :=
  ⟨1000000000000, 3, { lab [(K.BridleRole, 3), (K.ReturnEnable, 1), (K.ConfiguredClaim, 12), (K.ReturnHealthyTime, 1000), (K.MirrorCompleteFlag, 1), (K.PtpState, 2), (K.DramTrained, 1), (K.SubchannelsWorking, 15), (K.PointsTrained, 7), (K.PointsTrained + 1, 7), (K.PointsTrained + 2, 7), (K.PointsTrained + 3, 7), (K.SubchannelState, 3), (K.SubchannelState + 1, 3), (K.SubchannelState + 2, 3), (K.SubchannelState + 3, 3), (K.PrintOperatingPoint, 6400), (K.FunctionStatus, 1), (K.FunctionStatus + 3, 1), (K.FunctionStatus + 4, 1), (K.FunctionStatus + 5, 1), (K.FunctionStatus + 6, 1), (K.FunctionStatus + 7, 1), (K.FunctionStatus + 8, 1)] with bridle := { (lab [(K.BridleRole, 3), (K.ReturnEnable, 1), (K.ConfiguredClaim, 12), (K.ReturnHealthyTime, 1000), (K.MirrorCompleteFlag, 1), (K.PtpState, 2), (K.DramTrained, 1), (K.SubchannelsWorking, 15), (K.PointsTrained, 7), (K.PointsTrained + 1, 7), (K.PointsTrained + 2, 7), (K.PointsTrained + 3, 7), (K.SubchannelState, 3), (K.SubchannelState + 1, 3), (K.SubchannelState + 2, 3), (K.SubchannelState + 3, 3), (K.PrintOperatingPoint, 6400), (K.FunctionStatus, 1), (K.FunctionStatus + 3, 1), (K.FunctionStatus + 4, 1), (K.FunctionStatus + 5, 1), (K.FunctionStatus + 6, 1), (K.FunctionStatus + 7, 1), (K.FunctionStatus + 8, 1)]).bridle with healthySince := some 3, peer := [0, 0, 0, 0, 9] } }, ⟨by decide +kernel, by decide +kernel, by decide +kernel, by decide +kernel, by decide +kernel, by decide +kernel, by decide +kernel, by decide +kernel, by decide +kernel⟩⟩


/-! ### Hypotheses that are met: Security and debug -/

theorem test_lifecycleAdvance : ∃ (t v : Nat) (w : Wr) (s : State),
  (w.val = v) ∧ (fun b => b.takes 0x3100 2 w v ∧ isPrint b.mode = false
        ∧ (v = 1 ∧ b.reg K.LifecycleState = 0 ∧ 0 < b.firmwareKeys
            ∧ (∃ i, i < 4 ∧ b.keyLive (0x11 + i) = true)
          ∨ v = 2 ∧ b.reg K.LifecycleState = 1 ∧ b.sec.signed = true)) (s.begun t) :=
  ⟨5, 2, ⟨.core 0, 0, 1, 2⟩, { lab [(K.LifecycleState, 1)] with sec := { (lab [(K.LifecycleState, 1)]).sec with signed := true } }, by decide +kernel, ⟨⟨_, rfl, by decide +kernel, rfl⟩, by decide +kernel, Or.inr ⟨rfl, by decide +kernel, by decide +kernel⟩⟩⟩

theorem test_keyInstall : ∃ (t : Nat) (w : Wr) (k : List Nat) (s : State),
  (k = leBytes w.len w.val) ∧ (fun b => b.takes 0x3130 1 w w.val ∧ isPrint b.mode = false ∧ installFits k = true
        ∧ b.keyStatus (field k 0 1) = 0 ∧ (roleSlot (field k 0 1) = true → ∃ c, w.path = .core c)) (s.begun t) :=
  ⟨5, ⟨.core 0, 0, 36, 13652010411249045078775198968736258355698796296397780478757834659812221486618445348865⟩, (leBytes 36 13652010411249045078775198968736258355698796296397780478757834659812221486618445348865), { lab [] with sec := { (lab []).sec with signed := false } }, by decide +kernel, ⟨⟨_, rfl, by decide +kernel, rfl⟩, by decide +kernel, by decide +kernel, by decide +kernel, fun _ => ⟨0, rfl⟩⟩⟩

theorem test_keyRevoke : ∃ (t : Nat) (w : Wr) (s : State),
  (fun b => b.takes 0x3130 2 w w.val ∧ isPrint b.mode = false ∧ keySlots.contains w.val = true
        ∧ ¬ (signingSlot w.val = true ∧ b.keyLive w.val = true ∧ bit (b.keyStatus w.val) 0 = true
          ∧ b.firmwareKeys = 1)) (s.begun t) :=
  ⟨5, ⟨.core 0, 0, 1, 1⟩, lab [(K.KeyStatus, 64)], ⟨⟨_, rfl, by decide +kernel, rfl⟩, by decide +kernel, by decide +kernel, by decide +kernel⟩⟩

theorem test_tokenChallenge : ∃ (t : Nat) (path : WPath) (s : State),
  (fun b => checkRead b 0x3110 1 = 0) (s.begun t) :=
  ⟨5, .can, lab [], by decide +kernel⟩

theorem test_roleToken_1 : ∃ (t : Nat) (w : Wr) (n : List Nat) (t0 : Nat) (s : State),
  (w.path = .can) ∧ (fun b => b.takes 0x3110 2 w w.val ∧ b.lockedOut pathCan = false ∧ b.sec.nonce = some (n, t0)
      ∧ (b.now < t0 + 1000000000 ∧ roleSlot (field (leBytes 17 w.val) 0 1) = true
      ∧ b.keyLive (field (leBytes 17 w.val) 0 1) = true
      ∧ (leBytes 17 w.val).drop 1 = tokenFor (b.keyBytes (field (leBytes 17 w.val) 0 1)) n b.can.nodeId)) (s.begun t) :=
  ⟨5, ⟨.can, 0, 17, 21154623771755752588272617815688815373825⟩, [1, 2], 3, { lab [(K.KeyStatus, 64)] with sec := { (lab [(K.KeyStatus, 64)]).sec with keys := [(1, (List.replicate 32 7))], nonce := some ([1, 2], 3) } }, by decide +kernel, ⟨⟨_, rfl, by decide +kernel, rfl⟩, by decide +kernel, by decide +kernel, ⟨by decide +kernel, by decide +kernel, by decide +kernel, by decide +kernel⟩⟩⟩

theorem test_roleToken_2 : ∃ (t : Nat) (w : Wr) (n : List Nat) (t0 : Nat) (s : State),
  (w.path = .can) ∧ (fun b => b.takes 0x3110 2 w w.val ∧ b.lockedOut pathCan = false ∧ b.sec.nonce = some (n, t0)
      ∧ ¬ (b.now < t0 + 1000000000 ∧ roleSlot (field (leBytes 17 w.val) 0 1) = true
      ∧ b.keyLive (field (leBytes 17 w.val) 0 1) = true
      ∧ (leBytes 17 w.val).drop 1 = tokenFor (b.keyBytes (field (leBytes 17 w.val) 0 1)) n b.can.nodeId)) (s.begun t) :=
  ⟨5, ⟨.can, 0, 17, 1⟩, [1, 2], 3, { lab [(K.KeyStatus, 64)] with sec := { (lab [(K.KeyStatus, 64)]).sec with keys := [(1, (List.replicate 32 7))], nonce := some ([1, 2], 3) } }, by decide +kernel, ⟨⟨_, rfl, by decide +kernel, rfl⟩, by decide +kernel, by decide +kernel, (fun h => absurd h.2.2.2 (by decide +kernel))⟩⟩

theorem test_canRoleTimeout : ∃ (t u0 : Nat) (s : State),
  (fun b => b.can.roleUntil = some u0 ∧ u0 ≤ b.now) (s.begun t) :=
  ⟨5, 3, { lab [(K.CanRole, 1)] with can := { (lab [(K.CanRole, 1)]).can with roleUntil := some 3 } }, ⟨by decide +kernel, by decide +kernel⟩⟩

theorem test_lockoutEnd : ∃ (t path : Nat) (s : State),
  (fun b => ∀ l ∈ b.sec.lockedUntil, l.1 = path → l.2 ≤ b.now) (s.begun t) :=
  ⟨5, 1, { lab [] with sec := { (lab []).sec with lockedUntil := [(1, 3), (2, 99)] } }, by decide +kernel⟩

theorem test_packageCheckDone : ∃ (t kind : Nat) (s : State),
  (fun b => b.sec.loading = some kind ∧ b.reg K.PackageState = 1) (s.begun t) :=
  ⟨5, 1, { { lab [(K.PackageState, 1)] with sec := { (lab [(K.PackageState, 1)]).sec with loading := some 1 } } with mem := [(137690611712, 80#8), (137690611713, 75#8), (137690611714, 16#8), (137690611715, 1#8), (137690611716, 255#8), (137690611720, 1#8), (137690611724, 8#8), (137690611744, 124#8), (137690611745, 45#8), (137690611746, 176#8), (137690611747, 157#8), (137690611748, 49#8), (137690611749, 14#8), (137690611750, 206#8), (137690611751, 11#8), (137690611752, 54#8), (137690611753, 213#8), (137690611754, 12#8), (137690611755, 134#8), (137690611756, 228#8), (137690611757, 195#8), (137690611758, 230#8), (137690611759, 100#8), (137690611760, 22#8), (137690611761, 132#8), (137690611762, 148#8), (137690611763, 140#8), (137690611764, 214#8), (137690611765, 252#8), (137690611766, 3#8), (137690611767, 38#8), (137690611768, 43#8), (137690611769, 13#8), (137690611770, 14#8), (137690611771, 217#8), (137690611772, 26#8), (137690611773, 108#8), (137690611774, 251#8), (137690611775, 195#8), (137690611776, 205#8), (137690611777, 90#8), (137690611778, 255#8), (137690611779, 211#8), (137690611780, 150#8), (137690611781, 193#8), (137690611782, 248#8), (137690611783, 95#8), (137690611784, 208#8), (137690611785, 161#8), (137690611786, 9#8), (137690611787, 177#8), (137690611788, 3#8), (137690611789, 54#8), (137690611790, 75#8), (137690611791, 25#8)] }, ⟨by decide +kernel, by decide +kernel⟩⟩

theorem test_packageWriteDone : ∃ (t : Nat) (ok : Bool) (s : State),
  (fun b => b.reg K.PackageState = 2 ∧ b.sec.loading.isSome = true ∧ b.reg K.BootSlotRun ≤ 1) (s.begun t) :=
  ⟨5, true, { lab [(K.PackageState, 2), (K.BootSlotRun, 0)] with sec := { (lab [(K.PackageState, 2), (K.BootSlotRun, 0)]).sec with loading := some 1 } }, ⟨by decide +kernel, by decide +kernel, by decide +kernel⟩⟩

theorem test_securityVersionCommit : ∃ (t : Nat) (w : Wr) (s : State),
  (w.val = 1) ∧ (fun b => b.takes 0x3101 6 w 1 ∧ b.reg K.LifecycleState = 2
      ∧ b.reg K.FirmwareSecurityVersion ≤ 64) (s.begun t) :=
  ⟨5, ⟨.core 0, 0, 1, 1⟩, lab [(K.LifecycleState, 2), (K.FirmwareSecurityVersion, 3)], by decide +kernel, ⟨⟨_, rfl, by decide +kernel, rfl⟩, by decide +kernel, by decide +kernel⟩⟩

theorem test_debugLevelRequest : ∃ (t v : Nat) (w : Wr) (s : State),
  (w.val = v) ∧ (fun b => b.takes 0x3120 1 w v ∧ b.debugPermits v = true) (s.begun t) :=
  ⟨5, 1, ⟨.core 0, 0, 1, 1⟩, lab [(K.LifecycleState, 1)], by decide +kernel, ⟨⟨_, rfl, by decide +kernel, rfl⟩, by decide +kernel⟩⟩

theorem test_grantExpiry : ∃ (t sources till : Nat) (s : State),
  (fun b => b.sec.grant = some (sources, till) ∧ (till ≤ b.now ∨ b.reg K.GrantExpiry ≤ ptpSec b.ptp)) (s.begun t) :=
  ⟨5, 7, 3, { lab [] with sec := { (lab []).sec with grant := some (7, 3) } }, ⟨by decide +kernel, by decide +kernel⟩⟩

theorem test_performanceCountersRead : ∃ (t : Nat) (path : WPath) (s : State),
  (fun b => b.reachable = true ∧ b.countersReadable path = true) (s.begun t) :=
  ⟨5, (.session 2), { lab [(K.DebugLevelActual, 1)] with net := { (lab [(K.DebugLevelActual, 1)]).net with sessions := State.reset.net.sessions.set 2 (some { host := ⟨0, 5, 6⟩, id := 77, keyId := 0x21, role := 2, version := 0x10, key := [], client := 0xFFFF, notify := true, lastAt := 3 }) } }, ⟨by decide +kernel, by decide +kernel⟩⟩

end Sys2Proof.Tests
end

section
/-! # The dictionary's refusals, interrupt lines and window slots

What settles the statements about R63, R67 and R80: lemmas on the address arithmetic of the window, on words of
the event unit's 256-bit registers, and on what a core finds after a refusal. -/

namespace Sys2Proof.Machine

/-! ### A refused write and the core's own abort code (R63, R68) -/

/-- A core's refused write leaves the refusal in its WindowAbortCode, whichever entry the write named (R68). -/
theorem reg_windowAbortCode_of_refused {b : State} {idx sub k : Nat} {w : Wr} (eff : Effect) (hp : w.path = .core k)
    (hk : k < 8) (hctl : b.islandReady islCTL = true) (hc : checkWrite b idx sub w ≠ 0) :
    ((writeBy idx sub eff w).run b).reg (K.WindowAbortCode + k) = checkWrite b idx sub w := by
  obtain ⟨m, hm, hput⟩ := run_recordRefusal w.path (checkWrite b idx sub w) b
  have hput : m = SMap.put b.dict (K.WindowAbortCode + k) (checkWrite b idx sub w) := by
    simpa [hp, hk, hctl] using hput
  rw [run_writeBy_refused eff hc, answer_reg, hm, State.occur_reg, hput, State.reg_set_same]

/-- A state with CTL and the dictionary ready, in which every other register holds its default. -/
def ctlReadyState : State :=
  { State.reset with
    dict := [(K.IslandReady + 1, 1)]
    sys := { State.reset.sys with dictReady := true } }

/-- Core 0's store of 1 to its own WindowAbortCode, which takes 0 alone (R73). -/
def abortCodeStore : Wr := ⟨.core 0, 0, 4, 1⟩

theorem checkWrite_abortCodeStore : checkWrite ctlReadyState 0x2102 1 abortCodeStore = abRange := by decide +kernel

/-- Refutes O48: the entry written may be the writing core's own WindowAbortCode, which takes the refusal's code
(R68). Core 0's store of 1 to 0x2102:01, which holds 0, is refused as out of range, and the entry then holds
0x0609_0030. -/
theorem not_outOfRangeWritesRefused : ¬ Obligations.OutOfRangeWritesRefused := by
  intro h
  obtain ⟨-, -, hkept⟩ := h ctlReadyState 0x2102 1 abortCodeStore _ (plain K.WindowAbortCode) rfl (by decide)
    (by decide) (by decide) (.inl rfl) (by decide +kernel) (by decide) (by decide) (.inr (by decide))
  have hbefore : ctlReadyState.reg K.WindowAbortCode = 0 := by decide +kernel
  have hafter : ((writeBy 0x2102 1 (plain K.WindowAbortCode) abortCodeStore).run ctlReadyState).reg K.WindowAbortCode
      = checkWrite ctlReadyState 0x2102 1 abortCodeStore :=
    reg_windowAbortCode_of_refused (k := 0) _ rfl (by decide) (by decide)
      (by rw [checkWrite_abortCodeStore]; decide)
  rw [checkWrite_abortCodeStore] at hafter
  exact absurd (hafter.symm.trans (hkept.trans hbefore)) (by decide)

/-! ### Words of a 256-bit register (R78) -/

/-- A model bit is the number's bit. -/
theorem bit_eq_testBit (v i : Nat) : bit v i = v.testBit i := by
  rw [Nat.testBit_eq_decide_div_mod_eq, bit, beq_eq_decide]

/-- A 32-bit value placed as word `word` has its bits there and nowhere else. -/
theorem testBit_word {v : Nat} (hv : v < 2 ^ 32) (word n : Nat) :
    (v * 2 ^ (32 * word)).testBit n = (decide (n / 32 = word) && v.testBit (n % 32)) := by
  rw [Nat.testBit_mul_two_pow]
  by_cases hw : n / 32 = word
  · have hn : n - 32 * word = n % 32 := by omega
    have hle : 32 * word ≤ n := by omega
    simp [hw, hn, hle]
  · by_cases hle : 32 * word ≤ n
    · have hbig : v < 2 ^ (n - 32 * word) := hv.trans_le (Nat.pow_le_pow_right (by decide) (by omega))
      simp [hw, Nat.testBit_lt_two_pow hbig]
    · simp [hw, hle]

/-- Replacing word `word` of a number by a 32-bit value changes that word's bits and no other. -/
theorem testBit_setWord {v : Nat} (hv : v < 2 ^ 32) (m word n : Nat) :
    (m / 2 ^ (32 * (word + 1)) * 2 ^ (32 * (word + 1)) + v * 2 ^ (32 * word) + m % 2 ^ (32 * word)).testBit n
      = if n / 32 = word then v.testBit (n % 32) else m.testBit n := by
  have hsplit : m / 2 ^ (32 * (word + 1)) * 2 ^ (32 * (word + 1)) + v * 2 ^ (32 * word) + m % 2 ^ (32 * word)
      = 2 ^ (32 * word) * (2 ^ 32 * (m / 2 ^ (32 * (word + 1))) + v) + m % 2 ^ (32 * word) := by
    ring
  rw [hsplit, Nat.testBit_two_pow_mul_add _ (Nat.mod_lt _ (Nat.two_pow_pos _)), Nat.testBit_two_pow_mul_add _ hv]
  by_cases hlow : n < 32 * word
  · have hw : n / 32 ≠ word := by omega
    simp [hlow, hw]
  · by_cases hin : n - 32 * word < 32
    · have hw : n / 32 = word := by omega
      have hn : n - 32 * word = n % 32 := by omega
      have hmod : n % 32 < 32 := Nat.mod_lt _ (by decide)
      simp [hlow, hw, hn, hmod]
    · have hw : n / 32 ≠ word := by omega
      have hn : n - 32 * word - 32 + 32 * (word + 1) = n := by omega
      simp [hlow, hin, hw, Nat.testBit_div_two_pow, hn]

/-- An EventPending write clears, of its word, the events whose bits it sets (R78). -/
theorem pending_evClear_word {v : Nat} (hv : v < 2 ^ 32) (p : BitVec 256) (word : Nat) {n : Nat} (hn : n < 256) :
    (p &&& ~~~BitVec.ofNat 256 (v * 2 ^ (32 * word))).getLsbD n
      = (p.getLsbD n && !(decide (n / 32 = word) && v.testBit (n % 32))) := by
  simp only [BitVec.getLsbD_and, BitVec.getLsbD_not, BitVec.getLsbD_ofNat, hn, decide_true, Bool.true_and,
    testBit_word hv]

/-- An EventMask write replaces its word of the mask (R78). -/
theorem masked_evMask_word {s : State} {w : Wr} (hv : w.val < 2 ^ 32) (word : Nat) {n : Nat} (hn : n < 256) :
    ((effMask word s w).act.run s).ev.masked n
      = if n / 32 = word then w.val.testBit (n % 32) else s.ev.masked n := by
  simp only [effMask, accept, Act.run_prim, Prim.apply, Ev.masked, BitVec.getLsbD_ofNat, hn, decide_true,
    Bool.true_and, testBit_setWord hv, BitVec.testBit_toNat]

/-! ### Interrupt lines (R80) -/

/-- Event `n` is pending and routed to line `line` of application core `core` (R79, R80). -/
def State.pendingOn (s : State) (core line n : Nat) : Prop :=
  n < 256 ∧ s.ev.pending.getLsbD n = true ∧ (s.ev.route n).testBit (16 + core) = true
    ∧ s.ev.route n / 2 ^ 8 % 2 ^ 3 = line

/-- With the dictionary ready a line is the level of the unmasked events pending on it. -/
theorem lineAsserted_iff {s : State} (hr : s.sys.dictReady = true) (core line : Nat) :
    s.lineAsserted core line = true ↔ ∃ n, s.pendingOn core line n ∧ s.ev.masked n = false := by
  simp only [State.lineAsserted, State.pendingOn, hr, bit_eq_testBit, bits, Bool.true_and, List.any_eq_true,
    List.mem_range, Bool.and_eq_true, Bool.not_eq_true', beq_iff_eq]
  exact exists_congr fun n => by tauto

/-- The dictionary admits writes only once it is ready (R87). -/
theorem dictReady_of_takes {s : State} {idx sub : Nat} {w : Wr} {v : Nat} (h : s.takes idx sub w v) :
    s.sys.dictReady = true := by
  obtain ⟨e, -, hc, -⟩ := h
  by_contra hr
  have hrefused : checkWrite s idx sub w = abGeneral := by simp [checkWrite, State.reachable, hr]
  rw [hrefused] at hc
  exact absurd hc (by decide)

/-- An accepted write leaves the event unit and the ready flag as its owner's changes leave them. -/
theorem ev_sys_of_takes {b : State} {idx sub : Nat} {w : Wr} {v : Nat} {eff : Effect} {a : Act}
    (h : b.takes idx sub w v) (ha : eff b { w with val := v } = accept a) :
    ((writeBy idx sub eff w).run b).notifySend.ev = (a.run b).ev
      ∧ ((writeBy idx sub eff w).run b).notifySend.sys = (a.run b).sys := by
  rw [State.notifySend_ev, State.notifySend_sys, run_writeBy_takes h ha, run_answer]
  exact ⟨rfl, rfl⟩

/-- An admitted write of EventPending or EventMask is of one of the 8 words and carries 32 bits (R78). -/
theorem takes_eventWord {s : State} {idx sub : Nat} {w : Wr} {v : Nat} (hidx : idx = 0x2100 ∨ idx = 0x2101)
    (h : s.takes idx sub w v) : 1 ≤ sub ∧ w.val < 2 ^ 32 := by
  obtain rfl | rfl := hidx <;>
    exact ⟨(takes_sub 1 8 h (by decide)).1, (takes_unsigned 4 h (by decide)).2⟩

/-- After an EventPending write a line is asserted by the events pending on it that the write did not clear. -/
theorem eventPendingClear_line (t sub : Nat) (w : Wr) (core line : Nat) :
    Completes (.eventPendingClear t sub w) t (fun b => b.takes 0x2100 sub w w.val) fun b u =>
      u.lineAsserted core line = true ↔ ∃ n, b.pendingOn core line n ∧ b.ev.masked n = false
        ∧ ¬ (n / 32 + 1 = sub ∧ w.val.testBit (n % 32) = true) := by
  refine completes_of (fun _ => rfl) fun b _ htake => ?_
  obtain ⟨hsub, hval⟩ := takes_eventWord (.inl rfl) htake
  obtain ⟨hev, hsys⟩ := ev_sys_of_takes (eff := effPending (sub - 1)) htake rfl
  rw [lineAsserted_iff (by rw [hsys]; exact dictReady_of_takes htake)]
  refine exists_congr fun n => ?_
  have hword : n / 32 = sub - 1 ↔ n / 32 + 1 = sub := by omega
  have hpend : n < 256 → (((b.ev.pending &&& ~~~BitVec.ofNat 256 (w.val * 2 ^ (32 * (sub - 1)))).getLsbD n = true)
      ↔ b.ev.pending.getLsbD n = true ∧ ¬ (n / 32 + 1 = sub ∧ w.val.testBit (n % 32) = true)) := fun hn => by
    rw [pending_evClear_word hval _ _ hn, Bool.and_eq_true, Bool.not_eq_true', ← Bool.not_eq_true, Bool.and_eq_true,
      decide_eq_true_eq, hword]
  simp only [State.pendingOn, hev, Act.run_prim, Prim.apply, Ev.masked, Ev.route] at hpend ⊢
  constructor
  · rintro ⟨⟨hn, hp, hroute⟩, hmask⟩
    exact ⟨⟨hn, ((hpend hn).mp hp).1, hroute⟩, hmask, ((hpend hn).mp hp).2⟩
  · rintro ⟨⟨hn, hp, hroute⟩, hmask, hkept⟩
    exact ⟨⟨hn, (hpend hn).mpr ⟨hp, hkept⟩, hroute⟩, hmask⟩

/-- After an EventMask write a line is asserted by the events pending on it that the new mask leaves unmasked. -/
theorem eventMaskWrite_line (t sub : Nat) (w : Wr) (core line : Nat) :
    Completes (.eventMaskWrite t sub w) t (fun b => b.takes 0x2101 sub w w.val) fun b u =>
      u.lineAsserted core line = true ↔ ∃ n, b.pendingOn core line n
        ∧ (if n / 32 + 1 = sub then w.val.testBit (n % 32) else b.ev.masked n) = false := by
  refine completes_of (fun _ => rfl) fun b _ htake => ?_
  obtain ⟨hsub, hval⟩ := takes_eventWord (.inr rfl) htake
  obtain ⟨hev, hsys⟩ := ev_sys_of_takes (eff := effMask (sub - 1)) htake rfl
  rw [lineAsserted_iff (by rw [hsys]; exact dictReady_of_takes htake)]
  refine exists_congr fun n => ?_
  have hword : n / 32 = sub - 1 ↔ n / 32 + 1 = sub := by omega
  have hmask : n < 256 → ((writeBy 0x2101 sub (effMask (sub - 1)) w).run b).notifySend.ev.masked n
      = if n / 32 + 1 = sub then w.val.testBit (n % 32) else b.ev.masked n := fun hn => by
    rw [hev]
    exact (masked_evMask_word hval _ hn).trans (by simp only [hword])
  have hon : ((writeBy 0x2101 sub (effMask (sub - 1)) w).run b).notifySend.pendingOn core line n
      ↔ b.pendingOn core line n := by
    rw [State.pendingOn, hev]
    exact Iff.rfl
  rw [hon]
  exact and_congr_right fun ⟨hn, _⟩ => by rw [hmask hn]

/-- Settles O51: a line is the level of the unmasked events pending on it, and an EventPending or EventMask write
changes its own word of the 256 bits alone. -/
theorem linesAreLevels : Obligations.LinesAreLevels := by
  intro core line _ _
  exact ⟨fun s hr => lineAsserted_iff hr core line, fun t sub w =>
    ⟨eventPendingClear_line t sub w core line, eventMaskWrite_line t sub w core line⟩⟩

/-! ### The dictionary window (R67) -/

/-- The slots of the dictionary's entries fill the window. -/
theorem windowAddr_span {idx sub : Nat} (hlo : 0x1000 ≤ idx) (hhi : idx < 0x6000) (hsub : sub < 256) :
    0x40000000 ≤ windowAddr idx sub ∧ windowAddr idx sub + 7 ≤ 0x427FFFFF := by
  simp only [windowAddr]
  omega

/-- Each of the 8 bytes of a slot lies in that slot. -/
theorem windowPlace_windowAddr {idx sub k : Nat} (hlo : 0x1000 ≤ idx) (hsub : sub < 256) (hk : k < 8) :
    windowPlace (windowAddr idx sub + k) = (idx, sub, k) := by
  simp only [windowPlace, windowAddr, Prod.mk.injEq]
  omega

/-- The place of a window address is a slot of the dictionary. -/
theorem windowPlace_bounds {addr : Nat} (hlo : 0x40000000 ≤ addr) (hhi : addr ≤ 0x427FFFFF) :
    0x1000 ≤ (windowPlace addr).1 ∧ (windowPlace addr).1 < 0x6000 ∧ (windowPlace addr).2.1 < 256
      ∧ (windowPlace addr).2.2 < 8 := by
  simp only [windowPlace]
  omega

/-- The place of a window address leads back to it. -/
theorem windowAddr_windowPlace {addr : Nat} (hlo : 0x40000000 ≤ addr) :
    windowAddr (windowPlace addr).1 (windowPlace addr).2.1 + (windowPlace addr).2.2 = addr := by
  simp only [windowPlace, windowAddr]
  omega

/-- A raw value of `n` bytes widened to `width` bytes takes ones above its bytes where its sign bit is set. -/
theorem rawOf_signedOf {n width v : Nat} (hw : n ≤ width) (hv : v < 2 ^ (8 * n)) :
    rawOf width (signedOf n v) = if v < 2 ^ (8 * n - 1) then v else 2 ^ (8 * width) - 2 ^ (8 * n) + v := by
  have hle : 2 ^ (8 * n) ≤ 2 ^ (8 * width) := Nat.pow_le_pow_right (by decide) (by omega)
  rw [rawOf, signedOf, Nat.mod_eq_of_lt hv]
  generalize 2 ^ (8 * n) = N at *
  generalize 2 ^ (8 * width) = W at *
  split
  · rw [Int.emod_eq_of_lt (by omega) (by omega), Int.toNat_natCast]
  · have hneg : ((v : Int) - N) % W = v - N + W := by
      rw [← Int.add_emod_right, Int.emod_eq_of_lt (by omega) (by omega)]
    rw [hneg]
    omega

section AdmittedRead

variable {s : State} {core idx sub width : Nat} {e : Entry} (hc : checkRead s idx sub = 0)
  (hw : width = 1 ∨ width = 2 ∨ width = 4 ∨ width = 8) (hb : e.ty.bytes ≤ width)
include hc hw hb

/-- A window read that the dictionary admits, of a width that holds the type, meets no refusal (R68). -/
theorem windowRead_unrefused :
    (decide (checkRead s idx sub ≠ 0) || !([1, 2, 4, 8].contains width) || decide (width < e.ty.bytes)) = false := by
  have hwidth : [1, 2, 4, 8].contains width = true := by
    rcases hw with rfl | rfl | rfl | rfl <;> rfl
  rw [hc, hwidth, decide_eq_false (Nat.not_lt.mpr hb)]
  rfl

/-- Such a read sign-extends an integer. -/
theorem windowRead_signed {n : Nat} (he : s.entry idx sub = some e) (ht : e.ty = .i n) :
    s.windowRead core idx sub width = rawOf width (signedOf n (s.view (.core core) idx sub)) := by
  simp only [State.windowRead, he, windowRead_unrefused hc hw hb, Bool.false_eq_true, if_false]
  rw [ht]

/-- Such a read returns the value of every other type with 0 above it. -/
theorem windowRead_unsigned (he : s.entry idx sub = some e) (ht : ∀ n, e.ty ≠ .i n) :
    s.windowRead core idx sub width = s.view (.core core) idx sub := by
  simp only [State.windowRead, he, windowRead_unrefused hc hw hb, Bool.false_eq_true, if_false]

end AdmittedRead

/-- Settles O52: the slots fill the window without overlap, and an admitted read of a slot's start widens the entry's
value by its type. -/
theorem windowSlotsFollowR67 : Obligations.WindowSlotsFollowR67 := by
  refine ⟨fun idx sub hlo hhi hsub => ?_, fun addr hlo hhi => ?_, fun s core idx sub width e he hc hw hb => ?_⟩
  · obtain ⟨hfrom, hto⟩ := windowAddr_span hlo hhi hsub
    exact ⟨rfl, hfrom, hto, fun k hk => windowPlace_windowAddr hlo hsub hk⟩
  · obtain ⟨hidx, hidx', hsub, hbyte⟩ := windowPlace_bounds hlo hhi
    exact ⟨hidx, hidx', hsub, hbyte, windowAddr_windowPlace hlo⟩
  · have signed : ∀ n, e.ty = .i n → s.view (.core core) idx sub < 2 ^ (8 * n) →
        s.windowRead core idx sub width = if s.view (.core core) idx sub < 2 ^ (8 * n - 1)
          then s.view (.core core) idx sub else 2 ^ (8 * width) - 2 ^ (8 * n) + s.view (.core core) idx sub :=
      fun n ht hv => by
        have hn : n ≤ width := by rwa [ht] at hb
        rw [windowRead_signed hc hw hb he ht, rawOf_signedOf hn hv]
    have unsigned := windowRead_unsigned (core := core) hc hw hb he
    refine ⟨fun n ht _ hv => signed n ht hv, unsigned, fun ht h8 hv => ?_, fun ht _ hv => ?_⟩
    · rw [signed 2 ht (by rw [hv]; decide), hv, h8]
      decide
    · rw [unsigned fun n => by simp [ht], hv]

end Sys2Proof.Machine
end

section
/-! # The invariant of the plain data

Every primitive change keeps `State.inv`; a command is a tree of such changes. -/

namespace Sys2Proof.Machine

/-- What a put map holds is the new pair or was there before. -/
theorem SMap.mem_put {m : SMap} {k v : Nat} {x : Nat × Nat} (h : x ∈ m.put k v) : x = (k, v) ∨ x ∈ m := by
  induction m with
  | nil => simpa [SMap.put] using h
  | cons p m ih =>
    obtain ⟨a, b⟩ := p
    simp only [SMap.put] at h
    split at h
    · simpa using h
    · split at h <;> simp only [List.mem_cons] at h ⊢
      · next heq => subst heq; tauto
      · rcases h with h | h
        · exact .inr (.inl h)
        · exact (ih h).imp_right .inr

/-- An element of a list changed at one place is the changed one or was there before. -/
theorem mem_modAt {α : Type} {l : List α} {i : Nat} {f : α → α} {x : α} (h : x ∈ modAt l i f) :
    x ∈ l ∨ ∃ y ∈ l, x = f y := by
  unfold modAt at h
  split at h
  · next y hy =>
    exact (List.mem_or_eq_of_mem_set h).imp_right fun e => ⟨y, List.mem_of_getElem? hy, e⟩
  · exact .inl h

/-- A change at one place keeps a list's length. -/
@[simp] theorem length_modAt {α : Type} (l : List α) (i : Nat) (f : α → α) : (modAt l i f).length = l.length := by
  unfold modAt
  split
  · exact List.length_set
  · rfl

/-- The event unit is in order, clause by clause (`Ev.inv`). -/
structure Ev.Ordered (e : Ev) : Prop where
  countsWf : SMap.wf e.counts = true
  routesWf : SMap.wf e.routes = true
  totalsWf : SMap.wf e.totals = true
  pending : ∀ n, reservedEvent n = true → e.pending.getLsbD n = false
  counts : ∀ p ∈ e.counts, reservedEvent p.1 = false ∧ p.2 < 2 ^ 32
  routes : ∀ p ∈ e.routes, reservedEvent p.1 = false ∧ p.2 &&& 0x00FF0703 = p.2
  held : ∀ n ∈ e.held, aonEvent n = true
  emcy : e.emcyQueue.length ≤ 16
  hist : e.errorHist.length ≤ 16
  sessions : e.notify.length = 8
  queues : ∀ nt ∈ e.notify, nt.q.length ≤ 1024

theorem Ev.inv_iff (e : Ev) : e.inv = true ↔ e.Ordered := by
  constructor
  · intro h
    simp only [Ev.inv, Bool.and_eq_true, List.all_eq_true, decide_eq_true_eq, beq_iff_eq, Bool.not_eq_true',
      List.mem_range] at h
    obtain ⟨⟨⟨⟨⟨⟨⟨⟨⟨⟨h1, h2⟩, h3⟩, h4⟩, h5⟩, h6⟩, h7⟩, h8⟩, h9⟩, h10⟩, h11⟩ := h
    refine ⟨h1, h2, h3, fun n hn => ?_, h5, h6, h7, h8, h9, h10, h11⟩
    by_cases hlt : n < 256
    · simpa [hn] using h4 n hlt
    · exact BitVec.getLsbD_of_ge _ _ (by omega)
  · rintro ⟨h1, h2, h3, h4, h5, h6, h7, h8, h9, h10, h11⟩
    have h4' : ∀ n < 256, (reservedEvent n && e.pending.getLsbD n) = false := fun n _ => by
      cases hn : reservedEvent n
      · rfl
      · simp [h4 n hn]
    simp only [Ev.inv, Bool.and_eq_true, List.all_eq_true, decide_eq_true_eq, beq_iff_eq, Bool.not_eq_true',
      List.mem_range]
    exact ⟨⟨⟨⟨⟨⟨⟨⟨⟨⟨h1, h2⟩, h3⟩, h4'⟩, h5⟩, h6⟩, h7⟩, h8⟩, h9⟩, h10⟩, h11⟩

namespace Ev.Ordered

variable {s : State} {e : Ev}

/-- Marking an event that may occur keeps the order. -/
theorem mark (h : s.ev.Ordered) {n : Nat} (hn : reservedEvent n = false) : (s.mark n).ev.Ordered :=
  { h with
    countsWf := SMap.wf_put h.countsWf
    totalsWf := SMap.wf_put h.totalsWf
    pending := fun m hm => by
      have hne : m ≠ n := by rintro rfl; rw [hn] at hm; cases hm
      have hm' := h.pending m hm
      simp only [State.mark, BitVec.getLsbD_or, hm', Bool.false_or, BitVec.getLsbD_shiftLeft, BitVec.getLsbD_one]
      by_cases hmn : m < n
      · simp [hmn]
      · have : m - n ≠ 0 := by omega
        simp [this]
    counts := fun p hp => (SMap.mem_put hp).elim
      (fun e => by subst e; exact ⟨hn, Nat.mod_lt _ (by decide)⟩) (h.counts p) }

/-- Sending an EMCY keeps the order: the history keeps its 16 newest codes (R74). -/
theorem sendEmcy (h : s.ev.Ordered) (e : Emcy) : (s.sendEmcy e).ev.Ordered :=
  { h with hist := by simp [State.sendEmcy] }

theorem emcyFor (h : s.ev.Ordered) (n : Nat) : (s.emcyFor n).ev.Ordered := by
  unfold State.emcyFor
  dsimp only
  split
  · exact h
  · split
    · exact h.sendEmcy _
    · split
      · next hq => exact { h with emcy := by simp; omega }
      · exact { h with }

theorem emcyNext (h : s.ev.Ordered) : s.emcyNext.ev.Ordered := by
  unfold State.emcyNext
  split
  · exact h
  · next e q hq =>
    have hlen := h.emcy
    rw [hq, List.length_cons] at hlen
    split
    · exact Ev.Ordered.sendEmcy (s := { s with ev := { s.ev with emcyQueue := q } })
        { h with emcy := by dsimp only; omega } e
    · exact h

/-- A session's queue stays within its 1,024 records when a record is taken (R82). -/
theorem take (r : NotifyRec) {nt : Notify} (h : nt.q.length ≤ 1024) : (nt.take r).1.q.length ≤ 1024 := by
  unfold Notify.take
  split
  · exact h
  · split
    · simp only [List.length_append, List.length_cons, List.length_nil]; omega
    · exact h

theorem notifyAll (r : NotifyRec) {l : List Notify} (h : ∀ nt ∈ l, nt.q.length ≤ 1024) :
    (notifyAll r l).1.length = l.length ∧ ∀ nt ∈ (notifyAll r l).1, nt.q.length ≤ 1024 := by
  induction l with
  | nil => exact ⟨rfl, h⟩
  | cons nt l ih =>
    rw [List.forall_mem_cons] at h
    obtain ⟨hlen, hq⟩ := ih h.2
    exact ⟨by simp [Machine.notifyAll, hlen], List.forall_mem_cons.mpr ⟨take r h.1, hq⟩⟩

theorem notifyFor (h : s.ev.Ordered) (n : Nat) : (s.notifyFor n).1.ev.Ordered :=
  have hall := notifyAll (s.notifyRec n) h.queues
  { h with sessions := hall.1.trans h.sessions, queues := hall.2 }

/-- Routing an occurrence keeps the order, on every route. -/
theorem routeOne (h : s.ev.Ordered) (n : Nat) : (s.routeOne n).1.ev.Ordered := by
  unfold State.routeOne
  split
  · exact h
  · dsimp only
    have hemcy : (if bit (s.ev.route n) 0 then s.emcyFor n else s).ev.Ordered := by
      split
      · exact h.emcyFor n
      · exact h
    split
    · exact hemcy.notifyFor n
    · exact hemcy

/-- Routing an occurrence, with event 15 where an overflow begins, keeps the order. -/
theorem overflow (h : s.ev.Ordered) (n : Nat) :
    (if (s.routeOne n).2 then (((s.routeOne n).1.mark 15).routeOne 15).1 else (s.routeOne n).1).ev.Ordered := by
  split
  · exact ((h.routeOne n).mark (by decide)).routeOne 15
  · exact h.routeOne n

/-- Holding another of AON's events keeps the order. -/
theorem hold (h : e.Ordered) {n : Nat} (hn : aonEvent n = true) : Ev.Ordered { e with held := e.held ++ [n] } :=
  { h with held := fun m hm => (List.mem_append.mp hm).elim (h.held m) fun hm =>
      List.mem_singleton.mp hm ▸ hn }

theorem holdEvent (h : s.ev.Ordered) (n : Nat) : (s.holdEvent n).ev.Ordered := by
  unfold State.holdEvent
  split
  · next hn => exact h.hold hn
  · exact h

theorem occur (h : s.ev.Ordered) (n : Nat) : (s.occur n).ev.Ordered := by
  unfold State.occur
  split
  · exact h
  · next hn =>
    split
    · split
      · next ha => exact h.hold ha
      · exact h
    · have hm := h.mark (Bool.of_not_eq_true hn)
      dsimp only
      split
      · exact hm
      · exact hm.overflow n

/-- A fold whose every step keeps the order keeps it. -/
theorem foldl {f : State → Nat → State} (hf : ∀ s n, s.ev.Ordered → (f s n).ev.Ordered) (l : List Nat)
    (h : s.ev.Ordered) : (l.foldl f s).ev.Ordered := by
  induction l generalizing s with
  | nil => exact h
  | cons n l ih => exact ih (hf s n h)

theorem releaseHeld (h : s.ev.Ordered) : s.releaseHeld.ev.Ordered :=
  { foldl (fun st n (hst : st.ev.Ordered) => by
      split
      · exact hst
      · next hn => exact hst.mark (Bool.of_not_eq_true hn)) s.ev.held h with
    held := fun _ hn => absurd hn List.not_mem_nil }

theorem routePending (h : s.ev.Ordered) : s.routePending.ev.Ordered :=
  foldl (fun st n hst => by
    split
    · exact hst.overflow n
    · exact hst) _ h

/-- Dropping pending events keeps the order. -/
theorem clear (h : e.Ordered) (m : BitVec 256) : Ev.Ordered { e with pending := e.pending &&& m } :=
  { h with pending := fun n hn => by simp [h.pending n hn] }

theorem setRoute (h : e.Ordered) (n v : Nat) : (e.setRoute n v).Ordered := by
  unfold Ev.setRoute
  split
  · exact h
  · next hn =>
    exact { h with
      routesWf := SMap.wf_put h.routesWf
      routes := fun p hp => (SMap.mem_put hp).elim
        (fun e => by subst e; exact ⟨Bool.of_not_eq_true hn, by rw [Nat.and_assoc, Nat.and_self]⟩) (h.routes p) }

theorem setCount (h : e.Ordered) (n v : Nat) : (e.setCount n v).Ordered := by
  unfold Ev.setCount
  split
  · exact h
  · next hn =>
    exact { h with
      countsWf := SMap.wf_put h.countsWf
      counts := fun p hp => (SMap.mem_put hp).elim
        (fun e => by subst e; exact ⟨Bool.of_not_eq_true hn, Nat.mod_lt _ (by decide)⟩) (h.counts p) }

/-- A session's records changed to no more than 1,024 keep the order. -/
theorem modNotify (h : e.Ordered) (i : Nat) {f : Notify → Notify}
    (hf : ∀ nt : Notify, nt.q.length ≤ 1024 → (f nt).q.length ≤ 1024) :
    Ev.Ordered { e with notify := modAt e.notify i f } :=
  { h with
    sessions := (length_modAt _ _ _).trans h.sessions
    queues := fun nt hnt => (mem_modAt hnt).elim (h.queues nt) fun ⟨y, hy, e⟩ => e ▸ hf y (h.queues y hy) }

theorem afterReset (h : e.Ordered) : e.afterReset.Ordered :=
  { countsWf := rfl, routesWf := rfl, totalsWf := rfl, pending := fun n _ => BitVec.getLsbD_zero
    counts := fun _ hp => absurd hp List.not_mem_nil, routes := fun _ hp => absurd hp List.not_mem_nil
    held := h.held, emcy := Nat.zero_le _, hist := Nat.zero_le _, sessions := rfl
    queues := fun nt hnt => by rw [List.eq_of_mem_replicate hnt]; exact Nat.zero_le _ }

end Ev.Ordered

/-- Every primitive keeps the order of the event unit. -/
theorem Prim.keeps_ordered (p : Prim) (s : State) (h : s.ev.Ordered) : (p.apply s).ev.Ordered := by
  cases p
  case occur n => exact h.occur n
  case held n => exact h.holdEvent n
  case release => exact h.releaseHeld
  case route => exact h.routePending
  case emcyNext => exact h.emcyNext
  case evClear m => exact h.clear _
  case evRoute n v => exact h.setRoute n v
  case evCount n v => exact h.setCount n v
  case evMask m => exact { h with }
  case evHistory => exact { h with hist := Nat.zero_le _ }
  case evReset => exact h.afterReset
  case notifyOn i on => exact h.modNotify i fun _ _ => Nat.zero_le _
  case notifyDrop i k =>
    exact h.modNotify i fun nt hq => (List.drop_sublist k nt.q).length_le.trans hq
  case notifySend => exact (State.notifySend_ev s).symm ▸ h
  all_goals exact h

/-- Every primitive keeps the canonical form of the memory. -/
theorem Prim.keeps_mem_wf (p : Prim) (s : State) (h : Memory.wf s.mem = true) : Memory.wf (p.apply s).mem = true := by
  by_cases hm : Piece.mem ∈ p.touches
  · cases p <;> simp [Prim.touches] at hm
    case store a n v => exact Memory.wf_storeValue a n v h
    case storeBytes a l => exact Memory.wf_storeBytes a l h
    case copy a b n => exact Memory.wf_copy a b n h
    case erase a n => exact Memory.wf_erase a n h
  · have hk : (p.apply s).mem = s.mem := Prim.only_touches p s .mem hm
    rwa [hk]

theorem State.inv_iff (s : State) : s.inv = true ↔ Memory.wf s.mem = true ∧ SMap.wf s.dict = true ∧ s.ev.Ordered := by
  simp only [State.inv, Bool.and_eq_true, Ev.inv_iff, and_assoc]

/-- Every tree of changes keeps the invariant of the plain data. -/
theorem inv_run (a : Act) (s : State) (h : s.inv = true) : (a.run s).inv = true := by
  obtain ⟨hmem, hdict, hev⟩ := (State.inv_iff s).mp h
  exact (State.inv_iff _).mpr ⟨Act.run_keeps (fun s => Memory.wf s.mem = true) Prim.keeps_mem_wf a s hmem,
    wf_run a s hdict, Act.run_keeps (fun s => s.ev.Ordered) Prim.keeps_ordered a s hev⟩

/-- A step leaves the state, or runs a tree of changes on the state with the queue's rest. -/
theorem step_cases {s u : State} (h : step s = .next u) :
    u = s ∨ ∃ c rest, s.pending = c :: rest ∧ exec c { s with pending := rest } = .next u := by
  unfold step at h
  split at h
  · exact .inl (by cases h; rfl)
  · next c rest hp => exact .inr ⟨c, rest, hp, h⟩

/-- Settles O58: a step runs a tree of changes, of which every primitive keeps the invariant. -/
theorem stepsKeepInvariant : Obligations.StepsKeepInvariant := by
  intro s u hs hstep
  obtain rfl | ⟨c, rest, -, hexec⟩ := step_cases hstep
  · exact hs
  · obtain ⟨a, ha⟩ := exec_is_act c { s with pending := rest }
    rw [ha] at hexec
    cases hexec
    exact inv_run a _ hs

end Sys2Proof.Machine
end

section
/-! # The dictionary's views, the event entries and the step

The statements about what is read of events, what gates let through, what keys leave unread, and what a step takes. -/

namespace Sys2Proof.Machine

/-! ### Steps -/

/-- Settles O55: both clauses are the definition of a step, on a waiting command and on an empty queue. -/
theorem stepRunsFront : Obligations.StepRunsFront :=
  ⟨fun _ _ _ => rfl, fun s hs => by simp only [step, hs]⟩

/-- No primitive takes a command from the queue. -/
theorem Prim.apply_pending (p : Prim) (s : State) : (p.apply s).pending = s.pending := by
  cases p <;> simp [Prim.apply]

/-- No primitive takes time back. -/
theorem Prim.now_le (p : Prim) (s : State) : s.now ≤ (p.apply s).now := by
  cases p <;> simp [Prim.apply]

/-- Settles O56: a command runs a tree of changes on the queue's rest, and no primitive touches the queue or the part or
takes time back. -/
theorem stepsTakeOneCommand : Obligations.StepsTakeOneCommand := by
  intro c s rest hp
  obtain ⟨a, ha⟩ := exec_is_act c { s with pending := rest }
  have hstep : step s = exec c { s with pending := rest } := by simp only [step, hp]
  exact ⟨_, hstep.trans ha,
    Act.run_keeps (fun u => u.pending = rest) (fun p s h => (p.apply_pending s).trans h) a _ rfl,
    Act.run_keeps (fun u => s.now ≤ u.now) (fun p s h => h.trans (p.now_le s)) a _ le_rfl,
    Act.run_keeps (fun u => u.part = s.part) (fun p s h => (p.apply_part s).trans h) a _ rfl⟩

/-- Settles O57: the reset state is one closed literal, on which both invariants evaluate. -/
theorem resetMeetsInvariants : Obligations.ResetMeetsInvariants := ⟨by decide +kernel, by decide +kernel⟩

/-! ### What is read of events (R78, R79) -/

/-- A bit of a field of a number is the number's bit. -/
theorem testBit_bits (v lo n i : Nat) (hi : i < n) : (bits v lo n).testBit i = v.testBit (lo + i) := by
  rw [bits, Nat.testBit_mod_two_pow, Nat.testBit_div_two_pow]
  simp [hi, Nat.add_comm]

/-- Settles O49: word n / 32 of EventPending and EventMask is bits 32·(n / 32) on of the event unit's 256. -/
theorem eventBitsNumbered : Obligations.EventBitsNumbered := by
  intro s p n hn
  have hword : ∀ v : BitVec 256, (bits v.toNat (32 * (n / 32)) 32).testBit (n % 32) = v.getLsbD n := fun v => by
    rw [testBit_bits _ _ _ _ (Nat.mod_lt _ (by decide)), Nat.div_add_mod, BitVec.testBit_toNat]
  exact ⟨hword s.ev.pending, hword s.ev.mask⟩

/-- A key that no pair of a map has is not found. -/
theorem SMap.find_of_forall {m : SMap} {P : Nat × Nat → Prop} (h : ∀ p ∈ m, P p) {k : Nat}
    (hk : ∀ v, ¬ P (k, v)) : m.find k = none := by
  induction m with
  | nil => rfl
  | cons p m ih =>
    obtain ⟨a, v⟩ := p
    rw [List.forall_mem_cons] at h
    have hne : a ≠ k := by rintro rfl; exact hk v h.1
    simp only [SMap.find, if_neg hne, ih h.2, ite_self]

/-- What a map finds is one of its pairs. -/
theorem SMap.mem_of_find {m : SMap} {k v : Nat} (h : m.find k = some v) : (k, v) ∈ m := by
  induction m with
  | nil => cases h
  | cons p m ih =>
    obtain ⟨a, b⟩ := p
    simp only [SMap.find] at h
    split at h
    · next e => cases h; subst e; exact List.mem_cons_self
    · split at h
      · cases h
      · exact List.mem_cons_of_mem _ (ih h)

/-- A reserved event has the reset route 0 (R83, R85). -/
theorem routeReset_reserved {n : Nat} (h : reservedEvent n = true) : routeReset n = 0 := by
  simp only [reservedEvent, Bool.or_eq_true, Bool.and_eq_true, decide_eq_true_eq, beq_iff_eq] at h
  simp only [routeReset, Bool.or_eq_true, Bool.and_eq_true, decide_eq_true_eq, beq_iff_eq]
  rw [if_neg (by omega)]

theorem routeReset_le (n : Nat) : routeReset n ≤ 1 := by
  unfold routeReset
  split <;> decide

/-- A route has no bit outside its fields. -/
theorem Ev.Ordered.route_fields {e : Ev} (h : e.Ordered) (n : Nat) : e.route n &&& 0x00FF0703 = e.route n := by
  unfold Ev.route
  cases hf : SMap.find e.routes n with
  | none =>
    unfold routeReset
    split <;> rfl
  | some v => exact (h.routes _ (SMap.mem_of_find hf)).2

/-- Reserved events read 0 as route and as counter. -/
theorem Ev.Ordered.reserved_zero {e : Ev} (h : e.Ordered) {n : Nat} (hn : reservedEvent n = true) :
    e.route n = 0 ∧ e.count n = 0 := by
  have hno : ∀ m : SMap, ∀ Q : Nat × Nat → Prop, (∀ p ∈ m, reservedEvent p.1 = false ∧ Q p) → m.find n = none :=
    fun m Q hm => SMap.find_of_forall hm fun v hv => by rw [hn] at hv; cases hv.1
  exact ⟨by simp [Ev.route, hno _ _ h.routes, routeReset_reserved hn], by simp [Ev.count, hno _ _ h.counts]⟩

/-- Routing an occurrence leaves the counters and the routes alone. -/
theorem counts_routes_emcyFor (s : State) (n : Nat) :
    (s.emcyFor n).ev.counts = s.ev.counts ∧ (s.emcyFor n).ev.routes = s.ev.routes := by
  unfold State.emcyFor
  dsimp only
  split
  · exact ⟨rfl, rfl⟩
  · split
    · exact ⟨rfl, rfl⟩
    · split <;> exact ⟨rfl, rfl⟩

theorem counts_routes_routeOne (s : State) (n : Nat) :
    (s.routeOne n).1.ev.counts = s.ev.counts ∧ (s.routeOne n).1.ev.routes = s.ev.routes := by
  unfold State.routeOne
  split
  · exact ⟨rfl, rfl⟩
  · dsimp only
    split
    · split
      · exact counts_routes_emcyFor s n
      · exact ⟨rfl, rfl⟩
    · split
      · exact counts_routes_emcyFor s n
      · exact ⟨rfl, rfl⟩

/-- An occurrence changes no route. -/
theorem routes_occur (s : State) (n : Nat) : (s.occur n).ev.routes = s.ev.routes := by
  unfold State.occur
  split
  · rfl
  · split
    · split <;> rfl
    · dsimp only
      split
      · rfl
      · split
        · rw [(counts_routes_routeOne _ _).2]
          exact (counts_routes_routeOne (s.mark n) n).2
        · exact (counts_routes_routeOne (s.mark n) n).2

/-- Marking an event leaves the counters of the others alone. -/
theorem count_mark_ne (s : State) {n m : Nat} (h : m ≠ n) : (s.mark n).ev.count m = s.ev.count m := by
  simp only [State.mark, Ev.count, SMap.find_put_ne _ _ h]

theorem count_congr {e f : Ev} (h : e.counts = f.counts) (m : Nat) : e.count m = f.count m := by
  rw [Ev.count, h, Ev.count]

/-- An occurrence counts its event, and TetherQueueOverflow where an overflow begins, and no other (R77, R82). -/
theorem count_occur_ne (s : State) {n m : Nat} (h : m ≠ n) (h15 : m ≠ 15) : (s.occur n).ev.count m = s.ev.count m := by
  have hroute : ∀ (s : State) n, (s.routeOne n).1.ev.count m = s.ev.count m :=
    fun s n => count_congr (counts_routes_routeOne s n).1 m
  unfold State.occur
  split
  · rfl
  · split
    · split <;> rfl
    · dsimp only
      split
      · exact count_mark_ne s h
      · split
        · rw [hroute, count_mark_ne _ h15, hroute, count_mark_ne _ h]
        · rw [hroute, count_mark_ne _ h]

/-- A write that the dictionary admits and the owner refuses is recorded and answered with the owner's code. -/
theorem run_writeBy_ownerRefused {idx sub : Nat} {s : State} {w : Wr} {v code : Nat} {eff : Effect}
    (h : s.takes idx sub w v) (he : eff s { w with val := v } = refuse code) (hc : code ≠ 0) :
    (writeBy idx sub eff w).run s = (answer w.path code).run ((recordRefusal w.path code).run s) := by
  rw [run_writeBy, judge_takes eff h, he]
  simp [enact, refuse, hc]

/-- A recorded and answered refusal leaves the event unit as event 12 leaves it. -/
theorem ev_refused (p : WPath) (code : Nat) (b : State) : ∃ m,
    ((answer p code).run ((recordRefusal p code).run b)).notifySend.ev = (({ b with dict := m } : State).occur 12).ev := by
  obtain ⟨m, hm, -⟩ := run_recordRefusal p code b
  exact ⟨m, by rw [State.notifySend_ev, run_answer, hm]⟩

/-- Settles O50: the views are the event unit's own maps, whose pairs are those of events that may occur; a refused
write leaves both maps but for the counters of events 12 and 15. -/
theorem routesAndCountersKeepR79 : Obligations.RoutesAndCountersKeepR79 := by
  intro s p n hinv hn sub at'
  obtain ⟨-, -, hev⟩ := (State.inv_iff s).mp hinv
  have hplace : ∀ base, eventPlace base n = (at' base, sub) := fun base => by
    simp only [eventPlace, at', sub]
    split <;> rfl
  refine ⟨?_, ?_, hev.route_fields n, ?_, fun hr => ⟨(hev.reserved_zero hr).1, (hev.reserved_zero hr).2, ?_⟩,
    fun t w => ⟨?_, ?_⟩⟩
  · simp only [at', sub]
    split
    · rfl
    · have : 127 + (n - 127) = n := by omega
      simp [State.view, State.eventView, eventOf, this, show n - 127 ≠ 0 by omega]
  · simp only [at', sub]
    split
    · rfl
    · have : 127 + (n - 127) = n := by omega
      simp [State.view, State.eventView, eventOf, this, show n - 127 ≠ 0 by omega]
  · exact routeReset_le n
  · simp [State.occur, hr]
  · refine completes_of (fun _ => rfl) fun b _ ⟨htake, hv⟩ => ?_
    rw [hplace, run_writeBy_ownerRefused htake (code := abRange) (by simp [effCount, hv]) (by decide)]
    refine ⟨refusedWith_run _ _ (by decide) b, fun h12 h15 => ?_⟩
    obtain ⟨m, hm⟩ := ev_refused w.path abRange b
    rw [hm, count_occur_ne _ h12 h15]
  · refine completes_of (fun _ => rfl) fun b _ ⟨htake, hv⟩ => ?_
    have heff : effRoute n b w = refuse abRange := by
      unfold effRoute
      split
      · rfl
      · next hbits =>
        have hv := hv.resolve_left (by simpa using hbits)
        rw [if_pos hv.1, if_neg hv.2]
    rw [hplace, run_writeBy_ownerRefused htake heff (by decide)]
    refine ⟨refusedWith_run _ _ (by decide) b, ?_⟩
    obtain ⟨m, hm⟩ := ev_refused w.path abRange b
    rw [hm, Ev.route, routes_occur, Ev.route]

/-! ### Gates and reads (R59) -/

/-- A write that the dictionary admits finds an entry whose gate admits the path. -/
theorem gate_of_checkWrite {s : State} {idx sub : Nat} {w : Wr} (hc : checkWrite s idx sub w = 0) :
    ∃ e, s.entry idx sub = some e ∧ (e.acc = .rw ∨ e.acc = .wo)
      ∧ e.gate.admits (s.role w.path) (s.reg K.LifecycleState) = true := by
  unfold checkWrite at hc
  split at hc
  · cases hc
  split at hc
  · cases hc
  split at hc
  · split at hc <;> cases hc
  next e he =>
  split at hc
  · cases hc
  split at hc
  · cases hc
  next hconst =>
  split at hc
  · cases hc
  next hro =>
  split at hc
  · cases hc
  next hgate =>
  refine ⟨e, he, ?_, by simpa using hgate⟩
  cases ha : e.acc <;> simp_all

/-- A refused read goes on with its code. -/
theorem run_readAny_refused {s : State} {idx sub : Nat} {p : WPath} {k : Nat → List Nat → Act}
    (hc : checkRead s idx sub ≠ 0) : (readAny p idx sub k).run s = (k (checkRead s idx sub) []).run s := by
  simp only [readAny, Act.run_read, if_pos hc]

/-- The bytes of an entry as a state holds it, given to the continuation of a read. -/
def readBytes (p : WPath) (idx sub : Nat) (k : Nat → List Nat → Act) : Act :=
  .read fun s => k 0 ((s.entry idx sub).elim [] fun e => s.entryBytes p e idx sub)

/-- An admitted read latches where its entry does, draws a nonce where it is TokenChallenge, and goes on with the bytes. -/
theorem run_readAny_admitted {s : State} {idx sub : Nat} {p : WPath} {k : Nat → List Nat → Act}
    (hc : checkRead s idx sub = 0) : (readAny p idx sub k).run s =
      if idx * 256 + sub = K.WebPosition then (readBytes p idx sub k).run ((latchWeb p).run s)
      else if idx * 256 + sub = K.TimeNowSeconds then (readBytes p idx sub k).run ((latchTime p).run s)
      else if idx * 256 + sub = K.TokenChallenge then
        (k 0 (leBytes 16 (Config.freeValue s.free))).run { s with
          free := s.free + 1, sec := { s.sec with nonce := some (leBytes 16 (Config.freeValue s.free), s.now) } }
      else (readBytes p idx sub k).run s := by
  simp only [readAny, Act.run_read, if_neg (not_not.mpr hc)]
  split
  · rfl
  split
  · rfl
  split <;> rfl

/-- A read that the dictionary admits is answered on its path. -/
theorem readReply_answered {s : State} {idx sub : Nat} (p : WPath) (hc : checkRead s idx sub = 0) :
    ∃ v n, .reply p v n ∈ ((readReply p idx sub).run s).out := by
  have hsend : ∀ (s : State) (l : List Nat), ∃ v n, Out.reply p v n ∈ ((send (.reply p (leNat l) l.length)).run s).out :=
    fun s l => ⟨_, _, List.mem_append_right _ List.mem_cons_self⟩
  rw [readReply, run_readAny_admitted hc]
  split
  · exact hsend _ _
  split
  · exact hsend _ _
  split
  · exact hsend _ _
  · exact hsend _ _

/-- Settles O53: the checks of a write end with the gate's, and those of a read ask for no role. -/
theorem gatesFollowR59 : Obligations.GatesFollowR59 := by
  refine ⟨fun s idx sub w => gate_of_checkWrite, fun g role life _ _ => ?_, fun g low high life hle hhi h => ?_,
    fun s p idx sub => readReply_answered p⟩
  · cases g <;> simp [Gate.admits]
  · cases g <;> simp only [Gate.admits, Bool.and_eq_true, decide_eq_true_eq, beq_iff_eq] at h ⊢ <;> omega

/-! ### Key material (R458) -/

/-- The state with another key store. -/
def State.withKeys (s : State) (keys : List (Nat × List Nat)) : State := { s with sec := { s.sec with keys := keys } }

section WithKeys

variable (s : State) (keys : List (Nat × List Nat)) (p : WPath) (idx sub : Nat)

@[simp] theorem State.entry_withKeys : (s.withKeys keys).entry idx sub = s.entry idx sub := rfl

@[simp] theorem checkRead_withKeys : checkRead (s.withKeys keys) idx sub = checkRead s idx sub := rfl

@[simp] theorem State.view_withKeys : (s.withKeys keys).view p idx sub = s.view p idx sub := rfl

@[simp] theorem State.entryBytes_withKeys (e : Entry) :
    (s.withKeys keys).entryBytes p e idx sub = s.entryBytes p e idx sub := rfl

@[simp] theorem State.out_withKeys : (s.withKeys keys).out = s.out := rfl

theorem run_latchWeb_withKeys : (latchWeb p).run (s.withKeys keys) = ((latchWeb p).run s).withKeys keys := rfl

theorem run_latchTime_withKeys : (latchTime p).run (s.withKeys keys) = ((latchTime p).run s).withKeys keys := rfl

/-- A read's reply or refusal goes out the same whatever the keys. -/
theorem out_readReply_withKeys :
    ((readReply p idx sub).run (s.withKeys keys)).out = ((readReply p idx sub).run s).out := by
  by_cases hc : checkRead s idx sub = 0
  · have hc' : checkRead (s.withKeys keys) idx sub = 0 := hc
    simp only [readReply, run_readAny_admitted hc, run_readAny_admitted hc']
    split
    · rfl
    split
    · rfl
    split <;> rfl
  · have hc' : checkRead (s.withKeys keys) idx sub ≠ 0 := hc
    rw [readReply, run_readAny_refused hc, run_readAny_refused hc', checkRead_withKeys, if_neg hc]
    cases p with
    | core k =>
      have hctl : (s.withKeys keys).islandReady islCTL = s.islandReady islCTL := rfl
      simp only [readRefused, Act.run_read, Act.run_seq, run_when, run_send, run_put, hctl]
      split <;> rfl
    | can => rfl
    | session i => rfl

end WithKeys

/-- Settles O54: an entry's view is a function of everything but the key store. -/
theorem keysAreNeverRead : Obligations.KeysAreNeverRead := fun s keys p idx sub _ _ =>
  ⟨out_readReply_withKeys s keys p idx sub, rfl⟩

end Sys2Proof.Machine
end

section
/-! # What an operation may touch, and that it keeps the parts' numbers

A primitive fits a list of pieces when it touches no other piece and keeps the sizes of the lists it replaces. One lemma
per operation says which pieces its changes fit; frames and `State.shape` both follow. -/

namespace Sys2Proof.Machine

/-! ### The sizes of the parts, piece by piece (`State.shape`) -/

def CanSt.Sized (x : CanSt) : Prop := x.tpdoAt.length = 8 ∧ x.tpdoSync.length = 8
def Pos.Sized (x : Pos) : Prop := x.chans.length = 14 ∧ x.emus.length = 4 ∧ x.trimFirst.length = 2
def Codec.Sized (x : Codec) : Prop := x.lanes.length = 32 ∧ x.encs.length = 4
def Comp.Sized (x : Comp) : Prop := x.layers.length = 8
def Fire.Sized (x : Fire) : Prop := x.heads.length = 192 ∧ ∀ h ∈ x.heads, h.rows.length = 4
def Links.Sized (x : Links) : Prop := x.links.length = 16
def Cam.Sized (x : Cam) : Prop := x.ports.length = 8
def Dma.Sized (x : Dma) : Prop := x.chans.length = 16
def Dram.Sized (x : Dram) : Prop := x.alert.length = 4 ∧ x.asserted.length = 4
def Net.Sized (x : Net) : Prop := x.flows.length = 128 ∧ x.sessions.length = 8 ∧ x.challenges.length = 8
def Health.Sized (x : Health) : Prop := x.records.length = 8

theorem State.shape_iff (s : State) : s.shape = true ↔ s.can.Sized ∧ s.pos.Sized ∧ s.codec.Sized ∧ s.comp.Sized
    ∧ s.fire.Sized ∧ s.link.Sized ∧ s.cam.Sized ∧ s.dma.Sized ∧ s.dram.Sized ∧ s.net.Sized ∧ s.health.Sized := by
  simp only [State.shape, CanSt.Sized, Pos.Sized, Codec.Sized, Comp.Sized, Fire.Sized, Links.Sized, Cam.Sized, Dma.Sized,
    Dram.Sized, Net.Sized, Health.Sized, Bool.and_eq_true, beq_iff_eq, List.all_eq_true]
  tauto

/-- The primitive keeps the sizes of the piece it replaces. -/
def Prim.Sized : Prim → Prop
  | .can f => ∀ x : CanSt, x.Sized → (f x).Sized
  | .pos f => ∀ x : Pos, x.Sized → (f x).Sized
  | .codec f => ∀ x : Codec, x.Sized → (f x).Sized
  | .comp f => ∀ x : Comp, x.Sized → (f x).Sized
  | .fire f => ∀ x : Fire, x.Sized → (f x).Sized
  | .link f => ∀ x : Links, x.Sized → (f x).Sized
  | .cam f => ∀ x : Cam, x.Sized → (f x).Sized
  | .dma f => ∀ x : Dma, x.Sized → (f x).Sized
  | .dram f => ∀ x : Dram, x.Sized → (f x).Sized
  | .net f => ∀ x : Net, x.Sized → (f x).Sized
  | .health f => ∀ x : Health, x.Sized → (f x).Sized
  | _ => True

/-- Sending a session's Notifies keeps the number of sessions. -/
theorem length_notifySession (s : State) (i : Nat) :
    (s.notifySession i).net.sessions.length = s.net.sessions.length := by
  unfold State.notifySession
  split
  · rfl
  · dsimp only
    split
    · rfl
    · exact List.length_set

theorem length_notifySend (s : State) : s.notifySend.net.sessions.length = s.net.sessions.length := by
  unfold State.notifySend
  generalize List.range 8 = l
  induction l generalizing s with
  | nil => rfl
  | cons i l ih => exact (ih _).trans (length_notifySession s i)

theorem Net.Sized.notifySend {s : State} (h : s.net.Sized) : s.notifySend.net.Sized := by
  obtain ⟨hf, hs, hc⟩ := h
  exact ⟨by rwa [State.notifySend_flows], (length_notifySend s).trans hs, by rwa [State.notifySend_challenges]⟩

/-- A primitive that keeps the sizes of its piece keeps the shape of the state. -/
theorem Prim.Sized.keeps_shape {p : Prim} (hp : p.Sized) {s : State} (h : s.shape = true) : (p.apply s).shape = true := by
  rw [State.shape_iff] at h ⊢
  obtain ⟨hcan, hpos, hcodec, hcomp, hfire, hlink, hcam, hdma, hdram, hnet, hhealth⟩ := h
  cases p
  case can f => exact ⟨hp _ hcan, hpos, hcodec, hcomp, hfire, hlink, hcam, hdma, hdram, hnet, hhealth⟩
  case pos f => exact ⟨hcan, hp _ hpos, hcodec, hcomp, hfire, hlink, hcam, hdma, hdram, hnet, hhealth⟩
  case codec f => exact ⟨hcan, hpos, hp _ hcodec, hcomp, hfire, hlink, hcam, hdma, hdram, hnet, hhealth⟩
  case comp f => exact ⟨hcan, hpos, hcodec, hp _ hcomp, hfire, hlink, hcam, hdma, hdram, hnet, hhealth⟩
  case fire f => exact ⟨hcan, hpos, hcodec, hcomp, hp _ hfire, hlink, hcam, hdma, hdram, hnet, hhealth⟩
  case link f => exact ⟨hcan, hpos, hcodec, hcomp, hfire, hp _ hlink, hcam, hdma, hdram, hnet, hhealth⟩
  case cam f => exact ⟨hcan, hpos, hcodec, hcomp, hfire, hlink, hp _ hcam, hdma, hdram, hnet, hhealth⟩
  case dma f => exact ⟨hcan, hpos, hcodec, hcomp, hfire, hlink, hcam, hp _ hdma, hdram, hnet, hhealth⟩
  case dram f => exact ⟨hcan, hpos, hcodec, hcomp, hfire, hlink, hcam, hdma, hp _ hdram, hnet, hhealth⟩
  case net f => exact ⟨hcan, hpos, hcodec, hcomp, hfire, hlink, hcam, hdma, hdram, hp _ hnet, hhealth⟩
  case health f => exact ⟨hcan, hpos, hcodec, hcomp, hfire, hlink, hcam, hdma, hdram, hnet, hp _ hhealth⟩
  case notifySend =>
    simpa only [Prim.apply, State.notifySend_can, State.notifySend_pos, State.notifySend_codec, State.notifySend_comp,
      State.notifySend_fire, State.notifySend_link, State.notifySend_cam, State.notifySend_dma, State.notifySend_dram,
      State.notifySend_health] using
      ⟨hcan, hpos, hcodec, hcomp, hfire, hlink, hcam, hdma, hdram, hnet.notifySend, hhealth⟩
  case occur n =>
    simpa [Prim.apply] using ⟨hcan, hpos, hcodec, hcomp, hfire, hlink, hcam, hdma, hdram, hnet, hhealth⟩
  case held n =>
    simpa [Prim.apply] using ⟨hcan, hpos, hcodec, hcomp, hfire, hlink, hcam, hdma, hdram, hnet, hhealth⟩
  case release =>
    simpa [Prim.apply] using ⟨hcan, hpos, hcodec, hcomp, hfire, hlink, hcam, hdma, hdram, hnet, hhealth⟩
  case route =>
    simpa [Prim.apply] using ⟨hcan, hpos, hcodec, hcomp, hfire, hlink, hcam, hdma, hdram, hnet, hhealth⟩
  case emcyNext =>
    simpa [Prim.apply] using ⟨hcan, hpos, hcodec, hcomp, hfire, hlink, hcam, hdma, hdram, hnet, hhealth⟩
  all_goals exact ⟨hcan, hpos, hcodec, hcomp, hfire, hlink, hcam, hdma, hdram, hnet, hhealth⟩

/-! ### Fitting a list of pieces -/

/-- The primitive touches only listed pieces, and keeps the sizes of the parts. -/
def Prim.Fits (l : List Piece) (p : Prim) : Prop := (∀ q ∈ p.touches, q ∈ l) ∧ p.Sized

/-- A tree of changes that fits a list of pieces changes no other piece. -/
theorem only_of_fits {a : Act} {l : List Piece} (h : a.All (Prim.Fits l)) (s : State) : s.only l (a.run s) :=
  Act.All.only (h.mono fun _ hp => hp.1) s

/-- A tree of changes that fits any list keeps the shape. -/
theorem shape_of_fits {a : Act} {l : List Piece} (h : a.All (Prim.Fits l)) {s : State} (hs : s.shape = true) :
    (a.run s).shape = true := by
  induction a generalizing s with
  | skip => exact hs
  | prim p => exact h.2.keeps_shape hs
  | seq a b iha ihb => exact ihb h.2 (iha h.1 hs)
  | read f ih => exact ih s (h s) hs

section FitsPrim

variable (l : List Piece)

@[simp] theorem fits_begin (t : Nat) : (Prim.begin t).Fits l := by simp [Prim.Fits, Prim.touches, Prim.Sized]
@[simp] theorem fits_notifySend : Prim.notifySend.Fits l := by simp [Prim.Fits, Prim.touches, Prim.Sized]
@[simp] theorem fits_out (o : Out) : (Prim.out o).Fits l := by simp [Prim.Fits, Prim.touches, Prim.Sized]
@[simp] theorem fits_fresh : Prim.fresh.Fits l := by simp [Prim.Fits, Prim.touches, Prim.Sized]
@[simp] theorem fits_set (k v : Nat) : (Prim.set k v).Fits l ↔ .dict ∈ l := by
  simp [Prim.Fits, Prim.touches, Prim.Sized]
@[simp] theorem fits_unset (keep : Nat → Bool) : (Prim.unset keep).Fits l ↔ .dict ∈ l := by
  simp [Prim.Fits, Prim.touches, Prim.Sized]
@[simp] theorem fits_load (m : SMap) : (Prim.load m).Fits l ↔ .dict ∈ l := by
  simp [Prim.Fits, Prim.touches, Prim.Sized]
@[simp] theorem fits_occur (n : Nat) : (Prim.occur n).Fits l ↔ .ev ∈ l := by
  simp [Prim.Fits, Prim.touches, Prim.Sized]
@[simp] theorem fits_held (n : Nat) : (Prim.held n).Fits l ↔ .ev ∈ l := by
  simp [Prim.Fits, Prim.touches, Prim.Sized]
@[simp] theorem fits_release : (Prim.release).Fits l ↔ .ev ∈ l := by
  simp [Prim.Fits, Prim.touches, Prim.Sized]
@[simp] theorem fits_route : (Prim.route).Fits l ↔ .ev ∈ l := by
  simp [Prim.Fits, Prim.touches, Prim.Sized]
@[simp] theorem fits_emcyNext : (Prim.emcyNext).Fits l ↔ .ev ∈ l := by
  simp [Prim.Fits, Prim.touches, Prim.Sized]
@[simp] theorem fits_evClear (m : BitVec 256) : (Prim.evClear m).Fits l ↔ .ev ∈ l := by
  simp [Prim.Fits, Prim.touches, Prim.Sized]
@[simp] theorem fits_evMask (m : BitVec 256) : (Prim.evMask m).Fits l ↔ .ev ∈ l := by
  simp [Prim.Fits, Prim.touches, Prim.Sized]
@[simp] theorem fits_evRoute (n v : Nat) : (Prim.evRoute n v).Fits l ↔ .ev ∈ l := by
  simp [Prim.Fits, Prim.touches, Prim.Sized]
@[simp] theorem fits_evCount (n v : Nat) : (Prim.evCount n v).Fits l ↔ .ev ∈ l := by
  simp [Prim.Fits, Prim.touches, Prim.Sized]
@[simp] theorem fits_evHistory : (Prim.evHistory).Fits l ↔ .ev ∈ l := by
  simp [Prim.Fits, Prim.touches, Prim.Sized]
@[simp] theorem fits_evReset : (Prim.evReset).Fits l ↔ .ev ∈ l := by
  simp [Prim.Fits, Prim.touches, Prim.Sized]
@[simp] theorem fits_notifyOn (i : Nat) (on : Bool) : (Prim.notifyOn i on).Fits l ↔ .ev ∈ l := by
  simp [Prim.Fits, Prim.touches, Prim.Sized]
@[simp] theorem fits_notifyDrop (i k : Nat) : (Prim.notifyDrop i k).Fits l ↔ .ev ∈ l := by
  simp [Prim.Fits, Prim.touches, Prim.Sized]
@[simp] theorem fits_store (a n v : Nat) : (Prim.store a n v).Fits l ↔ .mem ∈ l := by
  simp [Prim.Fits, Prim.touches, Prim.Sized]
@[simp] theorem fits_storeBytes (a : Nat) (b : List Nat) : (Prim.storeBytes a b).Fits l ↔ .mem ∈ l := by
  simp [Prim.Fits, Prim.touches, Prim.Sized]
@[simp] theorem fits_copy (a b n : Nat) : (Prim.copy a b n).Fits l ↔ .mem ∈ l := by
  simp [Prim.Fits, Prim.touches, Prim.Sized]
@[simp] theorem fits_erase (a n : Nat) : (Prim.erase a n).Fits l ↔ .mem ∈ l := by
  simp [Prim.Fits, Prim.touches, Prim.Sized]
@[simp] theorem fits_sys (f : Sys → Sys) : (Prim.sys f).Fits l ↔ .sys ∈ l := by
  simp [Prim.Fits, Prim.touches, Prim.Sized]
@[simp] theorem fits_tone (f : Tone → Tone) : (Prim.tone f).Fits l ↔ .tone ∈ l := by
  simp [Prim.Fits, Prim.touches, Prim.Sized]
@[simp] theorem fits_ill (f : Illum → Illum) : (Prim.ill f).Fits l ↔ .ill ∈ l := by
  simp [Prim.Fits, Prim.touches, Prim.Sized]
@[simp] theorem fits_loop (f : Loop → Loop) : (Prim.loop f).Fits l ↔ .loop ∈ l := by
  simp [Prim.Fits, Prim.touches, Prim.Sized]
@[simp] theorem fits_time (f : TimeSt → TimeSt) : (Prim.time f).Fits l ↔ .time ∈ l := by
  simp [Prim.Fits, Prim.touches, Prim.Sized]
@[simp] theorem fits_bridle (f : Bridle → Bridle) : (Prim.bridle f).Fits l ↔ .bridle ∈ l := by
  simp [Prim.Fits, Prim.touches, Prim.Sized]
@[simp] theorem fits_sec (f : Sec → Sec) : (Prim.sec f).Fits l ↔ .sec ∈ l := by
  simp [Prim.Fits, Prim.touches, Prim.Sized]
@[simp] theorem fits_can (f : CanSt → CanSt) : (Prim.can f).Fits l ↔ .can ∈ l ∧ ∀ x : CanSt, x.Sized → (f x).Sized := by
  simp [Prim.Fits, Prim.touches, Prim.Sized]
@[simp] theorem fits_pos (f : Pos → Pos) : (Prim.pos f).Fits l ↔ .pos ∈ l ∧ ∀ x : Pos, x.Sized → (f x).Sized := by
  simp [Prim.Fits, Prim.touches, Prim.Sized]
@[simp] theorem fits_codec (f : Codec → Codec) : (Prim.codec f).Fits l ↔ .codec ∈ l ∧ ∀ x : Codec, x.Sized → (f x).Sized := by
  simp [Prim.Fits, Prim.touches, Prim.Sized]
@[simp] theorem fits_comp (f : Comp → Comp) : (Prim.comp f).Fits l ↔ .comp ∈ l ∧ ∀ x : Comp, x.Sized → (f x).Sized := by
  simp [Prim.Fits, Prim.touches, Prim.Sized]
@[simp] theorem fits_fire (f : Fire → Fire) : (Prim.fire f).Fits l ↔ .fire ∈ l ∧ ∀ x : Fire, x.Sized → (f x).Sized := by
  simp [Prim.Fits, Prim.touches, Prim.Sized]
@[simp] theorem fits_link (f : Links → Links) : (Prim.link f).Fits l ↔ .link ∈ l ∧ ∀ x : Links, x.Sized → (f x).Sized := by
  simp [Prim.Fits, Prim.touches, Prim.Sized]
@[simp] theorem fits_cam (f : Cam → Cam) : (Prim.cam f).Fits l ↔ .cam ∈ l ∧ ∀ x : Cam, x.Sized → (f x).Sized := by
  simp [Prim.Fits, Prim.touches, Prim.Sized]
@[simp] theorem fits_dma (f : Dma → Dma) : (Prim.dma f).Fits l ↔ .dma ∈ l ∧ ∀ x : Dma, x.Sized → (f x).Sized := by
  simp [Prim.Fits, Prim.touches, Prim.Sized]
@[simp] theorem fits_dram (f : Dram → Dram) : (Prim.dram f).Fits l ↔ .dram ∈ l ∧ ∀ x : Dram, x.Sized → (f x).Sized := by
  simp [Prim.Fits, Prim.touches, Prim.Sized]
@[simp] theorem fits_net (f : Net → Net) : (Prim.net f).Fits l ↔ .net ∈ l ∧ ∀ x : Net, x.Sized → (f x).Sized := by
  simp [Prim.Fits, Prim.touches, Prim.Sized]
@[simp] theorem fits_health (f : Health → Health) : (Prim.health f).Fits l ↔ .health ∈ l ∧ ∀ x : Health, x.Sized → (f x).Sized := by
  simp [Prim.Fits, Prim.touches, Prim.Sized]

end FitsPrim

/-! ### Fitting trees -/

@[simp] theorem all_when_iff {P : Prim → Prop} {b : Bool} {a : Act} : (when b a).All P ↔ (b = true → a.All P) := by
  cases b <;> simp [when]

@[simp] theorem all_each_iff {α : Type} {P : Prim → Prop} {l : List α} {f : α → Act} :
    (each l f).All P ↔ ∀ x ∈ l, (f x).All P := by
  refine ⟨fun h x hx => ?_, all_each⟩
  induction l with
  | nil => exact absurd hx List.not_mem_nil
  | cons y l ih =>
    rcases List.mem_cons.mp hx with rfl | hx
    · exact h.1
    · exact ih h.2 hx

@[simp] theorem all_ite_iff {P : Prim → Prop} {c : Prop} [Decidable c] {a b : Act} :
    (if c then a else b).All P ↔ (c → a.All P) ∧ (¬c → b.All P) := by
  by_cases h : c <;> simp [h]

@[simp] theorem all_act_ite_iff {P : Prim → Prop} {c : Prop} [Decidable c] {a b : Verdict} :
    (if c then a else b).act.All P ↔ (c → a.act.All P) ∧ (¬c → b.act.All P) := by
  by_cases h : c <;> simp [h]

theorem all_seqs_iff {P : Prim → Prop} {l : List Act} : (seqs l).All P ↔ ∀ a ∈ l, a.All P := by
  induction l with
  | nil => simp
  | cons a l ih => simp [ih]

@[simp] theorem all_seqs_append {P : Prim → Prop} {l m : List Act} :
    (seqs (l ++ m)).All P ↔ (seqs l).All P ∧ (seqs m).All P := by
  simp [all_seqs_iff, or_imp, forall_and]

@[simp] theorem all_addTo {P : Prim → Prop} {k bytes n : Nat} : (addTo k bytes n).All P ↔ ∀ s : State,
    P (.set k ((s.reg k + n) % 2 ^ (8 * bytes))) := Iff.rfl

@[simp] theorem all_drawFree {P : Prim → Prop} {f : Nat → Act} : (drawFree f).All P ↔ ∀ s : State,
    P .fresh ∧ (f (Config.freeValue s.free)).All P := Iff.rfl

@[simp] theorem act_accept (a : Act) : (accept a).act = a := rfl

@[simp] theorem act_refuse (code : Nat) : (refuse code).act = .skip := rfl

@[simp] theorem act_plain (key : Nat) (s : State) (w : Wr) : (plain key s w).act = put key w.val := rfl

/-! ### Pieces as a reset leaves them -/

@[simp] theorem CanSt.sized_fresh : CanSt.Sized {} := ⟨rfl, rfl⟩
@[simp] theorem Pos.sized_fresh : Pos.Sized {} := ⟨rfl, rfl, rfl⟩
@[simp] theorem Comp.sized_fresh : Comp.Sized {} := rfl
@[simp] theorem Links.sized_fresh : Links.Sized {} := rfl
@[simp] theorem Cam.sized_fresh : Cam.Sized {} := rfl
@[simp] theorem Dma.sized_fresh : Dma.Sized {} := rfl
@[simp] theorem Dram.sized_fresh : Dram.Sized {} := ⟨rfl, rfl⟩
@[simp] theorem Codec.sized_fresh : Codec.Sized {} := ⟨rfl, rfl⟩
@[simp] theorem Net.sized_fresh : Net.Sized {} := ⟨List.length_replicate, rfl, rfl⟩

@[simp] theorem Fire.sized_fresh (copies : List Copy) : Fire.Sized { ({} : Fire) with copies := copies } :=
  ⟨List.length_replicate, fun _ hh => List.eq_of_mem_replicate hh ▸ rfl⟩

@[simp] theorem Fire.sized_empty : Fire.Sized {} := Fire.sized_fresh []

@[simp] theorem sized_setWindow (src : Nat) (w : List Nat) (h : Health) : (setWindow src w h).Sized ↔ h.Sized := Iff.rfl

@[simp] theorem length_rows_idle (h : Head) : h.idle.rows.length = h.rows.length := List.length_map _

section FitsWrites

variable {l : List Piece} (h : [.dict, .ev] ⊆ l)
include h

@[simp] theorem fits_recordRefusal (p : WPath) (code : Nat) : (recordRefusal p code).All (Prim.Fits l) := by
  simp only [List.cons_subset] at h
  cases p <;> simp [recordRefusal, h]

@[simp] theorem fits_enact {p : WPath} {v : Verdict} (hv : v.act.All (Prim.Fits l)) :
    (enact p v).All (Prim.Fits l) := by
  simp [enact, hv, h]

omit h in
@[simp] theorem fits_answer (p : WPath) (code : Nat) : (answer p code).All (Prim.Fits l) := by
  cases p <;> simp [answer]

omit h in
theorem fits_judge {idx sub : Nat} {eff : Effect} {s : State} {w : Wr}
    (he : ∀ v, (eff s { w with val := v }).act.All (Prim.Fits l)) : (judge idx sub eff s w).act.All (Prim.Fits l) := by
  unfold judge
  split
  · trivial
  · simp [he]

/-- A write fits the pieces that its owner's changes fit, with the registers and the events. -/
@[simp] theorem fits_writeBy {idx sub : Nat} {eff : Effect} {w : Wr}
    (he : ∀ s v, (eff s { w with val := v }).act.All (Prim.Fits l)) : (writeBy idx sub eff w).All (Prim.Fits l) :=
  fun s => ⟨fits_enact h (fits_judge (he s)), fits_answer _ _⟩

end FitsWrites

end Sys2Proof.Machine
end

section
/-! # The pieces that each operation fits

One lemma per operation of the model, in the order of its modules: the pieces that its tree of changes touches, and that
it keeps the sizes of the parts. -/

namespace Sys2Proof.Machine

variable {pcs : List Piece}

/-! ### Ops -/

@[simp] theorem fits_faultLog (src kind count event detail : Nat) (hp : [.mem, .dict, .ev] ⊆ pcs) :
    (faultLog src kind count event detail).All (Prim.Fits pcs) := by simp_all [faultLog]

@[simp] theorem fits_faultTable (src state count : Nat) (hp : [.mem] ⊆ pcs) :
    (faultTable src state count).All (Prim.Fits pcs) := by simp_all [faultTable]

@[simp] theorem fits_retireSource (src event detail : Nat) (owner : Act) (hp : [.mem, .dict, .ev, .health] ⊆ pcs)
    (howner : owner.All (Prim.Fits pcs)) :
    (retireSource src event detail owner).All (Prim.Fits pcs) := by simp_all +contextual [retireSource, Health.Sized]

@[simp] theorem fits_faultOccurrence (src event detail : Nat) (owner : Act) (hp : [.mem, .dict, .ev, .health] ⊆ pcs)
    (howner : owner.All (Prim.Fits pcs)) :
    (faultOccurrence src event detail owner).All (Prim.Fits pcs) := by simp_all [faultOccurrence]

@[simp] theorem fits_faultPermanent (src event detail : Nat) (owner : Act) (hp : [.mem, .dict, .ev, .health] ⊆ pcs)
    (howner : owner.All (Prim.Fits pcs)) :
    (faultPermanent src event detail owner).All (Prim.Fits pcs) := by simp_all [faultPermanent]

@[simp] theorem fits_restartSource (src : Nat) (hp : [.mem, .health] ⊆ pcs) :
    (restartSource src).All (Prim.Fits pcs) := by simp_all [restartSource, Health.Sized, setWindow]

@[simp] theorem fits_calibrationCounted (kind : Nat) (accepted : Bool) (hp : [.dict, .ev, .health] ⊆ pcs) :
    (calibrationCounted kind accepted).All (Prim.Fits pcs) := by simp_all +contextual [calibrationCounted, Health.Sized]

/-! ### Copies -/

@[simp] theorem fits_setCopy (m : Int) (f : Copy → Copy) (hp : [.fire] ⊆ pcs) :
    (setCopy m f).All (Prim.Fits pcs) := by simp_all +contextual [setCopy, Fire.Sized]

@[simp] theorem fits_markWaste (m : Int) (reason : Nat) (hp : [.fire] ⊆ pcs) :
    (markWaste m reason).All (Prim.Fits pcs) := by simp_all [markWaste]

@[simp] theorem fits_markInFlight (reason : Nat) (hp : [.fire] ⊆ pcs) :
    (markInFlight reason).All (Prim.Fits pcs) := by simp_all +contextual [markInFlight, Fire.Sized]

/-! ### Lines -/

@[simp] theorem fits_setDma (c : Nat) (f : DmaChan → DmaChan) (hp : [.dma] ⊆ pcs) :
    (setDma c f).All (Prim.Fits pcs) := by simp_all +contextual [setDma, Dma.Sized]

@[simp] theorem fits_lineWithdrawn (k : Nat) (hp : [.dict] ⊆ pcs) :
    (lineWithdrawn k).All (Prim.Fits pcs) := by simp_all [lineWithdrawn]

/-! ### Position -/

@[simp] theorem fits_setChan (c : Nat) (f : Chan → Chan) (hp : [.pos] ⊆ pcs) :
    (setChan c f).All (Prim.Fits pcs) := by simp_all +contextual [setChan, Pos.Sized]

@[simp] theorem fits_posEvent (n v : Nat) (hp : [.dict, .ev] ⊆ pcs) :
    (posEvent n v).All (Prim.Fits pcs) := by simp_all [posEvent]

@[simp] theorem fits_limitEvent (c : Nat) (before after : Chan) (hp : [.dict, .ev] ⊆ pcs) :
    (limitEvent c before after).All (Prim.Fits pcs) := by simp_all [limitEvent]

@[simp] theorem fits_comparePulse (output t width : Nat) (hp : [.pos] ⊆ pcs) :
    (comparePulse output t width).All (Prim.Fits pcs) := by simp_all +contextual [comparePulse, Pos.Sized]

@[simp] theorem fits_compareFire (c k : Nat) (ch1 : Chan) (t : Nat) (hp : [.dict, .pos] ⊆ pcs) :
    (compareFire c k ch1 t).All (Prim.Fits pcs) := by simp_all [compareFire]

@[simp] theorem fits_compareAll (c : Nat) (ch0 ch1 : Chan) (moved : Int) (t : Nat) (hp : [.dict, .ev, .pos] ⊆ pcs) :
    (compareAll c ch0 ch1 moved t).All (Prim.Fits pcs) := by
  simp only [compareAll, Act.all_read]
  intro s
  split <;> simp_all

@[simp] theorem fits_emuFollow (k : Nat) (boundary : Option Int) (hp : [.dict, .ev, .pos] ⊆ pcs) :
    (emuFollow k boundary).All (Prim.Fits pcs) := by simp_all +contextual [emuFollow, Pos.Sized]

@[simp] theorem fits_emuAll (c : Nat) (boundary : Option Int) (hp : [.dict, .ev, .pos] ⊆ pcs) :
    (emuAll c boundary).All (Prim.Fits pcs) := by simp_all [emuAll]

@[simp] theorem fits_masterFollow (c : Nat) (ch0 ch1 : Chan) (d : Int) (t : Nat) (hp : [.pos] ⊆ pcs) :
    (masterFollow c ch0 ch1 d t).All (Prim.Fits pcs) := by simp_all +contextual [masterFollow, Pos.Sized]

@[simp] theorem fits_advance (c : Nat) (d : Int) (edge : Bool) (t : Nat) (hp : [.dict, .ev, .pos] ⊆ pcs) :
    (advance c d edge t).All (Prim.Fits pcs) := by simp_all [advance]

@[simp] theorem fits_referencePoint (c : Nat) (at' : Int) (hp : [.dict, .ev, .pos] ⊆ pcs) :
    (referencePoint c at').All (Prim.Fits pcs) := by simp_all [referencePoint]

@[simp] theorem fits_referenceCount (c : Nat) (counts : Int) (hp : [.dict, .ev, .pos] ⊆ pcs) :
    (referenceCount c counts).All (Prim.Fits pcs) := by simp_all [referenceCount]

@[simp] theorem fits_freezeChannel (c : Nat) (hp : [.dict, .ev, .pos] ⊆ pcs) :
    (freezeChannel c).All (Prim.Fits pcs) := by simp_all [freezeChannel]

@[simp] theorem fits_masterRetired (was : Chan) (hp : [.pos, .fire] ⊆ pcs) :
    (masterRetired was).All (Prim.Fits pcs) := by simp_all +contextual [masterRetired, Pos.Sized]

@[simp] theorem fits_retireChannel (wasMaster : Bool) (was : Chan) (c : Nat) (hp : [.dict, .ev, .pos, .fire] ⊆ pcs) :
    (retireChannel wasMaster was c).All (Prim.Fits pcs) := by simp_all [retireChannel]

@[simp] theorem fits_channelFault (c ev : Nat) (hp : [.mem, .dict, .ev, .pos, .fire, .health] ⊆ pcs) :
    (channelFault c ev).All (Prim.Fits pcs) := by simp_all [channelFault]

@[simp] theorem fits_restartChannel (c : Nat) (hp : [.mem, .dict, .ev, .pos, .health] ⊆ pcs) :
    (restartChannel c).All (Prim.Fits pcs) := by simp_all +contextual [restartChannel, Pos.Sized]

@[simp] theorem fits_effChannelType (c : Nat) (s : State) (w : Wr) (hp : [.mem, .dict, .ev, .pos, .health] ⊆ pcs) :
    (effChannelType c s w).act.All (Prim.Fits pcs) := by simp_all [effChannelType]

@[simp] theorem fits_effCountingMode (c : Nat) (s : State) (w : Wr) (hp : [.mem, .dict, .ev, .pos, .health] ⊆ pcs) :
    (effCountingMode c s w).act.All (Prim.Fits pcs) := by simp_all [effCountingMode]

@[simp] theorem fits_effMaster (key : Nat) (s : State) (w : Wr) (hp : [.dict, .pos] ⊆ pcs) :
    (effMaster key s w).act.All (Prim.Fits pcs) := by simp_all +contextual [effMaster, Pos.Sized]

@[simp] theorem fits_effCopyLength (c : Nat) (s : State) (w : Wr) (hp : [.dict, .pos] ⊆ pcs) :
    (effCopyLength c s w).act.All (Prim.Fits pcs) := by simp_all [effCopyLength]

@[simp] theorem fits_effSoftLimit (c : Nat) (high : Bool) (s : State) (w : Wr) (hp : [.dict, .ev, .pos] ⊆ pcs) :
    (effSoftLimit c high s w).act.All (Prim.Fits pcs) := by simp_all [effSoftLimit]

@[simp] theorem fits_effPreset (c : Nat) (s : State) (w : Wr) (hp : [.dict, .ev, .pos] ⊆ pcs) :
    (effPreset c s w).act.All (Prim.Fits pcs) := by simp_all +contextual [effPreset, Pos.Sized]

@[simp] theorem fits_effSerialPeriod (n : Nat) (s : State) (w : Wr) (hp : [.dict] ⊆ pcs) :
    (effSerialPeriod n s w).act.All (Prim.Fits pcs) := by simp_all [effSerialPeriod]

@[simp] theorem fits_effSerialFrame (n : Nat) (s : State) (w : Wr) (hp : [.dict] ⊆ pcs) :
    (effSerialFrame n s w).act.All (Prim.Fits pcs) := by simp_all [effSerialFrame]

@[simp] theorem fits_effCompareControl (k : Nat) (s : State) (w : Wr) (hp : [.dict] ⊆ pcs) :
    (effCompareControl k s w).act.All (Prim.Fits pcs) := by simp_all [effCompareControl]

@[simp] theorem fits_effCompareChannel (k : Nat) (s : State) (w : Wr) (hp : [.dict] ⊆ pcs) :
    (effCompareChannel k s w).act.All (Prim.Fits pcs) := by simp_all [effCompareChannel]

@[simp] theorem fits_effCompareValue (k : Nat) (s : State) (w : Wr) (hp : [.dict, .ev] ⊆ pcs) :
    (effCompareValue k s w).act.All (Prim.Fits pcs) := by simp_all [effCompareValue]

@[simp] theorem fits_effCompareFired (s : State) (w : Wr) (hp : [.dict] ⊆ pcs) :
    (effCompareFired s w).act.All (Prim.Fits pcs) := by simp_all [effCompareFired]

@[simp] theorem fits_effPosition (idx sub : Nat) (s : State) (w : Wr) (hp : [.mem, .dict, .ev, .pos, .health] ⊆ pcs) :
    (effPosition idx sub s w).act.All (Prim.Fits pcs) := by
  unfold effPosition
  split <;> simp_all

@[simp] theorem fits_latchWeb (p : WPath) (hp : [.pos] ⊆ pcs) :
    (latchWeb p).All (Prim.Fits pcs) := by simp_all +contextual [latchWeb, Pos.Sized]

/-! ### Places -/

@[simp] theorem fits_bumpVersion (idx : Nat) (hp : [.dict] ⊆ pcs) :
    (bumpVersion idx).All (Prim.Fits pcs) := by simp_all [bumpVersion]

@[simp] theorem fits_clearPoison (a n : Nat) (hp : [.dram] ⊆ pcs) :
    (clearPoison a n).All (Prim.Fits pcs) := by simp_all +contextual [clearPoison, Dram.Sized]

@[simp] theorem fits_writeDram (a : Nat) (l : List Nat) (hp : [.mem, .dram] ⊆ pcs) :
    (writeDram a l).All (Prim.Fits pcs) := by simp_all [writeDram]

/-! ### Rings -/

@[simp] theorem fits_takeRings (rs : List Ring) (hp : [.fire] ⊆ pcs) :
    (takeRings rs).All (Prim.Fits pcs) := by simp_all +contextual [takeRings, Fire.Sized]

@[simp] theorem fits_releaseRings (keep : Nat) (hp : [.fire] ⊆ pcs) :
    (releaseRings keep).All (Prim.Fits pcs) := by simp_all +contextual [releaseRings, Fire.Sized]

/-! ### Stops -/

@[simp] theorem fits_holdTrim (hp : [.time] ⊆ pcs) :
    holdTrim.All (Prim.Fits pcs) := by simp_all [holdTrim]

@[simp] theorem fits_deferredStep (hp : [.ev, .time] ⊆ pcs) :
    deferredStep.All (Prim.Fits pcs) := by
  simp only [deferredStep, Act.all_read]
  intro s
  split <;> simp_all

@[simp] theorem fits_setMode (m : Nat) (hp : [.dict, .ev] ⊆ pcs) :
    (setMode m).All (Prim.Fits pcs) := by simp_all [setMode]

@[simp] theorem fits_endService (result : Nat) (hp : [.dict, .ev, .fire] ⊆ pcs) :
    (endService result).All (Prim.Fits pcs) := by simp_all +contextual [endService, Fire.Sized]

@[simp] theorem fits_orderlyStop (reason : Nat) (hp : [.dict, .ev, .sys, .fire, .dram, .time] ⊆ pcs) :
    (orderlyStop reason).All (Prim.Fits pcs) := by simp_all +contextual [orderlyStop, Fire.Sized, Dram.Sized]

@[simp] theorem fits_stopIfPrinting (reason : Nat) (hp : [.dict, .ev, .sys, .fire, .dram, .time] ⊆ pcs) :
    (stopIfPrinting reason).All (Prim.Fits pcs) := by simp_all [stopIfPrinting]

@[simp] theorem fits_wasteCopy (m : Int) (reason : Nat) (hp : [.fire] ⊆ pcs) :
    (wasteCopy m reason).All (Prim.Fits pcs) := by simp_all [wasteCopy]

/-! ### Packets -/

@[simp] theorem fits_setLink (l : Nat) (f : LinkSt → LinkSt) (hp : [.link] ⊆ pcs) :
    (setLink l f).All (Prim.Fits pcs) := by simp_all +contextual [setLink, Links.Sized]

@[simp] theorem fits_sendPacket (l kind slot row : Nat) (content : List Nat) (rowSeq : Nat) (copy : Int)
    (hp : [.link] ⊆ pcs) :
    (sendPacket l kind slot row content rowSeq copy).All (Prim.Fits pcs) := by simp_all [sendPacket]

@[simp] theorem fits_sendLine (l sl row rowSeq bank bitsPer count stamp : Nat) (tickle : Bool) (codes : List Nat)
    (copy : Int) (hp : [.dict, .link] ⊆ pcs) :
    (sendLine l sl row rowSeq bank bitsPer count stamp tickle codes copy).All (Prim.Fits pcs) := by simp_all [sendLine]

@[simp] theorem fits_sendFire (l sl kind code bank bitsPer stamp : Nat) (hp : [.dict, .link] ⊆ pcs) :
    (sendFire l sl kind code bank bitsPer stamp).All (Prim.Fits pcs) := by simp_all [sendFire]

@[simp] theorem fits_sendCfg (l slot op tag count addr : Nat) (data : List Nat) (hp : [.link] ⊆ pcs) :
    (sendCfg l slot op tag count addr data).All (Prim.Fits pcs) := by simp_all [sendCfg]

@[simp] theorem fits_fireEvent (n l sl : Nat) (hp : [.dict, .ev] ⊆ pcs) :
    (fireEvent n l sl).All (Prim.Fits pcs) := by simp_all [fireEvent]

/-! ### Tone -/

@[simp] theorem fits_storeParity (store : Nat) (hp : [.mem, .dict, .ev, .health] ⊆ pcs) :
    (storeParity store).All (Prim.Fits pcs) := by simp_all [storeParity]

@[simp] theorem fits_laneParity (ink : Nat) (m : Int) (parity : List Nat) (hp : [.mem, .dict, .ev, .fire,
    .health] ⊆ pcs) :
    (laneParity ink m parity).All (Prim.Fits pcs) := by simp_all [laneParity]

@[simp] theorem fits_decideBand (c : Copy) (ink band : Nat) (hp : [.dict, .ev, .fire] ⊆ pcs) :
    (decideBand c ink band).All (Prim.Fits pcs) := by simp_all [decideBand]

@[simp] theorem fits_countReduced (c : Copy) (y : Nat) (hp : [.dict, .ev, .fire] ⊆ pcs) :
    (countReduced c y).All (Prim.Fits pcs) := by simp_all [countReduced]

@[simp] theorem fits_tookLine (m : Int) (ink : Nat) (hp : [.fire] ⊆ pcs) :
    (tookLine m ink).All (Prim.Fits pcs) := by simp_all [tookLine]

@[simp] theorem fits_decideLine (c : Copy) (ink y : Nat) (parity : List Nat) (hp : [.mem, .dict, .ev, .fire, .dram,
    .health] ⊆ pcs) :
    (decideLine c ink y parity).All (Prim.Fits pcs) := by
  simp only [decideLine, Act.all_read]
  intro s
  (repeat' split) <;> simp_all

@[simp] theorem fits_setMissing (n v : Nat) (hp : [.mem] ⊆ pcs) :
    (setMissing n v).All (Prim.Fits pcs) := by simp_all [setMissing]

@[simp] theorem fits_wantBuild (hp : [.tone] ⊆ pcs) :
    wantBuild.All (Prim.Fits pcs) := by simp_all [wantBuild]

@[simp] theorem fits_addMissing (n source : Nat) (hp : [.mem, .dict, .ev, .tone] ⊆ pcs) :
    (addMissing n source).All (Prim.Fits pcs) := by simp_all [addMissing]

@[simp] theorem fits_removeMissing (n : Nat) (hp : [.mem, .dict, .tone] ⊆ pcs) :
    (removeMissing n).All (Prim.Fits pcs) := by simp_all [removeMissing]

@[simp] theorem fits_effMissingMark (s : State) (w : Wr) (hp : [.mem, .dict, .ev, .tone] ⊆ pcs) :
    (effMissingMark s w).act.All (Prim.Fits pcs) := by simp_all [effMissingMark]

@[simp] theorem fits_effMissingClear (s : State) (w : Wr) (hp : [.mem, .dict, .tone] ⊆ pcs) :
    (effMissingClear s w).act.All (Prim.Fits pcs) := by simp_all [effMissingClear]

@[simp] theorem fits_updateInForce (copy : Nat) (hp : [.dict, .ev, .tone, .loop] ⊆ pcs) :
    (updateInForce copy).All (Prim.Fits pcs) := by simp_all [updateInForce]

@[simp] theorem fits_flipBank (copy : Nat) (hp : [.dict, .ev, .tone, .loop] ⊆ pcs) :
    (flipBank copy).All (Prim.Fits pcs) := by simp_all [flipBank]

@[simp] theorem fits_refuseBank (code : Nat) (hp : [.dict, .ev, .tone] ⊆ pcs) :
    (refuseBank code).All (Prim.Fits pcs) := by simp_all [refuseBank]

@[simp] theorem fits_startCommit (copy : Nat) (hp : [.dict, .tone] ⊆ pcs) :
    (startCommit copy).All (Prim.Fits pcs) := by simp_all [startCommit]

@[simp] theorem fits_effBankCommit (s : State) (w : Wr) (hp : [.dict, .ev, .tone] ⊆ pcs) :
    (effBankCommit s w).act.All (Prim.Fits pcs) := by simp_all [effBankCommit]

@[simp] theorem fits_effBankCancel (s : State) (w : Wr) (hp : [.dict, .tone] ⊆ pcs) :
    (effBankCancel s w).act.All (Prim.Fits pcs) := by simp_all [effBankCancel]

@[simp] theorem fits_effBankCopy (s : State) (w : Wr) (hp : [.dict, .tone] ⊆ pcs) :
    (effBankCopy s w).act.All (Prim.Fits pcs) := by simp_all [effBankCopy]

@[simp] theorem fits_copyBank (hp : [.mem, .dict] ⊆ pcs) :
    copyBank.All (Prim.Fits pcs) := by simp_all [copyBank]

@[simp] theorem fits_effScreenLoad (s : State) (w : Wr) (hp : [.dict, .ev, .tone] ⊆ pcs) :
    (effScreenLoad s w).act.All (Prim.Fits pcs) := by simp_all [effScreenLoad]

@[simp] theorem fits_unitsFree (hp : [.dict] ⊆ pcs) :
    unitsFree.All (Prim.Fits pcs) := by simp_all [unitsFree]

@[simp] theorem fits_effScreenRelease (s : State) (w : Wr) (hp : [.dict] ⊆ pcs) :
    (effScreenRelease s w).act.All (Prim.Fits pcs) := by simp_all [effScreenRelease]

@[simp] theorem fits_effBuildInput (key : Nat) (s : State) (w : Wr) (hp : [.dict, .tone] ⊆ pcs) :
    (effBuildInput key s w).act.All (Prim.Fits pcs) := by simp_all [effBuildInput]

@[simp] theorem fits_effWaveMap (key : Nat) (s : State) (w : Wr) (hp : [.dict] ⊆ pcs) :
    (effWaveMap key s w).act.All (Prim.Fits pcs) := by simp_all [effWaveMap]

@[simp] theorem fits_effTone (idx sub : Nat) (s : State) (w : Wr) (hp : [.mem, .dict, .ev, .tone] ⊆ pcs) :
    (effTone idx sub s w).act.All (Prim.Fits pcs) := by
  simp only [List.cons_subset] at hp
  generalize he : effTone idx sub = e
  unfold effTone at he
  dsimp only at he
  repeat' split at he
  all_goals subst he; simp [ite_apply, hp]

/-! ### Firing -/

@[simp] theorem fits_setHead (l sl : Nat) (f : Head → Head) (hp : [.fire] ⊆ pcs)
    (hf : ∀ x : Head, x.rows.length = 4 → (f x).rows.length = 4) : (setHead l sl f).All (Prim.Fits pcs) := by
  simp only [List.cons_subset] at hp
  simp only [setHead, Act.all_prim, fits_fire, hp, true_and, Fire.Sized, length_modAt]
  rintro x ⟨hlen, hrows⟩
  exact ⟨hlen, fun y hy => (mem_modAt hy).elim (hrows y) fun ⟨z, hz, e⟩ => e ▸ hf z (hrows z hz)⟩

@[simp] theorem fits_setRow (l sl r : Nat) (f : RowAt → RowAt) (hp : [.fire] ⊆ pcs) :
    (setRow l sl r f).All (Prim.Fits pcs) := by simp_all [setRow]

@[simp] theorem fits_lineSkipped (l sl : Nat) (m : Int) (hp : [.dict, .ev, .fire] ⊆ pcs) :
    (lineSkipped l sl m).All (Prim.Fits pcs) := by simp_all [lineSkipped]

@[simp] theorem fits_lateCheck (l sl : Nat) (m stamp : Int) (hp : [.dict, .ev, .fire] ⊆ pcs) :
    (lateCheck l sl m stamp).All (Prim.Fits pcs) := by simp_all [lateCheck]

@[simp] theorem fits_clampMark (m : Int) (l sl : Nat) (hp : [.dict, .ev, .fire] ⊆ pcs) :
    (clampMark m l sl).All (Prim.Fits pcs) := by
  simp only [clampMark, Act.all_read]
  intro s
  split <;> simp_all

@[simp] theorem fits_stepRow (d : Due) (hp : [.fire] ⊆ pcs) :
    (stepRow d).All (Prim.Fits pcs) := by simp_all [stepRow]

@[simp] theorem fits_giveUpLine (m : Int) (ink y : Nat) (hp : [.fire] ⊆ pcs) :
    (giveUpLine m ink y).All (Prim.Fits pcs) := by
  simp only [giveUpLine, Act.all_read]
  intro s
  split <;> simp_all

@[simp] theorem fits_sendRow (d : Due) (c : Copy) (hp : [.dict, .ev, .fire, .link] ⊆ pcs) :
    (sendRow d c).All (Prim.Fits pcs) := by
  simp only [sendRow, Act.all_read]
  intro s
  split <;> simp_all +contextual [Fire.Sized]

@[simp] theorem fits_dueLine (clamped : Bool) (d : Due) (hp : [.dict, .ev, .fire, .link] ⊆ pcs) :
    (dueLine clamped d).All (Prim.Fits pcs) := by
  simp only [dueLine, Act.all_read]
  intro s
  (repeat' split) <;> simp_all

@[simp] theorem fits_settleCopies (hp : [.fire] ⊆ pcs) :
    settleCopies.All (Prim.Fits pcs) := by simp_all +contextual [settleCopies, Fire.Sized]

@[simp] theorem fits_settleErrors (hp : [.dict, .fire] ⊆ pcs) :
    settleErrors.All (Prim.Fits pcs) := by simp_all [settleErrors]

@[simp] theorem fits_measureIssued (hp : [.dict, .fire] ⊆ pcs) :
    measureIssued.All (Prim.Fits pcs) := by
  simp only [measureIssued, Act.all_read]
  intro s
  split <;> simp_all +contextual [Fire.Sized]

@[simp] theorem fits_sendLadder (d : Due) (hp : [.dict, .link] ⊆ pcs) :
    (sendLadder d).All (Prim.Fits pcs) := by
  simp only [sendLadder, Act.all_read]
  intro s
  split <;> simp_all

@[simp] theorem fits_dueLadder (d : Due) (hp : [.dict, .ev, .fire, .link] ⊆ pcs) :
    (dueLadder d).All (Prim.Fits pcs) := by
  unfold dueLadder
  split <;> simp_all +contextual [Fire.Sized]

@[simp] theorem fits_ladderDone (hp : [.dict, .ev, .fire] ⊆ pcs) :
    ladderDone.All (Prim.Fits pcs) := by
  simp only [ladderDone, Act.all_read]
  intro s
  split <;> simp_all

@[simp] theorem fits_laddersPrinted (hp : [.ev, .loop] ⊆ pcs) :
    laddersPrinted.All (Prim.Fits pcs) := by simp_all [laddersPrinted]

@[simp] theorem fits_inhibitHead (l sl state : Nat) (hot : Bool) (hp : [.dict, .ev] ⊆ pcs) :
    (inhibitHead l sl state hot).All (Prim.Fits pcs) := by simp_all [inhibitHead]

@[simp] theorem fits_headReport (l sl : Nat) (temp : Int) (own : Bool) (hp : [.dict, .ev, .fire] ⊆ pcs) :
    (headReport l sl temp own).All (Prim.Fits pcs) := by simp_all [headReport]

@[simp] theorem fits_sendLoad (p : Push) (n : Nat) (hp : [.fire, .link] ⊆ pcs) :
    (sendLoad p n).All (Prim.Fits pcs) := by simp_all +contextual [sendLoad, Fire.Sized]

@[simp] theorem fits_loadNext (hp : [.fire, .link] ⊆ pcs) :
    loadNext.All (Prim.Fits pcs) := by
  simp only [loadNext, Act.all_read]
  intro s
  split
  · trivial
  · simp only [all_each_iff, all_ite_iff]
    intro l _
    refine ⟨fun _ => trivial, fun _ => ?_⟩
    split <;> simp_all

@[simp] theorem fits_effPush (s : State) (w : Wr) (hp : [.dict, .ev, .fire, .link] ⊆ pcs) :
    (effPush s w).act.All (Prim.Fits pcs) := by simp_all +contextual [effPush, Fire.Sized]

@[simp] theorem fits_sendTokens (hp : [.dict, .ev, .fire, .link] ⊆ pcs) :
    sendTokens.All (Prim.Fits pcs) := by
  simp only [sendTokens, Act.all_read]
  intro s
  split <;> simp_all +contextual [Fire.Sized]

@[simp] theorem fits_pushDone (p : Push) (hp : [.dict, .fire] ⊆ pcs) :
    (pushDone p).All (Prim.Fits pcs) := by simp_all +contextual [pushDone, Fire.Sized]

@[simp] theorem fits_pushFails (slot : Nat) (hp : [.dict, .fire] ⊆ pcs) :
    (pushFails slot).All (Prim.Fits pcs) := by simp_all +contextual [pushFails, Fire.Sized]

@[simp] theorem fits_effPushCancel (s : State) (w : Wr) (hp : [.dict, .ev, .fire] ⊆ pcs) :
    (effPushCancel s w).act.All (Prim.Fits pcs) := by simp_all [effPushCancel]

@[simp] theorem fits_switchType (ty : Nat) (hp : [.dict, .fire] ⊆ pcs) :
    (switchType ty).All (Prim.Fits pcs) := by simp_all +contextual [switchType, Fire.Sized]

@[simp] theorem fits_effSwitch (ty : Nat) (s : State) (w : Wr) (hp : [.dict, .ev, .fire] ⊆ pcs) :
    (effSwitch ty s w).act.All (Prim.Fits pcs) := by simp_all [effSwitch]

@[simp] theorem fits_adoptFrom (l sl : Nat) (hp : [.dict, .fire] ⊆ pcs) :
    (adoptFrom l sl).All (Prim.Fits pcs) := by
  simp only [adoptFrom, Act.all_read]
  intro s
  (repeat' split) <;> simp_all +contextual [Fire.Sized]

@[simp] theorem fits_adoptOn (l : Nat) (hp : [.dict, .fire] ⊆ pcs) :
    (adoptOn l).All (Prim.Fits pcs) := by
  simp only [adoptOn, Act.all_read, all_each_iff]
  intro s ty _
  split <;> simp_all

@[simp] theorem fits_bankCheck (l sl : Nat) (hp : [.dict, .ev] ⊆ pcs) :
    (bankCheck l sl).All (Prim.Fits pcs) := by simp_all [bankCheck]

@[simp] theorem fits_startService (v : Service) (hp : [.dict, .fire, .time] ⊆ pcs) :
    (startService v).All (Prim.Fits pcs) := by simp_all +contextual [startService, Fire.Sized]

@[simp] theorem fits_sendPurge (l sl : Nat) (hp : [.link] ⊆ pcs) :
    (sendPurge l sl).All (Prim.Fits pcs) := by simp_all [sendPurge]

@[simp] theorem fits_effService (s : State) (w : Wr) (hp : [.dict, .ev, .fire, .link, .time] ⊆ pcs) :
    (effService s w).act.All (Prim.Fits pcs) := by simp_all [effService]

@[simp] theorem fits_serviceWrite (v : Nat) (w : Wr) (hp : [.dict, .ev, .fire, .link, .time] ⊆ pcs) :
    (serviceWrite v w).All (Prim.Fits pcs) := by simp_all [serviceWrite]

@[simp] theorem fits_effTempCurve (key : Nat) (s : State) (w : Wr) (hp : [.dict] ⊆ pcs) :
    (effTempCurve key s w).act.All (Prim.Fits pcs) := by simp_all [effTempCurve]

@[simp] theorem fits_effSlotRange (l sl sub : Nat) (s : State) (w : Wr) (hp : [.dict] ⊆ pcs) :
    (effSlotRange l sl sub s w).act.All (Prim.Fits pcs) := by simp_all [effSlotRange]

@[simp] theorem fits_effSlot (idx sub : Nat) (s : State) (w : Wr) (hp : [.dict] ⊆ pcs) :
    (effSlot idx sub s w).act.All (Prim.Fits pcs) := by
  unfold effSlot
  split <;> simp_all

@[simp] theorem fits_effPrintOrigin (s : State) (w : Wr) (hp : [.dict] ⊆ pcs) :
    (effPrintOrigin s w).act.All (Prim.Fits pcs) := by simp_all [effPrintOrigin]

@[simp] theorem fits_effFireMinLead (s : State) (w : Wr) (hp : [.dict] ⊆ pcs) :
    (effFireMinLead s w).act.All (Prim.Fits pcs) := by simp_all [effFireMinLead]

@[simp] theorem fits_effFire (idx sub : Nat) (s : State) (w : Wr) (hp : [.dict, .ev, .fire, .link, .time] ⊆ pcs) :
    (effFire idx sub s w).act.All (Prim.Fits pcs) := by
  simp only [List.cons_subset] at hp
  generalize he : effFire idx sub = e
  unfold effFire at he
  split at he <;> subst he <;> simp [ite_apply, hp]

/-! ### HeadLink -/

@[simp] theorem fits_lput (k l v : Nat) (hp : [.dict] ⊆ pcs) :
    (lput k l v).All (Prim.Fits pcs) := by simp_all [lput]

@[simp] theorem fits_linkBit (k l : Nat) (b : Bool) (hp : [.dict] ⊆ pcs) :
    (linkBit k l b).All (Prim.Fits pcs) := by simp_all [linkBit]

@[simp] theorem fits_startLink (l : Nat) (hp : [.dict, .link] ⊆ pcs) :
    (startLink l).All (Prim.Fits pcs) := by simp_all [startLink]

@[simp] theorem fits_slotsAbsent (l : Nat) (event : Bool) (hp : [.dict, .ev] ⊆ pcs) :
    (slotsAbsent l event).All (Prim.Fits pcs) := by simp_all [slotsAbsent]

@[simp] theorem fits_failCfgs (l : Nat) (hp : [.dict, .link] ⊆ pcs) :
    (failCfgs l).All (Prim.Fits pcs) := by simp_all [failCfgs]

@[simp] theorem fits_wasteLinkCopies (l : Nat) (hp : [.fire] ⊆ pcs) :
    (wasteLinkCopies l).All (Prim.Fits pcs) := by
  simp only [wasteLinkCopies, Act.all_read, all_when_iff, all_each_iff]
  intro s _ p _
  split <;> simp_all

@[simp] theorem fits_retireLink (l : Nat) (hp : [.dict, .ev, .sys, .fire, .link, .dram, .time] ⊆ pcs) :
    (retireLink l).All (Prim.Fits pcs) := by simp_all [retireLink]

@[simp] theorem fits_linkFault (l : Nat) (hp : [.mem, .dict, .ev, .sys, .fire, .link, .dram, .time, .health] ⊆ pcs) :
    (linkFault l).All (Prim.Fits pcs) := by simp_all [linkFault]

@[simp] theorem fits_issueCfg (l slot op count addr : Nat) (data : List Nat) (tries use : Nat) (hp : [.link] ⊆ pcs) :
    (issueCfg l slot op count addr data tries use).All (Prim.Fits pcs) := by simp_all [issueCfg]

@[simp] theorem fits_dropCfg (l tag : Nat) (hp : [.link] ⊆ pcs) :
    (dropCfg l tag).All (Prim.Fits pcs) := by simp_all [dropCfg]

@[simp] theorem fits_retryCfg (l : Nat) (c : CfgReq) (hp : [.dict, .link] ⊆ pcs) :
    (retryCfg l c).All (Prim.Fits pcs) := by simp_all [retryCfg]

@[simp] theorem fits_slotPresence (l mask : Nat) (coming : Bool) (hp : [.dict, .ev] ⊆ pcs) :
    (slotPresence l mask coming).All (Prim.Fits pcs) := by simp_all [slotPresence]

@[simp] theorem fits_slotEntries (l : Nat) (data : List Nat) (coming : Bool) (hp : [.dict, .ev, .fire] ⊆ pcs) :
    (slotEntries l data coming).All (Prim.Fits pcs) := by simp_all [slotEntries]

@[simp] theorem fits_linkComesUp (l : Nat) (hp : [.dict, .link] ⊆ pcs) :
    (linkComesUp l).All (Prim.Fits pcs) := by simp_all [linkComesUp]

@[simp] theorem fits_sendClaim (hp : [.link] ⊆ pcs) :
    sendClaim.All (Prim.Fits pcs) := by simp_all +contextual [sendClaim, Links.Sized]

@[simp] theorem fits_syncPair (hp : [.dict] ⊆ pcs) :
    syncPair.All (Prim.Fits pcs) := by simp_all [syncPair]

@[simp] theorem fits_mirrorLost (hp : [.dict, .bridle] ⊆ pcs) :
    mirrorLost.All (Prim.Fits pcs) := by simp_all [mirrorLost]

@[simp] theorem fits_yieldClaim (role : Nat) (hp : [.dict, .ev, .link, .loop, .bridle] ⊆ pcs) :
    (yieldClaim role).All (Prim.Fits pcs) := by simp_all [yieldClaim]

@[simp] theorem fits_claimLost (hp : [.dict, .ev, .sys, .fire, .link, .loop, .dram, .time, .bridle] ⊆ pcs) :
    claimLost.All (Prim.Fits pcs) := by simp_all [claimLost]

@[simp] theorem fits_lostPacket (l sequence : Nat) (hp : [.dict, .ev, .fire, .link] ⊆ pcs) :
    (lostPacket l sequence).All (Prim.Fits pcs) := by
  simp only [lostPacket, Act.all_read]
  intro s
  (repeat' split) <;> simp_all

@[simp] theorem fits_linkLost (l : Nat) (hp : [.mem, .dict, .ev, .sys, .fire, .link, .dram, .time, .health] ⊆ pcs) :
    (linkLost l).All (Prim.Fits pcs) := by simp_all [linkLost]

@[simp] theorem fits_effLinkRestart (l : Nat) (s : State) (w : Wr) (hp : [.mem, .dict, .ev, .link, .health] ⊆ pcs) :
    (effLinkRestart l s w).act.All (Prim.Fits pcs) := by simp_all [effLinkRestart]

@[simp] theorem fits_effVersionLimit (l : Nat) (s : State) (w : Wr) (hp : [.dict, .ev, .link] ⊆ pcs) :
    (effVersionLimit l s w).act.All (Prim.Fits pcs) := by simp_all [effVersionLimit]

@[simp] theorem fits_effPrbs (l rx : Nat) (s : State) (w : Wr) (hp : [.dict, .link] ⊆ pcs) :
    (effPrbs l rx s w).act.All (Prim.Fits pcs) := by simp_all [effPrbs]

@[simp] theorem fits_sendSync (l : Nat) (hp : [.link] ⊆ pcs) :
    (sendSync l).All (Prim.Fits pcs) := by simp_all [sendSync]

@[simp] theorem fits_recalCheck (l : Nat) (hp : [.link] ⊆ pcs) :
    (recalCheck l).All (Prim.Fits pcs) := by simp_all [recalCheck]

@[simp] theorem fits_effHeadCfg (l : Nat) (s : State) (w : Wr) (hp : [.dict, .link] ⊆ pcs) :
    (effHeadCfg l s w).act.All (Prim.Fits pcs) := by simp_all [effHeadCfg]

@[simp] theorem fits_effRecalRequest (s : State) (w : Wr) (hp : [.link] ⊆ pcs) :
    (effRecalRequest s w).act.All (Prim.Fits pcs) := by simp_all [effRecalRequest]

@[simp] theorem fits_recalPass (l : Nat) (r : Recal) (picks : List (Nat × Nat)) (hp : [.mem, .dict, .ev, .sys,
    .fire, .link, .dram, .time, .health] ⊆ pcs) :
    (recalPass l r picks).All (Prim.Fits pcs) := by
  unfold recalPass
  split <;> simp_all

@[simp] theorem fits_effLink (idx sub : Nat) (s : State) (w : Wr) (hp : [.mem, .dict, .ev, .link, .health] ⊆ pcs) :
    (effLink idx sub s w).act.All (Prim.Fits pcs) := by
  simp only [List.cons_subset] at hp
  generalize he : effLink idx sub = e
  unfold effLink at he
  dsimp only at he
  split at he <;> subst he <;> simp [hp]

@[simp] theorem fits_effLinks (idx sub : Nat) (s : State) (w : Wr) (hp : [.dict, .link] ⊆ pcs) :
    (effLinks idx sub s w).act.All (Prim.Fits pcs) := by
  unfold effLinks
  split <;> simp_all

/-! ### JobStore -/

@[simp] theorem fits_syncJobStore (hp : [.dict] ⊆ pcs) :
    syncJobStore.All (Prim.Fits pcs) := by simp_all [syncJobStore]

@[simp] theorem fits_mirrorDirectory (hp : [.mem, .dict, .dram] ⊆ pcs) :
    mirrorDirectory.All (Prim.Fits pcs) := by simp_all [mirrorDirectory]

@[simp] theorem fits_setJob (id : Nat) (f : Job → Job) (hp : [.codec] ⊆ pcs) :
    (setJob id f).All (Prim.Fits pcs) := by simp_all +contextual [setJob, Codec.Sized]

@[simp] theorem fits_setStream (id : Nat) (f : Stream → Stream) (hp : [.codec] ⊆ pcs) :
    (setStream id f).All (Prim.Fits pcs) := by simp_all +contextual [setStream, Codec.Sized]

@[simp] theorem fits_syncLane (n : Nat) (hp : [.dict] ⊆ pcs) :
    (syncLane n).All (Prim.Fits pcs) := by simp_all [syncLane]

@[simp] theorem fits_dropDecoding (gone : Nat → Bool) (hp : [.dict, .codec, .comp, .net] ⊆ pcs) :
    (dropDecoding gone).All (Prim.Fits pcs) := by
  simp_all +contextual [dropDecoding, Codec.Sized, Comp.Sized, Net.Sized]

@[simp] theorem fits_freeJob (id : Nat) (hp : [.dict, .codec, .comp, .net] ⊆ pcs) :
    (freeJob id).All (Prim.Fits pcs) := by simp_all +contextual [freeJob, Codec.Sized]

@[simp] theorem fits_emptyJobStore (hp : [.dict, .codec, .comp, .net] ⊆ pcs) :
    emptyJobStore.All (Prim.Fits pcs) := by simp_all +contextual [emptyJobStore, Codec.Sized]

@[simp] theorem fits_recheckJobs (hp : [.mem, .dict, .ev, .codec, .comp, .dram, .net] ⊆ pcs) :
    recheckJobs.All (Prim.Fits pcs) := by simp_all +contextual [recheckJobs, Codec.Sized]

@[simp] theorem fits_effJobDelete (s : State) (w : Wr) (hp : [.mem, .dict, .codec, .comp, .dram, .net] ⊆ pcs) :
    (effJobDelete s w).act.All (Prim.Fits pcs) := by simp_all [effJobDelete]

/-! ### Flows -/

@[simp] theorem fits_netEvent (n where' : Nat) (hp : [.dict, .ev] ⊆ pcs) :
    (netEvent n where').All (Prim.Fits pcs) := by simp_all [netEvent]

@[simp] theorem fits_setFlow (f : Nat) (g : Flow → Flow) (hp : [.net] ⊆ pcs) :
    (setFlow f g).All (Prim.Fits pcs) := by simp_all +contextual [setFlow, Net.Sized]

@[simp] theorem fits_sendUdp (h : Host4) (data : List Nat) :
    (sendUdp h data).All (Prim.Fits pcs) := by
  simp only [sendUdp, Act.all_read]
  intro s
  split <;> simp_all

@[simp] theorem fits_sendIngest (f kind flags seq offset : Nat) (payload : List Nat) :
    (sendIngest f kind flags seq offset payload).All (Prim.Fits pcs) := by simp_all [sendIngest]

@[simp] theorem fits_sendAck (f : Nat) (final : Bool) (hp : [.net] ⊆ pcs) :
    (sendAck f final).All (Prim.Fits pcs) := by simp_all [sendAck]

@[simp] theorem fits_sendRefetch (r : Refetch) :
    (sendRefetch r).All (Prim.Fits pcs) := by
  simp only [sendRefetch, Act.all_read]
  intro s
  split <;> simp_all

@[simp] theorem fits_startRefetch (stream strip : Nat) (hp : [.net] ⊆ pcs) :
    (startRefetch stream strip).All (Prim.Fits pcs) := by simp_all +contextual [startRefetch, Net.Sized]

@[simp] theorem fits_sendRelease (stream strip : Nat) :
    (sendRelease stream strip).All (Prim.Fits pcs) := by
  simp only [sendRelease, Act.all_read]
  intro s
  split <;> simp_all

@[simp] theorem fits_mirrorBufs (x1 : List (Nat × Nat × Nat)) (hp : [.mem] ⊆ pcs) :
    (mirrorBufs x1).All (Prim.Fits pcs) := by
  simp only [List.cons_subset] at hp
  induction x1 with
  | nil => trivial
  | cons b rest ih => simp_all [mirrorBufs]

@[simp] theorem fits_doneBuf (b valid : Nat) (hp : [.mem] ⊆ pcs) :
    (doneBuf b valid).All (Prim.Fits pcs) := by simp_all [doneBuf]

@[simp] theorem fits_setChain (x : Chain) (hp : [.codec] ⊆ pcs) :
    (setChain x).All (Prim.Fits pcs) := by simp_all +contextual [setChain, Codec.Sized]

@[simp] theorem fits_placeChain (stream : Nat) (hp : [.mem, .codec] ⊆ pcs) :
    (placeChain stream).All (Prim.Fits pcs) := by
  simp only [placeChain, Act.all_read]
  intro s
  split <;> simp_all

@[simp] theorem fits_placeChains (hp : [.mem, .codec] ⊆ pcs) :
    placeChains.All (Prim.Fits pcs) := by simp_all [placeChains]

@[simp] theorem fits_drainChain (stream : Nat) (hp : [.mem, .codec] ⊆ pcs) :
    (drainChain stream).All (Prim.Fits pcs) := by
  simp only [drainChain, Act.all_read]
  intro s
  split <;> simp_all

@[simp] theorem fits_popStrip (stream : Nat) (hp : [.mem, .codec] ⊆ pcs) :
    (popStrip stream).All (Prim.Fits pcs) := by
  simp only [popStrip, Act.all_read]
  intro s
  (repeat' split) <;> simp_all

/-! ### Codec -/

@[simp] theorem fits_writeSlot (n stream next line : Nat) (p : JlsParams) (st : JlsState) (lost : Bool)
    (hp : [.mem, .dict, .codec] ⊆ pcs) :
    (writeSlot n stream next line p st lost).All (Prim.Fits pcs) := by simp_all +contextual [writeSlot, Codec.Sized]

@[simp] theorem fits_setDec (id : Nat) (f : DecStream → DecStream) (hp : [.codec] ⊆ pcs) :
    (setDec id f).All (Prim.Fits pcs) := by simp_all +contextual [setDec, Codec.Sized]

@[simp] theorem fits_setLane (n : Nat) (f : Lane → Lane) (hp : [.dict, .codec] ⊆ pcs) :
    (setLane n f).All (Prim.Fits pcs) := by simp_all +contextual [setLane, Codec.Sized]

@[simp] theorem fits_retireLaneNow (n : Nat) (hp : [.dict, .ev, .codec] ⊆ pcs) :
    (retireLaneNow n).All (Prim.Fits pcs) := by simp_all [retireLaneNow]

@[simp] theorem fits_retireLane (n : Nat) (hp : [.dict, .ev, .codec] ⊆ pcs) :
    (retireLane n).All (Prim.Fits pcs) := by simp_all [retireLane]

@[simp] theorem fits_leaveLane (n : Nat) (live : Option (Nat × JlsState)) (hp : [.dict, .ev, .codec] ⊆ pcs) :
    (leaveLane n live).All (Prim.Fits pcs) := by simp_all [leaveLane]

@[simp] theorem fits_decodeBehind (stream pass strip : Nat) (hp : [.dict, .ev, .fire] ⊆ pcs) :
    (decodeBehind stream pass strip).All (Prim.Fits pcs) := by
  simp only [decodeBehind, Act.all_read]
  intro s
  split <;> simp_all

@[simp] theorem fits_loseHistory (stream strip : Nat) (hp : [.mem, .dict, .codec] ⊆ pcs) :
    (loseHistory stream strip).All (Prim.Fits pcs) := by
  simp only [loseHistory, Act.all_read]
  intro s
  split <;> simp_all

@[simp] theorem fits_failNote (stream strip reason : Nat) (hp : [.dict, .ev] ⊆ pcs) :
    (failNote stream strip reason).All (Prim.Fits pcs) := by
  unfold failNote
  split <;> simp_all

@[simp] theorem fits_stripFails (lane stream strip pass reason : Nat) (refetch : Bool) (hp : [.mem, .dict, .ev,
    .codec, .fire, .dram, .net] ⊆ pcs) :
    (stripFails lane stream strip pass reason refetch).All (Prim.Fits pcs) := by simp_all [stripFails]

@[simp] theorem fits_advanceLane (n : Nat) (poisoned : Bool) (hp : [.mem, .dict, .ev, .codec, .fire, .dram,
    .net] ⊆ pcs) :
    (advanceLane n poisoned).All (Prim.Fits pcs) := by
  simp only [List.cons_subset] at hp
  simp only [advanceLane, Act.all_read]
  intro s
  split
  · trivial
  split
  · simp [hp, Codec.Sized]
  · simp [hp]

@[simp] theorem fits_openDec (stream : Nat) (hp : [.codec] ⊆ pcs) :
    (openDec stream).All (Prim.Fits pcs) := by
  simp only [openDec, Act.all_read]
  intro s
  split <;> simp_all +contextual [Codec.Sized]

@[simp] theorem fits_loadLane (n : Nat) (keep : Bool) (w : LaneWork) (poisoned : Bool) (hp : [.mem, .dict, .ev,
    .codec, .fire, .dram, .net] ⊆ pcs) :
    (loadLane n keep w poisoned).All (Prim.Fits pcs) := by simp_all +contextual [loadLane, Codec.Sized]

@[simp] theorem fits_startStrip (n stream strip : Nat) (hp : [.mem, .dict, .ev, .codec, .fire, .dram, .net] ⊆ pcs) :
    (startStrip n stream strip).All (Prim.Fits pcs) := by
  simp only [List.cons_subset] at hp
  simp only [startStrip, Act.all_read]
  intro s
  split
  · simp only [all_ite_iff]
    refine ⟨fun _ => trivial, fun _ => ⟨fun _ => ?_, fun _ => ?_⟩⟩
    · split
      · simp [hp]
      · simp only [all_ite_iff]
        refine ⟨fun _ => ?_, fun _ => ?_⟩ <;> split <;> simp [hp]
    · split <;> simp [hp]
  · trivial

@[simp] theorem fits_stripPasses (n : Nat) (w : LaneWork) (hp : [.mem, .dict, .ev, .codec, .net, .health] ⊆ pcs) :
    (stripPasses n w).All (Prim.Fits pcs) := by
  simp only [stripPasses, Act.all_read]
  intro s
  split <;> simp_all +contextual [Codec.Sized, Net.Sized]

@[simp] theorem fits_resumeLane (n : Nat) (hp : [.mem, .dict, .ev, .codec, .fire, .dram, .net] ⊆ pcs) :
    (resumeLane n).All (Prim.Fits pcs) := by
  simp only [resumeLane, Act.all_read]
  intro s
  (repeat' split) <;> simp_all

@[simp] theorem fits_effInputResume (n : Nat) (s : State) (w : Wr) (hp : [.mem, .dict, .ev, .codec, .fire, .dram,
    .net] ⊆ pcs) :
    (effInputResume n s w).act.All (Prim.Fits pcs) := by simp_all [effInputResume]

/-! ### Package -/

@[simp] theorem fits_refusePackage (code : Nat) (hp : [.dict, .ev] ⊆ pcs) :
    (refusePackage code).All (Prim.Fits pcs) := by simp_all [refusePackage]

/-! ### Compositor -/

@[simp] theorem fits_bindPasses (x : Content) (ink y : Nat) (hp : [.comp] ⊆ pcs) :
    (bindPasses x ink y).All (Prim.Fits pcs) := by simp_all +contextual [bindPasses, Comp.Sized]

@[simp] theorem fits_dropLines (hp : [.codec] ⊆ pcs) :
    dropLines.All (Prim.Fits pcs) := by simp_all +contextual [dropLines, Codec.Sized]

@[simp] theorem fits_composedLine (m : Int) (ink : Nat) (hp : [.fire] ⊆ pcs) :
    (composedLine m ink).All (Prim.Fits pcs) := by simp_all [composedLine]

@[simp] theorem fits_noteLead (c : Copy) (ink y : Nat) (hp : [.dict] ⊆ pcs) :
    (noteLead c ink y).All (Prim.Fits pcs) := by simp_all [noteLead]

@[simp] theorem fits_linePari (m : Int) (zeroed : List Nat) (hp : [.mem, .dict, .ev, .fire, .health] ⊆ pcs) :
    (linePari m zeroed).All (Prim.Fits pcs) := by simp_all [linePari]

@[simp] theorem fits_setLayer (l : Nat) (f : Layer → Layer) (hp : [.comp] ⊆ pcs) :
    (setLayer l f).All (Prim.Fits pcs) := by simp_all +contextual [setLayer, Comp.Sized]

@[simp] theorem fits_showPending (l target : Nat) (hp : [.dict] ⊆ pcs) :
    (showPending l target).All (Prim.Fits pcs) := by simp_all [showPending]

@[simp] theorem fits_commitRefused (l code : Nat) (hp : [.dict, .ev] ⊆ pcs) :
    (commitRefused l code).All (Prim.Fits pcs) := by simp_all [commitRefused]

@[simp] theorem fits_commitAccepted (l target : Nat) (d : Desc) (hp : [.dict, .comp] ⊆ pcs) :
    (commitAccepted l target d).All (Prim.Fits pcs) := by simp_all [commitAccepted]

@[simp] theorem fits_effLayerCommit (l : Nat) (s : State) (w : Wr) (hp : [.dict, .ev, .comp] ⊆ pcs) :
    (effLayerCommit l s w).act.All (Prim.Fits pcs) := by simp_all [effLayerCommit]

@[simp] theorem fits_effEmptyCommit (l : Nat) (s : State) (w : Wr) (hp : [.dict, .ev, .comp] ⊆ pcs) :
    (effEmptyCommit l s w).act.All (Prim.Fits pcs) := by simp_all [effEmptyCommit]

@[simp] theorem fits_effProtectedLoad (s : State) (w : Wr) (hp : [.dict, .ev, .comp] ⊆ pcs) :
    (effProtectedLoad s w).act.All (Prim.Fits pcs) := by simp_all +contextual [effProtectedLoad, Comp.Sized]

@[simp] theorem fits_effLayer (idx sub : Nat) (s : State) (w : Wr) (hp : [.dict, .ev, .comp] ⊆ pcs) :
    (effLayer idx sub s w).act.All (Prim.Fits pcs) := by
  simp only [List.cons_subset] at hp
  simp [effLayer, ite_apply, hp]

/-! ### Freeze -/

@[simp] theorem fits_setLoop (f : Loop → Loop) (hp : [.loop] ⊆ pcs) :
    (setLoop f).All (Prim.Fits pcs) := by simp_all [setLoop]

@[simp] theorem fits_undoUpdate (hp : [.mem, .dict, .tone, .loop] ⊆ pcs) :
    undoUpdate.All (Prim.Fits pcs) := by
  simp only [undoUpdate, Act.all_read]
  intro s
  split <;> simp_all

@[simp] theorem fits_syncLoop (hp : [.mem, .dict, .ev, .tone, .loop] ⊆ pcs) :
    syncLoop.All (Prim.Fits pcs) := by simp_all [syncLoop]

@[simp] theorem fits_startCapture (m : Int) (hp : [.loop] ⊆ pcs) :
    (startCapture m).All (Prim.Fits pcs) := by simp_all [startCapture]

/-! ### Illumination -/

@[simp] theorem fits_illEvent (n place : Nat) (hp : [.dict, .ev] ⊆ pcs) :
    (illEvent n place).All (Prim.Fits pcs) := by simp_all [illEvent]

@[simp] theorem fits_setString (n : Nat) (f : Str → Str) (hp : [.ill] ⊆ pcs) :
    (setString n f).All (Prim.Fits pcs) := by simp_all [setString]

@[simp] theorem fits_undiagnose (n : Nat) (hp : [.dict, .ev, .ill] ⊆ pcs) :
    (undiagnose n).All (Prim.Fits pcs) := by simp_all [undiagnose]

@[simp] theorem fits_darken (hp : [.ill] ⊆ pcs) :
    darken.All (Prim.Fits pcs) := by simp_all [darken]

@[simp] theorem fits_allOff (cause place since : Nat) (own : Act) (hp : [.mem, .dict, .ev, .tone, .ill,
    .loop] ⊆ pcs) (hown : own.All (Prim.Fits pcs)) :
    (allOff cause place since own).All (Prim.Fits pcs) := by simp_all [allOff]

@[simp] theorem fits_columnFault (c event : Nat) (hp : [.mem, .dict, .ev, .tone, .ill, .loop, .health] ⊆ pcs) :
    (columnFault c event).All (Prim.Fits pcs) := by simp_all [columnFault]

@[simp] theorem fits_illInForce (hp : [.mem, .dict, .ev, .tone, .ill, .loop] ⊆ pcs) :
    illInForce.All (Prim.Fits pcs) := by
  simp only [illInForce, Act.all_read]
  intro s
  split <;> simp_all

@[simp] theorem fits_vrefInForce (hp : [.dict, .ill] ⊆ pcs) :
    vrefInForce.All (Prim.Fits pcs) := by
  simp only [vrefInForce, Act.all_read]
  intro s
  split <;> simp_all

@[simp] theorem fits_currentsInForce (lit : Nat → Bool) (hp : [.dict, .ill] ⊆ pcs) :
    (currentsInForce lit).All (Prim.Fits pcs) := by
  simp only [currentsInForce, Act.all_read, all_each_iff]
  intro s n _
  split <;> simp_all

@[simp] theorem fits_illFrame (mode : Nat) (hp : [.mem, .dict, .ev, .tone, .ill, .loop] ⊆ pcs) :
    (illFrame mode).All (Prim.Fits pcs) := by simp_all [illFrame]

@[simp] theorem fits_illLine (r mode : Nat) (label : Int) (nodes : List Nat) (hp : [.mem, .dict, .ev, .tone, .ill,
    .loop, .health] ⊆ pcs) :
    (illLine r mode label nodes).All (Prim.Fits pcs) := by simp_all [illLine]

@[simp] theorem fits_regulate (n : Nat) (hp : [.dict, .ev, .ill] ⊆ pcs) :
    (regulate n).All (Prim.Fits pcs) := by simp_all [regulate]

@[simp] theorem fits_lightValue (n sum count : Nat) (clip : Bool) (hp : [.dict, .ev, .ill] ⊆ pcs) :
    (lightValue n sum count clip).All (Prim.Fits pcs) := by simp_all [lightValue]

@[simp] theorem fits_settleRunning (hp : [.mem, .dict, .ev, .tone, .loop] ⊆ pcs) :
    settleRunning.All (Prim.Fits pcs) := by simp_all [settleRunning]

@[simp] theorem fits_diagnose (n : Nat) (p : Pulse) (isns vsns : Nat) (hp : [.mem, .dict, .ev, .tone, .ill,
    .loop] ⊆ pcs) :
    (diagnose n p isns vsns).All (Prim.Fits pcs) := by
  simp only [diagnose, Act.all_read]
  intro s
  (repeat' split) <;> simp_all

@[simp] theorem fits_settleFlash (hp : [.dict, .ev, .ill, .health] ⊆ pcs) :
    settleFlash.All (Prim.Fits pcs) := by
  simp only [settleFlash, Act.all_read]
  intro s
  (repeat' split) <;> simp_all

@[simp] theorem fits_gapPulses (strings : List Nat) (width kind : Nat) (hp : [.ill] ⊆ pcs) :
    (gapPulses strings width kind).All (Prim.Fits pcs) := by simp_all [gapPulses]

@[simp] theorem fits_effIllCommit (s : State) (w : Wr) (hp : [.mem, .dict, .ev, .tone, .ill, .loop] ⊆ pcs) :
    (effIllCommit s w).act.All (Prim.Fits pcs) := by simp_all [effIllCommit]

@[simp] theorem fits_effIllRestart (s : State) (w : Wr) (hp : [.mem, .dict, .ev, .tone, .ill, .loop, .health] ⊆ pcs) :
    (effIllRestart s w).act.All (Prim.Fits pcs) := by simp_all [effIllRestart]

@[simp] theorem fits_effIllumination (idx sub : Nat) (s : State) (w : Wr) (hp : [.mem, .dict, .ev, .tone, .ill,
    .loop, .health] ⊆ pcs) :
    (effIllumination idx sub s w).act.All (Prim.Fits pcs) := by
  simp only [List.cons_subset] at hp
  simp [effIllumination, ite_apply, hp]

/-! ### Inspection -/

@[simp] theorem fits_setPort (p : Nat) (f : Port → Port) (hp : [.cam] ⊆ pcs) :
    (setPort p f).All (Prim.Fits pcs) := by simp_all +contextual [setPort, Cam.Sized]

@[simp] theorem fits_camEvent (n p : Nat) (hp : [.dict, .ev] ⊆ pcs) :
    (camEvent n p).All (Prim.Fits pcs) := by simp_all [camEvent]

@[simp] theorem fits_retirePort (p : Nat) (hp : [.mem, .dict, .ev, .tone, .cam, .loop] ⊆ pcs) :
    (retirePort p).All (Prim.Fits pcs) := by simp_all +contextual [retirePort, Cam.Sized]

@[simp] theorem fits_fray (p : Nat) (hp : [.cam] ⊆ pcs) :
    (fray p).All (Prim.Fits pcs) := by simp_all [fray]

@[simp] theorem fits_dropFrame (p : Nat) (hp : [.dict, .ev, .cam] ⊆ pcs) :
    (dropFrame p).All (Prim.Fits pcs) := by simp_all [dropFrame]

@[simp] theorem fits_completeLine (p : Nat) (short : List Nat) (long : Option (List Nat)) (hp : [.cam] ⊆ pcs) :
    (completeLine p short long).All (Prim.Fits pcs) := by simp_all [completeLine]

@[simp] theorem fits_endFrame (p : Nat) (hp : [.mem, .dict, .ev, .tone, .cam, .loop, .health] ⊆ pcs) :
    (endFrame p).All (Prim.Fits pcs) := by
  simp only [endFrame, Act.all_read]
  intro s
  split <;> simp_all

@[simp] theorem fits_startFrame (p number : Nat) (hp : [.mem, .dict, .ev, .tone, .cam, .loop] ⊆ pcs) :
    (startFrame p number).All (Prim.Fits pcs) := by
  simp only [startFrame, Act.all_read]
  intro s
  split <;> simp_all

@[simp] theorem fits_imageLine (p : Nat) (pix : List Nat) (hp : [.dict, .ev, .cam] ⊆ pcs) :
    (imageLine p pix).All (Prim.Fits pcs) := by
  simp only [imageLine, Act.all_read]
  intro s
  (repeat' split) <;> simp_all

@[simp] theorem fits_ignoreFrame (key p : Nat) (pkt : CsiPacket) (hp : [.dict] ⊆ pcs) :
    (ignoreFrame key p pkt).All (Prim.Fits pcs) := by simp_all [ignoreFrame]

@[simp] theorem fits_noteSat (p : Nat) (l : List (Nat × Nat)) (hp : [.cam] ⊆ pcs) :
    (noteSat p l).All (Prim.Fits pcs) := by simp_all [noteSat]

@[simp] theorem fits_writeRecord (p : Nat) (f : Frame) (hp : [.mem, .dict, .dram] ⊆ pcs) :
    (writeRecord p f).All (Prim.Fits pcs) := by simp_all [writeRecord]

@[simp] theorem fits_writeColumns (l : List RungDone) (p : Nat) (hp : [.mem, .dict, .ev, .dram] ⊆ pcs) :
    (writeColumns l p).All (Prim.Fits pcs) := by simp_all [writeColumns]

@[simp] theorem fits_neutralBanks (p width : Nat) (hp : [.mem, .dict, .cam] ⊆ pcs) :
    (neutralBanks p width).All (Prim.Fits pcs) := by simp_all [neutralBanks]

@[simp] theorem fits_effPortCommit (p : Nat) (s : State) (w : Wr) (hp : [.mem, .dict, .ev, .tone, .cam, .loop] ⊆ pcs) :
    (effPortCommit p s w).act.All (Prim.Fits pcs) := by simp_all [effPortCommit]

@[simp] theorem fits_effPortRestart (p : Nat) (s : State) (w : Wr) (hp : [.mem, .dict, .ev, .tone, .loop,
    .health] ⊆ pcs) :
    (effPortRestart p s w).act.All (Prim.Fits pcs) := by simp_all [effPortRestart]

@[simp] theorem fits_pendBlock (p : Nat) (b : List Nat) (hp : [.dict, .cam] ⊆ pcs) :
    (pendBlock p b).All (Prim.Fits pcs) := by simp_all [pendBlock]

@[simp] theorem fits_effCoefCommit (p : Nat) (s : State) (w : Wr) (hp : [.dict, .cam] ⊆ pcs) :
    (effCoefCommit p s w).act.All (Prim.Fits pcs) := by simp_all [effCoefCommit]

@[simp] theorem fits_coefInForce (p : Nat) (label : Int) (hp : [.mem, .dict, .cam] ⊆ pcs) :
    (coefInForce p label).All (Prim.Fits pcs) := by
  simp only [coefInForce, Act.all_read]
  intro s
  split <;> simp_all

@[simp] theorem fits_effCci (p : Nat) (s : State) (w : Wr) (hp : [.dict, .cam] ⊆ pcs) :
    (effCci p s w).act.All (Prim.Fits pcs) := by simp_all +contextual [effCci, Cam.Sized]

@[simp] theorem fits_syncCalibration (hp : [.dict] ⊆ pcs) :
    syncCalibration.All (Prim.Fits pcs) := by simp_all [syncCalibration]

@[simp] theorem fits_effFlatRequest (s : State) (w : Wr) (hp : [.dict, .cam] ⊆ pcs) :
    (effFlatRequest s w).act.All (Prim.Fits pcs) := by simp_all [effFlatRequest]

@[simp] theorem fits_effCamera (idx sub : Nat) (s : State) (w : Wr) (hp : [.mem, .dict, .ev, .tone, .cam, .loop,
    .health] ⊆ pcs) :
    (effCamera idx sub s w).act.All (Prim.Fits pcs) := by
  simp only [List.cons_subset] at hp
  simp [effCamera, ite_apply, hp]

/-! ### Trigger -/

@[simp] theorem fits_trigPulse (p width : Nat) :
    (trigPulse p width).All (Prim.Fits pcs) := by simp_all [trigPulse]

@[simp] theorem fits_beginFrame (k : Int) (hp : [.mem, .dict, .ev, .tone, .cam, .ill, .loop] ⊆ pcs) :
    (beginFrame k).All (Prim.Fits pcs) := by simp_all +contextual [beginFrame, Cam.Sized]

@[simp] theorem fits_noteTrigger (k0 : Int) (last unlit : Bool) (hp : [.cam] ⊆ pcs) :
    (noteTrigger k0 last unlit).All (Prim.Fits pcs) := by simp_all +contextual [noteTrigger, Cam.Sized]

@[simp] theorem fits_imageTrigger (k : Int) (j : Nat) (nodes : List Nat) (hp : [.mem, .dict, .ev, .tone, .cam,
    .ill, .loop, .health] ⊆ pcs) :
    (imageTrigger k j nodes).All (Prim.Fits pcs) := by simp_all [imageTrigger]

@[simp] theorem fits_gapLine (hp : [.sys] ⊆ pcs) :
    gapLine.All (Prim.Fits pcs) := by simp_all [gapLine]

@[simp] theorem fits_cameraLine (k : Int) (nodes : List Nat) (hp : [.mem, .dict, .ev, .sys, .tone, .cam, .ill,
    .loop, .health] ⊆ pcs) :
    (cameraLine k nodes).All (Prim.Fits pcs) := by simp_all [cameraLine]

@[simp] theorem fits_cameraLines (p0 p1 : Int) (nodes : List Nat) (hp : [.mem, .dict, .ev, .sys, .tone, .cam, .ill,
    .loop, .health] ⊆ pcs) :
    (cameraLines p0 p1 nodes).All (Prim.Fits pcs) := by simp_all +contextual [cameraLines, Cam.Sized]

@[simp] theorem fits_rejectLevel (on : Bool) :
    (rejectLevel on).All (Prim.Fits pcs) := by simp_all [rejectLevel]

@[simp] theorem fits_rejectEnd (total : Int) (hp : [.loop] ⊆ pcs) :
    (rejectEnd total).All (Prim.Fits pcs) := by
  simp only [rejectEnd, Act.all_read]
  intro s
  split <;> simp_all

@[simp] theorem fits_rejectStart (p : Int × Int) (hp : [.dict, .ev, .loop] ⊆ pcs) :
    (rejectStart p).All (Prim.Fits pcs) := by
  simp only [rejectStart, Act.all_seq, all_seqs_cons, Act.all_read]
  refine ⟨?_, fun s => ?_⟩ <;> (repeat' split) <;> simp_all

@[simp] theorem fits_rejectFollow (total : Int) (hp : [.dict, .ev, .loop] ⊆ pcs) :
    (rejectFollow total).All (Prim.Fits pcs) := by simp_all [rejectFollow]

/-! ### Loop -/

@[simp] theorem fits_handOver (s0 : State) (old : List (Nat × Nat)) (latest : Nat) (hp : [.dict, .ev, .tone,
    .loop] ⊆ pcs) :
    (handOver s0 old latest).All (Prim.Fits pcs) := by simp_all [handOver]

@[simp] theorem fits_applyTerms (terms : List (Nat × Nat)) (limited : Bool) (latest : Nat) (hp : [.mem, .dict, .ev,
    .tone, .loop] ⊆ pcs) :
    (applyTerms terms limited latest).All (Prim.Fits pcs) := by simp_all [applyTerms]

@[simp] theorem fits_disagreed (hp : [.dict, .ev] ⊆ pcs) :
    disagreed.All (Prim.Fits pcs) := by simp_all [disagreed]

@[simp] theorem fits_ladderTerms (a b : LadderSet) (latest : Nat) (hp : [.mem, .dict, .ev, .tone, .loop] ⊆ pcs) :
    (ladderTerms a b latest).All (Prim.Fits pcs) := by simp_all [ladderTerms]

@[simp] theorem fits_overlapStep (both : List (Nat × (Nat × Int) × Nat × Int)) (hp : [.mem, .dict, .ev, .tone,
    .loop, .health] ⊆ pcs) :
    (overlapStep both).All (Prim.Fits pcs) := by
  simp only [overlapStep, Act.all_read]
  intro s
  (repeat' split) <;> simp_all

@[simp] theorem fits_substStep (a b : LadderSet) (hp : [.dict, .ev, .tone, .loop, .health] ⊆ pcs) :
    (substStep a b).All (Prim.Fits pcs) := by simp_all [substStep]

@[simp] theorem fits_ladderPair (a b : LadderSet) (latest : Nat) (hp : [.mem, .dict, .ev, .tone, .loop,
    .health] ⊆ pcs) :
    (ladderPair a b latest).All (Prim.Fits pcs) := by simp_all [ladderPair]

@[simp] theorem fits_setLadder (m : Int) (f : LadderSet → LadderSet) (hp : [.loop] ⊆ pcs) :
    (setLadder m f).All (Prim.Fits pcs) := by simp_all [setLadder]

@[simp] theorem fits_clearRequests (rungs : List (List Nat)) (hp : [.mem, .dram] ⊆ pcs) :
    (clearRequests rungs).All (Prim.Fits pcs) := by simp_all [clearRequests]

@[simp] theorem fits_ladderMeasured (m : Int) (latest : Nat) (hp : [.mem, .dict, .ev, .tone, .loop, .dram,
    .health] ⊆ pcs) :
    (ladderMeasured m latest).All (Prim.Fits pcs) := by
  simp only [ladderMeasured, Act.all_read]
  intro s
  (repeat' split) <;> simp_all

@[simp] theorem fits_nozzleResult (m : Int) (p pass : Nat) (ns : List (Nat × Nat)) (c : Nat × Nat × Int × Nat)
    (hp : [.mem, .loop, .dram] ⊆ pcs) :
    (nozzleResult m p pass ns c).All (Prim.Fits pcs) := by simp_all [nozzleResult]

@[simp] theorem fits_rungReported (d : RungDone) (bank : Nat) (hp : [.mem, .loop, .dram] ⊆ pcs) :
    (rungReported d bank).All (Prim.Fits pcs) := by simp_all [rungReported]

@[simp] theorem fits_ladderPast (p : Nat) (f : Frame) (hp : [.mem, .dict, .ev, .tone, .loop, .dram, .health] ⊆ pcs) :
    (ladderPast p f).All (Prim.Fits pcs) := by simp_all [ladderPast]

@[simp] theorem fits_setMeas (m : Int) (p : Nat) (f : ZoneMeas → ZoneMeas) (hp : [.loop] ⊆ pcs) :
    (setMeas m p f).All (Prim.Fits pcs) := by simp_all [setMeas]

@[simp] theorem fits_zoneFrame (p : Nat) (f : Frame) (hp : [.loop] ⊆ pcs) :
    (zoneFrame p f).All (Prim.Fits pcs) := by simp_all [zoneFrame]

@[simp] theorem fits_captureZone (m : Int) (ink p z : Nat) (aref : Int) (hp : [.mem, .loop] ⊆ pcs) :
    (captureZone m ink p z aref).All (Prim.Fits pcs) := by simp_all [captureZone]

@[simp] theorem fits_settleCapture (ink : Nat) (hp : [.ev, .loop] ⊆ pcs) :
    (settleCapture ink).All (Prim.Fits pcs) := by simp_all [settleCapture]

@[simp] theorem fits_zoneUpdate (a b : ZoneMeas) (good : List (Nat × Nat × Int)) (hp : [.mem, .dict, .ev, .tone,
    .loop] ⊆ pcs) :
    (zoneUpdate a b good).All (Prim.Fits pcs) := by simp_all [zoneUpdate]

@[simp] theorem fits_zonePair (a b : ZoneMeas) (hp : [.mem, .dict, .ev, .tone, .loop] ⊆ pcs) :
    (zonePair a b).All (Prim.Fits pcs) := by simp_all [zonePair]

@[simp] theorem fits_zoneDone (m : Int) (p : Nat) (hp : [.mem, .dict, .ev, .tone, .fire, .loop] ⊆ pcs) :
    (zoneDone m p).All (Prim.Fits pcs) := by
  simp only [zoneDone, Act.all_seq, all_seqs_cons, Act.all_read]
  refine ⟨?_, fun s => ?_⟩ <;> (repeat' split) <;> simp_all

@[simp] theorem fits_zoneFinish (p : Nat) (f : Frame) (hp : [.mem, .dict, .ev, .tone, .fire, .loop] ⊆ pcs) :
    (zoneFinish p f).All (Prim.Fits pcs) := by simp_all [zoneFinish]

@[simp] theorem fits_effZoneCapture (s : State) (w : Wr) (hp : [.mem, .dict, .ev, .tone, .loop] ⊆ pcs) :
    (effZoneCapture s w).act.All (Prim.Fits pcs) := by simp_all [effZoneCapture]

@[simp] theorem fits_effOverlapRequest (s : State) (w : Wr) (hp : [.loop] ⊆ pcs) :
    (effOverlapRequest s w).act.All (Prim.Fits pcs) := by simp_all [effOverlapRequest]

@[simp] theorem fits_effSubstRequest (s : State) (w : Wr) (hp : [.loop] ⊆ pcs) :
    (effSubstRequest s w).act.All (Prim.Fits pcs) := by simp_all [effSubstRequest]

@[simp] theorem fits_effStaged (key : Nat) (s : State) (w : Wr) (hp : [.mem, .dict, .ev, .tone, .loop] ⊆ pcs) :
    (effStaged key s w).act.All (Prim.Fits pcs) := by simp_all [effStaged]

@[simp] theorem fits_effLoop (idx sub : Nat) (s : State) (w : Wr) (hp : [.mem, .dict, .ev, .tone, .loop] ⊆ pcs) :
    (effLoop idx sub s w).act.All (Prim.Fits pcs) := by
  simp only [List.cons_subset] at hp
  simp [effLoop, ite_apply, hp]

/-! ### Decision -/

@[simp] theorem fits_stretchStep (m : Int) (hp : [.dict, .ev, .loop] ⊆ pcs) :
    (stretchStep m).All (Prim.Fits pcs) := by simp_all [stretchStep]

@[simp] theorem fits_flipLayer (m : Int) (l : Nat) (d : Desc) (hp : [.dict, .comp] ⊆ pcs) :
    (flipLayer m l d).All (Prim.Fits pcs) := by simp_all [flipLayer]

@[simp] theorem fits_keepLayer (l state : Nat) (hp : [.dict] ⊆ pcs) :
    (keepLayer l state).All (Prim.Fits pcs) := by simp_all [keepLayer]

@[simp] theorem fits_advanceLayer (l : Nat) (hp : [.dict, .comp] ⊆ pcs) :
    (advanceLayer l).All (Prim.Fits pcs) := by
  simp only [advanceLayer, Act.all_read]
  intro s
  split <;> simp_all

@[simp] theorem fits_decideLayer (m : Int) (late : List Nat) (l : Nat) (hp : [.dict, .ev, .comp] ⊆ pcs) :
    (decideLayer m late l).All (Prim.Fits pcs) := by
  simp only [decideLayer, Act.all_read]
  intro s
  (repeat' split) <;> simp_all

@[simp] theorem fits_showPackage (b : List Nat) (hp : [.dict] ⊆ pcs) :
    (showPackage b).All (Prim.Fits pcs) := by simp_all [showPackage]

@[simp] theorem fits_decidePackage (m : Int) (late : Bool) (hp : [.dict, .ev, .comp] ⊆ pcs) :
    (decidePackage m late).All (Prim.Fits pcs) := by
  simp only [decidePackage, Act.all_read]
  intro s
  split <;> simp_all +contextual [Comp.Sized]

@[simp] theorem fits_switchesDue (m : Int) (hp : [.dict, .fire] ⊆ pcs) :
    (switchesDue m).All (Prim.Fits pcs) := by simp_all [switchesDue]

@[simp] theorem fits_bankFlipDue (m : Int) (hp : [.dict, .ev, .tone, .loop] ⊆ pcs) :
    (bankFlipDue m).All (Prim.Fits pcs) := by simp_all [bankFlipDue]

@[simp] theorem fits_stagedLoop (hp : [.dict, .loop] ⊆ pcs) :
    stagedLoop.All (Prim.Fits pcs) := by simp_all [stagedLoop]

@[simp] theorem fits_decideLadder (m : Int) (mode lines : Nat) (hp : [.mem, .dict, .fire, .loop, .dram] ⊆ pcs) :
    (decideLadder m mode lines).All (Prim.Fits pcs) := by simp_all [decideLadder]

@[simp] theorem fits_pruneCopies (hp : [.comp, .fire] ⊆ pcs) :
    pruneCopies.All (Prim.Fits pcs) := by simp_all +contextual [pruneCopies, Comp.Sized, Fire.Sized]

@[simp] theorem fits_decideCopy (m : Int) (mode : Nat) (hp : [.mem, .dict, .ev, .sys, .comp, .tone, .fire, .loop,
    .dram, .time] ⊆ pcs) :
    (decideCopy m mode).All (Prim.Fits pcs) := by simp_all +contextual [decideCopy, Comp.Sized, Fire.Sized]

/-! ### Roles -/

@[simp] theorem fits_proofFailed (path : Nat) (hp : [.dict, .ev, .sec] ⊆ pcs) :
    (proofFailed path).All (Prim.Fits pcs) := by simp_all [proofFailed]

@[simp] theorem fits_dropLatches (p : WPath) (hp : [.pos, .time] ⊆ pcs) :
    (dropLatches p).All (Prim.Fits pcs) := by simp_all +contextual [dropLatches, Pos.Sized]

@[simp] theorem fits_setSession (i : Nat) (f : Session → Session) (hp : [.net] ⊆ pcs) :
    (setSession i f).All (Prim.Fits pcs) := by simp_all +contextual [setSession, Net.Sized]

@[simp] theorem fits_closeSession (i : Nat) (hp : [.dict, .ev, .pos, .net, .time, .sec] ⊆ pcs) :
    (closeSession i).All (Prim.Fits pcs) := by
  simp only [closeSession, Act.all_read]
  intro s
  split <;> simp_all +contextual [Net.Sized]

@[simp] theorem fits_closeSessions (hp : [.dict, .ev, .pos, .net, .time, .sec] ⊆ pcs) :
    closeSessions.All (Prim.Fits pcs) := by simp_all +contextual [closeSessions, Net.Sized]

/-! ### CanBus -/

@[simp] theorem fits_setNmt (n : Nmt) (hp : [.can] ⊆ pcs) :
    (setNmt n).All (Prim.Fits pcs) := by simp_all +contextual [setNmt, CanSt.Sized]

@[simp] theorem fits_endCanRole (hp : [.dict, .can] ⊆ pcs) :
    endCanRole.All (Prim.Fits pcs) := by simp_all +contextual [endCanRole, CanSt.Sized]

@[simp] theorem fits_commError (hp : [.can] ⊆ pcs) :
    commError.All (Prim.Fits pcs) := by simp_all [commError]

@[simp] theorem fits_rejoin (hp : [.dict] ⊆ pcs) :
    rejoin.All (Prim.Fits pcs) := by simp_all [rejoin]

@[simp] theorem fits_effCanRecover (s : State) (w : Wr) (hp : [.dict] ⊆ pcs) :
    (effCanRecover s w).act.All (Prim.Fits pcs) := by simp_all [effCanRecover]

@[simp] theorem fits_effCanTiming (key : Nat) (s : State) (w : Wr) (hp : [.dict] ⊆ pcs) :
    (effCanTiming key s w).act.All (Prim.Fits pcs) := by simp_all [effCanTiming]

/-! ### Encode -/

@[simp] theorem fits_setEnc (n : Nat) (f : Enc → Enc) (hp : [.codec] ⊆ pcs) :
    (setEnc n f).All (Prim.Fits pcs) := by simp_all +contextual [setEnc, Codec.Sized]

@[simp] theorem fits_encodeOut (n : Nat) (bytes : List Nat) (hp : [.mem, .dict, .ev, .codec, .dram] ⊆ pcs) :
    (encodeOut n bytes).All (Prim.Fits pcs) := by simp_all [encodeOut]

@[simp] theorem fits_emitStrip (n : Nat) (hp : [.mem, .dict, .ev, .codec, .dram] ⊆ pcs) :
    (emitStrip n).All (Prim.Fits pcs) := by simp_all [emitStrip]

@[simp] theorem fits_encodeOne (n : Nat) (hp : [.mem, .dict, .ev, .codec, .dram] ⊆ pcs) :
    (encodeOne n).All (Prim.Fits pcs) := by simp_all [encodeOne]

@[simp] theorem fits_encodeRun (x1 x2 : Nat) (x3 : Option Nat) (hp : [.mem, .dict, .ev, .codec, .dram] ⊆ pcs) :
    (encodeRun x1 x2 x3).All (Prim.Fits pcs) := by
  induction x1 with
  | zero => trivial
  | succ fuel ih => simp_all [encodeRun]

@[simp] theorem fits_encodeTo (n : Nat) (until' : Option Nat) (hp : [.mem, .dict, .ev, .codec, .dram] ⊆ pcs) :
    (encodeTo n until').All (Prim.Fits pcs) := by simp_all [encodeTo]

@[simp] theorem fits_effEncode (n : Nat) (s : State) (w : Wr) (hp : [.dict, .ev, .codec] ⊆ pcs) :
    (effEncode n s w).act.All (Prim.Fits pcs) := by simp_all [effEncode]

@[simp] theorem fits_effFlush (n : Nat) (s : State) (w : Wr) (hp : [.mem, .dict, .ev, .codec, .dram] ⊆ pcs) :
    (effFlush n s w).act.All (Prim.Fits pcs) := by simp_all [effFlush]

@[simp] theorem fits_effSpoolResume (n : Nat) (s : State) (w : Wr) (hp : [.mem, .dict, .ev, .codec, .dram] ⊆ pcs) :
    (effSpoolResume n s w).act.All (Prim.Fits pcs) := by simp_all [effSpoolResume]

@[simp] theorem fits_effCodec (idx sub : Nat) (s : State) (w : Wr) (hp : [.mem, .dict, .ev, .codec, .comp, .fire,
    .dram, .net] ⊆ pcs) :
    (effCodec idx sub s w).act.All (Prim.Fits pcs) := by
  simp only [List.cons_subset] at hp
  generalize he : effCodec idx sub = e
  unfold effCodec at he
  split at he <;> subst he <;> simp [ite_apply, hp]

/-! ### DramLoss -/

@[simp] theorem fits_forgetPackage (hp : [.dict, .comp] ⊆ pcs) :
    forgetPackage.All (Prim.Fits pcs) := by simp_all +contextual [forgetPackage, Comp.Sized]

@[simp] theorem fits_forgetDram (hp : [.mem, .dict, .codec, .comp, .loop, .dram, .net] ⊆ pcs) :
    forgetDram.All (Prim.Fits pcs) := by simp_all +contextual [forgetDram, Dram.Sized, Net.Sized]

/-! ### Memory -/

@[simp] theorem fits_errorResponse (who : Initiator) (addr : Nat) :
    (errorResponse who addr).All (Prim.Fits pcs) := by
  unfold errorResponse
  split <;> simp_all

@[simp] theorem fits_memEvent (n sc : Nat) (hp : [.dict, .ev] ⊆ pcs) :
    (memEvent n sc).All (Prim.Fits pcs) := by simp_all [memEvent]

@[simp] theorem fits_remapStore (hp : [.dict] ⊆ pcs) :
    remapStore.All (Prim.Fits pcs) := by simp_all [remapStore]

@[simp] theorem fits_rebuildMap (hp : [.dict] ⊆ pcs) :
    rebuildMap.All (Prim.Fits pcs) := by simp_all [rebuildMap]

@[simp] theorem fits_retireSubchannel (sc : Nat) (hp : [.mem, .dict, .ev, .sys, .codec, .comp, .fire, .loop, .dram,
    .net, .time] ⊆ pcs) :
    (retireSubchannel sc).All (Prim.Fits pcs) := by simp_all [retireSubchannel]

@[simp] theorem fits_memFault (sc event addr : Nat) (hp : [.mem, .dict, .ev, .sys, .codec, .comp, .fire, .loop,
    .dram, .net, .time, .health] ⊆ pcs) :
    (memFault sc event addr).All (Prim.Fits pcs) := by simp_all [memFault]

@[simp] theorem fits_correctedRead (sc rank addr : Nat) (errors : List (Nat × Nat)) (hp : [.mem, .dict, .ev, .sys,
    .codec, .comp, .fire, .loop, .dram, .net, .time, .health] ⊆ pcs) :
    (correctedRead sc rank addr errors).All (Prim.Fits pcs) := by simp_all +contextual [correctedRead, Dram.Sized]

@[simp] theorem fits_poisonedRead (sc : Nat) (who : Initiator) (addr : Nat) (hp : [.dict, .ev] ⊆ pcs) :
    (poisonedRead sc who addr).All (Prim.Fits pcs) := by simp_all [poisonedRead]

@[simp] theorem fits_deliver (who : Initiator) (addr : Nat) :
    (deliver who addr).All (Prim.Fits pcs) := by simp_all [deliver]

@[simp] theorem fits_readBurst (sc : Nat) (who : Initiator) (addr : Nat) (read : BurstRead) (hp : [.mem, .dict,
    .ev, .sys, .codec, .comp, .fire, .loop, .dram, .net, .time, .health] ⊆ pcs) :
    (readBurst sc who addr read).All (Prim.Fits pcs) := by
  simp only [readBurst, Act.all_read]
  intro s
  (repeat' split) <;> simp_all +contextual [Dram.Sized]

@[simp] theorem fits_openRow (sc addr : Nat) (hp : [.dram] ⊆ pcs) :
    (openRow sc addr).All (Prim.Fits pcs) := by simp_all +contextual [openRow, Dram.Sized]

@[simp] theorem fits_writeBurst (sc addr : Nat) (l : List Nat) (hp : [.mem, .dram] ⊆ pcs) :
    (writeBurst sc addr l).All (Prim.Fits pcs) := by simp_all +contextual [writeBurst, Dram.Sized]

@[simp] theorem fits_effMarkClear (sc : Nat) (s : State) (w : Wr) (hp : [.dict, .dram] ⊆ pcs) :
    (effMarkClear sc s w).act.All (Prim.Fits pcs) := by simp_all +contextual [effMarkClear, Dram.Sized]

@[simp] theorem fits_setOwed (sc key n : Nat) (hp : [.dram] ⊆ pcs) :
    (setOwed sc key n).All (Prim.Fits pcs) := by simp_all +contextual [setOwed, Dram.Sized]

@[simp] theorem fits_enterSelfRefresh (hp : [.mem, .dict, .ev, .dram] ⊆ pcs) :
    enterSelfRefresh.All (Prim.Fits pcs) := by simp_all +contextual [enterSelfRefresh, Dram.Sized]

@[simp] theorem fits_applyOverlap (hp : [.mem, .dict, .tone, .health] ⊆ pcs) :
    applyOverlap.All (Prim.Fits pcs) := by
  simp only [applyOverlap, Act.all_read]
  intro s
  split <;> simp_all +contextual [Health.Sized]

@[simp] theorem fits_firstPointTrained (intact : Bool) (hp : [.mem, .dict, .ev, .codec, .comp, .tone, .loop, .dram,
    .net, .health] ⊆ pcs) :
    (firstPointTrained intact).All (Prim.Fits pcs) := by simp_all +contextual [firstPointTrained, Dram.Sized]

@[simp] theorem fits_trainingFails (sc : Nat) (hp : [.mem, .dict, .ev, .sys, .codec, .comp, .fire, .loop, .dram,
    .net, .time, .health] ⊆ pcs) :
    (trainingFails sc).All (Prim.Fits pcs) := by simp_all [trainingFails]

@[simp] theorem fits_showTraining (sc : Nat) (hp : [.dict] ⊆ pcs) :
    (showTraining sc).All (Prim.Fits pcs) := by simp_all [showTraining]

@[simp] theorem fits_effRetrain (s : State) (w : Wr) (hp : [.dram] ⊆ pcs) :
    (effRetrain s w).act.All (Prim.Fits pcs) := by simp_all +contextual [effRetrain, Dram.Sized]

@[simp] theorem fits_effRingArea (s : State) (w : Wr) (hp : [.dict] ⊆ pcs) :
    (effRingArea s w).act.All (Prim.Fits pcs) := by simp_all [effRingArea]

@[simp] theorem fits_effMemory (idx sub : Nat) (s : State) (w : Wr) (hp : [.dict, .dram] ⊆ pcs) :
    (effMemory idx sub s w).act.All (Prim.Fits pcs) := by
  simp only [List.cons_subset] at hp
  generalize he : effMemory idx sub = e
  unfold effMemory at he
  split at he <;> subst he <;> simp [ite_apply, hp]

/-! ### Dma -/

@[simp] theorem fits_dmaCause (c cause : Nat) (hp : [.dict, .ev] ⊆ pcs) :
    (dmaCause c cause).All (Prim.Fits pcs) := by simp_all [dmaCause]

@[simp] theorem fits_dmaEnd (c status cause : Nat) (hp : [.dict, .ev, .dma] ⊆ pcs) :
    (dmaEnd c status cause).All (Prim.Fits pcs) := by simp_all [dmaEnd]

@[simp] theorem fits_programFault (c idx code : Nat) (hp : [.dict, .ev, .dma] ⊆ pcs) :
    (programFault c idx code).All (Prim.Fits pcs) := by simp_all [programFault]

@[simp] theorem fits_effChannelStart (c : Nat) (s : State) (w : Wr) (hp : [.dict, .ev, .dma] ⊆ pcs) :
    (effChannelStart c s w).act.All (Prim.Fits pcs) := by
  simp only [effChannelStart, all_act_ite_iff]
  refine ⟨fun _ => trivial, fun _ => ⟨fun _ => trivial, fun _ => ⟨fun _ => by simp_all, fun _ => ⟨fun _ => by simp_all, fun _ => ?_⟩⟩⟩⟩
  split <;> simp_all

@[simp] theorem fits_dmaNext (c : Nat) (hp : [.dict, .dma] ⊆ pcs) :
    (dmaNext c).All (Prim.Fits pcs) := by simp_all [dmaNext]

@[simp] theorem fits_dmaBegin (op c : Nat) (hp : [.dict, .dma] ⊆ pcs) :
    (dmaBegin op c).All (Prim.Fits pcs) := by simp_all [dmaBegin]

@[simp] theorem fits_dmaStopped (c : Nat) (hp : [.dict, .ev, .dma] ⊆ pcs) :
    (dmaStopped c).All (Prim.Fits pcs) := by simp_all [dmaStopped]

@[simp] theorem fits_effChannelStop (c : Nat) (s : State) (w : Wr) (hp : [.dict, .ev, .dma] ⊆ pcs) :
    (effChannelStop c s w).act.All (Prim.Fits pcs) := by simp_all [effChannelStop]

@[simp] theorem fits_dmaStore (a : Nat) (l : List Nat) (hp : [.mem, .dict, .dram] ⊆ pcs) :
    (dmaStore a l).All (Prim.Fits pcs) := by simp_all [dmaStore]

@[simp] theorem fits_dmaComplete (c : Nat) (hp : [.dict, .ev, .dma] ⊆ pcs) :
    (dmaComplete c).All (Prim.Fits pcs) := by simp_all [dmaComplete]

@[simp] theorem fits_burstPassed (c n : Nat) (hp : [.dict, .ev, .dma] ⊆ pcs) :
    (burstPassed c n).All (Prim.Fits pcs) := by simp_all [burstPassed]

@[simp] theorem fits_burstEffect (c n : Nat) (hp : [.mem, .dict, .ev, .dram, .dma] ⊆ pcs) :
    (burstEffect c n).All (Prim.Fits pcs) := by
  simp only [burstEffect, Act.all_read]
  intro s
  (repeat' split) <;> simp_all

@[simp] theorem fits_burstEnd (c n : Nat) (bad : Option Nat) (hp : [.mem, .dict, .ev, .dram, .dma] ⊆ pcs) :
    (burstEnd c n bad).All (Prim.Fits pcs) := by
  simp only [burstEnd, Act.all_read]
  intro s
  split <;> simp_all

@[simp] theorem fits_burstStart (c : Nat) (hp : [.dict, .dma] ⊆ pcs) :
    (burstStart c).All (Prim.Fits pcs) := by simp_all +contextual [burstStart, Dma.Sized]

@[simp] theorem fits_effSoftRequest (s : State) (w : Wr) (hp : [.dict] ⊆ pcs) :
    (effSoftRequest s w).act.All (Prim.Fits pcs) := by simp_all [effSoftRequest]

@[simp] theorem fits_dmaDisableAll (hp : [.mem, .dict, .ev, .dram, .dma] ⊆ pcs) :
    dmaDisableAll.All (Prim.Fits pcs) := by
  simp only [dmaDisableAll, all_each_iff, Act.all_read, all_ite_iff]
  refine fun c _ s => ⟨fun _ => ⟨?_, ?_⟩, fun _ => trivial⟩
  · split <;> simp_all
  · simp_all

@[simp] theorem fits_effDma (idx sub : Nat) (s : State) (w : Wr) (hp : [.dict, .ev, .dma] ⊆ pcs) :
    (effDma idx sub s w).act.All (Prim.Fits pcs) := by
  simp only [List.cons_subset] at hp
  simp [effDma, ite_apply, hp]

/-! ### Ingest -/

@[simp] theorem fits_dropDatagram (hp : [.dict] ⊆ pcs) :
    dropDatagram.All (Prim.Fits pcs) := by simp_all [dropDatagram]

@[simp] theorem fits_discardObject (hp : [.dict] ⊆ pcs) :
    discardObject.All (Prim.Fits pcs) := by simp_all [discardObject]

@[simp] theorem fits_beforeNetReady (port : Nat) (hp : [.dict, .ev, .sys] ⊆ pcs) :
    (beforeNetReady port).All (Prim.Fits pcs) := by simp_all [beforeNetReady]

@[simp] theorem fits_jobIncomplete (id : Nat) (hp : [.mem, .dict, .codec, .dram] ⊆ pcs) :
    (jobIncomplete id).All (Prim.Fits pcs) := by simp_all [jobIncomplete]

@[simp] theorem fits_failFlow (f : Nat) (hp : [.mem, .dict, .codec, .dram, .net] ⊆ pcs) :
    (failFlow f).All (Prim.Fits pcs) := by simp_all [failFlow]

@[simp] theorem fits_acceptHeader (f : Nat) (h : List Nat) (hp : [.mem, .dict, .ev, .codec, .dram, .net] ⊆ pcs) :
    (acceptHeader f h).All (Prim.Fits pcs) := by
  simp only [List.cons_subset] at hp
  simp only [acceptHeader, Act.all_read]
  intro s
  simp only [all_seqs_cons, Act.all_read]
  refine ⟨by simp_all [Codec.Sized], by simp_all, by simp_all [Codec.Sized], by simp_all, fun s => ?_, by simp_all, trivial⟩
  split
  · trivial
  · split <;> simp_all

@[simp] theorem fits_takeHeader (f : Nat) (h : List Nat) (hp : [.mem, .dict, .ev, .codec, .dram, .net] ⊆ pcs) :
    (takeHeader f h).All (Prim.Fits pcs) := by simp_all [takeHeader]

@[simp] theorem fits_noteStrip (x : Stream) (obj : List Nat) (fresh : Bool) (hp : [.mem, .dict, .codec, .dram] ⊆ pcs) :
    (noteStrip x obj fresh).All (Prim.Fits pcs) := by simp_all [noteStrip]

@[simp] theorem fits_storeStrip (x : Stream) (j : Job) (obj : List Nat) (hp : [.mem, .dict, .ev, .codec, .dram] ⊆ pcs) :
    (storeStrip x j obj).All (Prim.Fits pcs) := by
  simp only [storeStrip, Act.all_read]
  intro s
  (repeat' split) <;> simp_all

@[simp] theorem fits_spoolStrip (x : Stream) (obj : List Nat) (hp : [.mem, .dict, .codec, .dram, .net] ⊆ pcs) :
    (spoolStrip x obj).All (Prim.Fits pcs) := by simp_all +contextual [spoolStrip, Codec.Sized, Net.Sized]

@[simp] theorem fits_takeStripObject (f : Nat) (obj : List Nat) (hp : [.mem, .dict, .ev, .codec, .dram, .net] ⊆ pcs) :
    (takeStripObject f obj).All (Prim.Fits pcs) := by
  simp only [takeStripObject, Act.all_read]
  intro s
  (repeat' split) <;> simp_all

@[simp] theorem fits_parseFlow (x1 x2 : Nat) (hp : [.mem, .dict, .ev, .codec, .dram, .net] ⊆ pcs) :
    (parseFlow x1 x2).All (Prim.Fits pcs) := by
  induction x1 with
  | zero => trivial
  | succ fuel ih => simp_all [parseFlow]

@[simp] theorem fits_takeData (f : Nat) (last : Bool) (data : List Nat) (hp : [.mem, .dict, .ev, .codec, .dram,
    .net] ⊆ pcs) :
    (takeData f last data).All (Prim.Fits pcs) := by simp_all [takeData]

@[simp] theorem fits_takeHeld (x1 x2 : Nat) (hp : [.mem, .dict, .ev, .codec, .dram, .net] ⊆ pcs) :
    (takeHeld x1 x2).All (Prim.Fits pcs) := by
  induction x1 with
  | zero => trivial
  | succ fuel ih =>
    simp only [takeHeld, Act.all_read]
    intro s
    split <;> simp_all

@[simp] theorem fits_endFlow (f : Nat) (hp : [.dict, .net] ⊆ pcs) :
    (endFlow f).All (Prim.Fits pcs) := by simp_all [endFlow]

@[simp] theorem fits_closeFlow (f : Nat) (hp : [.dict, .net] ⊆ pcs) :
    (closeFlow f).All (Prim.Fits pcs) := by simp_all [closeFlow]

@[simp] theorem fits_settleFlow (f : Nat) (hp : [.dict, .net] ⊆ pcs) :
    (settleFlow f).All (Prim.Fits pcs) := by simp_all [settleFlow]

@[simp] theorem fits_holdData (f : Nat) (h : HeldData) (hp : [.dict, .ev, .net] ⊆ pcs) :
    (holdData f h).All (Prim.Fits pcs) := by simp_all [holdData]

@[simp] theorem fits_openFlow (f : Nat) (host : Host4) (hp : [.dict, .net] ⊆ pcs) :
    (openFlow f host).All (Prim.Fits pcs) := by simp_all [openFlow]

@[simp] theorem fits_flowData (f : Nat) (d : List Nat) (hp : [.mem, .dict, .ev, .codec, .dram, .net] ⊆ pcs) :
    (flowData f d).All (Prim.Fits pcs) := by simp_all [flowData]

@[simp] theorem fits_sendNack (f : Nat) (hp : [.dict, .net] ⊆ pcs) :
    (sendNack f).All (Prim.Fits pcs) := by simp_all [sendNack]

/-! ### Ethernet -/

@[simp] theorem fits_forwardPtp (p q o dwell : Nat) (d : List Nat) (hp : [.dict] ⊆ pcs) :
    (forwardPtp p q o dwell d).All (Prim.Fits pcs) := by simp_all [forwardPtp]

@[simp] theorem fits_transparentForward (p : Nat) (d dwell : List Nat) (hp : [.dict] ⊆ pcs) :
    (transparentForward p d dwell).All (Prim.Fits pcs) := by
  unfold transparentForward
  split <;> simp_all

/-! ### Ptp -/

@[simp] theorem fits_lockLost (port state : Nat) (hp : [.dict, .ev, .time] ⊆ pcs) :
    (lockLost port state).All (Prim.Fits pcs) := by simp_all [lockLost]

@[simp] theorem fits_slew (hp : [.time] ⊆ pcs) :
    slew.All (Prim.Fits pcs) := by simp_all [slew]

@[simp] theorem fits_judgeLock (port : Nat) (offset : Int) (hp : [.dict, .ev, .time] ⊆ pcs) :
    (judgeLock port offset).All (Prim.Fits pcs) := by simp_all [judgeLock]

@[simp] theorem fits_steer (port : Nat) (offset : Int) (hp : [.dict, .ev, .time] ⊆ pcs) :
    (steer port offset).All (Prim.Fits pcs) := by simp_all [steer]

@[simp] theorem fits_chooseMaster (port gm : Nat) (hp : [.dict, .ev] ⊆ pcs) :
    (chooseMaster port gm).All (Prim.Fits pcs) := by simp_all [chooseMaster]

@[simp] theorem fits_decideMaster (port : Nat) (hp : [.dict, .ev, .time] ⊆ pcs) :
    (decideMaster port).All (Prim.Fits pcs) := by
  simp only [decideMaster, Act.all_read]
  intro s
  split <;> simp_all

@[simp] theorem fits_latchTime (p : WPath) (hp : [.time] ⊆ pcs) :
    (latchTime p).All (Prim.Fits pcs) := by simp_all [latchTime]

@[simp] theorem fits_restartClock (hp : [.dict, .time] ⊆ pcs) :
    restartClock.All (Prim.Fits pcs) := by simp_all [restartClock]

/-! ### Tether -/

@[simp] theorem fits_tagFailed (nic : Nat) (hp : [.dict, .ev] ⊆ pcs) :
    (tagFailed nic).All (Prim.Fits pcs) := by simp_all [tagFailed]

@[simp] theorem fits_withSession (kind : Nat) (h : Host4) (d : List Nat) (f : Nat → Session → Act) (hp : [.dict,
    .ev, .net] ⊆ pcs) (hf : ∀ a b, (f a b).All (Prim.Fits pcs)) :
    (withSession kind h d f).All (Prim.Fits pcs) := by
  simp only [withSession, Act.all_read]
  intro s
  (repeat' split) <;> simp_all

@[simp] theorem fits_rejectHello (h : Host4) (reason : Nat) :
    (rejectHello h reason).All (Prim.Fits pcs) := by simp_all [rejectHello]

@[simp] theorem fits_forgetChallenge (i : Nat) (hp : [.net] ⊆ pcs) :
    (forgetChallenge i).All (Prim.Fits pcs) := by simp_all +contextual [forgetChallenge, Net.Sized]

@[simp] theorem fits_effAddress (key port : Nat) (s : State) (w : Wr) (hp : [.dict, .ev, .pos, .net, .time,
    .sec] ⊆ pcs) :
    (effAddress key port s w).act.All (Prim.Fits pcs) := by simp_all +contextual [effAddress, Net.Sized]

/-! ### Resets -/

@[simp] theorem fits_setStatus (f v : Nat) (hp : [.dict, .ev] ⊆ pcs) :
    (setStatus f v).All (Prim.Fits pcs) := by simp_all [setStatus]

@[simp] theorem fits_syncFunctions (i : Nat) (hp : [.dict, .ev] ⊆ pcs) :
    (syncFunctions i).All (Prim.Fits pcs) := by simp_all [syncFunctions]

@[simp] theorem fits_setReady (i : Nat) (on : Bool) (hp : [.dict, .ev] ⊆ pcs) :
    (setReady i on).All (Prim.Fits pcs) := by simp_all [setReady]

@[simp] theorem fits_resetEntries (i : Nat) (hp : [.dict] ⊆ pcs) :
    (resetEntries i).All (Prim.Fits pcs) := by simp_all [resetEntries]

@[simp] theorem fits_clearClass (c : Nat) (hp : [.mem, .health] ⊆ pcs) :
    (clearClass c).All (Prim.Fits pcs) := by simp_all +contextual [clearClass, Health.Sized]

@[simp] theorem fits_resetMem (hp : [.mem, .dict, .ev, .dram] ⊆ pcs) :
    resetMem.All (Prim.Fits pcs) := by simp_all +contextual [resetMem, Dram.Sized]

@[simp] theorem fits_resetTone (hp : [.mem, .dict, .tone] ⊆ pcs) :
    resetTone.All (Prim.Fits pcs) := by simp_all [resetTone]

@[simp] theorem fits_resetComp (hp : [.mem, .dict, .comp] ⊆ pcs) :
    resetComp.All (Prim.Fits pcs) := by simp_all +contextual [resetComp, Comp.Sized]

@[simp] theorem fits_resetCodec (hp : [.mem, .dict, .codec, .health] ⊆ pcs) :
    resetCodec.All (Prim.Fits pcs) := by simp_all +contextual [resetCodec, Codec.Sized]

@[simp] theorem fits_resetFire (hp : [.dict, .fire] ⊆ pcs) :
    resetFire.All (Prim.Fits pcs) := by
  simp only [List.cons_subset] at hp
  simp only [resetFire, all_seqs_cons, Act.all_prim, fits_fire, hp, true_and]
  exact ⟨fun _ _ => Fire.sized_fresh _, by simp [hp], trivial⟩

@[simp] theorem fits_resetLink (hp : [.mem, .dict, .link, .health] ⊆ pcs) :
    resetLink.All (Prim.Fits pcs) := by simp_all +contextual [resetLink, Links.Sized]

@[simp] theorem fits_resetCam (hp : [.mem, .dict, .ev, .tone, .cam, .loop, .health] ⊆ pcs) :
    resetCam.All (Prim.Fits pcs) := by simp_all +contextual [resetCam, Cam.Sized]

@[simp] theorem fits_resetNet (hp : [.dict, .ev, .pos, .net, .time, .sec] ⊆ pcs) :
    resetNet.All (Prim.Fits pcs) := by simp_all +contextual [resetNet, Net.Sized]

@[simp] theorem fits_resetTime (hp : [.mem, .dict, .ev, .pos, .tone, .ill, .loop, .time, .health] ⊆ pcs) :
    resetTime.All (Prim.Fits pcs) := by simp_all +contextual [resetTime, Pos.Sized]

@[simp] theorem fits_resetFab (hp : [.mem, .dict, .ev, .dram, .dma] ⊆ pcs) :
    resetFab.All (Prim.Fits pcs) := by simp_all +contextual [resetFab, Dma.Sized]

@[simp] theorem fits_resetIsland (i : Nat) (hp : [.mem, .dict, .ev, .pos, .codec, .comp, .tone, .fire, .link, .cam,
    .ill, .loop, .dram, .dma, .net, .time, .health, .sec] ⊆ pcs) :
    (resetIsland i).All (Prim.Fits pcs) := by
  unfold resetIsland
  split <;> simp_all

@[simp] theorem fits_warmTone (hp : [.dict, .ev, .tone] ⊆ pcs) :
    warmTone.All (Prim.Fits pcs) := by simp_all [warmTone]

@[simp] theorem fits_warmComp (hp : [.mem, .dict, .ev, .comp] ⊆ pcs) :
    warmComp.All (Prim.Fits pcs) := by simp_all +contextual [warmComp, Comp.Sized]

@[simp] theorem fits_warmIllumination (hp : [.mem, .dict, .ill, .health] ⊆ pcs) :
    warmIllumination.All (Prim.Fits pcs) := by simp_all [warmIllumination]

@[simp] theorem fits_loadCounts (hp : [.dict] ⊆ pcs) :
    loadCounts.All (Prim.Fits pcs) := by simp_all [loadCounts]

@[simp] theorem fits_resetCtl (hp : [.mem, .dict, .ev, .sys, .can, .pos, .loop, .net, .time, .health, .bridle,
    .sec] ⊆ pcs) :
    resetCtl.All (Prim.Fits pcs) := by simp_all +contextual [resetCtl, CanSt.Sized, Pos.Sized, Health.Sized]

@[simp] theorem fits_resetWarmIslands (hp : ∀ q : Piece, q ∈ pcs) :
    resetWarmIslands.All (Prim.Fits pcs) := by simp [resetWarmIslands, hp, Codec.Sized, -List.reduceReplicate]

@[simp] theorem fits_warmRelease (cause delay : Nat) (hp : [.dict, .ev, .sys] ⊆ pcs) :
    (warmRelease cause delay).All (Prim.Fits pcs) := by simp_all [warmRelease]

@[simp] theorem fits_warmReset (cause : Nat) (hp : ∀ q : Piece, q ∈ pcs) :
    (warmReset cause).All (Prim.Fits pcs) := by simp_all [warmReset]

@[simp] theorem fits_loseUnpowered (hp : [.mem, .dict, .ev, .pos, .codec, .comp, .tone, .fire, .link, .cam, .ill,
    .loop, .dram, .dma, .net, .time, .health, .sec] ⊆ pcs) :
    loseUnpowered.All (Prim.Fits pcs) := by simp_all [loseUnpowered]

@[simp] theorem fits_powerOnReset (cause : Nat) (cold : Bool) (hp : ∀ q : Piece, q ∈ pcs) :
    (powerOnReset cause cold).All (Prim.Fits pcs) := by simp [powerOnReset, hp, Health.Sized, -List.reduceReplicate]

/-! ### Functions -/

@[simp] theorem fits_functionRefused (f code : Nat) (hp : [.dict] ⊆ pcs) :
    (functionRefused f code).act.All (Prim.Fits pcs) := by simp_all [functionRefused]

@[simp] theorem fits_startEffects (f : Nat) (hp : [.mem, .dict, .ev, .tone, .ill, .loop] ⊆ pcs) :
    (startEffects f).All (Prim.Fits pcs) := by simp_all [startEffects]

@[simp] theorem fits_stopEffects (f : Nat) (hp : [.mem, .dict, .ev, .codec, .tone, .ill, .loop, .dram, .net] ⊆ pcs) :
    (stopEffects f).All (Prim.Fits pcs) := by simp_all +contextual [stopEffects, Codec.Sized]

@[simp] theorem fits_effFunction (f : Nat) (s : State) (w : Wr) (hp : [.mem, .dict, .ev, .tone, .ill, .loop] ⊆ pcs) :
    (effFunction f s w).act.All (Prim.Fits pcs) := by simp_all [effFunction]

@[simp] theorem fits_gateNote (idx sub : Nat) (w : Wr) (hp : [.dict, .ev] ⊆ pcs) :
    (gateNote idx sub w).All (Prim.Fits pcs) := by simp_all [gateNote]

@[simp] theorem fits_effLinkInk (l : Nat) (s : State) (w : Wr) (hp : [.dict, .tone] ⊆ pcs) :
    (effLinkInk l s w).act.All (Prim.Fits pcs) := by simp_all [effLinkInk]

@[simp] theorem fits_takeSlot (c len : Nat) (hp : [.dict, .sys, .dma] ⊆ pcs) :
    (takeSlot c len).All (Prim.Fits pcs) := by simp_all +contextual [takeSlot, Dma.Sized]

@[simp] theorem fits_forcedSlot (c : Nat) (hp : [.dict, .sys, .dma] ⊆ pcs) :
    (forcedSlot c).All (Prim.Fits pcs) := by simp_all [forcedSlot]

/-! ### Modes -/

@[simp] theorem fits_modeRefused (code : Nat) (hp : [.dict, .ev] ⊆ pcs) :
    (modeRefused code).All (Prim.Fits pcs) := by simp_all [modeRefused]

@[simp] theorem fits_modeAtOnce (n : Nat) (hp : [.mem, .dict, .ev, .tone, .fire, .loop, .dram, .time] ⊆ pcs) :
    (modeAtOnce n).All (Prim.Fits pcs) := by simp_all +contextual [modeAtOnce, Dram.Sized]

@[simp] theorem fits_pendMode (n : Nat) (hp : [.dict, .sys, .fire, .dram] ⊆ pcs) :
    (pendMode n).All (Prim.Fits pcs) := by
  simp only [pendMode, Act.all_read]
  intro s
  split <;> simp_all +contextual [Dram.Sized]

@[simp] theorem fits_takeMode (n : Nat) (hp : [.mem, .dict, .ev, .sys, .tone, .fire, .loop, .dram, .time] ⊆ pcs) :
    (takeMode n).All (Prim.Fits pcs) := by simp_all [takeMode]

@[simp] theorem fits_dropPending (hp : [.dict, .ev, .fire, .dram] ⊆ pcs) :
    dropPending.All (Prim.Fits pcs) := by simp_all +contextual [dropPending, Dram.Sized]

@[simp] theorem fits_lockCheck (hp : [.sys] ⊆ pcs) :
    lockCheck.All (Prim.Fits pcs) := by simp_all [lockCheck]

@[simp] theorem fits_effModeRequest (s : State) (w : Wr) (hp : [.mem, .dict, .ev, .sys, .tone, .fire, .loop, .dram,
    .time] ⊆ pcs) :
    (effModeRequest s w).act.All (Prim.Fits pcs) := by simp_all [effModeRequest]

@[simp] theorem fits_promoteQueued (hp : [.mem, .dict, .ev, .sys, .tone, .fire, .loop, .dram, .time] ⊆ pcs) :
    promoteQueued.All (Prim.Fits pcs) := by simp_all [promoteQueued]

@[simp] theorem fits_effOrderlyStop (s : State) (w : Wr) (hp : [.mem, .dict, .ev, .sys, .tone, .fire, .loop, .dram,
    .time] ⊆ pcs) :
    (effOrderlyStop s w).act.All (Prim.Fits pcs) := by simp_all [effOrderlyStop]

@[simp] theorem fits_speedEvent (above : Bool) (hp : [.ev, .sys] ⊆ pcs) :
    (speedEvent above).All (Prim.Fits pcs) := by simp_all [speedEvent]

@[simp] theorem fits_speedWatch (turned : Bool) (hp : [.mem, .dict, .ev, .sys, .tone, .fire, .loop, .dram,
    .time] ⊆ pcs) :
    (speedWatch turned).All (Prim.Fits pcs) := by
  simp only [speedWatch, Act.all_read]
  intro s
  split <;> simp_all

/-! ### Health -/

@[simp] theorem fits_thermalLog (event : Nat) (hp : [.mem, .dict, .ev] ⊆ pcs) :
    (thermalLog event).All (Prim.Fits pcs) := by simp_all [thermalLog]

@[simp] theorem fits_shutdownRecord (kind : Nat) (hp : [.dict] ⊆ pcs) :
    (shutdownRecord kind).All (Prim.Fits pcs) := by simp_all [shutdownRecord]

@[simp] theorem fits_holdAtOnce (kind : Nat) (hp : ∀ q : Piece, q ∈ pcs) :
    (holdAtOnce kind).All (Prim.Fits pcs) := by simp_all +contextual [holdAtOnce, Codec.Sized, Dram.Sized, Health.Sized]

@[simp] theorem fits_saveLog (hp : [.dict, .health] ⊆ pcs) :
    saveLog.All (Prim.Fits pcs) := by simp_all +contextual [saveLog, Health.Sized]

@[simp] theorem fits_beginShutdown (hp : [.mem, .dict, .ev, .sys, .tone, .fire, .link, .loop, .dram, .time,
    .health] ⊆ pcs) :
    beginShutdown.All (Prim.Fits pcs) := by simp_all +contextual [beginShutdown, Health.Sized]

@[simp] theorem fits_endShutdown (hp : ∀ q : Piece, q ∈ pcs) :
    endShutdown.All (Prim.Fits pcs) := by simp_all [endShutdown]

@[simp] theorem fits_shutdownCrossed (hp : ∀ q : Piece, q ∈ pcs) :
    shutdownCrossed.All (Prim.Fits pcs) := by simp_all +contextual [shutdownCrossed, Health.Sized]

@[simp] theorem fits_throttleTime (hp : [.dict, .health] ⊆ pcs) :
    throttleTime.All (Prim.Fits pcs) := by
  simp only [throttleTime, Act.all_read]
  intro s
  split <;> simp_all +contextual [Health.Sized]

@[simp] theorem fits_lowerThresholds (v : Int) (hp : [.mem, .dict, .ev, .health] ⊆ pcs) :
    (lowerThresholds v).All (Prim.Fits pcs) := by
  simp only [lowerThresholds, Act.all_read]
  intro s
  (repeat' split) <;> simp_all +contextual [Health.Sized]

@[simp] theorem fits_thermalState (hp : [.dict] ⊆ pcs) :
    thermalState.All (Prim.Fits pcs) := by simp_all [thermalState]

@[simp] theorem fits_sensorCheck (hp : [.mem, .dict, .ev, .health] ⊆ pcs) :
    sensorCheck.All (Prim.Fits pcs) := by simp_all +contextual [sensorCheck, Health.Sized]

@[simp] theorem fits_hardRelease (hp : [.ev, .health] ⊆ pcs) :
    hardRelease.All (Prim.Fits pcs) := by simp_all +contextual [hardRelease, Health.Sized]

@[simp] theorem fits_temperatureStep (hp : ∀ q : Piece, q ∈ pcs) :
    temperatureStep.All (Prim.Fits pcs) := by
  simp only [temperatureStep, Act.all_read]
  intro s
  (repeat' split) <;> simp_all +contextual [Health.Sized]

@[simp] theorem fits_effThermalTrim (s : State) (w : Wr) (hp : [.dict, .health] ⊆ pcs) :
    (effThermalTrim s w).act.All (Prim.Fits pcs) := by simp_all +contextual [effThermalTrim, Health.Sized]

@[simp] theorem fits_effThreshold (key : Nat) (s : State) (w : Wr) (hp : [.dict] ⊆ pcs) :
    (effThreshold key s w).act.All (Prim.Fits pcs) := by simp_all [effThreshold]

@[simp] theorem fits_effTemperatureMax (s : State) (w : Wr) (hp : [.dict] ⊆ pcs) :
    (effTemperatureMax s w).act.All (Prim.Fits pcs) := by simp_all [effTemperatureMax]

@[simp] theorem fits_effLogSave (s : State) (w : Wr) (hp : [.dict, .health] ⊆ pcs) :
    (effLogSave s w).act.All (Prim.Fits pcs) := by simp_all [effLogSave]

@[simp] theorem fits_effRecordSave (s : State) (w : Wr) (hp : [.dict, .health] ⊆ pcs) :
    (effRecordSave s w).act.All (Prim.Fits pcs) := by simp_all +contextual [effRecordSave, Health.Sized]

@[simp] theorem fits_applyCoefficients (r : CalRecord) (p : Nat) (hp : [.mem, .dict, .cam] ⊆ pcs) :
    (applyCoefficients r p).All (Prim.Fits pcs) := by simp_all [applyCoefficients]

@[simp] theorem fits_applyRecord (kind : Nat) (r : CalRecord) (hp : [.mem, .dict, .tone, .cam, .health] ⊆ pcs) :
    (applyRecord kind r).All (Prim.Fits pcs) := by
  unfold applyRecord
  split <;> simp_all +contextual [Health.Sized]

@[simp] theorem fits_loadRecords (mask : Nat) (kinds : List Nat) (hp : [.mem, .dict, .tone, .cam, .health] ⊆ pcs) :
    (loadRecords mask kinds).All (Prim.Fits pcs) := by
  simp only [loadRecords, Act.all_read, all_each_iff]
  intro s k _
  split <;> simp_all

/-! ### Bringup -/

@[simp] theorem fits_returnedSteps (hp : [.dict, .sys, .health] ⊆ pcs) :
    returnedSteps.All (Prim.Fits pcs) := by simp_all +contextual [returnedSteps, Health.Sized]

@[simp] theorem fits_islandStarts (i : Nat) (hp : [.mem, .dict, .ev, .pos, .tone, .link, .cam, .time, .health] ⊆ pcs) :
    (islandStarts i).All (Prim.Fits pcs) := by
  unfold islandStarts
  split <;> simp_all +contextual [Pos.Sized]

@[simp] theorem fits_runImage (status slot : Nat) (x : Image) (hp : [.dict, .ev, .sys, .sec] ⊆ pcs) :
    (runImage status slot x).All (Prim.Fits pcs) := by simp_all [runImage]

@[simp] theorem fits_noImage (status code : Nat) (hp : [.dict, .sys] ⊆ pcs) :
    (noImage status code).All (Prim.Fits pcs) := by simp_all [noImage]

@[simp] theorem fits_loadSaved (hp : [.dict, .ev] ⊆ pcs) :
    loadSaved.All (Prim.Fits pcs) := by simp_all [loadSaved]

@[simp] theorem fits_bridleBegin (hp : [.dict, .bridle] ⊆ pcs) :
    bridleBegin.All (Prim.Fits pcs) := by simp_all [bridleBegin]

@[simp] theorem fits_bootUp (hp : [.ev, .can] ⊆ pcs) :
    bootUp.All (Prim.Fits pcs) := by simp_all +contextual [bootUp, CanSt.Sized]

@[simp] theorem fits_endHold (cause : Nat) (hp : [.dict, .ev, .sys, .health] ⊆ pcs) :
    (endHold cause).All (Prim.Fits pcs) := by simp_all +contextual [endHold, Health.Sized]

@[simp] theorem fits_warmTrigger (cause : Nat) (hp : ∀ q : Piece, q ∈ pcs) :
    (warmTrigger cause).All (Prim.Fits pcs) := by simp_all [warmTrigger]

@[simp] theorem fits_effWarmReset (s : State) (w : Wr) (hp : ∀ q : Piece, q ∈ pcs) :
    (effWarmReset s w).act.All (Prim.Fits pcs) := by simp_all [effWarmReset]

@[simp] theorem fits_effIslandReset (s : State) (w : Wr) (hp : [.mem, .dict, .ev, .sys, .pos, .codec, .comp, .tone,
    .fire, .link, .cam, .ill, .loop, .dram, .dma, .net, .time, .health, .sec] ⊆ pcs) :
    (effIslandReset s w).act.All (Prim.Fits pcs) := by simp_all [effIslandReset]

@[simp] theorem fits_effPowerCondition (s : State) (w : Wr) (hp : ∀ q : Piece, q ∈ pcs) :
    (effPowerCondition s w).act.All (Prim.Fits pcs) := by simp_all [effPowerCondition]

@[simp] theorem fits_wake (hp : [.sys] ⊆ pcs) :
    wake.All (Prim.Fits pcs) := by simp_all [wake]

/-! ### Bridle -/

@[simp] theorem fits_gainClaim (hp : [.dict, .ev, .link, .bridle] ⊆ pcs) :
    gainClaim.All (Prim.Fits pcs) := by simp_all [gainClaim]

@[simp] theorem fits_cancelReturn (hp : [.dict] ⊆ pcs) :
    cancelReturn.All (Prim.Fits pcs) := by simp_all [cancelReturn]

@[simp] theorem fits_sendPeer (payload : List Nat) :
    (sendPeer payload).All (Prim.Fits pcs) := by simp_all [sendPeer]

@[simp] theorem fits_sendHeartbeat (hp : [.bridle] ⊆ pcs) :
    sendHeartbeat.All (Prim.Fits pcs) := by simp_all [sendHeartbeat]

@[simp] theorem fits_sendMirror (full : Bool) (hp : [.bridle] ⊆ pcs) :
    (sendMirror full).All (Prim.Fits pcs) := by simp_all [sendMirror]

@[simp] theorem fits_mirrorDone (hp : [.dict, .ev] ⊆ pcs) :
    mirrorDone.All (Prim.Fits pcs) := by simp_all [mirrorDone]

@[simp] theorem fits_watchReturn (hp : [.dict, .bridle] ⊆ pcs) :
    watchReturn.All (Prim.Fits pcs) := by simp_all [watchReturn]

@[simp] theorem fits_holderHears (d : List Nat) (hp : [.dict, .ev, .bridle] ⊆ pcs) :
    (holderHears d).All (Prim.Fits pcs) := by
  simp only [holderHears, Act.all_read]
  intro s
  (repeat' split) <;> simp_all

@[simp] theorem fits_mirrorPosition (full : Bool) (d : List Nat) (hp : [.dict, .pos, .bridle] ⊆ pcs) :
    (mirrorPosition full d).All (Prim.Fits pcs) := by simp_all +contextual [mirrorPosition, Pos.Sized]

@[simp] theorem fits_mirrorStop (mode : Nat) (hp : [.mem, .dict, .ev, .sys, .tone, .fire, .loop, .dram, .time] ⊆ pcs) :
    (mirrorStop mode).All (Prim.Fits pcs) := by simp_all +contextual [mirrorStop, Fire.Sized, Dram.Sized]

@[simp] theorem fits_mirrorMode (actual pending copy : Nat) (hp : [.mem, .dict, .ev, .sys, .tone, .fire, .loop,
    .dram, .time] ⊆ pcs) :
    (mirrorMode actual pending copy).All (Prim.Fits pcs) := by simp_all [mirrorMode]

@[simp] theorem fits_mirrorCopy (d : List Nat) (hp : [.mem, .dict, .ev, .sys, .tone, .fire, .loop, .dram,
    .time] ⊆ pcs) :
    (mirrorCopy d).All (Prim.Fits pcs) := by simp_all +contextual [mirrorCopy, Fire.Sized]

@[simp] theorem fits_mirrorBank (d : List Nat) (hp : [.mem, .dict, .tone] ⊆ pcs) :
    (mirrorBank d).All (Prim.Fits pcs) := by simp_all [mirrorBank]

@[simp] theorem fits_mirrorLayer (d : List Nat) (hp : [.dict, .comp] ⊆ pcs) :
    (mirrorLayer d).All (Prim.Fits pcs) := by simp_all [mirrorLayer]

@[simp] theorem fits_mirrorSerial (d : List Nat) (hp : [.dict] ⊆ pcs) :
    (mirrorSerial d).All (Prim.Fits pcs) := by simp_all [mirrorSerial]

@[simp] theorem fits_mirrorIllum (d : List Nat) (hp : [.mem, .dict, .ev, .tone, .loop] ⊆ pcs) :
    (mirrorIllum d).All (Prim.Fits pcs) := by simp_all [mirrorIllum]

@[simp] theorem fits_mirrorApply (full : Bool) (kind : Nat) (d : List Nat) (hp : [.mem, .dict, .ev, .sys, .pos,
    .comp, .tone, .fire, .loop, .dram, .time, .bridle] ⊆ pcs) :
    (mirrorApply full kind d).All (Prim.Fits pcs) := by
  unfold mirrorApply
  split <;> simp_all

@[simp] theorem fits_takeOver (hp : [.dict, .fire, .link, .bridle] ⊆ pcs) :
    takeOver.All (Prim.Fits pcs) := by
  simp only [List.cons_subset] at hp
  simp only [takeOver, Act.all_read, all_seqs_cons, all_each_iff]
  intro s
  refine ⟨by simp [hp], by simp [hp], by simp [hp], by simp [hp], by simp, by simp [hp], fun p _ => ?_, trivial⟩
  split <;> simp [hp]

@[simp] theorem fits_returnAtBase (hp : [.mem, .dict, .ev, .tone, .link, .loop, .bridle] ⊆ pcs) :
    returnAtBase.All (Prim.Fits pcs) := by
  simp only [returnAtBase, Act.all_read]
  intro s
  (repeat' split) <;> simp_all

@[simp] theorem fits_effBridle (idx sub : Nat) (s : State) (w : Wr) (hp : [.dict, .link, .bridle] ⊆ pcs) :
    (effBridle idx sub s w).act.All (Prim.Fits pcs) := by simp_all [effBridle]

/-! ### Samples -/

@[simp] theorem fits_masterSample (c : Nat) (was : Chan) (wasTotal : Int) (nodes : List Nat) (hp : [.mem, .dict,
    .ev, .sys, .tone, .fire, .link, .cam, .ill, .loop, .dram, .time, .health, .bridle] ⊆ pcs) :
    (masterSample c was wasTotal nodes).All (Prim.Fits pcs) := by simp_all [masterSample]

@[simp] theorem fits_sample (c : Nat) (d : Int) (edge : Bool) (at' : Nat) (nodes : List Nat) (after : Act)
    (fault : Option Nat) (hp : [.mem, .dict, .ev, .sys, .pos, .tone, .fire, .link, .cam, .ill, .loop, .dram, .time,
    .health, .bridle] ⊆ pcs) (hafter : after.All (Prim.Fits pcs)) :
    (sample c d edge at' nodes after fault).All (Prim.Fits pcs) := by
  unfold sample
  split <;> simp_all

@[simp] theorem fits_noteInterval (c : Nat) (before : Chan) (hp : [.pos] ⊆ pcs) :
    (noteInterval c before).All (Prim.Fits pcs) := by simp_all [noteInterval]

@[simp] theorem fits_countEdge (c : Nat) (dir : Int) (nodes : List Nat) (hp : [.mem, .dict, .ev, .sys, .pos, .tone,
    .fire, .link, .cam, .ill, .loop, .dram, .time, .health, .bridle] ⊆ pcs) :
    (countEdge c dir nodes).All (Prim.Fits pcs) := by simp_all [countEdge]

@[simp] theorem fits_trimInForce (n : Nat) (hp : [.dict, .pos] ⊆ pcs) :
    (trimInForce n).All (Prim.Fits pcs) := by
  simp only [trimInForce, Act.all_read]
  intro s
  split <;> simp_all +contextual [Pos.Sized]

@[simp] theorem fits_analogueStep (n a : Nat) (mark : Bool) (nodes : List Nat) (hp : [.mem, .dict, .ev, .sys, .pos,
    .tone, .fire, .link, .cam, .ill, .loop, .dram, .time, .health, .bridle] ⊆ pcs) :
    (analogueStep n a mark nodes).All (Prim.Fits pcs) := by
  simp only [analogueStep, Act.all_read]
  intro s
  split <;> simp_all

@[simp] theorem fits_serialFailed (c event : Nat) (hp : [.mem, .dict, .ev, .pos, .fire, .health] ⊆ pcs) :
    (serialFailed c event).All (Prim.Fits pcs) := by simp_all [serialFailed]

@[simp] theorem fits_serialStep (n raw at' : Nat) (nodes : List Nat) (hp : [.mem, .dict, .ev, .sys, .pos, .tone,
    .fire, .link, .cam, .ill, .loop, .dram, .time, .health, .bridle] ⊆ pcs) :
    (serialStep n raw at' nodes).All (Prim.Fits pcs) := by
  simp only [serialStep, Act.all_read]
  intro s
  split <;> simp_all

/-! ### Security -/

@[simp] theorem fits_setDebug (level : Nat) (hp : [.dict, .ev] ⊆ pcs) :
    (setDebug level).All (Prim.Fits pcs) := by simp_all [setDebug]

@[simp] theorem fits_syncDebug (hp : [.dict, .ev] ⊆ pcs) :
    syncDebug.All (Prim.Fits pcs) := by simp_all [syncDebug]

@[simp] theorem fits_effDebugRequest (s : State) (w : Wr) (hp : [.dict, .ev, .sec] ⊆ pcs) :
    (effDebugRequest s w).act.All (Prim.Fits pcs) := by simp_all [effDebugRequest]

@[simp] theorem fits_endGrant (hp : [.dict, .ev, .sec] ⊆ pcs) :
    endGrant.All (Prim.Fits pcs) := by simp_all [endGrant]

@[simp] theorem fits_advanceLifecycle (v : Nat) (hp : [.dict, .ev, .sec] ⊆ pcs) :
    (advanceLifecycle v).All (Prim.Fits pcs) := by simp_all [advanceLifecycle]

@[simp] theorem fits_effLifecycle (s : State) (w : Wr) (hp : [.dict, .ev, .sec] ⊆ pcs) :
    (effLifecycle s w).act.All (Prim.Fits pcs) := by simp_all [effLifecycle]

@[simp] theorem fits_burnKey (b : List Nat) (hp : [.dict, .sec] ⊆ pcs) :
    (burnKey b).All (Prim.Fits pcs) := by simp_all [burnKey]

@[simp] theorem fits_burnRevoke (id : Nat) (hp : [.dict] ⊆ pcs) :
    (burnRevoke id).All (Prim.Fits pcs) := by simp_all [burnRevoke]

@[simp] theorem fits_effKeyInstall (s : State) (w : Wr) (hp : [.dict, .sec] ⊆ pcs) :
    (effKeyInstall s w).act.All (Prim.Fits pcs) := by simp_all [effKeyInstall]

@[simp] theorem fits_effKeyRevoke (s : State) (w : Wr) (hp : [.dict] ⊆ pcs) :
    (effKeyRevoke s w).act.All (Prim.Fits pcs) := by simp_all [effKeyRevoke]

@[simp] theorem fits_readRefused (p : WPath) (code : Nat) (hp : [.dict] ⊆ pcs) :
    (readRefused p code).All (Prim.Fits pcs) := by
  unfold readRefused
  split <;> simp_all

@[simp] theorem fits_effRoleToken (s : State) (w : Wr) (hp : [.dict, .ev, .can, .sec] ⊆ pcs) :
    (effRoleToken s w).act.All (Prim.Fits pcs) := by simp_all +contextual [effRoleToken, CanSt.Sized]

@[simp] theorem fits_effPackageLoad (s : State) (w : Wr) (hp : [.dict, .ev, .sec] ⊆ pcs) :
    (effPackageLoad s w).act.All (Prim.Fits pcs) := by simp_all [effPackageLoad]

@[simp] theorem fits_enterReturned (hp : [.mem, .dict, .ev, .sys, .comp, .health, .sec] ⊆ pcs) :
    enterReturned.All (Prim.Fits pcs) := by simp_all [enterReturned]

@[simp] theorem fits_lifecycleRecord (r : List Nat) (hp : [.mem, .dict, .ev, .sys, .comp, .health, .sec] ⊆ pcs) :
    (lifecycleRecord r).All (Prim.Fits pcs) := by
  unfold lifecycleRecord
  split <;> simp_all

@[simp] theorem fits_packageActs (kind : Nat) (payload : List Nat) (hp : [.mem, .dict, .ev, .sys, .comp, .health,
    .sec] ⊆ pcs) :
    (packageActs kind payload).All (Prim.Fits pcs) := by simp_all [packageActs]

@[simp] theorem fits_effVersionCommit (s : State) (w : Wr) (hp : [.dict] ⊆ pcs) :
    (effVersionCommit s w).act.All (Prim.Fits pcs) := by simp_all [effVersionCommit]

@[simp] theorem fits_countersRead (p : WPath) (hp : [.dict] ⊆ pcs) :
    (countersRead p).All (Prim.Fits pcs) := by simp_all [countersRead]

@[simp] theorem fits_bypass (tdi n : Nat) :
    (bypass tdi n).All (Prim.Fits pcs) := by simp_all [bypass]

@[simp] theorem fits_boundaryScan (tdi n : Nat) (drive : Bool) (hp : [.sec] ⊆ pcs) :
    (boundaryScan tdi n drive).All (Prim.Fits pcs) := by simp_all [boundaryScan]

/-! ### Dictionary -/

@[simp] theorem fits_effPending (word : Nat) (s : State) (w : Wr) (hp : [.ev] ⊆ pcs) :
    (effPending word s w).act.All (Prim.Fits pcs) := by simp_all [effPending]

@[simp] theorem fits_effMask (word : Nat) (s : State) (w : Wr) (hp : [.ev] ⊆ pcs) :
    (effMask word s w).act.All (Prim.Fits pcs) := by simp_all [effMask]

@[simp] theorem fits_effRoute (n : Nat) (s : State) (w : Wr) (hp : [.ev] ⊆ pcs) :
    (effRoute n s w).act.All (Prim.Fits pcs) := by simp_all [effRoute]

@[simp] theorem fits_effCount (n : Nat) (s : State) (w : Wr) (hp : [.ev] ⊆ pcs) :
    (effCount n s w).act.All (Prim.Fits pcs) := by simp_all [effCount]

@[simp] theorem fits_effErrorField (s : State) (w : Wr) (hp : [.ev] ⊆ pcs) :
    (effErrorField s w).act.All (Prim.Fits pcs) := by simp_all [effErrorField]

@[simp] theorem fits_effStore (s : State) (w : Wr) (hp : [.sys] ⊆ pcs) :
    (effStore s w).act.All (Prim.Fits pcs) := by simp_all [effStore]

@[simp] theorem fits_effRestore (s : State) (w : Wr) (hp : [.sys] ⊆ pcs) :
    (effRestore s w).act.All (Prim.Fits pcs) := by simp_all [effRestore]

@[simp] theorem fits_effMapping (idx sub : Nat) (s : State) (w : Wr) (hp : [.dict] ⊆ pcs) :
    (effMapping idx sub s w).act.All (Prim.Fits pcs) := by simp_all [effMapping]

@[simp] theorem fits_effPdo (idx sub : Nat) (s : State) (w : Wr) (hp : [.dict] ⊆ pcs) :
    (effPdo idx sub s w).act.All (Prim.Fits pcs) := by simp_all [effPdo]

@[simp] theorem fits_effComm (idx sub : Nat) (s : State) (w : Wr) (hp : [.dict, .ev, .sys] ⊆ pcs) :
    (effComm idx sub s w).act.All (Prim.Fits pcs) := by
  simp only [List.cons_subset] at hp
  simp [effComm, ite_apply, hp]

@[simp] theorem fits_effSystem (idx sub : Nat) (s : State) (w : Wr) (hp : ∀ q : Piece, q ∈ pcs) :
    (effSystem idx sub s w).act.All (Prim.Fits pcs) := by
  generalize he : effSystem idx sub = e
  unfold effSystem at he
  split at he <;> subst he <;> simp [ite_apply, hp]

@[simp] theorem fits_effEvents (idx sub : Nat) (s : State) (w : Wr) (hp : [.dict, .ev, .health] ⊆ pcs) :
    (effEvents idx sub s w).act.All (Prim.Fits pcs) := by
  simp only [List.cons_subset] at hp
  generalize he : effEvents idx sub = e
  unfold effEvents at he
  split at he <;> subst he <;> simp [ite_apply, hp]

@[simp] theorem fits_effClock (key : Nat) (s : State) (w : Wr) (hp : [.dict, .time] ⊆ pcs) :
    (effClock key s w).act.All (Prim.Fits pcs) := by simp_all [effClock]

@[simp] theorem fits_effNetwork (idx sub : Nat) (s : State) (w : Wr) (hp : [.dict, .ev, .pos, .net, .time,
    .sec] ⊆ pcs) :
    (effNetwork idx sub s w).act.All (Prim.Fits pcs) := by
  simp only [List.cons_subset] at hp
  simp [effNetwork, ite_apply, hp]

@[simp] theorem fits_effHealth (idx sub : Nat) (s : State) (w : Wr) (hp : [.dict, .health] ⊆ pcs) :
    (effHealth idx sub s w).act.All (Prim.Fits pcs) := by
  simp only [List.cons_subset] at hp
  generalize he : effHealth idx sub = e
  unfold effHealth at he
  split at he <;> subst he <;> simp [ite_apply, hp]

@[simp] theorem fits_effSecurity (idx sub : Nat) (s : State) (w : Wr) (hp : [.dict, .ev, .can, .sec] ⊆ pcs) :
    (effSecurity idx sub s w).act.All (Prim.Fits pcs) := by
  simp only [List.cons_subset] at hp
  generalize he : effSecurity idx sub = e
  unfold effSecurity at he
  split at he <;> subst he <;> simp [ite_apply, hp]

@[simp] theorem fits_ownerEffect (idx sub : Nat) (s : State) (w : Wr) (hp : ∀ q : Piece, q ∈ pcs) :
    (ownerEffect idx sub s w).act.All (Prim.Fits pcs) := by
  generalize he : ownerEffect idx sub = e
  unfold ownerEffect at he
  split at he <;> subst he <;> simp [ite_apply, hp]

@[simp] theorem fits_writeAny (idx sub : Nat) (w : Wr) (k : Nat → Act) (hp : ∀ q : Piece, q ∈ pcs) (hk : ∀ a,
    (k a).All (Prim.Fits pcs)) :
    (writeAny idx sub w k).All (Prim.Fits pcs) := by
  simp only [writeAny, all_seqs_cons, Act.all_read]
  exact ⟨by simp [hp], by simp [hp], fun s => ⟨fits_enact (by simp [hp]) (fits_judge fun v => by simp [hp]), hk _⟩, trivial⟩

@[simp] theorem fits_readAny (p : WPath) (idx sub : Nat) (k : Nat → List Nat → Act) (hp : [.pos, .time, .sec] ⊆ pcs)
    (hk : ∀ a b, (k a b).All (Prim.Fits pcs)) :
    (readAny p idx sub k).All (Prim.Fits pcs) := by simp_all [readAny]

@[simp] theorem fits_readReply (p : WPath) (idx sub : Nat) (hp : [.dict, .pos, .time, .sec] ⊆ pcs) :
    (readReply p idx sub).All (Prim.Fits pcs) := by simp_all [readReply]

@[simp] theorem fits_stageStore (core addr val : Nat) (hp : ∀ q : Piece, q ∈ pcs) :
    (stageStore core addr val).All (Prim.Fits pcs) := by
  simp only [stageStore, Act.all_read]
  intro s
  split <;> simp_all

/-! ### Clients -/

@[simp] theorem fits_rpdoWrites (x1 : List (Nat × Nat × Nat)) (x2 : List Nat) (hp : ∀ q : Piece, q ∈ pcs) :
    (rpdoWrites x1 x2).All (Prim.Fits pcs) := by
  induction x1 generalizing x2 with
  | nil => trivial
  | cons m rest ih =>
    simp only [rpdoWrites, Act.all_seq, Act.all_read]
    refine ⟨fun s => ?_, ih _⟩
    split <;> simp_all

@[simp] theorem fits_rpdoActs (n : Nat) (d : List Nat) (hp : ∀ q : Piece, q ∈ pcs) :
    (rpdoActs n d).All (Prim.Fits pcs) := by simp_all [rpdoActs]

@[simp] theorem fits_sendTpdo (n : Nat) (hp : [.can] ⊆ pcs) :
    (sendTpdo n).All (Prim.Fits pcs) := by simp_all +contextual [sendTpdo, CanSt.Sized]

@[simp] theorem fits_syncTpdo (n : Nat) (hp : [.can] ⊆ pcs) :
    (syncTpdo n).All (Prim.Fits pcs) := by simp_all +contextual [syncTpdo, CanSt.Sized]

@[simp] theorem fits_syncRpdo (n : Nat) (hp : ∀ q : Piece, q ∈ pcs) :
    (syncRpdo n).All (Prim.Fits pcs) := by
  simp only [syncRpdo, Act.all_read]
  intro s
  split <;> simp_all +contextual [CanSt.Sized]

@[simp] theorem fits_resetCommunication (hp : [.dict, .ev, .can] ⊆ pcs) :
    resetCommunication.All (Prim.Fits pcs) := by simp_all +contextual [resetCommunication, CanSt.Sized]

@[simp] theorem fits_objectOp (p : WPath) (op : TetherOp) (k : Nat → List Nat → Act) (hp : [.mem, .dict,
    .dram] ⊆ pcs) (hk : ∀ a b, (k a b).All (Prim.Fits pcs)) :
    (objectOp p op k).All (Prim.Fits pcs) := by
  simp only [List.cons_subset] at hp
  simp [objectOp, hp, hk]

@[simp] theorem fits_tetherOp (i : Nat) (x : Session) (room : Nat) (op : TetherOp) (k : Nat → List Nat → Act)
    (hp : ∀ q : Piece, q ∈ pcs) (hk : ∀ a b, (k a b).All (Prim.Fits pcs)) :
    (tetherOp i x room op k).All (Prim.Fits pcs) := by
  unfold tetherOp
  split <;> simp_all

@[simp] theorem fits_tetherRun (i : Nat) (x : Session) (x1 : List TetherOp) (x2 : List Nat) (x3 : List Nat → Act)
    (hp : ∀ q : Piece, q ∈ pcs) (hx3 : ∀ a, (x3 a).All (Prim.Fits pcs)) :
    (tetherRun i x x1 x2 x3).All (Prim.Fits pcs) := by
  induction x1 generalizing x2 x3 with
  | nil => exact hx3 _
  | cons m rest ih => simp_all [tetherRun]

@[simp] theorem fits_requestDropped (hp : [.dict] ⊆ pcs) :
    requestDropped.All (Prim.Fits pcs) := by simp_all [requestDropped]

end Sys2Proof.Machine
end

section
/-! # The number of the block's parts

Every command is a tree of changes that fits all pieces, so every step keeps `State.shape`. -/

namespace Sys2Proof.Machine

/-- The command is a tree of changes that fits the pieces. -/
def Fitting (pcs : List Piece) (c : Instr) : Prop := ∀ s, ∃ a : Act, exec c s = .next (a.run s) ∧ a.All (Prim.Fits pcs)

/-- A meaning that fits the pieces makes a command that fits them. -/
theorem perform_fits {pcs : List Piece} (t : Nat) {a : Act} (ha : a.All (Prim.Fits pcs)) (s : State) :
    ∃ b : Act, perform t a s = .next (b.run s) ∧ b.All (Prim.Fits pcs) :=
  ⟨_, rfl, fits_begin pcs t, ha, fits_notifySend pcs⟩

/-- Saved records replace places of the list of records. -/
theorem length_foldl_set (recs : List (Nat × CalRecord)) (l : List (Option CalRecord)) :
    (recs.foldl (fun l r => l.set (r.1 - 1) (some r.2)) l).length = l.length := by
  induction recs generalizing l with
  | nil => rfl
  | cons r recs ih => exact (ih _).trans List.length_set

section FitsExec

variable {pcs : List Piece} (hp : ∀ q : Piece, q ∈ pcs)
include hp

theorem fits_exec_powerOnReset (t : Nat) (cold : Bool) :
    Fitting pcs (.powerOnReset t cold) := fun s => by
  refine perform_fits _ ?_ s
  simp +contextual [hp, Health.Sized]

theorem fits_exec_pgoodMainTimeout (t : Nat) :
    Fitting pcs (.pgoodMainTimeout t) := fun s => by
  refine perform_fits _ (fun s => ?_) s
  dsimp only
  split <;> simp [hp]

theorem fits_exec_modeTransitionEnd (t : Nat) :
    Fitting pcs (.modeTransitionEnd t) := fun s => by
  refine perform_fits _ ?_ s
  simp +contextual [hp, Dram.Sized]

theorem fits_exec_slackSlotGrant (t : Nat) (owner : Nat) (len : Nat) (boundary : Bool) :
    Fitting pcs (.slackSlotGrant t owner len boundary) := fun s => by
  refine perform_fits _ (fun s => ?_) s
  dsimp only
  split <;> simp [hp]

theorem fits_exec_dictionaryWrite (t : Nat) (idx : Nat) (sub : Nat) (w : Wr) :
    Fitting pcs (.dictionaryWrite t idx sub w) := fun s => by
  refine perform_fits _ (fun s => ?_) s
  dsimp only
  split <;> simp [hp]

theorem fits_exec_usdoRequest (t : Nat) (req : DictOp) :
    Fitting pcs (.usdoRequest t req) := fun s => by
  refine perform_fits _ (fun s => ?_) s
  dsimp only
  (repeat' split) <;> simp [hp]

theorem fits_exec_rpdoReceived (t : Nat) (n : Nat) (data : List Nat) :
    Fitting pcs (.rpdoReceived t n data) := fun s => by
  refine perform_fits _ ?_ s
  simp +contextual [hp, CanSt.Sized]

theorem fits_exec_sincosTrimCalibration (t : Nat) (n : Nat) (fit : SinCosTrim) :
    Fitting pcs (.sincosTrimCalibration t n fit) := fun s => by
  refine perform_fits _ (fun s => ?_) s
  dsimp only
  split <;> simp +contextual [hp, Pos.Sized]

theorem fits_exec_serialWord (t : Nat) (n : Nat) (word : Nat) (nodes : List Nat) :
    Fitting pcs (.serialWord t n word nodes) := fun s => by
  refine perform_fits _ (fun s => ?_) s
  dsimp only
  split <;> simp [hp]

theorem fits_exec_serialTimeout (t : Nat) (n : Nat) :
    Fitting pcs (.serialTimeout t n) := fun s => by
  refine perform_fits _ (fun s => ?_) s
  dsimp only
  split <;> simp [hp]

theorem fits_exec_standstill (t : Nat) (ch : Nat) :
    Fitting pcs (.standstill t ch) := fun s => by
  refine perform_fits _ ?_ s
  simp +contextual [hp, Pos.Sized]

theorem fits_exec_comparePulseEnd (t : Nat) (k : Nat) :
    Fitting pcs (.comparePulseEnd t k) := fun s => by
  refine perform_fits _ (fun s => ?_) s
  dsimp only
  split <;> simp +contextual [hp, Pos.Sized]

theorem fits_exec_emulationEdge (t : Nat) (k : Nat) :
    Fitting pcs (.emulationEdge t k) := fun s => by
  refine perform_fits _ ?_ s
  simp +contextual [hp, Pos.Sized]

theorem fits_exec_refetchResend (t : Nat) (stream : Nat) :
    Fitting pcs (.refetchResend t stream) := fun s => by
  refine perform_fits _ (fun s => ?_) s
  dsimp only
  split <;> simp +contextual [hp, Net.Sized]

theorem fits_exec_refetchDeadline (t : Nat) (stream : Nat) :
    Fitting pcs (.refetchDeadline t stream) := fun s => by
  refine perform_fits _ (fun s => ?_) s
  dsimp only
  split <;> simp +contextual [hp, Net.Sized]

theorem fits_exec_stripDecodeEnd (t : Nat) (lane : Nat) :
    Fitting pcs (.stripDecodeEnd t lane) := fun s => by
  refine perform_fits _ (fun s => ?_) s
  dsimp only
  (repeat' split) <;> simp [hp]

theorem fits_exec_composeLine (t : Nat) (ink : Nat) (line : Nat) (parity : List Nat) :
    Fitting pcs (.composeLine t ink line parity) := fun s => by
  refine perform_fits _ (fun s => ?_) s
  dsimp only
  (repeat' split) <;> simp [hp]

theorem fits_exec_copyDecision (t : Nat) :
    Fitting pcs (.copyDecision t) := fun s => by
  refine perform_fits _ (fun s => ?_) s
  dsimp only
  split <;> simp [hp]

theorem fits_exec_fenceReached (t : Nat) (l : Nat) (w : Wr) :
    Fitting pcs (.fenceReached t l w) := fun s => by
  refine perform_fits _ (all_when fun _ => fits_writeBy (by simp [hp]) fun s v => ?_) s
  simp [hp]

theorem fits_exec_protectedLayerLoaded (t : Nat) :
    Fitting pcs (.protectedLayerLoaded t) := fun s => by
  refine perform_fits _ ?_ s
  simp +contextual [hp, Comp.Sized]

theorem fits_exec_decideDropLine (t : Nat) (ink : Nat) (parity : List Nat) :
    Fitting pcs (.decideDropLine t ink parity) := fun s => by
  refine perform_fits _ (fun s => ?_) s
  simp only [all_ite_iff]
  refine ⟨fun _ => trivial, fun _ => ?_⟩
  split
  · trivial
  · refine ⟨by simp [hp], fun s => ?_⟩
    dsimp only
    split <;> simp [hp]

theorem fits_exec_screenArrayCommitted (t : Nat) :
    Fitting pcs (.screenArrayCommitted t) := fun s => by
  refine perform_fits _ (fun s => ?_) s
  dsimp only
  split <;> simp [hp]

theorem fits_exec_rowLineIssue (t : Nat) :
    Fitting pcs (.rowLineIssue t) := fun s => by
  refine perform_fits _ (fun s => ?_) s
  dsimp only
  (repeat' split) <;> simp [hp]

theorem fits_exec_tickleReady (t : Nat) :
    Fitting pcs (.tickleReady t) := fun s => by
  refine perform_fits _ (fun s => ?_) s
  simp only [all_ite_iff, Act.all_seq, all_each_iff]
  refine ⟨fun _ => trivial, fun _ => ⟨by simp [hp, Fire.Sized], fun p _ => ?_⟩⟩
  split <;> simp [hp]

theorem fits_exec_waveAck (t : Nat) (l : Nat) (slot : Nat) (data : List Nat) :
    Fitting pcs (.waveAck t l slot data) := fun s => by
  refine perform_fits _ (fun s => ?_) s
  dsimp only
  split <;> simp +contextual [hp, Fire.Sized]

theorem fits_exec_waveAckTimeout (t : Nat) (l : Nat) (slot : Nat) :
    Fitting pcs (.waveAckTimeout t l slot) := fun s => by
  refine perform_fits _ (fun s => ?_) s
  dsimp only
  split <;> simp [hp]

theorem fits_exec_spitPulse (t : Nat) :
    Fitting pcs (.spitPulse t) := fun s => by
  refine perform_fits _ (fun s => ?_) s
  dsimp only
  split
  · trivial
  · simp only [all_ite_iff, all_seqs_cons, all_each_iff, Act.all_read]
    refine ⟨fun _ => trivial, fun _ => ⟨fun _ => by simp [hp], fun _ => ⟨fun n _ s => ?_, by simp [hp, Fire.Sized],
      by simp [hp],
      trivial⟩⟩⟩
    split <;> simp [hp]

theorem fits_exec_purgeEnd (t : Nat) :
    Fitting pcs (.purgeEnd t) := fun s => by
  refine perform_fits _ (fun s => ?_) s
  dsimp only
  split <;> simp [hp]

theorem fits_exec_lateRecord (t : Nat) (l : Nat) (slot : Nat) (data : List Nat) :
    Fitting pcs (.lateRecord t l slot data) := fun s => by
  refine perform_fits _ (fun s => ?_) s
  dsimp only
  split <;> simp [hp]

theorem fits_exec_cfgReply (t : Nat) (l : Nat) (slot : Nat) (data : List Nat) :
    Fitting pcs (.cfgReply t l slot data) := fun s => by
  refine perform_fits _ (fun s => ?_) s
  dsimp only
  (repeat' split) <;> simp [hp]

theorem fits_exec_syncEcho (t : Nat) (l : Nat) (data : List Nat) (arrival : Nat) :
    Fitting pcs (.syncEcho t l data arrival) := fun s => by
  refine perform_fits _ (fun s => ?_) s
  dsimp only
  split <;> simp [hp]

theorem fits_exec_cfgTimeout (t : Nat) (l : Nat) :
    Fitting pcs (.cfgTimeout t l) := fun s => by
  refine perform_fits _ (fun s => ?_) s
  dsimp only
  split <;> simp [hp]

theorem fits_exec_frameTimeout (t : Nat) (p : Nat) :
    Fitting pcs (.frameTimeout t p) := fun s => by
  refine perform_fits _ (fun s => ?_) s
  dsimp only
  (repeat' split) <;> simp [hp]

theorem fits_exec_lineStage (t : Nat) (p : Nat) :
    Fitting pcs (.lineStage t p) := fun s => by
  refine perform_fits _ (fun s => ?_) s
  dsimp only
  split <;> simp [hp]

theorem fits_exec_frameStageTake (t : Nat) (p : Nat) :
    Fitting pcs (.frameStageTake t p) := fun s => by
  refine perform_fits _ ?_ s
  simp +contextual [hp, Cam.Sized]

theorem fits_exec_statisticsReady (t : Nat) :
    Fitting pcs (.statisticsReady t) := fun s => by
  refine perform_fits _ (fun s => ?_) s
  dsimp only
  (repeat' split) <;> simp +contextual [hp, Cam.Sized]

theorem fits_exec_cciDone (t : Nat) (p : Nat) (status : Nat) (data : List Nat) :
    Fitting pcs (.cciDone t p status data) := fun s => by
  refine perform_fits _ ?_ s
  simp +contextual [hp, Cam.Sized]

theorem fits_exec_flatFieldCapture (t : Nat) (p : Nat) :
    Fitting pcs (.flatFieldCapture t p) := fun s => by
  refine perform_fits _ (fun s => ?_) s
  dsimp only
  (repeat' split) <;> simp [hp]

theorem fits_exec_darkCapture (t : Nat) (p : Nat) :
    Fitting pcs (.darkCapture t p) := fun s => by
  refine perform_fits _ (fun s => ?_) s
  dsimp only
  (repeat' split) <;> simp [hp]

theorem fits_exec_pulseEnd (t : Nat) (c : Nat) (sum : Nat) (n : Nat) (clip : Bool) (isns : Nat) (vsns : Nat)
    (vend : Nat) :
    Fitting pcs (.pulseEnd t c sum n clip isns vsns vend) := fun s => by
  refine perform_fits _ (fun s => ?_) s
  dsimp only
  split <;> simp [hp]

theorem fits_exec_gapLinePulse (t : Nat) :
    Fitting pcs (.gapLinePulse t) := fun s => by
  refine perform_fits _ (fun s => ?_) s
  dsimp only
  (repeat' split) <;> simp [hp]

theorem fits_exec_wasteVerdict (t : Nat) :
    Fitting pcs (.wasteVerdict t) := fun s => by
  refine perform_fits _ (fun s => ?_) s
  dsimp only
  split <;> simp [hp]

theorem fits_exec_dramAccess (t : Nat) (sc : Nat) (reqs : List DramReq) (read : BurstRead) :
    Fitting pcs (.dramAccess t sc reqs read) := fun s => by
  refine perform_fits _ (fun s => ?_) s
  dsimp only
  (repeat' split) <;> simp +contextual [hp, Dram.Sized]

theorem fits_exec_alertN (t : Nat) (sc : Nat) (writeCrc : Bool) :
    Fitting pcs (.alertN t sc writeCrc) := fun s => by
  refine perform_fits _ (fun s => ?_) s
  dsimp only
  (repeat' split) <;> simp +contextual [hp, Dram.Sized]

theorem fits_exec_refreshInterval (t : Nat) (sc : Nat) (busy : List Nat) :
    Fitting pcs (.refreshInterval t sc busy) := fun s => by
  refine perform_fits _ ?_ s
  simp +contextual [hp, Dram.Sized]

theorem fits_exec_pageIdleTimer (t : Nat) (sc : Nat) :
    Fitting pcs (.pageIdleTimer t sc) := fun s => by
  refine perform_fits _ ?_ s
  simp +contextual [hp, Dram.Sized]

theorem fits_exec_fullTraining (t : Nat) (sc : Nat) (point : Nat) (first : TrainRun) (second : TrainRun)
    (intact : Bool) :
    Fitting pcs (.fullTraining t sc point first second intact) := fun s => by
  refine perform_fits _ ?_ s
  simp +contextual [hp, Dram.Sized]

theorem fits_exec_trackingStep (t : Nat) (sc : Nat) (drift : Int) :
    Fitting pcs (.trackingStep t sc drift) := fun s => by
  refine perform_fits _ ?_ s
  simp +contextual [hp, Dram.Sized]

theorem fits_exec_zqCalibration (t : Nat) :
    Fitting pcs (.zqCalibration t) := fun s => by
  refine perform_fits _ ?_ s
  simp +contextual [hp, Dram.Sized]

theorem fits_exec_frequencyChange (t : Nat) (took : Nat) :
    Fitting pcs (.frequencyChange t took) := fun s => by
  refine perform_fits _ (fun s => ?_) s
  dsimp only
  split <;> simp +contextual [hp, Dram.Sized]

theorem fits_exec_scrubUnit (t : Nat) (read : BurstRead) :
    Fitting pcs (.scrubUnit t read) := fun s => by
  refine perform_fits _ ?_ s
  simp +contextual [hp, Dram.Sized]

theorem fits_exec_dmaBurst (t : Nat) (bad : Option Nat) :
    Fitting pcs (.dmaBurst t bad) := fun s => by
  refine perform_fits _ ?_ s
  refine ⟨fun s => ?_, fun s => ?_⟩ <;> dsimp only
  · split <;> simp [hp]
  · simp only [all_ite_iff]
    refine ⟨fun _ => trivial, fun _ => ?_⟩
    split <;> simp [hp]

theorem fits_exec_endloop (t : Nat) (c : Nat) :
    Fitting pcs (.endloop t c) := fun s => by
  refine perform_fits _ (fun s => ?_) s
  dsimp only
  split <;> simp [hp]

theorem fits_exec_waitTimeout (t : Nat) (c : Nat) :
    Fitting pcs (.waitTimeout t c) := fun s => by
  refine perform_fits _ (fun s => ?_) s
  dsimp only
  split <;> simp [hp]

theorem fits_exec_dmaTimer (t : Nat) (k : Nat) :
    Fitting pcs (.dmaTimer t k) := fun s => by
  refine perform_fits _ ?_ s
  simp +contextual [hp, Dma.Sized]

omit hp in
theorem fits_exec_icmpEcho (t : Nat) (port : Nat) (src : Nat) (target : Nat) (ident : Nat) (seq : Nat)
    (data : List Nat) (fragment : Bool) :
    Fitting pcs (.icmpEcho t port src target ident seq data fragment) := fun s => by
  refine perform_fits _ (fun s => ?_) s
  dsimp only
  split <;> simp

theorem fits_exec_tetherHello (t : Nat) (host : Host4) (vmin : Nat) (vmax : Nat) (keyId : Nat) (nonce : List Nat)
    (client : Nat) (notify : Bool) :
    Fitting pcs (.tetherHello t host vmin vmax keyId nonce client notify) := fun s => by
  refine perform_fits _ (fun s => ?_) s
  dsimp only
  (repeat' split) <;> simp +contextual [hp, Net.Sized]

theorem fits_exec_tetherOpen (t : Nat) (host : Host4) (data : List Nat) :
    Fitting pcs (.tetherOpen t host data) := fun s => by
  refine perform_fits _ (fun s => ?_) s
  dsimp only
  (repeat' split) <;> simp +contextual [hp, Net.Sized]

theorem fits_exec_challengeTimeout (t : Nat) :
    Fitting pcs (.challengeTimeout t) := fun s => by
  refine perform_fits _ ?_ s
  simp +contextual [hp, Net.Sized]

theorem fits_exec_tetherRequest (t : Nat) (host : Host4) (data : List Nat) :
    Fitting pcs (.tetherRequest t host data) := fun s => by
  refine perform_fits _ (fun s => ?_) s
  simp only [all_ite_iff]
  refine ⟨fun _ => by simp [hp], fun _ => fits_withSession _ _ _ _ (by simp [hp]) fun i x => ?_⟩
  simp only [all_ite_iff]
  refine ⟨fun _ => by simp, fun _ => ⟨fun _ => by simp [hp], fun _ => ⟨fun _ => by simp [hp], fun _ => ?_⟩⟩⟩
  split <;> simp [hp]

theorem fits_exec_notifyRetry (t : Nat) (session : Nat) :
    Fitting pcs (.notifyRetry t session) := fun s => by
  refine perform_fits _ (fun s => ?_) s
  dsimp only
  split <;> simp [hp]

theorem fits_exec_announceTimeout (t : Nat) :
    Fitting pcs (.announceTimeout t) := fun s => by
  refine perform_fits _ (fun s => ?_) s
  dsimp only
  split <;> simp [hp]

theorem fits_exec_ptpDelayMessage (t : Nat) (port : Nat) (domain : Nat) (request : Bool) (sent : Nat) (remote : Nat)
    (corr : Int) :
    Fitting pcs (.ptpDelayMessage t port domain request sent remote corr) := fun s => by
  refine perform_fits _ (fun s => ?_) s
  dsimp only
  (repeat' split) <;> simp [hp]

theorem fits_exec_diodeASample (t : Nat) (code : Int) :
    Fitting pcs (.diodeASample t code) := fun s => by
  refine perform_fits _ ?_ s
  simp +contextual [hp, Health.Sized]

theorem fits_exec_diodeBSample (t : Nat) (code : Int) :
    Fitting pcs (.diodeBSample t code) := fun s => by
  refine perform_fits _ ?_ s
  simp +contextual [hp, Health.Sized]

theorem fits_exec_thermalTrimReading (t : Nat) :
    Fitting pcs (.thermalTrimReading t) := fun s => by
  refine perform_fits _ (fun s => ?_) s
  dsimp only
  split <;> simp +contextual [hp, Health.Sized]

theorem fits_exec_calibrationAutoSave (t : Nat) :
    Fitting pcs (.calibrationAutoSave t) := fun s => by
  refine perform_fits _ ?_ s
  simp +contextual [hp, Health.Sized]

theorem fits_exec_takeoverGuardEnd (t : Nat) :
    Fitting pcs (.takeoverGuardEnd t) := fun s => by
  refine perform_fits _ (fun s => ?_) s
  dsimp only
  split <;> simp [hp]

theorem fits_exec_packageCheckDone (t : Nat) :
    Fitting pcs (.packageCheckDone t) := fun s => by
  refine perform_fits _ (fun s => ?_) s
  dsimp only
  split <;> simp [hp]

theorem fits_exec_grantExpiry (t : Nat) :
    Fitting pcs (.grantExpiry t) := fun s => by
  refine perform_fits _ (fun s => ?_) s
  dsimp only
  split <;> simp [hp]

theorem fits_exec_alertNDeasserted (t : Nat) (sc : Nat) (window : Nat) :
    Fitting pcs (.alertNDeasserted t sc window) := fun s => by
  refine perform_fits _ (fun s => ?_) s
  dsimp only
  split <;> simp +contextual [hp, Dram.Sized]

theorem fits_exec_calibrationRecordWritten (t : Nat) :
    Fitting pcs (.calibrationRecordWritten t) := fun s => by
  refine perform_fits _ (fun s => ?_) s
  dsimp only
  split
  · trivial
  · simp only [all_seqs_cons, Act.all_prim, fits_health, hp, true_and, Health.Sized, length_foldl_set]
    exact ⟨by simp [hp], by simp [hp], fun _ h => h, by simp [hp], by simp [hp], trivial⟩

theorem fits_exec_dramInitialised (t : Nat) :
    Fitting pcs (.dramInitialised t) := fun s => by
  refine perform_fits _ ?_ s
  simp +contextual [hp, Dram.Sized]

theorem fits_exec_dmaTimerWidthEnd (t : Nat) (k : Nat) :
    Fitting pcs (.dmaTimerWidthEnd t k) := fun s => by
  refine perform_fits _ ?_ s
  simp +contextual [hp, Dma.Sized]

/-- Every command is a tree of changes that fits all pieces. -/
theorem fits_exec (c : Instr) : Fitting pcs c := by
  cases c
  case powerOnReset t cold => exact fits_exec_powerOnReset hp t cold
  case pgoodMainTimeout t => exact fits_exec_pgoodMainTimeout hp t
  case modeTransitionEnd t => exact fits_exec_modeTransitionEnd hp t
  case slackSlotGrant t owner len boundary => exact fits_exec_slackSlotGrant hp t owner len boundary
  case dictionaryWrite t idx sub w => exact fits_exec_dictionaryWrite hp t idx sub w
  case usdoRequest t req => exact fits_exec_usdoRequest hp t req
  case rpdoReceived t n data => exact fits_exec_rpdoReceived hp t n data
  case sincosTrimCalibration t n fit => exact fits_exec_sincosTrimCalibration hp t n fit
  case serialWord t n word nodes => exact fits_exec_serialWord hp t n word nodes
  case serialTimeout t n => exact fits_exec_serialTimeout hp t n
  case standstill t ch => exact fits_exec_standstill hp t ch
  case comparePulseEnd t k => exact fits_exec_comparePulseEnd hp t k
  case emulationEdge t k => exact fits_exec_emulationEdge hp t k
  case refetchResend t stream => exact fits_exec_refetchResend hp t stream
  case refetchDeadline t stream => exact fits_exec_refetchDeadline hp t stream
  case stripDecodeEnd t lane => exact fits_exec_stripDecodeEnd hp t lane
  case composeLine t ink line parity => exact fits_exec_composeLine hp t ink line parity
  case copyDecision t => exact fits_exec_copyDecision hp t
  case fenceReached t l w => exact fits_exec_fenceReached hp t l w
  case protectedLayerLoaded t => exact fits_exec_protectedLayerLoaded hp t
  case decideDropLine t ink parity => exact fits_exec_decideDropLine hp t ink parity
  case screenArrayCommitted t => exact fits_exec_screenArrayCommitted hp t
  case rowLineIssue t => exact fits_exec_rowLineIssue hp t
  case tickleReady t => exact fits_exec_tickleReady hp t
  case waveAck t l slot data => exact fits_exec_waveAck hp t l slot data
  case waveAckTimeout t l slot => exact fits_exec_waveAckTimeout hp t l slot
  case spitPulse t => exact fits_exec_spitPulse hp t
  case purgeEnd t => exact fits_exec_purgeEnd hp t
  case lateRecord t l slot data => exact fits_exec_lateRecord hp t l slot data
  case cfgReply t l slot data => exact fits_exec_cfgReply hp t l slot data
  case syncEcho t l data arrival => exact fits_exec_syncEcho hp t l data arrival
  case cfgTimeout t l => exact fits_exec_cfgTimeout hp t l
  case frameTimeout t p => exact fits_exec_frameTimeout hp t p
  case lineStage t p => exact fits_exec_lineStage hp t p
  case frameStageTake t p => exact fits_exec_frameStageTake hp t p
  case statisticsReady t => exact fits_exec_statisticsReady hp t
  case cciDone t p status data => exact fits_exec_cciDone hp t p status data
  case flatFieldCapture t p => exact fits_exec_flatFieldCapture hp t p
  case darkCapture t p => exact fits_exec_darkCapture hp t p
  case pulseEnd t c sum n clip isns vsns vend => exact fits_exec_pulseEnd hp t c sum n clip isns vsns vend
  case gapLinePulse t => exact fits_exec_gapLinePulse hp t
  case wasteVerdict t => exact fits_exec_wasteVerdict hp t
  case dramAccess t sc reqs read => exact fits_exec_dramAccess hp t sc reqs read
  case alertN t sc writeCrc => exact fits_exec_alertN hp t sc writeCrc
  case refreshInterval t sc busy => exact fits_exec_refreshInterval hp t sc busy
  case pageIdleTimer t sc => exact fits_exec_pageIdleTimer hp t sc
  case fullTraining t sc point first second intact => exact fits_exec_fullTraining hp t sc point first second intact
  case trackingStep t sc drift => exact fits_exec_trackingStep hp t sc drift
  case zqCalibration t => exact fits_exec_zqCalibration hp t
  case frequencyChange t took => exact fits_exec_frequencyChange hp t took
  case scrubUnit t read => exact fits_exec_scrubUnit hp t read
  case dmaBurst t bad => exact fits_exec_dmaBurst hp t bad
  case endloop t c => exact fits_exec_endloop hp t c
  case waitTimeout t c => exact fits_exec_waitTimeout hp t c
  case dmaTimer t k => exact fits_exec_dmaTimer hp t k
  case icmpEcho t port src target ident seq data fragment => exact fits_exec_icmpEcho t port src target ident seq data fragment
  case tetherHello t host vmin vmax keyId nonce client notify => exact fits_exec_tetherHello hp t host vmin vmax keyId nonce client notify
  case tetherOpen t host data => exact fits_exec_tetherOpen hp t host data
  case challengeTimeout t => exact fits_exec_challengeTimeout hp t
  case tetherRequest t host data => exact fits_exec_tetherRequest hp t host data
  case notifyRetry t session => exact fits_exec_notifyRetry hp t session
  case announceTimeout t => exact fits_exec_announceTimeout hp t
  case ptpDelayMessage t port domain request sent remote corr => exact fits_exec_ptpDelayMessage hp t port domain request sent remote corr
  case diodeASample t code => exact fits_exec_diodeASample hp t code
  case diodeBSample t code => exact fits_exec_diodeBSample hp t code
  case thermalTrimReading t => exact fits_exec_thermalTrimReading hp t
  case calibrationAutoSave t => exact fits_exec_calibrationAutoSave hp t
  case takeoverGuardEnd t => exact fits_exec_takeoverGuardEnd hp t
  case packageCheckDone t => exact fits_exec_packageCheckDone hp t
  case grantExpiry t => exact fits_exec_grantExpiry hp t
  case alertNDeasserted t sc window => exact fits_exec_alertNDeasserted hp t sc window
  case calibrationRecordWritten t => exact fits_exec_calibrationRecordWritten hp t
  case dramInitialised t => exact fits_exec_dramInitialised hp t
  case dmaTimerWidthEnd t k => exact fits_exec_dmaTimerWidthEnd hp t k
  all_goals exact fun s => perform_fits _ (by simp [hp]) s

end FitsExec

/-- Settles O59: a command is a tree of changes of which each keeps the sizes of the lists it replaces. -/
theorem stepsKeepShape : Obligations.StepsKeepShape := by
  intro s u hs hstep
  obtain rfl | ⟨c, rest, -, hexec⟩ := step_cases hstep
  · exact hs
  · obtain ⟨a, ha, hfits⟩ := fits_exec (pcs := [.mem, .dict, .ev, .sys, .can, .pos, .codec, .comp, .tone, .fire,
    .link, .cam,
      .ill, .loop, .dram, .dma, .net, .time, .health, .bridle, .sec]) (fun q => by cases q <;> decide) c
      { s with pending := rest }
    rw [ha] at hexec
    cases hexec
    exact shape_of_fits hfits hs

end Sys2Proof.Machine
end

section
/-! # Refused writes (R57, R62–R64, R68)

Every command that writes an entry of its own is one dictionary write,
    some of them behind a check of their place. -/

namespace Sys2Proof.Machine

/-- A command that is one dictionary write under a condition that holds, when the dictionary refuses the write. -/
theorem refused_completes_when {c : Instr} {t idx sub : Nat} {w : Wr} {eff : Effect} {p : Bool} (hp : p = true)
    (hx : ∀ s, exec c s = perform t (when p (writeBy idx sub eff w)) s) :
    Completes c t (fun b => checkWrite b idx sub w ≠ 0) fun b u => b.refusedWith w.path (checkWrite b idx sub w) u :=
  refused_completes fun s => by rw [hx, hp]; rfl

/-- TempCurve of a slot is one write where the part has the link and the slot. -/
theorem tempCurveWrite_refused (t l slot : Nat) (w : Wr) :
    Completes (.tempCurveWrite t l slot w) t
      (fun b => l < b.linkCount ∧ slot < 12 ∧ checkWrite b (0x4100 + 12 * l + slot) 0x0F w ≠ 0)
      fun b u => b.refusedWith w.path (checkWrite b (0x4100 + 12 * l + slot) 0x0F w) u :=
  completes_of (fun _ => rfl) fun b _ ⟨hl, hslot, hc⟩ => by
    simp only [Act.run_read, hl, hslot, decide_true, Bool.and_self, if_true]
    rw [run_writeBy_refused _ hc]
    exact refusedWith_run w.path _ hc b

/-- Settles O47: each command is one write, which the dictionary refuses before its owner acts. -/
theorem refusedWritesKeepAll : Obligations.RefusedWritesKeepAll := by
  intro t w
  exact ⟨refused_completes fun _ => rfl, refused_completes fun _ => rfl, refused_completes fun _ => rfl,
    refused_completes fun _ => rfl,
    fun _ => refused_completes fun _ => rfl, fun _ hp => refused_completes_when (by simp [hp]) fun _ => rfl,
    fun _ hp => refused_completes_when (by simp [hp]) fun _ => rfl,
    fun _ hp => refused_completes_when (by simp [hp]) fun _ => rfl,
    refused_completes fun _ => rfl, fun _ => refused_completes fun _ => rfl,
    fun _ => refused_completes fun _ => rfl, fun _ => refused_completes fun _ => rfl,
    fun _ => refused_completes fun _ => rfl, refused_completes fun _ => rfl, refused_completes fun _ => rfl,
    refused_completes fun _ => rfl,
    fun _ hp => refused_completes_when (by simp [hp]) fun _ => rfl,
    fun _ hp => refused_completes_when (by simp [hp]) fun _ => rfl,
    refused_completes fun _ => rfl, fun _ => refused_completes fun _ => rfl,
    fun _ => refused_completes fun _ => rfl, fun _ => refused_completes fun _ => rfl,
    refused_completes fun _ => rfl, refused_completes fun _ => rfl, fun _ => refused_completes fun _ => rfl,
    fun hp => refused_completes_when (by simp [hp]) fun _ => rfl,
    fun hp => refused_completes_when (by simp [hp]) fun _ => rfl,
    fun hp => refused_completes_when (by simp [hp]) fun _ => rfl,
    fun hp => refused_completes_when (by simp [hp]) fun _ => rfl,
    fun l slot => tempCurveWrite_refused t l slot w, fun _ => refused_completes fun _ => rfl,
    fun _ => refused_completes fun _ => rfl,
    fun _ => refused_completes fun _ => rfl, fun _ hp => refused_completes_when (by simp [hp]) fun _ => rfl,
    fun _ _ hp => refused_completes_when (by simp [hp]) fun _ => rfl, fun _ => refused_completes fun _ => rfl,
    refused_completes fun _ => rfl,
    refused_completes fun _ => rfl, refused_completes fun _ => rfl, refused_completes fun _ => rfl,
    refused_completes fun _ => rfl, refused_completes fun _ => rfl,
    fun _ hp => refused_completes_when (by simp [hp]) fun _ => rfl,
    fun _ hp => refused_completes_when (by simp [hp]) fun _ => rfl,
    fun _ hp => refused_completes_when (by simp [hp]) fun _ => rfl,
    fun _ hp => refused_completes_when (by simp [hp]) fun _ => rfl,
    refused_completes fun _ => rfl, refused_completes fun _ => rfl, refused_completes fun _ => rfl,
    refused_completes fun _ => rfl, refused_completes fun _ => rfl,
    fun _ => refused_completes fun _ => rfl, refused_completes fun _ => rfl, refused_completes fun _ => rfl,
    refused_completes fun _ => rfl,
    fun _ => refused_completes fun _ => rfl, fun _ _ => refused_completes fun _ => rfl,
    fun _ => refused_completes fun _ => rfl,
    fun _ => refused_completes fun _ => rfl, fun _ => refused_completes fun _ => rfl,
    refused_completes fun _ => rfl, fun _ => refused_completes fun _ => rfl,
    fun _ => refused_completes fun _ => rfl, refused_completes fun _ => rfl, refused_completes fun _ => rfl,
    refused_completes fun _ => rfl,
    refused_completes fun _ => rfl, refused_completes fun _ => rfl, refused_completes fun _ => rfl,
    refused_completes fun _ => rfl, refused_completes fun _ => rfl,
    refused_completes fun _ => rfl, refused_completes fun _ => rfl,
    fun _ _ hp => refused_completes_when (by simp [hp]) fun _ => rfl,
    refused_completes fun _ => rfl, refused_completes fun _ => rfl, refused_completes fun _ => rfl,
    refused_completes fun _ => rfl, refused_completes fun _ => rfl,
    refused_completes fun _ => rfl, refused_completes fun _ => rfl⟩

end Sys2Proof.Machine
end

section
/-! # Rules of the state that the command families use

Registers as a function of the register map, what an answer and a write leave, and what stays pending. -/

namespace Sys2Proof.Machine

/-! ### Registers -/

/-- The value that a register map gives a key on a part. -/
def regIn (d : SMap) (p : Part) (k : Nat) : Nat := (SMap.find d k).getD (defaultOf p k)

theorem State.reg_eq (s : State) (k : Nat) : s.reg k = regIn s.dict s.part k := by
  unfold State.reg regIn
  cases SMap.find s.dict k <;> rfl

@[simp] theorem regIn_put (d : SMap) (p : Part) (k v q : Nat) :
    regIn (SMap.put d k v) p q = if q = k then v else regIn d p q := by
  rw [regIn, SMap.find_put, apply_ite (Option.getD · (defaultOf p q)), Option.getD_some, regIn]

/-- A state whose map differs from another's only at listed keys reads as it does elsewhere. -/
theorem regsBut_of {b u : State} {keys : List Nat} (hp : u.part = b.part)
    (h : ∀ q, q ∉ keys → regIn u.dict b.part q = regIn b.dict b.part q) : b.regsBut keys u := fun q hq => by
  rw [State.reg_eq, State.reg_eq, hp, h q hq]

theorem regsBut_of_dict {b u : State} {keys : List Nat} (hp : u.part = b.part) (hd : u.dict = b.dict) :
    b.regsBut keys u := regsBut_of hp fun _ _ => by rw [hd]

/-! ### Answers -/

section Answer

variable (p : WPath) (code : Nat) (s : State)

@[simp] theorem answer_pending : ((answer p code).run s).pending = s.pending := by rw [run_answer]
@[simp] theorem answer_part : ((answer p code).run s).part = s.part := by rw [run_answer]
@[simp] theorem answer_now : ((answer p code).run s).now = s.now := by rw [run_answer]
@[simp] theorem answer_free : ((answer p code).run s).free = s.free := by rw [run_answer]
@[simp] theorem answer_dict : ((answer p code).run s).dict = s.dict := by rw [run_answer]
@[simp] theorem answer_mem : ((answer p code).run s).mem = s.mem := by rw [run_answer]
@[simp] theorem answer_ev : ((answer p code).run s).ev = s.ev := by rw [run_answer]
@[simp] theorem answer_sys : ((answer p code).run s).sys = s.sys := by rw [run_answer]
@[simp] theorem answer_can : ((answer p code).run s).can = s.can := by rw [run_answer]
@[simp] theorem answer_pos : ((answer p code).run s).pos = s.pos := by rw [run_answer]
@[simp] theorem answer_codec : ((answer p code).run s).codec = s.codec := by rw [run_answer]
@[simp] theorem answer_comp : ((answer p code).run s).comp = s.comp := by rw [run_answer]
@[simp] theorem answer_tone : ((answer p code).run s).tone = s.tone := by rw [run_answer]
@[simp] theorem answer_fire : ((answer p code).run s).fire = s.fire := by rw [run_answer]
@[simp] theorem answer_link : ((answer p code).run s).link = s.link := by rw [run_answer]
@[simp] theorem answer_cam : ((answer p code).run s).cam = s.cam := by rw [run_answer]
@[simp] theorem answer_ill : ((answer p code).run s).ill = s.ill := by rw [run_answer]
@[simp] theorem answer_loop : ((answer p code).run s).loop = s.loop := by rw [run_answer]
@[simp] theorem answer_dram : ((answer p code).run s).dram = s.dram := by rw [run_answer]
@[simp] theorem answer_dma : ((answer p code).run s).dma = s.dma := by rw [run_answer]
@[simp] theorem answer_net : ((answer p code).run s).net = s.net := by rw [run_answer]
@[simp] theorem answer_time : ((answer p code).run s).time = s.time := by rw [run_answer]
@[simp] theorem answer_health : ((answer p code).run s).health = s.health := by rw [run_answer]
@[simp] theorem answer_bridle : ((answer p code).run s).bridle = s.bridle := by rw [run_answer]
@[simp] theorem answer_sec : ((answer p code).run s).sec = s.sec := by rw [run_answer]

/-- Outputs already made stay among the outputs when an answer is given. -/
theorem mem_out_answer {o : Out} (h : o ∈ s.out) : o ∈ ((answer p code).run s).out := by
  cases p
  · exact h
  · exact List.mem_append_left _ h
  · exact List.mem_append_left _ h

end Answer

theorem only_refl (b : State) : b.only [] b := fun p _ => p.same_refl b

/-- Frames follow one another. -/
theorem only_trans {b u v : State} {l : List Piece} (h : b.only l u) (k : u.only l v) : b.only l v :=
  fun p hp => Piece.same_trans (h p hp) (k p hp)

theorem only_answered {b u : State} {l : List Piece} (h : b.only l u) (p : WPath) (code : Nat) :
    b.only l ((answer p code).run u) :=
  only_trans h (only_of_fits (fits_answer p code) u)

/-- A tree of changes that fits the pieces leaves the others, also when notifications have gone out. -/
theorem only_sent_of_fits {a : Act} {l : List Piece} (h : a.All (Prim.Fits l)) (b : State) :
    b.only l (a.run b).notifySend := only_sent (only_of_fits h b)

/-! ### Completed writes -/

/-- A command that is one dictionary write completes with its owner's changes where the dictionary and the owner accept
the write. -/
theorem completes_write {c : Instr} {t idx sub : Nat} {w : Wr} {eff : Effect} {pre : State → Prop}
    {post : State → State → Prop} (hx : ∀ s, exec c s = perform t (writeBy idx sub eff w) s)
    (h : ∀ b, pre b → ∃ v a, b.takes idx sub w v ∧ eff b { w with val := v } = accept a
      ∧ post b ((answer w.path 0).run (a.run b)).notifySend) : Completes c t pre post :=
  completes_of hx fun b _ hb => by
    obtain ⟨v, a, htake, ha, hpost⟩ := h b hb
    rwa [run_writeBy_takes htake ha]

/-- What an accepted write leaves when its owner's changes fit the pieces. -/
theorem only_write {a : Act} {l : List Piece} (h : a.All (Prim.Fits l)) (p : WPath) (b : State) :
    b.only l ((answer p 0).run (a.run b)).notifySend := only_sent (only_answered (only_of_fits h b) p 0)

end Sys2Proof.Machine
end

section
/-! # The event entries (R74, R78–R81) -/

namespace Sys2Proof.Machine

theorem eventPendingClear_completes (t sub : Nat) (w : Wr) :
    Completes (.eventPendingClear t sub w) t (fun b => b.takes 0x2100 sub w w.val)
      fun b u => (∀ n, n < 256 → u.ev.pending.getLsbD n
          = (b.ev.pending.getLsbD n && !(decide (n / 32 + 1 = sub) && w.val.testBit (n % 32))))
        ∧ u.ev = { b.ev with pending := u.ev.pending } ∧ u.dict = b.dict ∧ b.only [.ev, .dict] u :=
  completes_write (fun _ => rfl) fun b htake => by
    obtain ⟨hsub, hval⟩ := takes_eventWord (.inl rfl) htake
    refine ⟨_, _, htake, rfl, fun n hn => ?_, by simp [Prim.apply], by simp [Prim.apply], only_write (by simp) _ b⟩
    have hword : n / 32 = sub - 1 ↔ n / 32 + 1 = sub := by omega
    simp only [State.notifySend_ev, answer_ev, Act.run_prim, Prim.apply, pending_evClear_word hval _ _ hn, hword]

theorem eventMaskWrite_completes (t sub : Nat) (w : Wr) :
    Completes (.eventMaskWrite t sub w) t (fun b => b.takes 0x2101 sub w w.val)
      fun b u => (∀ n, n < 256 → u.ev.masked n = if n / 32 + 1 = sub then w.val.testBit (n % 32) else b.ev.masked n)
        ∧ u.ev = { b.ev with mask := u.ev.mask } ∧ u.dict = b.dict ∧ b.only [.ev, .dict] u :=
  completes_write (fun _ => rfl) fun b htake => by
    obtain ⟨hsub, hval⟩ := takes_eventWord (.inr rfl) htake
    refine ⟨_, _, htake, rfl, fun n hn => ?_, by simp [Prim.apply], by simp [Prim.apply], only_write (by simp) _ b⟩
    have hword : n / 32 = sub - 1 ↔ n / 32 + 1 = sub := by omega
    have hmask := masked_evMask_word (s := b) hval (sub - 1) hn
    rw [State.notifySend_ev, answer_ev]
    exact hmask.trans (by simp only [hword])

theorem eventRouteWrite_completes (t n : Nat) (w : Wr) (hn : reservedEvent n = false) (hw : w.val &&& 0x00FF0703 = w.val) :
    Completes (.eventRouteWrite t n w) t
      (fun b => b.takes (eventPlace 0x2110 n).1 (eventPlace 0x2110 n).2 w w.val)
      fun b u => u.ev.route n = w.val ∧ (∀ m, m ≠ n → u.ev.route m = b.ev.route m)
        ∧ u.ev = { b.ev with routes := u.ev.routes } ∧ u.dict = b.dict ∧ b.only [.ev, .dict] u :=
  completes_write (fun _ => rfl) fun b htake => by
    have heff : effRoute n b w = accept (.prim (.evRoute n w.val)) := by simp [effRoute, hw, hn]
    refine ⟨_, _, htake, heff, ?_, fun m hm => ?_, ?_, by simp [Prim.apply], only_write (by simp) _ b⟩
    all_goals simp only [State.notifySend_ev, answer_ev, Act.run_prim, Prim.apply, Ev.setRoute, hn, Bool.false_eq_true,
      if_false, hw]
    · simp [Ev.route]
    · simp [Ev.route, SMap.find_put_ne _ _ hm]

theorem eventCountClear_completes (t n : Nat) (w : Wr) (hn : reservedEvent n = false) (hw : w.val = 0) :
    Completes (.eventCountClear t n w) t
      (fun b => b.takes (eventPlace 0x2120 n).1 (eventPlace 0x2120 n).2 w w.val)
      fun b u => u.ev.count n = 0 ∧ (∀ m, m ≠ n → u.ev.count m = b.ev.count m)
        ∧ u.ev = { b.ev with counts := u.ev.counts } ∧ u.dict = b.dict ∧ b.only [.ev, .dict] u :=
  completes_write (fun _ => rfl) fun b htake => by
    have heff : effCount n b w = accept (.prim (.evCount n 0)) := by simp [effCount, hw, hn, when]
    refine ⟨_, _, htake, heff, ?_, fun m hm => ?_, ?_, by simp [Prim.apply], only_write (by simp) _ b⟩
    all_goals simp only [State.notifySend_ev, answer_ev, Act.run_prim, Prim.apply, Ev.setCount, hn, Bool.false_eq_true,
      if_false]
    · simp [Ev.count]
    · simp [Ev.count, SMap.find_put_ne _ _ hm]

theorem emcyInhibitExpiry_completes (t : Nat) (e : Emcy) (q : List Emcy) :
    Completes (.emcyInhibitExpiry t) t
      (fun b => b.ev.emcyQueue = e :: q ∧ b.can.booted = true ∧ b.emcyFree = true)
      fun b u => .emcy b.emcyCob e b.ev.errorRegister ∈ u.out
        ∧ u.ev = { b.ev with emcyQueue := q, emcyLast := some b.now
                             errorHist := (e.code :: b.ev.errorHist).take 16 } ∧ b.only [.ev] u :=
  completes_of (fun _ => rfl) fun b _ ⟨hq, hbooted, hfree⟩ => by
    have hnext : b.emcyNext = ({ b with ev := { b.ev with emcyQueue := q } } : State).sendEmcy e := by
      simp [State.emcyNext, hq, hbooted, hfree]
    refine ⟨?_, ?_, only_sent_of_fits (by simp) b⟩
    all_goals simp only [Act.run_prim, Prim.apply, hnext, State.notifySend_ev]
    · exact mem_out_notifySend (List.mem_append_right _ List.mem_cons_self)
    · rfl

/-- Settles O7: each entry's write is one change of the event unit, on the word or the event it names. -/
theorem eventEntriesComplete : Obligations.EventEntriesComplete :=
  ⟨eventPendingClear_completes, eventMaskWrite_completes, eventRouteWrite_completes, eventCountClear_completes,
    fun t w => completes_write (fun _ => rfl) fun b htake =>
      ⟨_, .prim .evHistory, htake, rfl, by simp [Prim.apply], by simp [Prim.apply], only_write (by simp) _ b⟩,
    emcyInhibitExpiry_completes⟩

end Sys2Proof.Machine
end

section
/-! # The position unit's outputs and the test port (R125–R127, R470) -/

namespace Sys2Proof.Machine

/-! ### Lists changed in one place -/

@[simp] theorem getElem?_modAt {α : Type} (l : List α) (i : Nat) (f : α → α) (j : Nat) :
    (modAt l i f)[j]? = if j = i then l[j]?.map f else l[j]? := by
  unfold modAt
  cases hl : l[i]? with
  | none => by_cases h : j = i <;> simp_all
  | some x =>
    have hi : i < l.length := (List.getElem?_eq_some_iff.mp hl).1
    by_cases h : j = i
    · simp_all
    · simp [h, List.getElem?_set_ne (Ne.symm h)]

@[simp] theorem getElem_modAt {α : Type} (l : List α) (i : Nat) (f : α → α) (j : Nat)
    (h : j < (modAt l i f).length) :
    (modAt l i f)[j] = if j = i then f (l[j]'(by simpa using h)) else l[j]'(by simpa using h) := by
  have hj : j < l.length := by simpa using h
  rw [List.getElem_eq_iff, getElem?_modAt]
  by_cases hji : j = i
  · subst hji
    simp [hj]
  · simp [hji, hj]

/-! ### Choices between trees -/

theorem run_ite_of {c : Prop} [Decidable c] (h : c) (a a' : Act) (s : State) :
    (if c then a else a').run s = a.run s := by rw [if_pos h]

theorem run_ite_of_not {c : Prop} [Decidable c] (h : ¬c) (a a' : Act) (s : State) :
    (if c then a else a').run s = a'.run s := by rw [if_neg h]

/-! ### Bytes and reads -/

@[simp] theorem length_leBytes (n v : Nat) : (leBytes n v).length = n := by
  induction n generalizing v with
  | zero => rfl
  | succ n ih => simp [leBytes, ih]

theorem leNat_leBytes (n v : Nat) : leNat (leBytes n v) = v % 2 ^ (8 * n) := by
  induction n generalizing v with
  | zero => simp [leBytes, leNat, Nat.mod_one]
  | succ n ih =>
    rw [leBytes, leNat, ih, Nat.mod_mod, show 2 ^ (8 * (n + 1)) = 256 * 2 ^ (8 * n) by ring, Nat.mod_mul]

theorem rawOf_lt (bytes : Nat) (v : Int) : rawOf bytes v < 2 ^ (8 * bytes) := by
  have hpos : (0 : Int) < ((2 ^ (8 * bytes) : Nat) : Int) := by exact_mod_cast Nat.two_pow_pos _
  have h := Int.emod_lt_of_pos v hpos
  have h' := Int.emod_nonneg v hpos.ne'
  rw [rawOf]
  omega

/-- A read that the dictionary admits is of an entry, with the type that the rows of its place have. -/
theorem entry_type_of_checkRead {s : State} {idx sub : Nat} (ty : Ty) (hc : checkRead s idx sub = 0)
    (ht : ((entriesOfPage (idx / 256)).all fun r => !(r.has idx sub) || r.ty == ty) = true) :
    ∃ e, s.entry idx sub = some e ∧ e.ty = ty := by
  unfold checkRead at hc
  split at hc
  · cases hc
  split at hc
  · split at hc <;> cases hc
  next e he =>
  obtain ⟨r, hmem, hhas, hty, -⟩ := entry_row he
  refine ⟨e, he, hty.trans ?_⟩
  simpa [hhas] using List.all_eq_true.mp ht r hmem

/-! ### Outputs of the position unit -/

theorem comparePulseEnd_completes (t k v : Nat) :
    Completes (.comparePulseEnd t k) t (fun b => b.pos.cmpUntil.getD k none = some v ∧ v ≤ b.now)
      fun b u => u.pos.cmpUntil.getD k none = none ∧ .ball (.cmpOut k) 0 ∈ u.out ∧ b.only [.dict, .pos] u :=
  completes_of (fun _ => rfl) fun b _ ⟨hv, hle⟩ => by
  have hk : k < b.pos.cmpUntil.length := by
    by_contra hk
    simp [List.getElem?_eq_none (Nat.le_of_not_lt hk)] at hv
  have hpos : ((lineWithdrawn k).run b).pos = b.pos := only_of_fits (fits_lineWithdrawn (pcs := [.dict]) k (by simp)) b
    .pos (by simp)
  simp only [Act.run_read, hv, hle, decide_true, run_when, if_true]
  exact ⟨by simp [Prim.apply, hpos, hk], mem_out_notifySend (by simp), only_sent_of_fits (by simp [Pos.Sized]) b⟩

theorem emulationEdge_completes (t k : Nat) :
    k < 4 →
    Completes (.emulationEdge t k) t
      (fun b => k < b.pos.emus.length ∧ b.counting (b.reg (K.EmulationSource + k)) = true
        ∧ b.flag (K.FunctionEnable + 10) = true
        ∧ (∀ v, (b.pos.emus.getD k {}).lastAt = some v → v + 40 ≤ b.now)
        ∧ b.emuTarget k (b.pos.emus.getD k {}) ≠ (b.pos.emus.getD k {}).count)
      fun b u =>
        let e := b.pos.emus.getD k {}
        let n := if e.count < b.emuTarget k e then e.count + 1 else e.count - 1
        (u.pos.emus.getD k {}).count = n ∧ (u.pos.emus.getD k {}).lastAt = some b.now
        ∧ u.reg (K.EmulationBacklog + k) = (b.emuTarget k e - n).natAbs
        ∧ .ball (.em k) ((quadLevels n).1 + 2 * (quadLevels n).2 + if b.emuZ k e n then 4 else 0) ∈ u.out
        ∧ b.regsBut [K.EmulationBacklog + k] u ∧ b.only [.dict, .pos] u :=
  fun hk => completes_of (fun _ => rfl) fun b _ ⟨hlen, hcount, hfun, hfree, hne⟩ => by
  simp only [Act.run_read]
  rw [run_ite_of]
  rotate_left
  · simp only [hk, hcount, hfun, bne_iff_ne.mpr hne, decide_true, Bool.and_true, Bool.true_and]
    split
    next u hu => simp [hfree u hu]
    next => rfl
  refine ⟨by simp [Prim.apply, hlen], by simp [Prim.apply, hlen], by simp [State.reg_eq, Prim.apply],
    mem_out_notifySend (by simp), regsBut_of (by simp [Prim.apply]) (by simp +contextual [Prim.apply]),
    only_sent_of_fits (by simp [Pos.Sized]) b⟩

theorem webPositionLatch_completes (t : Nat) (path : WPath) :
    Completes (.webPositionLatch t path) t (fun b => checkRead b 0x2301 1 = 0)
      fun b u => u.webLatch path = some ((List.range 10).map fun i => b.webEntry (i + 1)) ∧ u.dict = b.dict
        ∧ .reply path (b.webEntry 1) 8 ∈ u.out ∧ u.mem = b.mem := completes_of (fun _ => rfl) fun b _ hc => by
  simp only [readReply, run_readAny_admitted hc]
  rw [if_pos trivial]
  obtain ⟨e, he, hty⟩ := entry_type_of_checkRead (.i 8) hc (by decide)
  have hbytes : ((latchWeb path).run b).entryBytes path e 0x2301 1 = leBytes 8 (b.webEntry 1) := by
    rw [State.entryBytes, hty]
    rfl
  have he' : ((latchWeb path).run b).entry 0x2301 1 = some e := he
  have hval : leNat (leBytes 8 (b.webEntry 1)) = b.webEntry 1 :=
    (leNat_leBytes 8 _).trans (Nat.mod_eq_of_lt (rawOf_lt 8 _))
  have hrun : ∀ k, (readBytes path 0x2301 1 k).run ((latchWeb path).run b)
      = (k 0 (leBytes 8 (b.webEntry 1))).run ((latchWeb path).run b) := fun k => by
    simp only [readBytes, Act.run_read, he', Option.elim_some, hbytes]
  simp only [hrun, if_true, hval, length_leBytes]
  refine ⟨?_, by simp [latchWeb, Prim.apply], mem_out_notifySend (by simp), by simp [latchWeb, Prim.apply]⟩
  simp [State.webLatch, latchWeb, Prim.apply]


/-- Settles O14: each command is one sequence of changes where its condition holds. -/
theorem positionOutputsComplete : Obligations.PositionOutputsComplete :=
  ⟨comparePulseEnd_completes, emulationEdge_completes, webPositionLatch_completes⟩

/-! ### The test port -/

/-- What shifting the boundary register leaves: its bits out, the bits in, and the cells as held at the capture. -/
theorem boundaryScan_leaves (tdi n : Nat) (drive : Bool) (b : State) :
    let u := ((boundaryScan tdi n drive).run b).notifySend
    ((∃ cells, cells < 2 ^ Config.boundaryLength
      ∧ .ball .tdo ((cells + tdi * 2 ^ Config.boundaryLength) % 2 ^ n) ∈ u.out
      ∧ u.sec = { b.sec with
          boundary := (cells + tdi * 2 ^ Config.boundaryLength) / 2 ^ n % 2 ^ Config.boundaryLength })
      ∧ (drive = true → .pins (some u.sec.boundary) ∈ u.out)) ∧ u.dict = b.dict ∧ b.only [.sec] u := by
  dsimp only
  rw [boundaryScan, run_drawFree]
  generalize Config.boundaryLength = len
  generalize Config.freeValue b.free = v
  refine ⟨⟨⟨v % 2 ^ len, Nat.mod_lt _ (Nat.two_pow_pos _), mem_out_notifySend ?_, ?_⟩, fun hdrive => ?_⟩, ?_, ?_⟩
  · cases drive <;> simp [Prim.apply]
  · cases drive <;> simp [Prim.apply]
  · subst hdrive
    exact mem_out_notifySend (by simp [Prim.apply])
  · cases drive <;> simp [Prim.apply]
  · exact only_sent (only_trans (only_mono (only_free b _) (by simp)) (only_of_fits (by simp) _))

/-- What shifting the bypass bit leaves. -/
theorem bypass_leaves (tdi n : Nat) (b : State) :
    let u := ((bypass tdi n).run b).notifySend
    (.ball .tdo (tdi * 2 % 2 ^ n) ∈ u.out ∧ u.sec = b.sec) ∧ u.dict = b.dict ∧ b.only [.sec] u :=
  ⟨⟨mem_out_send _ _, by simp [bypass]⟩, by simp [bypass], only_sent_of_fits (by simp) b⟩

/-- Settles O46: each instruction shifts one register, and with RESET_N low also drives the balls. -/
theorem testPortCompletes : Obligations.TestPortCompletes := by
  intro t tdi n
  refine ⟨?_, ?_, ?_, ?_, ?_, ?_, ?_, ?_, ?_⟩ <;> refine completes_of (fun _ => rfl) fun b _ _ => ?_
  · exact bypass_leaves tdi n b
  · exact ⟨⟨mem_out_send _ _, by simp⟩, by simp, only_sent_of_fits (by simp) b⟩
  · obtain ⟨⟨hscan, -⟩, hrest⟩ := boundaryScan_leaves tdi n false b
    exact ⟨hscan, hrest⟩
  · rw [run_ite_of rfl]
    obtain ⟨⟨hscan, hpins⟩, hrest⟩ := boundaryScan_leaves tdi n true b
    exact ⟨⟨hscan, hpins rfl⟩, hrest⟩
  · rw [run_ite_of_not (by decide)]
    exact bypass_leaves tdi n b
  · exact ⟨⟨mem_out_notifySend (by simp [bypass]), mem_out_notifySend (by simp [bypass]), by simp [bypass]⟩,
      by simp [bypass], only_sent_of_fits (by simp [bypass]) b⟩
  · exact ⟨⟨mem_out_notifySend (by simp [bypass]), by simp [bypass]⟩, by simp [bypass],
      only_sent_of_fits (by simp [bypass]) b⟩
  · exact ⟨⟨mem_out_notifySend (by simp [bypass]), mem_out_notifySend (by simp [bypass]), by simp [bypass]⟩,
      by simp [bypass], only_sent_of_fits (by simp [bypass]) b⟩
  · exact ⟨⟨mem_out_notifySend (by simp [bypass]), by simp [bypass]⟩, by simp [bypass],
      only_sent_of_fits (by simp [bypass]) b⟩

end Sys2Proof.Machine
end

section
/-! # What a tree of changes keeps

Registers outside the keys that a tree sets, events pending, and the events that a sequence raises. -/

namespace Sys2Proof.Machine

/-! ### Registers and pieces of a state written out -/

@[simp] theorem regIn_self (s : State) (k : Nat) : regIn s.dict s.part k = s.reg k := (State.reg_eq s k).symm

@[simp] theorem reg_mk (pending : List Instr) (part : Part) (now : Nat) (out : List Out) (free : Nat) (dict : SMap)
    (mem : Memory) (ev : Ev) (sys : Sys) (can : CanSt) (pos : Pos) (codec : Codec) (comp : Comp) (tone : Tone)
    (fire : Fire) (link : Links) (cam : Cam) (ill : Illum) (loop : Loop) (dram : Dram) (dma : Dma) (net : Net)
    (time : TimeSt) (health : Health) (bridle : Bridle) (sec : Sec) (k : Nat) :
    State.reg ⟨pending, part, now, out, free, dict, mem, ev, sys, can, pos, codec, comp, tone, fire, link, cam, ill,
      loop, dram, dma, net, time, health, bridle, sec⟩ k = regIn dict part k := State.reg_eq _ k

@[simp] theorem Prim.apply_out (o : Out) (s : State) : (Prim.out o).apply s = { s with out := s.out ++ [o] } := rfl
@[simp] theorem Prim.apply_store (a n v : Nat) (s : State) :
    (Prim.store a n v).apply s = { s with mem := Memory.storeValue s.mem a n v } := rfl
@[simp] theorem Prim.apply_storeBytes (a : Nat) (l : List Nat) (s : State) :
    (Prim.storeBytes a l).apply s = { s with mem := Memory.storeBytes s.mem a l } := rfl
@[simp] theorem Prim.apply_copy (a b n : Nat) (s : State) :
    (Prim.copy a b n).apply s = { s with mem := Memory.copy s.mem a b n } := rfl
@[simp] theorem Prim.apply_erase (a n : Nat) (s : State) :
    (Prim.erase a n).apply s = { s with mem := Memory.erase s.mem a n } := rfl
@[simp] theorem Prim.apply_occur (n : Nat) (s : State) : (Prim.occur n).apply s = s.occur n := rfl
@[simp] theorem Prim.apply_set (k v : Nat) (s : State) :
    (Prim.set k v).apply s = { s with dict := SMap.put s.dict k v } := rfl
@[simp] theorem Prim.apply_sys (f : Sys → Sys) (s : State) :
    (Prim.sys f).apply s = { s with sys := f s.sys } := rfl
@[simp] theorem Prim.apply_can (f : CanSt → CanSt) (s : State) :
    (Prim.can f).apply s = { s with can := f s.can } := rfl
@[simp] theorem Prim.apply_pos (f : Pos → Pos) (s : State) :
    (Prim.pos f).apply s = { s with pos := f s.pos } := rfl
@[simp] theorem Prim.apply_codec (f : Codec → Codec) (s : State) :
    (Prim.codec f).apply s = { s with codec := f s.codec } := rfl
@[simp] theorem Prim.apply_comp (f : Comp → Comp) (s : State) :
    (Prim.comp f).apply s = { s with comp := f s.comp } := rfl
@[simp] theorem Prim.apply_tone (f : Tone → Tone) (s : State) :
    (Prim.tone f).apply s = { s with tone := f s.tone } := rfl
@[simp] theorem Prim.apply_fire (f : Fire → Fire) (s : State) :
    (Prim.fire f).apply s = { s with fire := f s.fire } := rfl
@[simp] theorem Prim.apply_link (f : Links → Links) (s : State) :
    (Prim.link f).apply s = { s with link := f s.link } := rfl
@[simp] theorem Prim.apply_cam (f : Cam → Cam) (s : State) :
    (Prim.cam f).apply s = { s with cam := f s.cam } := rfl
@[simp] theorem Prim.apply_ill (f : Illum → Illum) (s : State) :
    (Prim.ill f).apply s = { s with ill := f s.ill } := rfl
@[simp] theorem Prim.apply_loop (f : Loop → Loop) (s : State) :
    (Prim.loop f).apply s = { s with loop := f s.loop } := rfl
@[simp] theorem Prim.apply_dram (f : Dram → Dram) (s : State) :
    (Prim.dram f).apply s = { s with dram := f s.dram } := rfl
@[simp] theorem Prim.apply_dma (f : Dma → Dma) (s : State) :
    (Prim.dma f).apply s = { s with dma := f s.dma } := rfl
@[simp] theorem Prim.apply_net (f : Net → Net) (s : State) :
    (Prim.net f).apply s = { s with net := f s.net } := rfl
@[simp] theorem Prim.apply_time (f : TimeSt → TimeSt) (s : State) :
    (Prim.time f).apply s = { s with time := f s.time } := rfl
@[simp] theorem Prim.apply_health (f : Health → Health) (s : State) :
    (Prim.health f).apply s = { s with health := f s.health } := rfl
@[simp] theorem Prim.apply_bridle (f : Bridle → Bridle) (s : State) :
    (Prim.bridle f).apply s = { s with bridle := f s.bridle } := rfl
@[simp] theorem Prim.apply_sec (f : Sec → Sec) (s : State) :
    (Prim.sec f).apply s = { s with sec := f s.sec } := rfl

theorem part_run (a : Act) (s : State) : (a.run s).part = s.part :=
  Act.run_keeps (fun u => u.part = s.part) (fun p u h => (Prim.apply_part p u).trans h) a s rfl

/-- The primitive sets no register but those that `P` admits, and forgets no event. -/
@[simp] def Prim.Calm (P : Nat → Prop) : Prim → Prop
  | .set k _ => P k
  | .unset _ => False
  | .load _ => False
  | .evClear _ => False
  | .evReset => False
  | _ => True

theorem Prim.Calm.mono {P Q : Nat → Prop} (hpq : ∀ k, P k → Q k) {p : Prim} (h : p.Calm P) : p.Calm Q := by
  cases p <;> first | exact hpq _ h | exact h

theorem Prim.Calm.reg {P : Nat → Prop} {q : Nat} (hq : ¬P q) {p : Prim} (h : p.Calm P) (s : State) :
    (p.apply s).reg q = s.reg q := by
  by_cases hd : Piece.dict ∈ p.touches
  · cases p <;> simp [Prim.touches] at hd
    case set k v => exact State.reg_set_ne s v fun e => hq (e ▸ h)
    case unset keep => exact h.elim
    case load m => exact h.elim
  · exact State.reg_congr (Prim.only_touches p s .dict hd) (Prim.apply_part p s) q

theorem Prim.Calm.forgets {P : Nat → Prop} {p : Prim} (h : p.Calm P) : p.forgets = false := by
  cases p <;> first | rfl | exact h.elim

/-- A calm tree leaves every register that its keys leave out. -/
theorem Act.All.reg_calm {P : Nat → Prop} {a : Act} (h : a.All (Prim.Calm P)) {q : Nat} (hq : ¬P q) (s : State) :
    (a.run s).reg q = s.reg q :=
  Act.All.keeps (P := Prim.Calm P) (fun s => s.reg q) (fun _ s hp => hp.reg hq s) h s

/-- The same, with the keys left out said as the one key asked for. -/
theorem Act.All.reg_other {a : Act} {q : Nat} (h : a.All (Prim.Calm (· ≠ q))) (s : State) :
    (a.run s).reg q = s.reg q := h.reg_calm (not_not.mpr rfl) s

theorem reg_of_fits {a : Act} {l : List Piece} (h : a.All (Prim.Fits l)) (hl : .dict ∉ l) (s : State) (q : Nat) :
    (a.run s).reg q = s.reg q := State.reg_congr (only_of_fits h s .dict hl) (part_run a s) q

theorem regsBut_of_calm {a : Act} {keys : List Nat} (h : a.All (Prim.Calm (· ∈ keys))) (b : State) :
    b.regsBut keys (a.run b) := fun _ hq => h.reg_calm hq b

theorem Act.All.pending_calm {P : Nat → Prop} {a : Act} (h : a.All (Prim.Calm P)) {s : State} {m : Nat}
    (hm : s.ev.pending.getLsbD m = true) : (a.run s).ev.pending.getLsbD m = true :=
  Act.All.pending (h.mono fun _ => Prim.Calm.forgets) hm

@[simp] theorem calm_answer (P : Nat → Prop) (p : WPath) (code : Nat) : (answer p code).All (Prim.Calm P) := by
  cases p <;> simp [answer]

theorem regsBut_trans {b u v : State} {keys : List Nat} (h : b.regsBut keys u) (k : u.regsBut keys v) :
    b.regsBut keys v := fun q hq => (k q hq).trans (h q hq)

theorem regsBut_mono {b u : State} {keys more : List Nat} (h : b.regsBut keys u) (hk : keys ⊆ more) :
    b.regsBut more u := fun q hq => h q fun hm => hq (hk hm)

@[simp] theorem regsBut_notifySend {b u : State} {keys : List Nat} : b.regsBut keys u.notifySend ↔ b.regsBut keys u := by
  simp [State.regsBut]

@[simp] theorem regsBut_answer {b u : State} {keys : List Nat} {p : WPath} {code : Nat} :
    b.regsBut keys ((answer p code).run u) ↔ b.regsBut keys u := by
  simp [State.regsBut]

theorem regsBut_sent {a : Act} {keys : List Nat} (h : a.All (Prim.Calm (· ∈ keys))) (b : State) :
    b.regsBut keys (a.run b).notifySend := regsBut_notifySend.mpr (regsBut_of_calm h b)

/-- What an accepted write leaves of the registers when its owner's changes are calm. -/
theorem regsBut_write {a : Act} {keys : List Nat} (h : a.All (Prim.Calm (· ∈ keys))) (p : WPath) (b : State) :
    b.regsBut keys ((answer p 0).run (a.run b)).notifySend :=
  regsBut_notifySend.mpr (regsBut_answer.mpr (regsBut_of_calm h b))

/-! ### Events raised -/

/-- The register that says whether CTL is ready, on which the event unit depends. -/
abbrev ctlKey : Nat := 0x220002

theorem ctlReady_of_reg {s b : State} (h : s.reg ctlKey = b.reg ctlKey) (hb : b.islandReady islCTL = true) :
    s.islandReady islCTL = true := by
  have hflag : ∀ u : State, u.islandReady islCTL = (u.reg ctlKey == 1) := fun _ => rfl
  rwa [hflag, h, ← hflag]

@[simp] theorem raised_nil (b u : State) : b.raised [] u := by simp [State.raised]

theorem raised_cons {b u : State} {n : Nat} {l : List Nat} :
    b.raised (n :: l) u ↔ b.raised [n] u ∧ b.raised l u := by
  simp only [State.raised, List.forall_mem_cons, List.not_mem_nil, false_imp_iff, implies_true, and_true]
  exact ⟨fun h => ⟨fun hb => (h hb).1, fun hb => (h hb).2⟩, fun h hb => ⟨h.1 hb, h.2 hb⟩⟩

@[simp] theorem raised_notifySend {b u : State} {l : List Nat} : b.raised l u.notifySend ↔ b.raised l u := by
  simp [State.raised]

@[simp] theorem raised_answer {b u : State} {l : List Nat} {p : WPath} {code : Nat} :
    b.raised l ((answer p code).run u) ↔ b.raised l u := by
  simp [State.raised]

theorem raised_write {a : Act} {b : State} {l : List Nat} (h : b.raised l (a.run b)) (p : WPath) :
    b.raised l ((answer p 0).run (a.run b)).notifySend := raised_notifySend.mpr (raised_answer.mpr h)

theorem raised_occur {n : Nat} (hn : reservedEvent n = false) (b : State) : b.raised [n] (b.occur n) :=
  fun hb m hm => by rw [List.mem_singleton.mp hm]; exact pending_occur_self b n hn hb

theorem raised_raise {n : Nat} (hn : reservedEvent n = false) (b : State) : b.raised [n] ((raise n).run b) :=
  raised_occur hn b

/-- What is raised stays raised over calm changes. -/
theorem raised_before {b u : State} {l : List Nat} (h : b.raised l u) {P : Nat → Prop} {a : Act}
    (ha : a.All (Prim.Calm P)) : b.raised l (a.run u) := fun hb n hn => ha.pending_calm (h hb n hn)

/-- What changes raise, they raise after calm changes that leave CTL's readiness. -/
theorem raised_after {b u v : State} {l : List Nat} (hu : u.reg ctlKey = b.reg ctlKey) (h : u.raised l v) :
    b.raised l v := fun hb => h (ctlReady_of_reg hu hb)

theorem raised_head {b : State} {a : Act} {l : List Act} {n : List Nat} (h : b.raised n (a.run b)) {P : Nat → Prop}
    (hl : (seqs l).All (Prim.Calm P)) : b.raised n ((seqs (a :: l)).run b) :=
  raised_before h hl

theorem raised_tail {b : State} {a : Act} {l : List Act} {n : List Nat} (ha : a.All (Prim.Calm (· ≠ ctlKey)))
    (h : (a.run b).raised n ((seqs l).run (a.run b))) : b.raised n ((seqs (a :: l)).run b) :=
  raised_after (ha.reg_other b) h

end Sys2Proof.Machine
end

section
/-! # Security and packages (R456–R472) -/

namespace Sys2Proof.Machine

/-! ### Bits -/

theorem testBit_setBit_same (v i : Nat) (b : Bool) : (setBit v i b).testBit i = b := by
  simp only [setBit, bit_eq_testBit, beq_iff_eq]
  split
  · assumption
  next h =>
  cases b
  · have hv : v.testBit i = true := by simpa using h
    have hle : 2 ^ i ≤ v := Nat.ge_two_pow_of_testBit hv
    have hsplit : (2 ^ i + (v - 2 ^ i)).testBit i = !(v - 2 ^ i).testBit i := Nat.testBit_two_pow_add_eq _ _
    rw [Nat.add_sub_cancel' hle, hv] at hsplit
    simpa using hsplit.symm
  · have hv : v.testBit i = false := by simpa using h
    rw [if_pos rfl, Nat.add_comm, Nat.testBit_two_pow_add_eq, hv]
    rfl

@[simp] theorem bit_setBit_same (v i : Nat) (b : Bool) : bit (setBit v i b) i = b := by
  rw [bit_eq_testBit, testBit_setBit_same]

/-! ### The lifecycle and the debug level -/

@[simp] theorem calm_setDebug {P : Nat → Prop} (level : Nat) (hd : P K.DebugLevelActual) :
    (setDebug level).All (Prim.Calm P) := by simp [setDebug, hd]

@[simp] theorem calm_syncDebug {P : Nat → Prop} (hg : P K.GrantExpiry) (hd : P K.DebugLevelActual) :
    syncDebug.All (Prim.Calm P) := by simp [syncDebug, hg, hd]

theorem sec_syncDebug (s : State) : (syncDebug.run s).sec = s.sec :=
  only_of_fits (fits_syncDebug (pcs := [.dict, .ev]) (by simp)) s .sec (by simp)

/-- Without a grant no end of one is shown (R470). -/
theorem syncDebug_grantExpiry {s : State} (h : s.sec.grant = none) : (syncDebug.run s).reg K.GrantExpiry = 0 := by
  simp only [syncDebug, Act.run_read, Act.run_seq, h, Option.isNone_none, run_when, if_true]
  rw [Act.All.reg_other (by simp)]
  simp

theorem setDebug_level (level : Nat) (s : State) : ((setDebug level).run s).reg K.DebugLevelActual = level := by
  by_cases h : s.reg K.DebugLevelActual = level <;> simp [setDebug, h]

theorem setDebug_raises {level : Nat} {s : State} (h : s.reg K.DebugLevelActual ≠ level) :
    s.raised [255] ((setDebug level).run s) := by
  simp only [setDebug, Act.run_read, bne_iff_ne.mpr h, run_when, if_true]
  exact raised_after (by simp) (raised_occur rfl _)

/-- Without a grant a Secured part has no trace (R471). -/
theorem syncDebug_level {s : State} (h : s.sec.grant = none) (hlife : s.reg K.LifecycleState = 2) :
    (syncDebug.run s).reg K.DebugLevelActual ≠ 2 := by
  by_cases hd : s.reg K.DebugLevelActual = 2
  · simp_all [syncDebug, State.traceAllowed, setDebug]
  · simp_all [syncDebug, State.traceAllowed]

theorem sec_endGrant (s : State) : (endGrant.run s).sec = { s.sec with grant := none } := sec_syncDebug _

@[simp] theorem calm_endGrant {P : Nat → Prop} (hg : P K.GrantExpiry) (hd : P K.DebugLevelActual) :
    endGrant.All (Prim.Calm P) := by simp [endGrant, hg, hd]

theorem endGrant_grantExpiry (s : State) : (endGrant.run s).reg K.GrantExpiry = 0 := syncDebug_grantExpiry rfl

/-! ### Proofs that fail -/

theorem proofFailed_raises (path : Nat) (b : State) : b.raised [252] ((proofFailed path).run b) := by
  rw [proofFailed, Act.run_read]
  exact raised_tail (by simp) (raised_tail (by simp) (raised_head (raised_raise rfl _) (P := fun _ => True) trivial))

/-- The eighth proof within 60 s that fails locks its path (R460). -/
theorem proofFailed_locks {path : Nat} {b : State}
    (h : 7 ≤ (b.sec.fails.filter fun f => f.1 == path && decide (b.now < f.2 + 60000000000)).length) :
    ((proofFailed path).run b).lockedOut path = true := by
  have hmine : (fun f : Nat × Nat => f.1 == path && (f.1 != path || decide (b.now < f.2 + 60000000000)))
      = fun f => f.1 == path && decide (b.now < f.2 + 60000000000) := funext fun f => by
    cases hf : f.1 == path <;> simp [bne, hf]
  simp [State.lockedOut, proofFailed, Prim.apply, hmine, h]

theorem lockedOut_congr {s u : State} (hs : u.sec = s.sec) (hn : u.now = s.now) (path : Nat) :
    u.lockedOut path = s.lockedOut path := by
  rw [State.lockedOut, hs, hn, State.lockedOut]

theorem lifecycleAdvance_completes (t v : Nat) (w : Wr) :
    w.val = v →
    Completes (.lifecycleAdvance t w) t
      (fun b => b.takes 0x3100 2 w v ∧ isPrint b.mode = false
        ∧ (v = 1 ∧ b.reg K.LifecycleState = 0 ∧ 0 < b.firmwareKeys
            ∧ (∃ i, i < 4 ∧ b.keyLive (0x11 + i) = true)
          ∨ v = 2 ∧ b.reg K.LifecycleState = 1 ∧ b.sec.signed = true))
      fun b u => u.reg K.LifecycleState = v ∧ u.sec.grant = none ∧ u.reg K.GrantExpiry = 0 ∧ b.raised [253] u
        ∧ b.regsBut [K.LifecycleState, K.GrantExpiry, K.DebugLevelActual] u ∧ b.only [.dict, .ev, .sec] u :=
  fun hv => completes_write (fun _ => rfl) fun b ⟨htake, hmode, hlife⟩ => by
  have heff : effLifecycle b { w with val := v } = accept (advanceLifecycle v) := by
    simp only [effLifecycle, hmode, Bool.false_eq_true, if_false]
    rw [if_pos]
    simpa [List.any_eq_true] using hlife
  refine ⟨v, _, htake, heff, ?_, ?_, ?_, ?_, ?_, only_write (by simp) _ b⟩
  · simp only [State.notifySend_reg, answer_reg, advanceLifecycle, run_seqs_cons, run_seqs_nil]
    rw [Act.All.reg_other (by simp)]
    simp
  · simp [advanceLifecycle, sec_endGrant]
  · simp [advanceLifecycle, endGrant_grantExpiry]
  · exact raised_write (raised_tail (by simp) (raised_head (raised_raise rfl _) (P := fun _ => True) (by simp))) _
  · exact regsBut_write (by simp [advanceLifecycle]) _ b

theorem keyInstall_completes (t : Nat) (w : Wr) (k : List Nat) :
    k = leBytes w.len w.val →
    Completes (.keyInstall t w) t
      (fun b => b.takes 0x3130 1 w w.val ∧ isPrint b.mode = false ∧ installFits k = true
        ∧ b.keyStatus (field k 0 1) = 0 ∧ (roleSlot (field k 0 1) = true → ∃ c, w.path = .core c))
      fun b u => u.reg (keyStatusKey (field k 0 1)) = 0x40 + field k 1 1
        ∧ u.keyBytes (field k 0 1) = installKey k
        ∧ (∀ id, id ≠ field k 0 1 → u.keyBytes id = b.keyBytes id)
        ∧ b.regsBut [keyStatusKey (field k 0 1)] u ∧ b.only [.dict, .sec] u :=
  fun hk => completes_write (fun _ => rfl) fun b ⟨htake, hmode, hfits, hempty, hcore⟩ => by
  have hne : field k 0 1 ≠ 0x40 := by
    rintro h
    simp [installFits, h, keySlots] at hfits
  have heff : effKeyInstall b { w with val := w.val } = accept (burnKey k) := by
    simp only [effKeyInstall, hmode, ← hk, hfits, hempty]
    by_cases hr : roleSlot (field k 0 1) = true
    · obtain ⟨c, hc⟩ := hcore hr
      simp [hc]
    · simp [hr]
  refine ⟨w.val, _, htake, heff, by simp [burnKey, Prim.apply], ?_, fun id hid => ?_,
    regsBut_write (by simp [burnKey]) _ b, only_write (by simp) _ b⟩
  · simp [State.keyBytes, hne, burnKey, Prim.apply]
  · have hfind : (((field k 0 1, installKey k) :: b.sec.keys.filter fun x => x.1 != field k 0 1).find?
        fun x => x.1 == id) = b.sec.keys.find? fun x => x.1 == id := by
      rw [List.find?_cons_of_neg (by simpa using Ne.symm hid), List.find?_filter]
      refine congrFun (congrArg _ (funext fun x => ?_)) _
      by_cases hx : x.1 = id <;> simp [hx, hid]
    simp [State.keyBytes, burnKey, Prim.apply, hfind]

theorem keyRevoke_completes (t : Nat) (w : Wr) :
    Completes (.keyRevoke t w) t
      (fun b => b.takes 0x3130 2 w w.val ∧ isPrint b.mode = false ∧ keySlots.contains w.val = true
        ∧ ¬ (signingSlot w.val = true ∧ b.keyLive w.val = true ∧ bit (b.keyStatus w.val) 0 = true
          ∧ b.firmwareKeys = 1))
      fun b u => u.reg (keyStatusKey w.val) = setBit (b.keyStatus w.val) 7 true ∧ u.keyLive w.val = false
        ∧ b.regsBut [keyStatusKey w.val] u ∧ b.only [.dict] u :=
  completes_write (fun _ => rfl) fun b ⟨htake, hmode, hslot, hlast⟩ => by
  have heff : effKeyRevoke b { w with val := w.val } = accept (burnRevoke w.val) := by
    simp only [effKeyRevoke, hmode, hslot]
    rw [if_neg (by decide), if_neg (by simpa using hlast)]
  refine ⟨w.val, _, htake, heff, by simp [burnRevoke], ?_, regsBut_write (by simp [burnRevoke]) _ b,
    only_write (by simp) _ b⟩
  have hslot' : w.val ∈ keySlots := List.contains_iff_mem.mp hslot
  simp [burnRevoke, State.keyLive, State.keyStatus, hslot']

theorem tokenChallenge_completes (t : Nat) (path : WPath) :
    Completes (.tokenChallenge t path) t (fun b => checkRead b 0x3110 1 = 0)
      fun b u => (∃ n, n.length = 16 ∧ u.sec = { b.sec with nonce := some (n, b.now) }
          ∧ .reply path (leNat n) 16 ∈ u.out)
        ∧ u.dict = b.dict ∧ b.only [.sec] u := completes_of (fun _ => rfl) fun b _ hc => by
  simp only [readReply, run_readAny_admitted hc]
  rw [if_neg (by decide), if_neg (by decide), if_pos (by decide)]
  have hlen := length_leBytes 16 (Config.freeValue b.free)
  generalize leBytes 16 (Config.freeValue b.free) = n at hlen
  simp only [if_true, hlen]
  exact ⟨⟨n, hlen, by simp, mem_out_send _ _⟩, by simp,
    only_sent fun p hp => by cases p <;> simp_all [Piece.same]⟩

theorem roleToken_completes (t : Nat) (w : Wr) (n : List Nat) (t0 : Nat) :
    w.path = .can →
    let k := leBytes 17 w.val
    let right := fun (b : State) => b.now < t0 + 1000000000 ∧ roleSlot (field k 0 1) = true
      ∧ b.keyLive (field k 0 1) = true ∧ k.drop 1 = tokenFor (b.keyBytes (field k 0 1)) n b.can.nodeId
    Completes (.roleToken t w) t
      (fun b => b.takes 0x3110 2 w w.val ∧ b.lockedOut pathCan = false ∧ b.sec.nonce = some (n, t0) ∧ right b)
      (fun b u => u.reg K.CanRole = roleOf (field k 0 1)
        ∧ u.can.roleUntil = some (b.now + b.reg K.CanRoleTimeout * 1000000000)
        ∧ b.regsBut [K.CanRole] u ∧ b.only [.dict, .can] u)
    ∧ Completes (.roleToken t w) t
      (fun b => b.takes 0x3110 2 w w.val ∧ b.lockedOut pathCan = false ∧ b.sec.nonce = some (n, t0) ∧ ¬ right b)
      (fun b u => u.reg K.AuthenticationFailures = (b.reg K.AuthenticationFailures + 1) % 2 ^ 32
        ∧ u.reg K.CanRole = b.reg K.CanRole ∧ .abort .can abGate ∈ u.out ∧ b.raised [252] u
        ∧ (7 ≤ (b.sec.fails.filter fun f => f.1 == pathCan && decide (b.now < f.2 + 60000000000)).length →
          u.lockedOut pathCan = true)
        ∧ b.only [.dict, .ev, .sec] u) := fun hpath => by
  intro k right
  constructor
  · refine completes_write (fun _ => rfl) fun b ⟨htake, hlock, hnonce, hnow, hslot, hlive, htoken⟩ => ?_
    have heff : effRoleToken b { w with val := w.val } = accept (.seq (put K.CanRole (roleOf (field k 0 1)))
        (.prim (.can fun c => { c with roleUntil := some (b.now + b.reg K.CanRoleTimeout * 1000000000) }))) := by
      simp only [effRoleToken, hnonce, hlock, hnow, hslot, hlive, htoken, k]
      simp [hpath]
    exact ⟨_, _, htake, heff, by simp [Prim.apply], by simp [Prim.apply], regsBut_write (by simp) _ b,
      only_write (by simp [CanSt.Sized]) _ b⟩
  · refine completes_of (fun _ => rfl) fun b _ ⟨htake, hlock, hnonce, hwrong⟩ => ?_
    have heff : effRoleToken b { w with val := w.val } = ⟨abGate, proofFailed pathCan⟩ := by
      simp only [effRoleToken, hnonce, hlock]
      simp only [hpath, ne_eq, not_true_eq_false, decide_false, Bool.or_false, Bool.false_eq_true, if_false]
      rw [if_pos]
      by_contra h
      exact hwrong (by simpa [right, k, and_assoc] using h)
    rw [run_writeBy, judge_takes effRoleToken htake, heff]
    simp only [enact, hpath]
    rw [run_ite_of_not (by decide), Act.run_seq]
    refine ⟨?_, ?_, ?_, ?_, fun hmany => ?_, ?_⟩
    · rw [State.notifySend_reg, answer_reg, Act.All.reg_other (by simp [recordRefusal])]
      simp [proofFailed, Prim.apply]
    · rw [State.notifySend_reg, answer_reg, Act.All.reg_other (by simp [recordRefusal]),
        Act.All.reg_other (by simp [proofFailed])]
    · exact mem_out_notifySend (by simp [answer, abGate])
    · exact raised_notifySend.mpr (raised_answer.mpr (raised_before (proofFailed_raises _ b) (P := fun _ => True)
        (by simp [recordRefusal])))
    · rw [lockedOut_congr (State.notifySend_sec _) (State.notifySend_now _), lockedOut_congr (answer_sec ..)
        (answer_now ..), lockedOut_congr (s := (proofFailed pathCan).run b) ?_ ?_]
      · exact proofFailed_locks hmany
      all_goals simp [recordRefusal]
    · exact only_sent (only_answered (only_trans (only_of_fits (by simp) b) (only_of_fits (by simp) _)) _ _)

theorem canRoleTimeout_completes (t u0 : Nat) :
    Completes (.canRoleTimeout t) t (fun b => b.can.roleUntil = some u0 ∧ u0 ≤ b.now)
      fun b u => u.reg K.CanRole = 0 ∧ u.can = { b.can with roleUntil := none } ∧ b.regsBut [K.CanRole] u
        ∧ b.only [.dict, .can] u := completes_of (fun _ => rfl) fun b _ ⟨huntil, hle⟩ => by
  simp only [Act.run_read, huntil, Option.any_some, hle, decide_true, when, if_true, endCanRole]
  exact ⟨by simp [Prim.apply], by simp [Prim.apply], regsBut_sent (by simp) b,
    only_sent_of_fits (by simp [CanSt.Sized]) b⟩

theorem lockoutEnd_completes (t path : Nat) :
    Completes (.lockoutEnd t path) t (fun b => ∀ l ∈ b.sec.lockedUntil, l.1 = path → l.2 ≤ b.now)
      fun b u => u.lockedOut path = false
        ∧ u.sec = { b.sec with lockedUntil := b.sec.lockedUntil.filter fun l => l.1 != path } ∧ b.only [.sec] u :=
  completes_of (fun _ => rfl) fun b _ hend => by
  have hfilter : (b.sec.lockedUntil.filter fun l => l.1 != path || decide (b.now < l.2))
      = b.sec.lockedUntil.filter fun l => l.1 != path :=
    List.filter_congr fun l hl => by
      by_cases h : l.1 = path
      · simpa [h] using hend l hl h
      · simp [h]
  refine ⟨?_, by simp [Prim.apply, hfilter], only_sent_of_fits (by simp) b⟩
  simp +contextual [State.lockedOut, Prim.apply, hfilter]

theorem debugLevelRequest_completes (t v : Nat) (w : Wr) :
    w.val = v →
    Completes (.debugLevelRequest t w) t (fun b => b.takes 0x3120 1 w v ∧ b.debugPermits v = true)
      fun b u => u.reg K.DebugLevelRequest = v ∧ u.reg K.DebugLevelActual = v
        ∧ (b.reg K.DebugLevelActual ≠ v → b.raised [255] u)
        ∧ b.regsBut [K.DebugLevelRequest, K.DebugLevelActual] u ∧ b.only [.dict, .ev, .sec] u :=
  fun hv => completes_write (fun _ => rfl) fun b ⟨htake, hpermit⟩ => by
  have heff : effDebugRequest b { w with val := v } = accept (seqs [put K.DebugLevelRequest v,
      .prim (.sec fun x => { x with debugBy := some w.path }), setDebug v]) := by
    simp [effDebugRequest, hpermit]
  refine ⟨v, _, htake, heff, ?_, ?_, fun hne => ?_, regsBut_write (by simp) _ b, only_write (by simp) _ b⟩
  · simp only [State.notifySend_reg, answer_reg, run_seqs_cons, run_seqs_nil]
    rw [Act.All.reg_other (by simp)]
    simp [Prim.apply]
  · simp [setDebug_level]
  · refine raised_write (raised_tail (by simp) (raised_tail (by simp) ?_)) _
    exact setDebug_raises (by simpa [Prim.apply] using hne)

theorem grantExpiry_completes (t sources till : Nat) :
    Completes (.grantExpiry t) t
      (fun b => b.sec.grant = some (sources, till) ∧ (till ≤ b.now ∨ b.reg K.GrantExpiry ≤ ptpSec b.ptp))
      fun b u => u.sec = { b.sec with grant := none } ∧ u.reg K.GrantExpiry = 0
        ∧ (b.reg K.LifecycleState = 2 → u.reg K.DebugLevelActual ≠ 2)
        ∧ b.regsBut [K.GrantExpiry, K.DebugLevelActual] u ∧ b.only [.dict, .ev, .sec] u :=
  completes_of (fun _ => rfl) fun b _ ⟨hgrant, hend⟩ => by
  have hdue : (decide (till ≤ b.now) || decide (b.reg K.GrantExpiry ≤ ptpSec b.ptp)) = true := by simpa using hend
  simp only [Act.run_read, hgrant, hdue, run_when, if_true]
  refine ⟨by simp [sec_endGrant], by simp [endGrant_grantExpiry], fun hlife => ?_, regsBut_sent (by simp) b,
    only_sent_of_fits (by simp) b⟩
  rw [State.notifySend_reg]
  exact syncDebug_level rfl hlife

theorem performanceCountersRead_completes (t : Nat) (path : WPath) :
    Completes (.performanceCountersRead t path) t
      (fun b => b.reachable = true ∧ b.countersReadable path = true)
      fun b u => (∃ v, .reply path v 2048 ∈ u.out) ∧ u.dict = b.dict ∧ b.only [] u :=
  completes_of (fun _ => rfl) fun b _ ⟨hreach, hread⟩ => by
  simp only [countersRead, Act.run_read, hreach, hread]
  rw [run_ite_of_not (by decide), run_ite_of_not (by decide), run_drawFree]
  exact ⟨⟨_, mem_out_send _ _⟩, by simp, only_sent (only_trans (only_free b _) (only_out _ _))⟩

/-- Settles O44: each write is one sequence of changes where its conditions hold, and a failed proof is counted. -/
theorem securityCompletes : Obligations.SecurityCompletes :=
  ⟨lifecycleAdvance_completes, keyInstall_completes, keyRevoke_completes, tokenChallenge_completes,
    roleToken_completes, canRoleTimeout_completes, lockoutEnd_completes, debugLevelRequest_completes,
    grantExpiry_completes, performanceCountersRead_completes⟩

end Sys2Proof.Machine
end

section
/-! # Packages (R461–R465) -/

namespace Sys2Proof.Machine

/-! ### Bytes of memory -/

@[simp] theorem length_bytesAt (s : State) (a n : Nat) : (s.bytesAt a n).length = n := by simp [State.bytesAt]

theorem bytesAt_drop_take (s : State) (a n o k : Nat) (h : o + k ≤ n) :
    ((s.bytesAt a n).drop o).take k = s.bytesAt (a + o) k := by
  refine List.ext_getElem ?_ fun i hi hi' => ?_
  · simp [State.bytesAt]
    omega
  · simp [State.bytesAt, Nat.add_assoc]

theorem value_eq_leNat (s : State) (a n : Nat) : Memory.value s.mem a n = leNat (s.bytesAt a n) := by
  induction n generalizing a with
  | zero => rfl
  | succ n ih =>
    have hbyte : (Memory.byte s.mem (a + 0)).toNat % 256 = (Memory.byte s.mem a).toNat := Nat.mod_eq_of_lt (BitVec.isLt _)
    rw [Memory.value, ih, State.bytesAt, State.bytesAt, List.range_succ_eq_map, List.map_cons, List.map_map, leNat,
      hbyte]
    simp [Function.comp_def, Nat.add_assoc, Nat.add_comm 1]

/-- A field of bytes in memory is the value there. -/
theorem field_bytesAt (s : State) (a n o k : Nat) (h : o + k ≤ n) :
    field (s.bytesAt a n) o k = Memory.value s.mem (a + o) k := by
  rw [field, bytesAt_drop_take s a n o k h, value_eq_leNat]

theorem field_drop (l : List Nat) (d o k : Nat) : field (l.drop d) o k = field l (d + o) k := by
  simp [field, List.drop_drop]

/-! ### What an accepted package is -/

/-- A package that no check refuses has its format and the kind asked for. -/
theorem package_accepted {s : State} {a size want : Nat} (h : s.packageRefusal a size want false = 0) :
    s.packageFormat a size = true ∧ field (s.bytesAt a 224) 3 1 = want := by
  unfold State.packageRefusal at h
  dsimp only at h
  rw [if_neg (by decide)] at h
  split at h
  · cases h
  next hformat =>
  split at h
  · cases h
  next hkind =>
  simp at hformat hkind
  exact ⟨hformat, hkind.1.1.1.1⟩

/-- The records of an accepted lifecycle package can act (R461, R462). -/
theorem lifecycle_recordFits {s : State} {a size : Nat} (h : s.packageRefusal a size 4 false = 0) {r : List Nat}
    (hr : r ∈ lifecycleRecords (Memory.value s.mem (a + 12) 4 / 104)
      (s.bytesAt (a + 224) (Memory.value s.mem (a + 12) 4))) : s.recordFits r = true := by
  obtain ⟨hformat, hkind⟩ := package_accepted h
  unfold State.packageFormat at hformat
  simp only [hkind, field_bytesAt s a 224 12 4 (by decide), Bool.and_eq_true, List.all_eq_true] at hformat
  exact hformat.2.2 r hr

/-- The end of a shown grant stays while there is one. -/
theorem syncDebug_grantKept {s : State} {g : Nat × Nat} (h : s.sec.grant = some g) :
    (syncDebug.run s).reg K.GrantExpiry = s.reg K.GrantExpiry :=
  by
  simp only [syncDebug, Act.run_read, Act.run_seq, h, Option.isNone_some, run_when, Bool.false_eq_true, if_false]
  exact Act.All.reg_other (by simp) s

theorem packageLoad_completes (t : Nat) (w : Wr) :
    let loads := fun (c : Instr) (kind : Nat) => Completes c t
      (fun b => b.takes 0x3102 1 { w with val := kind } kind ∧ b.sec.loading = none ∧ b.comp.checking = false)
      (fun b u => u.reg K.PackageState = 1 ∧ u.sec = { b.sec with loading := some kind }
        ∧ b.regsBut [K.PackageState] u ∧ b.only [.dict, .sec] u)
    loads (.packageLoadFirmware t w) 1 ∧ loads (.packageLoadDebugGrant t w) 3 ∧ loads (.packageLoadLifecycle t w) 4 :=
  by
  have load : ∀ kind, kind = 1 ∨ kind = 3 ∨ kind = 4 → ∀ b : State,
      b.takes 0x3102 1 { w with val := kind } kind ∧ b.sec.loading = none ∧ b.comp.checking = false →
      ∃ v a, b.takes 0x3102 1 { w with val := kind } v ∧ effPackageLoad b { { w with val := kind } with val := v } = accept a
        ∧ (let u := ((answer w.path 0).run (a.run b)).notifySend
          u.reg K.PackageState = 1 ∧ u.sec = { b.sec with loading := some kind } ∧ b.regsBut [K.PackageState] u
            ∧ b.only [.dict, .sec] u) :=
    fun kind hkind b ⟨htake, hload, hcheck⟩ => by
      have heff : effPackageLoad b { w with val := kind } = accept
          (.seq (put K.PackageState 1) (.prim (.sec fun x => { x with loading := some kind }))) := by
        rcases hkind with rfl | rfl | rfl <;> simp [effPackageLoad, hload, hcheck]
      exact ⟨kind, _, htake, heff, by simp, by simp, regsBut_write (by simp) _ b, only_write (by simp) _ b⟩
  exact ⟨completes_write (fun _ => rfl) (load 1 (by simp)), completes_write (fun _ => rfl) (load 3 (by simp)),
    completes_write (fun _ => rfl) (load 4 (by simp))⟩

/-! ### Acts of an accepted package -/

/-- No register but the 13 of KeyStatus is the status of a key slot. -/
theorem keyStatusKey_ne (id : Nat) {q : Nat} (h : q < 0x313101 ∨ 0x313101 + 13 < q) : keyStatusKey id ≠ q := by
  have hle : keySlots.idxOf id ≤ 13 := List.idxOf_le_length
  simp only [keyStatusKey, K.KeyStatus]
  omega

theorem keyStatus_congr {s u : State} (h : ∀ i, i < 13 → u.reg (K.KeyStatus + i) = s.reg (K.KeyStatus + i)) (id : Nat) :
    u.keyStatus id = s.keyStatus id := by
  unfold State.keyStatus
  split
  next hid => exact h _ (List.idxOf_lt_length_of_mem (List.contains_iff_mem.mp hid))
  · rfl

@[simp] theorem keyBytes_notifySend (s : State) (id : Nat) : s.notifySend.keyBytes id = s.keyBytes id := by
  simp [State.keyBytes]

@[simp] theorem keyLive_notifySend (s : State) (id : Nat) : s.notifySend.keyLive id = s.keyLive id := by
  simp [State.keyLive, State.keyStatus]

theorem burnKey_keyBytes {k : List Nat} (h : installFits k = true) (s : State) :
    ((burnKey k).run s).keyBytes (field k 0 1) = installKey k := by
  have hne : field k 0 1 ≠ 0x40 := by
    rintro h40
    simp [installFits, h40, keySlots] at h
  simp [State.keyBytes, hne, burnKey]

theorem burnRevoke_keyLive (id : Nat) (s : State) : ((burnRevoke id).run s).keyLive id = false := by
  by_cases hid : id ∈ keySlots
  · simp [burnRevoke, State.keyLive, State.keyStatus, hid]
  · simp [State.keyLive, State.keyStatus, hid, bit]

/-- The lifecycle advances to Returned, where the debug level is fixed (R457, R471). -/
theorem advanceReturned_leaves (s : State) : ((advanceLifecycle 3).run s).reg K.LifecycleState = 3
    ∧ ((advanceLifecycle 3).run s).reg K.DebugLevelActual = 1 ∧ s.raised [253] ((advanceLifecycle 3).run s) := by
  refine ⟨?_, ?_, raised_tail (by simp) (raised_head (raised_raise rfl _) (P := fun _ => True) (by simp))⟩
  · simp only [advanceLifecycle, run_seqs_cons, run_seqs_nil]
    rw [Act.All.reg_other (by simp)]
    simp
  · simp [advanceLifecycle, endGrant, syncDebug, setDebug_level]

theorem enterReturned_leaves (s : State) : (enterReturned.run s).reg K.LifecycleState = 3
    ∧ (enterReturned.run s).reg K.DebugLevelActual = 1 ∧ s.raised [253] (enterReturned.run s) := by
  obtain ⟨hlife, hdebug, hraised⟩ := advanceReturned_leaves s
  have hrest : ∀ q, q < 0x313101 → (seqs [returnedSteps, forgetPackage, .prim (.erase protectedStart 0x1000000)]).All
      (Prim.Calm (· ≠ q)) := fun q hq => by
    simp [returnedSteps, forgetPackage]
    exact ⟨fun _ id _ _ _ => keyStatusKey_ne id (.inl hq), fun i _ => by omega⟩
  refine ⟨?_, ?_, raised_head hraised (hrest 0 (by decide))⟩
  · exact ((hrest _ (by decide)).reg_other _).trans hlife
  · exact ((hrest _ (by decide)).reg_other _).trans hdebug

/-- A record of a lifecycle package leaves PackageState. -/
theorem calm_lifecycleRecord (r : List Nat) : (lifecycleRecord r).All (Prim.Calm (· ≠ K.PackageState)) := by
  have hslot : ∀ id, keyStatusKey id ≠ K.PackageState := fun id => keyStatusKey_ne id (by decide)
  intro s
  dsimp only
  split
  · simp [burnKey, hslot]
  · simp [burnRevoke, hslot]
  · simp [enterReturned, advanceLifecycle, returnedSteps, forgetPackage, hslot]
    exact fun i _ => (Nat.lt_of_lt_of_le (by decide) (Nat.le_add_right _ i)).ne'
  · trivial

/-- A record of a lifecycle package loads no package. -/
theorem loading_lifecycleRecord (r : List Nat) (s : State) : ((lifecycleRecord r).run s).sec.loading = s.sec.loading := by
  refine Act.All.keeps (P := fun p => ∀ s, (p.apply s).sec.loading = s.sec.loading) (fun s => s.sec.loading)
    (fun p s h => h s) ?_ s
  intro s
  dsimp only
  split
  · simp [burnKey]
  · simp [burnRevoke]
  · simp [enterReturned, advanceLifecycle, endGrant, syncDebug, setDebug, returnedSteps, forgetPackage]
  · trivial

theorem loading_lifecycleRecords (l : List (List Nat)) (s : State) :
    ((each l lifecycleRecord).run s).sec.loading = s.sec.loading := by
  induction l generalizing s with
  | nil => rfl
  | cons r l ih => rw [run_each_cons, ih, loading_lifecycleRecord]

theorem packageCheckDone_completes (t kind : Nat) :
    let checked := fun (b : State) => b.sec.loading = some kind ∧ b.reg K.PackageState = 1
    let refusal := fun (b : State) => b.packageRefusal packageInboxAt 8388832 kind false
    let payload := fun (b : State) => b.bytesAt (packageInboxAt + 224) (Memory.value b.mem (packageInboxAt + 12) 4)
    Completes (.packageCheckDone t) t checked fun b u =>
      (refusal b ≠ 0 → u.reg K.PackageState = 4 ∧ u.reg K.PackageRefusal = refusal b
        ∧ u.sec = { b.sec with loading := none } ∧ b.regsBut [K.PackageState, K.PackageRefusal] u
        ∧ b.raised [254] u ∧ b.only [.dict, .ev, .sec] u)
      ∧ (refusal b = 0 → kind = 1 → u.reg K.PackageState = 2 ∧ u.reg K.PackageRefusal = 0
        ∧ b.regsBut [K.PackageState, K.PackageRefusal] u ∧ b.only [.dict] u)
      ∧ (refusal b = 0 → kind = 3 → u.reg K.PackageState = 3 ∧ u.sec.loading = none
        ∧ u.reg K.GrantExpiry = field (payload b) 0 6 ∧ (∃ e, u.sec.grant = some (field (payload b) 8 2, e))
        ∧ b.only [.dict, .ev, .sec] u)
      ∧ (refusal b = 0 → kind = 4 → u.reg K.PackageState = 3 ∧ u.sec.loading = none
        ∧ ∀ r, lifecycleRecords ((payload b).length / 104) (payload b) = [r] →
            (field r 0 1 = 1 → b.keyStatus (field r 1 1) = 0 → u.keyBytes (field r 1 1) = installKey (r.drop 1)
              ∧ b.only [.dict, .sec] u)
            ∧ (field r 0 1 = 2 → u.keyLive (field r 1 1) = false ∧ b.only [.dict, .sec] u)
            ∧ (field r 0 1 = 3 → u.reg K.LifecycleState = 3 ∧ u.reg K.DebugLevelActual = 1 ∧ b.raised [253] u)) := by
  intro checked refusal payload
  refine completes_of (fun _ => rfl) fun b _ ⟨hload, hstate⟩ => ?_
  simp only [Act.run_read, hload]
  rw [run_ite_of_not (not_not.mpr hstate)]
  by_cases hcode : refusal b = 0
  · rw [run_ite_of_not (not_not.mpr hcode)]
    refine ⟨fun h => absurd hcode h, fun _ hkind => ?_, fun _ hkind => ?_, fun _ hkind => ?_⟩
    · subst hkind
      exact ⟨by simp [packageActs], by simp [packageActs], regsBut_sent (by simp [packageActs]) b,
        only_sent_of_fits (by simp [packageActs]) b⟩
    · subst hkind
      refine ⟨?_, by simp [packageActs, sec_syncDebug], ?_, ⟨_, by simp [packageActs, sec_syncDebug, payload]; rfl⟩,
        only_sent_of_fits (by simp [packageActs]) b⟩
      · simp only [packageActs, Act.run_seq, Act.run_read, if_true]
        rw [run_ite_of_not (by decide), Act.run_seq, run_seqs_cons, run_seqs_cons, run_seqs_cons, run_seqs_nil]
        rw [State.notifySend_reg, Act.All.reg_other (by simp)]
        simp
      · simp only [packageActs, Act.run_seq, Act.run_read, if_true]
        rw [run_ite_of_not (by decide), Act.run_seq, run_seqs_cons, run_seqs_cons, run_seqs_cons, run_seqs_nil]
        rw [State.notifySend_reg, syncDebug_grantKept rfl]
        simp [payload]
    · subst hkind
      have hacts : ((put K.PackageRefusal 0).seq (packageActs 4 (payload b))).run b
          = (each (lifecycleRecords ((payload b).length / 104) (payload b)) lifecycleRecord).run
            { b with dict := SMap.put (SMap.put b.dict K.PackageRefusal 0) K.PackageState 3
                     sec := { b.sec with loading := none } } := by
        simp [packageActs]
      rw [show b.bytesAt (packageInboxAt + 224) (Memory.value b.mem (packageInboxAt + 12) 4) = payload b from rfl, hacts]
      generalize hs1 : ({ b with dict := SMap.put (SMap.put b.dict K.PackageRefusal 0) K.PackageState 3
                                 sec := { b.sec with loading := none } } : State) = s1
      have honly : b.only [.dict, .sec] s1 := fun p hp => by cases p <;> simp_all [Piece.same, ← hs1]
      have hreg : ∀ q, q ≠ K.PackageRefusal → q ≠ K.PackageState → s1.reg q = b.reg q := fun q h h' => by
        simp [← hs1, h, h']
      have hdone : s1.reg K.PackageState = 3 ∧ s1.sec.loading = none := by simp [← hs1]
      refine ⟨?_, ?_, fun r hr => ?_⟩
      · rw [State.notifySend_reg, Act.All.reg_other (by simp [calm_lifecycleRecord])]
        exact hdone.1
      · rw [State.notifySend_sec, loading_lifecycleRecords, hdone.2]
      · have hfits : b.recordFits r = true := lifecycle_recordFits hcode (by
          have hmem := hr ▸ List.mem_singleton_self r
          simpa [payload] using hmem)
        have hstatus : ∀ id, s1.keyStatus id = b.keyStatus id := keyStatus_congr fun i hi => by
          refine hreg _ ?_ ?_ <;> simp only [K.KeyStatus, K.PackageRefusal, K.PackageState] <;> omega
        simp only [hr, run_each_cons, run_each_nil, lifecycleRecord, Act.run_read]
        refine ⟨fun hkind hempty => ?_, fun hkind => ?_, fun hkind => ?_⟩
        · have hinstall : installFits (r.drop 1) = true := by
            simp only [State.recordFits, hkind, Bool.and_eq_true] at hfits
            exact hfits.1
          have hkey := burnKey_keyBytes hinstall s1
          rw [field_drop] at hkey
          simp only [hkind, hstatus, hempty, beq_self_eq_true, run_when, if_true]
          exact ⟨(keyBytes_notifySend ..).trans hkey, only_sent (only_trans honly (only_of_fits (by simp) _))⟩
        · simp only [hkind]
          exact ⟨(keyLive_notifySend ..).trans (burnRevoke_keyLive _ _), only_sent (only_trans honly (only_of_fits (by simp) _))⟩
        · simp only [hkind]
          obtain ⟨hlife, hdebug, hraised⟩ := enterReturned_leaves s1
          exact ⟨by rw [State.notifySend_reg, hlife], by rw [State.notifySend_reg, hdebug],
            raised_notifySend.mpr (raised_after (hreg _ (by decide) (by decide)) hraised)⟩
  · rw [run_ite_of hcode]
    refine ⟨fun _ => ⟨by simp [refusePackage], by simp [refusePackage, refusal], by simp [refusePackage],
      regsBut_sent (by simp [refusePackage]) b, ?_, only_sent_of_fits (by simp) b⟩, fun h => absurd h hcode,
      fun h => absurd h hcode, fun h => absurd h hcode⟩
    refine raised_notifySend.mpr (raised_tail (by simp) (raised_tail (by simp) (raised_head ?_ (P := fun _ => True) trivial)))
    exact raised_after (by simp) (raised_occur rfl _)

theorem packageWriteDone_completes (t : Nat) (ok : Bool) :
    Completes (.packageWriteDone t ok) t
      (fun b => b.reg K.PackageState = 2 ∧ b.sec.loading.isSome = true ∧ b.reg K.BootSlotRun ≤ 1)
      fun b u => u.reg K.PackageState = (if ok then 3 else 4) ∧ u.sec = { b.sec with loading := none }
        ∧ u.reg K.BootSlotPreferred = (if ok then 1 - b.reg K.BootSlotRun else b.reg K.BootSlotPreferred)
        ∧ b.regsBut [K.PackageState, K.BootSlotPreferred] u ∧ b.only [.dict, .sec] u :=
  completes_of (fun _ => rfl) fun b _ ⟨hstate, hload, hrun⟩ => by
  have hother : (if b.reg K.BootSlotRun = 0 then 1 else if b.reg K.BootSlotRun = 1 then 0
      else 1 - b.reg K.BootSlotPreferred) = 1 - b.reg K.BootSlotRun := by
    split
    · omega
    · rw [if_pos (by omega)]
      omega
  simp only [Act.run_read, hother]
  rw [run_ite_of_not (by simp [hstate, Option.isSome_iff_ne_none.mp hload])]
  cases ok
  · exact ⟨by simp, by simp [Prim.apply], by simp [Prim.apply], regsBut_sent (by simp) b,
      only_sent_of_fits (by simp) b⟩
  · exact ⟨by simp, by simp [Prim.apply], by simp [Prim.apply], regsBut_sent (by simp) b,
      only_sent_of_fits (by simp) b⟩

theorem securityVersionCommit_completes (t : Nat) (w : Wr) :
    w.val = 1 →
    Completes (.securityVersionCommit t w) t
      (fun b => b.takes 0x3101 6 w 1 ∧ b.reg K.LifecycleState = 2 ∧ b.reg K.FirmwareSecurityVersion ≤ 64)
      fun b u => u.reg K.SecurityVersionFloor = max (b.reg K.FirmwareSecurityVersion) (b.reg K.SecurityVersionFloor)
        ∧ b.regsBut [K.SecurityVersionFloor] u ∧ b.only [.dict] u :=
  fun hw => completes_write (fun _ => rfl) fun b ⟨htake, hlife, hver⟩ => by
  have heff : effVersionCommit b { w with val := 1 } = accept (put K.SecurityVersionFloor
      (max (b.reg K.FirmwareSecurityVersion) (b.reg K.SecurityVersionFloor))) := by
    simp [effVersionCommit, hlife, Nat.not_lt.mpr hver]
  exact ⟨1, _, htake, heff, by simp, regsBut_write (by simp) _ b, only_write (by simp) _ b⟩

/-- Settles O45: a check's verdict decides what the package does, and an accepted record names an installable slot. -/
theorem packagesComplete : Obligations.PackagesComplete :=
  ⟨packageLoad_completes, packageCheckDone_completes, packageWriteDone_completes, securityVersionCommit_completes⟩

end Sys2Proof.Machine
end

section
/-! # Writes of the position channels (R99, R114–R118, R128) -/

namespace Sys2Proof.Machine

theorem chan_setChan {s : State} {c : Nat} (h : c < s.pos.chans.length) (f : Chan → Chan) :
    ((setChan c f).run s).chan c = f (s.chan c) := by
  simp [setChan, State.chan, h]

@[simp] theorem calm_posEvent {P : Nat → Prop} {n v : Nat} (h : P (K.PositionEventChannel + (n - 16))) :
    (posEvent n v).All (Prim.Calm P) := by simp [posEvent, h]

/-- What a channel is after changes that leave the position unit. -/
theorem chan_of_pos {s u : State} (h : u.pos = s.pos) (c : Nat) : u.chan c = s.chan c := by
  rw [State.chan, State.chan, h]

@[simp] theorem chan_notifySend (s : State) (c : Nat) : s.notifySend.chan c = s.chan c := chan_of_pos (by simp) c
@[simp] theorem chan_answer (p : WPath) (code : Nat) (s : State) (c : Nat) :
    ((answer p code).run s).chan c = s.chan c := chan_of_pos (by simp) c

theorem copyLengthWrite_completes (t ch v : Nat) (w : Wr) :
    ch < 14 → 1000000 ≤ v → v ≤ 100000000000 →
    Completes (.copyLengthWrite t ch w) t (fun b => b.takes 0x2313 (ch + 1) w v ∧ ch < b.pos.chans.length)
      fun b u => u.reg (K.CopyLength + ch) = v
        ∧ (b.counting ch = false ∨ b.webMode ch = false → u.chan ch = { b.chan ch with len := v, lenNext := none })
        ∧ (b.counting ch = true → b.webMode ch = true → b.masterPrinting ch = true →
          u.chan ch = { b.chan ch with lenNext := some (v, some b.eligibleCopy) })
        ∧ (b.counting ch = true → b.webMode ch = true → b.masterPrinting ch = false →
          u.chan ch = { b.chan ch with lenNext := some (v, none) })
        ∧ b.regsBut [K.CopyLength + ch] u ∧ b.only [.dict, .ev, .pos] u :=
  fun hch hlo hhi => completes_write (fun _ => rfl) fun b ⟨htake, hlen⟩ => by
  have heff : ∃ f, effCopyLength ch b { w with val := v } = accept (.seq (put (K.CopyLength + ch) v) (setChan ch f))
      ∧ f = (if !b.counting ch || !b.webMode ch then fun x => { x with len := v, lenNext := none }
        else if b.masterPrinting ch then fun x => { x with lenNext := some (v, some b.eligibleCopy) }
        else fun x => { x with lenNext := some (v, none) }) := by
    refine ⟨_, ?_, rfl⟩
    simp [effCopyLength, Nat.not_lt.mpr hlo, Nat.not_lt.mpr hhi]
  obtain ⟨f, heff, hf⟩ := heff
  have hchan : ((setChan ch f).run ((put (K.CopyLength + ch) v).run b)).chan ch = f (b.chan ch) := chan_setChan hlen f
  refine ⟨v, _, htake, heff, by simp [setChan], fun h => ?_, fun h h' h'' => ?_, fun h h' h'' => ?_,
    regsBut_write (by simp [setChan]) _ b, only_write (by simp) _ b⟩
  all_goals rw [chan_notifySend, chan_answer, Act.run_seq, hchan, hf]
  · rcases h with h | h <;> simp [h]
  · simp [h, h', h'']
  · simp [h, h', h'']

/-- A channel in axis mode settles between two limits, with event 19 where it comes to lie outside (R115). -/
def settleChan (ch : Nat) (lo hi : Int) (b : State) : Act :=
  .seq (setChan ch fun _ => (b.chan ch).settle (lo, hi))
    (limitEvent ch (b.chan ch) ((b.chan ch).settle (lo, hi)))

theorem calm_settleChan {P : Nat → Prop} (h : P (K.PositionEventChannel + 3)) {ch : Nat} {lo hi : Int} (b : State) :
    (settleChan ch lo hi b).All (Prim.Calm P) := by
  simp [settleChan, setChan, limitEvent, h]

theorem chan_limitEvent (c : Nat) (x y : Chan) (s : State) (ch : Nat) :
    ((limitEvent c x y).run s).chan ch = s.chan ch :=
  chan_of_pos (only_of_fits (fits_limitEvent (pcs := [.dict, .ev]) c x y (by simp)) s .pos (by simp)) ch

/-- Settling leaves the channel settled. -/
theorem chan_settleChan {s b : State} {ch : Nat} (h : ch < s.pos.chans.length) {lo hi : Int} :
    ((settleChan ch lo hi b).run s).chan ch = (b.chan ch).settle (lo, hi) := by
  rw [settleChan, Act.run_seq, chan_limitEvent, chan_setChan h]

theorem softLimitWrite_completes (t ch v : Nat) (high : Bool) (w : Wr) :
    ch < 14 →
    Completes (.softLimitWrite t ch high w) t
      (fun b => b.takes (if high then 0x2315 else 0x2314) (ch + 1) w v ∧ ch < b.pos.chans.length
        ∧ (if high then b.regI (K.SoftLimitLow + ch) 8 < signedOf 8 v
           else signedOf 8 v < b.regI (K.SoftLimitHigh + ch) 8))
      fun b u => u.reg ((if high then K.SoftLimitHigh else K.SoftLimitLow) + ch) = v
        ∧ (b.webMode ch = true → u.chan ch = b.chan ch)
        ∧ (b.webMode ch = false → u.chan ch = (b.chan ch).settle (u.softLimits ch))
        ∧ b.only [.dict, .ev, .pos] u := fun hch => completes_write (fun _ => rfl) fun b ⟨htake, hlen, hord⟩ => by
  have hside : (if high then K.SoftLimitHigh else K.SoftLimitLow) + ch ≠ K.PositionEventChannel + 3 := by
    cases high <;> simp only [Bool.false_eq_true, if_false, if_true, K.SoftLimitHigh, K.SoftLimitLow,
      K.PositionEventChannel] <;> omega
  have heff : effSoftLimit ch high b { w with val := v } = accept
      (.seq (put ((if high then K.SoftLimitHigh else K.SoftLimitLow) + ch) v) (when (!b.webMode ch) (settleChan ch
        ((if high then b.regI (K.SoftLimitLow + ch) 8 else signedOf 8 v) * 2 ^ 32)
        ((if high then signedOf 8 v else b.regI (K.SoftLimitHigh + ch) 8) * 2 ^ 32) b))) := by
    cases high
    · simp only [effSoftLimit, Bool.false_eq_true, if_false] at hord ⊢
      rw [if_neg (not_le.mpr hord)]
      rfl
    · simp only [effSoftLimit, if_true] at hord ⊢
      rw [if_neg (not_le.mpr hord)]
      rfl
  have hkeep : ∀ {q lo hi}, q ≠ K.PositionEventChannel + 3 →
      (when (!b.webMode ch) (settleChan ch lo hi b)).All (Prim.Calm (· ≠ q)) :=
    fun {q _ _} hq => all_when fun _ => calm_settleChan (P := (· ≠ q)) (Ne.symm hq) b
  refine ⟨v, _, htake, heff, ?_, fun hweb => ?_, fun hweb => ?_, only_write (by simp [settleChan]) _ b⟩
  · rw [State.notifySend_reg, answer_reg, Act.run_seq, (hkeep hside).reg_other, run_put, State.reg_set_same]
  · rw [chan_notifySend, chan_answer, Act.run_seq, hweb]
    rfl
  · have hlim : ∀ lo hi, (((when (!b.webMode ch) (settleChan ch lo hi b)).run
        ((put ((if high then K.SoftLimitHigh else K.SoftLimitLow) + ch) v).run b)).softLimits ch)
        = ((if high then b.regI (K.SoftLimitLow + ch) 8 else signedOf 8 v) * 2 ^ 32,
          (if high then signedOf 8 v else b.regI (K.SoftLimitHigh + ch) 8) * 2 ^ 32) := fun lo hi => by
      have hlow : K.SoftLimitLow + ch ≠ K.PositionEventChannel + 3 := by
        simp only [K.SoftLimitLow, K.PositionEventChannel]; omega
      have hhigh : K.SoftLimitHigh + ch ≠ K.PositionEventChannel + 3 := by
        simp only [K.SoftLimitHigh, K.PositionEventChannel]; omega
      simp only [State.softLimits, State.regI, (hkeep hlow).reg_other, (hkeep hhigh).reg_other]
      cases high <;> simp [K.SoftLimitLow, K.SoftLimitHigh]
    have hsoft : ∀ u : State, (((answer w.path 0).run u).notifySend).softLimits ch = u.softLimits ch := fun u => by
      simp [State.softLimits, State.regI]
    rw [chan_notifySend, chan_answer, hsoft, Act.run_seq, hlim, hweb]
    exact chan_settleChan (s := (put _ v).run b) hlen

theorem positionPreset_web_completes (t ch v : Nat) (w : Wr) :
    ch < 14 →
    Completes (.positionPreset t ch w) t
      (fun b => b.takes 0x231F (ch + 1) w v ∧ ch < b.pos.chans.length ∧ b.masterPrinting ch = false
        ∧ b.webMode ch = true ∧ 0 ≤ signedOf 8 v ∧ signedOf 8 v < ((b.chan ch).len : Int))
      fun b u => u.chan ch = { b.chan ch with pos := signedOf 8 v * 2 ^ 32 } ∧ u.dict = b.dict
        ∧ b.only [.dict, .ev, .pos] u :=
  fun hch => completes_write (fun _ => rfl) fun b ⟨htake, hlen, hprint, hweb, hlo, hhi⟩ => by
  have hplace : (signedOf 8 v * 2 ^ 32) % (((b.chan ch).len : Int) * 2 ^ 32) = signedOf 8 v * 2 ^ 32 :=
    Int.emod_eq_of_lt (by omega) (by omega)
  have heff : effPreset ch b { w with val := v } = accept
      (.seq (setChan ch fun _ => { b.chan ch with pos := signedOf 8 v * 2 ^ 32 })
        (when (b.reg K.MasterChannel == ch) (.prim (.pos fun p => { p with bases := [] })))) := by
    simp only [effPreset, hprint, hweb, Bool.false_eq_true, if_false, if_true]
    rw [if_neg (by simpa using ⟨hlo, hhi⟩), Chan.place, if_pos rfl, hplace]
  refine ⟨v, _, htake, heff, ?_, ?_, only_write (by simp [Pos.Sized]) _ b⟩
  · rw [chan_notifySend, chan_answer, Act.run_seq, run_when]
    split <;> exact chan_setChan hlen _
  · rw [State.notifySend_dict, answer_dict]
    exact only_of_fits (l := [.pos]) (by simp [Pos.Sized]) b .dict (by simp)

theorem positionPreset_axis_completes (t ch v : Nat) (w : Wr) :
    ch < 14 →
    Completes (.positionPreset t ch w) t
      (fun b => b.takes 0x231F (ch + 1) w v ∧ ch < b.pos.chans.length ∧ b.masterPrinting ch = false
        ∧ b.webMode ch = false ∧ (b.softLimits ch).1 ≤ signedOf 8 v * 2 ^ 32
        ∧ signedOf 8 v * 2 ^ 32 ≤ (b.softLimits ch).2)
      fun b u => u.chan ch = ({ b.chan ch with raw := signedOf 8 v * 2 ^ 32 } : Chan).settle (b.softLimits ch)
        ∧ b.only [.dict, .ev, .pos] u :=
  fun hch => completes_write (fun _ => rfl) fun b ⟨htake, hlen, hprint, hweb, hlo, hhi⟩ => by
  have heff : effPreset ch b { w with val := v } = accept
      (.seq (setChan ch fun _ => ({ b.chan ch with raw := signedOf 8 v * 2 ^ 32 } : Chan).settle (b.softLimits ch))
        (limitEvent ch (b.chan ch)
          (({ b.chan ch with raw := signedOf 8 v * 2 ^ 32 } : Chan).settle (b.softLimits ch)))) := by
    simp only [effPreset, hprint, hweb, Bool.false_eq_true, if_false]
    rw [if_neg (by simpa only [Bool.or_eq_true, decide_eq_true_eq, not_or, not_lt] using ⟨hlo, hhi⟩)]
    rfl
  refine ⟨v, _, htake, heff, ?_, only_write (by simp) _ b⟩
  rw [chan_notifySend, chan_answer, Act.run_seq, chan_limitEvent, chan_setChan hlen]

/-- A restarted channel is as after a restart, and no longer retired (R128). -/
theorem restartChannel_leaves {s : State} {c : Nat} (h : c < s.pos.chans.length) :
    ((restartChannel c).run s).chan c = (s.chan c).restart
      ∧ ((restartChannel c).run s).isRetired (faultSource 4 c) = false := by
  have hafter : ∀ (own valid : Bool) (u : State), let v := (seqs [when own (.prim (.pos fun p =>
      { p with onBackup := false, bases := [], samples := [] })), when valid (posEvent 31 c)]).run u
      v.chan c = u.chan c ∧ v.health = u.health := fun own valid u => by
    cases own <;> cases valid <;> simp [posEvent, State.chan, when]
  obtain ⟨hchan, hhealth⟩ := hafter (s.reg K.MasterChannel == c || (s.pos.onBackup && s.reg K.MasterBackupChannel == c))
    (s.chan c).valid ((restartSource (faultSource 4 c)).run ((setChan c Chan.restart).run s))
  refine ⟨hchan.trans ?_, ?_⟩
  · rw [← chan_setChan h Chan.restart]
    exact chan_of_pos (by simp [restartSource, faultTable]) c
  · refine (congrArg (fun h : Health => h.retired.contains (faultSource 4 c)) hhealth).trans ?_
    simp [restartSource, faultTable, setWindow]

@[simp] theorem calm_restartChannel {P : Nat → Prop} (c : Nat) (h : P (K.PositionEventChannel + 15)) :
    (restartChannel c).All (Prim.Calm P) := by
  simp [restartChannel, restartSource, faultTable, setChan, h]

theorem channelTypeWrite_completes (t ch v : Nat) (w : Wr) :
    ch < 14 → typeAccepted ch v = true →
    Completes (.channelTypeWrite t ch w) t
      (fun b => b.takes 0x2310 (ch + 1) w v ∧ ch < b.pos.chans.length)
      fun b u => u.reg (K.ChannelType + ch) = v ∧ u.chan ch = (b.chan ch).restart
        ∧ u.isRetired (faultSource 4 ch) = false ∧ b.only [.mem, .dict, .ev, .pos, .health] u :=
  fun hch htype => completes_write (fun _ => rfl) fun b ⟨htake, hlen⟩ => by
  have heff : effChannelType ch b { w with val := v } = accept
      (.seq (put (K.ChannelType + ch) v) (restartChannel ch)) := by
    simp [effChannelType, htype]
  obtain ⟨hchan, hret⟩ := restartChannel_leaves (s := (put (K.ChannelType + ch) v).run b) hlen
  refine ⟨v, _, htake, heff, ?_, by rw [chan_notifySend, chan_answer]; exact hchan,
    by simpa [State.isRetired] using hret, only_write (by simp) _ b⟩
  have hne : K.PositionEventChannel + 15 ≠ K.ChannelType + ch := by
    simp only [K.PositionEventChannel, K.ChannelType]; omega
  rw [State.notifySend_reg, answer_reg, Act.run_seq, (calm_restartChannel ch hne).reg_other, run_put,
    State.reg_set_same]

theorem countingModeWrite_completes (t ch v : Nat) (w : Wr) :
    ch < 14 →
    Completes (.countingModeWrite t ch w) t
      (fun b => b.takes 0x2311 (ch + 1) w v ∧ ch < b.pos.chans.length
        ∧ (v = 1 → b.reg K.MasterChannel ≠ ch ∧ b.reg K.MasterBackupChannel ≠ ch))
      fun b u => u.reg (K.CountingMode + ch) = v ∧ u.chan ch = (b.chan ch).restart
        ∧ u.isRetired (faultSource 4 ch) = false ∧ b.only [.mem, .dict, .ev, .pos, .health] u :=
  fun hch => completes_write (fun _ => rfl) fun b ⟨htake, hlen, hmaster⟩ => by
  have heff : effCountingMode ch b { w with val := v } = accept
      (.seq (put (K.CountingMode + ch) v) (restartChannel ch)) := by
    by_cases hv : v = 1
    · obtain ⟨hm, hb⟩ := hmaster hv
      simp [effCountingMode, hm, hb]
    · simp [effCountingMode, hv]
  obtain ⟨hchan, hret⟩ := restartChannel_leaves (s := (put (K.CountingMode + ch) v).run b) hlen
  refine ⟨v, _, htake, heff, ?_, by rw [chan_notifySend, chan_answer]; exact hchan,
    by simpa [State.isRetired] using hret, only_write (by simp) _ b⟩
  have hne : K.PositionEventChannel + 15 ≠ K.CountingMode + ch := by
    simp only [K.PositionEventChannel, K.CountingMode]; omega
  rw [State.notifySend_reg, answer_reg, Act.run_seq, (calm_restartChannel ch hne).reg_other, run_put,
    State.reg_set_same]

theorem masterChannelWrite_completes (t v : Nat) (w : Wr) :
    Completes (.masterChannelWrite t w) t
      (fun b => b.takes 0x2300 1 w v ∧ (v ≠ 0xFF → b.webMode v = true))
      fun b u => u.reg K.MasterChannel = v ∧ u.pos = { b.pos with onBackup := false, bases := [], samples := [] }
        ∧ b.regsBut [K.MasterChannel] u ∧ b.only [.dict, .ev, .pos] u :=
  completes_write (fun _ => rfl) fun b ⟨htake, hweb⟩ => by
  have heff : effMaster K.MasterChannel b { w with val := v } = accept (.seq (put K.MasterChannel v)
      (.prim (.pos fun p => { p with onBackup := false, bases := [], samples := [] }))) := by
    by_cases hv : v = 0xFF
    · simp [effMaster, hv, when]
    · simp [effMaster, hweb hv, when]
  exact ⟨v, _, htake, heff, by simp, by simp, regsBut_write (by simp) _ b, only_write (by simp [Pos.Sized]) _ b⟩

/-- Settles O12: each accepted write is its rule's one change of the channel. -/
theorem positionWritesComplete : Obligations.PositionWritesComplete :=
  ⟨copyLengthWrite_completes, softLimitWrite_completes, positionPreset_web_completes, positionPreset_axis_completes,
    channelTypeWrite_completes, countingModeWrite_completes, masterChannelWrite_completes⟩

end Sys2Proof.Machine
end

section
/-! # Tether sessions (R409–R414) -/

namespace Sys2Proof.Machine

/-! ### Sessions and the notifications that go out -/

/-- A session without its numbering of Notifies. -/
def Session.base (x : Session) : Session := { x with nextNotify := 1, sent := [] }

theorem base_notifies (now n : Nat) (x : Session) (l : List NotifyRec) :
    (Session.notifies now n x l).1.base = x.base := by
  induction n generalizing x l with
  | zero => rfl
  | succ n ih =>
    cases l with
    | nil => rfl
    | cons r l => exact ih _ _

theorem sessions_notifySession (s : State) (i : Nat) :
    (s.notifySession i).net.sessions.map (Option.map Session.base) = s.net.sessions.map (Option.map Session.base) := by
  unfold State.notifySession
  split
  · rfl
  next x hx =>
  dsimp only
  split
  · rfl
  · have hi : s.net.sessions[i]? = some (some x) := by
      cases h : s.net.sessions[i]? <;> simp_all
    obtain ⟨hlt, hget⟩ := List.getElem?_eq_some_iff.mp hi
    rw [List.map_set, Option.map_some, base_notifies]
    refine List.ext_getElem? fun j => ?_
    by_cases hj : i = j
    · subst hj
      simpa [hi, hlt] using ⟨x, hget, rfl⟩
    · simp [List.getElem?_set_ne hj]

theorem sessions_notifySend (s : State) :
    s.notifySend.net.sessions.map (Option.map Session.base) = s.net.sessions.map (Option.map Session.base) := by
  unfold State.notifySend
  generalize List.range 8 = l
  induction l generalizing s with
  | nil => rfl
  | cons i l ih => exact (ih _).trans (sessions_notifySession s i)

theorem session_notifySend (s : State) (i : Nat) :
    (s.notifySend.session? i).map Session.base = (s.session? i).map Session.base := by
  have h : ∀ u : State, (u.session? i).map Session.base
      = ((u.net.sessions.map (Option.map Session.base))[i]?).getD none := fun u => by
    cases hu : u.net.sessions[i]? <;> simp [State.session?, hu]
  rw [h, h, sessions_notifySend]

theorem session_notifySend_none {s : State} {i : Nat} (h : s.session? i = none) : s.notifySend.session? i = none := by
  simpa [h] using session_notifySend s i

/-- An open session stays as it is but for its numbering of Notifies when notifications go out. -/
theorem session_notifySend_some {s : State} {i : Nat} {x : Session} (h : s.session? i = some x) :
    ∃ y, s.notifySend.session? i = some y ∧ y.base = x.base := by
  have hb := session_notifySend s i
  rw [h] at hb
  cases hy : s.notifySend.session? i with
  | none => simp [hy] at hb
  | some y => exact ⟨y, rfl, by simpa [hy] using hb⟩

/-- What a session keeps of another of the same base. -/
theorem Session.base_eq {x y : Session} (h : y.base = x.base) :
    y.host = x.host ∧ y.id = x.id ∧ y.role = x.role ∧ y.key = x.key ∧ y.lastAt = x.lastAt := by
  simp only [Session.base, Session.mk.injEq] at h
  obtain ⟨hhost, hid, -, hrole, -, hkey, -, -, hlast, -⟩ := h
  exact ⟨hhost, hid, hrole, hkey, hlast⟩

theorem session_sent {s : State} {i : Nat} {x : Session} (h : s.session? i = some x) {Q : Session → Prop}
    (hQ : ∀ y : Session, y.base = x.base → Q y) : ∃ y, s.notifySend.session? i = some y ∧ Q y := by
  obtain ⟨y, hy, hbase⟩ := session_notifySend_some h
  exact ⟨y, hy, hQ y hbase⟩

theorem session_of_sessionOf {s : State} {d : List Nat} {i : Nat} {x : Session} (h : s.sessionOf d = some (i, x)) :
    s.session? i = some x ∧ x.id = field d 4 4 := by
  obtain ⟨j, -, hj⟩ := List.exists_of_findSome?_eq_some h
  cases hx : s.session? j with
  | none => simp [hx] at hj
  | some y =>
    simp only [hx, Option.bind_some, Option.ite_none_right_eq_some, Option.some.injEq, Prod.mk.injEq] at hj
    obtain ⟨hid, rfl, rfl⟩ := hj
    exact ⟨hx, hid⟩

@[simp] theorem calm_netEvent {P : Nat → Prop} {n v : Nat} (h : P (K.NetworkEventPort + (n - 216))) :
    (netEvent n v).All (Prim.Calm P) := by simp [netEvent, h]

@[simp] theorem calm_sendUdp (P : Nat → Prop) (h : Host4) (d : List Nat) : (sendUdp h d).All (Prim.Calm P) := by
  intro s
  dsimp only
  split <;> simp

@[simp] theorem Prim.apply_notifyOn (i : Nat) (on : Bool) (s : State) :
    (Prim.notifyOn i on).apply s = { s with ev := s.ev.setNotify i on } := rfl

/-! ### What messages and the events of the network leave -/

@[simp] theorem net_netEvent (n v : Nat) (s : State) : ((netEvent n v).run s).net = s.net := by simp [netEvent]

@[simp] theorem net_sendUdp (h : Host4) (d : List Nat) (s : State) : ((sendUdp h d).run s).net = s.net := by
  simp only [sendUdp, Act.run_read]
  split <;> rfl

theorem raised_netEvent {n v : Nat} (hk : ctlKey ≠ K.NetworkEventPort + (n - 216)) (hn : reservedEvent n = false)
    (s : State) : s.raised [n] ((netEvent n v).run s) := by
  rw [netEvent, Act.run_seq]
  exact raised_after (by simp [hk]) (raised_raise hn _)

/-- A message to a host with a next hop goes out. -/
theorem mem_out_sendUdp {h : Host4} {s : State} {via : Nat} (hv : s.nextHop h.nic h.ip = some via) (d : List Nat) :
    .udp h via d ∈ ((sendUdp h d).run s).out := by
  simp only [sendUdp, Act.run_read, hv]
  exact List.mem_append_right _ (List.mem_singleton.mpr rfl)

theorem any_of_eq_some {α : Type} {o : Option α} {x : α} (h : o = some x) {p : α → Bool} (hp : p x = true) :
    o.any p = true := by rw [h, Option.any_some, hp]

/-! ### Frames of the sessions -/

/-- The sessions are no piece: changes of them alone leave everything. -/
theorem only_sessions (s : State) (l : List (Option Session)) :
    s.only [] { s with net := { s.net with sessions := l } } := fun p _ => by
  cases p <;> first | exact ⟨rfl, rfl, rfl⟩ | exact rfl

theorem only_setSession (i : Nat) (f : Session → Session) (s : State) : s.only [] ((setSession i f).run s) :=
  only_sessions s _

theorem session_setSession {s : State} {i : Nat} {x : Session} (h : s.session? i = some x) (f : Session → Session) :
    ((setSession i f).run s).session? i = some (f x) := by
  have hi : s.net.sessions[i]? = some (some x) := by
    cases hs : s.net.sessions[i]? <;> simp_all [State.session?]
  simp [setSession, State.session?, hi]

theorem only_seqs {s : State} {l : List Piece} {a : Act} {rest : List Act} (h : s.only l (a.run s))
    (k : (a.run s).only l ((seqs rest).run (a.run s))) : s.only l ((seqs (a :: rest)).run s) := only_trans h k

/-- A closed session's slot is free, and TetherSessionClosed is raised (R414). -/
theorem closeSession_leaves {s : State} {i : Nat} {x : Session} (h : s.session? i = some x) :
    ((closeSession i).run s).session? i = none ∧ s.raised [225] ((closeSession i).run s)
      ∧ s.regsBut [K.SessionsOpen, K.NetworkEventPort + 9] ((closeSession i).run s)
      ∧ s.only [.dict, .ev, .time, .pos, .sec] ((closeSession i).run s) := by
  simp only [closeSession, Act.run_read, h]
  refine ⟨?_, ?_, regsBut_of_calm (by simp [dropLatches]) s, ?_⟩
  · by_cases hi : i < s.net.sessions.length <;> simp [State.session?, dropLatches, hi]
  · exact raised_tail (by simp) (raised_tail (by simp) (raised_tail (by simp [dropLatches]) (raised_tail (by simp)
      (raised_tail (by simp) (raised_head (raised_netEvent (by decide) rfl _) (P := fun _ => True) trivial)))))
  · exact only_seqs (only_mono (only_sessions s _) (by simp)) (only_of_fits (by simp) _)

/-- A message of a session, with its Tag, refreshes its session and acts (R410, R414). -/
theorem run_withSession {kind i : Nat} {host : Host4} {d : List Nat} {x : Session} {b : State}
    {f : Nat → Session → Act} (hat : b.tetherAt host = true) (hshape : tetherShape kind d = true)
    (hx : b.sessionOf d = some (i, x)) (hnic : x.host.nic = host.nic) (hver : field d 2 1 = x.version)
    (htag : tagHolds x.key d = true) : (withSession kind host d f).run b
      = (f i { x with host := host, lastAt := b.now }).run
        ((setSession i fun y => { y with host := host, lastAt := b.now }).run b) := by
  simp only [withSession, Act.run_read, hat, hshape, hx, htag]
  rw [run_ite_of_not (by decide), run_ite_of_not (by simp [hnic, hver]), run_ite_of_not (by decide), Act.run_seq]

theorem tetherHello_completes (t vmin vmax keyId client i v : Nat) (host : Host4) (nonce : List Nat) (rest : List Nat) (notify : Bool) :
    nonce.length = 16 → tetherAgreed vmin vmax = some v →
    Completes (.tetherHello t host vmin vmax keyId nonce client notify) t
      (fun b => b.tetherAt host = true ∧ b.freeSessions = i :: rest ∧ i < b.net.challenges.length
        ∧ (roleSlot keyId = true ∨ keyId = 0x21) ∧ b.keyLive keyId = true ∧ b.lockedOut pathTether = false)
      fun b u => (∃ x, u.net.challenges = b.net.challenges.set i (some x) ∧ x.host = host ∧ x.keyId = keyId
          ∧ x.role = roleOf keyId ∧ x.version = v ∧ x.lastAt = b.now ∧ 1 ≤ x.id
          ∧ ∀ via, b.nextHop host.nic host.ip = some via → ∃ d, .udp host via (tetherPlain v 2 x.id d) ∈ u.out)
        ∧ b.only [.net] u :=
  fun hlen hver => completes_of (fun _ => rfl) fun b _ ⟨hat, hfree, hi, hslot, hlive, hlock⟩ => by
  have hrole : (roleSlot keyId || keyId == 0x21) = true := by rcases hslot with h | h <;> simp [h]
  simp only [Act.run_read, hfree, hver, hrole, hlive, hlock]
  rw [run_ite_of_not (by simp [hat, hlen]), run_ite_of_not (by decide)]
  simp only [run_drawFree]
  generalize Config.freeValue b.free = a
  generalize Config.freeValue (b.free + 1) = c
  refine ⟨⟨{ host := host, id := 1 + a % (2 ^ 32 - 1), keyId := keyId, role := roleOf keyId, version := v,
             key := sessionKey (b.keyBytes keyId) nonce (leBytes 16 c) (1 + a % (2 ^ 32 - 1)),
             client := if v < 0x20 then 0x0100 else client, notify := notify && 0x11 ≤ v, lastAt := b.now },
    ?_, rfl, rfl, rfl, rfl, rfl, Nat.le_add_right 1 _, fun via hvia => ⟨_, mem_out_notifySend (mem_out_sendUdp ?_ _)⟩⟩, ?_⟩
  · simp only [Act.run_seq, State.notifySend_challenges, net_sendUdp]
    rfl
  · rw [← hvia]
    simp [State.nextHop]
  · exact only_sent (only_trans (u := { b with free := b.free + 1 + 1 }) (fun p _ => by cases p <;> simp [Piece.same])
      (only_of_fits (by simp [Net.Sized]) _))

theorem tetherOpen_completes (t i : Nat) (host : Host4) (data : List Nat) (x : Session) :
    Completes (.tetherOpen t host data) t
      (fun b => b.tetherAt host = true ∧ tetherShape 3 data = true ∧ b.challengeOf data = some (i, x)
        ∧ x.host.nic = host.nic ∧ b.now < x.lastAt + 1000000000 ∧ b.lockedOut pathTether = false
        ∧ tagHolds x.key data = true ∧ field data 8 4 = 0 ∧ field data 2 1 = x.version ∧ i < b.net.sessions.length)
      fun b u => (∃ y, u.session? i = some y ∧ y.id = x.id ∧ y.role = x.role ∧ y.key = x.key ∧ y.host = host
          ∧ y.lastAt = b.now)
        ∧ u.net.challenges = b.net.challenges.set i none ∧ b.raised [224] u ∧ b.only [.dict, .ev, .net] u :=
  completes_of (fun _ => rfl) fun b _ ⟨hat, hshape, hx, hnic, hlt, hlock, htag, hseq, hver, hi⟩ => by
  simp only [Act.run_read, hx]
  rw [run_ite_of_not (by simp [hat, hshape]), run_ite_of_not (by simp [hnic, hlt]), run_ite_of_not (by simp [hlock]),
    run_ite_of_not (by simp [htag, hseq, hver])]
  refine ⟨session_sent (x := { x with host := host, lastAt := b.now }) ?_ fun y hbase => ?_, by simp [forgetChallenge],
    raised_notifySend.mpr ?_, only_sent ?_⟩
  · simp [State.session?, forgetChallenge, hi]
  · obtain ⟨hyhost, hyid, hyrole, hykey, hylast⟩ := Session.base_eq hbase
    exact ⟨hyid, hyrole, hykey, hyhost, hylast⟩
  · exact raised_tail (by simp [forgetChallenge]) (raised_tail (by simp) (raised_tail (by simp) (raised_tail (by simp)
      (raised_tail (by simp) (raised_head (raised_netEvent (by decide) rfl _) (P := fun _ => True) trivial)))))
  · exact only_seqs (only_of_fits (by simp [forgetChallenge, Net.Sized]) _)
      (only_seqs (only_mono (only_sessions _ _) (by simp)) (only_of_fits (by simp) _))

theorem tetherOpen_refused (t i : Nat) (host : Host4) (data : List Nat) (x : Session) :
    Completes (.tetherOpen t host data) t
      (fun b => b.tetherAt host = true ∧ tetherShape 3 data = true ∧ b.challengeOf data = some (i, x)
        ∧ x.host.nic = host.nic ∧ b.now < x.lastAt + 1000000000 ∧ b.lockedOut pathTether = false
        ∧ tagHolds x.key data = false)
      fun b u => u.net.challenges = b.net.challenges.set i none
        ∧ u.reg K.AuthFailures = (b.reg K.AuthFailures + 1) % 2 ^ 32 ∧ b.raised [226, 252] u
        ∧ b.only [.dict, .ev, .net, .sec] u :=
  completes_of (fun _ => rfl) fun b _ ⟨hat, hshape, hx, hnic, hlt, hlock, htag⟩ => by
  simp only [Act.run_read, hx]
  rw [run_ite_of_not (by simp [hat, hshape]), run_ite_of_not (by simp [hnic, hlt]), run_ite_of_not (by simp [hlock]),
    run_ite_of (by simp [htag])]
  refine ⟨?_, ?_, raised_notifySend.mpr (raised_cons.mpr ⟨?_, ?_⟩), only_sent (only_of_fits ?_ b)⟩
  · simp [forgetChallenge, tagFailed, proofFailed]
  · simp [forgetChallenge, tagFailed, proofFailed, netEvent, K.NetworkEventPort, K.AuthFailures]
  · exact raised_tail (by simp [forgetChallenge]) (raised_head (raised_after (by simp) (raised_netEvent (by decide) rfl _))
      (P := fun _ => True) (by simp [proofFailed]))
  · exact raised_tail (by simp [forgetChallenge]) (raised_tail (by simp [tagFailed, K.NetworkEventPort])
      (raised_head (proofFailed_raises _ _) (P := fun _ => True) trivial))
  · simp [forgetChallenge, Net.Sized, tagFailed]

theorem challengeTimeout_completes (t : Nat) :
    Completes (.challengeTimeout t) t (fun _ => True)
      fun b u =>
        let keep := fun (c : Option Session) => c.filter fun x => b.now < x.lastAt + 1000000000
        u.net.challenges = b.net.challenges.map keep ∧ u.net.flows = b.net.flows ∧ b.only [.net] u :=
  completes_of (fun _ => rfl) fun b _ _ => ⟨by simp, by simp, only_sent_of_fits (by simp [Net.Sized]) b⟩

theorem sessionMessages_complete (t i : Nat) (host : Host4) (data : List Nat) (x : Session) :
    let pre := fun (kind : Nat) (b : State) => b.tetherAt host = true ∧ tetherShape kind data = true
      ∧ b.sessionOf data = some (i, x) ∧ x.host.nic = host.nic ∧ field data 2 1 = x.version
      ∧ tagHolds x.key data = true
    let kept := fun (b u : State) => ∃ y, u.session? i = some y ∧ y.id = x.id ∧ y.host = host ∧ y.lastAt = b.now
    Completes (.tetherKeepAlive t host data) t (pre 10) (fun b u => kept b u ∧ b.only [] u)
    ∧ Completes (.tetherNotifyAck t host data) t (pre 9) (fun b u =>
        let upTo := field data 8 4
        let covered := if upTo < x.nextNotify then x.sent.filter fun n => n.1 ≤ upTo else []
        kept b u ∧ u.ev = b.ev.dropNotify i (covered.map fun n => n.2.1).sum ∧ b.only [.ev] u)
    ∧ Completes (.tetherClose t host data) t (pre 11) (fun b u =>
        u.session? i = none ∧ b.raised [225] u ∧ b.only [.dict, .ev, .time, .pos, .sec] u) := by
  intro pre kept
  have kept_of : ∀ {b u : State} {y : Session}, u.session? i = some y → y.id = x.id → y.host = host → y.lastAt = b.now →
      kept b u.notifySend := fun hy hid hhost hlast => by
    obtain ⟨z, hz, hbase⟩ := session_notifySend_some hy
    obtain ⟨hzhost, hzid, -, -, hzlast⟩ := Session.base_eq hbase
    exact ⟨z, hz, hzid.trans hid, hzhost.trans hhost, hzlast.trans hlast⟩
  refine ⟨?_, ?_, ?_⟩
  · refine completes_of (fun _ => rfl) fun b _ ⟨hat, hshape, hx, hnic, hver, htag⟩ => ?_
    rw [run_withSession hat hshape hx hnic hver htag, Act.run_skip]
    exact ⟨kept_of (session_setSession (session_of_sessionOf hx).1 _) rfl rfl rfl, only_sent (only_setSession _ _ b)⟩
  · refine completes_of (fun _ => rfl) fun b _ ⟨hat, hshape, hx, hnic, hver, htag⟩ => ?_
    rw [run_withSession hat hshape hx hnic hver htag, Act.run_seq]
    refine ⟨kept_of (session_setSession (x := { x with host := host, lastAt := b.now }) ?_ _) rfl rfl rfl, ?_, only_sent ?_⟩
    · exact session_setSession (session_of_sessionOf hx).1 _
    · simp [setSession, Prim.apply]
    · exact only_trans (only_mono (only_setSession _ _ b) (by simp))
        (only_trans (only_of_fits (a := .prim _) (by simp) _) (only_mono (only_setSession _ _ _) (by simp)))
  · refine completes_of (fun _ => rfl) fun b _ ⟨hat, hshape, hx, hnic, hver, htag⟩ => ?_
    rw [run_withSession hat hshape hx hnic hver htag]
    obtain ⟨hnone, hraised, -, honly⟩ := closeSession_leaves (session_setSession (session_of_sessionOf hx).1
      fun y => { y with host := host, lastAt := b.now })
    exact ⟨session_notifySend_none hnone, raised_notifySend.mpr (raised_after (by simp [setSession]) hraised),
      only_sent (only_trans (only_mono (only_setSession _ _ b) (by simp)) honly)⟩

theorem sessionTimeout_completes (t i : Nat) (x : Session) :
    Completes (.sessionTimeout t i) t
      (fun b => b.session? i = some x ∧ x.lastAt + b.reg K.SessionTimeout * 1000000 ≤ b.now)
      fun b u => u.session? i = none ∧ b.raised [225] u
        ∧ b.regsBut [K.SessionsOpen, K.NetworkEventPort + 9] u ∧ b.only [.dict, .ev, .time, .pos, .sec] u :=
  completes_of (fun _ => rfl) fun b _ ⟨hx, hle⟩ => by
  rw [Act.run_read, run_when, if_pos (any_of_eq_some hx (decide_eq_true hle))]
  obtain ⟨hnone, hraised, hregs, honly⟩ := closeSession_leaves hx
  exact ⟨session_notifySend_none hnone, raised_notifySend.mpr hraised, regsBut_notifySend.mpr hregs, only_sent honly⟩

/-- Settles O37: a message that its Tag admits acts on the session it names, and the notifications that go out leave
all of a session but its numbering. -/
theorem tetherCompletes : Obligations.TetherCompletes :=
  ⟨tetherHello_completes, tetherOpen_completes, tetherOpen_refused, challengeTimeout_completes,
    sessionMessages_complete, sessionTimeout_completes⟩

end Sys2Proof.Machine
end

section
/-! # Ports, addresses and the frames that arrive (R395–R398) -/

namespace Sys2Proof.Machine

/-! ### One change for each element of a list -/

theorem each_keeps {α : Type} {P : State → Prop} {f : α → Act} {l : List α}
    (hf : ∀ x ∈ l, ∀ s, P s → P ((f x).run s)) {s : State} (hs : P s) : P ((each l f).run s) := by
  induction l generalizing s with
  | nil => exact hs
  | cons x l ih =>
    rw [run_each_cons]
    exact ih (fun y hy => hf y (List.mem_cons_of_mem _ hy)) (hf x List.mem_cons_self s hs)

/-- What one element's change makes true, and the others keep, holds after them all. -/
theorem each_makes {α : Type} {P : State → Prop} {f : α → Act} {l : List α} {x : α} (hx : x ∈ l)
    (hf : ∀ y ∈ l, ∀ s, P s → P ((f y).run s)) (hmake : ∀ s, P ((f x).run s)) (s : State) : P ((each l f).run s) := by
  induction l generalizing s with
  | nil => cases hx
  | cons y l ih =>
    rw [run_each_cons]
    have hl : ∀ z ∈ l, ∀ s, P s → P ((f z).run s) := fun z hz => hf z (List.mem_cons_of_mem _ hz)
    rcases List.mem_cons.mp hx with rfl | hm
    · exact each_keeps hl (hmake s)
    · exact ih hm hl _

/-! ### Sessions closed and flows ended -/

theorem closeSession_skip {s : State} {i : Nat} (h : s.session? i = none) : (closeSession i).run s = s := by
  simp only [closeSession, Act.run_read, h, Act.run_skip]

theorem closeSession_closed (i : Nat) (s : State) : ((closeSession i).run s).session? i = none := by
  cases h : s.session? i with
  | none => rw [closeSession_skip h, h]
  | some x => exact (closeSession_leaves h).1

theorem closeSession_other {i j : Nat} (hij : j ≠ i) (s : State) :
    ((closeSession j).run s).session? i = s.session? i := by
  cases h : s.session? j with
  | none => rw [closeSession_skip h]
  | some x =>
    simp only [closeSession, Act.run_read, h]
    simp [State.session?, dropLatches, List.getElem?_set_ne hij]

theorem closeSession_keeps_closed {i j : Nat} {s : State} (h : s.session? i = none) :
    ((closeSession j).run s).session? i = none := by
  by_cases hij : j = i
  · exact hij ▸ closeSession_closed j s
  · rw [closeSession_other hij, h]

@[simp] theorem calm_closeSession {P : Nat → Prop} (hs : P K.SessionsOpen) (hn : P (K.NetworkEventPort + 9)) (i : Nat) :
    (closeSession i).All (Prim.Calm P) := by
  intro s
  dsimp only
  split
  · trivial
  · simp [dropLatches, hs, hn]

theorem endFlow_flowState {g : Nat} (hg : g < 128) (f : Nat) (s : State) :
    ((endFlow f).run s).flowState g = if g = f then 0 else s.flowState g := by
  have hkey : K.FlowState + g ≠ K.ObjectsDiscarded := by simp only [K.FlowState, K.ObjectsDiscarded]; omega
  have hrest : ∀ u : State, ((seqs [when (!(s.flow f).buf.isEmpty) discardObject,
      setFlow f fun x => { ({} : Flow) with host := x.host, streams := x.streams, refused := x.refused }]).run u).reg
        (K.FlowState + g) = u.reg (K.FlowState + g) := Act.All.reg_other (by simp [discardObject, setFlow, hkey.symm])
  simp only [State.flowState, endFlow, Act.run_read]
  refine (hrest _).trans ?_
  simp

theorem endFlow_ended {f : Nat} (hf : f < 128) (s : State) : ((endFlow f).run s).flowState f = 0 := by
  rw [endFlow_flowState hf, if_pos rfl]

theorem endFlow_keeps_ended {f g : Nat} (hg : g < 128) {s : State} (h : s.flowState g = 0) :
    ((endFlow f).run s).flowState g = 0 := by
  rw [endFlow_flowState hg, h, ite_self]

/-! ### Frames forwarded, and what an address change closes -/

theorem calm_transparentForward {P : Nat → Prop} (h : P K.TcResidenceMax) (p : Nat) (d dwell : List Nat) :
    (transparentForward p d dwell).All (Prim.Calm P) := by
  intro s
  dsimp only
  split
  · trivial
  · split <;> simp [forwardPtp, h]

theorem ethernetFrame_completes (t port fec fecBad : Nat) (data dwell : List Nat) :
    Completes (.ethernetFrame t port data dwell fec fecBad) t
      (fun b => b.portThere port = true ∧ b.islandReady islNET = true)
      fun b u =>
        (b.acceptsFrame port data = true →
          u.reg (K.EthFramesReceived + port) = (b.reg (K.EthFramesReceived + port) + 1) % 2 ^ 64
          ∧ u.reg (K.FramesDiscarded + port) = b.reg (K.FramesDiscarded + port))
        ∧ (b.acceptsFrame port data = false →
          u.reg (K.FramesDiscarded + port) = (b.reg (K.FramesDiscarded + port) + 1) % 2 ^ 64
          ∧ u.reg (K.EthFramesReceived + port) = b.reg (K.EthFramesReceived + port))
        ∧ (port < 2 → u.reg (K.FecCorrected + port) = (b.reg (K.FecCorrected + port) + fec) % 2 ^ 64
          ∧ u.reg (K.FecUncorrected + port) = (b.reg (K.FecUncorrected + port) + fecBad) % 2 ^ 64)
        ∧ b.regsBut [K.EthFramesReceived + port, K.FramesDiscarded + port, K.FecCorrected + port,
          K.FecUncorrected + port, K.TcResidenceMax] u
        ∧ b.only [.dict] u := completes_of (fun _ => rfl) fun b _ ⟨hthere, hready⟩ => by
  have hport : port < 3 := by simp [State.portThere] at hthere; omega
  simp only [Act.run_read, hthere, hready]
  rw [run_ite_of_not (by decide), run_ite_of_not (by decide)]
  cases hacc : b.acceptsFrame port data <;> simp only [if_true, if_false]
  · refine ⟨nofun, fun _ => ⟨?_, ?_⟩, fun hp => ⟨?_, ?_⟩, regsBut_sent ?_ b, only_sent_of_fits (by simp) b⟩
    · by_cases hp : port < 2 <;> simp [hp]
    · by_cases hp : port < 2 <;> simp [hp]
    · simp [hp]
    · simp [hp]
    · by_cases hp : port < 2 <;> simp [hp]
  · have hkeep : ∀ (u : State) k, k ∈ [K.EthFramesReceived, K.FramesDiscarded, K.FecCorrected, K.FecUncorrected] →
        ((transparentForward port data dwell).run u).reg (k + port) = u.reg (k + port) := fun u k hk =>
      (calm_transparentForward (P := (· = K.TcResidenceMax)) rfl port data dwell).reg_calm
        (by fin_cases hk <;> simp only [K.EthFramesReceived, K.FramesDiscarded, K.FecCorrected, K.FecUncorrected,
          K.TcResidenceMax] <;> omega) u
    refine ⟨fun _ => ⟨?_, ?_⟩, nofun, fun hp => ⟨?_, ?_⟩, regsBut_sent ?_ b, only_sent_of_fits (by simp) b⟩
    · by_cases hp : port < 2 <;> simp [hp, hkeep _ _ (List.mem_of_elem_eq_true (a := K.EthFramesReceived) rfl)]
    · by_cases hp : port < 2 <;> simp [hp, hkeep _ _ (List.mem_of_elem_eq_true (a := K.FramesDiscarded) rfl)]
    · simp [hp, hkeep _ _ (List.mem_of_elem_eq_true (a := K.FecCorrected) rfl)]
    · simp [hp, hkeep _ _ (List.mem_of_elem_eq_true (a := K.FecUncorrected) rfl)]
    · by_cases hp : port < 2 <;> simp [hp, calm_transparentForward]

theorem arpRequest_completes (t port mac ip target : Nat) :
    Completes (.arpRequest t port mac ip target) t (fun b => b.answersAt port target = true)
      fun b u => .eth port (b.frameOf port (beBytes 6 mac ++ beBytes 6 (b.mac port)) 0x0806
            ([0, 1, 8, 0, 6, 4, 0, 2] ++ beBytes 6 (b.mac port) ++ beBytes 4 target ++ beBytes 6 mac ++ beBytes 4 ip))
          ∈ u.out
        ∧ b.only [] u := completes_of (fun _ => rfl) fun b _ hat => by
  rw [Act.run_read, run_when, if_pos hat]
  exact ⟨mem_out_send b _, only_sent_of_fits (by simp) b⟩

theorem icmpEcho_completes (t port src target ident seq via : Nat) (data : List Nat) :
    data.length ≤ 1472 →
    Completes (.icmpEcho t port src target ident seq data false) t
      (fun b => b.answersAt port target = true ∧ b.nextHop port src = some via)
      fun b u => (∃ sum, .ip port via src 1 ([0, 0] ++ sum ++ (beBytes 2 ident ++ beBytes 2 seq ++ data)) ∈ u.out)
        ∧ b.only [] u := fun hlen => completes_of (fun _ => rfl) fun b _ ⟨hat, hvia⟩ => by
  simp only [Act.run_read, hvia, hat, hlen, run_when]
  rw [if_pos (by simp)]
  exact ⟨⟨_, mem_out_send b _⟩, only_sent_of_fits (by simp) b⟩

theorem portLinkChange_completes (t port : Nat) (up : Bool) :
    Completes (.portLinkChange t port up) t
      (fun b => b.portThere port = true ∧ b.islandReady islNET = true ∧ b.flag (K.PortLinkUp + port) ≠ up)
      fun b u => u.reg (K.PortLinkUp + port) = (if up = true then 1 else 0)
        ∧ u.reg (K.NetworkEventPort + port) = port ∧ b.raised [216 + port] u
        ∧ b.regsBut [K.PortLinkUp + port, K.NetworkEventPort + port] u ∧ b.only [.dict, .ev] u :=
  completes_of (fun _ => rfl) fun b _ ⟨hthere, hready, hup⟩ => by
  have hport : port < 3 := by simp [State.portThere] at hthere; omega
  have hne : (b.flag (K.PortLinkUp + port) != up) = true := bne_iff_ne.mpr hup
  have hevent : netEvent (216 + port) port = .seq (put (K.NetworkEventPort + port) port) (raise (216 + port)) := by
    rw [netEvent, Nat.add_sub_cancel_left]
  rw [Act.run_read, run_when, if_pos (by simp [hthere, hready, hne]), hevent]
  refine ⟨?_, ?_, raised_notifySend.mpr ?_, regsBut_sent ?_ b, only_sent_of_fits (by simp) b⟩
  · cases up <;> simp [K.PortLinkUp, K.NetworkEventPort]
  · simp
  · have hcan : reservedEvent (216 + port) = false := by interval_cases port <;> rfl
    have hlink : ctlKey ≠ K.PortLinkUp + port := by simp only [K.PortLinkUp, ctlKey]; omega
    have hplace : ctlKey ≠ K.NetworkEventPort + port := by simp only [K.NetworkEventPort, ctlKey]; omega
    rw [Act.run_seq, Act.run_seq]
    exact raised_after ((State.reg_set_ne _ _ hplace).trans (State.reg_set_ne _ _ hlink)) (raised_raise hcan _)
  · simp

theorem endFlow_session (f i : Nat) (s : State) : ((endFlow f).run s).session? i = s.session? i := by
  by_cases h : (s.flow f).buf.isEmpty = true <;> simp [endFlow, State.session?, h, setFlow, discardObject]

@[simp] theorem session_answer (p : WPath) (code i : Nat) (s : State) :
    ((answer p code).run s).session? i = s.session? i := by simp [State.session?]

@[simp] theorem calm_endFlow {P : Nat → Prop} {f : Nat} (hf : P (K.FlowState + f)) (ho : P K.ObjectsDiscarded) :
    (endFlow f).All (Prim.Calm P) := by simp [endFlow, discardObject, setFlow, hf, ho]

theorem addressChange_completes (t idx port v : Nat) (w : Wr) :
    0x2E01 ≤ idx → idx ≤ 0x2E03 → port < 3 →
    Completes (.addressChange t idx port w) t
      (fun b => b.takes idx (port + 1) w v ∧ b.reg (idx * 256 + port + 1) ≠ v)
      fun b u => u.reg (idx * 256 + port + 1) = v
        ∧ (∀ i < 8, ∀ x, b.session? i = some x → x.host.nic = port → u.session? i = none)
        ∧ (port < 2 → ∀ f < 64, u.flowState (64 * port + f) = 0)
        ∧ b.only [.dict, .ev, .net, .time, .pos, .sec] u := fun hlo hhi hport => by
  have hcond : (decide (0x2E01 ≤ idx) && decide (idx ≤ 0x2E03) && decide (port < 3)) = true := by simp [hlo, hhi, hport]
  refine completes_write (idx := idx) (sub := port + 1) (w := w) (eff := effAddress (idx * 256 + port + 1) port)
    (fun s => congrArg (perform t · s) (if_pos hcond)) fun b ⟨htake, hne⟩ => ⟨v, _, htake, rfl, ?_⟩
  simp only [bne_iff_ne.mpr hne]
  refine ⟨?_, fun i hi x hx hnic => ?_, fun hp f hf => ?_, only_write ?_ _ b⟩
  · have hkeys : ∀ k, 0x2E0400 ≤ k → k ≠ idx * 256 + port + 1 := by intro k hk; omega
    rw [State.notifySend_reg, answer_reg, Act.run_seq, Act.All.reg_other]
    · simp
    · exact all_when fun _ => ⟨trivial, all_each fun i _ => calm_closeSession (hkeys _ (by decide)) (hkeys _ (by decide)) i,
        all_when fun _ => all_each fun f _ => calm_endFlow (hkeys _ (by simp only [K.FlowState]; omega))
          (hkeys _ (by decide)), trivial⟩
  · refine session_notifySend_none ?_
    rw [session_answer]
    simp only [Act.run_seq, run_when, if_true, run_seqs_cons, run_seqs_nil]
    have hclosed : ∀ u : State, ((each ((List.range 8).filter fun i => (b.session? i).any fun x => x.host.nic == port)
        closeSession).run u).session? i = none := fun u =>
      each_makes (f := closeSession) (x := i) (P := fun u => u.session? i = none)
        (List.mem_filter.mpr ⟨List.mem_range.mpr hi, by rw [any_of_eq_some hx]; exact beq_iff_eq.mpr hnic⟩) (fun _ _ _ => closeSession_keeps_closed)
        (closeSession_closed i) u
    split
    · exact each_keeps (P := fun u => u.session? i = none) (fun f _ u hu => (endFlow_session _ i u).trans hu) (hclosed _)
    · exact hclosed _
  · have hfree : ∀ u : State, u.flowState (64 * port + f) = b.flowState (64 * port + f) →
      ((each ((List.range 64).filter fun f => b.flowState (64 * port + f) != 0) fun f => endFlow (64 * port + f)).run
        u).flowState (64 * port + f) = 0 := fun u hu => by
      by_cases h0 : b.flowState (64 * port + f) = 0
      · exact each_keeps (P := fun u => u.flowState (64 * port + f) = 0)
          (fun g _ u hu => endFlow_keeps_ended (by omega) hu) (hu.trans h0)
      · exact each_makes (P := fun u => u.flowState (64 * port + f) = 0) (x := f) (by simp [hf, h0])
          (fun g _ u hu => endFlow_keeps_ended (by omega) hu) (fun u => endFlow_ended (by omega) u) u
    rw [State.flowState, State.notifySend_reg, answer_reg]
    simp only [Act.run_seq, run_when, if_true, run_seqs_cons, run_seqs_nil]
    rw [if_pos (decide_eq_true hp)]
    refine hfree _ ?_
    rw [State.flowState, Act.All.reg_other (all_each fun i _ => calm_closeSession
      (by simp only [K.FlowState, K.SessionsOpen]; omega) (by simp only [K.FlowState, K.NetworkEventPort]; omega) i)]
    refine State.reg_set_ne _ _ ?_
    simp only [K.FlowState]
    omega
  · simp [Net.Sized]

/-- Settles O36: each port's command acts on the registers, sessions and flows of its own port. -/
theorem portsComplete : Obligations.PortsComplete :=
  ⟨ethernetFrame_completes, arpRequest_completes, icmpEcho_completes, portLinkChange_completes,
    addressChange_completes⟩

end Sys2Proof.Machine
end

section
/-! # Outputs that stay, and the bookkeeping of faults (R81, R82, R436–R438) -/

namespace Sys2Proof.Machine

/-! ### What has been sent stays sent -/

theorem out_emcyFor (s : State) (n : Nat) : s.out <+: (s.emcyFor n).out := by
  unfold State.emcyFor
  dsimp only
  split
  · exact List.prefix_rfl
  split
  · exact List.prefix_append _ _
  split <;> exact List.prefix_rfl

theorem out_routeOne (s : State) (n : Nat) : s.out <+: (s.routeOne n).1.out := by
  unfold State.routeOne
  split
  · exact List.prefix_rfl
  dsimp only
  by_cases hroute : bit (s.ev.route n) 0 = true
  · rw [if_pos hroute]
    split <;> exact out_emcyFor s n
  · rw [if_neg hroute]
    split <;> exact List.prefix_rfl

theorem out_occur (s : State) (n : Nat) : s.out <+: (s.occur n).out := by
  unfold State.occur
  split
  · exact List.prefix_rfl
  split
  · split <;> exact List.prefix_rfl
  dsimp only
  split
  · exact List.prefix_rfl
  split
  · exact (out_routeOne (s.mark n) n).trans (out_routeOne (((s.mark n).routeOne n).1.mark 15) 15)
  · exact out_routeOne (s.mark n) n

/-- The primitive is part of a command's own changes: no command begins, and no held event is released. -/
@[simp] def Prim.Inner : Prim → Prop
  | .begin _ => False
  | .release => False
  | .route => False
  | .emcyNext => False
  | .notifySend => False
  | _ => True

theorem Prim.Inner.out {p : Prim} (h : p.Inner) (s : State) : s.out <+: (p.apply s).out := by
  cases p
  case begin | release | route | emcyNext | notifySend => exact h.elim
  case occur n => exact out_occur s n
  case held n =>
    rw [show (Prim.held n).apply s = s.holdEvent n from rfl, State.holdEvent]
    split <;> exact List.prefix_rfl
  case out o => exact List.prefix_append _ _
  all_goals exact List.prefix_rfl

/-- What has been sent stays among the outputs of a command's own changes. -/
theorem mem_out_inner {o : Out} {a : Act} (ha : a.All Prim.Inner) {s : State} (h : o ∈ s.out) : o ∈ (a.run s).out := by
  have key : ∀ u : State, u.out <+: (a.run u).out := by
    clear h s
    induction a with
    | skip => exact fun u => List.prefix_rfl
    | prim p => exact fun u => Prim.Inner.out ha u
    | seq a b iha ihb => exact fun u => (iha ha.1 u).trans (ihb ha.2 _)
    | read f ih => exact fun u => ih u (ha u) u
  exact (key s).subset h

/-- What the first of two changes sends has been sent after both. -/
theorem mem_out_seqs {o : Out} {a : Act} {l : List Act} {s : State} (h : o ∈ (a.run s).out)
    (hl : (seqs l).All Prim.Inner) : o ∈ ((seqs (a :: l)).run s).out := mem_out_inner hl h

/-! ### Bookkeeping of faults -/

/-- The registers that a fault's bookkeeping sets (R436–R438). -/
def faultKeys : List Nat := [K.LastFaultSource, K.PermanentCount, K.TransientCount, K.FaultLogIndex]

@[simp] theorem calm_faultLog {P : Nat → Prop} (h : P K.FaultLogIndex) (src kind count event detail : Nat) :
    (faultLog src kind count event detail).All (Prim.Calm P) := by simp [faultLog, h]

@[simp] theorem calm_retireSource {P : Nat → Prop} (h : P K.FaultLogIndex) {owner : Act}
    (howner : owner.All (Prim.Calm P)) (src event detail : Nat) :
    (retireSource src event detail owner).All (Prim.Calm P) := by simp [retireSource, faultTable, h, howner]

@[simp] theorem calm_faultOccurrence {P : Nat → Prop} (h : ∀ k ∈ faultKeys, P k) {owner : Act}
    (howner : owner.All (Prim.Calm P)) (src event detail : Nat) :
    (faultOccurrence src event detail owner).All (Prim.Calm P) := by
  simp only [faultKeys, List.forall_mem_cons] at h
  simp [faultOccurrence, faultTable, h, howner]

/-- Every run of the tree keeps `R`. -/
def Act.Keeps (R : State → Prop) (a : Act) : Prop := ∀ s, R s → R (a.run s)

section Keeps

variable {R : State → Prop}

theorem keeps_skip : Act.skip.Keeps R := fun _ h => h

theorem keeps_seq {a b : Act} (ha : a.Keeps R) (hb : b.Keeps R) : (Act.seq a b).Keeps R := fun s h => hb _ (ha s h)

theorem keeps_read {f : State → Act} (h : ∀ s, (f s).Keeps R) : (Act.read f).Keeps R := fun s hs => h s s hs

theorem keeps_ite {c : Prop} [Decidable c] {a b : Act} (ha : c → a.Keeps R) (hb : ¬c → b.Keeps R) :
    (if c then a else b).Keeps R := by
  split
  next h => exact ha h
  next h => exact hb h

theorem keeps_when {c : Bool} {a : Act} (ha : c = true → a.Keeps R) : (when c a).Keeps R := by
  cases c
  · exact keeps_skip
  · exact ha rfl

theorem keeps_seqs {l : List Act} (h : ∀ a ∈ l, a.Keeps R) : (seqs l).Keeps R := by
  induction l with
  | nil => exact keeps_skip
  | cons a l ih => exact keeps_seq (h a List.mem_cons_self) (ih fun b hb => h b (List.mem_cons_of_mem a hb))

theorem keeps_each {α : Type} {l : List α} {f : α → Act} (h : ∀ x ∈ l, (f x).Keeps R) : (each l f).Keeps R :=
  fun _ hs => each_keeps h hs

end Keeps

/-- A calm tree keeps whatever is said of a register outside its keys. -/
theorem keeps_reg {a : Act} {q : Nat} (h : a.All (Prim.Calm (· ≠ q))) (T : Nat → Prop) :
    a.Keeps fun s => T (s.reg q) := fun s hs => by
  show T ((a.run s).reg q)
  rwa [h.reg_other s]

theorem keeps_link {a : Act} {l : List Piece} (h : a.All (Prim.Fits l)) (hl : .link ∉ l) (T : Links → Prop) :
    a.Keeps fun s => T s.link := fun s hs => by
  show T (a.run s).link
  rwa [show (a.run s).link = s.link from only_of_fits h s .link hl]

/-- `R` survives what a fault's bookkeeping changes. -/
def SurvivesBook (R : State → Prop) : Prop :=
  ∀ a : Act, a.All (Prim.Calm (· ∈ faultKeys)) → a.All (Prim.Fits [.mem, .dict, .ev, .health]) → a.Keeps R

theorem survivesBook_reg {q : Nat} (hq : q ∉ faultKeys) (T : Nat → Prop) : SurvivesBook fun s => T (s.reg q) :=
  fun _ ha _ => keeps_reg (ha.mono fun _ => Prim.Calm.mono fun k hk (e : k = q) => hq (e ▸ hk)) T

theorem survivesBook_link (T : Links → Prop) : SurvivesBook fun s => T s.link :=
  fun _ _ ha => keeps_link ha (by simp) T

/-- What the bookkeeping of a fault and its owner's action keep, an occurrence of the fault keeps. -/
theorem faultOccurrence_keeps {R : State → Prop} {owner : Act} (hbook : SurvivesBook R) (howner : owner.Keeps R)
    (src event detail : Nat) : (faultOccurrence src event detail owner).Keeps R := by
  have hretire : (retireSource src event detail owner).Keeps R := keeps_read fun s => keeps_ite (fun _ => keeps_skip) fun _ =>
    keeps_seqs <| by
      simp only [List.forall_mem_cons, List.not_mem_nil, false_imp_iff, implies_true, and_true]
      exact ⟨hbook _ (by simp) (by simp [Health.Sized]), hbook _ (by simp [faultTable]) (by simp [faultTable]),
        hbook _ (by simp [faultKeys]) (by simp), hbook _ (by simp) (by simp), howner⟩
  refine keeps_read fun s => keeps_ite (fun _ => keeps_skip) fun _ => keeps_ite (fun _ => ?_) fun _ => keeps_ite (fun _ => ?_)
    fun _ => ?_
  · exact hbook _ (by simp [faultKeys]) (by simp)
  · refine keeps_seqs ?_
    simp only [List.cons_append, List.nil_append, List.forall_mem_cons, List.not_mem_nil, false_imp_iff, implies_true,
      and_true]
    exact ⟨hbook _ (by simp [faultKeys]) (by simp), hbook _ (by simp) (by simp [Health.Sized, setWindow]),
      hbook _ (by simp [faultTable]) (by simp [faultTable]), hbook _ (by simp) (by simp),
      hbook _ (by simp [faultKeys]) (by simp), hbook _ (by simp [faultKeys]) (by simp), keeps_when fun _ => hretire⟩
  · exact hbook _ (by simp [faultKeys, faultTable]) (by simp [faultTable, Health.Sized, setWindow])

/-- The latest fault is its source's (R436). -/
theorem faultOccurrence_source {src event detail : Nat} {owner : Act} {s : State} (hsrc : s.sourceAbsent src = false)
    (howner : owner.All (Prim.Calm (· ≠ K.LastFaultSource))) :
    ((faultOccurrence src event detail owner).run s).reg K.LastFaultSource = src := by
  simp only [faultOccurrence, Act.run_read, hsrc]
  rw [run_ite_of_not (by decide)]
  split
  · rw [Act.run_seq, Act.All.reg_other (by simp)]
    simp
  split <;>
  · rw [List.cons_append, run_seqs_cons, Act.All.reg_other (by simp [faultTable, howner])]
    simp

end Sys2Proof.Machine
end

section
/-! # The head links (R256–R288) -/

namespace Sys2Proof.Machine

/-! ### Keys of the links' blocks, above all others -/

@[simp] theorem linkKey_inj {k k' l : Nat} : linkKey k l = linkKey k' l ↔ k = k' := by simp [linkKey]

theorem ne_linkKey {k q l : Nat} (hk : 0x400000 ≤ k) (hq : q < 0x400000) : q ≠ linkKey k l := by
  simp only [linkKey]
  omega

theorem linkKey_ne {k q l : Nat} (hk : 0x400000 ≤ k) (hq : q < 0x400000) : linkKey k l ≠ q := (ne_linkKey hk hq).symm

/-- Entries of the links' blocks and of the slots' differ in their sub-index. -/
theorem slotKey_ne_linkKey {k q l l' sl : Nat} (h : k % 256 ≠ q % 256) : slotKey q l' sl ≠ linkKey k l := by
  simp only [slotKey, linkKey]
  omega

/-! ### One link's record -/

theorem lnk_setLink {l : Nat} {s : State} (h : l < s.link.links.length) (f : LinkSt → LinkSt) :
    ((setLink l f).run s).lnk l = f (s.lnk l) := by
  simp [setLink, State.lnk, h]

theorem lnk_of_link {s u : State} (h : u.link = s.link) (l : Nat) : u.lnk l = s.lnk l := by rw [State.lnk, h, State.lnk]

/-- What a change keeps of a link's record, it keeps whether the part has the link or not. -/
theorem lnk_setLink_field {α : Type} (g : LinkSt → α) {l : Nat} {f : LinkSt → LinkSt} (h : ∀ k, g (f k) = g k)
    (s : State) : g (((setLink l f).run s).lnk l) = g (s.lnk l) := by
  by_cases hl : l < s.link.links.length
  · rw [lnk_setLink hl, h]
  · simp [setLink, State.lnk, hl]

@[simp] theorem lnk_notifySend (s : State) (l : Nat) : s.notifySend.lnk l = s.lnk l := lnk_of_link (by simp) l

@[simp] theorem linkState_notifySend (s : State) (l : Nat) : s.notifySend.linkState l = s.linkState l := by
  simp [State.linkState]

@[simp] theorem lreg_notifySend (s : State) (k l : Nat) : s.notifySend.lreg k l = s.lreg k l := by simp [State.lreg]

@[simp] theorem linkBit_same (k l : Nat) (b : Bool) (s : State) : bit (((linkBit k l b).run s).reg k) l = b := by
  simp [linkBit]

/-! ### What the shared changes of a link set -/

section Calm

variable {P : Nat → Prop} {l : Nat}

@[simp] theorem calm_setLink (f : LinkSt → LinkSt) : (setLink l f).All (Prim.Calm P) := trivial

@[simp] theorem calm_startLink (hver : P (linkKey K.LinkVersion l)) (hstate : P (linkKey K.LinkState l))
    (hup : P K.LinksUp) : (startLink l).All (Prim.Calm P) := by simp [startLink, lput, linkBit, hver, hstate, hup]

@[simp] theorem calm_slotsAbsent (hslot : ∀ sl, P (slotKey K.HeadState l sl)) (hev : P (K.FiringEventSlot + 12))
    (event : Bool) : (slotsAbsent l event).All (Prim.Calm P) := by simp [slotsAbsent, fireEvent, hslot, hev]

@[simp] theorem calm_failCfgs (hcfg : P (linkKey K.HeadCfgState l)) : (failCfgs l).All (Prim.Calm P) := by
  simp [failCfgs, lput, hcfg]

@[simp] theorem calm_sendPacket (kind slot row : Nat) (content : List Nat) (rowSeq : Nat) (copy : Int) :
    (sendPacket l kind slot row content rowSeq copy).All (Prim.Calm P) := by simp [sendPacket]

@[simp] theorem calm_issueCfg (slot op count addr : Nat) (data : List Nat) (tries use : Nat) :
    (issueCfg l slot op count addr data tries use).All (Prim.Calm P) := by simp [issueCfg, sendCfg]

theorem calm_deferredStep : deferredStep.All (Prim.Calm P) := by
  intro s
  dsimp only
  split
  · simp
  · trivial

/-- The registers that an orderly stop sets (R45, R47, R49). -/
def stopKeys : List Nat :=
  [K.ModePending, K.ModeQueued, K.ServiceState, K.ServiceLastResult, K.ModeActual, K.ModeTransitionActive, K.StopReason,
    K.StopCount]

theorem stopKeys_low : ∀ k ∈ stopKeys, k < 0x400000 := by decide

theorem calm_orderlyStop (h : ∀ k ∈ stopKeys, P k) (reason : Nat) : (orderlyStop reason).All (Prim.Calm P) := by
  simp only [stopKeys, List.forall_mem_cons] at h
  simp [orderlyStop, markInFlight, endService, setMode, calm_deferredStep, h]

theorem calm_stopIfPrinting (h : ∀ k ∈ stopKeys, P k) (reason : Nat) : (stopIfPrinting reason).All (Prim.Calm P) :=
  fun _ => all_when fun _ => calm_orderlyStop h reason

/-- The registers outside the links' blocks that a link's retirement sets, besides LinksUp (R285). -/
def retireKeys : List Nat := K.LinksRetired :: (K.FiringEventSlot + 12) :: stopKeys

/-- What a link's retirement does after the link is down. -/
def retireRest (l : Nat) : Act :=
  seqs [linkBit K.LinksRetired l true, slotsAbsent l true, failCfgs l,
    setLink l (fun k => { k with lock := false, timeValid := false }), send (.blocks l bsIdle), stopIfPrinting 4]

theorem retireLink_eq (l : Nat) :
    retireLink l = .seq (lput K.LinkState l 6) (.seq (linkBit K.LinksUp l false) (retireRest l)) := rfl

theorem calm_retireRest (h : ∀ k ∈ retireKeys, P k) (hcfg : P (linkKey K.HeadCfgState l))
    (hslot : ∀ sl, P (slotKey K.HeadState l sl)) : (retireRest l).All (Prim.Calm P) := by
  obtain ⟨hretired, hev, hstop⟩ : P K.LinksRetired ∧ P (K.FiringEventSlot + 12) ∧ ∀ k ∈ stopKeys, P k := by
    simpa only [retireKeys, List.forall_mem_cons] using h
  simp [retireRest, linkBit, hcfg, hslot, calm_stopIfPrinting hstop, hretired, hev]

theorem calm_retireLink (h : ∀ k ∈ K.LinksUp :: retireKeys, P k) (hstate : P (linkKey K.LinkState l))
    (hcfg : P (linkKey K.HeadCfgState l)) (hslot : ∀ sl, P (slotKey K.HeadState l sl)) :
    (retireLink l).All (Prim.Calm P) := by
  obtain ⟨hup, hrest⟩ := List.forall_mem_cons.mp h
  exact ⟨hstate, fun _ => hup, calm_retireRest hrest hcfg hslot⟩

@[simp] theorem calm_wasteLinkCopies : (wasteLinkCopies l).All (Prim.Calm P) := by
  have hrow : ∀ (p : Nat × Nat × Nat) (s : State), (match s.rowStart p.1 p.2.1 p.2.2 with
      | some (m, _) => wasteCopy m wHead
      | none => .skip).All (Prim.Calm P) := fun p s => by split <;> trivial
  exact fun s => all_when fun _ => all_each fun p _ => hrow p s

end Calm

/-! ### A link starts -/

/-- A link that starts waits for a clock, trains or looks for markers (R264–R266). -/
theorem startLink_state (l : Nat) (s : State) : ((startLink l).run s).linkState l =
    (if (s.lnk l).clock = false then 0
      else if (s.lnk l).old = true ∨ s.lreg K.LinkVersionLimit l = 0x12 then 2 else 1) := by
  simp only [State.linkState, startLink, Act.run_read, run_seqs_cons, run_seqs_nil, run_send]
  rw [reg_mk, regIn_self, Act.All.reg_other (by simp [linkBit, (ne_linkKey (l := l) (k := K.LinkState) (q := K.LinksUp)
    (by decide) (by decide))])]
  simp [lput]

theorem startLink_up (l : Nat) (s : State) : bit (((startLink l).run s).reg K.LinksUp) l = false := by
  simp only [startLink, Act.run_read, run_seqs_cons, run_seqs_nil, run_send]
  simp

theorem startLink_version (l : Nat) (s : State) : ((startLink l).run s).lreg K.LinkVersion l = 0 := by
  simp [startLink, State.lreg, lput, linkBit, linkKey_ne (l := l) (k := K.LinkVersion) (q := K.LinksUp) (by decide) (by decide)]

/-- Neither the clock nor the partner's age is forgotten when a link starts. -/
theorem lnk_startLink {l : Nat} {s : State} (h : l < s.link.links.length) :
    ((startLink l).run s).lnk l = { (s.lnk l).restart s.now with clockAt := s.now } := by
  simp [startLink, lput, linkBit, State.lnk, setLink, h]

/-! ### Faults of a link -/

theorem linkThere_lt {s : State} {l : Nat} (h : s.linkThere l = true) : l < 16 := by
  have hl : l < s.linkCount := of_decide_eq_true (Bool.and_eq_true_iff.mp h).1
  unfold State.linkCount at hl
  split at hl <;> omega

theorem sourceAbsent_link {s : State} {l : Nat} (h : s.linkThere l = true) : s.sourceAbsent (faultSource 1 l) = false := by
  have hl : l < s.linkCount := by
    simp only [State.linkThere, Bool.and_eq_true, decide_eq_true_eq] at h
    exact h.1
  have hdiv : (32 * 1 + l) / 32 = 1 := by unfold State.linkCount at hl; split at hl <;> omega
  have hmod : (32 * 1 + l) % 32 = l := by unfold State.linkCount at hl; split at hl <;> omega
  simp only [State.linkCount] at hl
  simp only [State.sourceAbsent, faultSource, hdiv, hmod, classSize]
  cases hH : s.isH <;> simp [hH] at hl ⊢ <;> omega

theorem ne_linkKey_of_mem {q l : Nat} (hq : 0x400000 ≤ q) {keys : List Nat} (h : ∀ k ∈ keys, k < 0x400000) :
    ∀ k ∈ keys, k ≠ linkKey q l := fun k hk => ne_linkKey hq (h k hk)

theorem slotKey_ne {k q l sl : Nat} (hk : 0x400000 ≤ k) (hq : q < 0x400000) : slotKey k l sl ≠ q := by
  simp only [slotKey]
  omega

theorem linkFault_source {l : Nat} {s : State} (h : s.linkThere l = true) :
    ((linkFault l).run s).reg K.LastFaultSource = faultSource 1 l :=
  faultOccurrence_source (sourceAbsent_link h) ⟨linkKey_ne (by decide) (by decide), fun _ => show K.LinksUp ≠ K.LastFaultSource by decide,
    calm_retireRest (by decide) (linkKey_ne (by decide) (by decide)) fun _ => slotKey_ne (by decide) (by decide)⟩

/-- A fault leaves a link in its state or retires it (R285, R436). -/
theorem keeps_linkFault_state {l : Nat} {T : Nat → Prop} (h6 : T 6) :
    (linkFault l).Keeps fun s => T (s.reg (linkKey K.LinkState l)) := by
  refine faultOccurrence_keeps (survivesBook_reg ?_ T) (fun s _ => ?_) _ _ _
  · exact fun h => (ne_linkKey_of_mem (by decide) (by decide) _ h) rfl
  · have hrest : (Act.seq (linkBit K.LinksUp l false) (retireRest l)).All (Prim.Calm (· ≠ linkKey K.LinkState l)) :=
      ⟨fun _ => ne_linkKey (by decide) (by decide), calm_retireRest (ne_linkKey_of_mem (by decide) (by decide))
        (fun h => absurd (linkKey_inj.mp h) (by decide)) fun sl => slotKey_ne_linkKey (by decide)⟩
    show T ((((retireLink l)).run s).reg _)
    rw [retireLink_eq, Act.run_seq, hrest.reg_other]
    simpa [lput] using h6

theorem keeps_linkFault_up (l : Nat) : (linkFault l).Keeps fun s => bit (s.reg K.LinksUp) l = false := by
  refine faultOccurrence_keeps (survivesBook_reg (by decide) fun v => bit v l = false) (fun s _ => ?_) _ _ _
  show bit (((retireLink l).run s).reg _) l = false
  rw [retireLink_eq, Act.run_seq, Act.run_seq, Act.All.reg_other (calm_retireRest (by decide)
    (linkKey_ne (by decide) (by decide)) fun _ => slotKey_ne (by decide) (by decide)), linkBit_same]

theorem keeps_linkFault_clock (l : Nat) : (linkFault l).Keeps fun s => (s.lnk l).clock = true := by
  have hkeep : ∀ {f : LinkSt → LinkSt}, (∀ k, (f k).clock = k.clock) → (setLink l f).Keeps fun s => (s.lnk l).clock = true :=
    fun hf s hs => (lnk_setLink_field LinkSt.clock hf s).trans hs
  have hfits : ∀ {a : Act}, a.All (Prim.Fits [.dict, .ev, .sys, .fire, .dram, .time, .health]) →
      a.Keeps fun s => (s.lnk l).clock = true :=
    fun ha => keeps_link ha (by simp) fun x => (x.links.getD l {}).clock = true
  refine faultOccurrence_keeps (survivesBook_link fun x => (x.links.getD l {}).clock = true) (keeps_seqs ?_) _ _ _
  simp only [List.forall_mem_cons, List.not_mem_nil, false_imp_iff, implies_true, and_true]
  exact ⟨hfits (by simp [lput]), hfits (by simp), hfits (by simp), hfits (by simp),
    keeps_read fun s => keeps_seq (hfits (by simp [lput])) (hkeep fun _ => rfl), hkeep fun _ => rfl, hfits (by simp),
    hfits (by simp)⟩

theorem calm_slotsAbsent_low {q l : Nat} (hq : q < 0x400000) (hev : K.FiringEventSlot + 12 ≠ q) (event : Bool) :
    (slotsAbsent l event).All (Prim.Calm (· ≠ q)) :=
  calm_slotsAbsent (P := (· ≠ q)) (fun _ => slotKey_ne (by decide) hq) hev event

theorem calm_slotsAbsent_link {k l : Nat} (hk : K.HeadState % 256 ≠ k % 256) (hlow : 0x400000 ≤ k) (event : Bool) :
    (slotsAbsent l event).All (Prim.Calm (· ≠ linkKey k l)) :=
  calm_slotsAbsent (P := (· ≠ linkKey k l)) (fun _ => slotKey_ne_linkKey hk.symm) (ne_linkKey hlow (by decide)) event

/-- The registers outside the links' blocks that a lost link sets, besides those of a fault (R284). -/
def lossKeys : List Nat := K.LinksUp :: retireKeys ++ faultKeys

/-- What follows the count of a lost link. -/
def lossRest (l : Nat) : Act := seqs [raise (128 + l), slotsAbsent l true, failCfgs l, linkFault l]

theorem calm_linkFault {P : Nat → Prop} {l : Nat} (h : ∀ k ∈ lossKeys, P k) (hstate : P (linkKey K.LinkState l))
    (hcfg : P (linkKey K.HeadCfgState l)) (hslot : ∀ sl, P (slotKey K.HeadState l sl)) :
    (linkFault l).All (Prim.Calm P) := by
  obtain ⟨hretire, hfault⟩ := List.forall_mem_append.mp h
  exact calm_faultOccurrence hfault (calm_retireLink hretire hstate hcfg hslot) _ _ _

theorem calm_lossRest {P : Nat → Prop} {l : Nat} (h : ∀ k ∈ lossKeys, P k) (hstate : P (linkKey K.LinkState l))
    (hcfg : P (linkKey K.HeadCfgState l)) (hslot : ∀ sl, P (slotKey K.HeadState l sl)) :
    (lossRest l).All (Prim.Calm P) := by
  have hev : P (K.FiringEventSlot + 12) := h _ (by decide)
  simp [lossRest, hslot, hev, hcfg, calm_linkFault h hstate hcfg hslot]

theorem linkThere_congr {s u : State} {l : Nat} (hp : u.part = s.part) (hr : u.reg (K.IslandReady + 8) = s.reg (K.IslandReady + 8)) :
    u.linkThere l = s.linkThere l := by
  have h : ∀ v : State, v.islandReady islLINK = (v.reg (K.IslandReady + 8) == 1) := fun _ => rfl
  rw [State.linkThere, h, hr, ← h, State.linkThere, State.linkCount, State.isH, hp, State.linkCount, State.isH]

/-- A lost link starts anew and its loss is counted; what follows keeps the count (R284). -/
theorem run_linkLost (l : Nat) (s : State) : (linkLost l).run s
    = (lossRest l).run ((lput K.LinkLossCount l (bump 4 (s.lreg K.LinkLossCount l))).run
        ((startLink l).run ((wasteLinkCopies l).run s))) := by
  simp only [linkLost, lossRest, Act.run_read, run_seqs_cons, run_seqs_nil]

theorem linkLost_count (l : Nat) (s : State) :
    ((linkLost l).run s).lreg K.LinkLossCount l = bump 4 (s.lreg K.LinkLossCount l) := by
  have hlow : ∀ k ∈ lossKeys, k ≠ linkKey K.LinkLossCount l := ne_linkKey_of_mem (by decide) (by decide)
  rw [run_linkLost, State.lreg, Act.All.reg_other (calm_lossRest hlow (fun h => absurd (linkKey_inj.mp h) (by decide))
    (fun h => absurd (linkKey_inj.mp h) (by decide)) fun sl => slotKey_ne_linkKey (by decide))]
  simp [lput]

theorem lossRest_reg {q l : Nat} {T : Nat → Prop} (hslots : (slotsAbsent l true).All (Prim.Calm (· ≠ q)))
    (hcfg : (failCfgs l).All (Prim.Calm (· ≠ q))) (hfault : (linkFault l).Keeps fun s => T (s.reg q)) {u : State}
    (hu : T (u.reg q)) : T (((lossRest l).run u).reg q) := by
  refine hfault _ ?_
  show T (((failCfgs l).run ((slotsAbsent l true).run ((raise (128 + l)).run u))).reg q)
  rwa [hcfg.reg_other, hslots.reg_other, Act.All.reg_other (a := raise _) trivial]

/-- A lost link is not up (R284). -/
theorem linkLost_down (l : Nat) (s : State) :
    ((linkLost l).run s).linkState l ≠ 3 ∧ bit (((linkLost l).run s).reg K.LinksUp) l = false := by
  rw [run_linkLost]
  have hstart : ((startLink l).run ((wasteLinkCopies l).run s)).linkState l ≠ 3 := by
    rw [startLink_state]
    split
    · decide
    split <;> decide
  have hup := startLink_up l ((wasteLinkCopies l).run s)
  generalize (startLink l).run ((wasteLinkCopies l).run s) = u at hstart hup ⊢
  constructor
  · refine lossRest_reg (T := (· ≠ 3)) (calm_slotsAbsent_link (by decide) (by decide) true)
      (calm_failCfgs fun h => absurd (linkKey_inj.mp h) (by decide)) (keeps_linkFault_state (T := (· ≠ 3)) (by decide)) ?_
    simpa [lput, State.linkState] using hstart
  · refine lossRest_reg (T := (bit · l = false)) (calm_slotsAbsent_low (by decide) (by decide) true)
      (calm_failCfgs (linkKey_ne (by decide) (by decide))) (keeps_linkFault_up l) ?_
    simpa [lput, ne_linkKey (q := K.LinksUp) (k := K.LinkLossCount) (l := l) (by decide) (by decide)] using hup

theorem linkLost_source {l : Nat} {s : State} (h : s.linkThere l = true) :
    ((linkLost l).run s).reg K.LastFaultSource = faultSource 1 l := by
  have hrun : (linkLost l).run s = (linkFault l).run ((seqs [wasteLinkCopies l, startLink l,
      lput K.LinkLossCount l (bump 4 (s.lreg K.LinkLossCount l)), raise (128 + l), slotsAbsent l true,
      failCfgs l]).run s) := by
    simp only [linkLost, Act.run_read, run_seqs_cons, run_seqs_nil]
  rw [hrun]
  refine linkFault_source ((linkThere_congr (part_run _ _) (Act.All.reg_other ?_ s)).trans h)
  exact ⟨calm_wasteLinkCopies, calm_startLink (linkKey_ne (by decide) (by decide)) (linkKey_ne (by decide) (by decide))
    (by decide), linkKey_ne (by decide) (by decide), trivial, calm_slotsAbsent_low (by decide) (by decide) true, calm_failCfgs (linkKey_ne (by decide) (by decide)), trivial⟩

/-- LinkLost of the link is raised (R284). -/
theorem linkLost_raises {l : Nat} {s : State} (h : s.linkThere l = true) : s.raised [128 + l] ((linkLost l).run s) := by
  have hl : l < 16 := linkThere_lt h
  have hcan : reservedEvent (128 + l) = false := by interval_cases l <;> rfl
  have hbefore : (seqs [wasteLinkCopies l, startLink l,
      lput K.LinkLossCount l (bump 4 (s.lreg K.LinkLossCount l))]).All (Prim.Calm (· ≠ ctlKey)) :=
    ⟨calm_wasteLinkCopies, calm_startLink (linkKey_ne (by decide) (by decide)) (linkKey_ne (by decide) (by decide))
      (by decide), linkKey_ne (by decide) (by decide), trivial⟩
  rw [run_linkLost]
  exact raised_after (hbefore.reg_other s) (raised_head (raised_raise hcan _) (P := fun _ => True)
    ⟨calm_slotsAbsent (fun _ => trivial) trivial true, calm_failCfgs trivial,
      calm_linkFault (fun _ _ => trivial) trivial trivial (fun _ => trivial), trivial⟩)

theorem returnClockValid_completes (t l : Nat) :
    Completes (.returnClockValid t l) t
      (fun b => b.linkThere l = true ∧ (b.lnk l).clock = false ∧ (b.linkState l = 0 ∨ b.linkState l = 4)
        ∧ l < b.link.links.length)
      fun b u => (u.lnk l).clock = true ∧ (u.lnk l).lock = false ∧ (u.lnk l).clockAt = b.now
        ∧ u.linkState l = (if (b.lnk l).old = true ∨ b.lreg K.LinkVersionLimit l = 0x12 then 2 else 1)
        ∧ bit (u.reg K.LinksUp) l = false ∧ b.only [.dict, .link] u :=
  completes_of (fun _ => rfl) fun b _ ⟨hthere, hclock, hstate, hl⟩ => by
  have hcond : (b.linkState l == 0 || b.linkState l == 4) = true := by rcases hstate with h | h <;> simp [h]
  simp only [Act.run_read, hthere, hclock, run_when, Bool.not_false, Bool.and_self, if_true, Act.run_seq, hcond]
  have hlnk : ((startLink l).run ((setLink l fun k => { k with clock := true }).run b)).lnk l
      = { LinkSt.restart { b.lnk l with clock := true } b.now with clockAt := b.now } := by
    rw [lnk_startLink (by simpa [setLink] using hl), lnk_setLink hl]
    rfl
  refine ⟨?_, ?_, ?_, ?_, ?_, only_sent (only_trans (only_of_fits (by simp) _) (only_of_fits (by simp) _))⟩
  · rw [lnk_notifySend, hlnk]
    rfl
  · rw [lnk_notifySend, hlnk]
    rfl
  · rw [lnk_notifySend, hlnk]
  · rw [linkState_notifySend, startLink_state, lnk_setLink hl]
    exact if_neg (by simp)
  · rw [State.notifySend_reg, startLink_up]

theorem markerLock_completes (t l marker v : Nat) :
    Completes (.markerLock t l marker) t
      (fun b =>
        let inv := bits marker 0 8 == 255 - 0x4B
        b.linkThere l = true ∧ (b.lnk l).clock = true ∧ (b.lnk l).lock = false ∧ b.linkState l = 1
        ∧ l < b.link.links.length ∧ (List.range 4).map (blockByte marker inv) = [0x4B, 2, 0x5A, 0xC3]
        ∧ v = agreedVersion (b.lreg K.LinkVersionLimit l) (blockByte marker inv 5) (blockByte marker inv 4) false)
      fun b u => u.lreg K.LinkVersion l = v
        ∧ u.lreg K.PartnerVersionMax l = blockByte marker (bits marker 0 8 == 255 - 0x4B) 4
        ∧ (v ≠ 0 → (u.lnk l).lock = true ∧ u.linkState l = 1) ∧ (v = 0 → (u.lnk l).lock = false ∧ u.linkState l = 4)
        ∧ b.only [.dict, .link] u :=
  completes_of (fun _ => rfl) fun b _ ⟨hthere, hclock, hlock, hstate, hl, hmark, hv⟩ => by
  simp only [List.range, List.range.loop, List.map_cons, List.map_nil, List.cons.injEq, and_true] at hmark
  obtain ⟨h0, h1, h2, h3⟩ := hmark
  simp only [Act.run_read, hthere, hclock, hlock, hstate, h0, h1, h2, h3, show ((1 : Nat) == 2) = false from rfl,
    Bool.false_and, ← hv]
  rw [run_ite_of_not (by decide)]
  refine ⟨?_, ?_, fun hne => ⟨?_, ?_⟩, fun h0 => ⟨?_, ?_⟩, only_sent_of_fits (by simp [lput]) b⟩
  · by_cases h : v = 0 <;> simp [State.lreg, lput, setLink, h]
  · by_cases h : v = 0 <;> simp [State.lreg, lput, setLink, h]
  · simp [lput, setLink, State.lnk, hne, hl]
  · simpa [lput, setLink, State.linkState, hne] using hstate
  · simpa [lput, State.lnk, h0] using hlock
  · simp [lput, State.linkState, h0]

theorem trainingBlock_completes (t l block n : Nat) :
    16 ≤ n → blockByte block (bits block 0 8 == 255 - 0x2D) 0 = 0x2D →
    Completes (.trainingBlockReceived t l block n) t
      (fun b => b.linkThere l = true ∧ (b.lnk l).clock = true ∧ (b.lnk l).lock = false ∧ b.linkState l = 1)
      fun b u => u.linkState l = 2 ∧ .blocks l bsTs1 ∈ u.out
        ∧ b.regsBut [linkKey K.LinkState l, linkKey K.LaneCorrection l] u ∧ b.only [.dict, .link] u :=
  fun hn hblock => completes_of (fun _ => rfl) fun b _ ⟨hthere, hclock, hlock, hstate⟩ => by
  simp only [Act.run_read, hthere, hclock, hlock, hstate, hblock, hn]
  rw [run_ite_of_not (by decide), run_ite_of trivial, run_when, if_pos (by decide)]
  refine ⟨?_, mem_out_notifySend ?_, regsBut_sent (by simp [lput]) b, only_sent_of_fits (by simp [lput]) b⟩
  · simp [lput, State.linkState, setLink]
  · simp [lput, setLink]

theorem linkUpTimeout_completes (t l : Nat) :
    Completes (.linkUpTimeout t l) t
      (fun b => b.linkThere l = true ∧ (b.lnk l).clock = true ∧ (b.linkState l = 1 ∨ b.linkState l = 2)
        ∧ (b.lnk l).clockAt + b.reg K.LinkUpTimeout ≤ b.now)
      fun b u => u.reg K.LastFaultSource = faultSource 1 l
        ∧ (u.linkState l = 1 ∨ u.linkState l = 2 ∨ u.linkState l = 6)
        ∧ b.only [.mem, .dict, .ev, .sys, .fire, .link, .dram, .time, .health] u :=
  completes_of (fun _ => rfl) fun b _ ⟨hthere, hclock, hstate, hdue⟩ => by
  have hcond : (b.linkState l == 1 || b.linkState l == 2) = true := by rcases hstate with h | h <;> simp [h]
  have hdue' : decide ((b.lnk l).clockAt + b.reg K.LinkUpTimeout ≤ b.now) = true := decide_eq_true hdue
  simp only [Act.run_read, hthere, hclock, hcond, hdue', run_when, Bool.and_self, if_true, Act.run_seq]
  have hsource := linkFault_source hthere
  have hclk := keeps_linkFault_clock l b hclock
  have hfault : b.only [.mem, .dict, .ev, .sys, .fire, .link, .dram, .time, .health] ((linkFault l).run b) :=
    only_of_fits (by simp [linkFault]) b
  have hst := keeps_linkFault_state (T := fun v => v = 1 ∨ v = 2 ∨ v = 6) (.inr (.inr rfl)) b
    (hstate.imp id .inl)
  generalize (linkFault l).run b = u at hsource hclk hfault hst ⊢
  split
  · refine ⟨?_, ?_, only_sent (only_trans hfault (only_of_fits (by simp) u))⟩
    · rw [State.notifySend_reg, Act.All.reg_other (calm_startLink (linkKey_ne (by decide) (by decide))
        (linkKey_ne (by decide) (by decide)) (by decide)), hsource]
    · rw [linkState_notifySend, startLink_state, if_neg (by simp [hclk])]
      split <;> simp
  · exact ⟨(State.notifySend_reg _ _).trans hsource, by rw [linkState_notifySend]; exact hst, only_sent hfault⟩

theorem linkLoss_completes (t l cause : Nat) :
    cause ≤ 2 →
    Completes (.linkLoss t l cause) t (fun b => b.linkThere l = true ∧ b.linkState l = 3)
      fun b u => u.lreg K.LinkLossCount l = bump 4 (b.lreg K.LinkLossCount l) ∧ u.linkState l ≠ 3
        ∧ bit (u.reg K.LinksUp) l = false ∧ u.reg K.LastFaultSource = faultSource 1 l ∧ b.raised [128 + l] u
        ∧ b.only [.mem, .dict, .ev, .sys, .fire, .link, .dram, .time, .health] u :=
  fun hcause => completes_of (fun _ => rfl) fun b _ ⟨hthere, hstate⟩ => by
  have hdecl : ((b.linkState l == 3 || (b.linkState l == 1 || b.linkState l == 2) && (b.lnk l).lock)
      && (cause != 3 || decide (b.reg K.LaneErrorLossLimit < (b.lnk l).amErrors)) && decide (cause ≤ 3)) = true := by
    have hne : (cause != 3) = true := by simp; omega
    have hle : cause ≤ 3 := by omega
    simp [hstate, hne, hle]
  simp only [Act.run_read, hthere]
  rw [run_ite_of_not (by decide), run_ite_of hdecl, Act.run_seq]
  have hclock : (when (cause == 1) (setLink l fun k => { k with clock := false })).All (Prim.Fits [.link]) := by simp
  have hreg := reg_of_fits hclock (by simp) b
  have honly := only_of_fits hclock b
  have hpart := part_run (when (cause == 1) (setLink l fun k => { k with clock := false })) b
  have hthere' := (linkThere_congr hpart (hreg _)).trans hthere
  generalize (when (cause == 1) (setLink l fun k => { k with clock := false })).run b = u at hreg honly hthere' ⊢
  refine ⟨?_, ?_, ?_, ?_, raised_notifySend.mpr (raised_after (hreg _) ?_), only_sent (only_trans (only_mono honly (by simp)) (only_of_fits ?_ u))⟩
  · rw [lreg_notifySend, linkLost_count, State.lreg, hreg, State.lreg]
  · rw [linkState_notifySend]
    exact (linkLost_down l u).1
  · rw [State.notifySend_reg]
    exact (linkLost_down l u).2
  · rw [State.notifySend_reg, linkLost_source hthere']
  · exact linkLost_raises hthere'
  · simp [linkLost, lput, linkFault]

/-- Settles O26: a link starts wherever its clock appears or it is lost, and a fault's bookkeeping and retirement leave
no link up. -/
theorem linkUpCompletes : Obligations.LinkUpCompletes :=
  ⟨returnClockValid_completes, markerLock_completes, trainingBlock_completes, linkUpTimeout_completes,
    linkLoss_completes⟩

end Sys2Proof.Machine
end

section
/-! # Care of the head links (R265, R273–R287) -/

namespace Sys2Proof.Machine

/-- An accepted write of a command that admits one value only. -/
theorem perform_when {c : Bool} (h : c = true) (t : Nat) (a : Act) (s : State) :
    perform t (when c a) s = perform t a s := congrArg (perform t · s) (if_pos h)

theorem only_seq {s : State} {l : List Piece} {a b : Act} (h : s.only l (a.run s))
    (k : (a.run s).only l (b.run (a.run s))) : s.only l ((Act.seq a b).run s) := only_trans h k

@[simp] theorem lnk_answer (p : WPath) (code l : Nat) (s : State) : ((answer p code).run s).lnk l = s.lnk l :=
  lnk_of_link (by simp) l

@[simp] theorem linkState_answer (p : WPath) (code l : Nat) (s : State) :
    ((answer p code).run s).linkState l = s.linkState l := by simp [State.linkState]

@[simp] theorem lreg_answer (p : WPath) (code k l : Nat) (s : State) :
    ((answer p code).run s).lreg k l = s.lreg k l := by simp [State.lreg]

theorem mem_out_write {o : Out} {u : State} (h : o ∈ u.out) (p : WPath) (code : Nat) :
    o ∈ ((answer p code).run u).notifySend.out := mem_out_notifySend (mem_out_answer p code u h)

/-- A packet goes out (R267). -/
theorem mem_out_sendPacket (l kind slot row : Nat) (content : List Nat) (rowSeq : Nat) (copy : Int) (s : State) :
    ∃ d, .packet l kind d ∈ ((sendPacket l kind slot row content rowSeq copy).run s).out := by
  simp only [sendPacket, Act.run_read, Act.run_seq, run_send]
  exact ⟨_, List.mem_append_right _ (List.mem_singleton.mpr rfl)⟩

theorem mem_out_issueCfg (l slot op count addr : Nat) (data : List Nat) (tries use : Nat) (s : State) :
    ∃ d, .packet l pkCFG d ∈ ((issueCfg l slot op count addr data tries use).run s).out :=
  mem_out_sendPacket ..

@[simp] theorem reg_issueCfg (l slot op count addr : Nat) (data : List Nat) (tries use q : Nat) (s : State) :
    ((issueCfg l slot op count addr data tries use).run s).reg q = s.reg q :=
  Act.All.reg_other (a := issueCfg l slot op count addr data tries use) (by simp) s

theorem keeps_setLink {l : Nat} {α : Type} {g : LinkSt → α} {f : LinkSt → LinkSt} (h : ∀ k, g (f k) = g k)
    (T : α → Prop) : (setLink l f).Keeps fun s => T (g (s.lnk l)) := fun s hs => by
  show T (g (((setLink l f).run s).lnk l))
  rwa [lnk_setLink_field g h]

theorem keeps_lnk {a : Act} {pcs : List Piece} (h : a.All (Prim.Fits pcs)) (hl : .link ∉ pcs) (l : Nat)
    (T : LinkSt → Prop) : a.Keeps fun s => T (s.lnk l) := keeps_link h hl fun x => T (x.links.getD l {})

/-- What an AM period tells a far end keeps the errors that it has counted. -/
theorem keeps_amErrors (l n : Nat) :
    (sendSync l).Keeps (fun s => (s.lnk l).amErrors = n) ∧ (recalCheck l).Keeps fun s => (s.lnk l).amErrors = n := by
  have hset : ∀ {f : LinkSt → LinkSt}, (∀ k, (f k).amErrors = k.amErrors) →
      (setLink l f).Keeps fun s => (s.lnk l).amErrors = n := fun h => keeps_setLink h (· = n)
  have hsend : ∀ kind slot row content rowSeq copy,
      (sendPacket l kind slot row content rowSeq copy).Keeps fun s => (s.lnk l).amErrors = n :=
    fun _ _ _ _ _ _ => keeps_read fun _ => keeps_seq (hset fun _ => rfl)
      (keeps_lnk (pcs := []) (by simp) (by simp) l (LinkSt.amErrors · = n))
  exact ⟨keeps_read fun _ => keeps_seq (hset fun _ => rfl) (hsend _ _ _ _ _ _), keeps_read fun _ => keeps_when fun _ =>
    keeps_seq (hset fun _ => rfl) (keeps_read fun _ => keeps_seq (hset fun _ => rfl) (hsend _ _ _ _ _ _))⟩

/-- A link's slots become absent and its requests fail before it starts anew (R265, R284, R285). -/
def restartLink (l : Nat) : Act := seqs [slotsAbsent l true, failCfgs l, startLink l]

theorem run_restartLink (l : Nat) (s : State) : (restartLink l).run s
    = (startLink l).run ((failCfgs l).run ((slotsAbsent l true).run s)) := rfl

/-- What failing a link's requests keeps of its record, its restart knows. -/
theorem lnk_beforeRestart {α : Type} (g : LinkSt → α) (h : ∀ k : LinkSt, g { k with cfgs := [] } = g k) (l : Nat)
    (s : State) : g (((failCfgs l).run ((slotsAbsent l true).run s)).lnk l) = g (s.lnk l) := by
  rw [failCfgs, Act.run_read, Act.run_seq, lnk_setLink_field g h]
  refine congrArg g (lnk_of_link ?_ l)
  exact only_of_fits (a := .seq _ (when _ _)) (l := [.dict, .ev]) (by simp [lput]) s .link (by simp)

theorem restartLink_state (l : Nat) (s : State) : ((restartLink l).run s).linkState l =
    (if (s.lnk l).clock = false then 0
      else if (s.lnk l).old = true ∨ s.lreg K.LinkVersionLimit l = 0x12 then 2 else 1) := by
  rw [run_restartLink, startLink_state, lnk_beforeRestart LinkSt.clock (fun _ => rfl),
    lnk_beforeRestart LinkSt.old (fun _ => rfl), State.lreg,
    Act.All.reg_other (calm_failCfgs fun h => absurd (linkKey_inj.mp h) (by decide)),
    Act.All.reg_other (calm_slotsAbsent_link (by decide) (by decide) true), State.lreg]

theorem restartLink_up (l : Nat) (s : State) : bit (((restartLink l).run s).reg K.LinksUp) l = false :=
  startLink_up l _

theorem linkRestart_completes (t l : Nat) (w : Wr) :
    Completes (.linkRestart t l w) t
      (fun b => b.takes (0x4000 + 0x10 * l) 0x0F w 1 ∧ (b.mode = mStandby ∨ b.mode = mReady))
      fun b u => u.isRetired (faultSource 1 l) = false ∧ bit (u.reg K.LinksRetired) l = false
        ∧ bit (u.reg K.LinksUp) l = false
        ∧ u.linkState l = (if (b.lnk l).clock = false then 0
            else if (b.lnk l).old = true ∨ b.lreg K.LinkVersionLimit l = 0x12 then 2 else 1)
        ∧ b.only [.mem, .dict, .ev, .health, .link] u := completes_write (fun _ => rfl) fun b ⟨htake, hmode⟩ => by
  have haccept : ¬(decide (b.mode ≠ mStandby) && decide (b.mode ≠ mReady)) = true := by
    rcases hmode with h | h <;> simp [h]
  refine ⟨1, .seq (restartSource (faultSource 1 l)) (.seq (linkBit K.LinksRetired l false) (restartLink l)), htake,
    if_neg haccept, ?_, ?_, ?_, ?_,
    only_write (by simp [restartLink, restartSource, faultTable, Health.Sized, setWindow]) _ b⟩
  · have hhealth : ∀ u : State, ((Act.seq (linkBit K.LinksRetired l false) (restartLink l)).run u).health = u.health :=
      fun u => only_of_fits (l := [.dict, .ev, .link]) (by simp [restartLink]) u .health (by simp)
    rw [State.isRetired, State.notifySend_health, answer_health, Act.run_seq, hhealth]
    simp [restartSource, faultTable, setWindow]
  · rw [State.notifySend_reg, answer_reg, Act.run_seq, Act.run_seq, restartLink, Act.All.reg_other, linkBit_same]
    exact ⟨calm_slotsAbsent_low (by decide) (by decide) true, calm_failCfgs (linkKey_ne (by decide) (by decide)),
      calm_startLink (linkKey_ne (by decide) (by decide)) (linkKey_ne (by decide) (by decide)) (by decide), trivial⟩
  · rw [State.notifySend_reg, answer_reg]
    exact restartLink_up l _
  · rw [linkState_notifySend, linkState_answer, Act.run_seq, Act.run_seq, restartLink_state]
    simp [restartSource, faultTable, linkBit, State.lnk, State.lreg, linkKey_ne (l := l) (k := K.LinkVersionLimit)
      (q := K.LinksRetired) (by decide) (by decide)]

theorem linkVersionLimit_completes (t l v : Nat) (w : Wr) :
    v = 0x12 ∨ v = 0x20 ∨ v = 0x21 →
    Completes (.linkVersionLimitWrite t l w) t
      (fun b => b.takes (0x4000 + 0x10 * l) 5 w v ∧ b.linkState l ≠ 6)
      fun b u => u.lreg K.LinkVersionLimit l = v ∧ u.lreg K.LinkVersion l = 0 ∧ bit (u.reg K.LinksUp) l = false
        ∧ b.only [.dict, .ev, .link] u := fun hv => completes_write (fun _ => rfl) fun b ⟨htake, hstate⟩ => by
  have hok : ([0x12, 0x20, 0x21].contains v) = true := by rcases hv with h | h | h <;> simp [h]
  refine ⟨v, .seq (lput K.LinkVersionLimit l v) (restartLink l), htake, ?_, ?_, ?_, ?_,
    only_write (by simp [lput, restartLink]) _ b⟩
  · simp only [effVersionLimit, hok, bne_iff_ne.mpr hstate]
    rfl
  · rw [lreg_notifySend, lreg_answer, State.lreg, Act.run_seq, restartLink, Act.All.reg_other]
    · simp [lput]
    · exact ⟨calm_slotsAbsent_link (by decide) (by decide) true, calm_failCfgs fun h => absurd (linkKey_inj.mp h) (by decide),
        calm_startLink (fun h => absurd (linkKey_inj.mp h) (by decide)) (fun h => absurd (linkKey_inj.mp h) (by decide))
          (ne_linkKey (by decide) (by decide)), trivial⟩
  · rw [lreg_notifySend, lreg_answer]
    exact startLink_version l _
  · rw [State.notifySend_reg, answer_reg]
    exact restartLink_up l _

theorem prbsModeOn_completes (t l : Nat) (w : Wr) :
    Completes (.prbsModeOn t l w) t
      (fun b => w.val = 1 ∧ b.takes (0x4001 + 0x10 * l) 7 w 1 ∧ b.mode = mReady ∧ b.inTransition = false
        ∧ b.linkUp l = true ∧ 0x20 ≤ b.lreg K.LinkVersion l ∧ bit (b.lreg K.PartnerFeatures l) 1 = true)
      fun b u => u.lreg K.PrbsMode l = 1 ∧ (∃ d, .packet l pkCFG d ∈ u.out) ∧ b.regsBut [linkKey K.PrbsMode l] u
        ∧ b.only [.dict, .link] u :=
  completes_of (fun _ => rfl) fun b _ ⟨hval, htake, hmode, htrans, hup, hver, hfeat⟩ => by
  have heff : effPrbs l 0 b { w with val := 1 }
      = accept (.seq (lput K.PrbsMode l 1) (issueCfg l 15 1 1 3 (leBytes 4 3) 1 1)) := by
    simp [effPrbs, hmode, htrans, hup, hver, hfeat]
  rw [run_when, if_pos (beq_iff_eq.mpr hval), run_writeBy_takes htake heff]
  refine ⟨?_, ?_, regsBut_write (by simp [lput]) _ b, only_write (by simp [lput]) _ b⟩
  · rw [lreg_notifySend, lreg_answer, State.lreg, Act.run_seq, reg_issueCfg]
    simp [lput]
  · obtain ⟨d, hd⟩ := mem_out_issueCfg l 15 1 1 3 (leBytes 4 3) 1 1 ((lput K.PrbsMode l 1).run b)
    exact ⟨d, mem_out_write hd _ _⟩

theorem prbsModeOff_completes (t l rx : Nat) (w : Wr) :
    Completes (.prbsModeOff t l rx w) t
      (fun b => w.val = 0 ∧ b.takes (0x4001 + 0x10 * l) 7 w 0 ∧ b.mode = mReady ∧ b.inTransition = false
        ∧ b.linkState l = 5)
      fun b u => u.lreg K.PrbsMode l = 0 ∧ u.reg (linkKey K.PrbsErrors l + 2) = rx % 2 ^ 32 ∧ u.linkState l ≠ 5
        ∧ b.only [.dict, .link] u := completes_of (fun _ => rfl) fun b _ ⟨hval, htake, hmode, htrans, hstate⟩ => by
  have heff : effPrbs l rx b { w with val := 0 } = accept (.seq (lput K.PrbsMode l 0)
      (when (b.linkState l == 5) (.seq (put (linkKey K.PrbsErrors l + 2) (rx % 2 ^ 32)) (startLink l)))) := by
    simp [effPrbs, hmode, htrans]
  rw [run_when, if_pos (beq_iff_eq.mpr hval), run_writeBy_takes htake heff, Act.run_seq, run_when,
    if_pos (beq_iff_eq.mpr hstate), Act.run_seq]
  have hkey : ∀ k, k % 256 ≠ 10 → linkKey k l ≠ linkKey K.PrbsErrors l + 2 := fun k hk => by
    simp only [linkKey, K.PrbsErrors]; omega
  have hlow : K.LinksUp ≠ linkKey K.PrbsErrors l + 2 := by simp only [linkKey, K.PrbsErrors, K.LinksUp]; omega
  refine ⟨?_, ?_, ?_, only_sent (only_answered (only_trans (only_of_fits (by simp [lput]) _) (only_trans
    (only_of_fits (a := put _ _) (by simp) _) (only_of_fits (by simp) _))) _ _)⟩
  · rw [lreg_notifySend, lreg_answer, State.lreg, Act.All.reg_other (calm_startLink (fun h => absurd (linkKey_inj.mp h)
      (by decide)) (fun h => absurd (linkKey_inj.mp h) (by decide)) (ne_linkKey (by decide) (by decide)))]
    simp [lput, hkey K.PrbsMode (by decide)]
  · rw [State.notifySend_reg, answer_reg, Act.All.reg_other (calm_startLink (hkey _ (by decide)) (hkey _ (by decide)) hlow)]
    simp
  · rw [linkState_notifySend, linkState_answer, startLink_state]
    split
    · decide
    split <;> decide

theorem amPeriod_completes (t l errors : Nat) :
    Completes (.amPeriod t l errors) t
      (fun b => b.linkThere l = true ∧ b.linkState l ≠ 5 ∧ l < b.link.links.length)
      fun b u => .blocks l bsAm ∈ u.out ∧ (u.lnk l).amErrors = errors
        ∧ u.reg (linkKey K.LaneErrors l + 2) = (b.reg (linkKey K.LaneErrors l + 2) + errors) % 2 ^ 32
        ∧ ((0 < errors ∨ (b.lnk l).amFresh = true) → (b.lnk l).hadError = false → b.raised [144 + l] u)
        ∧ b.regsBut [linkKey K.LaneErrors l + 2] u ∧ b.only [.dict, .ev, .link] u :=
  completes_of (fun _ => rfl) fun b _ ⟨hthere, hstate, hl⟩ => by
  have hcan : reservedEvent (144 + l) = false := by
    have hlt := linkThere_lt hthere
    interval_cases l <;> rfl
  obtain ⟨hsync, hrecal⟩ := keeps_amErrors l errors
  rw [Act.run_read, run_when, if_pos (by simp [hthere, hstate])]
  refine ⟨mem_out_notifySend (mem_out_seqs (by simp) ?_), ?_, ?_, fun hbad hfirst => ?_, regsBut_sent ?_ b,
    only_sent_of_fits ?_ b⟩
  · simp [sendSync, sendPacket, recalCheck, issueCfg, sendCfg, setLink]
  · rw [lnk_notifySend]
    refine keeps_seq (keeps_when fun _ => ?_) (keeps_seq (keeps_when fun _ => keeps_seq hsync hrecal) keeps_skip) _ ?_
    · exact keeps_lnk (pcs := [.ev]) (by simp) (by simp) l (LinkSt.amErrors · = errors)
    · rw [lnk_setLink (by simpa using hl)]
  · rw [State.notifySend_reg, run_seqs_cons, run_seqs_cons, Act.All.reg_other]
    · simp
    · simp [sendSync, recalCheck]
  · have hraise : ((decide (0 < errors) || (b.lnk l).amFresh) && !(b.lnk l).hadError) = true := by
      rcases hbad with h | h <;> simp [h, hfirst]
    refine raised_notifySend.mpr (raised_tail trivial (raised_tail ?_ (raised_tail trivial
      (raised_head ?_ (P := fun _ => True) ?_))))
    · intro s
      show linkKey K.LaneErrors l + 2 ≠ ctlKey
      simp only [linkKey, K.LaneErrors, ctlKey]
      omega
    · rw [run_when, if_pos hraise]
      exact raised_raise hcan _
    · simp [sendSync, recalCheck]
  · simp [sendSync, recalCheck]
  · simp

theorem claimSend_completes (t : Nat) :
    Completes (.claimSend t) t (fun b => b.sys.dictReady = true)
      fun b u => u.link.claimSeq = (b.link.claimSeq + 1) % 65536
        ∧ (∀ l < b.linkCount, (b.lnk l).lock = true → 0x20 ≤ b.lreg K.LinkVersion l → b.linkState l ≠ 6 →
          ∃ d, .packet l pkCLAIM d ∈ u.out)
        ∧ b.only [.link] u := completes_of (fun _ => rfl) fun b _ hready => by
  rw [sendClaim, Act.run_read, run_when, if_pos hready]
  refine ⟨?_, fun l hl hlock hver hst => ?_, only_sent_of_fits (by simp [Links.Sized]) b⟩
  · have hseq : ∀ (ls : List Nat) (f : List Nat) (u : State), ((each ls fun l => sendPacket l pkCLAIM 15 0 f 0 0).run
        u).link.claimSeq = u.link.claimSeq := fun ls f u =>
      each_keeps (P := fun v => v.link.claimSeq = u.link.claimSeq) (fun l _ v hv => by simpa [sendPacket, setLink] using hv) rfl
    rw [State.notifySend_link, Act.run_seq, Act.run_prim, Prim.apply_link, hseq]
  · have hmem : l ∈ (List.range b.linkCount).filter fun l =>
        (b.lnk l).lock && decide (0x20 ≤ b.lreg K.LinkVersion l) && b.linkState l != 6 :=
      List.mem_filter.mpr ⟨List.mem_range.mpr hl, by simp [hlock, hver, hst]⟩
    obtain ⟨d, hd⟩ := each_makes (f := fun l => sendPacket l pkCLAIM 15 0 _ 0 0) (s := b)
      (P := fun u => ∃ d, Out.packet l pkCLAIM d ∈ u.out) hmem
      (fun k _ u ⟨d, hd⟩ => ⟨d, mem_out_inner (by simp [sendPacket, setLink]) hd⟩)
      (fun u => mem_out_sendPacket l pkCLAIM 15 0 _ 0 0 u)
    exact ⟨d, mem_out_notifySend (mem_out_inner (a := .prim (.link _)) trivial hd)⟩

theorem headCfgRequest_completes (t l v : Nat) (w : Wr) :
    Completes (.headCfgRequest t l w) t
      (fun b => b.takes (0x4002 + 0x10 * l) 1 w v ∧ b.linkUp l = true ∧ b.lreg K.HeadCfgState l ≠ 1
        ∧ (bits v 0 8 < 12 ∨ bits v 0 8 = 15)
        ∧ (bits v 8 8 = 0 ∨ (bits v 8 8 = 1 ∧ 0x80 ≤ bits v 32 16 ∧ b.isHolder = true))
        ∧ 1 ≤ bits v 16 8 ∧ bits v 16 8 ≤ 64 ∧ bits v 24 8 = 0 ∧ bits v 48 16 = 0)
      fun b u => u.lreg K.HeadCfgState l = 1 ∧ (∃ d, .packet l pkCFG d ∈ u.out)
        ∧ b.regsBut [linkKey K.HeadCfgState l] u ∧ b.only [.dict, .link] u :=
  completes_write (fun _ => rfl) fun b ⟨htake, hup, hcfg, hslot, hop, hcount, hcount', hres, hres'⟩ => by
  refine ⟨v, .seq (lput K.HeadCfgState l 1) (issueCfg l (bits v 0 8) (bits v 8 8) (bits v 16 8) (bits v 32 16)
      (leBytes (4 * bits v 16 8) (v / 2 ^ 64)) 1 0), htake, ?_, ?_, ?_, regsBut_write (by simp [lput]) _ b,
      only_write (by simp [lput]) _ b⟩
  · have hop1 : bits v 8 8 ≤ 1 := by omega
    have hwrite : bits v 8 8 = 1 → 0x80 ≤ bits v 32 16 ∧ b.isHolder = true := fun h => by
      rcases hop with h0 | ⟨-, h⟩
      · omega
      · exact h
    simp only [effHeadCfg]
    rw [if_neg (by simp [hup, hcfg]), if_neg (by simp [hslot, hres, hres', hop1]; omega),
      if_neg (by simpa using fun h => (hwrite h).1), if_neg (by simpa using fun h => (hwrite h).2)]
  · rw [lreg_notifySend, lreg_answer, State.lreg, Act.run_seq, reg_issueCfg]
    simp [lput]
  · obtain ⟨d, hd⟩ := mem_out_issueCfg l (bits v 0 8) (bits v 8 8) (bits v 16 8) (bits v 32 16)
      (leBytes (4 * bits v 16 8) (v / 2 ^ 64)) 1 0 ((lput K.HeadCfgState l 1).run b)
    exact ⟨d, mem_out_write hd _ _⟩

theorem lnk_setLink_ne {k l : Nat} (h : l ≠ k) (f : LinkSt → LinkSt) (s : State) :
    ((setLink k f).run s).lnk l = s.lnk l := by
  simp [setLink, State.lnk, h]

theorem recalibrationRequest_completes (t v : Nat) (w : Wr) :
    Completes (.recalibrationRequest t w) t (fun b => b.takes 0x2800 0x0D w v ∧ b.mode = mReady)
      fun b u => (∀ l < b.linkCount, bit v l = true → l < b.link.links.length → (u.lnk l).recal.isSome = true)
        ∧ b.only [.link] u := completes_write (fun _ => rfl) fun b ⟨htake, hmode⟩ => by
  refine ⟨v, _, htake, if_neg (by simp [hmode]), fun l hl hbit hlen => ?_, only_write (by simp) _ b⟩
  rw [lnk_notifySend, lnk_answer]
  have hmake : ∀ u : State, l < u.link.links.length →
      (((setLink l fun k => { k with recal := some (k.recal.getD {}) }).run u).lnk l).recal.isSome = true := fun u hu => by
    rw [lnk_setLink hu]
    rfl
  refine each_makes (P := fun u => l < u.link.links.length → (u.lnk l).recal.isSome = true)
    (List.mem_filter.mpr ⟨List.mem_range.mpr hl, hbit⟩) (fun k _ u hu hlen => ?_) (fun u hu => hmake u (by simpa [setLink] using hu)) b
    (each_keeps (P := fun u => l < u.link.links.length) (fun k _ u hu => by simpa [setLink] using hu) hlen)
  have hlen' : l < u.link.links.length := by simpa [setLink] using hlen
  by_cases hk : l = k
  · exact hk ▸ hmake u hlen'
  · rw [lnk_setLink_ne hk]
    exact hu hlen'

theorem recalibrationStep_completes (t l margin : Nat) :
    Completes (.recalibrationStep t l margin) t
      (fun b => b.linkThere l = true ∧ b.mode = mReady ∧ b.linkUp l = true
        ∧ bit (b.lreg K.PartnerFeatures l) 2 = true ∧ l < b.link.links.length
        ∧ ∃ r, (b.lnk l).recal = some r ∧ r.got.length < 15)
      fun b u => (∃ r, (b.lnk l).recal = some r
          ∧ (u.lnk l).recal = some { r with got := r.got ++ [(r.got.length / 8, r.got.length % 8, margin)] })
        ∧ b.only [.link] u :=
  completes_of (fun _ => rfl) fun b _ ⟨hthere, hmode, hup, hfeature, hl, r, hr, hlen⟩ => by
  have hlt : (r.got ++ [(r.got.length / 8, r.got.length % 8, margin)]).length < 16 := by simp; omega
  simp only [Act.run_read, hthere, hmode, hup, hfeature, hr, Option.isSome_some, Option.getD_some]
  rw [run_ite_of_not (by simp), run_ite_of hlt]
  refine ⟨⟨r, rfl, ?_⟩, only_sent_of_fits (by simp) b⟩
  rw [lnk_notifySend, lnk_setLink hl]

/-- Settles O27: each request acts on its own link's entries, record and packets. -/
theorem linkCareCompletes : Obligations.LinkCareCompletes :=
  ⟨linkRestart_completes, linkVersionLimit_completes, prbsModeOn_completes, prbsModeOff_completes, amPeriod_completes,
    claimSend_completes, headCfgRequest_completes, recalibrationRequest_completes, recalibrationStep_completes⟩

end Sys2Proof.Machine
end

section
/-! # Records from the head links (R249–R252, R268, R273, R277–R282) -/

namespace Sys2Proof.Machine

@[simp] theorem calm_fireEvent {P : Nat → Prop} {n l sl : Nat} (h : P (K.FiringEventSlot + (n - 96))) :
    (fireEvent n l sl).All (Prim.Calm P) := by simp [fireEvent, h]

theorem raised_fireEvent {n l sl : Nat} (hk : ctlKey ≠ K.FiringEventSlot + (n - 96)) (hn : reservedEvent n = false)
    (s : State) : s.raised [n] ((fireEvent n l sl).run s) := by
  rw [fireEvent, Act.run_seq]
  exact raised_after (State.reg_set_ne _ _ hk) (raised_raise hn _)

@[simp] theorem slotKey_inj {k k' l sl : Nat} : slotKey k l sl = slotKey k' l sl ↔ k = k' := by simp [slotKey]

theorem ne_slotKey {k q l sl : Nat} (hk : 0x400000 ≤ k) (hq : q < 0x400000) : q ≠ slotKey k l sl :=
  (slotKey_ne hk hq).symm

/-! ### Versions adopted, and checks of banks -/

@[simp] theorem calm_bankCheck {P : Nat → Prop} (h : P (K.FiringEventSlot + 10)) (l sl : Nat) :
    (bankCheck l sl).All (Prim.Calm P) := by simp [bankCheck, h]

theorem reg_adoptFrom {l sl q : Nat} {s : State} (hq : q ≠ K.WaveVersionInForce + s.headType l sl) :
    ((adoptFrom l sl).run s).reg q = s.reg q := by
  simp only [adoptFrom, Act.run_read]
  split
  · rfl
  split
  · rw [Act.All.reg_other]
    simp [hq.symm]
  · rw [Act.All.reg_other]
    simp [hq.symm]
  · rw [Act.All.reg_other]
    simp

theorem headType_of_slotsOfTypes {s : State} {ty : Nat} {p : Nat × Nat} (h : p ∈ s.slotsOfTypes (2 ^ ty)) :
    s.headType p.1 p.2 = ty := by
  have hbit : bit (2 ^ ty) (s.headType p.1 p.2) = true := (Bool.and_eq_true_iff.mp (List.mem_filter.mp h).2).1
  rw [bit_eq_testBit, Nat.testBit_two_pow, decide_eq_true_eq] at hbit
  exact hbit.symm

/-- Adoption sets the version in force of head types alone (R250). -/
theorem reg_adoptOn {l q : Nat} (hq : ∀ i < 8, q ≠ K.WaveVersionInForce + i) (s : State) :
    ((adoptOn l).run s).reg q = s.reg q := by
  rw [adoptOn, Act.run_read]
  refine each_keeps (P := fun u => ∀ q, (∀ i < 8, q ≠ K.WaveVersionInForce + i) → u.reg q = s.reg q)
    (fun ty hty u hu q hq => ?_) (fun _ _ => rfl) q hq
  split
  next p hp =>
    have htype : u.headType p.1 p.2 = ty := by
      rw [State.headType, hu _ fun i hi => by simp only [slotKey, K.HeadType, K.WaveVersionInForce]; omega]
      exact headType_of_slotsOfTypes (List.mem_of_find?_eq_some hp)
    rw [run_when]
    split
    · rw [reg_adoptFrom (htype ▸ hq ty (List.mem_range.mp hty)), hu q hq]
    · exact hu q hq
  next => exact hu q hq

/-- The copy that a line belonged to is marked waste, where the log of sent packets still has the line (R237). -/
def wasteSent : Option Int → Act
  | some m => wasteCopy m wHead
  | none => .skip

@[simp] theorem calm_wasteSent (P : Nat → Prop) (m : Option Int) : (wasteSent m).All (Prim.Calm P) := by
  cases m <;> trivial

@[simp] theorem fits_wasteSent {pcs : List Piece} (m : Option Int) (h : [.fire] ⊆ pcs) :
    (wasteSent m).All (Prim.Fits pcs) := by
  cases m
  · trivial
  · exact fits_wasteCopy _ _ h

theorem run_wasteSent (m : Option Int) (s : State) : (wasteSent m).run s = { s with fire := { s.fire with
    copies := s.fire.copies.map fun c => if some c.num = m then { c with waste := setBit c.waste wHead true } else c } } := by
  cases m with
  | none => simp [wasteSent]
  | some m => simp [wasteSent, wasteCopy, markWaste, setCopy]

/-! ### A Status record -/

/-- What a Status record does once the link is up (R249, R252, R277, R282, R452). -/
def statusRest (l mask holder : Nat) (data : List Nat) (coming : Bool) (guarded : Bool) : Act :=
  seqs [
    slotPresence l mask coming,
    slotEntries l data coming,
    when coming (.seq (adoptOn l) (each (List.range 12) fun sl => bankCheck l sl)),
    when (holder == 0 && guarded) (.prim (.bridle fun b => { b with cleared := l :: b.cleared })),
    when (holder == 1) claimLost,
    syncPair ]

/-- The registers outside the slots' blocks that a controller sets as it yields its claim (R440, R452). -/
def claimKeys : List Nat := K.ClaimActual :: K.BridleRole :: K.MirrorCompleteFlag :: stopKeys

theorem calm_sendClaim (P : Nat → Prop) : sendClaim.All (Prim.Calm P) := by simp [sendClaim]

theorem calm_claimLost {P : Nat → Prop} (h : ∀ k ∈ claimKeys, P k) : claimLost.All (Prim.Calm P) := by
  obtain ⟨hclaim, hrole, hmirror, hstop⟩ : P K.ClaimActual ∧ P K.BridleRole ∧ P K.MirrorCompleteFlag ∧ ∀ k ∈ stopKeys, P k := by
    simpa only [claimKeys, List.forall_mem_cons] using h
  simp [claimLost, yieldClaim, mirrorLost, calm_sendClaim, calm_stopIfPrinting hstop, hclaim, hrole, hmirror]

/-- Firing events, head slots' entries and PairReady: what a Status record's slots set. -/
theorem calm_slotPresence {P : Nat → Prop} {l : Nat} (hslot : ∀ sl, P (slotKey K.HeadState l sl))
    (hev : ∀ i < 16, P (K.FiringEventSlot + i)) (mask : Nat) (coming : Bool) :
    (slotPresence l mask coming).All (Prim.Calm P) := by
  simp [slotPresence, hslot, hev]

theorem calm_slotEntries {P : Nat → Prop} {l : Nat} (hstate : ∀ sl, P (slotKey K.HeadState l sl))
    (hbank : ∀ sl, P (slotKey K.BankStatus l sl)) (htemp : ∀ sl, P (slotKey K.HeadTemperature l sl))
    (hev : ∀ i < 16, P (K.FiringEventSlot + i)) (data : List Nat) (coming : Bool) :
    (slotEntries l data coming).All (Prim.Calm P) := by
  simp [slotEntries, headReport, inhibitHead, setHead, hstate, hbank, htemp, hev]

/-- A Status record keeps what is said of a register of the link's own block or of LinksUp. -/
theorem reg_statusRest {l q : Nat} (hslot : ∀ k, k ∈ [K.HeadState, K.BankStatus, K.HeadTemperature] → ∀ sl, slotKey k l sl ≠ q)
    (hfire : ∀ i < 16, K.FiringEventSlot + i ≠ q) (htype : ∀ i < 8, q ≠ K.WaveVersionInForce + i)
    (hpair : K.PairReady ≠ q) (hclaim : ∀ k ∈ claimKeys, k ≠ q) (mask holder : Nat) (data : List Nat)
    (coming guarded : Bool) (s : State) : ((statusRest l mask holder data coming guarded).run s).reg q = s.reg q := by
  have hadopt : ∀ u : State, ((when coming (.seq (adoptOn l) (each (List.range 12) fun sl => bankCheck l sl))).run u).reg q
      = u.reg q := fun u => by
    cases coming
    · rfl
    · rw [run_when, if_pos rfl, Act.run_seq, Act.All.reg_other (all_each fun sl _ => calm_bankCheck (P := (· ≠ q)) (hfire 10 (by decide)) l sl), reg_adoptOn htype]
  simp only [statusRest, run_seqs_cons, run_seqs_nil]
  rw [Act.All.reg_other (by simp [syncPair, hpair]), Act.All.reg_other (all_when fun _ => calm_claimLost (P := (· ≠ q)) hclaim),
    Act.All.reg_other (by simp), hadopt, Act.All.reg_other (calm_slotEntries (P := (· ≠ q)) (hslot _ (by simp)) (hslot _ (by simp))
    (hslot _ (by simp)) hfire data coming), Act.All.reg_other (calm_slotPresence (P := (· ≠ q)) (hslot _ (by simp)) hfire mask coming)]

/-- The registers of a link's own block that no entry of a slot shares. -/
theorem reg_statusRest_link {l k : Nat} (hlow : 0x400000 ≤ k) (hk : k % 256 < 16) (mask holder : Nat) (data : List Nat)
    (coming guarded : Bool) (s : State) :
    ((statusRest l mask holder data coming guarded).run s).reg (linkKey k l) = s.reg (linkKey k l) := by
  refine reg_statusRest (fun j hj sl => slotKey_ne_linkKey ?_) (fun i hi => ne_linkKey hlow ?_) (fun i hi => linkKey_ne hlow ?_)
    (ne_linkKey hlow (by decide)) (ne_linkKey_of_mem hlow (by decide)) _ _ _ _ _ s
  · fin_cases hj <;> simp only [K.HeadState, K.BankStatus, K.HeadTemperature] <;> omega
  · simp only [K.FiringEventSlot]; omega
  · simp only [K.WaveVersionInForce]; omega

theorem statusRest_up {l : Nat} (mask holder : Nat) (data : List Nat) (coming guarded : Bool) (s : State) :
    ((statusRest l mask holder data coming guarded).run s).reg K.LinksUp = s.reg K.LinksUp :=
  reg_statusRest (fun j hj sl => slotKey_ne (by fin_cases hj <;> decide) (by decide)) (by decide) (by decide) (by decide)
    (by decide) _ _ _ _ _ s

theorem keeps_setLink_any {k l : Nat} {α : Type} {g : LinkSt → α} {f : LinkSt → LinkSt} (h : ∀ x, g (f x) = g x)
    (T : α → Prop) : (setLink k f).Keeps fun s => T (g (s.lnk l)) := by
  by_cases hk : l = k
  · exact hk ▸ keeps_setLink h T
  · intro s hs
    show T (g (((setLink k f).run s).lnk l))
    rwa [lnk_setLink_ne hk]

/-- Neither claims sent nor the rest of a Status record change what slots a link has. -/
theorem keeps_claimLost_present (l n : Nat) : claimLost.Keeps fun s => (s.lnk l).present = n := by
  have hfits : ∀ {a : Act}, a.All (Prim.Fits [.dict, .ev, .sys, .fire, .loop, .dram, .time, .bridle]) →
      a.Keeps fun s => (s.lnk l).present = n := fun ha => keeps_lnk ha (by simp) l (LinkSt.present · = n)
  have hclaim : sendClaim.Keeps fun s => (s.lnk l).present = n := by
    refine keeps_read fun s => keeps_when fun _ => keeps_seq (keeps_each fun k _ => keeps_read fun _ => keeps_seq
      (keeps_setLink_any (g := LinkSt.present) (by intro; rfl) (· = n)) (hfits (by simp))) fun s hs => hs
  refine keeps_read fun s => keeps_when fun _ => keeps_seq ?_ (keeps_seq (hfits (by simp)) (keeps_seq (hfits (by simp)) keeps_skip))
  exact keeps_seq (hfits (by simp)) (keeps_seq (hfits (by simp)) (keeps_seq hclaim (hfits (by simp [mirrorLost]))))

theorem statusRest_present (l mask holder : Nat) (data : List Nat) (coming guarded : Bool) (s : State) :
    (((statusRest l mask holder data coming guarded).run s).lnk l).present = (s.lnk l).present := by
  have hfits : ∀ {a : Act}, a.All (Prim.Fits [.dict, .ev, .fire, .bridle]) →
      a.Keeps fun u => (u.lnk l).present = (s.lnk l).present := fun ha =>
    keeps_lnk ha (by simp) l (LinkSt.present · = (s.lnk l).present)
  exact keeps_seq (hfits (by simp)) (keeps_seq (hfits (by simp)) (keeps_seq (hfits (by simp)) (keeps_seq (hfits (by simp))
    (keeps_seq (keeps_when fun _ => keeps_claimLost_present l _) (keeps_seq (hfits (by simp)) keeps_skip))))) s rfl

/-- What a Status record counts, and the link that it brings up (R264, R277). -/
def statusHead (l mask e0 e1 holder : Nat) (coming : Bool) : Act :=
  seqs [
    setLink l (fun k => { k with present := mask, amFresh := k.amFresh || decide (0 < e0) || decide (0 < e1) }),
    addTo (linkKey K.LaneErrors l) 4 e0,
    addTo (linkKey K.LaneErrors l + 1) 4 e1,
    lput K.FarEndClaimHolder l holder,
    when coming (linkComesUp l) ]

theorem run_seqs_five (a b c d e : Act) (rest : List Act) (s : State) :
    (seqs (a :: b :: c :: d :: e :: rest)).run s = (seqs rest).run ((seqs [a, b, c, d, e]).run s) := rfl

theorem linkKey_add (k n l : Nat) : linkKey k l + n = linkKey (k + n) l := by simp only [linkKey]; omega

/-- What a link that comes up keeps of the registers that it does not set. -/
theorem calm_linkComesUp {P : Nat → Prop} {l : Nat} (hup : P K.LinksUp)
    (hown : ∀ k ∈ [K.LinkState, K.LinkUpTime, K.LinkUpCount, K.PathDelay], P (linkKey k l)) :
    (linkComesUp l).All (Prim.Calm P) := by
  simp only [List.forall_mem_cons] at hown
  simp [linkComesUp, lput, linkBit, hup, hown]

theorem linkComesUp_regs (l : Nat) (s : State) : ((linkComesUp l).run s).reg (linkKey K.LinkState l) = 3
    ∧ bit (((linkComesUp l).run s).reg K.LinksUp) l = true
    ∧ ((linkComesUp l).run s).reg (linkKey K.LinkUpTime l) = min (s.now - (s.lnk l).startAt) (2 ^ 32 - 1) := by
  have hlow : ∀ k, 0x400000 ≤ k → linkKey k l ≠ K.LinksUp := fun k hk => linkKey_ne hk (by decide)
  simp only [linkComesUp, Act.run_read]
  refine ⟨?_, ?_, ?_⟩
  · rw [run_seqs_cons, Act.All.reg_other]
    · simp [lput]
    · simp [lput, linkBit, (hlow K.LinkState (by decide)).symm]
  · rw [run_seqs_cons, run_seqs_cons, Act.All.reg_other, linkBit_same]
    simp [lput, hlow K.LinkUpTime (by decide), hlow K.LinkUpCount (by decide), hlow K.PathDelay (by decide)]
  · rw [run_seqs_cons, run_seqs_cons, run_seqs_cons, Act.All.reg_other]
    · simp [lput]
    · simp [lput]

theorem linkComesUp_present (l n : Nat) : (linkComesUp l).Keeps fun s => (s.lnk l).present = n := by
  have hfits : ∀ {a : Act}, a.All (Prim.Fits [.dict]) → a.Keeps fun s => (s.lnk l).present = n :=
    fun ha => keeps_lnk ha (by simp) l (LinkSt.present · = n)
  have hset : ∀ {f : LinkSt → LinkSt}, (∀ k, (f k).present = k.present) →
      (setLink l f).Keeps fun s => (s.lnk l).present = n := fun h => keeps_setLink h (· = n)
  have hcfg : ∀ op count addr use, (issueCfg l 15 op count addr [] 1 use).Keeps fun s => (s.lnk l).present = n :=
    fun _ _ _ _ => keeps_read fun _ => keeps_seq (hset fun _ => rfl) (keeps_read fun _ => keeps_seq (hset fun _ => rfl)
      (hfits (by simp)))
  exact keeps_read fun s => keeps_seq (hfits (by simp [lput])) (keeps_seq (hfits (by simp)) (keeps_seq (hfits (by simp [lput]))
    (keeps_seq (hfits (by simp [lput])) (keeps_seq (keeps_when fun _ => keeps_seq (hfits (by simp [lput])) (hset fun _ => rfl))
      (keeps_seq (keeps_when fun _ => keeps_seq (hset fun _ => rfl) (hcfg _ _ _ _)) (keeps_seq (hcfg _ _ _ _) keeps_skip))))))

theorem statusRecord_comesUp (t l : Nat) (data : List Nat) :
    Completes (.statusRecord t l data) t
      (fun b => b.linkThere l = true ∧ (b.lnk l).lock = true ∧ b.lreg K.LinkVersion l ≠ 0
        ∧ (b.linkState l = 1 ∨ b.linkState l = 2) ∧ l < b.link.links.length)
      fun b u => u.linkState l = 3 ∧ bit (u.reg K.LinksUp) l = true ∧ (u.lnk l).present = field data 0 2 % 4096
        ∧ u.lreg K.FarEndClaimHolder l = field data 3 1
        ∧ u.lreg K.LinkUpTime l = min (b.now - (b.lnk l).startAt) (2 ^ 32 - 1)
        ∧ b.only [.dict, .ev, .sys, .fire, .link, .loop, .dram, .time, .bridle] u :=
  completes_of (fun _ => rfl) fun b _ ⟨hthere, hlock, hver, hstate, hl⟩ => by
  have hcoming : (b.linkState l == 1 || b.linkState l == 2) = true := by rcases hstate with h | h <;> simp [h]
  rw [Act.run_read]
  simp only [hthere, hlock, hcoming]
  rw [run_ite_of_not (by simp [hver]), run_seqs_five, ← statusRest, ← statusHead]
  obtain ⟨hthree, hup, htime⟩ := linkComesUp_regs l ((seqs [setLink l (fun k => { k with
      present := field data 0 2 % 4096, amFresh := k.amFresh || decide (0 < field data 4 2) || decide (0 < field data 6 2) }),
    addTo (linkKey K.LaneErrors l) 4 (field data 4 2), addTo (linkKey K.LaneErrors l + 1) 4 (field data 6 2),
    lput K.FarEndClaimHolder l (field data 3 1)]).run b)
  refine ⟨?_, ?_, ?_, ?_, ?_, only_sent (only_trans (only_of_fits (by simp [statusHead, lput]) b) (only_of_fits (by simp [statusRest]) _))⟩
  · rw [linkState_notifySend, State.linkState, reg_statusRest_link (by decide) (by decide)]
    exact hthree
  · rw [State.notifySend_reg, statusRest_up]
    exact hup
  · rw [lnk_notifySend, statusRest_present]
    refine linkComesUp_present l _ _ ?_
    simp [setLink, lput, State.lnk, hl]
  · rw [lreg_notifySend, State.lreg, reg_statusRest_link (by decide) (by decide)]
    refine (Act.All.reg_other (calm_linkComesUp (P := (· ≠ linkKey K.FarEndClaimHolder l)) (ne_linkKey (by decide)
      (by decide)) (by simp)) _).trans ?_
    simp [lput]
  · rw [lreg_notifySend, State.lreg, reg_statusRest_link (by decide) (by decide)]
    refine htime.trans ?_
    simp [setLink, lput, State.lnk, hl]

theorem statusRecord_up (t l : Nat) (data : List Nat) :
    Completes (.statusRecord t l data) t
      (fun b => b.linkThere l = true ∧ (b.lnk l).lock = true ∧ b.lreg K.LinkVersion l ≠ 0 ∧ b.linkState l = 3
        ∧ l < b.link.links.length ∧ field data 3 1 ≠ 1)
      fun b u => u.linkState l = 3 ∧ (u.lnk l).present = field data 0 2 % 4096
        ∧ u.reg (linkKey K.LaneErrors l) = (b.reg (linkKey K.LaneErrors l) + field data 4 2) % 2 ^ 32
        ∧ u.reg (linkKey K.LaneErrors l + 1) = (b.reg (linkKey K.LaneErrors l + 1) + field data 6 2) % 2 ^ 32
        ∧ u.lreg K.FarEndClaimHolder l = field data 3 1 ∧ b.only [.dict, .ev, .fire, .link, .bridle] u :=
  completes_of (fun _ => rfl) fun b _ ⟨hthere, hlock, hver, hstate, hl, hholder⟩ => by
  have hcoming : (b.linkState l == 1 || b.linkState l == 2) = false := by simp [hstate]
  have herrors : ∀ (k : Nat) (u : State), K.LaneErrors ≤ k → k ≤ K.LaneErrors + 1 →
      ((statusRest l (field data 0 2 % 4096) (field data 3 1) data false b.bridle.guardEnd.isSome).run u).reg (linkKey k l)
        = u.reg (linkKey k l) := fun k u hk hk' =>
    reg_statusRest_link (by simp only [K.LaneErrors] at hk; omega) (by simp only [K.LaneErrors] at hk hk'; omega) _ _ _ _ _ u
  rw [Act.run_read]
  simp only [hthere, hlock, hcoming]
  rw [run_ite_of_not (by simp [hver, hstate]), run_seqs_five, ← statusRest, ← statusHead]
  refine ⟨?_, ?_, ?_, ?_, ?_, only_sent (only_trans (only_of_fits (by simp [statusHead, lput]) b)
    (only_of_fits (by simp [statusRest, hholder]) _))⟩
  · rw [linkState_notifySend, State.linkState, reg_statusRest_link (by decide) (by decide)]
    simpa [statusHead, setLink, lput, linkKey_add, (by decide : K.LinkState ≠ K.LaneErrors + 1), State.linkState] using hstate
  · rw [lnk_notifySend, statusRest_present]
    simp [statusHead, setLink, lput, State.lnk, hl]
  · rw [State.notifySend_reg, herrors _ _ (by decide) (by decide)]
    simp [statusHead, setLink, lput, linkKey_add]
  · rw [State.notifySend_reg, linkKey_add, herrors _ _ (by decide) (by decide)]
    simp [statusHead, setLink, lput, linkKey_add, (by decide : K.LaneErrors + 1 ≠ K.FarEndClaimHolder)]
  · rw [lreg_notifySend, State.lreg, reg_statusRest_link (by decide) (by decide)]
    simp [statusHead, lput]

theorem bankReport_completes (t l slot : Nat) (data : List Nat) :
    Completes (.bankReport t l slot data) t (fun b => l < b.link.links.length)
      fun b u => u.reg (slotKey K.Bank0Version l slot) = field data 0 4
        ∧ u.reg (slotKey K.Bank1Version l slot) = field data 4 4 ∧ bit (u.lnk l).reports slot = true
        ∧ b.only [.dict, .ev, .fire, .link] u := completes_of (fun _ => rfl) fun b _ hl => by
  have hrest : ∀ (u : State) {k : Nat}, 0x400000 ≤ k → ((Act.read fun s => when (s.linkUp l && decide (slot < 12))
      (.seq (adoptOn l) (bankCheck l slot))).run u).reg (slotKey k l slot) = u.reg (slotKey k l slot) := fun u k hk => by
    rw [Act.run_read, run_when]
    split
    · rw [Act.run_seq, Act.All.reg_other (calm_bankCheck (P := (· ≠ slotKey k l slot))
        (ne_slotKey hk (by decide)) l slot), reg_adoptOn fun i hi => slotKey_ne hk (by simp only [K.WaveVersionInForce]; omega)]
    · rfl
  have hlnk : ∀ u : State, ((Act.read fun s => when (s.linkUp l && decide (slot < 12)) (.seq (adoptOn l)
      (bankCheck l slot))).run u).lnk l = u.lnk l := fun u =>
    lnk_of_link (only_of_fits (l := [.dict, .ev, .fire]) (by simp) u .link (by simp)) l
  refine ⟨?_, ?_, ?_, only_sent_of_fits (by simp) b⟩
  · rw [State.notifySend_reg]
    refine (hrest _ (by decide)).trans ?_
    simp [setLink]
  · rw [State.notifySend_reg]
    refine (hrest _ (by decide)).trans ?_
    simp [setLink]
  · rw [lnk_notifySend]
    refine (congrArg (fun k => bit k.reports slot) (hlnk _)).trans ?_
    rw [lnk_setLink (by simpa using hl)]
    simp

theorem lateRecord_completes (t l slot : Nat) (data : List Nat) :
    Completes (.lateRecord t l slot data) t (fun _ => True)
      fun b u => u.reg K.LinesSkippedCount = (b.reg K.LinesSkippedCount + 1) % 2 ^ 32
        ∧ u.reg (slotKey K.HeadLinesSkipped l slot) = (b.reg (slotKey K.HeadLinesSkipped l slot) + 1) % 2 ^ 32
        ∧ u.fire.copies = b.fire.copies.map (fun c =>
            if some c.num = b.sentCopy l slot (field data 0 1) (field data 2 2)
            then { c with waste := setBit c.waste wHead true } else c)
        ∧ b.raised [97] u
        ∧ b.regsBut [K.LinesSkippedCount, slotKey K.HeadLinesSkipped l slot, K.FiringEventSlot + 1] u
        ∧ b.only [.dict, .ev, .fire] u :=
  completes_of (a := .read fun s => seqs [fireEvent 97 l slot, addTo K.LinesSkippedCount 4 1,
    addTo (slotKey K.HeadLinesSkipped l slot) 4 1, wasteSent (s.sentCopy l slot (field data 0 1) (field data 2 2))])
  (fun _ => rfl) fun b _ _ => by
  have hkey : ∀ q < 0x400000, q ≠ slotKey K.HeadLinesSkipped l slot := fun q hq => ne_slotKey (by decide) hq
  have hplace : K.LinesSkippedCount ≠ K.FiringEventSlot + 1 := by decide
  rw [Act.run_read]
  refine ⟨?_, ?_, ?_, raised_notifySend.mpr (raised_head (raised_fireEvent (by decide) rfl b) (P := fun _ => True) (by simp)),
    regsBut_sent (by simp) b, only_sent_of_fits (by simp) b⟩
  · rw [State.notifySend_reg]
    simp [fireEvent, hkey K.LinesSkippedCount (by decide), hplace, run_wasteSent]
  · rw [State.notifySend_reg]
    simp [fireEvent, (hkey K.LinesSkippedCount (by decide)).symm, (hkey (K.FiringEventSlot + 1) (by decide)).symm,
      run_wasteSent]
  · rw [State.notifySend_fire]
    simp only [run_seqs_cons, run_seqs_nil, run_wasteSent]
    simp [fireEvent]

theorem rejectedLine_completes (t l slot : Nat) (data : List Nat) (x : Sent) :
    slot < 16 → field data 0 1 ≠ 1 →
    Completes (.rejectedRecord t l slot data) t
      (fun b => ((b.lnk l).sent.find? fun y => y.seq == field data 2 2) = some x ∧ x.kind = pkLINE)
      fun b u => u.reg K.LinesRejectedCount = (b.reg K.LinesRejectedCount + 1) % 2 ^ 32
        ∧ u.reg (slotKey K.HeadLinesRejected l x.slot) = (b.reg (slotKey K.HeadLinesRejected l x.slot) + 1) % 2 ^ 32
        ∧ u.fire.copies = b.fire.copies.map (fun c =>
            if c.num = x.copy then { c with waste := setBit c.waste wHead true } else c)
        ∧ b.raised [103] u ∧ b.only [.dict, .ev, .fire] u :=
  fun hslot hreason => completes_of (fun _ => rfl) fun b _ ⟨hx, hkind⟩ => by
  have hlost : (lostPacket l (field data 2 2)).run b = (seqs [fireEvent 103 l x.slot, addTo K.LinesRejectedCount 4 1,
      addTo (slotKey K.HeadLinesRejected l x.slot) 4 1, wasteCopy x.copy wHead]).run b := by
    simp only [lostPacket, Act.run_read, hx, hkind]
    rfl
  have hkey : ∀ q < 0x400000, q ≠ slotKey K.HeadLinesRejected l x.slot := fun q hq => ne_slotKey (by decide) hq
  rw [Act.run_read, run_ite_of_not (by omega), run_ite_of_not hreason, hlost]
  refine ⟨?_, ?_, ?_, raised_notifySend.mpr (raised_head (raised_fireEvent (by decide) rfl b) (P := fun _ => True)
    (by simp [wasteCopy, markWaste, setCopy])), only_sent_of_fits (by simp) b⟩
  · rw [State.notifySend_reg]
    simp [fireEvent, hkey K.LinesRejectedCount (by decide),
      (by decide : K.LinesRejectedCount ≠ K.FiringEventSlot + 7), wasteCopy, markWaste, setCopy]
  · rw [State.notifySend_reg]
    simp [fireEvent, (hkey K.LinesRejectedCount (by decide)).symm, (hkey (K.FiringEventSlot + 7) (by decide)).symm,
      wasteCopy, markWaste, setCopy]
  · rw [State.notifySend_fire]
    simp [fireEvent, wasteCopy, markWaste, setCopy]

theorem calm_lostPacket {P : Nat → Prop} {l : Nat} (hev : P (K.FiringEventSlot + 7)) (hcount : P K.LinesRejectedCount)
    (hslot : ∀ sl, P (slotKey K.HeadLinesRejected l sl)) (hcfg : P (linkKey K.HeadCfgState l)) (n : Nat) :
    (lostPacket l n).All (Prim.Calm P) := by
  intro s
  dsimp only
  split
  · trivial
  split
  · simp [hev, hcount, hslot, wasteCopy, markWaste, setCopy]
  split
  · split
    · simp [retryCfg, dropCfg, lput, hcfg]
    · trivial
  · trivial

theorem rejectedGap_completes (t l slot : Nat) (data : List Nat) :
    slot < 16 → field data 0 1 = 1 →
    Completes (.rejectedRecord t l slot data) t (fun _ => True)
      fun b u => u.reg (linkKey K.ForwardPacketsLost l)
          = (b.reg (linkKey K.ForwardPacketsLost l) + field data 4 2) % 2 ^ 32
        ∧ b.only [.dict, .ev, .fire, .link] u := fun hslot hreason => completes_of (fun _ => rfl) fun b _ _ => by
  rw [Act.run_read, run_ite_of_not (by omega), run_ite_of hreason]
  refine ⟨?_, only_sent_of_fits (by simp) b⟩
  rw [State.notifySend_reg, Act.run_seq, Act.All.reg_other (all_each fun i _ => calm_lostPacket
    (P := (· ≠ linkKey K.ForwardPacketsLost l)) (ne_linkKey (by decide) (by decide)) (ne_linkKey (by decide) (by decide)) (fun _ => slotKey_ne_linkKey (by decide))
    (fun h => absurd (linkKey_inj.mp h) (by decide)) _)]
  simp

theorem bits_replace {v k : Nat} (hk : k < 4) (x : Nat) (hx : x < 4) (hv : v < 256) :
    bits ((v - bits v (2 * k) 2 * 4 ^ k + x * 4 ^ k) % 256) (2 * k) 2 = x := by
  unfold bits
  interval_cases k <;> norm_num <;> omega

theorem missingOf_setMissing {s : State} (hmem : Memory.wf s.mem = true) {n v : Nat} (hv : v < 4) :
    ((setMissing n v).run s).missingOf n = v := by
  simp only [setMissing, Act.run_read, Act.run_prim, Prim.apply_store, State.missingOf, Memory.storeValue]
  rw [Memory.byte_store_same _ _ _ hmem, BitVec.toNat_ofNat]
  exact bits_replace (Nat.mod_lt _ (by decide)) v hv (BitVec.isLt _)

/-- A nozzle not yet in the missing set enters it with its source, and MissingAdded is raised (R214). -/
theorem addMissing_adds {s : State} (hmem : Memory.wf s.mem = true) {n v : Nat} (hv : v < 4) (hn : s.missingOf n = 0) :
    ((addMissing n v).run s).missingOf n = v
      ∧ ((addMissing n v).run s).reg K.MissingCount = (s.reg K.MissingCount + 1) % 2 ^ 32
      ∧ s.raised [66] ((addMissing n v).run s) := by
  have hmiss : ∀ a : Act, a.All (Prim.Fits [.dict, .ev, .tone]) → ∀ u : State, (a.run u).missingOf n = u.missingOf n :=
    fun a ha u => by
      rw [State.missingOf, State.missingOf, show (a.run u).mem = u.mem from only_of_fits ha u .mem (by simp)]
  rw [addMissing, Act.run_read, run_ite_of_not (not_not.mpr hn)]
  refine ⟨?_, ?_, raised_tail (by simp [setMissing]) (raised_tail (by simp)
    (raised_head (raised_raise rfl _) (P := fun _ => True) (by simp [wantBuild])))⟩
  · rw [run_seqs_cons, hmiss _ (by simp), missingOf_setMissing hmem hv]
  · rw [run_seqs_cons, run_seqs_cons, Act.All.reg_other (by simp [wantBuild])]
    simp [setMissing]

theorem mem_wf_of_inv {s : State} (h : s.inv = true) : Memory.wf s.mem = true := by
  simp only [State.inv, Bool.and_eq_true] at h
  exact h.1.1

@[simp] theorem calm_addMissing {P : Nat → Prop} (h : P K.MissingCount) (n v : Nat) : (addMissing n v).All (Prim.Calm P) := by
  simp [addMissing, setMissing, wantBuild, h]

theorem missingOf_of_mem {s u : State} (h : u.mem = s.mem) (n : Nat) : u.missingOf n = s.missingOf n := by
  rw [State.missingOf, h, State.missingOf]

/-- A nozzle flag that enters the missing set is counted on its way (R251). -/
def countFlag (l slot : Nat) : Act :=
  seqs [fireEvent 102 l slot, addTo K.NozzleFlagsReceived 4 1, addTo (slotKey K.NozzleFlagsFromHead l slot) 4 1,
    addTo K.NozzleFlagsAdded 4 1]

theorem run_countFlag {c : Bool} (h : c = true) (l slot n : Nat) (b : State) :
    (seqs [fireEvent 102 l slot, addTo K.NozzleFlagsReceived 4 1, addTo (slotKey K.NozzleFlagsFromHead l slot) 4 1,
      when c (.seq (addTo K.NozzleFlagsAdded 4 1) (addMissing n 1))]).run b
        = (addMissing n 1).run ((countFlag l slot).run b) := by
  subst h
  rfl

theorem calm_countFlag {P : Nat → Prop} (hev : P (K.FiringEventSlot + 6)) (hrec : P K.NozzleFlagsReceived)
    (hadd : P K.NozzleFlagsAdded) {l slot : Nat} (hslot : P (slotKey K.NozzleFlagsFromHead l slot)) :
    (countFlag l slot).All (Prim.Calm P) := by simp [countFlag, hev, hrec, hadd, hslot]

theorem nozzleFlag_added (t l slot : Nat) (data : List Nat) :
    Completes (.nozzleFlag t l slot data) t
      (fun b =>
        let n := 49152 * l + b.reg (slotKey K.SlotFirstNozzle l slot) + field data 2 2
        b.inv = true ∧ field data 1 1 ≤ 2 ∧ bit (b.reg K.NozzleFlagKindMask) (field data 1 1) = true
        ∧ bit (b.reg K.SourceMask) 0 = true ∧ n < b.nozzleCount ∧ b.missingOf n = 0)
      fun b u => u.missingOf (49152 * l + b.reg (slotKey K.SlotFirstNozzle l slot) + field data 2 2) = 1
        ∧ u.reg K.NozzleFlagsReceived = (b.reg K.NozzleFlagsReceived + 1) % 2 ^ 32
        ∧ u.reg K.NozzleFlagsAdded = (b.reg K.NozzleFlagsAdded + 1) % 2 ^ 32
        ∧ u.reg K.MissingCount = (b.reg K.MissingCount + 1) % 2 ^ 32
        ∧ b.raised [102, 66] u ∧ b.only [.mem, .dict, .ev, .tone] u :=
  completes_of (fun _ => rfl) fun b _ ⟨hinv, hkind, hmask, hsource, hn, hmissing⟩ => by
  have hflag : bit (field data 1 1) 7 = false := by
    generalize field data 1 1 = kind at hkind
    interval_cases kind <;> rfl
  have hbits : bits (field data 1 1) 0 7 = field data 1 1 := by
    generalize field data 1 1 = kind at hkind
    interval_cases kind <;> rfl
  rw [Act.run_read, run_countFlag (by simp [hflag, hbits, hkind, hmask, hsource, hn, hmissing])]
  generalize 49152 * l + b.reg (slotKey K.SlotFirstNozzle l slot) + field data 2 2 = n at hmissing ⊢
  have hmem : ((countFlag l slot).run b).mem = b.mem :=
    only_of_fits (l := [.dict, .ev]) (by simp [countFlag]) b .mem (by simp)
  have hctl : ((countFlag l slot).run b).reg ctlKey = b.reg ctlKey :=
    (calm_countFlag (P := (· ≠ ctlKey)) (by decide) (by decide) (by decide)
      (slotKey_ne (by decide) (by decide))).reg_other b
  obtain ⟨hone, hcount, hraised⟩ := addMissing_adds (s := (countFlag l slot).run b) (v := 1) (n := n)
    (by rw [hmem]; exact mem_wf_of_inv hinv) (by decide) ((missingOf_of_mem hmem n).trans hmissing)
  have hkey : ∀ q < 0x400000, q ≠ slotKey K.NozzleFlagsFromHead l slot := fun q hq => ne_slotKey (by decide) hq
  have hplace : K.NozzleFlagsReceived ≠ K.FiringEventSlot + 6 ∧ K.NozzleFlagsAdded ≠ K.FiringEventSlot + 6 := by decide
  refine ⟨(missingOf_of_mem (by simp) n).trans hone, ?_, ?_, ?_, raised_notifySend.mpr (raised_cons.mpr ⟨?_,
    raised_after hctl hraised⟩), only_sent (only_trans (only_of_fits (by simp [countFlag]) b) (only_of_fits (by simp) _))⟩
  · rw [State.notifySend_reg, Act.All.reg_other (calm_addMissing (P := (· ≠ K.NozzleFlagsReceived)) (by decide) n 1)]
    simp [countFlag, fireEvent, hplace, hkey K.NozzleFlagsReceived (by decide)]
  · rw [State.notifySend_reg, Act.All.reg_other (calm_addMissing (P := (· ≠ K.NozzleFlagsAdded)) (by decide) n 1)]
    simp [countFlag, fireEvent, hplace, hkey K.NozzleFlagsAdded (by decide)]
  · rw [State.notifySend_reg, hcount, Act.All.reg_other (calm_countFlag (P := (· ≠ K.MissingCount)) (by decide)
      (by decide) (by decide) (slotKey_ne (by decide) (by decide)))]
  · exact raised_before (raised_head (raised_fireEvent (by decide) rfl b) (P := fun _ => True) (by simp))
      (calm_addMissing (P := fun _ => True) trivial n 1)

theorem nozzleFlag_reported (t l slot : Nat) (data : List Nat) :
    bit (field data 1 1) 7 = true →
    Completes (.nozzleFlag t l slot data) t (fun _ => True)
      fun b u => u.reg K.NozzleFlagsReceived = (b.reg K.NozzleFlagsReceived + 1) % 2 ^ 32
        ∧ u.reg (slotKey K.NozzleFlagsFromHead l slot) = (b.reg (slotKey K.NozzleFlagsFromHead l slot) + 1) % 2 ^ 32
        ∧ b.raised [102] u
        ∧ b.regsBut [K.NozzleFlagsReceived, slotKey K.NozzleFlagsFromHead l slot, K.FiringEventSlot + 6] u
        ∧ b.only [.dict, .ev] u := fun hbit => completes_of (fun _ => rfl) fun b _ _ => by
  have hkey : ∀ q < 0x400000, q ≠ slotKey K.NozzleFlagsFromHead l slot := fun q hq => ne_slotKey (by decide) hq
  simp only [Act.run_read, hbit, Bool.not_true, Bool.false_and]
  refine ⟨?_, ?_, raised_notifySend.mpr (raised_head (raised_fireEvent (by decide) rfl b) (P := fun _ => True) (by simp)),
    regsBut_sent (by simp) b, only_sent_of_fits (by simp) b⟩
  · rw [State.notifySend_reg]
    simp [fireEvent, hkey K.NozzleFlagsReceived (by decide),
      (by decide : K.NozzleFlagsReceived ≠ K.FiringEventSlot + 6)]
  · rw [State.notifySend_reg]
    simp [fireEvent, (hkey K.NozzleFlagsReceived (by decide)).symm, (hkey (K.FiringEventSlot + 6) (by decide)).symm]

theorem cfgReply_completes (t l slot : Nat) (data : List Nat) (c : CfgReq) :
    Completes (.cfgReply t l slot data) t
      (fun b => ((b.lnk l).cfgs.find? fun c => c.tag == field data 0 1 && c.slot == slot) = some c ∧ c.use = 0
        ∧ l < b.link.links.length)
      fun b u => u.lreg K.HeadCfgState l = 2
        ∧ u.lreg K.HeadCfgReply l
          = closeBytes ([field data 1 1, field data 2 1, 0, 0] ++ (data.drop 4).take 256)
        ∧ (u.lnk l).cfgs = (b.lnk l).cfgs.filter (fun x => x.tag != c.tag)
        ∧ b.regsBut [linkKey K.HeadCfgState l, linkKey K.HeadCfgReply l] u ∧ b.only [.dict, .link] u :=
  completes_of (fun _ => rfl) fun b _ ⟨hc, huse, hl⟩ => by
  simp only [Act.run_read, hc, huse]
  refine ⟨?_, ?_, ?_, regsBut_sent (by simp [dropCfg, lput]) b, only_sent_of_fits (by simp [dropCfg, lput]) b⟩
  · rw [lreg_notifySend]
    simp [lput, State.lreg]
  · rw [lreg_notifySend]
    simp [lput, State.lreg]
  · rw [lnk_notifySend]
    simp [dropCfg, setLink, lput, State.lnk, hl]

theorem cfgTimeout_completes (t l : Nat) (c : CfgReq) :
    Completes (.cfgTimeout t l) t
      (fun b => ((b.lnk l).cfgs.find? fun c => c.since + b.reg K.CfgTimeout ≤ b.now) = some c ∧ c.use = 0)
      fun b u => (c.tries < 3 → ∃ d, .packet l pkCFG d ∈ u.out)
        ∧ (3 ≤ c.tries → u.lreg K.HeadCfgState l = 3) ∧ b.regsBut [linkKey K.HeadCfgState l] u
        ∧ b.only [.dict, .link] u := completes_of (fun _ => rfl) fun b _ ⟨hc, huse⟩ => by
  simp only [Act.run_read, hc]
  refine ⟨fun htries => ?_, fun htries => ?_, regsBut_sent (by simp [retryCfg, dropCfg, lput]) b,
    only_sent_of_fits (by simp) b⟩
  · obtain ⟨d, hd⟩ := mem_out_issueCfg l c.slot c.op c.count c.addr c.data (c.tries + 1) c.use ((dropCfg l c.tag).run b)
    rw [retryCfg, Act.run_seq, run_ite_of htries]
    exact ⟨d, mem_out_notifySend hd⟩
  · rw [lreg_notifySend, retryCfg, Act.run_seq, run_ite_of_not (by omega)]
    simp [huse, lput, State.lreg]

theorem syncEcho_completes (t l arrival q dep : Nat) (data : List Nat) :
    Completes (.syncEcho t l data arrival) t
      (fun b => ((b.lnk l).echoWait.find? fun e => e.1 == field data 0 2) = some (q, dep) ∧ (b.lnk l).accepted < 16
        ∧ l < b.link.links.length)
      fun b u =>
        let echoes := (((arrival : Int) - dep - field data 4 8) :: (b.lnk l).echoes).take 16
        (u.lnk l).echoes = echoes ∧ (u.lnk l).accepted = (b.lnk l).accepted + 1
        ∧ u.lreg K.PathDelay l = rawOf 4 (roundDiv (echoes.sum * 1000) (2 * echoes.length * 65536))
        ∧ b.regsBut [linkKey K.PathDelay l] u ∧ b.only [.dict, .link] u :=
  completes_of (fun _ => rfl) fun b _ ⟨hq, hacc, hl⟩ => by
  have hnew : ¬(decide (16 ≤ (b.lnk l).accepted) && decide (b.reg K.EchoTolerance * 2 * 65536 <
      (((arrival : Int) - dep - field data 4 8) - 2 * pathMean (b.lnk l).echoes).natAbs * 1000)) = true := by
    simp; omega
  simp only [Act.run_read, hq]
  rw [Act.run_seq, run_ite_of_not hnew]
  refine ⟨?_, ?_, ?_, ?_, only_sent (only_trans (only_of_fits (by simp) _) (only_of_fits (by simp [lput]) _))⟩
  · rw [lnk_notifySend]
    simp [setLink, lput, State.lnk, hl]
  · rw [lnk_notifySend]
    simp [setLink, lput, State.lnk, hl]
  · rw [lreg_notifySend]
    simp [lput, State.lreg]
  · exact regsBut_sent (a := .seq (setLink l _) (seqs [setLink l _, lput _ _ _])) (by simp [lput]) b

theorem returnPacketRejected_completes (t l cause : Nat) :
    cause ≤ 3 →
    Completes (.returnPacketRejected t l cause) t (fun b => b.linkThere l = true)
      fun b u => u.lreg K.ReturnPacketsRejected l = (b.lreg K.ReturnPacketsRejected l + 1) % 2 ^ 32
        ∧ b.regsBut [linkKey K.ReturnPacketsRejected l] u ∧ b.only [.dict] u :=
  fun hcause => completes_of (fun _ => rfl) fun b _ hthere => by
  rw [Act.run_read, run_when, if_pos (by simp [hthere, hcause])]
  exact ⟨by simp [State.lreg], regsBut_sent (by simp) b, only_sent_of_fits (by simp) b⟩

/-- Settles O25: a record acts on its link's and its slot's own entries, and what it tells further leaves them. -/
theorem linkReportsComplete : Obligations.LinkReportsComplete :=
  ⟨statusRecord_comesUp, statusRecord_up, bankReport_completes, lateRecord_completes, rejectedLine_completes,
    rejectedGap_completes, nozzleFlag_added, nozzleFlag_reported, cfgReply_completes, cfgTimeout_completes,
    syncEcho_completes, returnPacketRejected_completes⟩

end Sys2Proof.Machine
end

section
/-! # Thermal trim, the fault log's saves and calibration records (R434, R437, R438) -/

namespace Sys2Proof.Machine

@[simp] theorem calm_bumpVersion {P : Nat → Prop} {idx : Nat} (h : P (versionKey idx)) :
    (bumpVersion idx).All (Prim.Calm P) := by simp [bumpVersion, h]

@[simp] theorem health_calibrationCounted (kind : Nat) (ok : Bool) (s : State) :
    ((calibrationCounted kind ok).run s).health = { s.health with countsChanged := true } := by
  cases ok <;> simp [calibrationCounted]

theorem calm_calibrationCounted {P : Nat → Prop} {kind : Nat} {ok : Bool}
    (hok : ok = true → P (K.CalibrationCount + (kind - 1)) ∧ P (K.CalibrationTime + (kind - 1)))
    (hno : ok = false → P (K.CalibrationDiscarded + (kind - 1))) :
    (calibrationCounted kind ok).All (Prim.Calm P) := by
  cases ok <;> simp_all [calibrationCounted]

/-- A calibration's count raises the event that says how it ended. -/
theorem calibrationCounted_raises {kind : Nat} (_ : kind ≤ 8) (ok : Bool) (s : State) :
    s.raised [if ok then 243 else 244] ((calibrationCounted kind ok).run s) := by
  cases ok
  case true =>
    have hcount : K.CalibrationCount + (kind - 1) ≠ ctlKey := by simp only [K.CalibrationCount, ctlKey]; omega
    have htime : K.CalibrationTime + (kind - 1) ≠ ctlKey := by simp only [K.CalibrationTime, ctlKey]; omega
    exact raised_head (P := fun _ => True) (raised_tail (by simp [hcount]) (raised_tail (by simp [htime])
      (raised_raise rfl _))) (by simp)
  case false =>
    have hcount : K.CalibrationDiscarded + (kind - 1) ≠ ctlKey := by simp only [K.CalibrationDiscarded, ctlKey]; omega
    exact raised_head (P := fun _ => True) (raised_tail (by simp [hcount]) (raised_raise rfl _)) (by simp)

theorem thermalTrimReference_completes (t v : Nat) (w : Wr) :
    w.val = v →
    Completes (.thermalTrimReference t w) t
      (fun b => b.takes 0x2F03 1 w v ∧ (b.mode = mStandby ∨ b.mode = mReady))
      fun b u => u.health.trimFirst = some (signedOf 2 v, b.health.rawA, b.health.rawB) ∧ u.health.trimAt = b.now
        ∧ u.reg K.ThermalTrimState = 1 ∧ b.regsBut [K.ThermalTrimState] u ∧ b.only [.dict, .health] u :=
  fun hval => completes_write (fun _ => rfl) fun b ⟨htake, hmode⟩ => by
  refine ⟨v, _, htake, if_neg (by rcases hmode with h | h <;> simp [h]), by simp, by simp, by simp,
    regsBut_write (by simp) _ b, only_write (by simp [Health.Sized]) _ b⟩

theorem thermalTrimReading_completes (t : Nat) (ref x y : Int) :
    Completes (.thermalTrimReading t) t
      (fun b => b.health.trimFirst = some (ref, x, y) ∧ b.health.trimAt + 1000000000 ≤ b.now)
      fun b u =>
        let ta := ref - roundDiv (x + b.health.rawA) 2
        let tb := ref - roundDiv (y + b.health.rawB) 2
        let good := (x - b.health.rawA).natAbs ≤ 8 ∧ (y - b.health.rawB).natAbs ≤ 8 ∧ ta.natAbs ≤ 160 ∧ tb.natAbs ≤ 160
        u.health.trimFirst = none
        ∧ (good → u.reg K.ThermalTrim = rawOf 2 ta ∧ u.reg (K.ThermalTrim + 1) = rawOf 2 tb
          ∧ u.reg K.ThermalTrimState = 2
          ∧ u.reg (K.CalibrationCount + 7) = (b.reg (K.CalibrationCount + 7) + 1) % 2 ^ 32 ∧ b.raised [239, 243] u)
        ∧ (¬ good → u.reg K.ThermalTrimState = 3
          ∧ u.reg (K.CalibrationDiscarded + 7) = (b.reg (K.CalibrationDiscarded + 7) + 1) % 2 ^ 32
          ∧ b.regsBut [K.ThermalTrimState, K.CalibrationDiscarded + 7] u ∧ b.raised [244] u)
        ∧ b.only [.dict, .ev, .health] u := completes_of (fun _ => rfl) fun b _ ⟨hfirst, hdue⟩ => by
  simp only [Act.run_read, hfirst]
  rw [run_ite_of_not (by omega)]
  refine and_assoc.mp ⟨⟨?_, fun hgood => ?_⟩, fun hbad => ?_, only_sent_of_fits (by simp [Health.Sized]) b⟩
  · split <;> simp
  · obtain ⟨ha, hb, hta, htb⟩ := hgood
    simp only [ha, hb, hta, htb, decide_true, Bool.and_self, if_true]
    refine ⟨by simp (decide := true) [calibrationCounted], by simp (decide := true) [calibrationCounted],
      by simp (decide := true) [calibrationCounted], by simp (decide := true) [calibrationCounted],
      raised_notifySend.mpr (raised_tail (by simp)
        (raised_cons.mpr ⟨raised_head (P := fun _ => True) ?_ ?_, raised_tail ?_ ?_⟩))⟩
    · exact raised_tail (by simp) (raised_tail (by simp (decide := true)) (raised_tail (by simp) (raised_raise rfl _)))
    · exact ⟨calm_calibrationCounted (by simp) (by simp), trivial⟩
    · simp (decide := true)
    · exact calibrationCounted_raises (by decide) true _
  · rw [show (decide ((x - b.health.rawA).natAbs ≤ 8) && decide ((y - b.health.rawB).natAbs ≤ 8)
        && decide ((ref - roundDiv (x + b.health.rawA) 2).natAbs ≤ 160)
        && decide ((ref - roundDiv (y + b.health.rawB) 2).natAbs ≤ 160)) = false by
      simpa [and_assoc] using hbad]
    refine ⟨by simp (decide := true) [calibrationCounted], by simp (decide := true) [calibrationCounted],
      regsBut_sent ?_ b, raised_notifySend.mpr (raised_tail (by simp) (raised_tail (by simp) ?_))⟩
    · exact ⟨trivial, by simp, calm_calibrationCounted (by simp) (by simp), trivial⟩
    · exact calibrationCounted_raises (by decide) false _

theorem faultLogSave_completes (t : Nat) (w : Wr) :
    w.val = 1 →
    Completes (.faultLogSave t w) t (fun b => b.takes 0x2142 2 w 1)
      fun b u => u.health = { b.health with savedLog := b.newestLog }
        ∧ u.reg (versionKey 0x5F01) = (b.reg (versionKey 0x5F01) + 1) % 2 ^ 32
        ∧ b.regsBut [versionKey 0x5F01] u ∧ b.only [.dict, .health] u :=
  fun hval => completes_write (fun _ => rfl) fun b htake => by
  refine ⟨1, saveLog, htake, rfl, ?_, ?_, regsBut_write ?_ _ b, only_write ?_ _ b⟩
  · simp [saveLog, bumpVersion]
  · simp [saveLog, bumpVersion]
  · simp [saveLog]
  · simp

theorem calibrationRecordSave_completes (t v : Nat) (w : Wr) :
    w.val = v →
    Completes (.calibrationRecordSave t w) t (fun b => b.takes 0x2F10 1 w v)
      fun b u => u.reg K.CalibrationRecordState = 1 ∧ b.regsBut [K.CalibrationRecordState] u
        ∧ (∃ j : SaveJob, u.health.writing = b.health.writing ++ [j] ∧ j.auto = false
          ∧ ∀ kind r, (kind, r) ∈ j.recs ↔ (1 ≤ kind ∧ kind ≤ 8 ∧ bit v (kind - 1) = true ∧ r = b.recordOf kind))
        ∧ u.health.countsChanged = false ∧ b.only [.dict, .health] u :=
  fun hval => completes_write (fun _ => rfl) fun b htake => by
  refine ⟨v, _, htake, rfl, by simp, regsBut_write (by simp) _ b, ⟨_, by simp; rfl, rfl, fun kind r => ?_⟩, by simp,
    only_write (by simp [Health.Sized]) _ b⟩
  simp only [List.mem_map, List.mem_filter, List.mem_range, Function.comp_apply, Prod.mk.injEq]
  constructor
  · rintro ⟨i, ⟨hi, hbit⟩, rfl, rfl⟩
    exact ⟨by omega, by omega, hbit, rfl⟩
  · rintro ⟨h1, h8, hbit, rfl⟩
    exact ⟨kind - 1, ⟨by omega, hbit⟩, by omega, by rw [Nat.sub_add_cancel h1]⟩

theorem calibrationAutoSave_completes (t : Nat) :
    Completes (.calibrationAutoSave t) t
      (fun b => b.islandReady islCTL = true ∧ b.health.countsChanged = true
        ∧ ∀ t0, b.health.countsSavedAt = some t0 → t0 + 60000000000 ≤ b.now)
      fun b u => u.health.countsSavedAt = some b.now ∧ u.health.countsChanged = false
        ∧ (∃ j : SaveJob, u.health.writing = b.health.writing ++ [j] ∧ j.auto = true ∧ j.recs = []
          ∧ j.counts = b.countsNow)
        ∧ b.only [.health] u := completes_of (fun _ => rfl) fun b _ ⟨hctl, hchanged, hdue⟩ => by
  have hdue' : (match b.health.countsSavedAt with
      | some t0 => decide (t0 + 60000000000 ≤ b.now)
      | none => true) = true := by
    split
    next t0 ht => exact decide_eq_true (hdue t0 ht)
    next => rfl
  rw [Act.run_read, run_when, if_pos (by rw [hctl, hchanged]; exact hdue')]
  exact ⟨by simp, by simp, ⟨_, by simp; rfl, rfl, rfl, rfl⟩, only_sent_of_fits (by simp [Health.Sized]) b⟩

/-- What follows once a save of calibration records is stored: the versions of the records, and its report. -/
def recordsReported (j : SaveJob) (rest : List SaveJob) : List Act := [
  each (j.recs.map (·.1)) (fun k => bumpVersion (0x5F10 + (k - 1))),
  when (!j.auto) (.seq (put K.CalibrationRecordState (if rest.any (fun r => !r.auto) then 1 else 2)) (raise 245))]

theorem health_recordsReported (j : SaveJob) (rest : List SaveJob) (s : State) :
    ((seqs (recordsReported j rest)).run s).health = s.health :=
  only_of_fits (l := [.dict, .ev]) (by simp [recordsReported]) s .health (by decide)

theorem versions_calm {j : SaveJob} (hkinds : ∀ r ∈ j.recs, 1 ≤ r.1 ∧ r.1 ≤ 8) {q : Nat}
    (hq : ∀ i, i < 8 → versionKey (0x5F10 + i) ≠ q) :
    (each (j.recs.map (·.1)) (fun k => bumpVersion (0x5F10 + (k - 1)))).All (Prim.Calm (· ≠ q)) := by
  refine all_each fun k hk => calm_bumpVersion (hq _ ?_)
  obtain ⟨r, hr, rfl⟩ := List.mem_map.mp hk
  have := hkinds r hr
  omega

theorem reg_recordsReported {j : SaveJob} (hkinds : ∀ r ∈ j.recs, 1 ≤ r.1 ∧ r.1 ≤ 8) (rest : List SaveJob) {q : Nat}
    (hq : ∀ i, i < 8 → versionKey (0x5F10 + i) ≠ q) (hstate : K.CalibrationRecordState ≠ q) (s : State) :
    ((seqs (recordsReported j rest)).run s).reg q = s.reg q := by
  refine Act.All.reg_other ?_ s
  rw [recordsReported, all_seqs_cons]
  exact ⟨versions_calm hkinds hq, by simp [hstate]⟩

/-- A save that was asked for reports its end. -/
theorem recordsReported_raises {j : SaveJob} (hkinds : ∀ r ∈ j.recs, 1 ≤ r.1 ∧ r.1 ≤ 8) (hauto : j.auto = false)
    (rest : List SaveJob) {b u : State} (hu : u.reg ctlKey = b.reg ctlKey) :
    b.raised [245] ((seqs (recordsReported j rest)).run u) := by
  have hkey : ∀ i, i < 8 → versionKey (0x5F10 + i) ≠ ctlKey := by simp only [versionKey, ctlKey]; omega
  rw [recordsReported, hauto]
  exact raised_after hu (raised_tail (versions_calm hkinds hkey)
    (raised_after (u := (put K.CalibrationRecordState _).run _) (by simp) (raised_raise rfl _)))

theorem run_seqs_three (a b c : Act) (rest : List Act) (s : State) :
    (seqs (a :: b :: c :: rest)).run s = (seqs rest).run (c.run (b.run (a.run s))) := rfl

theorem getD_storeRecords {l : List (Nat × CalRecord)} {i : Nat} (h : ∀ r ∈ l, r.1 - 1 ≠ i)
    (L : List (Option CalRecord)) :
    (l.foldl (fun l r => l.set (r.1 - 1) (some r.2)) L).getD i none = L.getD i none := by
  induction l generalizing L with
  | nil => rfl
  | cons r l ih =>
    rw [List.foldl_cons, ih fun r hr => h r (List.mem_cons_of_mem _ hr)]
    simp [List.getD_eq_getElem?_getD, List.getElem?_set_ne (h r List.mem_cons_self)]

theorem calibrationRecordWritten_completes (t : Nat) (j : SaveJob) (rest : List SaveJob) :
    Completes (.calibrationRecordWritten t) t
      (fun b => b.health.writing = j :: rest ∧ ∀ r ∈ j.recs, 1 ≤ r.1 ∧ r.1 ≤ 8)
      fun b u => u.health.writing = rest
        ∧ u.reg K.CalibrationRecordSequence = (b.reg K.CalibrationRecordSequence + 1) % 2 ^ 32
        ∧ u.reg K.CalibrationRecordsValid = b.reg K.CalibrationRecordsValid ||| kindMask (j.recs.map (·.1))
        ∧ (∀ kind, (∀ r ∈ j.recs, r.1 ≠ kind) → 1 ≤ kind →
            u.health.records.getD (kind - 1) none = b.health.records.getD (kind - 1) none)
        ∧ (∀ kind r, j.recs = [(kind, r)] → kind ≤ b.health.records.length →
            u.health.records.getD (kind - 1) none = some r)
        ∧ (j.auto = false → b.raised [245] u
          ∧ u.reg K.CalibrationRecordState = if rest.any (fun r => !r.auto) then 1 else 2)
        ∧ b.only [.dict, .ev, .health] u := completes_of (fun _ => rfl) fun b _ ⟨hj, hkinds⟩ => by
  have hkey : ∀ q, q = K.CalibrationRecordSequence ∨ q = K.CalibrationRecordsValid ∨ q = ctlKey →
      ∀ i, i < 8 → versionKey (0x5F10 + i) ≠ q := by
    simp only [versionKey, K.CalibrationRecordSequence, K.CalibrationRecordsValid, ctlKey]
    omega
  simp only [Act.run_read, hj]
  refine ⟨?_, ?_, ?_, fun kind hnot hkind => ?_, fun kind r hone hlen => ?_, fun hauto => ⟨?_, ?_⟩,
    only_sent_of_fits (by simp [Health.Sized, length_foldl_set]) b⟩
    <;> rw [run_seqs_three, ← recordsReported]
  · simp [health_recordsReported]
  · simp [reg_recordsReported hkinds rest (hkey K.CalibrationRecordSequence (by simp)), bump]
  · simp [reg_recordsReported hkinds rest (hkey K.CalibrationRecordsValid (by simp))]
  · simp only [State.notifySend_health, health_recordsReported]
    exact getD_storeRecords (fun r hr => by have := hnot r hr; have := hkinds r hr; omega) _
  · have hk := hkinds (kind, r) (by simp [hone])
    rw [State.notifySend_health, health_recordsReported]
    simp only [hone, Act.run_prim, Prim.apply_health, List.foldl_cons, List.foldl_nil]
    rw [List.getD_eq_getElem _ _ (by simp; omega), List.getElem_set_self]
  · exact raised_notifySend.mpr (recordsReported_raises hkinds hauto rest (by simp))
  · simp [recordsReported, hauto]

/-- Settles O41: a thermal trim is applied or discarded by its second reading, and a save takes what is in force. -/
theorem recordsComplete : Obligations.RecordsComplete :=
  ⟨thermalTrimReference_completes, thermalTrimReading_completes, faultLogSave_completes,
    calibrationRecordSave_completes, calibrationAutoSave_completes, calibrationRecordWritten_completes⟩

end Sys2Proof.Machine
end

section
/-! # What a tree of changes that leaves one piece alone keeps -/

namespace Sys2Proof.Machine

/-- Every piece but one. -/
def Piece.but (p : Piece) : List Piece :=
  [.mem, .dict, .ev, .sys, .can, .pos, .codec, .comp, .tone, .fire, .link, .cam, .ill, .loop, .dram, .dma, .net, .time,
    .health, .bridle, .sec].filter (· ≠ p)

@[simp] theorem Piece.mem_but {p q : Piece} : q ∈ p.but ↔ q ≠ p := by
  simp only [Piece.but, List.mem_filter, decide_eq_true_eq, and_iff_right_iff_imp]
  intro _
  cases q <;> simp

theorem Piece.kept {p : Piece} {a : Act} (h : a.All (Prim.Fits p.but)) (s : State) : p.same s (a.run s) :=
  only_of_fits h s p (by simp)

theorem mem_kept {a : Act} (h : a.All (Prim.Fits (Piece.but .mem))) (s : State) : (a.run s).mem = s.mem := Piece.kept h s
theorem ev_kept {a : Act} (h : a.All (Prim.Fits (Piece.but .ev))) (s : State) : (a.run s).ev = s.ev := Piece.kept h s
theorem sys_kept {a : Act} (h : a.All (Prim.Fits (Piece.but .sys))) (s : State) : (a.run s).sys = s.sys := Piece.kept h s
theorem can_kept {a : Act} (h : a.All (Prim.Fits (Piece.but .can))) (s : State) : (a.run s).can = s.can := Piece.kept h s
theorem pos_kept {a : Act} (h : a.All (Prim.Fits (Piece.but .pos))) (s : State) : (a.run s).pos = s.pos := Piece.kept h s
theorem codec_kept {a : Act} (h : a.All (Prim.Fits (Piece.but .codec))) (s : State) : (a.run s).codec = s.codec :=
  Piece.kept h s
theorem comp_kept {a : Act} (h : a.All (Prim.Fits (Piece.but .comp))) (s : State) : (a.run s).comp = s.comp :=
  Piece.kept h s
theorem tone_kept {a : Act} (h : a.All (Prim.Fits (Piece.but .tone))) (s : State) : (a.run s).tone = s.tone :=
  Piece.kept h s
theorem fire_kept {a : Act} (h : a.All (Prim.Fits (Piece.but .fire))) (s : State) : (a.run s).fire = s.fire :=
  Piece.kept h s
theorem link_kept {a : Act} (h : a.All (Prim.Fits (Piece.but .link))) (s : State) : (a.run s).link = s.link :=
  Piece.kept h s
theorem cam_kept {a : Act} (h : a.All (Prim.Fits (Piece.but .cam))) (s : State) : (a.run s).cam = s.cam := Piece.kept h s
theorem ill_kept {a : Act} (h : a.All (Prim.Fits (Piece.but .ill))) (s : State) : (a.run s).ill = s.ill := Piece.kept h s
theorem loop_kept {a : Act} (h : a.All (Prim.Fits (Piece.but .loop))) (s : State) : (a.run s).loop = s.loop :=
  Piece.kept h s
theorem dram_kept {a : Act} (h : a.All (Prim.Fits (Piece.but .dram))) (s : State) : (a.run s).dram = s.dram :=
  Piece.kept h s
theorem dma_kept {a : Act} (h : a.All (Prim.Fits (Piece.but .dma))) (s : State) : (a.run s).dma = s.dma := Piece.kept h s
theorem net_kept {a : Act} (h : a.All (Prim.Fits (Piece.but .net))) (s : State) :
    (a.run s).net.flows = s.net.flows ∧ (a.run s).net.refetches = s.net.refetches
      ∧ (a.run s).net.challenges = s.net.challenges := Piece.kept h s
theorem time_kept {a : Act} (h : a.All (Prim.Fits (Piece.but .time))) (s : State) : (a.run s).time = s.time :=
  Piece.kept h s
theorem health_kept {a : Act} (h : a.All (Prim.Fits (Piece.but .health))) (s : State) : (a.run s).health = s.health :=
  Piece.kept h s
theorem bridle_kept {a : Act} (h : a.All (Prim.Fits (Piece.but .bridle))) (s : State) : (a.run s).bridle = s.bridle :=
  Piece.kept h s
theorem sec_kept {a : Act} (h : a.All (Prim.Fits (Piece.but .sec))) (s : State) : (a.run s).sec = s.sec := Piece.kept h s

/-- The primitive leaves what `g` reads of the state. -/
def Prim.Leaves {α : Type} (g : State → α) (p : Prim) : Prop := ∀ s : State, g (p.apply s) = g s

/-- What every primitive of a tree leaves, the tree leaves. -/
theorem Act.All.leaves {α : Type} {g : State → α} {a : Act} (h : a.All (Prim.Leaves g)) (s : State) :
    g (a.run s) = g s := Act.All.keeps g (fun _ s hp => hp s) h s

@[simp] theorem run_when_true (a : Act) (s : State) : (when true a).run s = a.run s := rfl

@[simp] theorem run_when_false (a : Act) (s : State) : (when false a).run s = s := rfl

theorem run_seqs_append (l₁ l₂ : List Act) (s : State) : (seqs (l₁ ++ l₂)).run s = (seqs l₂).run ((seqs l₁).run s) := by
  induction l₁ generalizing s with
  | nil => rfl
  | cons a l₁ ih => exact ih (a.run s)

/-- What one change of a sequence raises, the sequence raises where what comes before leaves CTL's readiness. -/
theorem raised_among {b : State} {l₁ l₂ : List Act} {a : Act} {n : List Nat} {P : Nat → Prop}
    (h₁ : (seqs l₁).All (Prim.Calm (· ≠ ctlKey))) (ha : ∀ s : State, s.reg ctlKey = b.reg ctlKey → s.raised n (a.run s))
    (h₂ : (seqs l₂).All (Prim.Calm P)) : b.raised n ((seqs (l₁ ++ a :: l₂)).run b) := by
  rw [run_seqs_append]
  exact raised_before (raised_after (h₁.reg_other b) (ha _ (h₁.reg_other b))) h₂

/-- What one change of a sequence sends is among the outputs after the sequence. -/
theorem sent_among {b : State} {l₁ l₂ : List Act} {a : Act} {o : Out} (ha : ∀ s : State, o ∈ (a.run s).out)
    (h₂ : (seqs l₂).All Prim.Inner) : o ∈ ((seqs (l₁ ++ a :: l₂)).run b).out := by
  rw [run_seqs_append]
  exact mem_out_inner h₂ (ha _)

theorem sent_send (o : Out) (s : State) : o ∈ ((send o).run s).out := by simp

/-! ### Writes that the dictionary admits and the owner refuses -/

theorem windowAbort_ne {q : Nat} (hq : q < K.WindowAbortCode ∨ K.WindowAbortCode + 8 ≤ q) {k : Nat} (hk : k < 8) :
    K.WindowAbortCode + k ≠ q := by
  simp only [K.WindowAbortCode] at *
  omega

theorem calm_recordRefusal {P : Nat → Prop} (h : ∀ k < 8, P (K.WindowAbortCode + k)) (p : WPath) (code : Nat) :
    (recordRefusal p code).All (Prim.Calm P) := by
  cases p <;> simp +contextual [recordRefusal, h]

theorem reg_recordRefusal {q : Nat} (hq : q < K.WindowAbortCode ∨ K.WindowAbortCode + 8 ≤ q) (p : WPath) (code : Nat)
    (s : State) : ((recordRefusal p code).run s).reg q = s.reg q :=
  (calm_recordRefusal (P := (· ≠ q)) (fun _ hk => windowAbort_ne hq hk) p code).reg_other s

theorem recordRefusal_raises (p : WPath) (code : Nat) (s : State) : s.raised [12] ((recordRefusal p code).run s) := by
  have hk : ∀ k < 8, K.WindowAbortCode + k ≠ ctlKey := fun k hk => windowAbort_ne (by decide) hk
  cases p
  case core k =>
    exact raised_tail (by simp +contextual [hk]) (raised_raise rfl _)
  all_goals exact raised_tail (by simp) (raised_raise rfl _)

/-- What an owner's refusal leaves: its own note, event 12 and the refusal's report. -/
def State.refusedBy (p : WPath) (code : Nat) (a : Act) (b : State) : State :=
  ((answer p code).run ((recordRefusal p code).run (a.run b))).notifySend

theorem run_writeBy_refusal {idx sub : Nat} {b : State} {w : Wr} {v code : Nat} {eff : Effect} {a : Act}
    (htake : b.takes idx sub w v) (heff : eff b { w with val := v } = ⟨code, a⟩) (hcode : code ≠ 0) :
    ((writeBy idx sub eff w).run b).notifySend = State.refusedBy w.path code a b := by
  rw [run_writeBy, judge_takes eff htake, heff]
  simp [enact, hcode, State.refusedBy]

theorem completes_refusal {c : Instr} {t idx sub : Nat} {w : Wr} {eff : Effect} {pre : State → Prop}
    {post : State → State → Prop} (hx : ∀ s, exec c s = perform t (writeBy idx sub eff w) s)
    (h : ∀ b, pre b → ∃ v a code, b.takes idx sub w v ∧ eff b { w with val := v } = ⟨code, a⟩ ∧ code ≠ 0
      ∧ post b (State.refusedBy w.path code a b)) : Completes c t pre post :=
  completes_of hx fun b _ hb => by
    obtain ⟨v, a, code, htake, heff, hcode, hpost⟩ := h b hb
    rwa [run_writeBy_refusal htake heff hcode]

@[simp] theorem reg_refusedBy {q : Nat} (hq : q < K.WindowAbortCode ∨ K.WindowAbortCode + 8 ≤ q) (p : WPath) (code : Nat)
    (a : Act) (b : State) : (State.refusedBy p code a b).reg q = (a.run b).reg q := by
  simp [State.refusedBy, reg_recordRefusal hq]

theorem raised_refusedBy {a : Act} (ha : a.All (Prim.Calm (· ≠ ctlKey))) (p : WPath) (code : Nat) (b : State) :
    b.raised [12] (State.refusedBy p code a b) :=
  raised_notifySend.mpr (raised_answer.mpr (raised_after (ha.reg_other b) (recordRefusal_raises p code _)))

theorem raised_refusedBy_own {a : Act} {b : State} {l : List Nat} (ha : b.raised l (a.run b)) (p : WPath) (code : Nat) :
    b.raised l (State.refusedBy p code a b) :=
  raised_notifySend.mpr (raised_answer.mpr (raised_before ha (calm_recordRefusal (P := fun _ => True) (by simp) p code)))

theorem only_refusedBy {a : Act} {l : List Piece} (hl : [.dict, .ev] ⊆ l) (ha : a.All (Prim.Fits l)) (p : WPath)
    (code : Nat) (b : State) : b.only l (State.refusedBy p code a b) :=
  only_sent_of_fits (a := .seq a (.seq (recordRefusal p code) (answer p code)))
    ⟨ha, fits_recordRefusal hl p code, fits_answer p code⟩ b

theorem refusedBy_of_fits {a : Act} {b : State} {p : WPath} {code : Nat} {pc : Piece} (ha : a.All (Prim.Fits pc.but))
    (hd : pc ≠ .dict) (he : pc ≠ .ev) : pc.same b (State.refusedBy p code a b) :=
  only_refusedBy (l := pc.but) (by simp [hd.symm, he.symm]) ha p code b pc (by simp)

end Sys2Proof.Machine
end

section
/-! # The colour loop's requests and the Holder's verdicts (R340–R347) -/

namespace Sys2Proof.Machine

@[simp] theorem run_setLoop (f : Loop → Loop) (s : State) : (setLoop f).run s = { s with loop := f s.loop } := rfl

@[simp] theorem all_setLoop (P : Prim → Prop) (f : Loop → Loop) : (setLoop f).All P ↔ P (.loop f) := Iff.rfl

@[simp] theorem run_setCopy (m : Int) (f : Copy → Copy) (s : State) : (setCopy m f).run s
    = { s with fire := { s.fire with copies := s.fire.copies.map fun c => if c.num = m then f c else c } } := rfl

@[simp] theorem calm_setCopy (P : Nat → Prop) (m : Int) (f : Copy → Copy) : (setCopy m f).All (Prim.Calm P) := trivial

@[simp] theorem inner_setCopy (m : Int) (f : Copy → Copy) : (setCopy m f).All Prim.Inner := trivial

@[simp] theorem calm_writeDram (P : Nat → Prop) (a : Nat) (l : List Nat) : (writeDram a l).All (Prim.Calm P) :=
  ⟨trivial, trivial⟩

/-- The registers that the loop's bookkeeping sets. -/
def loopKeys : List Nat :=
  [K.FreezeCause, K.LoopState, K.BankCommitState, K.BankCommitCopy] ++ (List.range 8).map (K.InkLoopState + ·)

@[simp] theorem calm_wantBuild (P : Nat → Prop) : wantBuild.All (Prim.Calm P) := by simp [wantBuild]

theorem calm_undoUpdate {P : Nat → Prop} (hs : P K.BankCommitState) (hc : P K.BankCommitCopy) :
    undoUpdate.All (Prim.Calm P) := fun s => by
  dsimp only
  split
  · trivial
  · simp [hs, hc]

theorem calm_syncLoop {P : Nat → Prop} (h : ∀ k ∈ loopKeys, P k) : syncLoop.All (Prim.Calm P) := by
  simp only [loopKeys, List.forall_mem_append, List.forall_mem_cons, List.forall_mem_map, List.mem_range] at h
  simp +contextual [syncLoop, calm_undoUpdate, h]

theorem reg_syncLoop {q : Nat} (hq : ∀ k ∈ loopKeys, k ≠ q) (s : State) : (syncLoop.run s).reg q = s.reg q :=
  (calm_syncLoop hq).reg_other s

theorem keeps_setLoop {α : Type} {g : Loop → α} {f : Loop → Loop} (h : ∀ x, g (f x) = g x) (T : α → Prop) :
    (setLoop f).Keeps fun s => T (g s.loop) := fun s hs => by
  show T (g (f s.loop))
  rwa [h]

theorem keeps_loop {a : Act} (h : a.All (Prim.Fits (Piece.but .loop))) (T : Loop → Prop) :
    a.Keeps fun s => T s.loop := fun s hs => by
  show T (a.run s).loop
  rwa [loop_kept h]

/-- The loop's bookkeeping changes its undo record and its count of causes, and nothing else of the loop. -/
theorem syncLoop_keeps {α : Type} {g : Loop → α} (hb : ∀ (x : Loop) n, g { x with broken := n } = g x)
    (hu : ∀ (x : Loop) n, g { x with undo := n } = g x) (s : State) : g (syncLoop.run s).loop = g s.loop := by
  have hundo : undoUpdate.Keeps fun u => g u.loop = g s.loop := by
    refine keeps_read fun u => ?_
    split
    · exact keeps_skip
    refine keeps_ite (fun _ => keeps_skip) fun _ => keeps_seqs ?_
    simp only [List.forall_mem_cons]
    exact ⟨keeps_loop (by simp) (fun x => g x = _), keeps_loop (by simp) (fun x => g x = _),
      keeps_setLoop (T := (· = _)) fun x => hu x _, 
      keeps_loop (by simp) (fun x => g x = _), keeps_loop (by simp) (fun x => g x = _), by simp⟩
  have hsync : syncLoop.Keeps fun u => g u.loop = g s.loop := by
    refine keeps_read fun u => keeps_seqs ?_
    simp only [List.forall_mem_cons]
    exact ⟨keeps_loop (by simp) (fun x => g x = _), keeps_setLoop (T := (· = _)) fun x => hb x _,
      keeps_when fun _ => hundo, keeps_loop (by simp) (fun x => g x = _), keeps_loop (by simp) (fun x => g x = _),
      keeps_loop (by simp) (fun x => g x = _), keeps_loop (by simp) (fun x => g x = _), by simp⟩
  exact hsync s rfl

theorem captureFrom_syncLoop (s : State) : (syncLoop.run s).loop.captureFrom = s.loop.captureFrom :=
  syncLoop_keeps (g := Loop.captureFrom) (fun _ _ => rfl) (fun _ _ => rfl) s

theorem held_syncLoop (s : State) : (syncLoop.run s).loop.held = s.loop.held :=
  syncLoop_keeps (g := Loop.held) (fun _ _ => rfl) (fun _ _ => rfl) s

theorem zoneCaptureRequest_completes (t : Nat) (w : Wr) :
    Completes (.zoneCaptureRequest t w) t (fun b => b.takes 0x2B00 0x12 w 1)
      fun b u => u.loop.captureFrom = List.replicate 8 (some (b.master.copies + 1)) ∧ u.loop.held = []
        ∧ b.only [.mem, .dict, .ev, .tone, .loop] u := completes_write (fun _ => rfl) fun b htake => by
  refine ⟨1, _, htake, if_neg (by simp), ?_, ?_, only_write (by simp) _ b⟩
  · simp [captureFrom_syncLoop, startCapture]
  · simp [held_syncLoop, startCapture]

theorem overlapCalibrationRequest_completes (t : Nat) (w : Wr) :
    Completes (.overlapCalibrationRequest t w) t (fun b => b.takes 0x2B00 0x13 w 1 ∧ isPrint b.mode = true)
      fun b u => u.loop = { b.loop with overlapOn := true, overlapFirst := none } ∧ b.only [.loop] u :=
  completes_write (fun _ => rfl) fun b ⟨htake, hprint⟩ => by
  refine ⟨1, setLoop fun x => { x with overlapOn := true, overlapFirst := none }, htake,
    by simp [effOverlapRequest, hprint], by simp, only_write (by simp) _ b⟩

theorem substitutionCalibrationRequest_completes (t : Nat) (w : Wr) :
    Completes (.substitutionCalibrationRequest t w) t (fun b => b.takes 0x2B00 0x14 w 1 ∧ isPrint b.mode = true)
      fun b u => u.loop = { b.loop with substOn := true } ∧ b.only [.loop] u :=
  completes_write (fun _ => rfl) fun b ⟨htake, hprint⟩ => by
  refine ⟨1, setLoop fun x => { x with substOn := true }, htake,
    by simp [effSubstRequest, hprint], by simp, only_write (by simp) _ b⟩

theorem wasteVerdict_completes (t : Nat) (c : Copy) (amended : Bool) :
    Completes (.wasteVerdict t) t (fun b => b.isHolder = true ∧ b.verdictNext = some (c, amended))
      fun b u => u.reg K.VerdictWriteIndex = bump 4 (b.reg K.VerdictWriteIndex)
        ∧ u.reg K.LastVerdictCopy = rawOf 8 c.num ∧ u.reg K.LastVerdictReasons = c.waste
        ∧ u.fire.copies = b.fire.copies.map (fun x => if x.num = c.num then { x with verdict := some c.waste } else x)
        ∧ (c.waste ≠ 0 → b.raised [89] u)
        ∧ b.regsBut [K.VerdictWriteIndex, K.LastVerdictCopy, K.LastVerdictReasons, K.WasteCopyCount,
          K.RejectLateCount] u
        ∧ b.only [.mem, .dict, .ev, .fire, .loop, .dram] u :=
  completes_of (fun _ => rfl) fun b _ ⟨hholder, hnext⟩ => by
  simp only [Act.run_read, hnext, Option.filter, hholder, if_true]
  refine ⟨?_, ?_, ?_, ?_, fun hwaste => ?_, regsBut_sent ?_ b, only_sent_of_fits ?_ b⟩
  · simp [-run_when, Act.All.reg_other]
  · simp [-run_when, Act.All.reg_other]
  · simp [-run_when, Act.All.reg_other]
  · simp [-run_when, fire_kept]
  · refine raised_notifySend.mpr (raised_among (P := fun _ => True) (l₁ := [_, _, _, _, _]) (by simp) (fun s _ => ?_) (by simp))
    rw [run_when, if_pos (by simpa using hwaste)]
    exact raised_raise rfl s
  · simp
  · simp

/-- Settles O31: references and calibrations start on request, and the Holder issues the next copy's verdict. -/
theorem loopCompletes : Obligations.LoopCompletes :=
  ⟨zoneCaptureRequest_completes, overlapCalibrationRequest_completes, substitutionCalibrationRequest_completes,
    wasteVerdict_completes⟩

end Sys2Proof.Machine
end

section
/-! # The illumination driver: pulses, gap lines, commits and the restart (R316–R328) -/

namespace Sys2Proof.Machine

@[simp] theorem run_setString (n : Nat) (f : Str → Str) (s : State) :
    (setString n f).run s = { s with ill := { s.ill with strings := modAt s.ill.strings n f } } := rfl

@[simp] theorem calm_setString (P : Nat → Prop) (n : Nat) (f : Str → Str) : (setString n f).All (Prim.Calm P) := trivial

@[simp] theorem inner_setString (n : Nat) (f : Str → Str) : (setString n f).All Prim.Inner := trivial

theorem calm_illEvent {P : Nat → Prop} {n : Nat} (h : P (K.IlluminationEventString + (n - 176))) (place : Nat) :
    (illEvent n place).All (Prim.Calm P) := ⟨h, trivial⟩

@[simp] theorem inner_illEvent (n place : Nat) : (illEvent n place).All Prim.Inner := ⟨trivial, trivial⟩

@[simp] theorem inner_faultOccurrence {owner : Act} (howner : owner.All Prim.Inner) (src event detail : Nat) :
    (faultOccurrence src event detail owner).All Prim.Inner := by
  simp [faultOccurrence, retireSource, faultTable, faultLog, howner]

@[simp] theorem inner_undoUpdate : undoUpdate.All Prim.Inner := fun s => by
  dsimp only
  split
  · trivial
  · simp [wantBuild]

@[simp] theorem inner_syncLoop : syncLoop.All Prim.Inner := by simp [syncLoop]

@[simp] theorem inner_columnFault (c event : Nat) : (columnFault c event).All Prim.Inner := by
  simp [columnFault, allOff, darken]

@[simp] theorem inner_lightValue (n sum count : Nat) (clip : Bool) : (lightValue n sum count clip).All Prim.Inner := by
  simp [lightValue, regulate]

@[simp] theorem inner_diagnose (n : Nat) (p : Pulse) (isns vsns : Nat) : (diagnose n p isns vsns).All Prim.Inner := fun s => by
  simp only [all_seqs_cons]
  refine ⟨trivial, trivial, trivial, ?_, trivial⟩
  split
  · simp [allOff, darken]
  · simp [settleRunning]

@[simp] theorem inner_settleFlash : settleFlash.All Prim.Inner := fun s => by
  dsimp only
  split
  · trivial
  split
  · trivial
  · cases s.passesAgree _ s.ill.flashGot <;> simp [calibrationCounted]

/-- The registers that a column's fault sets, up to everything going off (R316, R327). -/
def offKeys : List Nat :=
  [K.IlluminationState, K.OffCause, K.OffString, K.IlluminationInvalidSince, K.IlluminationEventString] ++ faultKeys
    ++ loopKeys

theorem calm_columnFault {P : Nat → Prop} (h : ∀ k ∈ offKeys, P k) (c event : Nat) :
    (columnFault c event).All (Prim.Calm P) := by
  simp only [offKeys, List.forall_mem_append, List.forall_mem_cons] at h
  obtain ⟨⟨⟨hstate, hcause, hstring, hsince, hevent, -⟩, hfault⟩, hloop⟩ := h
  have hoff : ∀ place since, (allOff 3 place since .skip).All (Prim.Calm P) := fun place since => by
    simp [allOff, darken, hstate, hcause, hstring, hsince, calm_illEvent, hevent, calm_syncLoop hloop]
  exact fun s => calm_faultOccurrence hfault (hoff _ _) _ _ _

@[simp] theorem calm_restartSource (P : Nat → Prop) (src : Nat) : (restartSource src).All (Prim.Calm P) := by
  simp [restartSource, faultTable]

theorem isRetired_restartSource (src x : Nat) (s : State) :
    ((restartSource src).run s).isRetired x = (s.isRetired x && decide (x ≠ src)) := by
  simp [restartSource, faultTable, State.isRetired, setWindow]

theorem illEvent_raises {n : Nat} (hk : K.IlluminationEventString + (n - 176) ≠ ctlKey) (hn : reservedEvent n = false)
    (place : Nat) (s : State) : s.raised [n] ((illEvent n place).run s) :=
  raised_after (u := (put _ place).run s) (by simp [hk.symm]) (raised_raise hn _)

theorem calm_undiagnose {P : Nat → Prop} {n : Nat} (hs : P (stringKey K.StringState n))
    (he : P (K.IlluminationEventString + 3)) : (undiagnose n).All (Prim.Calm P) := by
  simp [undiagnose, hs, calm_illEvent, he]

theorem leavesPulses_settleFlash : settleFlash.All (Prim.Leaves fun u => u.ill.pulses) := fun s => by
  dsimp only
  split
  · trivial
  split
  · exact fun _ => rfl
  · cases s.passesAgree _ s.ill.flashGot <;> simp [calibrationCounted, Prim.Leaves]

theorem pulseEnd_completes (t c sum n isns vsns vend : Nat) (clip : Bool) (p : Pulse) (rest : List Pulse) :
    Completes (.pulseEnd t c sum n clip isns vsns vend) t (fun b => b.ill.pulses.getD c [] = p :: rest)
      fun b u => .ball (.gate c) 0 ∈ u.out ∧ (rest = [] → .ball (.row p.row) 0 ∈ u.out)
        ∧ (p.width < 2000 → u.ill.pulses = b.ill.pulses.set c rest)
        ∧ b.only [.mem, .dict, .ev, .health, .tone, .loop, .ill] u :=
  completes_of (fun _ => rfl) fun b _ hpulses => by
  simp only [Act.run_read, hpulses]
  refine ⟨mem_out_notifySend ?_, fun hrest => mem_out_notifySend ?_, fun hwidth => ?_, only_sent_of_fits (by simp) b⟩
  · exact sent_among (l₁ := [_]) (sent_send _) (by simp)
  · exact sent_among (l₁ := [_, _]) (by simp [hrest]) (by simp)
  · rw [State.notifySend_ill, run_seqs_cons]
    refine (Act.All.leaves (g := fun u => u.ill.pulses) ?_ _).trans rfl
    simp [-run_when, Prim.Leaves, Nat.not_le.mpr hwidth, lightValue, regulate, setString,
      leavesPulses_settleFlash, illEvent]

theorem stageCurrentFault_completes (t c : Nat) :
    c < 16 →
    Completes (.stageCurrentFault t c) t (fun _ => True)
      fun b u => .ball (.gate c) 0 ∈ u.out ∧ b.raised [180] u
        ∧ b.only [.mem, .dict, .ev, .health, .tone, .loop, .ill] u :=
  fun hc => completes_of (fun _ => rfl) fun b _ _ => by
  rw [run_when, if_pos (by simpa using hc)]
  refine ⟨mem_out_notifySend ?_, raised_notifySend.mpr ?_, only_sent_of_fits (by simp) b⟩
  · exact sent_among (l₁ := []) (sent_send _) (by simp)
  · exact raised_among (P := fun _ => True) (l₁ := [_, _]) (by simp)
      (fun s _ => illEvent_raises (by decide) rfl _ s) (by simp [calm_columnFault])

theorem gapLinePulse_confirms (t n : Nat) (rest : List Nat) :
    Completes (.gapLinePulse t) t
      (fun b => b.illWorks = true ∧ b.isHolder = true ∧ b.ill.confirm = n :: rest)
      fun b u => u.reg K.DiagnosticPulses = (b.reg K.DiagnosticPulses + 1) % 2 ^ 32
        ∧ .ball (.row (n % 8)) 1 ∈ u.out ∧ .ball (.gate (n / 8)) 1 ∈ u.out
        ∧ u.ill.openAt = b.now + b.illConf.precharge + b.illConf.delay + 2000 + b.illConf.release
        ∧ b.regsBut [K.DiagnosticPulses] u ∧ b.only [.dict, .ill] u :=
  completes_of (fun _ => rfl) fun b _ ⟨hworks, hholder, hconfirm⟩ => by
  simp only [Act.run_read, hworks, hholder, hconfirm, Bool.not_true, Bool.or_self, Bool.false_eq_true, if_false]
  refine ⟨by simp [gapPulses], ?_, ?_, by simp [gapPulses, State.illConf], regsBut_sent (by simp [gapPulses]) b,
    only_sent_of_fits (by simp) b⟩
  · exact mem_out_notifySend (by simp [gapPulses])
  · exact mem_out_notifySend (by simp [gapPulses])

theorem gapLinePulse_takesRow (t r : Nat) (rest : List Nat) :
    Completes (.gapLinePulse t) t
      (fun b => b.illWorks = true ∧ b.isHolder = true ∧ b.ill.confirm = [] ∧ b.ill.queue = r :: rest)
      fun b u => u.ill.queue = b.ill.queue.filter (· != rest.foldl min r)
        ∧ u.reg K.DiagnosticPulses
          = (b.reg K.DiagnosticPulses + (b.rowStrings (rest.foldl min r)).length) % 2 ^ 32
        ∧ b.regsBut [K.DiagnosticPulses] u ∧ b.only [.dict, .ill] u :=
  completes_of (fun _ => rfl) fun b _ ⟨hworks, hholder, hconfirm, hqueue⟩ => by
  simp only [Act.run_read, hworks, hholder, hconfirm, hqueue, Bool.not_true, Bool.or_self, Bool.false_eq_true, if_false]
  refine ⟨by simp [gapPulses, ill_kept, hqueue], ?_, regsBut_sent (by simp [gapPulses]) b, only_sent_of_fits (by simp) b⟩
  simp [gapPulses, Act.All.reg_other]

theorem diagnosticRound_completes (t : Nat) :
    Completes (.diagnosticRound t) t (fun b => b.illWorks = true ∧ b.isHolder = true)
      fun b u =>
        let due := (List.range 8).filter fun r =>
          b.ill.queue.contains r || (List.range 16).any fun c => b.needsPulse (8 * c + r)
        u.ill = { b.ill with queue := due } ∧ b.only [.ill] u :=
  completes_of (fun _ => rfl) fun b _ ⟨hworks, hholder⟩ => by
  simp only [Act.run_read, hworks, hholder, Bool.and_self]
  exact ⟨by simp, only_sent_of_fits (by simp) b⟩

theorem illuminationCommit_completes (t : Nat) (w : Wr) :
    Completes (.illuminationCommit t w) t (fun b => b.takes 0x2A00 2 w 1 ∧ b.illRefusal b.illStaged = 0)
      fun b u => u.ill = { b.ill with next := some b.illStaged } ∧ u.reg K.IlluminationCommitRefusal = 0
        ∧ b.only [.mem, .dict, .ev, .tone, .loop, .ill] u := completes_write (fun _ => rfl) fun b ⟨htake, hcode⟩ => by
  refine ⟨1, _, htake, by simp only [effIllCommit, hcode]; rfl, ?_, ?_, only_write (by simp) _ b⟩
  · simp [-run_when, ill_kept]
  · simp [-run_when, reg_syncLoop (q := K.IlluminationCommitRefusal) (by decide), Act.All.reg_other]

theorem illuminationCommit_refused (t : Nat) (w : Wr) :
    Completes (.illuminationCommit t w) t (fun b => b.takes 0x2A00 2 w 1 ∧ b.illRefusal b.illStaged ≠ 0)
      fun b u => u.reg K.IlluminationCommitRefusal = b.illRefusal b.illStaged ∧ b.raised [12] u ∧ b.only [.dict, .ev] u :=
  completes_refusal (fun _ => rfl) fun b ⟨htake, hcode⟩ => by
  refine ⟨1, put K.IlluminationCommitRefusal (b.illRefusal b.illStaged), abMode, htake, by simp [effIllCommit, hcode],
    by decide, (reg_refusedBy (by decide) _ _ _ _).trans (by simp),
    raised_refusedBy (by simp) _ _ b, only_refusedBy (by simp) (by simp) _ _ b⟩

theorem columns_restarted {c : Nat} (hc : c < 16) (s : State) :
    ((each (List.range 16) fun c => restartSource (faultSource 3 c)).run s).isRetired (faultSource 3 c) = false :=
  each_makes (P := fun u => u.isRetired (faultSource 3 c) = false) (List.mem_range.mpr hc)
    (fun y _ u hu => by rw [isRetired_restartSource, hu, Bool.false_and])
    (fun u => by simp [isRetired_restartSource]) s

theorem illuminationRestart_completes (t : Nat) (w : Wr) :
    Completes (.illuminationRestart t w) t
      (fun b => b.takes 0x2A00 0x0D w 1 ∧ b.mode ≤ 2 ∧ b.reg K.IlluminationState = 3)
      fun b u => u.reg K.IlluminationState = 1 ∧ u.reg K.OffCause = 0
        ∧ (∀ c < 16, u.isRetired (faultSource 3 c) = false)
        ∧ b.only [.mem, .dict, .ev, .health, .tone, .loop, .ill] u :=
  completes_write (fun _ => rfl) fun b ⟨htake, hmode, hoff⟩ => by
  refine ⟨1, _, htake, (if_neg (by simp [hoff, hmode])).trans (if_neg fun h => h rfl), ?_, ?_, fun c hc => ?_,
    only_write (by simp) _ b⟩
  · simp [-run_when, reg_syncLoop (q := K.IlluminationState) (by decide)]
  · have hkey : ∀ n, stringKey K.StringState n ≠ K.OffCause := fun n => by
      simp only [stringKey, K.StringState, K.OffCause]
      omega
    simp (decide := true) [-run_when, reg_syncLoop (q := K.OffCause) (by decide), Act.All.reg_other, calm_undiagnose, hkey]
  · rw [State.isRetired, State.notifySend_health, answer_health, run_seqs_cons, health_kept (by simp), ← State.isRetired]
    exact columns_restarted hc b

/-- Settles O30: pulses end, gap lines carry their pulses, and the driver takes its configurations. -/
theorem illuminationCompletes : Obligations.IlluminationCompletes :=
  ⟨pulseEnd_completes, stageCurrentFault_completes, gapLinePulse_confirms, gapLinePulse_takesRow,
    diagnosticRound_completes, illuminationCommit_completes, illuminationCommit_refused, illuminationRestart_completes⟩

end Sys2Proof.Machine
end

section
/-! # Mirroring, takeover and return of a Bridle pair (R446–R454) -/

namespace Sys2Proof.Machine

@[simp] theorem run_syncPair (s : State) : syncPair.run s
    = { s with dict := SMap.put s.dict K.PairReady (if s.pairReadyNow then 1 else 0) } := rfl

/-- A mirror record changes the alignment at most: not where the sequence stands. -/
theorem mirrorApply_keeps_sequence (full : Bool) (kind : Nat) (d : List Nat) (s : State) :
    ((mirrorApply full kind d).run s).bridle.mirrorIn = s.bridle.mirrorIn
      ∧ ((mirrorApply full kind d).run s).bridle.resync = s.bridle.resync := by
  unfold mirrorApply
  split
  · refine ⟨Act.All.leaves (g := fun u => u.bridle.mirrorIn) ?_ s, Act.All.leaves (g := fun u => u.bridle.resync) ?_ s⟩
      <;> simp [mirrorPosition, Prim.Leaves, setChan]
  all_goals rw [bridle_kept (by simp)]; exact ⟨rfl, rfl⟩

theorem calm_watchReturn {P : Nat → Prop} (hrole : P K.BridleRole) (hcopy : P K.ReturnCopyPending) :
    watchReturn.All (Prim.Calm P) := by simp [watchReturn, cancelReturn, hrole, hcopy]

theorem reg_watchReturn {q : Nat} (hrole : K.BridleRole ≠ q) (hcopy : K.ReturnCopyPending ≠ q) (s : State) :
    (watchReturn.run s).reg q = s.reg q :=
  (calm_watchReturn (P := (· ≠ q)) hrole hcopy).reg_other s

theorem watchReturn_keeps_sequence (s : State) : (watchReturn.run s).bridle.mirrorIn = s.bridle.mirrorIn
    ∧ (watchReturn.run s).bridle.resync = s.bridle.resync := by
  simp [-run_when, watchReturn, cancelReturn, bridle_kept]

theorem mirrorRecords_keep_sequence (full : Bool) (l : List (Nat × List Nat)) (s : State) :
    ((each l fun r => mirrorApply full r.1 r.2).run s).bridle.mirrorIn = s.bridle.mirrorIn
      ∧ ((each l fun r => mirrorApply full r.1 r.2).run s).bridle.resync = s.bridle.resync :=
  each_keeps (P := fun u => u.bridle.mirrorIn = s.bridle.mirrorIn ∧ u.bridle.resync = s.bridle.resync)
    (fun r _ u hu => ⟨(mirrorApply_keeps_sequence full r.1 r.2 u).1.trans hu.1,
      (mirrorApply_keeps_sequence full r.1 r.2 u).2.trans hu.2⟩) ⟨rfl, rfl⟩

/-- A peer heard before and silent for three claim intervals is found absent. -/
theorem peer_silent {b : State} (hrole : b.reg K.BridleRole ≠ 0) (habsent : b.bridle.absent = false)
    (hheard : ∃ a, some a ∈ b.bridle.heard) (hsilent : ∀ a, some a ∈ b.bridle.heard → a + b.threeClaims ≤ b.now) :
    ¬(b.reg K.BridleRole = 0 || b.bridle.absent || (b.bridle.heard.filterMap id).isEmpty
      || (b.bridle.heard.filterMap id).any (fun u => b.now < u + b.threeClaims)) = true := by
  obtain ⟨a, ha⟩ := hheard
  have hne : (b.bridle.heard.filterMap id).isEmpty = false := by
    rw [List.isEmpty_eq_false_iff_exists_mem]
    exact ⟨a, List.mem_filterMap.mpr ⟨some a, ha, rfl⟩⟩
  have hold : ∀ u ∈ b.bridle.heard.filterMap id, u + b.threeClaims ≤ b.now := fun u hu => hsilent u (by simpa using hu)
  generalize b.bridle.heard.filterMap id = l at hne hold
  simpa [hrole, habsent, hne] using hold

/-- The copies begun at the rows that fire are wasted when the outputs change hands (R449). -/
def takeOverRows (s : State) : Act :=
  each s.firingRows fun p =>
    match s.rowStart p.1 p.2.1 p.2.2 with
    | some (m, _) => wasteCopy m wBridle
    | none => .skip

theorem takeOver_eq : takeOver = .read fun s => seqs [
    cancelReturn,
    put K.ClaimActual (s.reg K.ConfiguredClaim),
    sendClaim, sendHeartbeat, send (.ball .claimOut 1),
    .prim (.bridle fun b => { b with guardEnd := some (s.now + s.reg K.TakeoverGuard), cleared := [] }),
    takeOverRows s ] := rfl

theorem all_takeOverRows {P : Prim → Prop} (h : ∀ m, (wasteCopy m wBridle).All P) (s : State) : (takeOverRows s).All P :=
  all_each fun p _ => by
    split
    · exact h _
    · trivial

@[simp] theorem calm_takeOverRows (P : Nat → Prop) (s : State) : (takeOverRows s).All (Prim.Calm P) :=
  all_takeOverRows (fun _ => by simp [wasteCopy, markWaste]) s

@[simp] theorem inner_takeOverRows (s : State) : (takeOverRows s).All Prim.Inner :=
  all_takeOverRows (fun _ => by simp [wasteCopy, markWaste]) s

@[simp] theorem fits_takeOverRows (s : State) : (takeOverRows s).All (Prim.Fits [.fire]) :=
  all_takeOverRows (fun _ => by simp) s

theorem calm_sendHeartbeat (P : Nat → Prop) : sendHeartbeat.All (Prim.Calm P) := by simp [sendHeartbeat, sendPeer]

theorem cancelReturn_role {s : State} (h : s.reg K.BridleRole = 3 ∨ s.reg K.BridleRole = 4) :
    (cancelReturn.run s).reg K.BridleRole = 3 := by
  rcases h with h | h <;> simp [cancelReturn, h]

theorem bridle_takeOver (s : State) : (takeOver.run s).bridle.absent = s.bridle.absent
    ∧ (takeOver.run s).bridle.guardEnd = some (s.now + s.reg K.TakeoverGuard) := by
  have hrows : ∀ u v : State, ((takeOverRows u).run v).bridle = v.bridle :=
    fun u v => only_of_fits (fits_takeOverRows u) v .bridle (by decide)
  simp [-run_when, takeOver_eq, hrows, sendHeartbeat, sendPeer, bridle_kept, cancelReturn]

theorem reg_takeOver_claim (s : State) : (takeOver.run s).reg K.ClaimActual = s.reg K.ConfiguredClaim := by
  simp [-run_when, takeOver_eq, Act.All.reg_other, calm_sendHeartbeat, calm_sendClaim]

theorem reg_takeOver_role {s : State} (h : s.reg K.BridleRole = 3 ∨ s.reg K.BridleRole = 4) :
    (takeOver.run s).reg K.BridleRole = 3 := by
  simp [-run_when, takeOver_eq, Act.All.reg_other, calm_sendHeartbeat, calm_sendClaim, cancelReturn_role, h]

theorem calm_takeOver {P : Nat → Prop} (hclaim : P K.ClaimActual) (hrole : P K.BridleRole)
    (hcopy : P K.ReturnCopyPending) : takeOver.All (Prim.Calm P) := by
  simp [takeOver_eq, cancelReturn, hclaim, hrole, hcopy, calm_sendHeartbeat, calm_sendClaim]

theorem heartbeat_claim (s : State) : field s.heartbeat 3 1 = s.reg K.ClaimActual % 256 := by
  simp [State.heartbeat, field, leBytes, leNat]

theorem takeOver_sends (s : State) : .ball .claimOut 1 ∈ (takeOver.run s).out
    ∧ ∃ d, .bridle true d ∈ (takeOver.run s).out ∧ field d 3 1 = s.reg K.ConfiguredClaim % 256 := by
  rw [takeOver_eq, Act.run_read]
  refine ⟨sent_among (l₁ := [_, _, _, _]) (sent_send _) (by simp), ?_⟩
  rw [run_seqs_three]
  obtain ⟨u, hu⟩ : ∃ u, u = sendClaim.run ((put K.ClaimActual (s.reg K.ConfiguredClaim)).run (cancelReturn.run s)) :=
    ⟨_, rfl⟩
  rw [← hu]
  refine ⟨u.heartbeat, mem_out_seqs ?_ (by simp), ?_⟩
  · exact mem_out_seqs (sent_send _ u) (by simp [sendPeer])
  · rw [heartbeat_claim, hu]
    simp [Act.All.reg_other, calm_sendClaim]


theorem mirrorFrame_completes (t : Nat) (d : List Nat) :
    let mirrored := fun (b : State) => b.sys.dictReady = true ∧ (b.reg K.BridleRole = 3 ∨ b.reg K.BridleRole = 4)
      ∧ field d 0 2 = 0x4D42 ∧ field d 2 1 = 0x10
    Completes (.mirrorFrame t d) t
      (fun b => mirrored b ∧ bit (field d 3 1) 0 = false
        ∧ ∀ q, b.bridle.mirrorIn = some q → field d 4 4 ≠ (q + 1) % 2 ^ 32)
      (fun b u => u.bridle.resync = true ∧ u.bridle.mirrorIn = none ∧ u.reg K.MirrorCompleteFlag = 0
        ∧ u.reg K.BridleRole = 3
        ∧ (b.bridle.resync = false → u.reg K.MirrorResyncs = (b.reg K.MirrorResyncs + 1) % 2 ^ 32)
        ∧ b.only [.dict, .bridle] u)
    ∧ Completes (.mirrorFrame t d) t
      (fun b => mirrored b ∧ (bit (field d 3 1) 0 = true ∨ ∃ q, b.bridle.mirrorIn = some q ∧ field d 4 4 = (q + 1) % 2 ^ 32))
      (fun b u => u.bridle.mirrorIn = some (field d 4 4) ∧ u.bridle.resync = false
        ∧ (∀ data, mirrorSplit d.length (d.drop 8) = [(5, data)] → u.reg K.NextSerial = field data 0 8
          ∧ u.reg K.LastIssuedSerial = field data 8 8 ∧ u.reg K.LastIssuedCopy = field data 16 8
          ∧ b.only [.dict, .bridle] u)
        ∧ b.only [.mem, .dict, .ev, .sys, .pos, .comp, .tone, .fire, .loop, .dram, .time, .bridle] u) := by
  refine ⟨completes_of (fun _ => rfl) fun b _ ⟨⟨hdict, hrole, hmark, hversion⟩, hfull, hgap⟩ => ?_,
    completes_of (fun _ => rfl) fun b _ ⟨⟨hdict, hrole, hmark, hversion⟩, hin⟩ => ?_⟩
  · simp only [Act.run_read]
    rw [run_ite_of_not (by rcases hrole with h | h <;> simp [h, hdict, hmark, hversion]), run_ite_of (by
      cases hm : b.bridle.mirrorIn with
      | none => simp [hfull]
      | some q => simpa [hfull] using hgap q hm)]
    refine ⟨?_, ?_, ?_, ?_, fun hres => ?_, only_sent_of_fits (by simp) b⟩
    · simp [-run_when, cancelReturn, mirrorLost, bridle_kept]
    · simp [-run_when, cancelReturn, mirrorLost, bridle_kept]
    · simp [-run_when, cancelReturn, mirrorLost, Act.All.reg_other]
    · simp [-run_when, mirrorLost, Act.All.reg_other, cancelReturn_role, hrole]
    · simp [-run_when, cancelReturn, mirrorLost, Act.All.reg_other, hres]
  · simp only [Act.run_read]
    rw [run_ite_of_not (by rcases hrole with h | h <;> simp [h, hdict, hmark, hversion]),
      run_ite_of_not (by rcases hin with hf | ⟨q, hm, hq⟩ <;> simp [*])]
    refine ⟨?_, ?_, fun data hsplit => ⟨?_, ?_, ?_, ?_⟩, only_sent_of_fits (by simp) b⟩
    · simp [watchReturn_keeps_sequence, mirrorRecords_keep_sequence]
    · simp [watchReturn_keeps_sequence, mirrorRecords_keep_sequence]
    · simp [hsplit, mirrorApply, mirrorSerial, reg_watchReturn (q := K.NextSerial) (by decide) (by decide)]
    · simp [hsplit, mirrorApply, mirrorSerial, reg_watchReturn (q := K.LastIssuedSerial) (by decide) (by decide)]
    · simp [hsplit, mirrorApply, mirrorSerial, reg_watchReturn (q := K.LastIssuedCopy) (by decide) (by decide)]
    · rw [hsplit]
      exact only_sent_of_fits (by simp [mirrorApply]) b

theorem peerAbsent_completes (t : Nat) :
    let silent := fun (b : State) => b.reg K.BridleRole ≠ 0 ∧ b.bridle.absent = false ∧ (∃ a, some a ∈ b.bridle.heard)
      ∧ ∀ a, some a ∈ b.bridle.heard → a + b.threeClaims ≤ b.now
    let takes := fun (b : State) => (b.reg K.BridleRole = 3 ∨ b.reg K.BridleRole = 4) ∧ b.flag K.PairReady = true
      ∧ b.bridle.guardEnd = none
    Completes (.peerAbsent t) t (fun b => silent b ∧ ¬ takes b)
      (fun b u => u.bridle = { b.bridle with absent := true } ∧ b.raised [250] u
        ∧ b.only [.ev, .bridle] u)
    ∧ Completes (.peerAbsent t) t (fun b => silent b ∧ takes b)
      (fun b u => u.bridle.absent = true ∧ u.reg K.ClaimActual = b.reg K.ConfiguredClaim ∧ u.reg K.BridleRole = 3
        ∧ u.bridle.guardEnd = some (b.now + b.reg K.TakeoverGuard) ∧ .ball .claimOut 1 ∈ u.out
        ∧ (∃ d, .bridle true d ∈ u.out ∧ field d 3 1 = b.reg K.ConfiguredClaim % 256) ∧ b.raised [250] u
        ∧ b.only [.dict, .ev, .link, .fire, .bridle] u) :=
  ⟨completes_of (fun _ => rfl) fun b _ ⟨⟨hrole, habsent, hheard, hsilent⟩, htakes⟩ => by
    simp only [Act.run_read]
    rw [run_ite_of_not (peer_silent hrole habsent hheard hsilent)]
    have hno : ((b.reg K.BridleRole == 3 || b.reg K.BridleRole == 4) && b.flag K.PairReady && b.bridle.guardEnd.isNone)
        = false := by
      simpa [and_assoc, ← Option.ne_none_iff_isSome] using htakes
    rw [hno]
    exact ⟨by simp, raised_notifySend.mpr (raised_tail (by simp) (raised_raise rfl _)), only_sent_of_fits (by simp) b⟩,
  completes_of (fun _ => rfl) fun b _ ⟨⟨hrole, habsent, hheard, hsilent⟩, hstandby, hready, hguard⟩ => by
    simp only [Act.run_read]
    rw [run_ite_of_not (peer_silent hrole habsent hheard hsilent)]
    have hyes : ((b.reg K.BridleRole == 3 || b.reg K.BridleRole == 4) && b.flag K.PairReady && b.bridle.guardEnd.isNone)
        = true := by
      rcases hstandby with h | h <;> simp [h, hready, hguard]
    rw [hyes]
    refine and_assoc.mp (and_assoc.mp (and_assoc.mp (and_assoc.mp (and_assoc.mp (and_assoc.mp ⟨?_, only_sent_of_fits (by simp) b⟩)))))
    rw [run_seqs_three, run_seqs_nil, run_when_true]
    obtain ⟨u, hu⟩ : ∃ u, u = (raise 250).run ((Act.prim (.bridle fun x => { x with absent := true })).run b) := ⟨_, rfl⟩
    have hreg : ∀ q, u.reg q = b.reg q := fun q => by simp [hu]
    have hraised : b.raised [250] u := hu ▸ raised_after
      (u := (Act.prim (.bridle fun x => { x with absent := true })).run b) rfl (raised_raise rfl _)
    rw [← hu]
    refine ⟨⟨⟨⟨⟨⟨?_, ?_⟩, ?_⟩, ?_⟩, ?_⟩, ?_⟩, ?_⟩
    · simp [bridle_takeOver, hu]
    · simp [reg_takeOver_claim, hreg]
    · simp [reg_takeOver_role, hreg, hstandby]
    · simp [bridle_takeOver, hu]
    · exact mem_out_notifySend (takeOver_sends u).1
    · obtain ⟨d, hd, hclaim⟩ := (takeOver_sends u).2
      exact ⟨d, mem_out_notifySend hd, hclaim.trans (by rw [hreg])⟩
    · exact raised_notifySend.mpr (raised_before (P := fun _ => True) hraised (by simp [calm_takeOver]))⟩

theorem takeoverGuardEnd_completes (t e : Nat) :
    Completes (.takeoverGuardEnd t) t
      (fun b => b.bridle.guardEnd = some e ∧ e ≤ b.now
        ∧ ∀ l ∈ b.sharedLinks, b.linkUp l = true → b.bridle.cleared.contains l = true)
      fun b u => u.reg K.BridleRole = 2 ∧ u.bridle.guardEnd = none
        ∧ u.reg K.NextSerial = (b.reg K.LastIssuedSerial + 1 + b.reg K.SerialTakeoverSkip) % 2 ^ 64
        ∧ u.reg K.TakeoverCount = (b.reg K.TakeoverCount + 1) % 2 ^ 32
        ∧ u.bridle.resumeFrom = b.ptp + b.reg K.IssueLead * 65536 ∧ b.raised [248] u
        ∧ b.only [.mem, .dict, .ev, .tone, .loop, .bridle] u :=
  completes_of (fun _ => rfl) fun b _ ⟨hguard, hdue, hcleared⟩ => by
  have hlinks : (b.sharedLinks.filter fun l => b.linkUp l && !b.bridle.cleared.contains l) = [] := by
    refine List.filter_eq_nil_iff.mpr fun l hl => ?_
    by_cases hup : b.linkUp l = true
    · simpa [hup] using hcleared l hl hup
    · simp [hup]
  simp only [Act.run_read, hguard]
  rw [run_ite_of_not (by omega), hlinks]
  refine ⟨?_, ?_, ?_, ?_, ?_, ?_, only_sent_of_fits (by simp) b⟩
  · simp [mirrorLost, reg_syncLoop (q := K.BridleRole) (by decide)]
  · simp [mirrorLost, bridle_kept]
  · simp [mirrorLost, reg_syncLoop (q := K.NextSerial) (by decide)]
  · simp [mirrorLost, reg_syncLoop (q := K.TakeoverCount) (by decide)]
  · simp [mirrorLost, bridle_kept]
  · refine raised_notifySend.mpr (raised_among (P := fun _ => True) (l₁ := [_, _, _, _, _, _, _]) (by simp [mirrorLost]) (fun s _ => raised_raise rfl s) (by simp [syncPair, calm_syncLoop]))

theorem returnPair_completes (t u0 : Nat) :
    Completes (.returnPair t) t
      (fun b => b.reg K.BridleRole = 3 ∧ b.flag K.ReturnEnable = true
        ∧ field b.bridle.peer 4 1 < b.reg K.ConfiguredClaim ∧ b.bridle.healthySince = some u0
        ∧ u0 + b.reg K.ReturnHealthyTime * 1000000 ≤ b.now ∧ b.healthy = true
        ∧ b.flag K.MirrorCompleteFlag = true ∧ b.bridle.guardEnd = none ∧ b.bridle.absent = false)
      fun b u => u.reg K.BridleRole = 4 ∧ u.reg K.ReturnCopyPending = rawOf 8 b.eligibleCopy
        ∧ b.regsBut [K.BridleRole, K.ReturnCopyPending] u ∧ b.only [.dict] u :=
  completes_of (fun _ => rfl) fun b _ ⟨hrole, henable, hclaim, hsince, hlong, hhealthy, hcomplete, hguard, habsent⟩ => by
  simp only [Act.run_read, hsince]
  rw [run_when, if_pos (by simp [hrole, henable, hclaim, hlong, hhealthy, hcomplete, hguard, habsent])]
  exact ⟨by simp, by simp, regsBut_sent (by simp) b, only_sent_of_fits (by simp) b⟩

/-- Settles O43: a mirror frame applies in order, and a Standby takes over, leads on and returns. -/
theorem takeoversComplete : Obligations.TakeoversComplete :=
  ⟨mirrorFrame_completes, peerAbsent_completes, takeoverGuardEnd_completes, returnPair_completes⟩

end Sys2Proof.Machine
end

section
/-! # The DMA engine: start, bursts, stop, timers and requests (R379–R393) -/

namespace Sys2Proof.Machine

/-! ### Keys and channels -/

theorem dmaKey_ne {a b : Nat} (h : a % 4096 ≠ b % 4096) (c d : Nat) : dmaKey a c ≠ dmaKey b d := by
  simp only [dmaKey]
  omega

theorem dmaKey_ne_low {a q : Nat} (h : q < a) (c : Nat) : dmaKey a c ≠ q := by
  simp only [dmaKey]
  omega

theorem dmaChan_of_dma {s u : State} (h : u.dma = s.dma) (c : Nat) : u.dmaChan c = s.dmaChan c := by
  rw [State.dmaChan, h, ← State.dmaChan]

@[simp] theorem dmaChan_notifySend (s : State) (c : Nat) : s.notifySend.dmaChan c = s.dmaChan c := dmaChan_of_dma (by simp) c

@[simp] theorem dmaChan_answer (p : WPath) (code : Nat) (s : State) (c : Nat) :
    ((answer p code).run s).dmaChan c = s.dmaChan c := dmaChan_of_dma (by simp) c

@[simp] theorem dmaStatus_notifySend (s : State) (c : Nat) : s.notifySend.dmaStatus c = s.dmaStatus c := by
  simp [State.dmaStatus]

@[simp] theorem dmaStatus_answer (p : WPath) (code : Nat) (s : State) (c : Nat) :
    ((answer p code).run s).dmaStatus c = s.dmaStatus c := by simp [State.dmaStatus]

theorem dmaChan_kept {a : Act} (h : a.All (Prim.Fits (Piece.but .dma))) (s : State) (c : Nat) :
    (a.run s).dmaChan c = s.dmaChan c := dmaChan_of_dma (dma_kept h s) c

theorem dmaChan_setDma {s : State} {c : Nat} (h : c < s.dma.chans.length) (f : DmaChan → DmaChan) :
    ((setDma c f).run s).dmaChan c = f (s.dmaChan c) := by
  simp [setDma, State.dmaChan, h]

/-- A channel that is not there reads as a fresh one, also once it is set to be one. -/
theorem dmaChan_setDma_fresh (c : Nat) (s : State) : ((setDma c fun _ => {}).run s).dmaChan c = {} := by
  by_cases h : c < s.dma.chans.length
  · exact dmaChan_setDma h _
  · simp [setDma, State.dmaChan, h]

@[simp] theorem calm_setDma (P : Nat → Prop) (c : Nat) (f : DmaChan → DmaChan) : (setDma c f).All (Prim.Calm P) := trivial

/-! ### The end of a run -/

theorem calm_dmaEnd {P : Nat → Prop} {c : Nat} (hs : P (dmaKey K.DmaChannelStatus c)) (hl : P (dmaKey K.LastCause c))
    (status cause : Nat) : (dmaEnd c status cause).All (Prim.Calm P) := by
  simp [dmaEnd, dmaCause, hs, hl]

theorem dmaEnd_status (c status cause : Nat) (s : State) : ((dmaEnd c status cause).run s).dmaStatus c = status := by
  simp [dmaEnd, dmaCause, State.dmaStatus, dmaKey_ne (a := K.DmaChannelStatus) (b := K.LastCause) (by decide)]

theorem dmaEnd_cause (c status cause : Nat) (s : State) :
    ((dmaEnd c status cause).run s).reg (dmaKey K.LastCause c) = cause := by
  simp [dmaEnd, dmaCause]

theorem event_of_channel {c : Nat} (hc : c < 16) : reservedEvent (200 + c) = false := by
  interval_cases c <;> rfl

theorem dmaCause_raises {c : Nat} (hc : c < 16) (cause : Nat) (s : State) :
    s.raised [200 + c] ((dmaCause c cause).run s) :=
  raised_after (u := (put (dmaKey K.LastCause c) cause).run s)
    (by simp [(dmaKey_ne_low (a := K.LastCause) (q := ctlKey) (by decide) c).symm]) (raised_raise (event_of_channel hc) _)

theorem dmaEnd_raises {c : Nat} (hc : c < 16) (status cause : Nat) (s : State) :
    s.raised [200 + c] ((dmaEnd c status cause).run s) := by
  refine raised_tail (by simp) (raised_tail ?_ (dmaCause_raises hc cause _))
  simp [dmaKey_ne_low (a := K.DmaChannelStatus) (q := ctlKey) (by decide)]

theorem dmaEnd_chan (c status cause : Nat) (s : State) : ((dmaEnd c status cause).run s).dmaChan c = {} := by
  rw [dmaEnd, run_seqs_cons, dmaChan_kept (by simp), dmaChan_setDma_fresh]

theorem dmaStopped_discards (c : Nat) (s : State) : ((dmaStopped c).run s).reg (dmaKey K.DiscardedBursts c)
    = (s.reg (dmaKey K.DiscardedBursts c) + s.dmaDiscards c) % 2 ^ 32 := by
  have hs : dmaKey K.DmaChannelStatus c ≠ dmaKey K.DiscardedBursts c := dmaKey_ne (by decide) c c
  have hl : dmaKey K.LastCause c ≠ dmaKey K.DiscardedBursts c := dmaKey_ne (by decide) c c
  rw [dmaStopped, Act.run_read, Act.run_seq, (calm_dmaEnd (P := (· ≠ _)) hs hl 0 6).reg_other]
  simp

theorem calm_dmaStopped {P : Nat → Prop} {c : Nat} (hd : P (dmaKey K.DiscardedBursts c))
    (hs : P (dmaKey K.DmaChannelStatus c)) (hl : P (dmaKey K.LastCause c)) : (dmaStopped c).All (Prim.Calm P) := by
  simp [dmaStopped, hd, calm_dmaEnd hs hl]

theorem dmaStopped_raises {c : Nat} (hc : c < 16) (s : State) : s.raised [200 + c] ((dmaStopped c).run s) :=
  raised_after (u := (addTo (dmaKey K.DiscardedBursts c) 4 (s.dmaDiscards c)).run s)
    (by simp [(dmaKey_ne_low (a := K.DiscardedBursts) (q := ctlKey) (by decide) c).symm]) (dmaEnd_raises hc 0 6 _)

/-! ### A burst starts -/

/-- The bytes of the burst that a channel is granted (R387). -/
def State.burstNow (s : State) (c : Nat) : Nat :=
  burstBytes (s.dmaInstr c) ((s.dmaChan c).offset true (diSource (s.dmaInstr c)))
    ((s.dmaChan c).offset false (diTarget (s.dmaInstr c))) (s.dmaChan c).done

theorem burstStart_chan {s : State} {c : Nat} (h : c < s.dma.chans.length) :
    ((burstStart c).run s).dmaChan c = { s.dmaChan c with flight := some (s.burstNow c) } := by
  rw [burstStart, Act.run_read, run_seqs_cons, run_seqs_three, run_seqs_nil]
  have hlast : ∀ (l : List Nat → List Nat) (u : State),
      ((Act.prim (.dma fun d => { d with last := l d.last })).run u).dmaChan c = u.dmaChan c := fun _ _ => rfl
  rw [hlast fun l => l.set (s.reg (dmaKey K.Priority c)) c, dmaChan_kept (by simp), dmaChan_kept (by simp), dmaChan_setDma h]
  rfl

theorem calm_burstStart {P : Nat → Prop} {c : Nat} (hr : P (dmaKey K.RemainingCount c)) (hb : P K.BurstsIssued) :
    (burstStart c).All (Prim.Calm P) := by
  simp [burstStart, hr, hb]

theorem burstStart_issued (c : Nat) (s : State) :
    ((burstStart c).run s).reg K.BurstsIssued = (s.reg K.BurstsIssued + 1) % 2 ^ 64 := by
  have hr : dmaKey K.RemainingCount c ≠ K.BurstsIssued := dmaKey_ne_low (by decide) c
  simp [-run_when, burstStart, Act.All.reg_other, hr]

theorem burstStart_remaining {c : Nat} {s : State} (h : (s.dmaChan c).tries = 0) :
    ((burstStart c).run s).reg (dmaKey K.RemainingCount c) = s.reg (dmaKey K.RemainingCount c) - s.burstNow c := by
  have hr : dmaKey K.RemainingCount c ≠ K.BurstsIssued := dmaKey_ne_low (by decide) c
  simp [burstStart, State.burstNow, h, hr]

/-! ### A burst boundary -/

/-- A burst boundary's grant (R388). -/
def dmaGranted : Act := .read fun s =>
  if !s.islandReady islFAB then .skip
  else match s.dmaGrant with
    | some c => burstStart c
    | none => .skip

theorem calm_dmaGranted {P : Nat → Prop} (hr : ∀ c, P (dmaKey K.RemainingCount c)) (hb : P K.BurstsIssued) :
    dmaGranted.All (Prim.Calm P) := fun s => by
  dsimp only
  split
  · trivial
  split
  · exact calm_burstStart (hr _) hb
  · trivial

@[simp] theorem fits_dmaGranted {pcs : List Piece} (hp : [.dict, .dma] ⊆ pcs) : dmaGranted.All (Prim.Fits pcs) := fun s => by
  dsimp only
  split
  · trivial
  split
  · exact fits_burstStart _ hp
  · trivial

/-- A grant sets what remains of a transfer and the count of bursts, and no other register of a channel. -/
theorem reg_dmaGranted {a : Nat} (h : K.RemainingCount % 4096 ≠ a % 4096) (hb : K.BurstsIssued < a) (c : Nat) (s : State) :
    (dmaGranted.run s).reg (dmaKey a c) = s.reg (dmaKey a c) :=
  (calm_dmaGranted (P := (· ≠ dmaKey a c)) (fun d => dmaKey_ne h d c) (dmaKey_ne_low hb c).symm).reg_other s

theorem calm_dmaNext {P : Nat → Prop} {c : Nat} (h : P (dmaKey K.ProgramCounter c)) : (dmaNext c).All (Prim.Calm P) := by
  simp [dmaNext, h]

theorem calm_burstPassed {P : Nat → Prop} {c : Nat} (hp : P (dmaKey K.ProgramCounter c))
    (hd : P (dmaKey K.DiscardedBursts c)) (hs : P (dmaKey K.DmaChannelStatus c)) (hl : P (dmaKey K.LastCause c)) (n : Nat) :
    (burstPassed c n).All (Prim.Calm P) := by
  simp [burstPassed, dmaComplete, calm_dmaNext, calm_dmaStopped, hp, hd, hs, hl]

/-- What a burst boundary begins with: the burst in flight ends (R390). -/
def burstInFlight (bad : Option Nat) : Act := .read fun s =>
  match (List.range 16).find? fun c => (s.dmaChan c).flight.isSome with
  | some c => burstEnd c ((s.dmaChan c).flight.getD 0) bad
  | none => .skip

theorem exec_dmaBurst (t : Nat) (bad : Option Nat) (s : State) :
    exec (.dmaBurst t bad) s = perform t (.seq (burstInFlight bad) dmaGranted) s := rfl

theorem run_burstInFlight {b : State} {c n : Nat} (bad : Option Nat)
    (hfind : ((List.range 16).find? fun k => (b.dmaChan k).flight.isSome) = some c)
    (hflight : (b.dmaChan c).flight = some n) : (burstInFlight bad).run b = (burstEnd c n bad).run b := by
  rw [burstInFlight, Act.run_read, hfind]
  simp only [hflight, Option.getD_some]

theorem run_burstEnd_moves {b : State} {c n : Nat} {bad : Option Nat} (hpass : b.burstFails c n bad = none)
    (hop : diOp (b.dmaInstr c) = 1) (hdst : screenAt ≤ b.burstTarget c) :
    (burstEnd c n bad).run b = (burstPassed c n).run ((writeDram (b.burstTarget c) (b.bytesAt (b.burstSource c) n)).run
      ((addTo (dmaKey K.BurstsCompleted c) 8 1).run b)) := by
  have hrom : ¬b.burstTarget c < 0x10000 := by simp only [screenAt] at hdst; omega
  have hbank : ¬(bankAt 0 ≤ b.burstTarget c && b.burstTarget c < screenAt) = true := by
    simp only [Bool.and_eq_true, decide_eq_true_eq]
    omega
  simp only [burstEnd, Act.run_read, hpass, burstEffect, hop, run_seqs_cons, run_seqs_nil, Act.run_seq, dmaStore]
  rw [run_ite_of_not hrom, run_ite_of_not hbank]

theorem run_burstEnd_fails {b : State} {c n a : Nat} {bad : Option Nat} (hfail : b.burstFails c n bad = some a) :
    (burstEnd c n bad).run b = (seqs [addTo (dmaKey K.BusErrors c) 4 1, put (dmaKey K.FaultAddress c) a,
      when (protectedFrom (.dma c) a && a < b.dramEnd) (addTo K.ProtectedAccessRefused 4 1),
      (if b.reg (dmaKey K.RetryLimit c) ≤ (b.dmaChan c).tries then dmaEnd c 5 4
        else setDma c fun x => { x with flight := none, tries := x.tries + 1 })]).run b := by
  simp only [burstEnd, Act.run_read, hfail]

/-- A command that is one dictionary write on a part that is there. -/
theorem completes_write_when {c : Instr} {t idx sub : Nat} {w : Wr} {eff : Effect} {p : Bool} (hp : p = true)
    {pre : State → Prop} {post : State → State → Prop} (hx : ∀ s, exec c s = perform t (when p (writeBy idx sub eff w)) s)
    (h : ∀ b, pre b → ∃ v a, b.takes idx sub w v ∧ eff b { w with val := v } = accept a
      ∧ post b ((answer w.path 0).run (a.run b)).notifySend) : Completes c t pre post := by
  subst hp
  exact completes_write hx h

theorem effChannelStart_runs {c : Nat} {b : State} {w : Wr} {prog : List (List Nat)} (hw : w.val = 1)
    (hstatus : b.dmaStatus c = 0 ∨ 3 < b.dmaStatus c) (halign : b.reg (dmaKey K.ProgramAddress c) % 16 = 0)
    (hfetch : b.fetchProgram c 256 (b.reg (dmaKey K.ProgramAddress c)) = (prog, false))
    (hprog : progFault (b.reg (dmaKey K.RequestLine c)) prog 0 0 = none) :
    effChannelStart c b w = accept (seqs [setDma c (fun _ => { prog := prog }), put (dmaKey K.ProgramCounter c) 0,
      put (dmaKey K.DmaChannelStatus c) 1]) := by
  have hfree : ¬(1 ≤ b.dmaStatus c && b.dmaStatus c ≤ 3) = true := by
    simp only [Bool.and_eq_true, decide_eq_true_eq]
    omega
  simp [effChannelStart, hw, hfree, halign, hfetch, hprog]

theorem effChannelStart_misaligned {c : Nat} {b : State} {w : Wr} (hw : w.val = 1)
    (hstatus : b.dmaStatus c = 0 ∨ 3 < b.dmaStatus c) (halign : b.reg (dmaKey K.ProgramAddress c) % 16 ≠ 0) :
    effChannelStart c b w = accept (programFault c 0 1) := by
  have hfree : ¬(1 ≤ b.dmaStatus c && b.dmaStatus c ≤ 3) = true := by
    simp only [Bool.and_eq_true, decide_eq_true_eq]
    omega
  simp [effChannelStart, hw, hfree, halign]

theorem channelStart_completes :
    ∀ (t c : Nat) (w : Wr) (prog : List (List Nat)), c < 16 →
    Completes (.channelStart t c w) t
      (fun b => b.takes (0x4400 + 0x10 * c) 6 w 1 ∧ (b.dmaStatus c = 0 ∨ 3 < b.dmaStatus c) ∧ c < b.dma.chans.length
        ∧ b.reg (dmaKey K.ProgramAddress c) % 16 = 0
        ∧ b.fetchProgram c 256 (b.reg (dmaKey K.ProgramAddress c)) = (prog, false)
        ∧ progFault (b.reg (dmaKey K.RequestLine c)) prog 0 0 = none)
      fun b u => u.dmaStatus c = 1 ∧ u.reg (dmaKey K.ProgramCounter c) = 0 ∧ u.dmaChan c = { prog := prog }
        ∧ b.regsBut [dmaKey K.ProgramCounter c, dmaKey K.DmaChannelStatus c] u ∧ b.only [.dict, .dma] u :=
  fun t c w prog hc => completes_write_when (by simpa using hc) (fun _ => rfl)
    fun b ⟨htake, hstatus, hlen, halign, hfetch, hprog⟩ => by
  refine ⟨1, _, htake, effChannelStart_runs rfl hstatus halign hfetch hprog, ?_, ?_, ?_, regsBut_write (by simp) _ b,
    only_write (by simp) _ b⟩
  · simp [State.dmaStatus]
  · simp [dmaKey_ne (a := K.ProgramCounter) (b := K.DmaChannelStatus) (by decide)]
  · rw [dmaChan_notifySend, dmaChan_answer, run_seqs_cons, dmaChan_kept (by simp), dmaChan_setDma hlen]

theorem channelStart_faults (t c : Nat) (w : Wr) :
    c < 16 →
    Completes (.channelStart t c w) t
      (fun b => b.takes (0x4400 + 0x10 * c) 6 w 1 ∧ (b.dmaStatus c = 0 ∨ 3 < b.dmaStatus c)
        ∧ b.reg (dmaKey K.ProgramAddress c) % 16 ≠ 0)
      fun b u => u.dmaStatus c = 5 ∧ u.reg (dmaKey K.ProgramFaultReason c) = 1 ∧ u.reg (dmaKey K.LastCause c) = 3
        ∧ b.raised [200 + c] u
        ∧ b.regsBut [dmaKey K.ProgramCounter c, dmaKey K.ProgramFaultReason c, dmaKey K.DmaChannelStatus c,
          dmaKey K.LastCause c] u
        ∧ b.only [.dict, .ev, .dma] u :=
  fun hc => completes_write_when (by simpa using hc) (fun _ => rfl) fun b ⟨htake, hstatus, halign⟩ => by
  have hlow : ∀ a, ctlKey < a → dmaKey a c ≠ ctlKey := fun a h => dmaKey_ne_low h c
  refine ⟨1, _, htake, effChannelStart_misaligned rfl hstatus halign, ?_, ?_, ?_, ?_, regsBut_write ?_ _ b,
    only_write (by simp) _ b⟩
  · simp [programFault, dmaEnd_status]
  · have hs : dmaKey K.DmaChannelStatus c ≠ dmaKey K.ProgramFaultReason c := dmaKey_ne (by decide) c c
    have hl : dmaKey K.LastCause c ≠ dmaKey K.ProgramFaultReason c := dmaKey_ne (by decide) c c
    simp [programFault, Act.All.reg_other, calm_dmaEnd, hs, hl]
  · simp [programFault, dmaEnd_cause]
  · exact raised_write (raised_among (P := fun _ => True) (l₁ := [_, _])
      (by simp [hlow K.ProgramCounter (by decide), hlow K.ProgramFaultReason (by decide)])
      (fun s _ => dmaEnd_raises hc _ _ s) (by simp)) _
  · simp [programFault, calm_dmaEnd]

theorem dmaBurst_starts (t c : Nat) (bad : Option Nat) :
    Completes (.dmaBurst t bad) t
      (fun b => (∀ k < 16, (b.dmaChan k).flight = none) ∧ b.islandReady islFAB = true ∧ b.dmaGrant = some c
        ∧ c < b.dma.chans.length)
      fun b u =>
        let x := b.dmaChan c
        let i := b.dmaInstr c
        let n := burstBytes i (x.offset true (diSource i)) (x.offset false (diTarget i)) x.done
        u.dmaChan c = { x with flight := some n } ∧ u.reg K.BurstsIssued = (b.reg K.BurstsIssued + 1) % 2 ^ 64
        ∧ (x.tries = 0 → u.reg (dmaKey K.RemainingCount c) = b.reg (dmaKey K.RemainingCount c) - n)
        ∧ b.regsBut [dmaKey K.RemainingCount c, K.BurstsIssued] u ∧ b.only [.dict, .dma] u :=
  completes_of (fun _ => rfl) fun b _ ⟨hnone, hfab, hgrant, hlen⟩ => by
  have hfind : (List.range 16).find? (fun c => (b.dmaChan c).flight.isSome) = none := by
    simp only [List.find?_eq_none, List.mem_range]
    exact fun k hk => by simp [hnone k hk]
  simp only [Act.run_seq, Act.run_read, hfind, Act.run_skip, hfab, hgrant, Bool.not_true, Bool.false_eq_true, if_false]
  exact ⟨by rw [dmaChan_notifySend, burstStart_chan hlen]; rfl, by simp [burstStart_issued],
    fun htries => by rw [State.notifySend_reg, burstStart_remaining htries]; rfl,
    regsBut_sent (calm_burstStart (by simp) (by simp)) b, only_sent_of_fits (by simp) b⟩

theorem dmaBurst_moves (t c n : Nat) (bad : Option Nat) :
    Completes (.dmaBurst t bad) t
      (fun b => ((List.range 16).find? fun k => (b.dmaChan k).flight.isSome) = some c
        ∧ (b.dmaChan c).flight = some n ∧ b.burstFails c n bad = none ∧ diOp (b.dmaInstr c) = 1
        ∧ screenAt ≤ b.burstTarget c)
      fun b u => u.mem = Memory.storeBytes b.mem (b.burstTarget c) (b.bytesAt (b.burstSource c) n)
        ∧ u.reg (dmaKey K.BurstsCompleted c) = (b.reg (dmaKey K.BurstsCompleted c) + 1) % 2 ^ 64
        ∧ b.only [.mem, .dict, .ev, .dma, .dram] u :=
  completes_of (exec_dmaBurst t bad) fun b _ ⟨hfind, hflight, hpass, hop, hdst⟩ => by
  rw [Act.run_seq, run_burstInFlight bad hfind hflight]
  refine ⟨?_, ?_, only_sent_of_fits (a := .seq (burstEnd c n bad) dmaGranted) (by simp) b⟩
  · rw [State.notifySend_mem, mem_kept (by simp), run_burstEnd_moves hpass hop hdst, mem_kept (by simp)]
    rfl
  · rw [State.notifySend_reg, reg_dmaGranted (by decide) (by decide), run_burstEnd_moves hpass hop hdst,
      Act.All.reg_other (calm_burstPassed _ _ _ _ _)]
    · simp [writeDram, clearPoison]
    all_goals exact dmaKey_ne (by decide) c c

theorem dmaBurst_fails (t c a n : Nat) (bad : Option Nat) :
    Completes (.dmaBurst t bad) t
      (fun b => ((List.range 16).find? fun k => (b.dmaChan k).flight.isSome) = some c
        ∧ (b.dmaChan c).flight = some n ∧ b.burstFails c n bad = some a)
      fun b u => u.mem = b.mem ∧ u.reg (dmaKey K.FaultAddress c) = a
        ∧ u.reg (dmaKey K.BusErrors c) = (b.reg (dmaKey K.BusErrors c) + 1) % 2 ^ 32
        ∧ (b.reg (dmaKey K.RetryLimit c) ≤ (b.dmaChan c).tries → u.dmaStatus c = 5
          ∧ u.reg (dmaKey K.LastCause c) = 4 ∧ b.raised [200 + c] u)
        ∧ b.only [.dict, .ev, .dma] u := completes_of (exec_dmaBurst t bad) fun b _ ⟨hfind, hflight, hfail⟩ => by
  have hc : c < 16 := List.mem_range.mp (List.mem_of_find?_eq_some hfind)
  have hcause : dmaKey K.LastCause c ≠ dmaKey K.FaultAddress c := dmaKey_ne (by decide) c c
  have hstatus : dmaKey K.DmaChannelStatus c ≠ dmaKey K.FaultAddress c := dmaKey_ne (by decide) c c
  have hprot : ∀ a, K.ProtectedAccessRefused < a → K.ProtectedAccessRefused ≠ dmaKey a c :=
    fun a h => (dmaKey_ne_low h c).symm
  rw [Act.run_seq, run_burstInFlight bad hfind hflight, run_burstEnd_fails hfail]
  refine ⟨?_, ?_, ?_, fun hlimit => ?_,
    only_sent_of_fits (a := .seq (seqs [_, _, _, _]) dmaGranted) (by simp) b⟩
  · rw [State.notifySend_mem, mem_kept (by simp), mem_kept (by simp)]
  · rw [State.notifySend_reg, reg_dmaGranted (by decide) (by decide), run_seqs_cons, run_seqs_cons, Act.All.reg_other]
    · simp
    · simp [calm_dmaEnd, hcause, hstatus, hprot K.FaultAddress (by decide)]
  · rw [State.notifySend_reg, reg_dmaGranted (by decide) (by decide), run_seqs_cons, Act.All.reg_other]
    · simp
    · have hne : ∀ a, a % 4096 ≠ K.BusErrors % 4096 → dmaKey a c ≠ dmaKey K.BusErrors c := fun a h => dmaKey_ne h c c
      simp (decide := true) [calm_dmaEnd, hne, hprot K.BusErrors (by decide)]
  · rw [if_pos hlimit]
    refine ⟨?_, ?_, raised_notifySend.mpr (raised_before (P := fun _ => True) ?_ (calm_dmaGranted (by simp) trivial))⟩
    · rw [dmaStatus_notifySend, State.dmaStatus, reg_dmaGranted (by decide) (by decide), run_seqs_cons, run_seqs_three]
      exact dmaEnd_status c 5 4 _
    · rw [State.notifySend_reg, reg_dmaGranted (by decide) (by decide), run_seqs_cons, run_seqs_three]
      exact dmaEnd_cause c 5 4 _
    · have hlow : ∀ a, ctlKey < a → dmaKey a c ≠ ctlKey := fun a h => dmaKey_ne_low h c
      exact raised_among (P := fun _ => True) (l₁ := [_, _, _]) (l₂ := [])
        (by simp [hlow K.BusErrors (by decide), hlow K.FaultAddress (by decide)]) (fun s _ => dmaEnd_raises hc 5 4 s) trivial

theorem channelStop_completes (t c : Nat) (w : Wr) :
    c < 16 →
    Completes (.channelStop t c w) t (fun b => b.takes (0x4400 + 0x10 * c) 7 w 1 ∧ b.dmaStatus c = 1)
      fun b u =>
        ((b.dmaChan c).flight.isSome = true ∨ (b.dmaChan c).tries ≠ 0 → u.dmaStatus c = 3 ∧ b.only [.dict] u)
        ∧ ((b.dmaChan c).flight = none ∧ (b.dmaChan c).tries = 0 → u.dmaStatus c = 0
          ∧ u.reg (dmaKey K.DiscardedBursts c) = (b.reg (dmaKey K.DiscardedBursts c) + b.dmaDiscards c) % 2 ^ 32
          ∧ u.reg (dmaKey K.LastCause c) = 6 ∧ b.raised [200 + c] u)
        ∧ b.regsBut [dmaKey K.DmaChannelStatus c, dmaKey K.DiscardedBursts c, dmaKey K.LastCause c] u
        ∧ b.only [.dict, .ev, .dma] u := fun hc => completes_of (fun _ => rfl) fun b _ ⟨htake, hstatus⟩ => by
  rw [run_when, if_pos (by simpa using hc)]
  by_cases hbusy : (b.dmaChan c).flight.isSome = true ∨ (b.dmaChan c).tries ≠ 0
  · rw [run_writeBy_takes htake (a := put (dmaKey K.DmaChannelStatus c) 3) (by simp [effChannelStop, hstatus, hbusy])]
    exact ⟨fun _ => ⟨by simp [State.dmaStatus], only_write (by simp) _ b⟩,
      fun ⟨hf, ht⟩ => absurd hbusy (by simp [hf, ht]), regsBut_write (by simp) _ b, only_write (by simp) _ b⟩
  · rw [run_writeBy_takes htake (a := dmaStopped c) (by simp [effChannelStop, hstatus, hbusy])]
    refine ⟨fun h => absurd h hbusy, fun _ => ⟨?_, ?_, ?_, raised_write (dmaStopped_raises hc b) _⟩,
      regsBut_write (calm_dmaStopped (by simp) (by simp) (by simp)) _ b, only_write (by simp) _ b⟩
    · simp [dmaStopped, dmaEnd_status]
    · simp [dmaStopped_discards]
    · simp [dmaStopped, dmaEnd_cause]

theorem dmaTimer_completes (t k : Nat) :
    k < 4 →
    Completes (.dmaTimer t k) t
      (fun b => b.time.running = true
        ∧ (b.dma.timers.getD k (0, false)).1 ≠ b.ptp / 65536 / b.reg (K.DmaTimerPeriod + k))
      fun b u => u.dma = { b.dma with
            timers := b.dma.timers.set k (b.ptp / 65536 / b.reg (K.DmaTimerPeriod + k), true) }
        ∧ b.only [.dma] u := fun hk => completes_of (fun _ => rfl) fun b _ ⟨hrun, hdue⟩ => by
  rw [Act.run_read, run_when, if_pos (by simpa [hk, hrun] using hdue)]
  exact ⟨by simp, only_sent_of_fits (by simp [Dma.Sized]) b⟩

theorem dmaTimerWidthEnd_completes (t k q : Nat) :
    k < 4 →
    Completes (.dmaTimerWidthEnd t k) t
      (fun b => b.dma.timers.getD k (0, false) = (q, true)
        ∧ q * b.reg (K.DmaTimerPeriod + k) + b.reg (K.DmaTimerWidth + k) ≤ b.ptp / 65536)
      fun b u => u.dma = { b.dma with timers := b.dma.timers.set k (q, false) } ∧ b.only [.dict, .dma] u :=
  fun hk => completes_of (fun _ => rfl) fun b _ ⟨hon, hdue⟩ => by
  simp only [Act.run_read, hon]
  rw [run_when, if_pos (by simp [hk, hdue])]
  exact ⟨by simp [dma_kept], only_sent_of_fits (by simp [Dma.Sized]) b⟩

theorem softRequestWrite_completes (t v : Nat) (w : Wr) :
    Completes (.softRequestWrite t w) t (fun b => b.takes 0x2D01 1 w v)
      fun b u => u.reg K.SoftRequest = v ∧ b.only [.dict] u := completes_write (fun _ => rfl) fun b htake => by
  exact ⟨v, _, htake, rfl, by simp, only_write (by simp) _ b⟩

/-- Settles O34: channels start, burst and stop, and the timers' lines and SoftRequest follow. -/
theorem dmaCompletes : Obligations.DmaCompletes :=
  ⟨channelStart_completes, channelStart_faults, dmaBurst_starts, dmaBurst_moves, dmaBurst_fails,
    channelStop_completes, dmaTimer_completes, dmaTimerWidthEnd_completes, softRequestWrite_completes⟩

end Sys2Proof.Machine
end

section
/-! # WAIT on a channel that the engine does not have -/

namespace Sys2Proof.Machine

/-- A state with a 61st DMA channel, running, whose WAIT for a line that is low has timed out. -/
def strayWait : State :=
  { State.reset with
    dict := [(ctlKey, 1), (dmaKey K.DmaChannelStatus 60, 1)]
    dma := { State.reset.dma with
      chans := List.replicate 61 { prog := [[6, 0, 20, 0, 1, 0, 0, 0]], wait := some (0, 0) } } }

/-- Refutes O35: WaitTimeout is stated of every channel number, and no event 260 is there to be raised for channel 60
(`strayWait` meets the premise; the statements of the other instructions take channels below 16). -/
theorem not_dmaProgramsComplete : ¬ Obligations.DmaProgramsComplete := by
  intro h
  obtain ⟨-, -, -, -, -, htimeout, -⟩ := h
  obtain ⟨u, -, -, -, hraised, -⟩ := htimeout 5 60 0 0 strayWait
    ⟨by decide, by decide, by decide, by decide, by decide⟩
  have hpending : u.ev.pending.getLsbD 260 = true := hraised (by decide) 260 (by decide)
  rw [BitVec.getLsbD_of_ge _ _ (by decide)] at hpending
  cases hpending

end Sys2Proof.Machine
end

section
/-! # Camera ports: configuration, coefficients, CCI, captures and restarts (R293, R294, R302, R309–R312) -/

namespace Sys2Proof.Machine

theorem prt_of_cam {s u : State} (h : u.cam = s.cam) (p : Nat) : u.prt p = s.prt p := by
  rw [State.prt, h, ← State.prt]

@[simp] theorem prt_notifySend (s : State) (p : Nat) : s.notifySend.prt p = s.prt p := prt_of_cam (by simp) p

@[simp] theorem prt_answer (w : WPath) (code : Nat) (s : State) (p : Nat) : ((answer w code).run s).prt p = s.prt p :=
  prt_of_cam (by simp) p

theorem prt_kept {a : Act} (h : a.All (Prim.Fits (Piece.but .cam))) (s : State) (p : Nat) : (a.run s).prt p = s.prt p :=
  prt_of_cam (cam_kept h s) p

theorem prt_setPort_ne {p q : Nat} (h : p ≠ q) (f : Port → Port) (s : State) :
    ((setPort q f).run s).prt p = s.prt p := by
  simp [setPort, State.prt, h]

theorem prt_setPort {s : State} {p : Nat} (h : p < s.cam.ports.length) (f : Port → Port) :
    ((setPort p f).run s).prt p = f (s.prt p) := by
  simp [setPort, State.prt, h]

@[simp] theorem calm_setPort (P : Nat → Prop) (p : Nat) (f : Port → Port) : (setPort p f).All (Prim.Calm P) := trivial

@[simp] theorem portState_notifySend (s : State) (p : Nat) : s.notifySend.portState p = s.portState p := by
  simp [State.portState]

@[simp] theorem portState_answer (w : WPath) (code : Nat) (s : State) (p : Nat) :
    ((answer w code).run s).portState p = s.portState p := by simp [State.portState]

theorem portKey_ne {a b : Nat} (h : a % 4096 ≠ b % 4096) (p q : Nat) : portKey a p ≠ portKey b q := by
  simp only [portKey]
  omega

theorem portKey_ne_low {a q : Nat} (h : q < a) (p : Nat) : portKey a p ≠ q := by
  simp only [portKey]
  omega

theorem calm_camEvent {P : Nat → Prop} {n : Nat} (h : P (K.InspectionEventPort + (n - 160))) (p : Nat) :
    (camEvent n p).All (Prim.Calm P) := ⟨h, trivial⟩

theorem camEvent_raises {n : Nat} (hk : K.InspectionEventPort + (n - 160) ≠ ctlKey) (hn : reservedEvent n = false)
    (p : Nat) (s : State) : s.raised [n] ((camEvent n p).run s) :=
  raised_after (u := (put _ p).run s) (by simp [hk.symm]) (raised_raise hn _)

theorem leaves_setPort {α : Type} {g : Port → α} {f : Port → Port} (h : ∀ x, g (f x) = g x) (q p : Nat) :
    (setPort q f).All (Prim.Leaves fun u => g (u.prt p)) := fun s => by
  show g ((modAt s.cam.ports q f).getD p {}) = g (s.cam.ports.getD p {})
  rw [List.getD_eq_getElem?_getD, List.getD_eq_getElem?_getD, getElem?_modAt]
  by_cases hpq : p = q
  · subst hpq
    cases s.cam.ports[p]? <;> simp [h]
  · simp [hpq]

/-- What other pieces hold, a port's view leaves. -/
theorem leaves_prt_of_fits {a : Act} (h : a.All (Prim.Fits (Piece.but .cam))) {α : Type} (g : Port → α) (p : Nat) (s : State) :
    g ((a.run s).prt p) = g (s.prt p) := congrArg g (prt_kept h s p)

theorem neutralBanks_keeps {α : Type} {g : Port → α}
    (h : ∀ x : Port, g { x with pend := none, banks := x.banks + 1, fresh := true } = g x) (p w q : Nat) (s : State) :
    g (((neutralBanks p w).run s).prt q) = g (s.prt q) := by
  rw [neutralBanks, run_seqs_three, run_seqs_three, run_seqs_nil]
  rw [Act.All.leaves (g := fun u => g (u.prt q)) (leaves_setPort h p q), prt_kept (by simp), prt_kept (by simp),
    prt_kept (by simp), prt_kept (by simp), prt_kept (by simp)]

theorem whenNeutral_keeps {α : Type} {g : Port → α}
    (h : ∀ x : Port, g { x with pend := none, banks := x.banks + 1, fresh := true } = g x) (c : Bool) (p w q : Nat)
    (s : State) : g (((when c (neutralBanks p w)).run s).prt q) = g (s.prt q) := by
  cases c
  · rfl
  · exact neutralBanks_keeps h p w q s

theorem calm_neutralBanks {P : Nat → Prop} {p : Nat} (hs : P (versionKey (0x5900 + p))) (hf : P (versionKey (0x5908 + p)))
    (hd : P (portKey K.DefectPixelCount p)) (w : Nat) : (neutralBanks p w).All (Prim.Calm P) := by
  simp [neutralBanks, hs, hf, hd]

theorem ports_length_leaves {a : Act} (h : a.All (Prim.Fits (Piece.but .cam))) (s : State) :
    (a.run s).cam.ports.length = s.cam.ports.length := by rw [cam_kept h]

@[simp] theorem ports_length_setPort (p : Nat) (f : Port → Port) (s : State) :
    ((setPort p f).run s).cam.ports.length = s.cam.ports.length := by simp [setPort]

/-- A port begins a flat-field capture (R310). -/
def flatBegun (x : Port) : Port := { x with flatOn := true, flatSum := [], flatFrames := 0, flatPrior := none }

/-- A capture that begins on a list of ports begins on each of them that is there. -/
theorem flatBegun_each {l : List Nat} {p : Nat} (hp : p ∈ l) {s : State} (hlen : p < s.cam.ports.length) :
    ∃ x, ((each l fun p => setPort p flatBegun).run s).prt p = flatBegun x := by
  have hone : ∀ q (u : State), p < u.cam.ports.length → q = p → ∃ x, ((setPort q flatBegun).run u).prt p = flatBegun x :=
    fun q u hu hq => ⟨u.prt p, by rw [hq, prt_setPort hu]⟩
  have hall : p < ((each l fun p => setPort p flatBegun).run s).cam.ports.length →
      ∃ x, ((each l fun p => setPort p flatBegun).run s).prt p = flatBegun x := by
    refine each_makes (P := fun u => p < u.cam.ports.length → ∃ x, u.prt p = flatBegun x) hp (fun q _ u hu => ?_)
      (fun u hu => hone p u (by simpa using hu) rfl) s
    intro hlen
    have hu' := hu (by simpa using hlen)
    by_cases hq : q = p
    · exact hone q u (by simpa using hlen) hq
    · obtain ⟨x, hx⟩ := hu'
      exact ⟨x, by rw [prt_setPort_ne (Ne.symm hq), hx]⟩
  refine hall ?_
  have hkept : (each l fun p => setPort p flatBegun).All (Prim.Leaves fun u => u.cam.ports.length) :=
    all_each fun q _ => fun u => ports_length_setPort q flatBegun u
  rwa [hkept.leaves]

theorem loopKeys_ne_portKey {a : Nat} (ha : 0x420000 ≤ a) (p : Nat) : ∀ k ∈ loopKeys, k ≠ portKey a p := fun k hk => by
  have hlow : ∀ k ∈ loopKeys, k < 0x420000 := by decide
  have := hlow k hk
  simp only [portKey]
  omega

theorem calm_neutralBanks_ne {a p : Nat} (h : a % 4096 ≠ K.DefectPixelCount % 4096) (ha : a < 0x430000) (hp : p < 8)
    (w : Nat) : (neutralBanks p w).All (Prim.Calm (· ≠ portKey a p)) := by
  refine calm_neutralBanks ?_ ?_ (portKey_ne h p p).symm w <;> simp only [versionKey, portKey] <;> omega

theorem portCommit_completes (t p : Nat) (w : Wr) :
    p < 8 →
    Completes (.portCommit t p w) t
      (fun b => p < b.cam.ports.length ∧ b.takes (0x4200 + 0x10 * p) 0x0B w 1 ∧ b.portRefusal p (b.portStaged p) = 0)
      fun b u => (u.prt p).conf = b.portStaged p ∧ (u.prt p).frame = none
        ∧ u.reg (portKey K.PortCommitRefusal p) = 0
        ∧ (b.portState p ≠ 3 → u.portState p = if (b.portStaged p).enable = true then 1 else 0)
        ∧ b.only [.mem, .dict, .ev, .cam, .tone, .loop] u :=
  fun hp => completes_write_when (by simpa using hp) (fun _ => rfl) fun b ⟨hlen, htake, hcode⟩ => by
  refine ⟨1, _, htake, by simp only [effPortCommit, hcode]; rfl, ?_, ?_, ?_, fun hstate => ?_, only_write (by simp) _ b⟩
  · rw [prt_notifySend, prt_answer, run_seqs_three, run_seqs_cons, run_seqs_cons, run_seqs_nil, prt_kept (by simp),
      prt_kept (by simp), whenNeutral_keeps (g := Port.conf) (fun _ => rfl), prt_setPort (by simpa using hlen)]
  · rw [prt_notifySend, prt_answer, run_seqs_three, run_seqs_cons, run_seqs_cons, run_seqs_nil, prt_kept (by simp),
      prt_kept (by simp), whenNeutral_keeps (g := Port.frame) (fun _ => rfl), prt_setPort (by simpa using hlen)]
  · have hs : portKey K.PortState p ≠ portKey K.PortCommitRefusal p := portKey_ne (by decide) p p
    rw [State.notifySend_reg, answer_reg, run_seqs_cons, Act.All.reg_other]
    · simp
    · simp [calm_neutralBanks_ne (a := K.PortCommitRefusal) (by decide) (by decide) hp, hs,
        calm_syncLoop (loopKeys_ne_portKey (a := K.PortCommitRefusal) (by decide) p)]
  · rw [portState_notifySend, portState_answer, State.portState, run_seqs_three, run_seqs_cons, run_seqs_cons, run_seqs_nil,
      Act.All.reg_other (calm_syncLoop (loopKeys_ne_portKey (a := K.PortState) (by decide) p)),
      run_when, if_pos (by simpa using hstate)]
    simp

theorem effPortCommit_refuses {b : State} {p : Nat} {w : Wr} (hw : w.val = 1) (hcode : b.portRefusal p (b.portStaged p) ≠ 0) :
    effPortCommit p b w = ⟨abMode, .seq (put (portKey K.PortCommitRefusal p) (b.portRefusal p (b.portStaged p)))
      (when (b.portRefusal p (b.portStaged p) == 6) (camEvent 173 p))⟩ :=
  (if_neg fun h => h hw).trans (if_pos hcode)

/-- The first failing check of a port's staged coefficient block (R302), 0 for none. -/
def State.coefCode (b : State) (p : Nat) : Nat :=
  coefRefusal (b.prt p).conf.width (b.bytesAt (coefficientAt p false) 131072)

theorem effCoefCommit_of {b : State} {p : Nat} {w : Wr} (hw : w.val = 1) : effCoefCommit p b w
    = if b.coefCode p ≠ 0 then ⟨abMode, put (K.CoefficientCommitRefusal + p) (b.coefCode p)⟩
      else accept (pendBlock p (b.bytesAt (coefficientAt p false) 131072)) :=
  if_neg fun h => h hw

theorem pendBlock_pend {s : State} {p : Nat} (hlen : p < s.cam.ports.length) (l : List Nat) :
    (((pendBlock p l).run s).prt p).pend = some (l, if isPrint s.mode then some (s.master.copies + 1) else none) := by
  rw [pendBlock, Act.run_read, Act.run_seq, prt_setPort (by simpa using hlen)]

theorem calm_pendBlock {P : Nat → Prop} {p : Nat} (h : P (K.CoefficientCommitRefusal + p)) (l : List Nat) :
    (pendBlock p l).All (Prim.Calm P) := by
  simp [pendBlock, h]

theorem portCommit_refused (t p : Nat) (w : Wr) :
    p < 8 →
    Completes (.portCommit t p w) t
      (fun b => b.takes (0x4200 + 0x10 * p) 0x0B w 1 ∧ b.portRefusal p (b.portStaged p) ≠ 0)
      fun b u => u.reg (portKey K.PortCommitRefusal p) = b.portRefusal p (b.portStaged p) ∧ b.raised [12] u
        ∧ b.only [.dict, .ev] u := fun hp => completes_of (fun _ => rfl) fun b _ ⟨htake, hcode⟩ => by
  have hev : K.InspectionEventPort + 13 ≠ portKey K.PortCommitRefusal p := (portKey_ne_low (by decide) p).symm
  have hctl : portKey K.PortCommitRefusal p ≠ ctlKey := portKey_ne_low (by decide) p
  have hrange : portKey K.PortCommitRefusal p < K.WindowAbortCode ∨ K.WindowAbortCode + 8 ≤ portKey K.PortCommitRefusal p := by
    simp only [portKey, K.PortCommitRefusal, K.WindowAbortCode]
    omega
  rw [run_when, if_pos (by simpa using hp), run_writeBy_refusal htake (effPortCommit_refuses rfl hcode) (by decide)]
  refine ⟨?_, raised_refusedBy ?_ _ _ b, only_refusedBy (by simp) (by simp [camEvent]) _ _ b⟩
  · simp [-run_when, reg_refusedBy hrange, Act.All.reg_other, calm_camEvent, hev]
  · simp (decide := true) [calm_camEvent, hctl]

theorem coefficientCommit_completes (t p : Nat) (w : Wr) :
    p < 8 →
    Completes (.coefficientCommit t p w) t
      (fun b => p < b.cam.ports.length ∧ b.takes 0x2903 (p + 1) w 1)
      fun b u =>
        let block := b.bytesAt (coefficientAt p false) 131072
        let code := coefRefusal (b.prt p).conf.width block
        u.reg (K.CoefficientCommitRefusal + p) = code
        ∧ (code = 0 → (u.prt p).pend = some (block, if isPrint b.mode then some (b.master.copies + 1) else none)
          ∧ b.regsBut [K.CoefficientCommitRefusal + p] u)
        ∧ (code ≠ 0 → u.cam = b.cam ∧ b.raised [12] u)
        ∧ b.only [.dict, .ev, .cam] u := by
  intro hp
  refine completes_of (fun _ => rfl) fun b _ ⟨hlen, htake⟩ => ?_
  have hrange : K.CoefficientCommitRefusal + p < K.WindowAbortCode
      ∨ K.WindowAbortCode + 8 ≤ K.CoefficientCommitRefusal + p := by
    simp only [K.CoefficientCommitRefusal, K.WindowAbortCode]
    omega
  have hctl : K.CoefficientCommitRefusal + p ≠ ctlKey := by
    simp only [K.CoefficientCommitRefusal, ctlKey]
    omega
  rw [run_when, if_pos (by simpa using hp)]
  show (_ : Nat) = b.coefCode p ∧ (b.coefCode p = 0 → _) ∧ (b.coefCode p ≠ 0 → _) ∧ _
  generalize hblock : b.bytesAt (coefficientAt p false) 131072 = block
  by_cases hcode : b.coefCode p = 0
  · rw [run_writeBy_takes htake ((effCoefCommit_of rfl).trans (if_neg fun h => h hcode)), hblock]
    refine ⟨?_, fun _ => ⟨?_, regsBut_write (calm_pendBlock (by simp) _) _ b⟩, fun h => absurd hcode h, only_write (by simp) _ b⟩
    · simp [pendBlock, hcode, Act.All.reg_other]
    · rw [prt_notifySend, prt_answer, pendBlock_pend hlen]
  · rw [run_writeBy_refusal htake ((effCoefCommit_of rfl).trans (if_pos hcode)) (by decide)]
    exact ⟨by simp [reg_refusedBy hrange], fun h => absurd h hcode,
      fun _ => ⟨refusedBy_of_fits (pc := .cam) (by simp) (by decide) (by decide), raised_refusedBy (by simp [hctl]) _ _ b⟩,
      only_refusedBy (by simp) (by simp) _ _ b⟩

theorem cciRequest_completes (t p v : Nat) (w : Wr) (c : List Nat) :
    p < 8 → 8 ≤ w.len → c = leBytes w.len v → field c 0 1 ≤ 1 →
    field c 1 1 ≤ 127 → 1 ≤ field c 2 1 → field c 2 1 ≤ 2 → 1 ≤ field c 3 1 → field c 3 1 ≤ 32 → field c 6 2 = 0 →
    (field c 0 1 = 1 → w.len = 8 + field c 3 1) →
    Completes (.cciRequest t p w) t
      (fun b => b.takes (0x4202 + 0x10 * p) 1 w v ∧ b.reg (portKey K.CciState p) ≠ 1)
      fun b u => u.reg (portKey K.CciState p) = 1 ∧ u.cam = { b.cam with cci := b.cam.cci.set p c } ∧ .cci p c ∈ u.out
        ∧ b.regsBut [portKey K.CciState p] u ∧ b.only [.dict, .cam] u := by
  intro hp hlen hc h0 h1 h2 h2' h3 h3' h6 hw
  refine completes_write_when (by simpa using hp) (fun _ => rfl) fun b ⟨htake, hfree⟩ => ?_
  refine ⟨v, seqs [put (portKey K.CciState p) 1, .prim (.cam fun x => { x with cci := x.cci.set p c }), send (.cci p c)],
    htake, ?_, by simp, by simp, mem_out_write (by simp) _ _, regsBut_write (by simp) _ b,
    only_write (by simp [Cam.Sized]) _ b⟩
  have hshape : ¬(w.len < 8 || 1 < field c 0 1 || 127 < field c 1 1 || field c 2 1 = 0 || 2 < field c 2 1
      || field c 3 1 = 0 || 32 < field c 3 1 || field c 6 2 ≠ 0 || (field c 0 1 = 1 && w.len ≠ 8 + field c 3 1)) = true := by
    simp only [Bool.or_eq_true, Bool.and_eq_true, decide_eq_true_eq]
    omega
  rw [effCci]
  simp only [← hc]
  rw [if_neg hfree, if_neg hshape]

theorem cciDone_completes (t p status : Nat) (data : List Nat) :
    Completes (.cciDone t p status data) t (fun b => b.reg (portKey K.CciState p) = 1)
      fun b u => u.reg (portKey K.CciState p) = (if status = 0 then 2 else 3)
        ∧ u.cam = { b.cam with cci := b.cam.cci.set p [] } ∧ (status ≠ 0 → b.raised [172] u)
        ∧ b.regsBut [portKey K.CciState p, portKey K.CciReply p, K.InspectionEventPort + 12] u
        ∧ b.only [.dict, .ev, .cam] u := completes_of (fun _ => rfl) fun b _ hbusy => by
  have hkey : portKey K.CciReply p ≠ portKey K.CciState p := portKey_ne (by decide) p p
  have hev : K.InspectionEventPort + 12 ≠ portKey K.CciState p := (portKey_ne_low (by decide) p).symm
  have hlow : ∀ a, ctlKey < a → portKey a p ≠ ctlKey := fun a h => portKey_ne_low h p
  simp only [Act.run_read]
  rw [run_ite_of_not (by simpa using hbusy)]
  refine ⟨?_, ?_, fun hstatus => ?_, regsBut_sent ?_ b, only_sent_of_fits ?_ b⟩
  · simp [-run_when, Act.All.reg_other, calm_camEvent, hev]
  · simp [-run_when, cam_kept]
  · refine raised_notifySend.mpr (raised_among (P := fun _ => True) (l₁ := [_, _, _]) (l₂ := [])
      (by simp [hlow K.CciReply (by decide), hlow K.CciState (by decide)]) (fun s _ => ?_) trivial)
    rw [run_when, if_pos (by simpa using hstatus)]
    exact camEvent_raises (by decide) rfl p s
  · simp [calm_camEvent]
  · simp [Cam.Sized]

theorem flatFieldCaptureRequest_completes (t : Nat) (w : Wr) :
    Completes (.flatFieldCaptureRequest t w) t
      (fun b => b.takes 0x2900 0x0F w 1 ∧ (b.mode = mReady ∨ b.mode = mService) ∧ b.speedValid = true)
      fun b u => (∀ p ∈ b.livePorts, p < b.cam.ports.length → (u.prt p).flatOn = true ∧ (u.prt p).flatFrames = 0
          ∧ (u.prt p).flatPrior = none)
        ∧ b.regsBut [K.CalibrationState] u ∧ b.only [.dict, .cam] u :=
  completes_write (fun _ => rfl) fun b ⟨htake, hmode, hspeed⟩ => by
  refine ⟨1, _, htake, (if_neg (by rcases hmode with h | h <;> simp [h, hspeed])).trans (if_neg fun h => h rfl),
    fun p hp hlen => ?_, regsBut_write (by simp [syncCalibration]) _ b, only_write (by simp) _ b⟩
  rw [prt_notifySend, prt_answer, Act.run_seq, prt_kept (by simp)]
  obtain ⟨x, hx⟩ := flatBegun_each hp hlen
  exact ⟨congrArg Port.flatOn hx, congrArg Port.flatFrames hx, congrArg Port.flatPrior hx⟩

theorem flatFieldCapture_first (t p : Nat) :
    Completes (.flatFieldCapture t p) t
      (fun b => p < b.cam.ports.length ∧ (b.prt p).flatOn = true
        ∧ b.reg K.FlatFramesPerCapture ≤ (b.prt p).flatFrames ∧ (b.prt p).flatPrior = none)
      fun b u => (u.prt p).flatPrior = some (b.flatGains (b.prt p).flatSum) ∧ (u.prt p).flatFrames = 0
        ∧ (u.prt p).flatOn = true ∧ b.regsBut [K.CalibrationState] u ∧ b.only [.dict, .cam] u :=
  completes_of (fun _ => rfl) fun b _ ⟨hlen, hon, hframes, hprior⟩ => by
  simp only [Act.run_read, hprior]
  rw [run_ite_of_not (by simp [hon, hframes])]
  refine ⟨?_, ?_, ?_, regsBut_sent (by simp [syncCalibration]) b, only_sent_of_fits (by simp) b⟩
  all_goals rw [prt_notifySend, Act.run_seq, prt_kept (by simp), prt_setPort hlen]
  exact hon

theorem calibrationCounted_count {kind : Nat} (_ : kind ≤ 8) (s : State) :
    ((calibrationCounted kind true).run s).reg (K.CalibrationCount + (kind - 1))
      = (s.reg (K.CalibrationCount + (kind - 1)) + 1) % 2 ^ 32 := by
  have hne : K.CalibrationTime + (kind - 1) ≠ K.CalibrationCount + (kind - 1) := by
    simp only [K.CalibrationTime, K.CalibrationCount]
    omega
  simp [calibrationCounted, hne.symm]

theorem calibrationCounted_discard (kind : Nat) (s : State) :
    ((calibrationCounted kind false).run s).reg (K.CalibrationDiscarded + (kind - 1))
      = (s.reg (K.CalibrationDiscarded + (kind - 1)) + 1) % 2 ^ 32 := by
  simp [calibrationCounted]

/-- A port's flat-field capture is over (R311). -/
def flatEnded (x : Port) : Port := { x with flatOn := false, flatSum := [], flatFrames := 0, flatPrior := none }

/-- What the second flat-field capture of a port leads to (R311): its block waits where the two agree. -/
def flatTaken (p : Nat) (good added : Bool) (block : List Nat) : Act :=
  seqs [
    when good (.seq (pendBlock p block) (when added (camEvent 174 p))),
    setPort p fun x => { x with flatOn := false, flatSum := [], flatFrames := 0, flatPrior := none },
    calibrationCounted 4 good,
    syncCalibration ]

theorem flatTaken_prt {p : Nat} {b : State} (hlen : p < b.cam.ports.length) (good added : Bool) (block : List Nat) :
    ((flatTaken p good added block).run b).prt p
      = flatEnded (((when good (.seq (pendBlock p block) (when added (camEvent 174 p)))).run b).prt p) := by
  have hkept : (when good (.seq (pendBlock p block) (when added (camEvent 174 p)))).All
      (Prim.Leaves fun u => u.cam.ports.length) := by
    simp [Prim.Leaves, pendBlock, camEvent, setPort]
  rw [flatTaken, run_seqs_cons, run_seqs_three, run_seqs_nil, prt_kept (by simp), prt_kept (by simp), prt_setPort]
  · rfl
  · rwa [hkept.leaves]

theorem calm_flatBlock {P : Nat → Prop} {p : Nat} (hc : P (K.CoefficientCommitRefusal + p))
    (he : P (K.InspectionEventPort + 14)) (good added : Bool) (block : List Nat) :
    (when good (.seq (pendBlock p block) (when added (camEvent 174 p)))).All (Prim.Calm P) := by
  simp [calm_pendBlock, calm_camEvent, hc, he]

theorem flatTaken_raises {p : Nat} (hp : p < 8) (good added : Bool) (block : List Nat) (b : State) :
    b.raised [if good then 243 else 244] ((flatTaken p good added block).run b) := by
  have hc : K.CoefficientCommitRefusal + p ≠ ctlKey := by
    simp only [K.CoefficientCommitRefusal, ctlKey]
    omega
  exact raised_among (P := fun _ => True) (l₁ := [_, _]) ⟨calm_flatBlock hc (by decide) _ _ _, by simp⟩
    (fun s _ => calibrationCounted_raises (by decide) good s) (by simp [syncCalibration])

theorem flatTaken_count {p : Nat} (hp : p < 8) (added : Bool) (block : List Nat) (b : State) :
    ((flatTaken p true added block).run b).reg (K.CalibrationCount + 3) = (b.reg (K.CalibrationCount + 3) + 1) % 2 ^ 32 := by
  have hc : K.CoefficientCommitRefusal + p ≠ K.CalibrationCount + 3 := by
    simp only [K.CoefficientCommitRefusal, K.CalibrationCount]
    omega
  rw [flatTaken, run_seqs_cons, run_seqs_three, run_seqs_nil, Act.All.reg_other (by simp (decide := true) [syncCalibration]),
    calibrationCounted_count (by decide), Act.All.reg_other (calm_setPort _ _ _),
    Act.All.reg_other (calm_flatBlock hc (by decide) _ _ _)]

theorem flatTaken_discard {p : Nat} (hp : p < 8) (added : Bool) (block : List Nat) (b : State) :
    ((flatTaken p false added block).run b).reg (K.CalibrationDiscarded + 3)
      = (b.reg (K.CalibrationDiscarded + 3) + 1) % 2 ^ 32 := by
  have hc : K.CoefficientCommitRefusal + p ≠ K.CalibrationDiscarded + 3 := by
    simp only [K.CoefficientCommitRefusal, K.CalibrationDiscarded]
    omega
  rw [flatTaken, run_seqs_cons, run_seqs_three, run_seqs_nil, Act.All.reg_other (by simp (decide := true) [syncCalibration]),
    calibrationCounted_discard, Act.All.reg_other (calm_setPort _ _ _),
    Act.All.reg_other (calm_flatBlock hc (by decide) _ _ _)]

theorem fits_flatTaken (p : Nat) (good added : Bool) (block : List Nat) :
    (flatTaken p good added block).All (Prim.Fits [.dict, .ev, .cam, .health]) := by
  simp [flatTaken]

theorem flatFieldCapture_second :
    ∀ (t p : Nat) (g : List (List Nat)), p < 8 →
    Completes (.flatFieldCapture t p) t
      (fun b => p < b.cam.ports.length ∧ (b.prt p).flatOn = true
        ∧ b.reg K.FlatFramesPerCapture ≤ (b.prt p).flatFrames ∧ (b.prt p).flatPrior = some g)
      fun b u =>
        let good := capturesAgree (b.reg K.FlatTolerance) (fun _ => true) g (b.flatGains (b.prt p).flatSum)
        (u.prt p).flatOn = false
        ∧ (good = true → (u.prt p).pend.isSome = true
          ∧ u.reg (K.CalibrationCount + 3) = (b.reg (K.CalibrationCount + 3) + 1) % 2 ^ 32 ∧ b.raised [243] u)
        ∧ (good = false → (u.prt p).pend = (b.prt p).pend
          ∧ u.reg (K.CalibrationDiscarded + 3) = (b.reg (K.CalibrationDiscarded + 3) + 1) % 2 ^ 32 ∧ b.raised [244] u)
        ∧ b.only [.dict, .ev, .cam, .health] u := by
  intro t p g hp
  refine completes_of (fun _ => rfl) fun b _ ⟨hlen, hon, hframes, hprior⟩ => ?_
  simp only [Act.run_read, hprior]
  rw [run_ite_of_not (by simp [hon, hframes])]
  generalize capturesAgree (b.reg K.FlatTolerance) (fun _ => true) g (b.flatGains (b.prt p).flatSum) = good
  generalize b.flatBlock p (b.prt p).flatSum (b.flatGains (b.prt p).flatSum) = block
  generalize ((b.flatReplace (b.baseBlock p) (b.prt p).flatSum (b.prt p).conf.width).zipIdx.any fun q =>
    q.1 != 0 && field (b.baseBlock p) (124928 + q.2) 1 == 0) = added
  rw [show seqs [_, _, _, _] = flatTaken p good added block from rfl, prt_notifySend, flatTaken_prt hlen]
  refine ⟨rfl, fun hgood => ?_, fun hbad => ?_, only_sent_of_fits (fits_flatTaken _ _ _ _) b⟩
  · subst hgood
    exact ⟨by rw [run_when_true, Act.run_seq, prt_kept (by simp [camEvent]), flatEnded, pendBlock_pend hlen]; rfl,
      by simpa using flatTaken_count hp added block b, raised_notifySend.mpr (flatTaken_raises hp true added block b)⟩
  · subst hbad
    exact ⟨rfl, by simpa using flatTaken_discard hp added block b,
      raised_notifySend.mpr (flatTaken_raises hp false added block b)⟩

theorem darkCapture_completes (t p : Nat) :
    Completes (.darkCapture t p) t
      (fun b => p < b.cam.ports.length ∧ b.portLive p = true ∧ b.mode ≠ mStandby
        ∧ exposures b.mode ≤ (b.prt p).darkLines.length ∧ (b.prt p).darkSum.length = exposures b.mode
        ∧ (b.prt p).darkCount + 1 < b.reg K.DarkLinesPerCapture)
      fun b u => (u.prt p).darkCount = (b.prt p).darkCount + 1 ∧ (u.prt p).darkLines = []
        ∧ b.regsBut [K.CalibrationState] u ∧ b.only [.dict, .cam] u :=
  completes_of (fun _ => rfl) fun b _ ⟨hlen, hlive, hmode, hlines, hsum, hcount⟩ => by
  have htaken : ((b.prt p).darkLines.take (exposures b.mode)).length = exposures b.mode := by simpa using hlines
  simp only [Act.run_read, List.length_map, htaken, hsum, if_true]
  rw [run_ite_of_not (by simp [hlive, hmode]), run_ite_of hcount]
  refine ⟨?_, ?_, regsBut_sent (by simp [syncCalibration]) b, only_sent_of_fits (by simp) b⟩
  all_goals rw [prt_notifySend, Act.run_seq, prt_kept (by simp), prt_setPort hlen]

theorem portRestart_completes (t p : Nat) (w : Wr) :
    p < 8 →
    Completes (.portRestart t p w) t
      (fun b => b.takes (0x4200 + 0x10 * p) 0x0C w 1 ∧ b.mode ≤ 1 ∧ b.portState p = 3)
      fun b u => u.isRetired (faultSource 2 p) = false
        ∧ u.portState p = (if (b.prt p).conf.enable = true then 1 else 0)
        ∧ .ball (.camRstN p) (if (b.prt p).conf.enable = true then 1 else 0) ∈ u.out
        ∧ b.only [.mem, .dict, .ev, .tone, .loop, .health] u :=
  fun hp => completes_write_when (by simpa using hp) (fun _ => rfl) fun b ⟨htake, hmode, hstate⟩ => by
  refine ⟨1, _, htake, (if_neg (by simpa using hmode)).trans (if_neg fun h => h rfl), ?_, ?_, ?_, only_write (by simp) _ b⟩
    <;> rw [run_when, if_pos (by simpa using hstate)]
  · rw [State.isRetired, State.notifySend_health, answer_health, run_seqs_cons, health_kept (by simp), ← State.isRetired]
    simp [isRetired_restartSource]
  · rw [portState_notifySend, portState_answer, State.portState, run_seqs_three, run_seqs_cons, run_seqs_nil,
      Act.All.reg_other (calm_syncLoop (loopKeys_ne_portKey (a := K.PortState) (by decide) p))]
    simp
  · exact mem_out_write (sent_among (l₁ := [_, _]) (sent_send _) (by simp)) _ _

/-- Settles O29: ports and coefficients are committed or refused, CCI transfers run, captures end, and a port restarts. -/
theorem cameraCommandsComplete : Obligations.CameraCommandsComplete :=
  ⟨portCommit_completes, portCommit_refused, coefficientCommit_completes, cciRequest_completes, cciDone_completes,
    flatFieldCaptureRequest_completes, flatFieldCapture_first, flatFieldCapture_second, darkCapture_completes,
    portRestart_completes⟩

end Sys2Proof.Machine
end

section
/-! # The care of DRAM: training, tracking, frequency changes and scrubbing (R359, R360, R371–R376) -/

namespace Sys2Proof.Machine

/-! ### Bookkeeping -/

theorem calm_memEvent {P : Nat → Prop} {n : Nat} (h : P (K.MemoryEventSource + (n - 184))) (sc : Nat) :
    (memEvent n sc).All (Prim.Calm P) := ⟨h, trivial⟩

theorem memEvent_raises {n : Nat} (hk : K.MemoryEventSource + (n - 184) ≠ ctlKey) (hn : reservedEvent n = false)
    (sc : Nat) (s : State) : s.raised [n] ((memEvent n sc).run s) :=
  raised_after (u := (put _ sc).run s) (by simp [hk.symm]) (raised_raise hn _)

theorem calm_syncJobStore {P : Nat → Prop} (hf : P K.JobStoreFree) (hc : P K.JobCount) :
    syncJobStore.All (Prim.Calm P) := by simp [syncJobStore, hf, hc]

theorem calm_remapStore {P : Nat → Prop} (hb : P K.JobStoreBase) (hs : P K.JobStoreSize) (hf : P K.JobStoreFree)
    (hc : P K.JobCount) : remapStore.All (Prim.Calm P) := by
  simp [remapStore, hb, hs, calm_syncJobStore hf hc]

/-- The registers that the decode lanes' state shows in. -/
def laneKeys : List Nat := (List.range 32).flatMap fun n => [K.DecodeLaneStatus + n, K.DecodeLaneStream + n]

theorem calm_dropDecoding {P : Nat → Prop} (h : ∀ k ∈ laneKeys, P k) (gone : Nat → Bool) :
    (dropDecoding gone).All (Prim.Calm P) := by
  refine ⟨trivial, all_each fun n hn => ?_, trivial, trivial⟩
  have hlane : ∀ k ∈ [K.DecodeLaneStatus + n, K.DecodeLaneStream + n], P k := fun k hk =>
    h k (List.mem_flatMap.mpr ⟨n, hn, hk⟩)
  simp only [List.forall_mem_cons] at hlane
  exact fun s => ⟨hlane.1, hlane.2.1⟩

/-- The registers that change when what DRAM held is lost (R360, R438). -/
def forgetKeys : List Nat :=
  [K.ScrubPosition, K.InitialisedUpTo, K.MissingCount, K.JobStoreFree, K.JobCount] ++ dramDomains.map versionKey
    ++ (List.range 6).map (0x438001 + ·) ++ laneKeys

theorem calm_forgetDram {P : Nat → Prop} (h : ∀ k ∈ forgetKeys, P k) : forgetDram.All (Prim.Calm P) := by
  simp only [forgetKeys, List.forall_mem_append, List.forall_mem_cons, List.forall_mem_map] at h
  obtain ⟨⟨⟨⟨hscrub, hinit, hmissing, hfree, hcount, -⟩, hversions⟩, hpackage⟩, hlanes⟩ := h
  have hsync := calm_syncJobStore hfree hcount
  have hdrop := calm_dropDecoding hlanes fun _ => true
  simp only [forgetDram, forgetPackage, emptyJobStore, all_seqs_cons, all_each_iff]
  exact ⟨trivial, trivial, hscrub, hinit, fun i hi => calm_bumpVersion (hversions i hi), hmissing,
    ⟨trivial, all_each hpackage⟩, trivial, trivial, ⟨hdrop, trivial, hsync⟩, trivial⟩

theorem calm_recheckJobs {P : Nat → Prop} (hl : ∀ k ∈ laneKeys, P k) (hf : P K.JobStoreFree) (hc : P K.JobCount)
    (h0 : P (versionKey 0x5400)) (h1 : P (versionKey 0x5401)) : recheckJobs.All (Prim.Calm P) := by
  have hdrop := fun g => calm_dropDecoding hl g
  simp [recheckJobs, freeJob, hdrop, mirrorDirectory, calm_syncJobStore hf hc, h0, h1]

theorem calm_applyOverlap {P : Nat → Prop} (h : P (versionKey 0x5603)) : applyOverlap.All (Prim.Calm P) := fun s => by
  dsimp only
  split
  · simp [h]
  · trivial

/-- The registers that change when 3200 MT/s is trained and DRAM comes into use (R360, R375). -/
def firstPointKeys : List Nat :=
  [K.SubchannelsWorking, K.MappedCapacity, K.DramBandwidth, K.JobStoreBase, K.JobStoreSize, K.DramOperatingPoint,
    K.DramRetained, K.DramTrained, K.MemoryEventSource + 15] ++ (List.range 4).map (K.SubchannelState + ·) ++ forgetKeys

theorem calm_firstPointTrained {P : Nat → Prop} (h : ∀ k ∈ firstPointKeys, P k) (intact : Bool) :
    (firstPointTrained intact).All (Prim.Calm P) := by
  simp only [firstPointKeys, List.forall_mem_append, List.forall_mem_cons, List.forall_mem_map] at h
  obtain ⟨⟨⟨hworking, hmapped, hband, hbase, hsize, hpoint, hretained, htrained, hevent, -⟩, hstate⟩, hforget⟩ := h
  have hkey : ∀ k ∈ forgetKeys, P k := hforget
  simp only [forgetKeys, List.forall_mem_append, List.forall_mem_cons, List.forall_mem_map] at hforget
  obtain ⟨⟨⟨⟨hscrub, hinit, hmissing, hfree, hcount, -⟩, hversions⟩, hpackage⟩, hlanes⟩ := hforget
  have hrecheck := calm_recheckJobs hlanes hfree hcount (hversions 0x5400 (by decide)) (hversions 0x5401 (by decide))
  have hover := calm_applyOverlap (hversions 0x5603 (by decide))
  have hfit : ∀ s : State, ∀ sc ∈ s.fitted, P (K.SubchannelState + sc) := fun s sc hsc =>
    hstate sc (List.mem_filter.mp hsc).1
  have hmap : rebuildMap.All (Prim.Calm P) := by
    simp [rebuildMap, hmapped, hband, calm_remapStore hbase hsize hfree hcount]
  have hshow : ∀ s : State, (each s.fitted fun sc => put (K.SubchannelState + sc) 3).All (Prim.Calm P) := fun s =>
    all_each fun sc hsc => hfit s sc hsc
  refine fun s => ?_
  dsimp only
  split
  · trivial
  refine ⟨hworking, hshow s, hmap, hpoint, fun u => ?_, trivial⟩
  dsimp only
  split
  · trivial
  refine ⟨⟨trivial, trivial⟩, ?_⟩
  split
  · exact ⟨hretained, htrained, trivial, hrecheck, hover, trivial⟩
  · exact ⟨hretained, calm_forgetDram hkey, calm_memEvent (by simpa using hevent) _, trivial⟩

theorem reg_each_put {l : List Nat} {x : Nat} (hx : x ∈ l) (k v : Nat) (s : State) :
    ((each l fun y => put (k + y) v).run s).reg (k + x) = v :=
  each_makes (P := fun u => u.reg (k + x) = v) hx
    (fun y _ u hu => by by_cases h : x = y <;> simp [h, hu]) (fun u => by simp) s

theorem working_lt {s : State} {sc : Nat} (h : sc ∈ s.working) : sc < 4 :=
  List.mem_range.mp (List.mem_filter.mp h).1

/-- Registers other than the subchannels' states are left when those are shown. -/
theorem calm_showStates {q : Nat} (hq : ∀ sc < 4, K.SubchannelState + sc ≠ q) (s : State) (v : Nat) :
    (each s.working fun sc => put (K.SubchannelState + sc) v).All (Prim.Calm (· ≠ q)) :=
  all_each fun _ hsc => hq _ (working_lt hsc)

theorem calm_enterSelfRefresh {P : Nat → Prop} (hp : P K.DramOperatingPoint) (hs : ∀ sc < 4, P (K.SubchannelState + sc)) :
    enterSelfRefresh.All (Prim.Calm P) := by
  have hshow : ∀ s : State, (each s.working fun sc => put (K.SubchannelState + sc) 4).All (Prim.Calm P) := fun s =>
    all_each fun _ hsc => hs _ (working_lt hsc)
  simp [enterSelfRefresh, hp, hshow]

/-- DRAM in use enters self-refresh: its point, the working subchannels' states and event 197 say so. -/
theorem enterSelfRefresh_freqNext (s : State) : (enterSelfRefresh.run s).dram.freqNext = s.dram.freqNext := by
  have hwrite : ∀ (a : Nat) (l : List Nat), (writeDram a l).All (Prim.Leaves fun u => u.dram.freqNext) := fun _ _ =>
    ⟨fun _ => rfl, fun _ => rfl⟩
  have hput : ∀ k v, (put k v).All (Prim.Leaves fun u => u.dram.freqNext) := fun _ _ _ => rfl
  have hall : enterSelfRefresh.All (Prim.Leaves fun u => u.dram.freqNext) := fun u => all_when fun _ => by
    simp only [all_seqs_cons, all_raise]
    exact ⟨fun _ => rfl, fun v => all_each fun _ _ => hwrite _ _, hput _ _, all_each fun _ _ => hput _ _,
      fun v => by simp, trivial⟩
  exact hall.leaves s

theorem enterSelfRefresh_shows {s : State} (h : s.dramUsable = true) :
    (enterSelfRefresh.run s).reg K.DramOperatingPoint = 0
      ∧ (∀ sc ∈ s.working, (enterSelfRefresh.run s).reg (K.SubchannelState + sc) = 4)
      ∧ s.raised [197] (enterSelfRefresh.run s) := by
  have hother := fun v => calm_showStates (q := K.DramOperatingPoint) (by decide) s v
  have hctl := fun v => calm_showStates (q := ctlKey) (by decide) s v
  rw [enterSelfRefresh, Act.run_read, h, run_when_true]
  refine ⟨?_, fun sc hsc => ?_, ?_⟩
  · simp [Act.All.reg_other, hother]
  · rw [run_seqs_three, run_seqs_cons, run_seqs_cons, run_seqs_nil, Act.All.reg_other (by simp), reg_each_put hsc]
  · exact raised_among (P := fun _ => True) (l₁ := [_, _, _, _]) (by simp [hctl]) (fun s _ => raised_raise rfl s) (by simp)

/-- A training's results stand in registers that coming into use leaves alone. -/
theorem firstPointKeys_ne : ∀ sc < 4, ∀ k ∈ firstPointKeys, k ≠ K.PointsTrained + sc ∧ k ≠ K.RetrainNeeded + sc
    ∧ k ≠ K.CalibrationCount + 5 ∧ k ≠ ctlKey := by decide

theorem fullTraining_completes (t sc point : Nat) (first second : TrainRun) (intact : Bool) :
    point = 3200 ∨ point = 4800 ∨ point = 6400 →
    first.window = true → second.window = true →
    Completes (.fullTraining t sc point first second intact) t
      (fun b => b.islandReady islMEM = true ∧ b.fitted.contains sc = true
        ∧ (point = 3200 ∨ bit (b.reg (K.PointsTrained + sc)) 0 = true)
        ∧ (b.dram.wantTraining = true ∨ bit (b.reg (K.PointsTrained + sc)) (pointBit point) = false)
        ∧ (b.mode = mReady ∨ b.mode = mService) ∧ runsAgree (b.reg K.TrainingTolerance) first second = true)
      fun b u => bit (u.reg (K.PointsTrained + sc)) (pointBit point) = true ∧ u.reg (K.RetrainNeeded + sc) = 0
        ∧ u.reg (K.CalibrationCount + 5) = (b.reg (K.CalibrationCount + 5) + 1) % 2 ^ 32 ∧ b.raised [191, 243] u
        ∧ b.only [.mem, .dict, .ev, .codec, .comp, .tone, .loop, .dram, .net, .health] u := by
  intro hpoint hfirst hsecond
  refine completes_of (fun _ => rfl) fun b _ ⟨hready, hfit, horder, hasked, hmode, hagree⟩ => ?_
  have hfitted : sc ∈ b.fitted := by simpa using hfit
  have hsc : sc < 4 := List.mem_range.mp (List.mem_filter.mp hfitted).1
  have hkeys := firstPointKeys_ne sc hsc
  have hknown : [3200, 4800, 6400].contains point = true := by rcases hpoint with h | h | h <;> simp [h]
  have horder' : (point == 3200 || bit (b.reg (K.PointsTrained + sc)) 0) = true := by simpa using horder
  have hasked' : (b.dram.wantTraining || b.flag (K.RetrainNeeded + sc)
      || !bit (b.reg (K.PointsTrained + sc)) (pointBit point)) = true := by
    rcases hasked with h | h <;> simp [h]
  have hmode' : (b.mode == mReady || b.mode == mService) = true := by simpa using hmode
  have hctl : ∀ a, ctlKey < a → a + sc ≠ ctlKey := fun a h => by omega
  simp only [Act.run_read]
  rw [run_ite_of_not (by simp only [hready, hfit, hknown, horder', hasked', hmode']; decide),
    run_ite_of_not (by simp [hfirst, hsecond]), run_ite_of hagree]
  have hpast := fun q (h : ∀ k ∈ firstPointKeys, k ≠ q) => calm_firstPointTrained (P := (· ≠ q)) h intact
  refine ⟨?_, ?_, ?_, raised_notifySend.mpr (raised_cons.mpr ⟨?_, ?_⟩), only_sent_of_fits (by simp [Dram.Sized]) b⟩
  · have h1 : K.RetrainNeeded + sc ≠ K.PointsTrained + sc := by simp only [K.RetrainNeeded, K.PointsTrained]; omega
    have h2 : K.MemoryEventSource + 7 ≠ K.PointsTrained + sc := by simp only [K.MemoryEventSource, K.PointsTrained]; omega
    have h3 : K.CalibrationCount + 5 ≠ K.PointsTrained + sc := by simp only [K.CalibrationCount, K.PointsTrained]; omega
    have h4 : K.CalibrationTime + 5 ≠ K.PointsTrained + sc := by simp only [K.CalibrationTime, K.PointsTrained]; omega
    rw [State.notifySend_reg, run_seqs_three, Act.All.reg_other]
    · simp [bit_setBit_same]
    · simp [h1, calm_memEvent, h2, calm_calibrationCounted, h3, h4, hpast _ fun k hk => (hkeys k hk).1]
  · have h2 : K.MemoryEventSource + 7 ≠ K.RetrainNeeded + sc := by
      simp only [K.MemoryEventSource, K.RetrainNeeded]; omega
    have h3 : K.CalibrationCount + 5 ≠ K.RetrainNeeded + sc := by simp only [K.CalibrationCount, K.RetrainNeeded]; omega
    have h4 : K.CalibrationTime + 5 ≠ K.RetrainNeeded + sc := by simp only [K.CalibrationTime, K.RetrainNeeded]; omega
    rw [State.notifySend_reg, run_seqs_three, run_seqs_cons, Act.All.reg_other]
    · simp
    · simp [calm_memEvent, h2, calm_calibrationCounted, h3, h4, hpast _ fun k hk => (hkeys k hk).2.1]
  · have h1 : K.PointsTrained + sc ≠ K.CalibrationCount + 5 := by simp only [K.CalibrationCount, K.PointsTrained]; omega
    have h2 : K.RetrainNeeded + sc ≠ K.CalibrationCount + 5 := by simp only [K.CalibrationCount, K.RetrainNeeded]; omega
    have h3 : K.SubchannelState + sc ≠ K.CalibrationCount + 5 := by
      simp only [K.CalibrationCount, K.SubchannelState]; omega
    rw [State.notifySend_reg, run_seqs_three, run_seqs_three, run_seqs_cons, run_seqs_cons, run_seqs_nil,
      Act.All.reg_other (by simp), (hpast _ fun k hk => (hkeys k hk).2.2.1).reg_other,
      calibrationCounted_count (kind := 6) (by decide), Act.All.reg_other (calm_memEvent (by decide) sc)]
    simp [-run_when, showTraining, Act.All.reg_other, h1.symm, h2.symm, h3]
  · exact raised_among (P := fun _ => True) (l₁ := [_, _, _, _])
      (by simp [showTraining, hctl K.PointsTrained (by decide), hctl K.RetrainNeeded (by decide), hctl K.SubchannelState (by decide)])
      (fun s _ => memEvent_raises (by decide) rfl sc s)
      (by simp [calm_calibrationCounted, calm_firstPointTrained, calm_memEvent])
  · exact raised_among (P := fun _ => True) (l₁ := [_, _, _, _, _])
      (by simp (decide := true) [showTraining, hctl K.PointsTrained (by decide), hctl K.RetrainNeeded (by decide), hctl K.SubchannelState (by decide), calm_memEvent])
      (fun s _ => calibrationCounted_raises (by decide) true s)
      (by simp [calm_firstPointTrained])

theorem trackingStep_completes (t sc : Nat) (drift : Int) :
    sc < 4 →
    Completes (.trackingStep t sc drift) t
      (fun b => b.reg (K.SubchannelState + sc) = 3 ∧ b.mode ≠ mStandby ∧ b.sys.deep = false)
      fun b u =>
        let lim : Int := b.reg K.DriftLimit
        u.dram = { b.dram with drift := modAt b.dram.drift sc (· + clampInt (-lim) lim drift) }
        ∧ (lim < drift.natAbs → u.reg (K.RetrainNeeded + sc) = 1) ∧ b.regsBut [K.RetrainNeeded + sc] u
        ∧ b.only [.dict, .dram] u := fun hsc => completes_of (fun _ => rfl) fun b _ ⟨hstate, hmode, hdeep⟩ => by
  simp only [Act.run_read]
  rw [run_when, if_pos (by simp [hsc, hstate, hmode, hdeep])]
  refine ⟨by simp [-run_when, dram_kept], fun hlim => ?_, regsBut_sent (by simp) b,
    only_sent_of_fits (by simp [Dram.Sized]) b⟩
  rw [Act.run_seq, run_when, if_pos (by simpa using hlim)]
  simp

theorem zqCalibration_completes (t : Nat) :
    Completes (.zqCalibration t) t
      (fun b => b.dramUsable = true ∧ b.mode ≠ mStandby ∧ b.dram.zqAt + 128000000 ≤ b.now)
      fun b u => u.dram = { b.dram with zqAt := b.now } ∧ b.only [.dram] u :=
  completes_of (fun _ => rfl) fun b _ ⟨husable, hmode, hdue⟩ => by
  simp only [Act.run_read]
  rw [run_when, if_pos (by simp [husable, hmode, hdue])]
  exact ⟨by simp, only_sent_of_fits (by simp [Dram.Sized]) b⟩

theorem retrainRequest_completes (t : Nat) (w : Wr) :
    Completes (.retrainRequest t w) t
      (fun b => b.takes 0x2C00 0x0F w 1 ∧ (b.mode = mReady ∨ b.mode = mService))
      fun b u => u.dram = { b.dram with wantTraining := true } ∧ b.only [.dram] u :=
  completes_write (fun _ => rfl) fun b ⟨htake, hmode⟩ => by
  refine ⟨1, _, htake, if_neg (by rcases hmode with h | h <;> simp [h]), by simp, only_write (by simp [Dram.Sized]) _ b⟩

theorem frequencyChange_completes (t took p : Nat) :
    p ≠ 0 →
    Completes (.frequencyChange t took) t
      (fun b => b.dram.freqNext = some p ∧ b.flag K.DramTrained = true ∧ b.reg K.DramOperatingPoint ≠ p
        ∧ b.pointTrained p = true)
      fun b u => u.reg K.DramOperatingPoint = p ∧ u.dram.freqNext = none
        ∧ u.reg K.FrequencyChangeTime = min took (2 ^ 32 - 1)
        ∧ (∀ sc ∈ b.working, u.reg (K.SubchannelState + sc) = 3) ∧ b.raised [198, 193] u
        ∧ b.only [.mem, .dict, .ev, .dram] u :=
  fun hp => completes_of (fun _ => rfl) fun b _ ⟨hnext, htrained, hpoint, hall⟩ => by
  have hshow := fun v => calm_showStates (q := K.DramOperatingPoint) (by decide) b v
  have hctl := fun v => calm_showStates (q := ctlKey) (by decide) b v
  have hsleep : enterSelfRefresh.All (Prim.Calm (· ≠ ctlKey)) := calm_enterSelfRefresh (by decide) (by decide)
  simp only [Act.run_read, hnext]
  rw [run_ite_of_not (by simp [htrained]), run_ite_of_not (Ne.symm hpoint), run_ite_of_not hp,
    run_ite_of_not (by simp [hall])]
  refine ⟨?_, ?_, ?_, fun sc hsc => ?_, ?_, only_sent_of_fits (by simp [Dram.Sized]) b⟩
  · simp [Act.All.reg_other, hshow]
  · simp [dram_kept, enterSelfRefresh_freqNext]
  · simp
  · have hlt := working_lt hsc
    have htime : K.FrequencyChangeTime ≠ K.SubchannelState + sc := by
      simp only [K.FrequencyChangeTime, K.SubchannelState]
      omega
    rw [State.notifySend_reg, run_seqs_three, run_seqs_cons, Act.All.reg_other (by simp [htime]), reg_each_put hsc]
  · refine raised_notifySend.mpr (raised_cons.mpr ⟨?_, ?_⟩)
    · exact raised_among (P := fun _ => True) (l₁ := [_, _, _, _]) (by simp [hctl, hsleep]) (fun s _ => raised_raise rfl s)
        (by simp)
    · exact raised_among (P := fun _ => True) (l₁ := [_, _, _, _, _, _, _]) (l₂ := []) (by simp [hctl, hsleep])
        (fun s _ => raised_raise rfl s) trivial

theorem frequencyChange_toSelfRefresh (t took : Nat) :
    Completes (.frequencyChange t took) t
      (fun b => b.dram.freqNext = some 0 ∧ b.flag K.DramTrained = true ∧ b.reg K.DramOperatingPoint ≠ 0)
      fun b u => u.reg K.DramOperatingPoint = 0 ∧ u.dram.freqNext = none
        ∧ (∀ sc ∈ b.working, u.reg (K.SubchannelState + sc) = 4) ∧ b.raised [197] u ∧ b.only [.mem, .dict, .ev, .dram] u :=
  completes_of (fun _ => rfl) fun b _ ⟨hnext, htrained, hpoint⟩ => by
  have husable : b.dramUsable = true := by simp [State.dramUsable, htrained, hpoint]
  simp only [Act.run_read, hnext]
  rw [run_ite_of_not (by simp [htrained]), run_ite_of_not (Ne.symm hpoint), run_ite_of trivial, Act.run_seq]
  obtain ⟨hzero, hstates, hraised⟩ := enterSelfRefresh_shows
    (s := (Act.prim (.dram fun d => { d with freqNext := none })).run b) husable
  exact ⟨(State.notifySend_reg _ _).trans hzero, by simp [enterSelfRefresh_freqNext],
    fun sc hsc => (State.notifySend_reg _ _).trans (hstates sc hsc), raised_notifySend.mpr (raised_after rfl hraised),
    only_sent_of_fits (a := .seq (.prim _) enterSelfRefresh) (by simp [Dram.Sized]) b⟩

theorem scrubUnit_initialises (t : Nat) (read : BurstRead) :
    Completes (.scrubUnit t read) t (fun b => b.dramUsable = true ∧ b.dram.swept = false)
      fun b u =>
        let a := b.reg K.ScrubPosition
        u.mem = Memory.erase b.mem a 64 ∧ u.reg K.InitialisedUpTo = a + 64
        ∧ u.reg K.ScrubPosition = (if b.dramEnd ≤ a + 64 then dramStart else a + 64)
        ∧ (b.dramEnd ≤ a + 64 → u.dram.swept = true ∧ b.raised [194] u) ∧ b.only [.mem, .dict, .ev, .dram] u :=
  completes_of (fun _ => rfl) fun b _ ⟨husable, hswept⟩ => by
  simp only [Act.run_read]
  rw [run_ite_of_not (by simp [husable]), run_ite_of (by simp [hswept])]
  refine ⟨?_, ?_, ?_, fun hwrap => ?_, only_sent_of_fits (by simp [Dram.Sized]) b⟩
  · simp [-run_when, mem_kept, Dram.Sized]
  · simp [-run_when, Act.All.reg_other, calm_syncJobStore]
  · simp [-run_when, Act.All.reg_other]
  · rw [decide_eq_true hwrap]
    refine ⟨by simp [dram_kept], raised_notifySend.mpr ?_⟩
    exact raised_among (P := fun _ => True) (l₁ := [_, _, _, _, _]) (l₂ := []) (by simp [clearPoison, calm_syncJobStore])
      (fun s _ => raised_among (P := fun _ => True) (l₁ := [_]) (l₂ := []) (by simp)
        (fun u _ => raised_after (u := (addTo K.ScrubPassCount 4 1).run u) (by simp) (raised_raise rfl _)) trivial) trivial

theorem scrubUnit_reads (t : Nat) (read : BurstRead) :
    Completes (.scrubUnit t read) t
      (fun b =>
        let a := b.reg K.ScrubPosition
        b.dramUsable = true ∧ b.dram.swept = true ∧ a ∉ b.dram.poison
        ∧ eccOf (b.markedOn (b.dramMap a).1 (b.rankOf (b.dramMap a).2)) read.errors = .clean)
      fun b u =>
        let a := b.reg K.ScrubPosition
        u.reg K.ScrubPosition = (if b.dramEnd ≤ a + 64 then dramStart else a + 64)
        ∧ (b.dramEnd ≤ a + 64 → u.reg K.ScrubPassCount = (b.reg K.ScrubPassCount + 1) % 2 ^ 32 ∧ b.raised [194] u)
        ∧ b.regsBut [K.ScrubPosition, K.ScrubPassCount] u ∧ b.only [.dict, .ev] u :=
  completes_of (fun _ => rfl) fun b _ => by
  intro hpre
  obtain ⟨husable, hswept, hpoison, hclean⟩ := hpre
  have hread : (readBurst (b.dramMap (b.reg K.ScrubPosition)).1 (.unit islMEM) (b.reg K.ScrubPosition) read).run b
      = (deliver (.unit islMEM) (b.reg K.ScrubPosition)).run b := by
    have hno : b.dram.poison.contains (b.reg K.ScrubPosition) = false := by simpa using hpoison
    simp only [readBurst, Act.run_read, hno, Bool.false_eq_true, if_false, hclean]
  simp only [Act.run_read]
  rw [run_ite_of_not (by simp [husable]), run_ite_of_not (by simp [hswept]), Act.run_seq, hread, ← Act.run_seq]
  refine ⟨?_, fun hwrap => ?_, regsBut_sent (by simp [deliver]) b, only_sent_of_fits (by simp) b⟩
  · simp [-run_when, deliver, Act.All.reg_other]
  · rw [decide_eq_true hwrap]
    refine ⟨by simp [deliver], raised_notifySend.mpr (raised_after 
      (u := (deliver (.unit islMEM) (b.reg K.ScrubPosition)).run b) (by simp [deliver]) ?_)⟩
    exact raised_among (P := fun _ => True) (l₁ := [_]) (l₂ := []) (by simp)
      (fun u _ => raised_after (u := (addTo K.ScrubPassCount 4 1).run u) (by simp) (raised_raise rfl _)) trivial

theorem ringAreaSizeWrite_completes (t v : Nat) (w : Wr) :
    Completes (.ringAreaSizeWrite t w) t (fun b => b.takes 0x2C00 6 w v ∧ b.reg K.JobCount = 0)
      fun b u => u.reg K.RingAreaSize = v ∧ u.reg K.JobStoreBase = ringStart + v
        ∧ u.reg K.JobStoreSize = b.reg K.MappedCapacity - (2 ^ 31 + v)
        ∧ b.regsBut [K.RingAreaSize, K.JobStoreBase, K.JobStoreSize, K.JobStoreFree, K.JobCount] u ∧ b.only [.dict] u :=
  completes_write (fun _ => rfl) fun b ⟨htake, hjobs⟩ => by
  refine ⟨v, _, htake, if_neg (by simp [hjobs]), ?_, ?_, ?_, regsBut_write ?_ _ b, only_write (by simp) _ b⟩
  · simp [Act.All.reg_other, calm_remapStore]
  · simp [remapStore, State.jobStart, Act.All.reg_other, calm_syncJobStore]
  · simp [remapStore, Act.All.reg_other, calm_syncJobStore]
  · simp [calm_remapStore]

theorem dramInitialised_completes (t : Nat) :
    Completes (.dramInitialised t) t
      (fun b => b.pointTrained 3200 = true ∧ b.dram.initialised = false ∧ b.reg K.DramOperatingPoint ≠ 0)
      fun b u => u.reg K.DramTrained = 1 ∧ u.dram.initialised = true ∧ u.reg K.InitialisedUpTo = b.jobStart
        ∧ b.only [.mem, .dict, .tone, .dram, .health] u :=
  completes_of (fun _ => rfl) fun b _ ⟨htrained, hnew, hpoint⟩ => by
  simp only [Act.run_read]
  rw [run_when, if_pos (by simp [htrained, hnew, hpoint])]
  refine ⟨?_, ?_, ?_, only_sent_of_fits (by simp [Dram.Sized]) b⟩
  · simp (decide := true) [Act.All.reg_other, calm_applyOverlap]
  · simp [dram_kept]
  · simp (decide := true) [Act.All.reg_other, calm_applyOverlap]

/-- Settles O33: DRAM is trained, tracked, calibrated, changed in frequency, scrubbed and resized. -/
theorem dramCareCompletes : Obligations.DramCareCompletes :=
  ⟨fullTraining_completes, trackingStep_completes, zqCalibration_completes, retrainRequest_completes,
    frequencyChange_completes, frequencyChange_toSelfRefresh, scrubUnit_initialises, scrubUnit_reads,
    ringAreaSizeWrite_completes, dramInitialised_completes⟩

end Sys2Proof.Machine
end

section
/-! # DRAM accesses, errors, alerts and refresh (R352, R361–R369, R377) -/

namespace Sys2Proof.Machine

/-! ### Which request is served -/

theorem nextRequest_mem {s : State} {sc : Nat} {l : List DramReq} {r : DramReq} (h : s.nextRequest sc l = some r) :
    r ∈ l := by
  induction l generalizing r with
  | nil => cases h
  | cons x l ih =>
    rw [State.nextRequest] at h
    split at h
    · exact Option.some.inj h ▸ List.mem_cons_self
    next b hb =>
      split at h
      · exact Option.some.inj h ▸ List.mem_cons_self
      · exact Option.some.inj h ▸ List.mem_cons_of_mem _ (ih hb)

theorem dramMap_lt (s : State) (addr : Nat) : (s.dramMap addr).1 < 4 := by
  simp only [State.dramMap, List.getD_eq_getElem?_getD]
  cases h : s.working[(addr - dramStart) / 256 % if s.working.isEmpty = true then 1 else s.working.length]? with
  | none => decide
  | some x => exact working_lt (List.mem_of_getElem? h)

/-- The subchannel of a request that is served is one of the four. -/
theorem served_lt {s : State} {sc : Nat} {reqs : List DramReq} {r : DramReq} (h : s.nextRequest sc (reqs.filter fun r =>
      (s.dramMap r.addr).1 == sc && dramStart ≤ r.addr && r.addr < s.dramEnd) = some r) : sc < 4 := by
  have hr := (List.mem_filter.mp (nextRequest_mem h)).2
  simp only [Bool.and_eq_true, beq_iff_eq] at hr
  exact hr.1.1 ▸ dramMap_lt s r.addr

/-! ### What stays of the DRAM controller's state -/

/-- What a tree leaves of the DRAM controller's state, it leaves of any reading of that state. -/
theorem leaves_dram {α : Type} (g : Dram → α) {a : Act} (h : a.All (Prim.Fits (Piece.but .dram))) :
    a.All (Prim.Leaves fun u => g u.dram) := h.mono fun p hp s =>
  congrArg g (Prim.only_touches p s .dram fun hm => by simpa using hp.1 _ hm)

/-- The alerts of the subchannels and their ALERT_n balls. -/
def Dram.alerts (d : Dram) : List (Option Nat) × List Bool := (d.alert, d.asserted)

theorem leavesAlerts_orderlyStop (reason : Nat) : (orderlyStop reason).All (Prim.Leaves fun u => u.dram.alerts) := by
  have hfit : ∀ {a : Act}, a.All (Prim.Fits (Piece.but .dram)) → a.All (Prim.Leaves fun u => u.dram.alerts) :=
    leaves_dram Dram.alerts
  refine fun s => all_ite (fun _ => hfit (by simp)) fun _ => ?_
  exact ⟨hfit (by simp), hfit (by simp), fun _ => rfl, hfit (by simp), hfit (by simp), hfit (by simp), hfit (by simp),
    hfit (by simp), hfit (by simp), hfit (by simp), fun _ => rfl, hfit (by simp), trivial⟩

theorem leavesAlerts_forgetDram : forgetDram.All (Prim.Leaves fun u => u.dram.alerts) := by
  have hfit : ∀ {a : Act}, a.All (Prim.Fits (Piece.but .dram)) → a.All (Prim.Leaves fun u => u.dram.alerts) :=
    leaves_dram Dram.alerts
  exact ⟨hfit (by simp), fun _ => rfl, hfit (by simp), hfit (by simp), hfit (by simp), hfit (by simp), hfit (by simp),
    hfit (by simp), fun _ => rfl, hfit (by simp), trivial⟩

theorem leavesAlerts_retireSubchannel (sc : Nat) :
    (retireSubchannel sc).All (Prim.Leaves fun u => u.dram.alerts) := by
  have hfit : ∀ {a : Act}, a.All (Prim.Fits (Piece.but .dram)) → a.All (Prim.Leaves fun u => u.dram.alerts) :=
    leaves_dram Dram.alerts
  exact ⟨hfit (by simp), hfit (by simp), fun _ => all_when fun _ => leavesAlerts_orderlyStop 5, hfit (by simp),
    hfit (by simp), leavesAlerts_forgetDram, hfit (by simp), hfit (by simp), hfit (by simp), trivial⟩

theorem survivesBook_dram (T : Dram → Prop) : SurvivesBook fun s => T s.dram := fun a _ ha s hs => by
  show T (a.run s).dram
  rwa [show (a.run s).dram = s.dram from only_of_fits ha s .dram (by simp)]

theorem memFault_alerts (sc event addr : Nat) (s : State) :
    ((memFault sc event addr).run s).dram.alerts = s.dram.alerts :=
  faultOccurrence_keeps (R := fun u => u.dram.alerts = s.dram.alerts) (survivesBook_dram fun d => d.alerts = s.dram.alerts)
    (fun u hu => ((leavesAlerts_retireSubchannel sc).leaves u).trans hu) _ event addr s rfl

/-! ### A subchannel is retired -/

/-- The registers that a subchannel's retirement sets besides its state and its events' (R377). -/
def goneKeys : List Nat :=
  [K.SubchannelsWorking, K.MappedCapacity, K.DramBandwidth, K.JobStoreBase, K.JobStoreSize, K.DramTrained,
    K.DramOperatingPoint, K.MemoryEventSource + 15] ++ stopKeys ++ forgetKeys

/-- What follows a retirement's event and state. -/
def goneOf (sc : Nat) : Act :=
  seqs [
    stopIfPrinting 5,
    .read (fun s => put K.SubchannelsWorking (setBit (s.reg K.SubchannelsWorking) sc false)),
    rebuildMap,
    forgetDram,
    memEvent 199 sc,
    put K.DramTrained 0,
    .read (fun s => when s.working.isEmpty (put K.DramOperatingPoint 0)) ]

theorem retireSubchannel_eq (sc : Nat) :
    retireSubchannel sc = .seq (memEvent 195 sc) (.seq (put (K.SubchannelState + sc) 5) (goneOf sc)) := rfl

theorem calm_goneOf {P : Nat → Prop} (h : ∀ k ∈ goneKeys, P k) (sc : Nat) : (goneOf sc).All (Prim.Calm P) := by
  simp only [goneKeys, List.forall_mem_append, List.forall_mem_cons] at h
  obtain ⟨⟨⟨hworking, hmapped, hband, hbase, hsize, htrained, hpoint, hevent, -⟩, hstop⟩, hforget⟩ := h
  have hcount : P K.JobCount := hforget _ (by decide)
  have hfree : P K.JobStoreFree := hforget _ (by decide)
  have hmap : rebuildMap.All (Prim.Calm P) := by
    simp [rebuildMap, hmapped, hband, calm_remapStore hbase hsize hfree hcount]
  exact ⟨calm_stopIfPrinting hstop 5, fun _ => hworking, hmap, calm_forgetDram hforget,
    calm_memEvent (by simpa using hevent) sc, htrained, fun _ => all_when fun _ => hpoint, trivial⟩

theorem calm_retireSubchannel {P : Nat → Prop} {sc : Nat} (hs : P (K.SubchannelState + sc))
    (he : P (K.MemoryEventSource + 11)) (h : ∀ k ∈ goneKeys, P k) : (retireSubchannel sc).All (Prim.Calm P) :=
  ⟨calm_memEvent (by simpa using he) sc, hs, calm_goneOf h sc⟩

theorem goneKeys_ne : ∀ sc < 4, ∀ k ∈ goneKeys, k ≠ K.SubchannelState + sc := by decide

theorem retireSubchannel_state {sc : Nat} (hsc : sc < 4) (s : State) :
    ((retireSubchannel sc).run s).reg (K.SubchannelState + sc) = 5 := by
  rw [retireSubchannel_eq, Act.run_seq, Act.run_seq,
    (calm_goneOf (P := (· ≠ _)) (goneKeys_ne sc hsc) sc).reg_other]
  simp

theorem retireSubchannel_raises (sc : Nat) (s : State) : s.raised [195] ((retireSubchannel sc).run s) :=
  raised_before (memEvent_raises (by decide) rfl sc s) (a := .seq (put (K.SubchannelState + sc) 5) (goneOf sc))
    (P := fun _ => True) ⟨trivial, calm_goneOf (fun _ _ => trivial) sc⟩

/-! ### Refreshes owed -/

theorem owedOf_setOwed (sc key n x : Nat) (s : State) :
    ((setOwed sc key n).run s).owedOf sc x = if x = key then n else s.owedOf sc x := by
  show ((((sc, key, n) :: s.dram.owed.filter fun o => !(o.1 == sc && o.2.1 == key)).find?
    fun o => o.1 == sc && o.2.1 == x).map (·.2.2)).getD 0 = _
  by_cases h : x = key
  · simp [h]
  · have hfilter : (s.dram.owed.filter fun o => !(o.1 == sc && o.2.1 == key)).find? (fun o => o.1 == sc && o.2.1 == x)
        = s.dram.owed.find? fun o => o.1 == sc && o.2.1 == x := by
      rw [List.find?_filter]
      congr 1
      funext o
      by_cases hx : o.2.1 = x <;> simp [hx, h, Bool.beq_eq_decide_eq]
    rw [List.find?_cons_of_neg (by simp [Ne.symm h]), hfilter, if_neg h]
    rfl

/-- A value that one element of a walk sets and the others leave is the one that element gives it. -/
theorem each_sets {α β : Type} {l : List α} {f : α → Act} {x : α} {g : State → β} {v w : β} (hx : x ∈ l) (hl : l.Nodup)
    (hother : ∀ y ∈ l, y ≠ x → ∀ s, g ((f y).run s) = g s) (hset : ∀ s, g s = v → g ((f x).run s) = w) {s : State}
    (hs : g s = v) : g ((each l f).run s) = w := by
  induction l generalizing s with
  | nil => cases hx
  | cons y l ih =>
    obtain ⟨hy, hnodup⟩ := List.nodup_cons.mp hl
    have hrest : ∀ z ∈ l, z ≠ x → ∀ s, g ((f z).run s) = g s := fun z hz => hother z (List.mem_cons_of_mem _ hz)
    rw [run_each_cons]
    rcases List.mem_cons.mp hx with rfl | hm
    · exact each_keeps (P := fun u => g u = w)
        (fun z hz u hu => (hrest z hz (fun e => hy (e ▸ hz)) u).trans hu) (hset s hs)
    · exact ih hm hnodup hrest ((hother y List.mem_cons_self (fun e => hy (e ▸ hm)) s).trans hs)

/-- What a tREFI boundary does to one rank and bank (R363). -/
def refreshOne (sc : Nat) (busy : List Nat) (key : Nat) : Act :=
  .read fun s =>
    let owed := s.owedOf sc key
    if 4 ≤ owed then
      seqs [addTo (K.ForcedRefreshes + sc) 4 1,
        .prim (.dram fun d => { d with openRows := d.openRows.filter fun r =>
          !(r.1 == sc && r.2.1 / 8 % 4 == key % 4 && r.2.1 / 32 == key / 4) }),
        setOwed sc key (if busy.contains key then 1 else 0)]
    else if busy.contains key then
      .seq (setOwed sc key (owed + 1)) (when (owed + 1 == 4) (memEvent 190 sc))
    else setOwed sc key 0

theorem owedOf_of_fits {a : Act} (h : a.All (Prim.Fits (Piece.but .dram))) (sc key : Nat) (s : State) :
    (a.run s).owedOf sc key = s.owedOf sc key := by rw [State.owedOf, dram_kept h, State.owedOf]

theorem owedOf_refreshOne (sc : Nat) (busy : List Nat) (key x : Nat) (s : State) :
    ((refreshOne sc busy key).run s).owedOf sc x = if x = key then
        if busy.contains key = false then 0 else if 4 ≤ s.owedOf sc key then 1 else s.owedOf sc key + 1
      else s.owedOf sc x := by
  rw [refreshOne, Act.run_read]
  by_cases hforced : 4 ≤ s.owedOf sc key
  · rw [run_ite_of hforced, run_seqs_three, run_seqs_nil, owedOf_setOwed]
    have hbefore : ((Act.prim (.dram fun d => { d with openRows := d.openRows.filter fun r =>
        !(r.1 == sc && r.2.1 / 8 % 4 == key % 4 && r.2.1 / 32 == key / 4) })).run
          ((addTo (K.ForcedRefreshes + sc) 4 1).run s)).owedOf sc x = s.owedOf sc x := rfl
    rw [hbefore]
    cases busy.contains key <;> simp [hforced]
  rw [run_ite_of_not hforced]
  cases hbusy : busy.contains key with
  | true =>
    rw [run_ite_of rfl, Act.run_seq, owedOf_of_fits (by simp), owedOf_setOwed]
    simp [hforced]
  | false =>
    rw [run_ite_of_not (by simp), owedOf_setOwed]
    simp

theorem dramAccess_writes (t sc : Nat) (reqs : List DramReq) (read : BurstRead) (r : DramReq) (l : List Nat) :
    Completes (.dramAccess t sc reqs read) t
      (fun b => b.dramUsable = true ∧ b.dram.asserted.getD sc false = false ∧ b.reg (K.SubchannelState + sc) = 3
        ∧ b.nextRequest sc (reqs.filter fun r =>
            (b.dramMap r.addr).1 == sc && dramStart ≤ r.addr && r.addr < b.dramEnd) = some r
        ∧ protectedFrom r.who r.addr = false ∧ r.write = some l)
      fun b u => u.mem = Memory.storeBytes b.mem r.addr (l.take (64 - r.addr % 64)) ∧ b.only [.mem, .dram] u :=
  completes_of (fun _ => rfl) fun b _ ⟨husable, halert, hstate, hnext, hopen, hwrite⟩ => by
  simp only [Act.run_read]
  rw [run_ite_of_not (by rw [husable, halert, hstate]; decide)]
  simp only [hnext, hopen, hwrite]
  exact ⟨by simp [openRow, writeBurst, writeDram, clearPoison], only_sent_of_fits (by simp [Dram.Sized, openRow, writeBurst]) b⟩

theorem readBurst_clean {sc addr : Nat} {who : Initiator} {read : BurstRead} {s : State} (hno : addr ∉ s.dram.poison)
    (hclean : eccOf (s.markedOn sc (s.rankOf (s.dramMap addr).2)) read.errors = .clean) :
    (readBurst sc who addr read).run s = (deliver who addr).run s := by
  simp [readBurst, hno, hclean]

theorem readBurst_poisoned {sc addr : Nat} {who : Initiator} {read : BurstRead} {s : State} (h : addr ∈ s.dram.poison) :
    (readBurst sc who addr read).run s = (poisonedRead sc who addr).run s := by
  simp [readBurst, h]

@[simp] theorem calm_errorResponse (P : Nat → Prop) (who : Initiator) (addr : Nat) :
    (errorResponse who addr).All (Prim.Calm P) := by
  cases who <;> simp [errorResponse]

@[simp] theorem inner_errorResponse (who : Initiator) (addr : Nat) : (errorResponse who addr).All Prim.Inner := by
  cases who <;> simp [errorResponse]

/-- What a request that is served does before its access (R362, R368). -/
def servedOf (sc addr : Nat) : Act := .seq (.prim (.dram fun d => { d with alert := d.alert.set sc none })) (openRow sc addr)

theorem run_servedOf (sc addr : Nat) (a : Act) (s : State) :
    (Act.seq (.prim (.dram fun d => { d with alert := d.alert.set sc none })) (.seq (openRow sc addr) a)).run s
      = a.run ((servedOf sc addr).run s) := rfl

theorem dramAccess_reads (t sc : Nat) (reqs : List DramReq) (read : BurstRead) (r : DramReq) :
    Completes (.dramAccess t sc reqs read) t
      (fun b =>
        let a := r.addr / 64 * 64
        b.dramUsable = true ∧ b.dram.asserted.getD sc false = false ∧ b.reg (K.SubchannelState + sc) = 3
        ∧ b.nextRequest sc (reqs.filter fun r =>
            (b.dramMap r.addr).1 == sc && dramStart ≤ r.addr && r.addr < b.dramEnd) = some r
        ∧ protectedFrom r.who r.addr = false ∧ r.write = none
        ∧ (a ∈ b.dram.poison ∨ eccOf (b.markedOn sc (b.rankOf (b.dramMap a).2)) read.errors = .clean))
      fun b u =>
        let a := r.addr / 64 * 64
        (a ∉ b.dram.poison → .loaded r.who a (b.bytesAt a 64) ∈ u.out ∧ b.only [.dram] u)
        ∧ (a ∈ b.dram.poison → u.reg (K.PoisonedReads + sc) = (b.reg (K.PoisonedReads + sc) + 1) % 2 ^ 32
          ∧ b.raised [186] u ∧ b.only [.dict, .ev, .dram] u) := completes_of (fun _ => rfl) fun b _ => by
  intro hpre
  obtain ⟨husable, halert, hstate, hnext, hopen, hwrite, hclean⟩ := hpre
  have hsc := served_lt hnext
  simp only [Act.run_read]
  rw [run_ite_of_not (by rw [husable, halert, hstate]; decide)]
  simp only [hnext, hopen, hwrite, Bool.false_eq_true, if_false]
  rw [run_servedOf]
  refine ⟨fun hno => ?_, fun hin => ?_⟩
  · rw [readBurst_clean (s := (servedOf sc r.addr).run b) hno (hclean.resolve_left hno)]
    exact ⟨mem_out_notifySend (by simp [deliver, servedOf, openRow, State.bytesAt]), only_sent_of_fits (a := .seq (servedOf sc r.addr) (deliver r.who _))
      (by simp [deliver, servedOf, openRow, Dram.Sized]) b⟩
  · rw [readBurst_poisoned (s := (servedOf sc r.addr).run b) hin]
    have hkey : K.MemoryEventSource + 2 ≠ K.PoisonedReads + sc := by simp only [K.MemoryEventSource, K.PoisonedReads]; omega
    refine ⟨?_, ?_, only_sent_of_fits (a := .seq (servedOf sc r.addr) (poisonedRead sc r.who _))
      (by simp [poisonedRead, servedOf, openRow, Dram.Sized]) b⟩
    · simp [poisonedRead, Act.All.reg_other, calm_memEvent, hkey, servedOf, openRow]
    · refine raised_notifySend.mpr (raised_after (u := (servedOf sc r.addr).run b) rfl ?_)
      exact raised_among (P := fun _ => True) (l₁ := [_]) (by simp [K.PoisonedReads, ctlKey]; omega)
        (fun s _ => memEvent_raises (by decide) rfl sc s) (by simp)

theorem accessError_completes (t addr : Nat) (who : Initiator) (write : Bool) :
    Completes (.accessError t who addr write) t
      (fun b => b.mapped addr = false ∨ (protectedFrom who addr = true ∧ addr < b.dramEnd))
      fun b u => (write = false → .loaded who addr [0] ∈ u.out) ∧ (∀ k, who = .core k → .accessFault k addr ∈ u.out)
        ∧ (∀ c, who = .dma c → .busError c addr ∈ u.out) ∧ b.regsBut [K.ProtectedAccessRefused] u ∧ b.only [.dict] u :=
  completes_of (fun _ => rfl) fun b _ hbad => by
  simp only [Act.run_read]
  rw [run_ite_of_not (by rcases hbad with h | ⟨h, h'⟩ <;> simp [*])]
  refine ⟨fun hread => ?_, fun k hk => ?_, fun c hc => ?_, regsBut_sent (by simp) b, only_sent_of_fits (by simp) b⟩
  · refine mem_out_notifySend (sent_among (l₁ := [_]) (fun s => ?_) (by simp))
    simp [hread]
  · refine mem_out_notifySend (sent_among (l₁ := [_, _]) (fun s => ?_) (by simp))
    simp [hk, errorResponse]
  · refine mem_out_notifySend (sent_among (l₁ := [_, _]) (fun s => ?_) (by simp))
    simp [hc, errorResponse]

theorem deviceMarkClear_completes (t sc : Nat) (w : Wr) :
    Completes (.deviceMarkClear t sc w) t (fun b => b.takes 0x2C18 (sc + 1) w 1 ∧ b.mode = mReady)
      fun b u => u.reg (K.MarkedDevice + sc) = 0xFF
        ∧ u.dram = { b.dram with marks := b.dram.marks.filter fun m => m.1 != sc }
        ∧ b.regsBut [K.MarkedDevice + sc] u ∧ b.only [.dict, .dram] u :=
  completes_write (fun _ => rfl) fun b ⟨htake, hmode⟩ => by
  refine ⟨1, _, htake, if_neg (by simp [hmode]), by simp, by simp, regsBut_write (by simp) _ b,
    only_write (by simp [Dram.Sized]) _ b⟩

/-- What a new alert does once it is recorded (R368): its event, and a fault of its subchannel. -/
def alertFault (sc e : Nat) : Act := seqs [memEvent e sc, memFault sc e 0]

theorem alertFault_alerts (sc e : Nat) (s : State) : ((alertFault sc e).run s).dram.alerts = s.dram.alerts := by
  rw [alertFault, run_seqs_cons, run_seqs_cons, run_seqs_nil, memFault_alerts, dram_kept (by simp)]

theorem present_subchannel {sc : Nat} (hsc : sc < 4) (s : State) : s.sourceAbsent (faultSource 0 sc) = false := by
  have hsize : classSize.getD 0 0 = 4 := by decide
  have hdiv : (32 * 0 + sc) / 32 = 0 := by omega
  have hmod : (32 * 0 + sc) % 32 = sc := by omega
  simp only [State.sourceAbsent, faultSource, hdiv, hmod, hsize]
  simp
  omega

theorem calm_retireSubchannel_source {sc : Nat} (hsc : sc < 4) :
    (retireSubchannel sc).All (Prim.Calm (· ≠ K.LastFaultSource)) :=
  calm_retireSubchannel (by simp only [K.SubchannelState, K.LastFaultSource]; omega) (by decide) (by decide)

theorem alertFault_source {sc : Nat} (hsc : sc < 4) (e : Nat) (s : State) :
    ((alertFault sc e).run s).reg K.LastFaultSource = faultSource 0 sc := by
  rw [alertFault, run_seqs_cons, run_seqs_cons, run_seqs_nil]
  exact faultOccurrence_source (present_subchannel hsc _) (calm_retireSubchannel_source hsc)

theorem alertFault_raises {sc e : Nat} (hk : K.MemoryEventSource + (e - 184) ≠ ctlKey) (he : reservedEvent e = false)
    (s : State) : s.raised [e] ((alertFault sc e).run s) :=
  raised_head (memEvent_raises hk he sc s) (P := fun _ => True) (by simp [memFault, calm_retireSubchannel])

theorem alertN_begins (t sc : Nat) (writeCrc : Bool) :
    sc < 4 →
    Completes (.alertN t sc writeCrc) t
      (fun b => b.reg (K.SubchannelState + sc) = 3 ∧ b.dram.alert.getD sc none = none ∧ sc < b.dram.alert.length
        ∧ sc < b.dram.asserted.length)
      fun b u => u.dram.alert.getD sc none = some 0 ∧ u.dram.asserted.getD sc false = true
        ∧ u.reg K.LastFaultSource = faultSource 0 sc ∧ b.raised [if writeCrc = true then 188 else 187] u
        ∧ b.only [.mem, .dict, .ev, .sys, .codec, .comp, .fire, .loop, .dram, .net, .time, .health] u :=
  fun hsc => completes_of (fun _ => rfl) fun b _ ⟨hstate, halert, hlen, hlen'⟩ => by
  simp only [Act.run_read]
  rw [run_ite_of_not (by simp [hstate, hsc])]
  simp only [halert]
  generalize he : (if writeCrc = true then 188 else 187) = e
  have hevent : K.MemoryEventSource + (e - 184) ≠ ctlKey ∧ reservedEvent e = false := by
    cases writeCrc <;> subst he <;> decide
  have halerts := fun u => Prod.mk.inj (alertFault_alerts sc e u)
  rw [run_seqs_cons, run_seqs_cons, ← alertFault]
  refine ⟨?_, ?_, ?_, ?_, only_sent_of_fits
    (a := .seq (.prim _) (.seq (.prim _) (alertFault sc e))) (by simp [alertFault, memFault, retireSubchannel, Dram.Sized]) b⟩
  · rw [State.notifySend_dram, (halerts _).1]
    simp [hlen]
  · rw [State.notifySend_dram, (halerts _).2]
    simp [hlen']
  · rw [State.notifySend_reg, alertFault_source hsc]
  · exact raised_notifySend.mpr (raised_after (by simp) (alertFault_raises hevent.1 hevent.2 _))

/-- What is noted of a permanent fault before its source is retired (R437). -/
def permanentNote (src event detail : Nat) : Act :=
  .read fun s =>
    let l := s.faultWindow src ++ [s.now]
    seqs [put K.LastFaultSource src, .prim (.health (setWindow src l)), raise 241, addTo K.PermanentCount 4 1,
      faultLog src 1 l.length event detail]

/-- What is noted of a source's retirement before its owner acts (R437). -/
def retirementNote (src event detail : Nat) : Act :=
  .read fun s => seqs [.prim (.health fun h => { h with retired := src :: h.retired }),
    faultTable src 1 (s.faultWindow src).length, faultLog src 2 (s.faultWindow src).length event detail, raise 242]

theorem isRetired_kept {a : Act} (h : a.All (Prim.Fits (Piece.but .health))) (src : Nat) (s : State) :
    (a.run s).isRetired src = s.isRetired src := by rw [State.isRetired, health_kept h, State.isRetired]

theorem permanentNote_isRetired (src event detail x : Nat) (s : State) :
    ((permanentNote src event detail).run s).isRetired x = s.isRetired x := by
  rw [permanentNote, Act.run_read, run_seqs_cons, run_seqs_cons, isRetired_kept (by simp)]
  rfl

/-- A permanent fault of a source in use is noted, its source retired, and its owner acts. -/
theorem run_faultPermanent {src : Nat} {s : State} (hthere : s.sourceAbsent src = false) (hin : s.isRetired src = false)
    (event detail : Nat) (owner : Act) : (faultPermanent src event detail owner).run s
      = owner.run ((retirementNote src event detail).run ((permanentNote src event detail).run s)) := by
  have hstill := (permanentNote_isRetired src event detail src s).trans hin
  rw [faultPermanent, Act.run_read, hthere, run_ite_of_not (by decide), hin, run_ite_of_not (by decide)]
  refine (run_seqs_append [_, _, _, _, _] [retireSource src event detail owner] s).trans ?_
  rw [permanentNote, Act.run_read] at hstill ⊢
  rw [run_seqs_cons, run_seqs_nil, retireSource, Act.run_read, hstill, run_ite_of_not (by decide), retirementNote, Act.run_read]
  exact run_seqs_append [_, _, _, _] [owner] _

theorem permanentNote_raises (src event detail : Nat) (s : State) :
    s.raised [241] ((permanentNote src event detail).run s) := by
  rw [permanentNote, Act.run_read]
  exact raised_among (P := fun _ => True) (l₁ := [_, _]) (by simp) (fun s _ => raised_raise rfl s) (by simp)

theorem retirementNote_raises (src event detail : Nat) (s : State) :
    s.raised [242] ((retirementNote src event detail).run s) := by
  rw [retirementNote, Act.run_read]
  exact raised_among (P := fun _ => True) (l₁ := [_, _, _]) (by simp [faultTable]) (fun s _ => raised_raise rfl s) (by simp)

theorem retirementNote_retires (src event detail : Nat) (s : State) :
    ((retirementNote src event detail).run s).isRetired src = true := by
  rw [retirementNote, Act.run_read, run_seqs_cons, isRetired_kept (by simp [faultTable])]
  simp [State.isRetired]

/-- What is left of the DRAM controller's state by a permanent fault's owner, the fault leaves. -/
theorem faultPermanent_alerts {src : Nat} {owner : Act} (howner : owner.All (Prim.Leaves fun u => u.dram.alerts))
    (event detail : Nat) (s : State) :
    ((faultPermanent src event detail owner).run s).dram.alerts = s.dram.alerts := by
  have hfit : ∀ {a : Act}, a.All (Prim.Fits (Piece.but .dram)) → a.All (Prim.Leaves fun u => u.dram.alerts) :=
    leaves_dram Dram.alerts
  refine Act.All.leaves (g := fun u => u.dram.alerts) (a := faultPermanent src event detail owner) (fun s => ?_) s
  refine all_ite (fun _ => trivial) fun _ => all_ite (fun _ => hfit (by simp)) fun _ => ?_
  refine ⟨hfit (by simp), fun _ => rfl, hfit (by simp), hfit (by simp), hfit (by simp), fun _ => ?_, trivial⟩
  exact all_ite (fun _ => trivial) fun _ => ⟨fun _ => rfl, fun _ => rfl, hfit (by simp), hfit (by simp), howner, trivial⟩

/-- A permanent fault of a source in use: raised, its source retired, and the owner's events raised. -/
theorem faultPermanent_raises {src : Nat} {s : State} {l : List Nat} (hthere : s.sourceAbsent src = false)
    (hin : s.isRetired src = false) (event detail : Nat) {owner : Act} (howner : ∀ u : State, u.raised l (owner.run u))
    (hcalm : owner.All (Prim.Calm fun _ => True)) :
    s.raised (241 :: 242 :: l) ((faultPermanent src event detail owner).run s) := by
  rw [run_faultPermanent hthere hin]
  have hnote : (permanentNote src event detail).All (Prim.Calm (· ≠ ctlKey)) := by simp [permanentNote]
  have hnote' : (retirementNote src event detail).All (Prim.Calm (· ≠ ctlKey)) := by simp [retirementNote, faultTable]
  refine raised_cons.mpr ⟨?_, raised_after (hnote.reg_other s) (raised_cons.mpr ⟨?_, ?_⟩)⟩
  · exact raised_before (raised_before (permanentNote_raises src event detail s) hnote') hcalm
  · exact raised_before (retirementNote_raises src event detail _) hcalm
  · exact raised_after (hnote'.reg_other _) (howner _)

theorem alertN_failsReplay (t sc n : Nat) (writeCrc : Bool) :
    sc < 4 → 3 ≤ n →
    Completes (.alertN t sc writeCrc) t
      (fun b => b.reg (K.SubchannelState + sc) = 3 ∧ b.dram.alert.getD sc none = some n
        ∧ b.isRetired (faultSource 0 sc) = false)
      fun b u => u.dram.alert.getD sc none = none ∧ u.reg (K.SubchannelState + sc) = 5
        ∧ u.isRetired (faultSource 0 sc) = true ∧ b.raised [189, 241, 242, 195] u
        ∧ b.only [.mem, .dict, .ev, .sys, .codec, .comp, .fire, .loop, .dram, .net, .time, .health] u :=
  fun hsc hn => completes_of (fun _ => rfl) fun b _ ⟨hstate, halert, hretired⟩ => by
  simp only [Act.run_read]
  rw [run_ite_of_not (by simp [hstate, hsc])]
  simp only [halert]
  rw [run_ite_of hn, run_seqs_cons, run_seqs_cons]
  generalize hu : (memEvent 189 sc).run _ = u
  have hdram : u.dram.alerts = (b.dram.alert.set sc none, b.dram.asserted.set sc false) := by
    rw [← hu, dram_kept (by simp)]
    rfl
  have hretired' : u.isRetired (faultSource 0 sc) = false := by
    rw [← hu, State.isRetired, health_kept (by simp)]
    exact hretired
  have hraised : b.raised [189] u := hu ▸ raised_after (by simp) (memEvent_raises (by decide) rfl sc _)
  have hctl : u.reg ctlKey = b.reg ctlKey := by
    rw [← hu, (calm_memEvent (P := (· ≠ ctlKey)) (by decide) sc).reg_other]
    rfl
  have hthere := present_subchannel hsc u
  rw [run_seqs_cons, run_seqs_nil]
  refine ⟨?_, ?_, ?_, raised_notifySend.mpr (raised_cons.mpr ⟨?_, ?_⟩), ?_⟩
  · have halerts := (faultPermanent_alerts (src := faultSource 0 sc) (leavesAlerts_retireSubchannel sc) 189 0 u).trans hdram
    rw [State.notifySend_dram, (Prod.mk.inj halerts).1]
    by_cases h : sc < b.dram.alert.length <;> simp [h]
  · rw [State.notifySend_reg, run_faultPermanent hthere hretired', retireSubchannel_state hsc]
  · rw [State.isRetired, State.notifySend_health, ← State.isRetired, run_faultPermanent hthere hretired',
      isRetired_kept (by simp [retireSubchannel]), retirementNote_retires]
  · exact raised_before hraised (P := fun _ => True) (by simp [faultPermanent, calm_retireSubchannel])
  · exact raised_after hctl (faultPermanent_raises hthere hretired' 189 0 (retireSubchannel_raises sc)
      (by simp [calm_retireSubchannel]))
  · rw [← hu]
    exact only_sent_of_fits (a := .seq (.prim _) (.seq (memEvent 189 sc) (faultPermanent _ 189 0 (retireSubchannel sc))))
      (by simp [retireSubchannel, Dram.Sized]) b

theorem replayed_alerts (sc : Nat) (l : List (Nat × Nat × Nat × List Nat)) (s : State) :
    ((seqs [addTo (K.AlertReplays + sc) 4 1, each l fun r => writeDram r.2.2.1 r.2.2.2]).run s).dram.alerts
      = s.dram.alerts := by
  have hall : (seqs [addTo (K.AlertReplays + sc) 4 1, each l fun r => writeDram r.2.2.1 r.2.2.2]).All
      (Prim.Leaves fun u => u.dram.alerts) :=
    ⟨leaves_dram Dram.alerts (by simp), all_each fun r _ => ⟨fun _ => rfl, fun _ => rfl⟩, trivial⟩
  exact hall.leaves s

theorem alertNDeasserted_completes (t sc window n : Nat) :
    Completes (.alertNDeasserted t sc window) t
      (fun b => b.dram.alert.getD sc none = some n ∧ b.dram.asserted.getD sc false = true)
      fun b u => u.dram.alert.getD sc none = some (n + 1) ∧ u.dram.asserted.getD sc false = false
        ∧ u.reg (K.AlertReplays + sc) = (b.reg (K.AlertReplays + sc) + 1) % 2 ^ 32
        ∧ b.regsBut [K.AlertReplays + sc] u ∧ b.only [.mem, .dict, .dram] u :=
  completes_of (fun _ => rfl) fun b _ ⟨halert, hasserted⟩ => by
  have hlen : sc < b.dram.alert.length := by
    by_contra h
    simp [h] at halert
  simp only [Act.run_read, halert, hasserted]
  rw [run_when_true]
  have halerts := fun l u => Prod.mk.inj (replayed_alerts sc l u)
  refine ⟨?_, ?_, ?_, regsBut_sent (by simp) b, only_sent_of_fits (by simp [Dram.Sized]) b⟩
  · rw [State.notifySend_dram, run_seqs_cons, (halerts _ _).1]
    simp [hlen]
  · rw [State.notifySend_dram, run_seqs_cons, (halerts _ _).2]
    by_cases h : sc < b.dram.asserted.length <;> simp [h]
  · simp [Act.All.reg_other]

theorem execRefreshInterval_eq (t sc : Nat) (busy : List Nat) (s : State) :
    exec (.refreshInterval t sc busy) s = perform t (.read fun s =>
      when (sc < 4 && s.reg (K.SubchannelState + sc) == 3 && s.reg K.DramOperatingPoint != 0)
        (each (List.range (4 * s.reg K.RanksPerSubchannel)) (refreshOne sc busy))) s := rfl

theorem run_refreshes {sc key n : Nat} (busy : List Nat) (h : key < n) (s : State) :
    ((each (List.range n) (refreshOne sc busy)).run s).owedOf sc key =
      if busy.contains key = false then 0 else if 4 ≤ s.owedOf sc key then 1 else s.owedOf sc key + 1 :=
  each_sets (g := fun u => u.owedOf sc key) (v := s.owedOf sc key) (List.mem_range.mpr h)
    List.nodup_range (fun y _ hy u => (owedOf_refreshOne sc busy y key u).trans (if_neg (Ne.symm hy)))
    (fun u hu => (owedOf_refreshOne sc busy key key u).trans (by rw [if_pos rfl, show u.owedOf sc key = _ from hu])) rfl

theorem refreshInterval_completes (t sc : Nat) (busy : List Nat) :
    sc < 4 →
    Completes (.refreshInterval t sc busy) t
      (fun b => b.reg (K.SubchannelState + sc) = 3 ∧ b.reg K.DramOperatingPoint ≠ 0)
      fun b u => (∀ key < 4 * b.reg K.RanksPerSubchannel, u.owedOf sc key =
            if busy.contains key = false then 0 else if 4 ≤ b.owedOf sc key then 1 else b.owedOf sc key + 1)
        ∧ b.regsBut [K.ForcedRefreshes + sc, K.MemoryEventSource + 6] u ∧ b.only [.dict, .ev, .dram] u :=
  fun hsc => completes_of (execRefreshInterval_eq t sc busy) fun b _ ⟨hstate, hpoint⟩ => by
  rw [Act.run_read, run_when, if_pos (by simp [hsc, hstate, hpoint])]
  have hone : ∀ key, (refreshOne sc busy key).All (Prim.Calm (· ∈ [K.ForcedRefreshes + sc, K.MemoryEventSource + 6])) := by
    simp [refreshOne, calm_memEvent, setOwed]
  have hfit : ∀ key, (refreshOne sc busy key).All (Prim.Fits [.dict, .ev, .dram]) := by
    simp [refreshOne, setOwed, Dram.Sized]
  refine ⟨fun key hkey => ?_, regsBut_sent (all_each fun key _ => hone key) b,
    only_sent_of_fits (all_each fun key _ => hfit key) b⟩
  rw [State.owedOf, State.notifySend_dram, ← State.owedOf, run_refreshes busy hkey]

theorem pageIdleTimer_completes (t sc : Nat) :
    Completes (.pageIdleTimer t sc) t (fun _ => True)
      fun b u =>
        let open' := b.dram.openRows.filter fun r => !(r.1 == sc && r.2.2.2 + b.reg K.PageIdleTimer ≤ b.now)
        u.dram = { b.dram with openRows := open' } ∧ b.only [.dram] u :=
  completes_of (fun _ => rfl) fun b _ _ => ⟨by simp, only_sent_of_fits (by simp [Dram.Sized]) b⟩

/-- Settles O32: accesses, errors, alerts, refresh and idle pages of DRAM, clause by clause. -/
theorem memoryCompletes : Obligations.MemoryCompletes :=
  ⟨dramAccess_writes, dramAccess_reads, accessError_completes, deviceMarkClear_completes, alertN_begins, alertN_failsReplay,
    alertNDeasserted_completes, refreshInterval_completes, pageIdleTimer_completes⟩

end Sys2Proof.Machine
end

section
/-! # Nozzle banks and threshold arrays (R208–R210, R214–R218) -/

namespace Sys2Proof.Machine

/-! ### The waveform maps of a bank -/

/-- The waveform maps, staged and in force, are different registers. -/
theorem mapKeys_ne : ∀ i < 4, ∀ j < 4, K.WaveMap2 + i ≠ K.WaveMap4 + j ∧ K.WaveMap2 + i ≠ K.WaveMap2InForce + j
    ∧ K.WaveMap2 + i ≠ K.WaveMap4InForce + j ∧ K.WaveMap4 + i ≠ K.WaveMap2InForce + j
    ∧ K.WaveMap4 + i ≠ K.WaveMap4InForce + j ∧ K.WaveMap2InForce + i ≠ K.WaveMap4InForce + j := by decide

/-- The staged maps are given the values `f` and `g`. -/
def stageMaps (f g : Nat → Nat) : Act :=
  each (List.range 4) fun i => seqs [put (K.WaveMap2 + i) (f i), put (K.WaveMap4 + i) (g i)]

theorem stageMaps_stages (f g : Nat → Nat) {i : Nat} (hi : i < 4) (s : State) :
    ((stageMaps f g).run s).reg (K.WaveMap2 + i) = f i ∧ ((stageMaps f g).run s).reg (K.WaveMap4 + i) = g i := by
  refine each_makes (P := fun u => u.reg (K.WaveMap2 + i) = f i ∧ u.reg (K.WaveMap4 + i) = g i) (List.mem_range.mpr hi)
    (fun j hj u hu => ?_) (fun u => ?_) s
  · have hne := (mapKeys_ne i hi j (List.mem_range.mp hj)).1
    have hne' := (mapKeys_ne j (List.mem_range.mp hj) i hi).1
    by_cases h : i = j <;> simp [h, hne, hne'.symm, hu]
  · simp

/-- The maps in force and the staged ones change places. -/
def swapMaps (s : State) : Act :=
  each (List.range 4) fun i =>
    seqs [put (K.WaveMap2InForce + i) (s.reg (K.WaveMap2 + i)),
      put (K.WaveMap4InForce + i) (s.reg (K.WaveMap4 + i)),
      put (K.WaveMap2 + i) (s.reg (K.WaveMap2InForce + i)),
      put (K.WaveMap4 + i) (s.reg (K.WaveMap4InForce + i))]

theorem swapMaps_inForce (b : State) {i : Nat} (hi : i < 4) (s : State) :
    ((swapMaps b).run s).reg (K.WaveMap2InForce + i) = b.reg (K.WaveMap2 + i)
      ∧ ((swapMaps b).run s).reg (K.WaveMap4InForce + i) = b.reg (K.WaveMap4 + i) := by
  refine each_makes (P := fun u => u.reg (K.WaveMap2InForce + i) = b.reg (K.WaveMap2 + i)
    ∧ u.reg (K.WaveMap4InForce + i) = b.reg (K.WaveMap4 + i)) (List.mem_range.mpr hi) (fun j hj u hu => ?_) (fun u => ?_) s
  · obtain ⟨-, h22, h24, h42, h44, hforce⟩ := mapKeys_ne j (List.mem_range.mp hj) i hi
    have hforce' := (mapKeys_ne i hi j (List.mem_range.mp hj)).2.2.2.2.2
    by_cases h : i = j <;> simp [h, h22.symm, h24.symm, h42.symm, h44.symm, hforce.symm, hforce', hu]
  · obtain ⟨-, h22, h24, h42, h44, hforce⟩ := mapKeys_ne i hi i hi
    simp

/-- The registers that hold the waveform maps. -/
def mapKeys : List Nat :=
  (List.range 4).flatMap fun i => [K.WaveMap2 + i, K.WaveMap4 + i, K.WaveMap2InForce + i, K.WaveMap4InForce + i]

theorem forall_mapKeys {P : Nat → Prop} (h : ∀ k ∈ mapKeys, P k) {i : Nat} (hi : i < 4) :
    P (K.WaveMap2 + i) ∧ P (K.WaveMap4 + i) ∧ P (K.WaveMap2InForce + i) ∧ P (K.WaveMap4InForce + i) := by
  have hi' : ∀ k ∈ [K.WaveMap2 + i, K.WaveMap4 + i, K.WaveMap2InForce + i, K.WaveMap4InForce + i], P k := fun k hk =>
    h k (List.mem_flatMap.mpr ⟨i, List.mem_range.mpr hi, hk⟩)
  simpa using hi'

theorem calm_swapMaps {P : Nat → Prop} (h : ∀ k ∈ mapKeys, P k) (s : State) : (swapMaps s).All (Prim.Calm P) :=
  all_each fun i hi => by
    obtain ⟨h2, h4, h2f, h4f⟩ := forall_mapKeys h (List.mem_range.mp hi)
    simp [h2, h4, h2f, h4f]

theorem calm_stageMaps {P : Nat → Prop} (h : ∀ k ∈ mapKeys, P k) (f g : Nat → Nat) :
    (stageMaps f g).All (Prim.Calm P) :=
  all_each fun i hi => by
    obtain ⟨h2, h4, h2f, h4f⟩ := forall_mapKeys h (List.mem_range.mp hi)
    simp [h2, h4]

theorem copyBank_eq : copyBank = .read fun s => seqs [
    .prim (.copy (bankAt (s.reg K.BankInForce)) (bankAt s.stagingBank) s.bankBytes),
    stageMaps (fun i => s.reg (K.WaveMap2InForce + i)) fun i => s.reg (K.WaveMap4InForce + i)] := rfl

/-! ### The flip -/

/-- What a flip does after the maps have changed places (R214, R218, R343). -/
def flipRest (copy : Nat) (differs : Bool) : Act :=
  seqs [put K.BankCommitState 0, put K.BankCommitCopy 0xFFFFFFFFFFFFFFFF, when differs (raise 70), raise 64,
    updateInForce copy, .prim (.tone fun x => { x with builder := false })]

/-- What a flip does before the maps change places. -/
def flipHead (b copy : Nat) : Act :=
  seqs [put K.BankInForce b, put K.BankStaging (1 - b), addTo K.BankInForceVersion 4 1, put K.BankInForceSince copy,
    bumpVersion (0x5600 + b)]

theorem run_flipBank (copy : Nat) (s : State) : (flipBank copy).run s
    = (flipRest copy s.overlapDiffers).run ((swapMaps s).run ((flipHead s.stagingBank copy).run s)) := rfl

theorem calm_flipRest {P : Nat → Prop} (hs : P K.BankCommitState) (hc : P K.BankCommitCopy) (hu : P K.UpdatesInForce)
    (hl : P K.LastUpdateCopy) (copy : Nat) (differs : Bool) : (flipRest copy differs).All (Prim.Calm P) := by
  simp [flipRest, updateInForce, hs, hc, hu, hl]

theorem flipRest_raises (copy : Nat) (differs : Bool) (s : State) : s.raised [64] ((flipRest copy differs).run s) :=
  raised_among (P := fun _ => True) (l₁ := [_, _, _]) (by simp) (fun _ _ => raised_raise rfl _) (by simp [updateInForce])

theorem calm_flipHead {P : Nat → Prop} {b : Nat} (hf : P K.BankInForce) (hs : P K.BankStaging)
    (hv : P K.BankInForceVersion) (hc : P K.BankInForceSince) (hb : P (versionKey (0x5600 + b))) (copy : Nat) :
    (flipHead b copy).All (Prim.Calm P) := by
  simp [flipHead, calm_bumpVersion, hf, hs, hv, hc, hb]

theorem stagingBank_lt (s : State) : s.stagingBank < 2 := by
  rw [State.stagingBank]
  omega

theorem bankCopyRequest_completes (t : Nat) (w : Wr) :
    Completes (.bankCopyRequest t w) t
      (fun b => b.takes 0x2601 6 w 1 ∧ b.flag K.BankCopyBusy = false ∧ b.reg K.BankCommitState ≠ 1
        ∧ b.reg K.BankCommitState ≠ 2)
      fun b u => u.reg K.BankCopyBusy = 1 ∧ u.tone = { b.tone with copying := true } ∧ b.regsBut [K.BankCopyBusy] u
        ∧ b.only [.dict, .tone] u := completes_write (fun _ => rfl) fun b ⟨htake, hbusy, hchecking, hpending⟩ => by
  refine ⟨1, _, htake, if_neg (by simp [hbusy, hchecking, hpending]), by simp, by simp,
    regsBut_write (by simp) _ b, only_write (by simp) _ b⟩

theorem bankCopyDone_completes (t : Nat) :
    Completes (.bankCopyDone t) t (fun b => b.tone.copying = true)
      fun b u => u.mem = Memory.copy b.mem (bankAt (b.reg K.BankInForce)) (bankAt b.stagingBank) b.bankBytes
        ∧ (∀ i < 4, u.reg (K.WaveMap2 + i) = b.reg (K.WaveMap2InForce + i)
          ∧ u.reg (K.WaveMap4 + i) = b.reg (K.WaveMap4InForce + i))
        ∧ u.reg K.BankCopyBusy = 0 ∧ u.tone = { b.tone with copying := false } ∧ b.only [.mem, .dict, .tone] u :=
  completes_of (fun _ => rfl) fun b _ hcopying => by
  simp only [Act.run_read, hcopying, copyBank_eq]
  rw [run_when_true]
  have hbusy : ∀ k ∈ mapKeys, k ≠ K.BankCopyBusy := by decide
  refine ⟨?_, fun i hi => ?_, ?_, ?_, only_sent_of_fits (by simp [stageMaps]) b⟩
  · simp [mem_kept, stageMaps]
  · have hkey : ∀ k ∈ mapKeys, K.BankCopyBusy ≠ k := fun k hk => (hbusy k hk).symm
    obtain ⟨h2, h4, -⟩ := forall_mapKeys hkey hi
    obtain ⟨hs2, hs4⟩ := stageMaps_stages (fun i => b.reg (K.WaveMap2InForce + i)) (fun i => b.reg (K.WaveMap4InForce + i)) hi
      ((Act.prim (.copy (bankAt (b.reg K.BankInForce)) (bankAt b.stagingBank) b.bankBytes)).run b)
    simp only [State.notifySend_reg, run_seqs_cons, run_seqs_nil, Act.run_read]
    exact ⟨by simpa [h2.symm] using hs2, by simpa [h4.symm] using hs4⟩
  · simp
  · simp [tone_kept, stageMaps]

theorem bankCommit_completes (t v target : Nat) (w : Wr) :
    Completes (.bankCommit t w) t
      (fun b => b.takes 0x2601 1 w v ∧ target = (if v = 0 then b.nextUndecided else v) ∧ b.takesFor target = true
        ∧ b.reg K.BankOwner ≠ 1 ∧ b.flag K.BankCopyBusy = false ∧ b.reg K.BankCommitState ≠ 1
        ∧ b.reg K.BankCommitState ≠ 2)
      fun b u => u.reg K.BankCommitState = 1 ∧ u.reg K.BankCommitRefusal = 0 ∧ u.reg K.BankCommitCopy = target
        ∧ b.regsBut [K.BankCommitState, K.BankCommitRefusal, K.BankCommitCopy] u ∧ b.only [.dict, .tone] u :=
  completes_write (fun _ => rfl) fun b ⟨htake, htarget, hfor, howner, hbusy, hchecking, hpending⟩ => by
  refine ⟨v, _, htake, (if_neg (by simp [← htarget, hfor])).trans ((if_neg howner).trans (if_neg (by simp [hbusy]))), ?_, ?_, ?_,
    regsBut_write (by simp [startCommit]) _ b, only_write (by simp [startCommit]) _ b⟩
  · simp [startCommit, hchecking, hpending]
  · simp [startCommit, hchecking, hpending]
  · simp [startCommit, hchecking, hpending, htarget]

theorem bankCommitChecked_refuses (t : Nat) :
    Completes (.bankCommitChecked t) t (fun b => b.reg K.BankCommitState = 1 ∧ b.bankRefusal ≠ 0)
      fun b u => u.reg K.BankCommitState = 3 ∧ u.reg K.BankCommitRefusal = b.bankRefusal
        ∧ u.reg K.BankCommitCopy = 0xFFFFFFFFFFFFFFFF ∧ b.raised [65] u
        ∧ b.regsBut [K.BankCommitState, K.BankCommitRefusal, K.BankCommitCopy] u ∧ b.only [.dict, .ev, .tone] u :=
  completes_of (fun _ => rfl) fun b _ ⟨hchecking, hcode⟩ => by
  simp only [Act.run_read]
  rw [run_ite_of_not (by simp [hchecking]), run_ite_of hcode]
  refine ⟨by simp [refuseBank], by simp [refuseBank], by simp [refuseBank], raised_notifySend.mpr ?_, regsBut_sent (by simp [refuseBank]) b,
    only_sent_of_fits (by simp [refuseBank]) b⟩
  exact raised_among (P := fun _ => True) (l₁ := [_, _, _]) (by simp) (fun s _ => raised_raise rfl s) (by simp)

theorem bankCommitChecked_awaitsCopy (t : Nat) :
    Completes (.bankCommitChecked t) t
      (fun b => b.reg K.BankCommitState = 1 ∧ b.bankRefusal = 0 ∧ isPrint b.mode = true)
      fun b u => u.reg K.BankCommitState = 2 ∧ b.regsBut [K.BankCommitState] u ∧ b.only [.dict] u :=
  completes_of (fun _ => rfl) fun b _ ⟨hchecking, hcode, hprint⟩ => by
  simp only [Act.run_read]
  rw [run_ite_of_not (by simp [hchecking]), run_ite_of_not (by simp [hcode]), run_ite_of hprint]
  exact ⟨by simp, regsBut_sent (by simp) b, only_sent_of_fits (by simp) b⟩

theorem bankCommitChecked_flips (t : Nat) :
    Completes (.bankCommitChecked t) t
      (fun b => b.reg K.BankCommitState = 1 ∧ b.bankRefusal = 0 ∧ isPrint b.mode = false)
      fun b u => u.reg K.BankInForce = b.stagingBank ∧ u.reg K.BankStaging = 1 - b.stagingBank
        ∧ u.reg K.BankInForceVersion = (b.reg K.BankInForceVersion + 1) % 2 ^ 32
        ∧ u.reg K.BankInForceSince = b.reg K.BankCommitCopy
        ∧ (∀ i < 4, u.reg (K.WaveMap2InForce + i) = b.reg (K.WaveMap2 + i)
          ∧ u.reg (K.WaveMap4InForce + i) = b.reg (K.WaveMap4 + i))
        ∧ u.reg K.BankCommitState = 0 ∧ b.raised [64] u ∧ b.only [.dict, .ev, .tone, .loop] u :=
  completes_of (fun _ => rfl) fun b _ ⟨hchecking, hcode, hprint⟩ => by
  simp only [Act.run_read]
  rw [run_ite_of_not (by simp [hchecking]), run_ite_of_not (by simp [hcode]), run_ite_of_not (by simp [hprint]), run_flipBank]
  have hb := stagingBank_lt b
  have hversion : ∀ q ∈ [K.BankInForce, K.BankStaging, K.BankInForceVersion, K.BankInForceSince, ctlKey],
      versionKey (0x5600 + b.stagingBank) ≠ q := fun q hq => by
    rcases (by omega : b.stagingBank = 0 ∨ b.stagingBank = 1) with h | h <;> rw [h] <;> revert q <;> decide
  simp only [List.forall_mem_cons] at hversion
  have hmaps : ∀ q, (∀ k ∈ mapKeys, k ≠ q) → ∀ u, ((swapMaps b).run u).reg q = u.reg q := fun q hq =>
    (calm_swapMaps hq b).reg_other
  have hrest : ∀ k ∈ mapKeys, k ≠ K.BankCommitState ∧ k ≠ K.BankCommitCopy ∧ k ≠ K.UpdatesInForce
      ∧ k ≠ K.LastUpdateCopy := by decide
  have hlast : ∀ k ∈ mapKeys, ∀ u, ((flipRest (b.reg K.BankCommitCopy) b.overlapDiffers).run u).reg k = u.reg k :=
    fun k hk => (calm_flipRest (hrest k hk).1.symm (hrest k hk).2.1.symm (hrest k hk).2.2.1.symm (hrest k hk).2.2.2.symm
      _ _).reg_other
  refine ⟨?_, ?_, ?_, ?_, fun i hi => ?_, ?_, raised_notifySend.mpr ?_, ?_⟩
  · rw [State.notifySend_reg, Act.All.reg_other (calm_flipRest (by decide) (by decide) (by decide) (by decide) _ _),
      hmaps _ (by decide)]
    simp [flipHead, Act.All.reg_other, hversion]
  · rw [State.notifySend_reg, Act.All.reg_other (calm_flipRest (by decide) (by decide) (by decide) (by decide) _ _),
      hmaps _ (by decide)]
    simp [flipHead, Act.All.reg_other, hversion]
  · rw [State.notifySend_reg, Act.All.reg_other (calm_flipRest (by decide) (by decide) (by decide) (by decide) _ _),
      hmaps _ (by decide)]
    simp [flipHead, Act.All.reg_other, hversion]
  · rw [State.notifySend_reg, Act.All.reg_other (calm_flipRest (by decide) (by decide) (by decide) (by decide) _ _),
      hmaps _ (by decide)]
    simp [flipHead, Act.All.reg_other, hversion]
  · obtain ⟨-, -, h2, h4⟩ := forall_mapKeys hlast hi
    rw [State.notifySend_reg, State.notifySend_reg, h2, h4]
    exact swapMaps_inForce b hi _
  · simp [-run_when, flipRest, updateInForce, Act.All.reg_other]
  · exact raised_after ((hmaps _ (by decide) _).trans ((calm_flipHead (P := (· ≠ ctlKey)) (by decide) (by decide)
      (by decide) (by decide) hversion.2.2.2.2.1 _).reg_other b)) (flipRest_raises _ _ _)
  · exact only_sent_of_fits (a := flipBank _) (by simp) b

theorem bankCommitCancel_completes (t : Nat) (w : Wr) :
    Completes (.bankCommitCancel t w) t
      (fun b => b.takes 0x2601 2 w 1 ∧ (b.reg K.BankCommitState = 1 ∨ b.reg K.BankCommitState = 2))
      fun b u => u.reg K.BankCommitState = 0 ∧ u.reg K.BankCommitCopy = 0xFFFFFFFFFFFFFFFF
        ∧ b.regsBut [K.BankCommitState, K.BankCommitCopy] u ∧ b.only [.dict, .tone] u :=
  completes_write (fun _ => rfl) fun b ⟨htake, hstate⟩ => by
  have hopen : (1 == 1 && (b.reg K.BankCommitState == 1 || b.reg K.BankCommitState == 2)) = true := by
    rcases hstate with h | h <;> simp [h]
  refine ⟨1, _, htake, congrArg (fun c => accept (when c _)) hopen, by simp, by simp,
    regsBut_write (by simp) _ b, only_write (by simp) _ b⟩

/-- Settles O20: the nozzle banks are copied, checked, committed and cancelled. -/
theorem bankCompletes : Obligations.BankCompletes :=
  ⟨bankCopyRequest_completes, bankCopyDone_completes, bankCommit_completes, bankCommitChecked_refuses,
    bankCommitChecked_awaitsCopy, bankCommitChecked_flips, bankCommitCancel_completes⟩

/-! ### Threshold arrays -/

theorem screenArrayLoad_completes (t v : Nat) (w : Wr) :
    Completes (.screenArrayLoad t w) t
      (fun b => b.takes 0x2610 1 w v ∧ v &&& 0x01FF0107 = v
        ∧ b.screenRefusal (bits v 0 3) (bits v 8 1) (bits v 16 9) = 0)
      fun b u => u.tone.load = some ⟨bits v 0 3, bits v 8 1, bits v 16 9⟩ ∧ u.reg K.ScreenLoadRefusal = 0
        ∧ u.reg K.ScreenLoadState = 1 ∧ b.regsBut [K.ScreenLoadRefusal, K.ScreenLoadState] u ∧ b.only [.dict, .tone] u :=
  completes_write (fun _ => rfl) fun b ⟨htake, hfields, hcode⟩ => by
  refine ⟨v, _, htake, (if_neg (by simp [hfields])).trans (if_neg (by simp [hcode])), by simp, by simp, by simp,
    regsBut_write (by simp) _ b, only_write (by simp) _ b⟩

theorem screenArrayLoad_refused (t v : Nat) (w : Wr) :
    Completes (.screenArrayLoad t w) t
      (fun b => b.takes 0x2610 1 w v ∧ v &&& 0x01FF0107 = v
        ∧ b.screenRefusal (bits v 0 3) (bits v 8 1) (bits v 16 9) ≠ 0)
      fun b u => u.reg K.ScreenLoadRefusal = b.screenRefusal (bits v 0 3) (bits v 8 1) (bits v 16 9)
        ∧ b.raised [65] u ∧ b.regsBut [K.ScreenLoadRefusal, K.ScreenLoadState] u ∧ b.only [.dict, .ev] u :=
  completes_write (fun _ => rfl) fun b ⟨htake, hfields, hcode⟩ => by
  refine ⟨v, _, htake, (if_neg (by simp [hfields])).trans (if_pos hcode), by simp [-run_when, Act.All.reg_other], ?_,
    regsBut_write (by simp) _ b, only_write (by simp) _ b⟩
  refine raised_notifySend.mpr (raised_answer.mpr ?_)
  exact raised_among (P := fun _ => True) (l₁ := [_, _]) (by simp) (fun s _ => raised_raise rfl s) (by simp)

theorem screenArrayCommitted_completes (t slot format unit : Nat) :
    slot < 8 →
    Completes (.screenArrayCommitted t) t (fun b => b.tone.load = some ⟨slot, format, unit⟩)
      fun b u => u.mem = Memory.copy b.mem screenInboxAt (screenAt + unit * 32768) (arrayUnits format * 32768)
        ∧ u.reg (K.ScreenSlotState + slot) = 2 ^ 31 + unit * 2 ^ 16 + format * 2 ^ 8 ∧ u.reg K.ScreenLoadState = 2
        ∧ u.tone = { b.tone with load := none } ∧ b.raised [69] u ∧ b.only [.mem, .dict, .ev, .tone] u :=
  fun hslot => completes_of (fun _ => rfl) fun b _ hload => by
  simp only [Act.run_read, hload]
  have hversion : versionKey (0x5611 + slot) ≠ K.ScreenSlotState + slot := by
    simp only [versionKey, K.ScreenSlotState]
    omega
  have hunits : K.ScreenUnitsFree ≠ K.ScreenSlotState + slot := by
    simp only [K.ScreenUnitsFree, K.ScreenSlotState]
    omega
  refine ⟨?_, ?_, ?_, ?_, ?_, only_sent_of_fits (by simp [unitsFree]) b⟩
  · simp [mem_kept, unitsFree]
  · have hstate : K.ScreenLoadState ≠ K.ScreenSlotState + slot := by
      simp only [K.ScreenLoadState, K.ScreenSlotState]
      omega
    simp [Act.All.reg_other, calm_bumpVersion, unitsFree, hversion, hunits.symm, hstate.symm]
  · have hversion' : versionKey (0x5611 + slot) ≠ K.ScreenLoadState := by
      simp only [versionKey, K.ScreenLoadState]
      omega
    simp [Act.All.reg_other, unitsFree, hversion']
  · simp [tone_kept, unitsFree]
  · refine raised_notifySend.mpr ?_
    have hctl : K.ScreenSlotState + slot ≠ ctlKey ∧ versionKey (0x5611 + slot) ≠ ctlKey := by
      simp only [K.ScreenSlotState, ctlKey, versionKey]
      omega
    exact raised_among (P := fun _ => True) (l₁ := [_, _, _, _, _, _]) (l₂ := []) (by simp [unitsFree, hctl])
      (fun s _ => raised_raise rfl s) trivial

theorem screenArrayRelease_completes (t v : Nat) (w : Wr) :
    v < 8 →
    Completes (.screenArrayRelease t w) t (fun b => b.takes 0x2610 2 w v ∧ b.slotInUse v = false)
      fun b u => u.reg (K.ScreenSlotState + v) = 0 ∧ b.regsBut [K.ScreenSlotState + v, K.ScreenUnitsFree] u
        ∧ b.only [.dict] u := fun hv => completes_write (fun _ => rfl) fun b ⟨htake, hfree⟩ => by
  have hunits : K.ScreenUnitsFree ≠ K.ScreenSlotState + v := by
    simp only [K.ScreenUnitsFree, K.ScreenSlotState]
    omega
  refine ⟨v, _, htake, (if_neg (by simpa using hv)).trans (if_neg (by simp [hfree])), by simp [unitsFree, hunits.symm],
    regsBut_write (by simp [unitsFree]) _ b, only_write (by simp [unitsFree]) _ b⟩

/-- Settles O21: threshold arrays are loaded, refused, committed and released. -/
theorem screensComplete : Obligations.ScreensComplete :=
  ⟨screenArrayLoad_completes, screenArrayLoad_refused, screenArrayCommitted_completes, screenArrayRelease_completes⟩

end Sys2Proof.Machine
end

section
/-! # Functions, the ink assignment and background clients (R30–R35, R51–R55, R429) -/

namespace Sys2Proof.Machine

/-! ### Requests with refusal codes of their own -/

/-- A write that the dictionary takes has not been refused by the gate, whatever its value (R51). -/
theorem run_gateNote_taken {idx sub v : Nat} {w w' : Wr} {s : State} (h : s.takes idx sub w' v) (hpath : w'.path = w.path) :
    (gateNote idx sub w).run s = s := by
  obtain ⟨e, he, hcheck, -⟩ := h
  have hgate : s.gateRefuses idx sub w = false := by
    simp only [checkWrite, he] at hcheck
    simp only [State.gateRefuses, checkWrite, he, ← hpath]
    split_ifs at hcheck ⊢ <;> rfl
  simp [gateNote, hgate]

/-! ### What a function's start and stop leave -/

/-- The registers of the units' own state stand after those of the modes and functions. -/
theorem high_loopKeys : ∀ k ∈ loopKeys, 0x240000 ≤ k := by decide

theorem high_stringKey (n : Nat) : 0x240000 ≤ stringKey K.StringState n := by
  simp only [stringKey, K.StringState]
  omega

theorem calm_startEffects (f : Nat) : (startEffects f).All (Prim.Calm (0x240000 ≤ ·)) := by
  have hsync := calm_syncLoop high_loopKeys
  have hdiag := fun n => calm_undiagnose (high_stringKey n) (by decide : 0x240000 ≤ K.IlluminationEventString + 3)
  simp (decide := true) [startEffects, startCapture, settleRunning, hsync, hdiag]

theorem calm_mirrorDirectory_high : mirrorDirectory.All (Prim.Calm (0x240000 ≤ ·)) := by
  simp (decide := true) [mirrorDirectory, calm_syncJobStore]

theorem calm_stopEffects (f : Nat) : (stopEffects f).All (Prim.Calm (0x240000 ≤ ·)) := by
  have hsync := calm_syncLoop high_loopKeys
  have hflow : ∀ f, (failFlow f).All (Prim.Calm (0x240000 ≤ ·)) := fun f => by
    have hstate : 0x240000 ≤ K.FlowState + f := by simp only [K.FlowState]; omega
    simp (decide := true) [failFlow, calm_mirrorDirectory_high, hstate, discardObject, setFlow, setJob]
  have hcode : ∀ n, 0x240000 ≤ K.EncodeStatus + n := fun n => by simp only [K.EncodeStatus]; omega
  simp (decide := true) [stopEffects, darken, hsync, hflow, hcode]

/-! ### A function's status -/

theorem calm_setStatus {P : Nat → Prop} {f : Nat} (h : P (K.FunctionStatus + (f - 1))) (v : Nat) :
    (setStatus f v).All (Prim.Calm P) := by simp [setStatus, h]

theorem setStatus_status (f v : Nat) (s : State) : ((setStatus f v).run s).reg (K.FunctionStatus + (f - 1)) = v := by
  by_cases h : s.reg (K.FunctionStatus + (f - 1)) = v <;> simp [setStatus, h]

theorem setStatus_raises {f v : Nat} {s : State} (hf : f ≤ 11) (h : s.reg (K.FunctionStatus + (f - 1)) ≠ v) :
    s.raised [11] ((setStatus f v).run s) := by
  have hctl : K.FunctionStatus + (f - 1) ≠ ctlKey := by
    simp only [K.FunctionStatus, ctlKey]
    omega
  rw [setStatus, Act.run_read, run_when, if_pos (bne_iff_ne.mpr h)]
  exact raised_after (u := (put _ v).run s) (by simp [hctl.symm]) (raised_raise rfl _)

/-- A function's registers of one kind are not those of another. -/
theorem functionKeys_ne (f : Nat) : K.FunctionEnable + (f - 1) ≠ K.FunctionStatus + (f - 1)
    ∧ K.FunctionEnable + (f - 1) ≠ K.FunctionRefusalCode + (f - 1)
    ∧ K.FunctionStatus + (f - 1) ≠ K.FunctionRefusalCode + (f - 1)
    ∧ K.DiscardedUnits + (f - 1) ≠ K.FunctionStatus + (f - 1)
    ∧ K.DiscardedUnits + (f - 1) ≠ K.FunctionEnable + (f - 1) := by
  simp only [K.FunctionEnable, K.FunctionStatus, K.FunctionRefusalCode, K.DiscardedUnits]
  omega

/-- A function's registers stand before those of the dictionary's windows. -/
theorem functionKeys_lt {f : Nat} (hf : f ≤ 11) : K.FunctionEnable + (f - 1) < K.WindowAbortCode
    ∧ K.FunctionStatus + (f - 1) < K.WindowAbortCode ∧ K.FunctionRefusalCode + (f - 1) < K.WindowAbortCode
    ∧ K.DiscardedUnits + (f - 1) < K.WindowAbortCode := by
  simp only [K.FunctionEnable, K.FunctionStatus, K.FunctionRefusalCode, K.DiscardedUnits, K.WindowAbortCode]
  omega

theorem ne_ctlKey_of_lt {k : Nat} (h : k < K.WindowAbortCode) : k ≠ ctlKey := by
  simp only [K.WindowAbortCode, ctlKey] at *
  omega

theorem reg_startEffects {q : Nat} (hq : q < K.WindowAbortCode) (f : Nat) (s : State) :
    ((startEffects f).run s).reg q = s.reg q :=
  ((calm_startEffects f).mono fun _ => Prim.Calm.mono fun k hk => (Nat.lt_of_lt_of_le (hq.trans (by decide)) hk).ne').reg_other s

theorem reg_stopEffects {q : Nat} (hq : q < K.WindowAbortCode) (f : Nat) (s : State) :
    ((stopEffects f).run s).reg q = s.reg q :=
  ((calm_stopEffects f).mono fun _ => Prim.Calm.mono fun k hk => (Nat.lt_of_lt_of_le (hq.trans (by decide)) hk).ne').reg_other s

/-- A gated write that the dictionary and its owner take completes with the owner's changes. -/
theorem completes_gated {c : Instr} {t idx sub : Nat} {w w' : Wr} {eff : Effect} {pre : State → Prop}
    {post : State → State → Prop} (hx : ∀ s, exec c s = perform t (.seq (gateNote idx sub w) (writeBy idx sub eff w')) s)
    (hpath : w'.path = w.path) (h : ∀ b, pre b → ∃ v a, b.takes idx sub w' v ∧ eff b { w' with val := v } = accept a
      ∧ post b ((answer w'.path 0).run (a.run b)).notifySend) : Completes c t pre post :=
  completes_of hx fun b _ hb => by
    obtain ⟨v, a, htake, ha, hpost⟩ := h b hb
    rwa [Act.run_seq, run_gateNote_taken htake hpath, run_writeBy_takes htake ha]

theorem completes_gated_refusal {c : Instr} {t idx sub : Nat} {w w' : Wr} {eff : Effect} {pre : State → Prop}
    {post : State → State → Prop} (hx : ∀ s, exec c s = perform t (.seq (gateNote idx sub w) (writeBy idx sub eff w')) s)
    (hpath : w'.path = w.path) (h : ∀ b, pre b → ∃ v a code, b.takes idx sub w' v ∧ eff b { w' with val := v } = ⟨code, a⟩
      ∧ code ≠ 0 ∧ post b (State.refusedBy w'.path code a b)) : Completes c t pre post :=
  completes_of hx fun b _ hb => by
    obtain ⟨v, a, code, htake, heff, hcode, hpost⟩ := h b hb
    rwa [Act.run_seq, run_gateNote_taken htake hpath, run_writeBy_refusal htake heff hcode]

theorem functionDisable_completes (t f : Nat) (w : Wr) :
    1 ≤ f → f ≤ 11 →
    Completes (.functionDisable t f w) t
      (fun b => b.takes 0x2020 f { w with val := 0 } 0 ∧ (isPrint b.mode && b.onPrintPath f) = false
        ∧ b.reg (K.FunctionStatus + (f - 1)) = 1)
      fun b u => u.reg (K.FunctionEnable + (f - 1)) = 0 ∧ u.reg (K.FunctionStatus + (f - 1)) = 2
        ∧ u.reg (K.FunctionRefusalCode + (f - 1)) = 0 ∧ b.raised [11] u :=
  fun hf hf' => completes_gated (fun _ => rfl) rfl fun b ⟨htake, hpath, hstatus⟩ => by
  obtain ⟨hes, her, hsr, -⟩ := functionKeys_ne f
  obtain ⟨hle, hls, hlr, hld⟩ := functionKeys_lt hf'
  refine ⟨0, _, htake, if_neg (by simp [hpath]), ?_, ?_, ?_, raised_notifySend.mpr (raised_answer.mpr ?_)⟩
  · rw [hstatus]
    simp [Act.All.reg_other, calm_setStatus]
  · rw [hstatus]
    simp [setStatus_status]
  · rw [hstatus]
    simp [Act.All.reg_other, calm_setStatus]
  · rw [hstatus]
    refine raised_after (u := (Act.seq (put _ 0) (put _ 0)).run b) ?_ (setStatus_raises hf' ?_)
    · simp [(ne_ctlKey_of_lt hle).symm, (ne_ctlKey_of_lt hlr).symm]
    · simp [hstatus]

theorem functionDisable_refused (t f : Nat) (w : Wr) :
    1 ≤ f → f ≤ 11 →
    Completes (.functionDisable t f w) t
      (fun b => b.takes 0x2020 f { w with val := 0 } 0 ∧ isPrint b.mode = true ∧ b.onPrintPath f = true)
      fun b u => u.reg (K.FunctionRefusalCode + (f - 1)) = 15 ∧ b.raised [12] u
        ∧ u.reg (K.FunctionEnable + (f - 1)) = b.reg (K.FunctionEnable + (f - 1))
        ∧ u.reg (K.FunctionStatus + (f - 1)) = b.reg (K.FunctionStatus + (f - 1)) :=
  fun hf hf' => completes_gated_refusal (fun _ => rfl) rfl fun b ⟨htake, hprint, hpath⟩ => by
  obtain ⟨hes, her, hsr, -⟩ := functionKeys_ne f
  obtain ⟨hle, hls, hlr, hld⟩ := functionKeys_lt hf'
  refine ⟨0, _, _, htake, if_pos (by simp [hprint, hpath]), by decide, ?_, raised_refusedBy ?_ _ _ _, ?_, ?_⟩
  · rw [reg_refusedBy (.inl hlr)]
    simp
  · simp [ne_ctlKey_of_lt hlr]
  · rw [reg_refusedBy (.inl hle)]
    simp
  · rw [reg_refusedBy (.inl hls)]
    simp

theorem functionEnable_completes (t f : Nat) (w : Wr) :
    1 ≤ f → f ≤ 11 →
    Completes (.functionEnable t f w) t
      (fun b => b.inv = true ∧ b.takes 0x2020 f { w with val := 1 } 1 ∧ b.reg (K.FunctionStatus + (f - 1)) = 0)
      fun b u => u.reg (K.FunctionEnable + (f - 1)) = 1 ∧ u.reg (K.FunctionStatus + (f - 1)) = 1
        ∧ u.reg (K.FunctionRefusalCode + (f - 1)) = 0 ∧ b.raised [11] u
        ∧ b.only [.dict, .ev, .mem, .tone, .ill, .loop] u :=
  fun hf hf' => completes_gated (fun _ => rfl) rfl fun b ⟨_, htake, hstatus⟩ => by
  obtain ⟨hes, her, hsr, -⟩ := functionKeys_ne f
  obtain ⟨hle, hls, hlr, hld⟩ := functionKeys_lt hf'
  refine ⟨1, _, htake, rfl, ?_, ?_, ?_, raised_notifySend.mpr (raised_answer.mpr ?_), only_write (by simp) _ b⟩
  · rw [hstatus]
    simp [Act.All.reg_other, calm_setStatus, reg_startEffects hle]
  · rw [hstatus]
    simp [reg_startEffects hls, setStatus_status]
  · rw [hstatus]
    simp [Act.All.reg_other, calm_setStatus, reg_startEffects hlr]
  · rw [hstatus]
    refine raised_after (u := (Act.seq (put _ 1) (put _ 0)).run b) ?_
      (raised_before (setStatus_raises hf' ?_) (calm_startEffects f))
    · simp [(ne_ctlKey_of_lt hle).symm, (ne_ctlKey_of_lt hlr).symm]
    · simp [hes.symm, hsr, hstatus]

theorem functionDrainComplete_completes (t f queued : Nat) :
    1 ≤ f → f ≤ 11 →
    Completes (.functionDrainComplete t f queued) t
      (fun b => b.inv = true ∧ b.reg (K.FunctionStatus + (f - 1)) = 2)
      fun b u => u.reg (K.FunctionStatus + (f - 1)) = (if b.flag (K.FunctionEnable + (f - 1)) then 1 else 0)
        ∧ u.reg (K.DiscardedUnits + (f - 1)) = (b.reg (K.DiscardedUnits + (f - 1)) + queued) % 2 ^ 32 ∧ b.raised [11] u :=
  fun hf hf' => completes_of (fun _ => rfl) fun b _ ⟨_, hstatus⟩ => by
  obtain ⟨hes, her, hsr, hds, hde⟩ := functionKeys_ne f
  obtain ⟨hle, hls, hlr, hld⟩ := functionKeys_lt hf'
  have hknown : functions.contains f = true := by
    simp only [functions, List.contains_iff_mem, List.mem_map, List.mem_range]
    exact ⟨f - 1, by omega, by omega⟩
  simp only [Act.run_read]
  rw [run_ite_of_not (by rw [hknown, hstatus]; decide)]
  have hagain : ∀ u : State, ((when (b.flag (K.FunctionEnable + (f - 1))) (.seq (setStatus f 1) (startEffects f))).run u).reg
      (K.FunctionStatus + (f - 1)) = if b.flag (K.FunctionEnable + (f - 1)) then 1 else u.reg (K.FunctionStatus + (f - 1)) := by
    intro u
    cases b.flag (K.FunctionEnable + (f - 1))
    · rfl
    · simp [reg_startEffects hls, setStatus_status]
  have hctl := ne_ctlKey_of_lt hld
  refine ⟨?_, ?_, raised_notifySend.mpr ?_⟩
  · rw [State.notifySend_reg, run_seqs_three, run_seqs_cons, run_seqs_nil, hagain, reg_stopEffects hls, setStatus_status]
  · have hlast : (when (b.flag (K.FunctionEnable + (f - 1))) (.seq (setStatus f 1) (startEffects f))).All
        (Prim.Calm (· ≠ K.DiscardedUnits + (f - 1))) := all_when fun _ =>
      ⟨calm_setStatus hds.symm 1, (calm_startEffects f).mono fun _ => Prim.Calm.mono fun k hk =>
        (Nat.lt_of_lt_of_le (hld.trans (by decide)) hk).ne'⟩
    rw [State.notifySend_reg, run_seqs_three, run_seqs_cons, run_seqs_nil, hlast.reg_other, reg_stopEffects hld,
      (calm_setStatus (P := (· ≠ _)) hds.symm 0).reg_other]
    simp
  · refine raised_tail (by simp [hctl]) (raised_head (P := fun _ => True) (setStatus_raises hf' ?_) ?_)
    · simp [hstatus]
    · have hstop := (calm_stopEffects f).mono fun _ => Prim.Calm.mono (Q := fun _ => True) fun _ _ => trivial
      have hstart := (calm_startEffects f).mono fun _ => Prim.Calm.mono (Q := fun _ => True) fun _ _ => trivial
      exact ⟨hstop, all_when fun _ => ⟨calm_setStatus trivial 1, hstart⟩, trivial⟩

theorem linkInkWrite_completes (t l v : Nat) (w : Wr) :
    l < 16 →
    Completes (.linkInkWrite t l w) t (fun b => b.takes 0x2030 (l + 1) w v ∧ b.mode = mReady)
      fun b u => u.reg (K.LinkInk + l) = v
        ∧ (b.reg K.BankCommitState = 1 ∨ b.reg K.BankCommitState = 2 →
          u.reg K.BankCommitState = 0 ∧ u.reg K.BankCommitCopy = 0xFFFFFFFFFFFFFFFF)
        ∧ b.regsBut [K.LinkInk + l, K.BankCommitState, K.BankCommitCopy] u ∧ b.only [.dict, .ev, .tone] u :=
  fun hl => completes_write (fun _ => rfl) fun b ⟨htake, hmode⟩ => by
  have hkey : K.LinkInk + l ≠ K.BankCommitState ∧ K.LinkInk + l ≠ K.BankCommitCopy := by
    simp only [K.LinkInk, K.BankCommitState, K.BankCommitCopy]
    omega
  refine ⟨v, _, htake, if_neg (by simp [hmode]), ?_, fun hcommit => ?_, regsBut_write (by simp) _ b, only_write (by simp) _ b⟩
  · simp [-run_when, Act.All.reg_other, hkey.1.symm, hkey.2.symm]
  · have hopen : (b.reg K.BankCommitState == 1 || b.reg K.BankCommitState == 2) = true := by simpa using hcommit
    simp [hopen]

theorem slackPeriodEnd_completes (t c : Nat) :
    1 ≤ c → c ≤ 8 →
    Completes (.slackPeriodEnd t c) t
      (fun b => b.sys.slackHad.getD (c - 1) false = false ∧ b.paused c = false ∧ isPrint b.mode = true)
      fun b u =>
        let missed := b.reg (K.SlackMissedPeriods + (c - 1)) + 1
        u.reg (K.SlackMissedPeriods + (c - 1)) = missed % 2 ^ 32
        ∧ (3 ≤ missed → u.reg (K.SlackBacklog + (c - 1)) = missed % 2 ^ 32) ∧ (missed = 3 → b.raised [10] u)
        ∧ u.sys.slackHad.getD (c - 1) false = false
        ∧ b.regsBut [K.SlackMissedPeriods + (c - 1), K.SlackBacklog + (c - 1)] u ∧ b.only [.dict, .ev, .sys, .dma] u :=
  fun hc hc' => completes_of (fun _ => rfl) fun b _ ⟨hhad, hpaused, hprint⟩ => by
  simp only [Act.run_read]
  rw [run_ite_of_not (by simp; omega)]
  simp only [hhad, hpaused, hprint]
  have hkey : K.SlackBacklog + (c - 1) ≠ K.SlackMissedPeriods + (c - 1) := by
    simp only [K.SlackBacklog, K.SlackMissedPeriods]; omega
  have hctl : K.SlackMissedPeriods + (c - 1) ≠ ctlKey := by
    simp only [K.SlackMissedPeriods, ctlKey]; omega
  refine ⟨?_, fun hmissed => ?_, fun hthird => ?_, ?_, regsBut_sent ?_ b, only_sent_of_fits ?_ b⟩
  · simp [-run_when, Act.All.reg_other]
  · rw [decide_eq_true hmissed]
    simp [-run_when]
  · rw [hthird]
    refine raised_notifySend.mpr (raised_head (P := fun _ => True) (raised_among (P := fun _ => True) (l₁ := [_])
      (by simp [hctl]) (fun s _ => raised_raise rfl s) (by simp)) (by simp))
  · by_cases h : c - 1 < b.sys.slackHad.length <;> simp [-run_when, sys_kept, h]
  · simp
  · simp

theorem slackSlotGrant_completes (t owner len c : Nat) (boundary : Bool) :
    Completes (.slackSlotGrant t owner len boundary) t
      (fun b => b.slackNextClient ((slackClients owner).filter fun c =>
        !b.paused c && (c != 2 || b.mode == mReady || boundary)) = some c)
      fun b u => u.reg (K.SlackMissedPeriods + (c - 1)) = 0 ∧ u.reg (K.SlackBacklog + (c - 1)) = 0
        ∧ u.sys.slackRound = c
        ∧ b.regsBut [K.SlackMissedPeriods + (c - 1), K.SlackBacklog + (c - 1)] u ∧ b.only [.dict, .sys, .dma] u :=
  completes_of (fun _ => rfl) fun b _ hnext => by
  simp only [Act.run_read, hnext]
  have hkey : K.SlackBacklog + (c - 1) ≠ K.SlackMissedPeriods + (c - 1) := by
    simp only [K.SlackBacklog, K.SlackMissedPeriods]; omega
  exact ⟨by simp [-run_when, takeSlot, Act.All.reg_other], by simp [-run_when, takeSlot, Act.All.reg_other],
    by simp only [takeSlot, Act.run_read, run_seqs_cons, run_seqs_nil, State.notifySend_sys]; rw [sys_kept (by simp [Dma.Sized])]; simp, regsBut_sent (by simp [takeSlot]) b, only_sent_of_fits (by simp) b⟩

theorem throttlePauseEnd_completes (t c : Nat) :
    1 ≤ c → c ≤ 8 →
    Completes (.throttlePauseEnd t c) t
      (fun b => b.paused c = false ∧ b.sys.slackForced.getD (c - 1) false = false)
      fun b u => u.sys = { b.sys with pauseUntil := b.sys.pauseUntil.set (c - 1) 0 } ∧ u.dict = b.dict
        ∧ b.only [.dict, .sys, .dma] u := fun hc hc' => completes_of (fun _ => rfl) fun b _ ⟨hpaused, hforced⟩ => by
  simp only [Act.run_read]
  rw [run_ite_of_not (by simp [hpaused]; omega)]
  simp only [hforced, Bool.false_and]
  exact ⟨by simp, by simp, only_sent_of_fits (by simp) b⟩

/-- Settles O6: functions are disabled, refused, enabled and drained, the ink assignment written, slack granted and
missed, and pauses ended. -/
theorem functionsComplete : Obligations.FunctionsComplete :=
  ⟨functionDisable_completes, functionDisable_refused, functionEnable_completes, functionDrainComplete_completes,
    linkInkWrite_completes, slackPeriodEnd_completes, slackSlotGrant_completes, throttlePauseEnd_completes⟩

end Sys2Proof.Machine
end

section
/-! # Mode requests, mode changes and orderly stops (R36–R51) -/

namespace Sys2Proof.Machine

/-! ### Entering a mode -/

theorem calm_setMode {P : Nat → Prop} (h : P K.ModeActual) (m : Nat) : (setMode m).All (Prim.Calm P) := by
  simp [setMode, h]

theorem setMode_mode (m : Nat) (s : State) : ((setMode m).run s).mode = m := by
  rw [State.mode, setMode, Act.run_read, Act.run_seq, Act.All.reg_other (by simp)]
  simp

theorem setMode_raises {m : Nat} {s : State} (h : s.mode ≠ m) : s.raised [4] ((setMode m).run s) := by
  rw [setMode, Act.run_read, Act.run_seq, run_when, if_pos (bne_iff_ne.mpr h)]
  exact raised_after (u := (put K.ModeActual m).run s) (by simp) (raised_raise rfl _)

theorem calm_endService {P : Nat → Prop} (hs : P K.ServiceState) (hr : P K.ServiceLastResult) (result : Nat) :
    (endService result).All (Prim.Calm P) := by simp [endService, hs, hr]

theorem calm_holdTrim (P : Nat → Prop) : holdTrim.All (Prim.Calm P) := by simp [holdTrim]

/-- What follows a mode entered at once (R36, R40). -/
def onceRest (standby left ready : Bool) : Act :=
  seqs [when standby (.prim (.dram fun d => { d with freqNext := some 0 })),
    when left (.prim (.dram fun d => { d with freqNext := some 3200 })), when ready deferredStep, holdTrim, syncLoop]

theorem modeAtOnce_eq (n : Nat) : modeAtOnce n = .read fun s =>
    .seq (when (s.mode == mService) (endService 1))
      (.seq (setMode n) (onceRest (n == mStandby) (s.mode == mStandby) (n == mReady))) := rfl

theorem run_modeAtOnce (n : Nat) (s : State) : (modeAtOnce n).run s
    = (onceRest (n == mStandby) (s.mode == mStandby) (n == mReady)).run
        ((setMode n).run ((when (s.mode == mService) (endService 1)).run s)) := by
  rw [modeAtOnce_eq, Act.run_read, Act.run_seq, Act.run_seq]

theorem calm_onceRest {P : Nat → Prop} (h : ∀ k ∈ loopKeys, P k) (standby left ready : Bool) :
    (onceRest standby left ready).All (Prim.Calm P) := by
  simp [onceRest, calm_deferredStep, calm_holdTrim, calm_syncLoop h]

theorem calm_modeAtOnce {P : Nat → Prop} (hs : P K.ServiceState) (hr : P K.ServiceLastResult) (hm : P K.ModeActual)
    (h : ∀ k ∈ loopKeys, P k) (n : Nat) : (modeAtOnce n).All (Prim.Calm P) := by
  rw [modeAtOnce_eq]
  exact fun _ => ⟨all_when fun _ => calm_endService hs hr 1, calm_setMode hm n, calm_onceRest h _ _ _⟩

theorem modeAtOnce_mode (n : Nat) (s : State) : ((modeAtOnce n).run s).mode = n := by
  rw [run_modeAtOnce, State.mode, (calm_onceRest (P := (· ≠ K.ModeActual)) (by decide) _ _ _).reg_other]
  exact setMode_mode n _

theorem modeAtOnce_raises {n : Nat} {s : State} (h : s.mode ≠ n) : s.raised [4] ((modeAtOnce n).run s) := by
  have hend : ∀ q, K.ServiceState ≠ q → K.ServiceLastResult ≠ q →
      ((when (s.mode == mService) (endService 1)).run s).reg q = s.reg q := fun q h1 h2 =>
    Act.All.reg_other (all_when fun _ => calm_endService (P := (· ≠ q)) h1 h2 1) s
  rw [run_modeAtOnce]
  refine raised_before (raised_after (hend _ (by decide) (by decide)) (setMode_raises ?_))
    (calm_onceRest (P := fun _ => True) (fun _ _ => trivial) _ _ _)
  rwa [State.mode, hend _ (by decide) (by decide)]

theorem calm_pendMode {P : Nat → Prop} (hp : P K.ModePending) (hc : P K.ModeChangeCopy) (n : Nat) :
    (pendMode n).All (Prim.Calm P) := fun s => by
  refine ⟨hp, hc, trivial, ?_, all_when fun _ => trivial, trivial⟩
  split <;> trivial

/-- What a pending request takes of the rings and of DRAM's points (R42). -/
def pendRest (rings : Option (List Ring)) (leaving : Bool) (point : Nat) : Act :=
  seqs [
    (match rings with
      | some rs => takeRings rs
      | none => .skip),
    when leaving (.prim (.dram fun d => { d with freqNext := some point })) ]

theorem pendMode_eq (n : Nat) : pendMode n = .read fun s =>
    .seq (put K.ModePending n) (.seq (put K.ModeChangeCopy (rawOf 8 s.eligibleCopy))
      (.seq (.prim (.sys fun x => { x with locked := false }))
        (pendRest (if isPrint n then s.placeRings n else none) (s.mode == mReady) (s.reg K.PrintOperatingPoint)))) := rfl

theorem calm_pendRest (P : Nat → Prop) (rings : Option (List Ring)) (leaving : Bool) (point : Nat) :
    (pendRest rings leaving point).All (Prim.Calm P) := by
  cases rings <;> simp [pendRest, takeRings]

theorem sys_pendRest (rings : Option (List Ring)) (leaving : Bool) (point : Nat) (s : State) :
    ((pendRest rings leaving point).run s).sys = s.sys := by
  cases rings <;> cases leaving <;> rfl

theorem pendMode_shows (n : Nat) (s : State) : ((pendMode n).run s).reg K.ModePending = n
    ∧ ((pendMode n).run s).reg K.ModeChangeCopy = rawOf 8 s.eligibleCopy ∧ ((pendMode n).run s).sys.locked = false := by
  rw [pendMode_eq, Act.run_read, Act.run_seq, Act.run_seq, Act.run_seq, (calm_pendRest (· ≠ K.ModePending) _ _ _).reg_other,
    (calm_pendRest (· ≠ K.ModeChangeCopy) _ _ _).reg_other, sys_pendRest]
  simp

/-! ### The first eligible copy -/

/-- The first eligible copy is told by the position channels and by registers other than ModeRequest (R41). -/
theorem eligibleCopy_congr {s u : State} (hpos : u.pos = s.pos) (hpart : u.part = s.part)
    (hreg : ∀ k, k ≠ K.ModeRequest → u.reg k = s.reg k) : u.eligibleCopy = s.eligibleCopy := by
  have hmaster : u.master = s.master := by
    simp only [State.master, State.chan, hpos, hreg K.MasterBackupChannel (by decide), hreg K.MasterChannel (by decide)]
  have hbase : u.base = s.base := by
    funext m
    simp only [State.base, hpos, hmaster]
  have hslots : u.slots = s.slots := by
    have hkey : ∀ n, u.flag (K.SlotConfigured + n * 256) = s.flag (K.SlotConfigured + n * 256) := fun n => by
      rw [State.flag, State.flag, hreg _ (by simp only [K.SlotConfigured, K.ModeRequest]; omega)]
    simp only [State.slots, State.linkCount, State.isH, hpart, hkey]
    rfl
  have hoffsets : u.inkOffsets = s.inkOffsets := by
    have hink : ∀ l, u.linkInk l = s.linkInk l := fun l => hreg _ (by simp only [K.LinkInk, K.ModeRequest]; omega)
    have hcount : ∀ l sl, u.reg (slotKey K.RowCount l sl) = s.reg (slotKey K.RowCount l sl) := fun l sl =>
      hreg _ (by simp only [slotKey, K.RowCount, K.ModeRequest]; omega)
    have hoff : ∀ l sl r, u.rowOffset l sl r = s.rowOffset l sl r := fun l sl r => by
      rw [State.rowOffset, State.rowOffset, State.regI, State.regI,
        hreg _ (by simp only [slotKey, K.RowOffset, K.ModeRequest]; omega)]
    funext ink
    simp only [State.inkOffsets, hslots, hink, hcount, hoff]
  have hahead : u.aheadBy = s.aheadBy := by
    funext m mode n
    rw [State.aheadBy, State.aheadBy, State.upstream, State.upstream, hmaster, hbase, hoffsets]
  have hfrom : ∀ mode n m, u.eligibleFrom mode n m = s.eligibleFrom mode n m := fun mode n => by
    induction n with
    | zero => exact fun _ => rfl
    | succ n ih => exact fun m => by simp only [State.eligibleFrom, hahead, ih]
  rw [State.eligibleCopy, State.eligibleCopy, hfrom, hmaster, State.mode, State.mode, hreg K.ModeActual (by decide)]

/-! ### Requests -/

theorem run_lockCheck_idle {s : State} (h : s.reg K.ModePending = 0xFF) : lockCheck.run s = s := by
  simp [lockCheck, h]

theorem run_lockCheck_locked {s : State} (h : s.sys.locked = true) : lockCheck.run s = s := by
  simp [lockCheck, h]

/-- A request that the dictionary takes with none pending is the write alone. -/
theorem run_modeRequest {n : Nat} {w : Wr} {s : State} (h : s.takes 0x2010 1 w n) (hp : s.reg K.ModePending = 0xFF) :
    (seqs [lockCheck, gateNote 0x2010 1 w, writeBy 0x2010 1 effModeRequest w]).run s
      = (writeBy 0x2010 1 effModeRequest w).run s := by
  rw [run_seqs_three, run_seqs_nil, run_lockCheck_idle hp, run_gateNote_taken h rfl]

theorem effModeRequest_taken {n : Nat} {w : Wr} {s : State} (hw : w.val = n) (hp : s.reg K.ModePending = 0xFF)
    (hcode : s.modeRefusal n = 0) : effModeRequest s w
      = accept (seqs [dropPending, put K.ModeRequest n, takeMode n, put K.ModeRefusalCode 0]) := by
  subst hw
  exact (if_neg (by simp [hcode])).trans (if_neg (by simp [hp]))

theorem run_taken_request (n : Nat) {s : State} (hp : s.reg K.ModePending = 0xFF) :
    (seqs [dropPending, put K.ModeRequest n, takeMode n, put K.ModeRefusalCode 0]).run s
      = (put K.ModeRefusalCode 0).run
        ((if atBoundary s.mode n then pendMode n else modeAtOnce n).run ((put K.ModeRequest n).run s)) := by
  have hdrop : dropPending.run s = s := by rw [dropPending, Act.run_read, run_when, if_neg (by simp [hp])]
  have hmode : ((put K.ModeRequest n).run s).mode = s.mode := by simp [State.mode]
  rw [run_seqs_three, run_seqs_cons, run_seqs_nil, hdrop, takeMode, Act.run_read, hmode]

theorem fits_takenAtOnce (n : Nat) : (Act.seq (.seq (put K.ModeRequest n) (modeAtOnce n)) (put K.ModeRefusalCode 0)).All
    (Prim.Fits [.dict, .ev, .mem, .sys, .tone, .fire, .loop, .dram, .time]) := by simp

theorem modeRequest_atOnce (t n : Nat) (w : Wr) :
    Completes (.modeRequest t w) t
      (fun b => b.inv = true ∧ b.takes 0x2010 1 w n ∧ b.reg K.ModePending = 0xFF ∧ b.modeRefusal n = 0
        ∧ atBoundary b.mode n = false)
      fun b u => u.mode = n ∧ u.reg K.ModeRequest = n ∧ u.reg K.ModeRefusalCode = 0 ∧ u.reg K.ModePending = 0xFF
        ∧ (b.mode ≠ n → b.raised [4] u)
        ∧ b.only [.dict, .ev, .mem, .sys, .tone, .fire, .loop, .dram, .time] u :=
  completes_of (fun _ => rfl) fun b _ ⟨_, htake, hpend, hcode, hbound⟩ => by
  rw [run_modeRequest htake hpend, run_writeBy_takes htake (effModeRequest_taken rfl hpend hcode), run_taken_request n hpend,
    run_ite_of_not (by simp [hbound])]
  have hreg : ∀ q, K.ServiceState ≠ q → K.ServiceLastResult ≠ q → K.ModeActual ≠ q → (∀ k ∈ loopKeys, k ≠ q) →
      ∀ u : State, ((modeAtOnce n).run u).reg q = u.reg q := fun q h1 h2 h3 h4 =>
    (calm_modeAtOnce (P := (· ≠ q)) h1 h2 h3 h4 n).reg_other
  refine ⟨?_, ?_, ?_, ?_, fun hne => raised_notifySend.mpr (raised_answer.mpr ?_), ?_⟩
  · have hmode := modeAtOnce_mode n ((put K.ModeRequest n).run b)
    simpa [State.mode] using hmode
  · have hother := hreg K.ModeRequest (by decide) (by decide) (by decide) (by decide) ((put K.ModeRequest n).run b)
    simpa using hother
  · simp
  · have hother := hreg K.ModePending (by decide) (by decide) (by decide) (by decide) ((put K.ModeRequest n).run b)
    simpa [hpend] using hother
  · refine raised_before (raised_after (u := (put K.ModeRequest n).run b) (by simp) (modeAtOnce_raises ?_)) (P := fun _ => True)
      trivial
    simpa [State.mode] using hne
  · have honly := only_write (fits_takenAtOnce n) w.path b
    rwa [Act.run_seq, Act.run_seq] at honly

theorem modeRequest_pends (t n : Nat) (w : Wr) :
    Completes (.modeRequest t w) t
      (fun b => b.takes 0x2010 1 w n ∧ b.reg K.ModePending = 0xFF ∧ b.modeRefusal n = 0
        ∧ atBoundary b.mode n = true)
      fun b u => u.mode = b.mode ∧ u.reg K.ModeRequest = n ∧ u.reg K.ModeRefusalCode = 0 ∧ u.reg K.ModePending = n
        ∧ u.reg K.ModeChangeCopy = rawOf 8 b.eligibleCopy ∧ u.sys.locked = false
        ∧ b.only [.dict, .ev, .mem, .sys, .tone, .fire, .loop, .dram, .time] u :=
  completes_of (fun _ => rfl) fun b _ ⟨htake, hpend, hcode, hbound⟩ => by
  rw [run_modeRequest htake hpend, run_writeBy_takes htake (effModeRequest_taken rfl hpend hcode), run_taken_request n hpend,
    run_ite_of hbound]
  obtain ⟨hp, hc, hl⟩ := pendMode_shows n ((put K.ModeRequest n).run b)
  have hother : ∀ q, K.ModePending ≠ q → K.ModeChangeCopy ≠ q → ∀ u : State, ((pendMode n).run u).reg q = u.reg q :=
    fun q h1 h2 => (calm_pendMode (P := (· ≠ q)) h1 h2 n).reg_other
  refine ⟨?_, ?_, ?_, ?_, ?_, ?_,
    only_write (a := .seq (.seq (put K.ModeRequest n) (pendMode n)) (put K.ModeRefusalCode 0)) (by simp) _ b⟩
  · simp [State.mode, hother K.ModeActual (by decide) (by decide)]
  · simp [hother K.ModeRequest (by decide) (by decide)]
  · simp
  · simpa using hp
  · have hsame : ((put K.ModeRequest n).run b).eligibleCopy = b.eligibleCopy :=
      eligibleCopy_congr rfl rfl fun k hk => by simp [hk]
    rw [hsame] at hc
    simpa using hc
  · simpa using hl

theorem modeRequest_refused (t n : Nat) (w : Wr) :
    Completes (.modeRequest t w) t
      (fun b => b.takes 0x2010 1 w n ∧ b.reg K.ModePending = 0xFF ∧ b.modeRefusal n ≠ 0)
      fun b u => u.mode = b.mode ∧ u.reg K.ModePending = 0xFF ∧ u.reg K.ModeRequest = b.reg K.ModeRequest
        ∧ u.reg K.ModeRefusalCode = b.modeRefusal n ∧ b.raised [5, 12] u
        ∧ b.only [.dict, .ev, .mem, .sys, .tone, .fire, .loop, .dram, .time] u :=
  completes_of (fun _ => rfl) fun b _ ⟨htake, hpend, hcode⟩ => by
  rw [run_modeRequest htake hpend, run_writeBy_refusal htake (if_pos (by simpa using hcode)) (by decide)]
  refine ⟨?_, ?_, ?_, ?_, raised_cons.mpr ⟨raised_refusedBy_own ?_ _ _, raised_refusedBy (by simp [modeRefused]) _ _ _⟩,
    only_refusedBy (by simp) (by simp) _ _ _⟩
  · rw [State.mode, reg_refusedBy (by decide), State.mode]
    simp [modeRefused]
  · rw [reg_refusedBy (by decide)]
    simp [modeRefused, hpend]
  · rw [reg_refusedBy (by decide)]
    simp [modeRefused]
  · rw [reg_refusedBy (by decide)]
    simp [modeRefused]
  · exact raised_after (u := (put K.ModeRefusalCode _).run b) (by simp) (raised_raise rfl _)

/-- What the mode does at the boundary of its first copy (R43). -/
def boundaryPassed (from' n : Nat) : Act :=
  seqs [.prim (.sys fun x => { x with transFrom := some from' }), setMode n, put K.ModeTransitionActive 1, holdTrim, syncLoop]

theorem fits_boundaryPassed (from' n : Nat) :
    (boundaryPassed from' n).All (Prim.Fits [.dict, .ev, .mem, .sys, .tone, .loop, .time]) := by simp [boundaryPassed]

theorem boundaryPassed_transFrom (from' n : Nat) (s : State) :
    ((boundaryPassed from' n).run s).sys.transFrom = some from' := by
  rw [boundaryPassed, run_seqs_cons, sys_kept (by simp)]
  rfl

theorem boundaryPassed_raises {n : Nat} {s : State} (h : s.mode ≠ n) (from' : Nat) :
    s.raised [4] ((boundaryPassed from' n).run s) := by
  have hrest : (seqs [put K.ModeTransitionActive 1, holdTrim, syncLoop]).All (Prim.Calm fun _ => True) :=
    ⟨trivial, calm_holdTrim _, calm_syncLoop fun _ _ => trivial, trivial⟩
  rw [boundaryPassed, run_seqs_cons, run_seqs_cons]
  exact raised_before (raised_after (by simp) (setMode_raises (by simpa [State.mode] using h))) hrest

theorem boundaryPassed_shows (from' n : Nat) (s : State) : ((boundaryPassed from' n).run s).mode = n
    ∧ ((boundaryPassed from' n).run s).inTransition = true := by
  have hrest : ∀ q, (∀ k ∈ loopKeys, k ≠ q) → (seqs [holdTrim, syncLoop]).All (Prim.Calm (· ≠ q)) := fun q hq =>
    ⟨calm_holdTrim _, calm_syncLoop hq, trivial⟩
  constructor
  · rw [State.mode, boundaryPassed, run_seqs_three, (hrest K.ModeActual (by decide)).reg_other]
    have hmode := setMode_mode n ((Act.prim (.sys fun x => { x with transFrom := some from' })).run s)
    simpa [State.mode] using hmode
  · rw [State.inTransition, State.flag, boundaryPassed, run_seqs_three,
      (hrest K.ModeTransitionActive (by decide)).reg_other]
    simp

theorem modeChange_completes (t : Nat) :
    Completes (.modeChangeAtBoundary t) t
      (fun b => b.inv = true ∧ b.reg K.ModePending ≠ 0xFF ∧ b.sys.locked = true ∧ b.inTransition = false)
      fun b u => u.mode = b.reg K.ModePending ∧ u.inTransition = true ∧ u.sys.transFrom = some b.mode
        ∧ (b.mode ≠ b.reg K.ModePending → b.raised [4] u) ∧ b.only [.dict, .ev, .mem, .sys, .tone, .loop, .time] u :=
  completes_of (fun _ => rfl) fun b _ ⟨_, hpend, hlocked, htrans⟩ => by
  rw [Act.run_seq, run_lockCheck_locked hlocked, Act.run_read, run_ite_of_not (by simp [hpend, hlocked, htrans]),
    ← boundaryPassed]
  obtain ⟨hmode, hactive⟩ := boundaryPassed_shows b.mode (b.reg K.ModePending) b
  exact ⟨(State.notifySend_reg _ _).trans hmode, by rwa [State.inTransition, State.flag, State.notifySend_reg],
    by rw [State.notifySend_sys, boundaryPassed_transFrom],
    fun hne => raised_notifySend.mpr (boundaryPassed_raises hne b.mode), only_sent_of_fits (fits_boundaryPassed _ _) b⟩

/-- What ends with a transition before a queued request's turn comes (R43, R45). -/
def transitionEnded (keep : Nat) : Act :=
  seqs [put K.ModeTransitionActive 0, put K.ModePending 0xFF,
    .prim (.sys fun x => { x with transFrom := none, locked := false }), releaseRings keep,
    when (keep == mReady) (.seq (.prim (.dram fun d => { d with freqNext := some 3200 })) deferredStep), syncLoop]

theorem fits_transitionEnded (keep : Nat) : (transitionEnded keep).All
    (Prim.Fits [.dict, .ev, .mem, .sys, .tone, .fire, .loop, .dram, .time]) := by
  simp [transitionEnded, Dram.Sized]

theorem calm_transitionEnded {P : Nat → Prop} (ha : P K.ModeTransitionActive) (hp : P K.ModePending)
    (h : ∀ k ∈ loopKeys, P k) (keep : Nat) : (transitionEnded keep).All (Prim.Calm P) :=
  ⟨ha, hp, trivial, trivial, all_when fun _ => ⟨trivial, calm_deferredStep⟩, calm_syncLoop h, trivial⟩

theorem transitionEnded_shows (keep : Nat) (s : State) : ((transitionEnded keep).run s).inTransition = false
    ∧ ((transitionEnded keep).run s).reg K.ModePending = 0xFF := by
  have hrest : ∀ q, (∀ k ∈ loopKeys, k ≠ q) → (seqs [.prim (.sys fun x => { x with transFrom := none, locked := false }),
      releaseRings keep, when (keep == mReady) (.seq (.prim (.dram fun d => { d with freqNext := some 3200 })) deferredStep),
      syncLoop]).All (Prim.Calm (· ≠ q)) := fun q hq =>
    ⟨trivial, trivial, all_when fun _ => ⟨trivial, calm_deferredStep⟩, calm_syncLoop hq, trivial⟩
  constructor
  · rw [State.inTransition, State.flag, transitionEnded, run_seqs_cons, run_seqs_cons,
      (hrest K.ModeTransitionActive (by decide)).reg_other]
    simp
  · rw [transitionEnded, run_seqs_cons, run_seqs_cons, (hrest K.ModePending (by decide)).reg_other]
    simp

theorem transitionEnded_sys (keep : Nat) (s : State) : ((transitionEnded keep).run s).sys
    = { s.sys with transFrom := none, locked := false } := by
  rw [transitionEnded, run_seqs_three, sys_kept (by simp [Dram.Sized])]
  rfl

theorem modeTransitionEnd_completes (t : Nat) :
    Completes (.modeTransitionEnd t) t (fun b => b.inv = true ∧ b.inTransition = true ∧ b.reg K.ModeQueued = 0xFF)
      fun b u => u.inTransition = false ∧ u.reg K.ModePending = 0xFF ∧ u.sys.transFrom = none ∧ u.sys.locked = false
        ∧ u.mode = b.mode ∧ b.only [.dict, .ev, .mem, .sys, .tone, .fire, .loop, .dram, .time] u :=
  completes_of (fun _ => rfl) fun b _ ⟨_, htrans, hqueued⟩ => by
  simp only [Act.run_read]
  rw [run_ite_of_not (by simp [htrans])]
  have hend : ∀ u, u.reg K.ModeQueued = 0xFF → promoteQueued.run u = u := fun u hu => by
    rw [promoteQueued, Act.run_read, run_when, if_neg (by simp [hu])]
  have hsame : (seqs [put K.ModeTransitionActive 0, put K.ModePending 0xFF,
      .prim (.sys fun x => { x with transFrom := none, locked := false }), releaseRings b.mode,
      when (b.mode == mReady) (.seq (.prim (.dram fun d => { d with freqNext := some 3200 })) deferredStep), syncLoop,
      promoteQueued]).run b = (transitionEnded b.mode).run b := by
    refine (run_seqs_append [_, _, _, _, _, _] [promoteQueued] b).trans (hend _ ?_)
    rw [← transitionEnded, Act.All.reg_other (calm_transitionEnded (P := (· ≠ K.ModeQueued)) (by decide) (by decide) (by decide) b.mode), hqueued]
  rw [hsame]
  obtain ⟨hactive, hpending⟩ := transitionEnded_shows b.mode b
  refine ⟨by rwa [State.inTransition, State.flag, State.notifySend_reg], (State.notifySend_reg _ _).trans hpending, ?_, ?_, ?_,
    only_sent_of_fits (fits_transitionEnded _) b⟩
  · rw [State.notifySend_sys, transitionEnded_sys]
  · rw [State.notifySend_sys, transitionEnded_sys]
  · rw [State.mode, State.notifySend_reg,
      Act.All.reg_other (calm_transitionEnded (P := (· ≠ K.ModeActual)) (by decide) (by decide) (by decide) b.mode), State.mode]

/-! ### Orderly stops -/

/-- What an orderly stop does to the copies and rings (R45). -/
def stopCopies : Act :=
  .prim (.fire fun f => { f with
    copies := f.copies.map fun c => { c with done := true }, heads := f.heads.map Head.idle, rings := [] })

/-- What an orderly stop does once the copies have been stopped (R45, R49). -/
def stopRest (reason : Nat) : Act :=
  seqs [endService 1, setMode mReady, put K.ModeTransitionActive 0, .prim (.sys fun x => { x with transFrom := none }),
    put K.StopReason reason, addTo K.StopCount 4 1, raise 7, .prim (.dram fun d => { d with freqNext := some 3200 }),
    deferredStep]

/-- What an orderly stop does before the copies are stopped (R45, R47). -/
def stopHead : Act :=
  seqs [put K.ModePending 0xFF, put K.ModeQueued 0xFF, .prim (.sys fun x => { x with locked := false })]

theorem orderlyStop_eq (reason : Nat) : orderlyStop reason = .read fun s =>
    if s.mode = mStandby then stopHead
    else .seq stopHead (.seq (markInFlight wModeStop) (.seq stopCopies (stopRest reason))) := rfl

theorem run_orderlyStop {s : State} (h : s.mode ≠ mStandby) (reason : Nat) : (orderlyStop reason).run s
    = (stopRest reason).run (stopCopies.run ((markInFlight wModeStop).run (stopHead.run s))) := by
  rw [orderlyStop_eq, Act.run_read, run_ite_of_not h, Act.run_seq, Act.run_seq, Act.run_seq]

theorem stopRest_shows (reason : Nat) (s : State) : ((stopRest reason).run s).mode = mReady
    ∧ ((stopRest reason).run s).reg K.ModePending = s.reg K.ModePending
    ∧ ((stopRest reason).run s).reg K.ModeQueued = s.reg K.ModeQueued
    ∧ ((stopRest reason).run s).reg K.ModeTransitionActive = 0
    ∧ ((stopRest reason).run s).reg K.StopReason = reason
    ∧ ((stopRest reason).run s).reg K.StopCount = (s.reg K.StopCount + 1) % 2 ^ 32 := by
  have hlast : ∀ P : Nat → Prop, (seqs [raise 7, .prim (.dram fun d => { d with freqNext := some 3200 }), deferredStep]).All
      (Prim.Calm P) := fun P => ⟨trivial, trivial, calm_deferredStep, trivial⟩
  have hend := fun q (h1 : K.ServiceState ≠ q) (h2 : K.ServiceLastResult ≠ q) =>
    (calm_endService (P := (· ≠ q)) h1 h2 1).reg_other
  have hset := fun q (h : K.ModeActual ≠ q) => (calm_setMode (P := (· ≠ q)) h mReady).reg_other
  rw [stopRest, run_seqs_three, run_seqs_three]
  refine ⟨?_, ?_, ?_, ?_, ?_, ?_⟩
  · rw [State.mode, (hlast _).reg_other]
    have hmode := setMode_mode mReady ((endService 1).run s)
    simpa [State.mode] using hmode
  · rw [(hlast _).reg_other]
    simp [hend K.ModePending (by decide) (by decide), hset K.ModePending (by decide)]
  · rw [(hlast _).reg_other]
    simp [hend K.ModeQueued (by decide) (by decide), hset K.ModeQueued (by decide)]
  · rw [(hlast _).reg_other]
    simp
  · rw [(hlast _).reg_other]
    simp
  · rw [(hlast _).reg_other]
    simp [hend K.StopCount (by decide) (by decide), hset K.StopCount (by decide)]

theorem stopRest_raises (reason : Nat) (s : State) : s.raised [7] ((stopRest reason).run s) :=
  raised_among (P := fun _ => True) (l₁ := [_, _, _, _, _, _])
    (by simp [calm_endService, calm_setMode])
    (fun _ _ => raised_raise rfl _) ⟨trivial, calm_deferredStep, trivial⟩

/-- The rings and the copies of the firing unit. -/
def Fire.running (f : Fire) : List Ring × List Copy := (f.rings, f.copies)

theorem stopRest_running (reason : Nat) (s : State) : ((stopRest reason).run s).fire.running = s.fire.running := by
  have hservice : (endService 1).All (Prim.Leaves fun u => u.fire.running) := fun u => all_ite
    (fun _ => ⟨fun _ => rfl, fun _ => rfl, fun _ => rfl, fun v => by rw [show (Prim.occur 107).apply v = _ from rfl]; simp, trivial⟩)
    fun _ => trivial
  rw [stopRest, run_seqs_cons, fire_kept (by simp [Dram.Sized])]
  exact hservice.leaves s

/-- What an orderly stop out of Standby leaves: Ready, nothing pending or queued, its reason and count (R45, R49). -/
theorem orderlyStop_shows {s : State} (h : s.mode ≠ mStandby) (reason : Nat) :
    ((orderlyStop reason).run s).mode = mReady
    ∧ ((orderlyStop reason).run s).reg K.ModePending = 0xFF
    ∧ ((orderlyStop reason).run s).reg K.ModeQueued = 0xFF
    ∧ ((orderlyStop reason).run s).reg K.ModeTransitionActive = 0
    ∧ ((orderlyStop reason).run s).reg K.StopReason = reason
    ∧ ((orderlyStop reason).run s).reg K.StopCount = (s.reg K.StopCount + 1) % 2 ^ 32 := by
  obtain ⟨hready, hpending, hqueued, hactive, hreason, hcount⟩ :=
    stopRest_shows reason (stopCopies.run ((markInFlight wModeStop).run (stopHead.run s)))
  rw [run_orderlyStop h]
  exact ⟨hready, hpending.trans (by simp [stopCopies, markInFlight, stopHead]),
    hqueued.trans (by simp [stopCopies, markInFlight, stopHead]), hactive, hreason,
    hcount.trans (by simp [stopCopies, markInFlight, stopHead])⟩

theorem orderlyStop_raises {s : State} (h : s.mode ≠ mStandby) (reason : Nat) :
    s.raised [7] ((orderlyStop reason).run s) := by
  rw [run_orderlyStop h]
  exact raised_after (by simp [stopCopies, markInFlight, stopHead]) (stopRest_raises reason _)

theorem orderlyStop_running {s : State} (h : s.mode ≠ mStandby) (reason : Nat) :
    ((orderlyStop reason).run s).fire.rings = [] ∧ ∀ c ∈ ((orderlyStop reason).run s).fire.copies, c.done = true := by
  obtain ⟨hrings, hcopies⟩ := Prod.mk.inj
    (stopRest_running reason (stopCopies.run ((markInFlight wModeStop).run (stopHead.run s))))
  rw [run_orderlyStop h, hrings, hcopies]
  refine ⟨rfl, fun c hc => ?_⟩
  obtain ⟨c', -, rfl⟩ := List.mem_map.mp hc
  rfl

theorem orderlyStopRequest_completes (t : Nat) (w : Wr) :
    Completes (.orderlyStopRequest t w) t
      (fun b => b.inv = true ∧ b.takes 0x2010 7 w 1 ∧ b.mode ≠ mStandby)
      fun b u => u.mode = mReady ∧ u.reg K.ModePending = 0xFF ∧ u.reg K.ModeQueued = 0xFF
        ∧ u.reg K.ModeTransitionActive = 0 ∧ u.reg K.StopReason = 1
        ∧ u.reg K.StopCount = (b.reg K.StopCount + 1) % 2 ^ 32 ∧ u.fire.rings = [] ∧ (∀ c ∈ u.fire.copies, c.done = true)
        ∧ b.raised [7] u ∧ b.only [.dict, .ev, .mem, .sys, .tone, .fire, .loop, .dram, .time] u :=
  completes_write (fun _ => rfl) fun b ⟨_, htake, hmode⟩ => by
  have hreg : ∀ q, (∀ k ∈ loopKeys, k ≠ q) → (((answer w.path 0).run ((seqs [orderlyStop 1, syncLoop]).run b)).notifySend).reg q
      = ((orderlyStop 1).run b).reg q := fun q hq => by
    rw [State.notifySend_reg, answer_reg, run_seqs_cons, run_seqs_cons, run_seqs_nil, reg_syncLoop hq]
  have hfire : ((answer w.path 0).run ((seqs [orderlyStop 1, syncLoop]).run b)).notifySend.fire = ((orderlyStop 1).run b).fire := by
    rw [State.notifySend_fire, answer_fire, run_seqs_cons, run_seqs_cons, run_seqs_nil, fire_kept (by simp)]
  obtain ⟨hready, hpending, hqueued, hactive, hreason, hcount⟩ := orderlyStop_shows hmode 1
  obtain ⟨hrings, hcopies⟩ := orderlyStop_running hmode 1
  exact ⟨1, seqs [orderlyStop 1, syncLoop], htake, rfl, (hreg K.ModeActual (by decide)).trans hready,
    (hreg _ (by decide)).trans hpending, (hreg _ (by decide)).trans hqueued, (hreg _ (by decide)).trans hactive,
    (hreg _ (by decide)).trans hreason, (hreg _ (by decide)).trans hcount, by rw [hfire, hrings],
    by rw [hfire]; exact hcopies,
    raised_notifySend.mpr (raised_answer.mpr (raised_head (orderlyStop_raises hmode 1) (P := fun _ => True)
      ⟨calm_syncLoop fun _ _ => trivial, trivial⟩)), only_write (by simp) _ b⟩

/-- Settles O5: mode requests, the change at a boundary, the end of a transition and an orderly stop. -/
theorem modesComplete : Obligations.ModesComplete :=
  ⟨modeRequest_atOnce, modeRequest_pends, modeRequest_refused, modeChange_completes, modeTransitionEnd_completes,
    orderlyStopRequest_completes⟩

end Sys2Proof.Machine
end

section
/-! # What the resets set (R93–R97) -/

namespace Sys2Proof.Machine

/-! ### Trees that set registers of a set only -/

/-- The primitive sets, unsets and loads only registers that `P` admits, and is part of a command's own changes. -/
@[simp] def Prim.Within (P : Nat → Prop) : Prim → Prop
  | .set k _ => P k
  | .unset keep => ∀ k, keep k = false → P k
  | .load m => ∀ x ∈ m, P x.1
  | .begin _ => False
  | .release => False
  | .route => False
  | .emcyNext => False
  | .notifySend => False
  | _ => True

theorem Prim.within_of_calm {P : Nat → Prop} {p : Prim} (h : p.Calm P) (hi : p.Inner) : p.Within P := by
  cases p <;> first | exact h | exact h.elim | exact hi

theorem Prim.Within.mono {P Q : Nat → Prop} (hpq : ∀ k, P k → Q k) {p : Prim} (h : p.Within P) : p.Within Q := by
  cases p
  case set k v => exact hpq _ h
  case unset keep => exact fun k hk => hpq _ (h k hk)
  case load m => exact fun x hx => hpq _ (h x hx)
  all_goals exact h

theorem Prim.Within.inner {P : Nat → Prop} {p : Prim} (h : p.Within P) : p.Inner := by
  cases p <;> first | exact h | trivial

theorem Prim.Within.not_sets {P : Nat → Prop} {p : Prim} (h : p.Within P) {q : Nat} (hq : ¬P q) : ¬p.sets q := by
  cases p
  case set k v => exact fun e => hq (e ▸ h)
  case unset keep => exact fun e => hq (h q e)
  case load m =>
    rintro ⟨x, hx, rfl⟩
    exact hq (h x hx)
  all_goals exact fun e => e

theorem Act.All.both {P Q R : Prim → Prop} (hr : ∀ p, P p → Q p → R p) {a : Act} (h : a.All P) (h' : a.All Q) : a.All R := by
  induction a with
  | skip => trivial
  | prim p => exact hr p h h'
  | seq a b iha ihb => exact ⟨iha h.1 h'.1, ihb h.2 h'.2⟩
  | read f ih => exact fun s => ih s (h s) (h' s)

/-- A calm tree that is part of a command's own changes sets its keys only. -/
theorem within_of_calm {P : Nat → Prop} {a : Act} (h : a.All (Prim.Calm P)) (hi : a.All Prim.Inner) : a.All (Prim.Within P) :=
  h.both (fun _ => Prim.within_of_calm) hi

/-! ### The registers that no reset of an island below AON sets -/

/-- Neither an island's flag nor AON's record of the resets (R88, R93). -/
abbrev OffAon (k : Nat) : Prop := (k < 0x220000 ∨ 0x220100 ≤ k) ∧ k ≠ K.ResetCause ∧ k ≠ K.WarmResetCount

/-- None of these, and not the claim. -/
abbrev Plain (k : Nat) : Prop := OffAon k ∧ k ≠ K.ClaimActual

theorem plain_of_high {k : Nat} (h : 0x310000 ≤ k) : Plain k := by
  simp only [Plain, OffAon, K.ClaimActual, K.ResetCause, K.WarmResetCount]
  omega

theorem plain_between {k : Nat} (h : 0x220300 ≤ k) (h' : k < 0x300000) : Plain k := by
  simp only [Plain, OffAon, K.ClaimActual, K.ResetCause, K.WarmResetCount]
  omega

theorem plain_low {k : Nat} (h : k < 0x220000) : Plain k := by
  simp only [Plain, OffAon, K.ClaimActual, K.ResetCause, K.WarmResetCount]
  omega

/-- A register of an island other than AON and CTL is outside that record and is not the claim. -/
theorem plain_of_resetKey {i k : Nat} (hi : 3 ≤ i) (h : resetKey i k = true) : Plain k := by
  have howner : ownerIsland (k / 256) = i := by
    simp only [resetKey, Bool.and_eq_true, beq_iff_eq] at h
    exact h.1.1
  by_contra hk
  have hpage : k / 65536 = 0x22 ∨ k / 65536 = 0x30 := by
    simp only [Plain, OffAon, K.ClaimActual, K.ResetCause, K.WarmResetCount] at hk
    omega
  have hdiv : k / 256 / 256 = k / 65536 := by rw [Nat.div_div_eq_div_mul]
  rw [ownerIsland, hdiv] at howner
  rcases hpage with h' | h' <;> rw [h'] at howner <;> simp only [islAON, islCTL] at howner <;> omega

/-! ### The islands' resets -/

theorem within_resetEntries {i : Nat} (hi : 3 ≤ i) : (resetEntries i).All (Prim.Within Plain) := fun s =>
  ⟨fun k hk => plain_of_resetKey hi (by simpa using hk), fun x hx =>
    plain_of_resetKey hi (by have := SMap.mem_keep hx; simp only [Bool.and_eq_true] at this; exact this.2)⟩

theorem within_clearClass (P : Nat → Prop) (c : Nat) : (clearClass c).All (Prim.Within P) := by simp [clearClass, faultTable]

theorem plain_loopKeys : ∀ k ∈ loopKeys, Plain k := by decide

theorem within_syncLoop : syncLoop.All (Prim.Within Plain) := within_of_calm (calm_syncLoop plain_loopKeys) inner_syncLoop

theorem within_setDma (P : Nat → Prop) (c : Nat) (f : DmaChan → DmaChan) : (setDma c f).All (Prim.Within P) := trivial

theorem plain_dmaKey {k : Nat} (h : 0x440000 ≤ k) (c : Nat) : Plain (dmaKey k c) := by
  refine plain_of_high ?_
  rw [dmaKey]
  omega

theorem within_dmaEnd (c status cause : Nat) : (dmaEnd c status cause).All (Prim.Within Plain) :=
  ⟨trivial, plain_dmaKey (by decide) c, ⟨plain_dmaKey (by decide) c, trivial⟩, trivial⟩

theorem within_dmaStopped (c : Nat) : (dmaStopped c).All (Prim.Within Plain) := fun s =>
  ⟨fun _ => plain_dmaKey (by decide) c, within_dmaEnd c 0 6⟩

theorem within_dmaComplete (c : Nat) : (dmaComplete c).All (Prim.Within Plain) := by
  have hnext : (dmaNext c).All (Prim.Within Plain) := fun _ =>
    ⟨trivial, plain_dmaKey (by decide) c⟩
  exact fun s => all_ite (fun _ => ⟨hnext, within_dmaStopped c⟩) fun _ => hnext

theorem within_burstPassed (c n : Nat) : (burstPassed c n).All (Prim.Within Plain) := by
  simp [burstPassed, within_dmaComplete, within_dmaStopped, within_setDma]

theorem within_dmaStore (a : Nat) (l : List Nat) : (dmaStore a l).All (Prim.Within Plain) := by
  simp (decide := true) [dmaStore, writeDram, clearPoison]

theorem within_burstEffect (c n : Nat) : (burstEffect c n).All (Prim.Within Plain) := fun s => by
  have hkey := fun k (h : 0x440000 ≤ k) => plain_dmaKey h c
  refine ⟨fun _ => hkey _ (by decide), ?_, trivial⟩
  split
  · exact ⟨within_dmaStore _ _, within_burstPassed c n⟩
  · exact ⟨within_dmaStore _ _, within_burstPassed c n⟩
  · split
    · exact ⟨hkey _ (by decide), all_ite (fun _ => within_dmaEnd c 4 7) fun _ => within_dmaComplete c⟩
    · exact ⟨all_when fun _ => hkey _ (by decide), within_burstPassed c n⟩

theorem within_burstEnd (c n : Nat) (bad : Option Nat) : (burstEnd c n bad).All (Prim.Within Plain) := fun s => by
  have hkey := fun k (h : 0x440000 ≤ k) => plain_dmaKey h c
  dsimp only
  split
  · exact within_burstEffect c n
  · exact ⟨fun _ => hkey _ (by decide), hkey _ (by decide), all_when fun _ => fun _ => (by decide : Plain K.ProtectedAccessRefused),
      all_ite (fun _ => within_dmaEnd c 5 4) fun _ => trivial, trivial⟩

theorem within_dmaDisableAll : dmaDisableAll.All (Prim.Within Plain) := all_each fun c _ s =>
  all_ite (fun _ => ⟨by split <;> [exact within_burstEnd c _ none; trivial],
    fun _ => all_when fun _ => within_dmaStopped c⟩) fun _ => trivial

theorem within_resetFab : resetFab.All (Prim.Within Plain) :=
  ⟨within_dmaDisableAll, trivial, within_resetEntries (by decide), trivial⟩

theorem plain_subchannel (sc : Nat) (h : sc < 4) : Plain (K.SubchannelState + sc) :=
  plain_between (by simp only [K.SubchannelState]; omega) (by simp only [K.SubchannelState]; omega)

theorem within_resetMem : resetMem.All (Prim.Within Plain) := fun s => by
  have hsleep : enterSelfRefresh.All Prim.Inner := by simp [enterSelfRefresh, writeDram, clearPoison]
  exact ⟨within_of_calm (calm_enterSelfRefresh (by decide) plain_subchannel) hsleep, trivial,
    (by decide : Plain K.DramTrained),
    within_resetEntries (by decide), all_each fun sc hsc => plain_subchannel sc (List.mem_range.mp (List.mem_filter.mp hsc).1),
    trivial⟩

theorem within_syncLane {n : Nat} (h : n < 32) : (syncLane n).All (Prim.Within Plain) := fun s =>
  ⟨plain_between (by simp only [K.DecodeLaneStatus]; omega) (by simp only [K.DecodeLaneStatus]; omega),
    plain_between (by simp only [K.DecodeLaneStream]; omega) (by simp only [K.DecodeLaneStream]; omega)⟩

theorem within_resetCodec : resetCodec.All (Prim.Within Plain) :=
  ⟨trivial, within_clearClass _ 5, within_resetEntries (by decide), all_each fun n hn => within_syncLane (List.mem_range.mp hn),
    trivial⟩

theorem within_resetComp : resetComp.All (Prim.Within Plain) := ⟨trivial, trivial, within_resetEntries (by decide), trivial⟩

theorem within_resetTone : resetTone.All (Prim.Within Plain) :=
  ⟨trivial, trivial, trivial, within_resetEntries (by decide), trivial⟩

theorem within_resetFire : resetFire.All (Prim.Within Plain) := ⟨trivial, within_resetEntries (by decide), trivial⟩

theorem within_resetLink : resetLink.All (Prim.Within Plain) :=
  ⟨trivial, within_clearClass _ 1, trivial, within_resetEntries (by decide), trivial⟩

theorem within_resetCam : resetCam.All (Prim.Within Plain) :=
  ⟨trivial, within_clearClass _ 2, trivial, within_resetEntries (by decide), within_syncLoop, trivial⟩

theorem within_closeSessions {P : Nat → Prop} (ho : P K.SessionsOpen) (hp : P (K.NetworkEventPort + 9)) :
    closeSessions.All (Prim.Within P) := by
  refine ⟨all_each fun i _ s => ?_, trivial⟩
  dsimp only
  split
  · trivial
  · simp [dropLatches, netEvent, ho, hp]

theorem within_endFlow {f : Nat} (h : f < 128) : (endFlow f).All (Prim.Within Plain) := fun s =>
  ⟨plain_between (by simp only [K.FlowState]; omega) (by simp only [K.FlowState]; omega),
    all_when fun _ => fun _ => (by decide : Plain K.ObjectsDiscarded), trivial, trivial⟩

theorem within_resetNet : resetNet.All (Prim.Within Plain) := fun s =>
  ⟨within_closeSessions (by decide) (by decide), all_each fun f hf => within_endFlow (List.mem_range.mp (List.mem_filter.mp hf).1),
    within_resetEntries (by decide), trivial, trivial⟩

theorem within_darken (P : Nat → Prop) : darken.All (Prim.Within P) := by simp [darken]

theorem within_resetTime : resetTime.All (Prim.Within Plain) :=
  ⟨within_clearClass _ 3, within_clearClass _ 4, within_darken _, trivial, trivial, trivial, within_resetEntries (by decide),
    within_syncLoop, trivial⟩

/-- What the reset of an island does after its flag has fallen. -/
def islandLoss : Nat → Act
  | 3 => resetFab
  | 4 => resetMem
  | 5 => resetCodec
  | 6 => resetComp
  | 7 => resetTone
  | 8 => resetFire
  | 9 => resetLink
  | 10 => resetCam
  | 11 => resetNet
  | 12 => resetTime
  | _ => .skip

theorem resetIsland_eq (i : Nat) : resetIsland i = .seq (setReady i false) (islandLoss i) := by
  unfold resetIsland islandLoss
  rfl

theorem within_islandLoss (i : Nat) : (islandLoss i).All (Prim.Within Plain) := by
  unfold islandLoss
  split
  · exact within_resetFab
  · exact within_resetMem
  · exact within_resetCodec
  · exact within_resetComp
  · exact within_resetTone
  · exact within_resetFire
  · exact within_resetLink
  · exact within_resetCam
  · exact within_resetNet
  · exact within_resetTime
  · trivial

/-! ### A warm reset's islands -/

/-- What a claim about the changes of a warm reset's islands has to allow. -/
structure Admits (T : Prim → Prop) : Prop where
  plain : ∀ p : Prim, p.Within Plain → T p
  unset : ∀ keep : Nat → Bool, (∀ k, keep k = false → OffAon k) → T (.unset keep)
  claim : T (.set K.ClaimActual 0)

section

variable {T : Prim → Prop} (hT : Admits T)
include hT

theorem Admits.all {a : Act} (h : a.All (Prim.Within Plain)) : a.All T := h.mono hT.plain

omit hT in
theorem within_syncFunctions (i : Nat) : (syncFunctions i).All (Prim.Within Plain) := fun s =>
  all_each fun f hf u => all_when fun _ => by
    have hlt : f ≤ 11 := by
      have := (List.mem_filter.mp hf).1
      simp only [functions, List.mem_map, List.mem_range] at this
      omega
    exact ⟨plain_low (by simp only [K.FunctionStatus]; omega), trivial⟩

theorem all_setReady {i : Nat} (hdown : T (.set (K.IslandReady + (i - 1)) 0)) : (setReady i false).All T := fun s =>
  all_ite (fun _ => trivial) fun _ => ⟨hdown, hT.all (all_when fun _ => trivial), hT.all (within_syncFunctions i), trivial⟩

theorem all_resetIsland {i : Nat} (hdown : T (.set (K.IslandReady + (i - 1)) 0)) : (resetIsland i).All T := by
  rw [resetIsland_eq]
  exact ⟨all_setReady hT hdown, hT.all (within_islandLoss i)⟩

omit hT in
theorem within_loadCounts : loadCounts.All (Prim.Within Plain) := fun s x hx => by
  have hk := SMap.mem_keep hx
  simp only [countKey, List.any_cons, List.any_nil, Bool.or_false, Bool.or_eq_true, Bool.and_eq_true, decide_eq_true_eq,
    beq_iff_eq, K.CalibrationCount, K.CalibrationDiscarded, K.CalibrationTime, K.CalibrationRecordSequence,
    K.CalibrationRecordsValid] at hk
  simp only [Plain, OffAon, K.ClaimActual, K.ResetCause, K.WarmResetCount]
  omega

omit hT in
theorem offAon_ctl {k : Nat} (h : (!(resetKey islCTL k || aonConfig k)) = false) : OffAon k := by
  simp only [Bool.not_eq_false', Bool.or_eq_true] at h
  rcases h with h | h
  · have howner : ownerIsland (k / 256) = islCTL := by
      simp only [resetKey, Bool.and_eq_true, beq_iff_eq] at h
      exact h.1.1
    by_contra hk
    have hpage : k / 65536 = 0x22 := by
      simp only [OffAon, K.ResetCause, K.WarmResetCount] at hk
      omega
    rw [ownerIsland, Nat.div_div_eq_div_mul, show 256 * 256 = 65536 from rfl, hpage] at howner
    simp only [islAON, islCTL] at howner
    omega
  · simp only [aonConfig, Bool.or_eq_true, beq_iff_eq, K.DieTemperatureMax] at h
    simp only [OffAon, K.ResetCause, K.WarmResetCount]
    omega

theorem all_resetCtl (hdown : T (.set (K.IslandReady + (islCTL - 1)) 0)) : resetCtl.All T := fun s =>
  ⟨hT.all (within_closeSessions (by decide) (by decide)), hT.plain _ trivial, hT.plain _ trivial, hT.plain _ trivial,
    hT.plain _ trivial, hT.plain _ trivial, hT.plain _ trivial, hT.plain _ trivial, hT.plain _ trivial, hT.plain _ trivial,
    hT.plain _ trivial, all_setReady hT hdown, hT.unset _ fun k => offAon_ctl, hT.all within_loadCounts,
    all_each fun r _ => hT.plain _ trivial, trivial⟩

theorem all_warmTone (hdown : T (.set (K.IslandReady + (islTONE - 1)) 0)) : warmTone.All T := fun s => by
  have hkey : ∀ k, (resetKey islTONE k && !toneKept k) = true → Plain k := fun k hk =>
    plain_of_resetKey (by decide) (Bool.and_eq_true_iff.mp hk).1
  exact ⟨all_setReady hT hdown, hT.plain _ trivial, hT.plain _ fun k hk => hkey k (by simpa using hk),
    hT.plain _ fun x hx => hkey _ (Bool.and_eq_true_iff.mp (SMap.mem_keep hx)).2, trivial⟩

theorem all_warmComp (hdown : T (.set (K.IslandReady + (islCOMP - 1)) 0)) : warmComp.All T := fun s => by
  have hkey : ∀ k, (resetKey islCOMP k && k / 65536 != 0x43) = true → Plain k := fun k hk =>
    plain_of_resetKey (by decide) (Bool.and_eq_true_iff.mp hk).1
  have hlayer : ∀ a l, 0x430000 ≤ a → Plain (a + l * 0x1000) := fun a l h => plain_of_high (by omega)
  exact ⟨all_setReady hT hdown, hT.plain _ trivial, hT.plain _ trivial,
    all_each fun l _ => ⟨hT.plain _ (hlayer _ l (by decide)), all_when fun _ => hT.plain _ (hlayer _ l (by decide))⟩,
    hT.plain _ fun k hk => hkey k (by simpa using hk),
    hT.plain _ fun x hx => hkey _ (Bool.and_eq_true_iff.mp (SMap.mem_keep hx)).2, trivial⟩

omit hT in
theorem within_warmIllumination : warmIllumination.All (Prim.Within Plain) :=
  ⟨within_darken _, within_clearClass _ 3, trivial, (by decide : Plain K.IlluminationState), (by decide : Plain K.OffCause), trivial⟩

omit hT in
theorem within_dropDecoding (gone : Nat → Bool) : (dropDecoding gone).All (Prim.Within Plain) :=
  ⟨trivial, all_each fun _ hn => within_syncLane (List.mem_range.mp hn), trivial, trivial⟩

theorem all_resetWarmIslands (hdown : ∀ i, 2 ≤ i → i ≤ 11 → T (.set (K.IslandReady + (i - 1)) 0)) :
    resetWarmIslands.All T := fun s => by
  have hisland : ∀ i, 2 ≤ i → i ≤ 11 → (resetIsland i).All T := fun i h h' => all_resetIsland hT (hdown i h h')
  exact ⟨hT.plain _ trivial, hT.claim, hT.plain _ trivial, hisland _ (by decide) (by decide), hisland _ (by decide) (by decide),
    hT.all (within_dropDecoding _), hisland _ (by decide) (by decide), hT.plain _ trivial, hT.plain _ trivial,
    all_warmComp hT (hdown _ (by decide) (by decide)), all_warmTone hT (hdown _ (by decide) (by decide)),
    hisland _ (by decide) (by decide), hT.plain _ trivial, hisland _ (by decide) (by decide), hisland _ (by decide) (by decide),
    hisland _ (by decide) (by decide), hT.all within_warmIllumination,
    hT.all (all_when fun _ => (by decide : Plain K.DramRetained)), all_resetCtl hT (hdown _ (by decide) (by decide)),
    hT.all (within_syncFunctions islTIME), trivial⟩

end

/-! ### What the flags and the claim read -/

/-- The primitive sets `q` to 0 alone, and loads no value into it. -/
@[simp] def Prim.Downs (q : Nat) : Prim → Prop
  | .set k v => k = q → v = 0
  | .load m => ∀ x ∈ m, x.1 ≠ q
  | _ => True

theorem Prim.Downs.reg {p : Prim} {q : Nat} (h : p.Downs q) {R : Nat → Prop} (hzero : R 0) {s : State}
    (hd : defaultOf s.part q = 0) (hs : SMap.wf s.dict = true) (hq : R (s.reg q)) : R ((p.apply s).reg q) := by
  by_cases hsets : p.sets q
  · cases p <;> try exact hsets.elim
    case set k v =>
      obtain rfl : k = q := hsets
      simpa [h rfl] using hzero
    case unset keep =>
      have hfind : (SMap.keep s.dict keep).find q = none := SMap.find_keep_out _ hsets
      simpa [Prim.apply, State.reg, hfind, hd] using hzero
    case load m =>
      obtain ⟨x, hx, e⟩ := hsets
      exact absurd e (h x hx)
  · rwa [(Prim.reg_of_not_sets hsets hs).1]

/-- A tree whose primitives set a register to 0 alone keeps what 0 and its value meet, where 0 is its default. -/
theorem Act.All.reg_down {a : Act} {q : Nat} (h : a.All (Prim.Downs q)) {R : Nat → Prop} (hzero : R 0) {s : State}
    (hd : defaultOf s.part q = 0) (hs : SMap.wf s.dict = true) (hq : R (s.reg q)) : R ((a.run s).reg q) := by
  induction a generalizing s with
  | skip => exact hq
  | prim p => exact Prim.Downs.reg h hzero hd hs hq
  | seq a b iha ihb => exact ihb h.2 (by rw [part_run]; exact hd) (wf_run a s hs) (iha h.1 hd hs hq)
  | read f ih => exact ih s (h s) hd hs hq

/-- What one change of a sequence makes of such a register, the sequence leaves. -/
theorem reg_seqs_down {q : Nat} {R : Nat → Prop} (hzero : R 0) {l : List Act} {a : Act} (ha : a ∈ l)
    (hl : (seqs l).All (Prim.Downs q)) (hm : ∀ s : State, SMap.wf s.dict = true → R ((a.run s).reg q)) {s : State} (hd : defaultOf s.part q = 0)
    (hs : SMap.wf s.dict = true) : R (((seqs l).run s).reg q) := by
  induction l generalizing s with
  | nil => cases ha
  | cons b l ih =>
    have hd' : defaultOf (b.run s).part q = 0 := by rwa [part_run]
    rcases List.mem_cons.mp ha with rfl | ha
    · exact Act.All.reg_down hl.2 hzero hd' (wf_run _ s hs) (hm s hs)
    · exact ih ha hl.2 hd' (wf_run _ s hs)

theorem admits_downs {q : Nat} (h : ¬OffAon q ∨ q = K.ClaimActual) : Admits (Prim.Downs q) where
  plain p hp := by
    have hq : ¬Plain q := fun hk => h.elim (fun h => h hk.1) fun h => hk.2 h
    cases p
    case set k v => exact fun e => absurd (e ▸ hp) hq
    case load m => exact fun x hx e => hq (e ▸ hp x hx)
    all_goals trivial
  unset _ _ := trivial
  claim _ := rfl

theorem admits_spares {q : Nat} (h : ¬OffAon q) : Admits fun p => ¬p.sets q where
  plain _ hp := hp.not_sets fun hk => h hk.1
  unset keep hk e := h (hk q e)
  claim e := h (e ▸ (by decide : OffAon K.ClaimActual))

theorem admits_inner : Admits Prim.Inner where
  plain _ hp := hp.inner
  unset _ _ := trivial
  claim := trivial

end Sys2Proof.Machine
end

section
/-! # Power-on, warm resets, Deep and the resets of one island (R37, R91–R97, R431, R475, R476) -/

namespace Sys2Proof.Machine

/-! ### A warm reset -/

theorem islandFlag_default (p : Part) : ∀ i < 12, defaultOf p (K.IslandReady + i) = 0 := by cases p <;> decide +kernel

theorem claim_default (p : Part) : defaultOf p K.ClaimActual = 0 := by cases p <;> decide +kernel

theorem run_now {a : Act} (h : a.All Prim.Inner) (s : State) : (a.run s).now = s.now := by
  refine Act.All.keeps (P := Prim.Inner) (fun s => s.now) (fun p s hp => ?_) h s
  cases p
  case begin t => exact hp.elim
  all_goals simp [Prim.apply]

theorem flag_false_iff (s : State) (q : Nat) : s.flag q = false ↔ s.reg q ≠ 1 := by
  rw [State.flag, beq_eq_false_iff_ne]

theorem calm_syncFunctions {P : Nat → Prop} (h : ∀ k < 0x220000, P k) (i : Nat) : (syncFunctions i).All (Prim.Calm P) :=
  fun s => all_each fun f hf u => all_when fun _ => by
    have hlt : f ≤ 11 := by
      have hf' := (List.mem_filter.mp hf).1
      simp only [functions, List.mem_map, List.mem_range] at hf'
      omega
    exact ⟨h _ (by simp only [K.FunctionStatus]; omega), trivial⟩

theorem setReady_falls {i : Nat} (s : State) : ((setReady i false).run s).islandReady i = false := by
  rw [setReady, Act.run_read]
  cases hready : s.islandReady i with
  | false => exact hready
  | true =>
    rw [run_ite_of_not (by decide)]
    have hrest : (seqs [when s.sys.dictReady (raise 8), syncFunctions i]).All (Prim.Calm (· ≠ K.IslandReady + (i - 1))) :=
      ⟨all_when fun _ => trivial, calm_syncFunctions (fun k hk => by simp only [K.IslandReady]; omega) i, trivial⟩
    rw [State.islandReady, State.flag, run_seqs_cons, hrest.reg_other]
    simp

/-- A reset of one island leaves its flag low, whatever its loss sets. -/
theorem resetIsland_falls {i : Nat} (h : 1 ≤ i) (h' : i ≤ 12) {s : State} (hs : SMap.wf s.dict = true) :
    ((resetIsland i).run s).islandReady i = false := by
  have hoff : ¬OffAon (K.IslandReady + (i - 1)) := by
    simp only [OffAon, K.IslandReady]
    omega
  have hdown := (admits_downs (.inl hoff)).all (within_islandLoss i)
  rw [resetIsland_eq, Act.run_seq]
  refine (flag_false_iff _ _).mpr (hdown.reg_down (R := (· ≠ 1)) (by decide) (islandFlag_default _ _ (by omega)) (wf_run _ s hs) ?_)
  exact (flag_false_iff _ _).mp (setReady_falls s)

theorem offAon_not_flag {i : Nat} (h : 1 ≤ i) (h' : i ≤ 12) : ¬OffAon (K.IslandReady + (i - 1)) := by
  simp only [OffAon, K.IslandReady]
  omega

/-- The flag that one change of a sequence lowers stays low. -/
theorem falls_seqs {i : Nat} (h : 1 ≤ i) (h' : i ≤ 12) {l : List Act} {a : Act} (ha : a ∈ l)
    (hl : (seqs l).All (Prim.Downs (K.IslandReady + (i - 1))))
    (hm : ∀ s : State, SMap.wf s.dict = true → (a.run s).islandReady i = false) {s : State} (hs : SMap.wf s.dict = true) :
    ((seqs l).run s).islandReady i = false :=
  (flag_false_iff _ _).mpr (reg_seqs_down (R := (· ≠ 1)) (by decide) ha hl (fun s hs => (flag_false_iff _ _).mp (hm s hs))
    (islandFlag_default _ _ (by omega)) hs)

theorem warmTone_falls {s : State} (hs : SMap.wf s.dict = true) : (warmTone.run s).islandReady islTONE = false := by
  have hall := all_warmTone (admits_downs (.inl (offAon_not_flag (i := islTONE) (by decide) (by decide)))) fun _ => rfl
  rw [warmTone, Act.run_read]
  exact falls_seqs (by decide) (by decide) (List.mem_of_getElem? (i := 0) rfl) (hall s) (fun s _ => setReady_falls s) hs

theorem warmComp_falls {s : State} (hs : SMap.wf s.dict = true) : (warmComp.run s).islandReady islCOMP = false := by
  have hall := all_warmComp (admits_downs (.inl (offAon_not_flag (i := islCOMP) (by decide) (by decide)))) fun _ => rfl
  rw [warmComp, Act.run_read]
  exact falls_seqs (by decide) (by decide) (List.mem_of_getElem? (i := 0) rfl) (hall s) (fun s _ => setReady_falls s) hs

theorem resetCtl_falls {s : State} (hs : SMap.wf s.dict = true) : (resetCtl.run s).islandReady islCTL = false := by
  have hall := all_resetCtl (admits_downs (.inl (offAon_not_flag (i := islCTL) (by decide) (by decide)))) fun _ => rfl
  rw [resetCtl, Act.run_read]
  exact falls_seqs (by decide) (by decide) (List.mem_of_getElem? (i := 11) rfl) (hall s) (fun s _ => setReady_falls s) hs

/-- Every island but AON and TIME is held in reset with CTL. -/
theorem resetWarmIslands_falls {i : Nat} (h : 2 ≤ i) (h' : i ≤ 11) {s : State} (hs : SMap.wf s.dict = true) :
    (resetWarmIslands.run s).islandReady i = false := by
  have hall := all_resetWarmIslands (admits_downs (.inl (offAon_not_flag (i := i) (by omega) (by omega)))) fun _ _ _ _ => rfl
  have hpick : ∀ {a : Act} {l : List Act} (n : Nat), l[n]? = some a → (seqs l).All (Prim.Downs (K.IslandReady + (i - 1))) →
      (∀ s : State, SMap.wf s.dict = true → (a.run s).islandReady i = false) → ((seqs l).run s).islandReady i = false :=
    fun n hn hl hm => falls_seqs (by omega) (by omega) (List.mem_of_getElem? (i := n) hn) hl hm hs
  have hisland : ∀ s : State, SMap.wf s.dict = true → ((resetIsland i).run s).islandReady i = false :=
    fun s hs => resetIsland_falls (by omega) (by omega) hs
  rw [resetWarmIslands, Act.run_read]
  interval_cases i
  · exact hpick 18 rfl (hall s) fun _ => resetCtl_falls
  · exact hpick 3 rfl (hall s) hisland
  · exact hpick 4 rfl (hall s) hisland
  · exact hpick 6 rfl (hall s) hisland
  · exact hpick 9 rfl (hall s) fun _ => warmComp_falls
  · exact hpick 10 rfl (hall s) fun _ => warmTone_falls
  · exact hpick 11 rfl (hall s) hisland
  · exact hpick 13 rfl (hall s) hisland
  · exact hpick 14 rfl (hall s) hisland
  · exact hpick 15 rfl (hall s) hisland

theorem resetCtl_closes (s : State) : (resetCtl.run s).sys.dictReady = false := by
  rw [resetCtl, Act.run_read]
  rw [run_seqs_cons, run_seqs_cons, run_seqs_cons, run_seqs_cons,
    sys_kept (by simp +contextual [CanSt.Sized, Pos.Sized, Health.Sized])]
  simp

theorem resetWarmIslands_closes (s : State) : (resetWarmIslands.run s).sys.dictReady = false := by
  rw [resetWarmIslands, Act.run_read]
  iterate 19 rw [run_seqs_cons]
  rw [sys_kept (by simp)]
  exact resetCtl_closes _

/-- A warm reset is counted (R93, R94). -/
theorem warmRelease_shows (cause delay : Nat) (s : State) :
    ((warmRelease cause delay).run s).reg K.ResetCause = cause
      ∧ ((warmRelease cause delay).run s).reg K.WarmResetCount = (s.reg K.WarmResetCount + 1) % 2 ^ 32
      ∧ ((warmRelease cause delay).run s).sys = { s.sys with warming := true, releaseAt := s.now + delay } := by
  simp (decide := true) [warmRelease]

theorem calm_warmRelease {P : Nat → Prop} (h : P K.ResetCause) (h' : P K.WarmResetCount) (cause delay : Nat) :
    (warmRelease cause delay).All (Prim.Calm P) := by
  simp [warmRelease, h, h']

theorem warmRelease_holds {cause delay : Nat} {s : State} (h : s.islandReady islCTL = false) :
    1 ∈ ((warmRelease cause delay).run s).ev.held := by
  have hctl : ∀ u : State, u.reg ctlKey = s.reg ctlKey → u.islandReady islCTL = false := fun u hu => by
    rwa [State.islandReady, State.flag, show K.IslandReady + (islCTL - 1) = ctlKey from rfl, hu]
  simp only [warmRelease, Act.run_read, run_seqs_cons, run_seqs_nil, run_raise]
  rw [State.occur, if_neg (by decide), if_pos, if_pos (by decide)]
  · simp
  · rw [hctl]
    · rfl
    · simp (decide := true)

theorem resetWarmIslands_spares {q : Nat} (h : ¬OffAon q) (hq : q < K.IslandReady + 1 ∨ K.IslandReady + 11 ≤ q) {s : State}
    (hs : SMap.wf s.dict = true) : (resetWarmIslands.run s).reg q = s.reg q := by
  refine Act.All.reg (all_resetWarmIslands (admits_spares h) fun i hi hi' e => ?_) s hs
  have e' : K.IslandReady + (i - 1) = q := e
  omega

theorem resetWarmIslands_claim {s : State} (hs : SMap.wf s.dict = true) :
    (resetWarmIslands.run s).reg K.ClaimActual = 0 := by
  have hall := all_resetWarmIslands (admits_downs (.inr rfl)) fun i hi hi' _ => rfl
  rw [resetWarmIslands, Act.run_read]
  exact reg_seqs_down (R := (· = 0)) rfl (List.mem_of_getElem? (i := 1) rfl) (hall s) (fun s _ => by simp)
    (claim_default _) hs

theorem resetWarmIslands_claimOut (s : State) : .ball .claimOut 0 ∈ (resetWarmIslands.run s).out := by
  have hall := all_resetWarmIslands admits_inner fun _ _ _ => trivial
  rw [resetWarmIslands, Act.run_read]
  rw [run_seqs_cons, run_seqs_cons]
  obtain ⟨-, -, hsend, hrest⟩ := hall s
  exact mem_out_seqs (by simp) hrest

/-- The warm reset that a warm trigger makes (R93, R94). -/
theorem warmReset_shows (cause : Nat) {b : State} (hs : SMap.wf b.dict = true) :
    b.warmlyReset cause ((warmReset cause).run b) := by
  have hall := all_resetWarmIslands admits_inner fun _ _ _ => trivial
  have hcalm : ∀ {q : Nat}, q ≠ K.ResetCause → q ≠ K.WarmResetCount → ∀ u : State,
      ((warmRelease cause 40000).run u).reg q = u.reg q := fun h h' u =>
    Act.All.reg_other (calm_warmRelease h.symm h'.symm cause 40000) u
  rw [warmReset, Act.run_seq]
  obtain ⟨hcause, hcount, hsys⟩ := warmRelease_shows cause 40000 (resetWarmIslands.run b)
  refine ⟨hcause, ?_, by rw [hsys], by rw [hsys]; exact resetWarmIslands_closes b, ?_,
    warmRelease_holds (resetWarmIslands_falls (by decide) (by decide) hs), fun i hi hi' => ?_, ?_, ?_, ?_⟩
  · rw [hcount, resetWarmIslands_spares (by decide) (by decide) hs]
  · rw [hsys]
    dsimp only
    rw [run_now hall]
  · rw [State.islandReady, State.flag, hcalm (by simp only [K.IslandReady, K.ResetCause]; omega)
      (by simp only [K.IslandReady, K.WarmResetCount]; omega)]
    exact resetWarmIslands_falls hi hi' hs
  · rw [State.islandReady, State.flag, hcalm (by decide) (by decide), resetWarmIslands_spares (by decide) (by decide) hs]
    rfl
  · rw [hcalm (by decide) (by decide), resetWarmIslands_claim hs]
  · exact mem_out_inner (by simp [warmRelease]) (resetWarmIslands_claimOut b)

theorem State.warmlyReset.sent {b u : State} {cause : Nat} (h : b.warmlyReset cause u) : b.warmlyReset cause u.notifySend := by
  obtain ⟨hcause, hcount, hwarm, hready, hat, hheld, hdown, htime, hclaim, hout⟩ := h
  exact ⟨by simpa using hcause, by simpa using hcount, by simpa using hwarm, by simpa using hready, by simpa using hat,
    by simpa using hheld, fun i hi hi' => by simpa [State.islandReady, State.flag] using hdown i hi hi',
    by simpa [State.islandReady, State.flag] using htime, by simpa using hclaim, mem_out_notifySend hout⟩

theorem State.warmlyReset.answered {b u : State} {cause : Nat} (h : b.warmlyReset cause u) (p : WPath) (code : Nat) :
    b.warmlyReset cause ((answer p code).run u) := by
  obtain ⟨hcause, hcount, hwarm, hready, hat, hheld, hdown, htime, hclaim, hout⟩ := h
  exact ⟨by simpa using hcause, by simpa using hcount, by simpa using hwarm, by simpa using hready, by simpa using hat,
    by simpa using hheld, fun i hi hi' => by simpa [State.islandReady, State.flag] using hdown i hi hi',
    by simpa [State.islandReady, State.flag] using htime, by simpa using hclaim, mem_out_answer p code u hout⟩

/-- A warm trigger that finds neither Deep, nor a latch, nor a hold, nor a warm reset under way. -/
theorem run_warmTrigger {cause : Nat} {b : State} (hdeep : b.sys.deep = false) (hlatch : b.health.latchH = false)
    (hhold : b.sys.hold = false) (hwarm : b.sys.warming = false) (haon : b.islandReady islAON = true) :
    (warmTrigger cause).run b = (warmReset cause).run b := by
  rw [warmTrigger, Act.run_read, run_ite_of_not (by simp [hdeep, hlatch]), run_ite_of_not (by simp [hhold]),
    run_ite_of_not (by simp [hwarm, haon])]

theorem awake_of_takes {b : State} {idx sub v : Nat} {w : Wr} (h : b.takes idx sub w v) : b.sys.deep = false := by
  obtain ⟨e, -, hcheck, -⟩ := h
  cases hdeep : b.sys.deep with
  | false => rfl
  | true => simp (decide := true) [checkWrite, State.reachable, hdeep] at hcheck

theorem warmReset_of_request (t : Nat) (w : Wr) :
    w.val = 1 →
    Completes (.warmResetRequest t w) t
      (fun b => b.inv = true ∧ b.takes 0x2203 1 w 1 ∧ b.health.latchH = false ∧ b.sys.hold = false
        ∧ b.sys.warming = false ∧ b.islandReady islAON = true)
      fun b u => b.warmlyReset 3 u :=
  fun hval => completes_write (fun _ => rfl) fun b ⟨hinv, htake, hlatch, hhold, hwarm, haon⟩ => by
    have hrun := run_warmTrigger (cause := 3) (awake_of_takes htake) hlatch hhold hwarm haon
    refine ⟨1, _, htake, rfl, ?_⟩
    simp only [beq_self_eq_true, run_when_true, hrun]
    exact ((warmReset_shows 3 (inv_wf hinv)).answered _ _).sent

theorem warmReset_of_ball (t width : Nat) :
    1000 ≤ width →
    Completes (.warmrstNLow t width) t
      (fun b => b.inv = true ∧ b.sys.deep = false ∧ b.health.latchH = false ∧ b.sys.hold = false
        ∧ b.sys.warming = false ∧ b.islandReady islAON = true)
      fun b u => b.warmlyReset 2 u :=
  fun hwidth => completes_of (fun _ => rfl) fun b _ ⟨hinv, hdeep, hlatch, hhold, hwarm, haon⟩ => by
    rw [decide_eq_true hwidth, run_when_true, run_warmTrigger hdeep hlatch hhold hwarm haon]
    exact (warmReset_shows 2 (inv_wf hinv)).sent

theorem warmReset_of_watchdog (t : Nat) :
    Completes (.watchdogExpired t true) t
      (fun b => b.inv = true ∧ b.sys.deep = false ∧ b.health.latchH = false ∧ b.sys.hold = false
        ∧ b.sys.warming = false ∧ b.islandReady islAON = true)
      fun b u => b.warmlyReset 4 u :=
  completes_of (fun _ => rfl) fun b _ ⟨hinv, hdeep, hlatch, hhold, hwarm, haon⟩ => by
    have hshows := warmReset_shows 4 (b := b.occur 13) (by simpa using inv_wf hinv)
    rw [Act.run_seq, run_raise, run_when_true, run_warmTrigger (by simpa using hdeep) (by simpa using hlatch)
      (by simpa using hhold) (by simpa using hwarm) (by simpa [State.islandReady, State.flag] using haon)]
    simpa [State.warmlyReset, State.islandReady, State.flag] using hshows.sent

theorem watchdog_reports (t : Nat) :
    Completes (.watchdogExpired t false) t (fun _ => True) fun b u => b.raised [13] u ∧ b.only [.ev] u :=
  completes_of (fun _ => rfl) fun b _ _ => by
    refine ⟨raised_notifySend.mpr ?_, only_sent_of_fits (by simp) b⟩
    rw [Act.run_seq, run_when_false]
    exact raised_raise rfl b

/-- The reset of one island: its functions are disabled, it is reset, and the event says so (R95). -/
def islandResetWork (b : State) (i : Nat) : Act :=
  seqs [
    each (functions.filter fun f => functionIsland f == i) (fun f => .seq (setStatus f 2) (stopEffects f)),
    .prim (.sys fun x => { x with releaseAt := b.now }),
    resetIsland i,
    raise 2 ]

theorem fits_islandResetWork (b : State) (i : Nat) :
    (islandResetWork b i).All (Prim.Fits [.mem, .dict, .ev, .sys, .pos, .codec, .comp, .tone, .fire, .link, .cam, .ill,
      .loop, .dram, .dma, .net, .time, .health, .sec]) := by
  simp [islandResetWork]

theorem spares_functionsStopped {i j : Nat} (hj : 1 ≤ j) (hj' : j ≤ 12) :
    (each (functions.filter fun f => functionIsland f == i) fun f => .seq (setStatus f 2) (stopEffects f)).All
      (Prim.Calm (· ≠ K.IslandReady + (j - 1))) := by
  refine all_each fun f hf => ⟨calm_setStatus ?_ 2, (calm_stopEffects f).mono fun p => Prim.Calm.mono fun k hk => ?_⟩
  · have hf' := (List.mem_filter.mp hf).1
    simp only [functions, List.mem_map, List.mem_range] at hf'
    simp only [K.FunctionStatus, K.IslandReady]
    omega
  · simp only [K.IslandReady]
    omega

theorem islandResetWork_shows {b : State} {i : Nat} (hs : SMap.wf b.dict = true) (h : 3 ≤ i) (h' : i ≤ 12) :
    ((islandResetWork b i).run b).islandReady i = false ∧ ((islandResetWork b i).run b).sys.releaseAt = b.now
      ∧ b.raised [2] ((islandResetWork b i).run b)
      ∧ ∀ j, 1 ≤ j → j ≤ 12 → j ≠ i → ((islandResetWork b i).run b).islandReady j = b.islandReady j := by
  have hspare : ∀ {j : Nat}, 1 ≤ j → j ≤ 12 → j ≠ i → (resetIsland i).All fun p => ¬p.sets (K.IslandReady + (j - 1)) :=
    fun {j} hj hj' hne => all_resetIsland (admits_spares (offAon_not_flag hj hj')) fun e => by
      have e' : K.IslandReady + (i - 1) = K.IslandReady + (j - 1) := e
      omega
  rw [islandResetWork]
  set stop := each (functions.filter fun f => functionIsland f == i) fun f => Act.seq (setStatus f 2) (stopEffects f)
  have hwf : SMap.wf (stop.run b).dict = true := wf_run _ _ hs
  simp only [run_seqs_cons, run_seqs_nil, Act.run_prim, Prim.apply_sys, run_raise]
  set u : State := { stop.run b with sys := { (stop.run b).sys with releaseAt := b.now } } with hu
  have hflag : ∀ j, 1 ≤ j → j ≤ 12 → j ≠ i → ((resetIsland i).run u).islandReady j = b.islandReady j := fun j hj hj' hne => by
    rw [State.islandReady, State.flag, (hspare hj hj' hne).reg u hwf, hu]
    simp [State.islandReady, State.flag, stop, (spares_functionsStopped hj hj').reg_other]
  refine ⟨?_, ?_, raised_after ?_ (raised_occur rfl _), fun j hj hj' hne => ?_⟩
  · simpa [State.islandReady, State.flag] using resetIsland_falls (s := u) (by omega) h' hwf
  · rw [State.occur_sys, sys_kept (by simp)]
  · rw [show ctlKey = K.IslandReady + (2 - 1) from rfl, (hspare (by decide) (by decide) (by omega)).reg u hwf, hu]
    simp [stop, (spares_functionsStopped (j := 2) (by decide) (by decide)).reg_other]
  · simpa [State.islandReady, State.flag] using hflag j hj hj' hne

theorem island_resets_alone (t : Nat) (w : Wr) :
    3 ≤ w.val → w.val ≤ 12 →
    Completes (.islandResetRequest t w) t
      (fun b => b.inv = true ∧ b.takes 0x2203 2 w w.val ∧ isPrint b.mode = false)
      fun b u => u.islandReady w.val = false ∧ u.sys.releaseAt = b.now ∧ b.raised [2] u
        ∧ (∀ j, 1 ≤ j → j ≤ 12 → j ≠ w.val → u.islandReady j = b.islandReady j)
        ∧ b.only [.mem, .dict, .ev, .sys, .pos, .codec, .comp, .tone, .fire, .link, .cam, .ill, .loop, .dram, .dma, .net,
          .time, .health, .sec] u :=
  fun hlow hhigh => completes_write (fun _ => rfl) fun b ⟨hinv, htake, hprint⟩ => by
    refine ⟨w.val, islandResetWork b w.val, htake, ?_, ?_⟩
    · rw [effIslandReset, if_neg (by simp; omega), if_neg (by simpa using hprint)]
      rfl
    · obtain ⟨hdown, hat, hraised, hothers⟩ := islandResetWork_shows (inv_wf hinv) hlow hhigh
      exact ⟨by simpa [State.islandReady, State.flag] using hdown, by simpa using hat, raised_write hraised _,
        fun j hj hj' hne => by simpa [State.islandReady, State.flag] using hothers j hj hj' hne,
        only_write (fits_islandResetWork b w.val) _ b⟩

/-- Settles O3: the islands' resets lower their flags and spare the rest of AON's record. -/
theorem warmResetsComplete : Obligations.WarmResetsComplete :=
  ⟨warmReset_of_request, warmReset_of_ball, warmReset_of_watchdog, watchdog_reports, island_resets_alone⟩

end Sys2Proof.Machine
end

section
/-! # Power-on resets and Deep (R37, R91, R93, R96, R431, R475) -/

namespace Sys2Proof.Machine

/-! ### Power-on -/

@[simp] theorem releaseHeld_held (s : State) : s.releaseHeld.ev.held = [] := rfl

theorem byte_erased {m : Memory} {a n x : Nat} (h : a ≤ x) (h' : x < a + n) :
    Memory.byte (Memory.erase m a n) x = Memory.unlisted x := by
  refine Memory.byte_unlisted fun c hc e => ?_
  simp only [Memory.erase, List.mem_filter, Bool.not_eq_true', Bool.and_eq_false_iff, decide_eq_false_iff_not] at hc
  omega

theorem powerOnReset_ev (cause : Nat) (cold : Bool) (s : State) :
    ((powerOnReset cause cold).run s).ev.pending = 0#256 ∧ ((powerOnReset cause cold).run s).ev.held = [0] := by
  simp (decide := true) [powerOnReset, Act.run_prim, Prim.apply, State.holdEvent, Ev.afterReset, loadCounts]

theorem powerOnReset_sys (cause : Nat) (cold : Bool) (s : State) :
    ((powerOnReset cause cold).run s).sys.dictReady = false ∧ ((powerOnReset cause cold).run s).sys.deep = false := by
  simp [powerOnReset, Act.run_prim, Prim.apply, loadCounts]

theorem powerOnReset_mem (cause : Nat) (cold : Bool) (s : State) :
    ((powerOnReset cause cold).run s).mem = Memory.erase s.mem 0 (2 ^ 40) := by
  simp [powerOnReset, Act.run_prim, Prim.apply, loadCounts]

theorem powerOnReset_sec (cause : Nat) (cold : Bool) (s : State) :
    ((powerOnReset cause cold).run s).sec.keys = s.sec.keys
      ∧ ((powerOnReset cause cold).run s).sec.vendorFloor = s.sec.vendorFloor := by
  simp [powerOnReset, Act.run_prim, Prim.apply, loadCounts]

theorem powerOnReset_out (cause : Nat) (cold : Bool) (s : State) :
    .ball .claimOut 0 ∈ ((powerOnReset cause cold).run s).out := by
  simp (decide := true) [powerOnReset, Act.run_prim, Prim.apply, loadCounts, State.holdEvent]

theorem powerOnReset_dict (cause : Nat) (cold : Bool) (s : State) :
    ((powerOnReset cause cold).run s).dict = SMap.put (SMap.over (SMap.over
      (SMap.keep s.dict fun k => fuseKey k || (!cold && k / 256 == 0x2F02)) (SMap.keep s.health.savedCounts countKey))
      (s.savedOf savedElsewhere)) K.ResetCause cause := by
  simp [powerOnReset, Act.run_prim, Prim.apply, loadCounts]

theorem powerOnReset_cause (cause : Nat) (cold : Bool) (s : State) :
    ((powerOnReset cause cold).run s).reg K.ResetCause = cause := by
  rw [State.reg, powerOnReset_dict, SMap.find_put_same]

/-- A register that no fuse, no store of the boot flash and no shutdown record keeps takes its default (R96). -/
theorem powerOnReset_reg {k : Nat} (hfuse : fuseKey k = false) (hrecord : k / 256 ≠ 0x2F02) (hcount : countKey k = false)
    (hsaved : savedElsewhere k = false) (hcause : k ≠ K.ResetCause) (cause : Nat) (cold : Bool) (s : State) :
    ((powerOnReset cause cold).run s).reg k = defaultOf s.part k := by
  have hcounts : ∀ x ∈ SMap.keep s.health.savedCounts countKey, x.1 ≠ k := fun x hx e => by
    have := SMap.mem_keep hx
    rw [e, hcount] at this
    cases this
  have hboot : ∀ x ∈ s.savedOf savedElsewhere, x.1 ≠ k := fun x hx e => by
    have := (Bool.and_eq_true_iff.mp (SMap.mem_keep hx)).2
    rw [e, hsaved] at this
    cases this
  rw [State.reg, powerOnReset_dict, SMap.find_put_ne _ _ hcause, SMap.find_over_out _ _ hboot,
    SMap.find_over_out _ _ hcounts, SMap.find_keep_out _ (by simp [hfuse, hrecord]), part_run]

theorem powerOnReset_flag {i : Nat} (h : 1 ≤ i) (h' : i ≤ 12) (cause : Nat) (cold : Bool) (s : State) :
    ((powerOnReset cause cold).run s).islandReady i = false := by
  refine (flag_false_iff _ _).mpr ?_
  have hkey : ∀ j < 12, fuseKey (K.IslandReady + j) = false ∧ (K.IslandReady + j) / 256 ≠ 0x2F02
      ∧ countKey (K.IslandReady + j) = false ∧ savedElsewhere (K.IslandReady + j) = false
      ∧ K.IslandReady + j ≠ K.ResetCause := by decide +kernel
  obtain ⟨hfuse, hrecord, hcount, hsaved, hcause⟩ := hkey (i - 1) (by omega)
  rw [powerOnReset_reg hfuse hrecord hcount hsaved hcause, islandFlag_default _ _ (by omega)]
  decide

theorem mode_default (p : Part) : defaultOf p K.ModeActual = mReady := by cases p <;> decide +kernel

/-- What a power-on reset leaves. -/
theorem powerOnReset_shows (cause : Nat) (cold : Bool) (s : State) :
    ((powerOnReset cause cold).run s).poweredOn cause [0] := by
  obtain ⟨hready, hdeep⟩ := powerOnReset_sys cause cold s
  obtain ⟨hpending, hheld⟩ := powerOnReset_ev cause cold s
  refine ⟨powerOnReset_cause cause cold s, ?_, hready, hdeep, fun i h h' => powerOnReset_flag h h' cause cold s, hpending,
    hheld, powerOnReset_out cause cold s, fun a ha => ?_⟩
  · rw [State.mode, powerOnReset_reg (by decide) (by decide) (by decide) (by decide) (by decide), mode_default]
  · rw [powerOnReset_mem, byte_erased (Nat.zero_le a) (by omega)]

/-- What such a reset leaves stays where only frames are sent and events held. -/
theorem State.poweredOn.after {u v : State} {cause : Nat} {held held' : List Nat} (h : u.poweredOn cause held)
    (hreg : ∀ q, v.reg q = u.reg q) (hsys : v.sys = u.sys) (hpending : v.ev.pending = u.ev.pending) (hheld : v.ev.held = held')
    (hmem : v.mem = u.mem) (hout : ∀ o ∈ u.out, o ∈ v.out) : v.poweredOn cause held' := by
  obtain ⟨hcause, hmode, hready, hdeep, hdown, hnone, -, hclaim, hbytes⟩ := h
  exact ⟨by rw [hreg, hcause], by rw [State.mode, hreg]; exact hmode, by rw [hsys, hready], by rw [hsys, hdeep],
    fun i hi hi' => by rw [State.islandReady, State.flag, hreg]; exact hdown i hi hi', by rw [hpending, hnone], hheld,
    hout _ hclaim, by rwa [hmem]⟩

theorem holdEvent_supplyTrip (s : State) : s.holdEvent 14 = { s with ev := { s.ev with held := s.ev.held ++ [14] } } := by
  rw [State.holdEvent, if_pos (by decide)]

theorem powerOn_of_reset (t : Nat) (cold : Bool) :
    Completes (.powerOnReset t cold) t (fun b => b.health.hardLatch = false ∨ cold = true)
      fun b u => u.poweredOn 0 [0] ∧ .ball .pwrenMain 1 ∈ u.out ∧ u.sec.keys = b.sec.keys
        ∧ u.sec.vendorFloor = b.sec.vendorFloor := completes_of (fun _ => rfl) fun b _ hpre => by
    have htrip : (b.health.hardLatch && !cold) = false := by
      rcases hpre with h | h <;> simp [h]
    rw [Act.run_read]
    dsimp only
    rw [htrip]
    simp only [run_seqs_cons, run_seqs_nil, run_send, run_when_false]
    obtain ⟨hkeys, hfloor⟩ := powerOnReset_sec 0 cold b
    refine ⟨(powerOnReset_shows 0 cold b).after (fun q => by simp) (by simp) (by simp) (by simp [(powerOnReset_ev 0 cold b).2])
      (by simp) fun o ho => mem_out_notifySend (by simp [ho]), mem_out_notifySend (by simp), by simpa using hkeys, by simpa using hfloor⟩

theorem powerOn_of_trip (t group : Nat) :
    1 ≤ group → group ≤ 5 →
    Completes (.supplyMonitorTrip t group) t
      (fun b => b.islandReady islAON = true ∧ (b.sys.deep = true → group = 1))
      fun b u => u.poweredOn 1 [0, 14] ∧ u.sec.keys = b.sec.keys ∧ u.sec.vendorFloor = b.sec.vendorFloor :=
  fun hlow hhigh => completes_of (fun _ => rfl) fun b _ ⟨haon, hdeep⟩ => by
    have hgate : (b.islandReady islAON && 1 ≤ group && group ≤ 5 && (!b.sys.deep || group == 1)) = true := by
      cases hd : b.sys.deep <;> simp [haon, hlow, hhigh, hd, hdeep]
    rw [Act.run_read, hgate, run_when_true, Act.run_seq, Act.run_prim, Prim.apply, holdEvent_supplyTrip]
    obtain ⟨hkeys, hfloor⟩ := powerOnReset_sec 1 false b
    exact ⟨(powerOnReset_shows 1 false b).after (fun q => by simp) (by simp) (by simp)
      (by simp [(powerOnReset_ev 1 false b).2]) (by simp) fun o ho => mem_out_notifySend ho,
      by simpa using hkeys, by simpa using hfloor⟩

/-- Settles O1: a power-on reset drops all but fuses and stores, and no store holds the flags or the mode. -/
theorem powerOnResetsComplete : Obligations.PowerOnResetsComplete := ⟨powerOn_of_reset, powerOn_of_trip⟩

/-! ### Deep -/

/-- The memory of the map holds no byte but its power-on content, and no update of the loop waits to be undone. -/
def State.blank (s : State) : Prop := (∀ c ∈ s.mem, c.1 < dramStart → c.2 = Memory.unlisted c.1) ∧ s.loop.undo = none

theorem mem_store {m : Memory} {a : Nat} {b : Byte} {c : Nat × Byte} (h : c ∈ Memory.store m a b) : c ∈ m ∨ c = (a, b) := by
  induction m with
  | nil =>
    rw [Memory.store] at h
    split at h
    · cases h
    · exact .inr (List.mem_singleton.mp h)
  | cons x m ih =>
    obtain ⟨k, v⟩ := x
    rw [Memory.store] at h
    split at h
    · split at h
      · exact .inl h
      · exact (List.mem_cons.mp h).symm
    · split at h
      · next hak =>
        subst hak
        split at h
        · exact .inl (List.mem_cons_of_mem _ h)
        · exact (List.mem_cons.mp h).symm.imp_left (List.mem_cons_of_mem _)
      · rcases List.mem_cons.mp h with rfl | h
        · exact .inl List.mem_cons_self
        · exact (ih h).imp_left (List.mem_cons_of_mem _)

theorem byte_of_blank {m : Memory} {lim : Nat} (h : ∀ c ∈ m, c.1 < lim → c.2 = Memory.unlisted c.1) {a : Nat} (ha : a < lim) :
    Memory.byte m a = Memory.unlisted a := by
  induction m with
  | nil => rfl
  | cons x m ih =>
    obtain ⟨k, v⟩ := x
    rw [Memory.byte]
    split
    · next hk => exact hk ▸ h _ List.mem_cons_self (hk ▸ ha)
    · split
      · rfl
      · exact ih fun c hc => h c (List.mem_cons_of_mem _ hc)

theorem blank_fits {a : Act} {l : List Piece} (h : a.All (Prim.Fits l)) (hm : .mem ∉ l) (hl : .loop ∉ l) :
    a.Keeps State.blank := by
  intro s hs
  have hfits : ∀ p : Piece, p ∉ l → a.All (Prim.Fits p.but) := fun p hp =>
    h.mono fun x hx => ⟨fun q hq => Piece.mem_but.mpr fun e => hp (e ▸ hx.1 q hq), hx.2⟩
  rw [State.blank, mem_kept (hfits _ hm), loop_kept (hfits _ hl)]
  exact hs

theorem blank_erase (a n : Nat) : (Act.prim (.erase a n)).Keeps State.blank := fun s hs =>
  ⟨fun c hc => hs.1 c (List.mem_of_mem_filter hc), hs.2⟩

theorem blank_storeBytes {a : Nat} {l : List Nat} (h : ∀ i < l.length, BitVec.ofNat 8 (l.getD i 0) = Memory.unlisted (a + i)) :
    (Act.prim (.storeBytes a l)).Keeps State.blank := fun s hs => by
  refine ⟨?_, hs.2⟩
  have key : ∀ m : Memory, (∀ c ∈ m, c.1 < dramStart → c.2 = Memory.unlisted c.1) →
      ∀ c ∈ Memory.storeBytes m a l, c.1 < dramStart → c.2 = Memory.unlisted c.1 := by
    induction l generalizing a with
    | nil => exact fun m hm => hm
    | cons b l ih =>
      intro m hm
      refine ih (fun i hi => ?_) _ fun c hc hlt => ?_
      · simpa [Nat.add_assoc, Nat.add_comm 1] using h (i + 1) (by simpa using hi)
      · rcases mem_store hc with hc | rfl
        · exact hm c hc hlt
        · simpa using h 0 (by simp)
  exact key _ hs.1

theorem blank_faultTable {r : Nat} (h : r < 160) : (faultTable r 0 0).Keeps State.blank := by
  refine blank_storeBytes fun i hi => ?_
  have hi : i < 4 := hi
  have hzero : powerOnByte (faultTableBase + 4 * r + i) = 0 := by
    simp only [powerOnByte, faultTableBase, coefficientBase, nozzleTermAt, zoneStateAt, Bool.and_eq_true, decide_eq_true_eq]
    split_ifs <;> omega
  rw [Memory.unlisted, hzero]
  interval_cases i <;> rfl

theorem blank_clearClass {c : Nat} (h : c < 5) : (clearClass c).Keeps State.blank := by
  refine keeps_read fun s => keeps_seq (blank_fits (l := [.health]) (by simp [Health.Sized]) (by decide) (by decide))
    (keeps_each fun r hr => blank_faultTable ?_)
  have := (List.mem_filter.mp hr).2
  simp only [beq_iff_eq] at this
  omega

theorem blank_syncLoop : syncLoop.Keeps State.blank := by
  have hundo : undoUpdate.Keeps State.blank := fun s hs => by
    rw [undoUpdate, Act.run_read]
    simp only [hs.2, Act.run_skip]
    exact hs
  have hput : ∀ k v, (put k v).Keeps State.blank := fun k v => blank_fits (l := [.dict]) (by simp) (by decide) (by decide)
  have hraise : ∀ n, (raise n).Keeps State.blank := fun n => blank_fits (l := [.ev]) (by simp) (by decide) (by decide)
  have hbroken : ∀ f : Loop → Loop, (∀ x, (f x).undo = x.undo) → (setLoop f).Keeps State.blank := fun f hf s hs =>
    ⟨hs.1, (hf s.loop).trans hs.2⟩
  refine keeps_read fun s => keeps_seqs fun a ha => ?_
  simp only [List.mem_cons, List.not_mem_nil, or_false] at ha
  rcases ha with rfl | rfl | rfl | rfl | rfl | rfl | rfl
  · exact hput _ _
  · exact hbroken _ fun x => rfl
  · exact keeps_when fun _ => hundo
  · exact keeps_when fun _ => hraise _
  · exact keeps_when fun _ => hraise _
  · exact hput _ _
  · exact keeps_when fun _ => keeps_each fun k _ => hput _ _

theorem blank_setReady (i : Nat) (on : Bool) : (setReady i on).Keeps State.blank :=
  blank_fits (l := [.dict, .ev]) (by simp) (by decide) (by decide)

theorem blank_resetEntries (i : Nat) : (resetEntries i).Keeps State.blank :=
  blank_fits (l := [.dict]) (by simp) (by decide) (by decide)

theorem blank_resetTone : resetTone.Keeps State.blank :=
  keeps_seq (blank_erase _ _) (keeps_seq (blank_erase _ _) (blank_fits (l := [.tone, .dict])
    ⟨by simp, (by simp : (resetEntries islTONE).All _), trivial⟩ (by decide) (by decide)))

theorem blank_resetComp : resetComp.Keeps State.blank :=
  keeps_seq (blank_erase _ _) (blank_fits (l := [.comp, .dict])
    ⟨by simp [Comp.Sized], (by simp : (resetEntries islCOMP).All _), trivial⟩ (by decide) (by decide))

theorem blank_resetTime : resetTime.Keeps State.blank :=
  keeps_seq (blank_clearClass (by decide)) (keeps_seq (blank_clearClass (by decide)) (keeps_seq
    (blank_fits (l := [.ill]) (by simp [darken]) (by decide) (by decide))
    (keeps_seq (blank_fits (l := [.ill]) (by simp) (by decide) (by decide))
    (keeps_seq (blank_fits (l := [.pos]) (by simp [Pos.Sized]) (by decide) (by decide))
    (keeps_seq (blank_fits (l := [.time]) (by simp) (by decide) (by decide))
    (keeps_seq (blank_resetEntries _) (keeps_seq blank_syncLoop keeps_skip)))))))

/-- What Deep leaves unpowered is lost (R96). -/
theorem blank_loseUnpowered {s : State} (h : s.loop.undo = none) : (loseUnpowered.run s).blank := by
  have herased : ((Act.prim (.erase 0 dramStart)).run s).blank := by
    refine ⟨fun c hc hlt => ?_, h⟩
    have := (List.mem_filter.mp hc).2
    simp [Nat.not_le.mpr hlt] at this
  exact keeps_seq (keeps_seq (blank_setReady _ _) blank_resetTone) (keeps_seq (keeps_seq (blank_setReady _ _) blank_resetComp)
    (keeps_seq (keeps_seq (blank_setReady _ _) blank_resetTime)
    (blank_fits (l := [.dict]) (a := seqs [put K.ModeActual mStandby]) (by simp) (by decide) (by decide)))) _ herased

theorem resetCtl_undo (s : State) : (resetCtl.run s).loop.undo = none := by
  rw [resetCtl, Act.run_read]
  iterate 8 rw [run_seqs_cons]
  rw [loop_kept (by simp +contextual [Health.Sized])]
  rfl

theorem resetWarmIslands_undo (s : State) : (resetWarmIslands.run s).loop.undo = none := by
  rw [resetWarmIslands, Act.run_read]
  iterate 19 rw [run_seqs_cons]
  rw [loop_kept (by simp)]
  exact resetCtl_undo _

theorem all_loseUnpowered {T : Prim → Prop} (hT : Admits T) (hdown : ∀ i, 2 ≤ i → i ≤ 12 → T (.set (K.IslandReady + (i - 1)) 0)) :
    loseUnpowered.All T :=
  ⟨hT.plain _ trivial, all_resetIsland hT (hdown _ (by decide) (by decide)), all_resetIsland hT (hdown _ (by decide) (by decide)),
    all_resetIsland hT (hdown _ (by decide) (by decide)), hT.plain _ (by decide : Plain K.ModeActual), trivial⟩

theorem loseUnpowered_falls {i : Nat} (h : 2 ≤ i) (h' : i ≤ 12) {s : State} (hs : SMap.wf s.dict = true)
    (hi : i = 12 ∨ s.islandReady i = false) : (loseUnpowered.run s).islandReady i = false := by
  have hall := all_loseUnpowered (admits_downs (.inl (offAon_not_flag (i := i) (by omega) h'))) fun _ _ _ _ => rfl
  rcases hi with rfl | hi
  · exact falls_seqs (by decide) (by decide) (List.mem_of_getElem? (i := 3) rfl) hall
      (fun s hs => resetIsland_falls (by decide) (by decide) hs) hs
  · exact (flag_false_iff _ _).mpr (hall.reg_down (R := (· ≠ 1)) (by decide) (islandFlag_default _ _ (by omega)) hs
      ((flag_false_iff _ _).mp hi))

theorem loseUnpowered_mode (s : State) : (loseUnpowered.run s).mode = mStandby := by
  rw [loseUnpowered, State.mode]
  simp [-run_when]

/-- What entering Deep does. -/
def deepWork : Act :=
  seqs [resetWarmIslands, loseUnpowered, .prim (.sys fun x => { x with deep := true }), send (.ball .pwrenMain 0)]

theorem deepWork_shows {b : State} (hs : SMap.wf b.dict = true) :
    (deepWork.run b).sys.deep = true ∧ (deepWork.run b).sys.dictReady = false ∧ (deepWork.run b).mode = mStandby
      ∧ .ball .pwrenMain 0 ∈ (deepWork.run b).out ∧ (∀ i, 2 ≤ i → i ≤ 12 → (deepWork.run b).islandReady i = false)
      ∧ ∀ a, a < dramStart → Memory.byte (deepWork.run b).mem a = Memory.unlisted a := by
  have hwf := wf_run resetWarmIslands b hs
  have hblank := blank_loseUnpowered (resetWarmIslands_undo b)
  have hsys : (loseUnpowered.run (resetWarmIslands.run b)).sys.dictReady = false := by
    rw [sys_kept (by simp [loseUnpowered])]
    exact resetWarmIslands_closes b
  have hmode := loseUnpowered_mode (resetWarmIslands.run b)
  have hdown : ∀ i, 2 ≤ i → i ≤ 12 → (loseUnpowered.run (resetWarmIslands.run b)).islandReady i = false := fun i hi hi' =>
    loseUnpowered_falls hi hi' hwf (by
      by_cases h12 : i = 12
      · exact .inl h12
      · exact .inr (resetWarmIslands_falls hi (by omega) hs))
  rw [deepWork, run_seqs_cons, run_seqs_cons]
  generalize loseUnpowered.run (resetWarmIslands.run b) = u at *
  refine ⟨by simp, by simpa using hsys, by simpa [State.mode] using hmode, by simp,
    fun i hi hi' => by simpa [State.islandReady, State.flag] using hdown i hi hi', fun a ha => ?_⟩
  simpa using byte_of_blank hblank.1 ha

theorem deep_entered (t : Nat) (w : Wr) :
    w.val = 1 →
    Completes (.powerConditionRequest t w) t
      (fun b => b.inv = true ∧ b.takes 0x2010 8 w 1 ∧ b.mode = mStandby)
      fun b u => u.sys.deep = true ∧ u.sys.dictReady = false ∧ u.mode = mStandby ∧ .ball .pwrenMain 0 ∈ u.out
        ∧ (∀ i, 2 ≤ i → i ≤ 12 → u.islandReady i = false)
        ∧ ∀ a, a < dramStart → Memory.byte u.mem a = Memory.unlisted a :=
  fun hval => completes_write (fun _ => rfl) fun b ⟨hinv, htake, hmode⟩ => by
    obtain ⟨hdeep, hready, hstandby, hsent, hdown, hbytes⟩ := deepWork_shows (inv_wf hinv)
    refine ⟨1, deepWork, htake, ?_, by simpa using hdeep, by simpa using hready, by simpa [State.mode] using hstandby,
      mem_out_notifySend (mem_out_answer _ _ _ hsent), fun i hi hi' => by simpa [State.islandReady, State.flag] using hdown i hi hi',
      fun a ha => by simpa using hbytes a ha⟩
    rw [effPowerCondition, if_neg (by simp), if_neg (by simp [hmode])]
    rfl

theorem wake_shows {b : State} (hdeep : b.sys.deep = true) (hasleep : b.sys.wakeAt = none) :
    (wake.run b).notifySend.sys = { b.sys with wakeAt := some b.now } ∧ .ball .pwrenMain 1 ∈ (wake.run b).notifySend.out
      ∧ b.only [.sys] (wake.run b).notifySend := by
  refine ⟨?_, mem_out_notifySend ?_, only_sent_of_fits (by simp [wake]) b⟩
  · simp [wake, hdeep, hasleep]
  · simp [wake, hdeep, hasleep]

theorem wakeIn_wakes (t : Nat) :
    Completes (.wakeIn t) t
      (fun b => b.sys.deep = true ∧ b.sys.wakeAt = none ∧ (b.sys.hold = false ∨ b.health.latchH = true))
      fun b u => u.sys = { b.sys with wakeAt := some b.now } ∧ .ball .pwrenMain 1 ∈ u.out
        ∧ b.only [.dict, .ev, .sys, .health] u := completes_of (fun _ => rfl) fun b _ ⟨hdeep, hasleep, hfree⟩ => by
    obtain ⟨hsys, hsent, honly⟩ := wake_shows hdeep hasleep
    rw [Act.run_read, run_ite_of_not (by rcases hfree with h | h <;> simp [h])]
    exact ⟨hsys, hsent, fun p hp => honly p fun h => hp (by simp only [List.mem_singleton] at h; simp [h])⟩

/-- What ends the hold of an orderly shutdown, with its cause (R431). -/
def holdEnds (cause : Nat) : Act :=
  seqs [
    .prim (.sys fun x => { x with hold := false }),
    .prim (.health fun h => { h with shuttingDown := false, shutdown := false }),
    send (.ball .thermtripN 1), thermalState, warmRelease cause 0 ]

theorem run_endHold {cause : Nat} {b : State} (hhard : b.health.hardLatch = false) (hcool : b.cool = true) :
    (endHold cause).run b = (holdEnds cause).run b := by
  rw [endHold, Act.run_read, run_ite_of_not (by simp [hhard, hcool])]
  rfl

theorem holdEnds_shows (cause : Nat) (b : State) :
    ((holdEnds cause).run b).sys.hold = false ∧ ((holdEnds cause).run b).health.shuttingDown = false
      ∧ ((holdEnds cause).run b).reg K.ResetCause = cause ∧ ((holdEnds cause).run b).sys.warming = true
      ∧ .ball .thermtripN 1 ∈ ((holdEnds cause).run b).out := by
  simp only [holdEnds, run_seqs_cons, run_seqs_nil, Act.run_prim, Prim.apply_sys, Prim.apply_health]
  set u := thermalState.run _ with hu
  have hsys : u.sys.hold = false := by rw [hu, sys_kept (by simp [thermalState])]; simp
  have hhealth : u.health.shuttingDown = false := by rw [hu, health_kept (by simp [thermalState])]; simp
  have hout : .ball .thermtripN 1 ∈ u.out := by simp [hu, thermalState]
  obtain ⟨hcause, -, hwarm⟩ := warmRelease_shows cause 0 u
  exact ⟨by rw [hwarm]; exact hsys, by rw [health_kept (by simp [warmRelease])]; exact hhealth, hcause, by rw [hwarm],
    mem_out_inner (by simp [warmRelease]) hout⟩

theorem wakeIn_endsHold (t : Nat) :
    Completes (.wakeIn t) t
      (fun b => b.inv = true ∧ b.sys.hold = true ∧ b.health.latchH = false ∧ b.health.hardLatch = false ∧ b.cool = true)
      fun b u => u.sys.hold = false ∧ u.health.shuttingDown = false ∧ u.reg K.ResetCause = 5 ∧ u.sys.warming = true
        ∧ .ball .thermtripN 1 ∈ u.out ∧ b.only [.dict, .ev, .sys, .health] u :=
  completes_of (fun _ => rfl) fun b _ ⟨_, hhold, hlatch, hhard, hcool⟩ => by
    rw [Act.run_read, run_ite_of (by simp [hhold, hlatch]), run_endHold hhard hcool]
    obtain ⟨hends, hshut, hcause, hwarm, hsent⟩ := holdEnds_shows 5 b
    exact ⟨by simpa using hends, by simpa using hshut, by simpa using hcause, by simpa using hwarm, mem_out_notifySend hsent,
      only_sent_of_fits (by simp [holdEnds, thermalState, warmRelease, Health.Sized]) b⟩

theorem canActivity_wakes (t : Nat) :
    Completes (.cfWakeActivity t) t (fun b => b.sys.deep = true ∧ b.sys.wakeAt = none)
      fun b u => u.sys = { b.sys with wakeAt := some b.now } ∧ .ball .pwrenMain 1 ∈ u.out ∧ b.only [.sys] u :=
  completes_of (fun _ => rfl) fun b _ ⟨hdeep, hasleep⟩ => wake_shows hdeep hasleep

/-- What the return of the main supply does. -/
def supplyReturns : Act := seqs [.prim (.sys fun x => { x with deep := false, wakeAt := none }), warmRelease 5 1000000]

theorem calm_supplyReturns {P : Nat → Prop} (h : P K.ResetCause) (h' : P K.WarmResetCount) : supplyReturns.All (Prim.Calm P) :=
  ⟨trivial, calm_warmRelease h h' _ _, trivial⟩

theorem supply_returns (t : Nat) :
    Completes (.pgoodMainHigh t) t (fun b => b.sys.deep = true ∧ b.sys.wakeAt ≠ none)
      fun b u => u.sys.deep = false ∧ u.sys.wakeAt = none ∧ u.sys.releaseAt = b.now + 1000000 ∧ u.sys.warming = true
        ∧ u.reg K.ResetCause = 5 ∧ u.reg K.WarmResetCount = (b.reg K.WarmResetCount + 1) % 2 ^ 32
        ∧ b.regsBut [K.ResetCause, K.WarmResetCount] u ∧ b.only [.dict, .ev, .sys] u :=
  completes_of (fun _ => rfl) fun b _ ⟨hdeep, hwake⟩ => by
    have hsome : b.sys.wakeAt.isSome = true := Option.isSome_iff_ne_none.mpr hwake
    rw [Act.run_read, hdeep, hsome, Bool.and_self, run_when_true]
    have honly := only_sent_of_fits (l := [.dict, .ev, .sys]) (a := supplyReturns) (by simp [supplyReturns, warmRelease]) b
    have hregs := regsBut_sent (calm_supplyReturns (P := (· ∈ [K.ResetCause, K.WarmResetCount])) (by simp) (by simp)) b
    rw [show seqs _ = supplyReturns from rfl]
    refine ⟨?_, ?_, ?_, ?_, ?_, ?_, hregs, honly⟩
    all_goals
      rw [supplyReturns, run_seqs_cons, run_seqs_cons, run_seqs_nil]
      obtain ⟨hcause, hcount, hsys⟩ :=
        warmRelease_shows 5 1000000 ((Act.prim (.sys fun x => { x with deep := false, wakeAt := none })).run b)
    · rw [State.notifySend_sys, hsys]
      simp
    · rw [State.notifySend_sys, hsys]
      simp
    · rw [State.notifySend_sys, hsys]
      simp
    · rw [State.notifySend_sys, hsys]
    · rw [State.notifySend_reg, hcause]
    · rw [State.notifySend_reg, hcount]
      simp

theorem supply_missing (t t0 : Nat) :
    Completes (.pgoodMainTimeout t) t
      (fun b => b.sys.deep = true ∧ b.sys.wakeAt = some t0 ∧ t0 + 100000000 ≤ b.now)
      fun b u => u.sys = { b.sys with wakeAt := none } ∧ .ball .pwrenMain 0 ∈ u.out ∧ u.ev.held = b.ev.held ++ [14]
        ∧ b.only [.ev, .sys] u := completes_of (fun _ => rfl) fun b _ ⟨hdeep, hwake, hlate⟩ => by
    rw [Act.run_read, hwake, hdeep]
    dsimp only
    rw [decide_eq_true hlate, Bool.and_self, run_when_true]
    refine ⟨?_, ?_, ?_, only_sent_of_fits (by simp) b⟩
    · simp [Act.run_prim, Prim.apply]
    · exact mem_out_notifySend (by simp [Act.run_prim, Prim.apply, holdEvent_supplyTrip])
    · simp [Act.run_prim, Prim.apply, holdEvent_supplyTrip]

/-- Settles O4: Deep blanks what loses its power, and a wake releases the islands as a warm reset does. -/
theorem deepCompletes : Obligations.DeepCompletes :=
  ⟨deep_entered, wakeIn_wakes, wakeIn_endsHold, canActivity_wakes, supply_returns, supply_missing⟩

end Sys2Proof.Machine
end

section
/-! # NMT commands and the state of the CAN bus (R92, R96, R415–R417, R460) -/

namespace Sys2Proof.Machine

/-- An NMT command addressed to the node, or to all, runs its act. -/
theorem run_nmtCommand {b : State} {node : Nat} (hup : b.canUp = true) (hnode : node = 0 ∨ node = b.can.nodeId) (a : Act) :
    (Act.read fun s => when (s.canUp && (node == 0 || node == s.can.nodeId)) a).run b = a.run b := by
  rw [Act.run_read, run_when, if_pos]
  rcases hnode with rfl | rfl <;> simp [hup]

theorem setNmt_shows (n : Nmt) (b : State) :
    ((setNmt n).run b).notifySend.can = { b.can with nmt := n } ∧ b.only [.can] ((setNmt n).run b).notifySend :=
  ⟨by simp [setNmt], only_sent_of_fits (by simp +contextual [setNmt, CanSt.Sized]) b⟩

theorem nmtStart_operates (t node : Nat) :
    Completes (.nmtStart t node) t (fun b => b.canUp = true ∧ (node = 0 ∨ node = b.can.nodeId))
      fun b u => u.can = { b.can with nmt := .operational } ∧ b.only [.can] u :=
  completes_of (fun _ => rfl) fun b _ ⟨hup, hnode⟩ => by
    rw [run_nmtCommand hup hnode]
    exact setNmt_shows .operational b

theorem nmtStop_stops (t node : Nat) :
    Completes (.nmtStop t node) t (fun b => b.canUp = true ∧ (node = 0 ∨ node = b.can.nodeId))
      fun b u => u.can = { b.can with nmt := .stopped } ∧ b.only [.can] u :=
  completes_of (fun _ => rfl) fun b _ ⟨hup, hnode⟩ => by
    rw [run_nmtCommand hup hnode]
    exact setNmt_shows .stopped b

theorem nmtPreOperational_enters (t node : Nat) :
    Completes (.nmtEnterPreOperational t node) t (fun b => b.canUp = true ∧ (node = 0 ∨ node = b.can.nodeId))
      fun b u => u.can = { b.can with nmt := .preOperational } ∧ b.only [.can] u :=
  completes_of (fun _ => rfl) fun b _ ⟨hup, hnode⟩ => by
    rw [run_nmtCommand hup hnode]
    exact setNmt_shows .preOperational b

/-! ### Reset Communication -/

/-- A value found is found where its key is kept, whatever the order of the list. -/
theorem SMap.find_keep_of_some {m : SMap} {p : Nat → Bool} {q v : Nat} (h : m.find q = some v) (hp : p q = true) :
    (m.keep p).find q = some v := by
  induction m with
  | nil => cases h
  | cons x m ih =>
    obtain ⟨k, w⟩ := x
    rw [SMap.find] at h
    split at h
    · next hk =>
      subst hk
      rw [SMap.keep, List.filter_cons_of_pos (by exact hp), SMap.find, if_pos rfl]
      exact h
    · next hk =>
      split at h
      · cases h
      · next hlt =>
        rw [SMap.keep, List.filter_cons]
        split
        · rw [SMap.find, if_neg hk, if_neg hlt]
          exact ih h
        · exact ih h

theorem out_emcyNext (s : State) : s.out <+: s.emcyNext.out := by
  rw [State.emcyNext]
  split
  · exact List.prefix_rfl
  · split
    · exact List.prefix_append _ _
    · exact List.prefix_rfl

theorem bootUp_shows (s : State) :
    (bootUp.run s).can.booted = true ∧ (bootUp.run s).can.nmt = .preOperational
      ∧ (bootUp.run s).can.nodeId = (bootUp.run s).reg K.CanNodeId ∧ (bootUp.run s).can.timing = (bootUp.run s).canTiming
      ∧ (bootUp.run s).can.roleUntil = s.can.roleUntil ∧ (∀ q, (bootUp.run s).reg q = s.reg q)
      ∧ .can (0x700 + (bootUp.run s).can.nodeId) [0] ∈ (bootUp.run s).out := by
  simp only [bootUp, Act.run_read, run_seqs_cons, run_seqs_nil, Act.run_prim, run_send, Prim.apply]
  refine ⟨by simp, by simp, by simp, by simp [State.canTiming], by simp, fun q => by simp, ?_⟩
  exact (out_emcyNext _).subset (by simp)

/-- What Reset Communication does before it reports and the path boots up again. -/
def communicationLost (b : State) : Act :=
  seqs [
    .prim (.unset fun k => !commKey k),
    .prim (.load (b.savedOf commKey)),
    .prim .evHistory,
    endCanRole,
    .prim (.can fun c => { c with
      tpdoSent := List.replicate 8 none, tpdoAt := List.replicate 8 none, tpdoSync := List.replicate 8 0
      rpdoHeld := List.replicate 8 none }) ]

theorem run_resetCommunication (b : State) :
    resetCommunication.run b = bootUp.run (((communicationLost b).run b).occur 3) := by
  rw [resetCommunication, communicationLost]
  simp only [Act.run_read, run_seqs_cons, run_seqs_nil, run_raise]

theorem communicationLost_dict (b : State) :
    ((communicationLost b).run b).dict
      = SMap.put (SMap.over (SMap.keep b.dict fun k => !commKey k) (b.savedOf commKey)) K.CanRole 0 := by
  simp [communicationLost, endCanRole, Act.run_prim, Prim.apply]

/-- CTL, which was ready before, is ready still: its flag is no communication entry. -/
theorem communicationLost_ctl {b : State} (h : b.islandReady islCTL = true) :
    ((communicationLost b).run b).islandReady islCTL = true := by
  have hreg : b.reg ctlKey = 1 := by simpa [State.islandReady, State.flag, ctlKey] using h
  have hfind : b.dict.find ctlKey = some 1 := by
    rw [State.reg] at hreg
    cases hf : b.dict.find ctlKey with
    | some v =>
      rw [hf] at hreg
      rw [← hreg]
    | none =>
      have hzero := islandFlag_default b.part 1 (by decide)
      rw [hf] at hreg
      exact absurd (hzero.symm.trans hreg) (by decide)
  have hsaved : ∀ x ∈ b.savedOf commKey, x.1 ≠ ctlKey := fun x hx e => by
    have := (Bool.and_eq_true_iff.mp (SMap.mem_keep hx)).2
    rw [e] at this
    exact absurd this (by decide)
  have hafter : ((communicationLost b).run b).reg ctlKey = 1 := by
    rw [State.reg, communicationLost_dict, SMap.find_put_ne _ _ (by decide), SMap.find_over_out _ _ hsaved,
      SMap.find_keep_of_some hfind (by decide)]
  simpa [State.islandReady, State.flag, ctlKey] using hafter

theorem resetCommunication_shows (b : State) :
    (resetCommunication.run b).can.booted = true ∧ (resetCommunication.run b).can.nmt = .preOperational
      ∧ (resetCommunication.run b).can.nodeId = (resetCommunication.run b).reg K.CanNodeId
      ∧ (resetCommunication.run b).can.timing = (resetCommunication.run b).canTiming
      ∧ (resetCommunication.run b).can.roleUntil = none ∧ (resetCommunication.run b).reg K.CanRole = 0
      ∧ b.raised [3] (resetCommunication.run b)
      ∧ .can (0x700 + (resetCommunication.run b).can.nodeId) [0] ∈ (resetCommunication.run b).out := by
  have hrole : ((communicationLost b).run b).reg K.CanRole = 0 := by
    rw [State.reg, communicationLost_dict, SMap.find_put_same]
  have huntil : ((communicationLost b).run b).can.roleUntil = none := by
    simp [communicationLost, endCanRole, Act.run_prim, Prim.apply]
  rw [run_resetCommunication]
  obtain ⟨hbooted, hnmt, hnode, htiming, hends, hregs, hsent⟩ := bootUp_shows (((communicationLost b).run b).occur 3)
  refine ⟨hbooted, hnmt, hnode, htiming, hends.trans (by simpa using huntil), (hregs _).trans (by simpa using hrole), ?_, hsent⟩
  intro hctl
  exact raised_before (raised_occur rfl _) (P := fun _ => True) (by simp [bootUp]) (communicationLost_ctl hctl)

theorem resetCommunication_completes (t node : Nat) :
    Completes (.nmtResetCommunication t node) t (fun b => b.canUp = true ∧ (node = 0 ∨ node = b.can.nodeId))
      fun b u => u.can.booted = true ∧ u.can.nmt = .preOperational ∧ u.can.nodeId = u.reg K.CanNodeId
        ∧ u.can.timing = u.canTiming ∧ u.can.roleUntil = none ∧ u.reg K.CanRole = 0 ∧ b.raised [3] u
        ∧ .can (0x700 + u.can.nodeId) [0] ∈ u.out ∧ b.only [.dict, .ev, .can] u :=
  completes_of (fun _ => rfl) fun b _ ⟨hup, hnode⟩ => by
    rw [run_nmtCommand hup hnode]
    obtain ⟨hbooted, hnmt, hid, htiming, huntil, hrole, hraised, hsent⟩ := resetCommunication_shows b
    exact ⟨by simpa using hbooted, by simpa using hnmt, by simpa using hid, by simpa [State.canTiming] using htiming,
      by simpa using huntil, by simpa using hrole, raised_notifySend.mpr hraised,
      mem_out_notifySend (by simpa using hsent), only_sent_of_fits (by simp) b⟩

theorem resetNode_asCommunication (t node : Nat) :
    Completes (.nmtResetNode t node) t
      (fun b => b.canUp = true ∧ (node = 0 ∨ node = b.can.nodeId) ∧ b.reg K.NmtNodeResetMode ≠ 1)
      fun b u => u.can.booted = true ∧ u.can.nmt = .preOperational ∧ u.reg K.CanRole = 0 ∧ b.raised [3] u :=
  completes_of (fun _ => rfl) fun b _ ⟨hup, hnode, hmode⟩ => by
    rw [run_nmtCommand hup hnode, Act.run_read, run_ite_of_not hmode]
    obtain ⟨hbooted, hnmt, -, -, -, hrole, hraised, -⟩ := resetCommunication_shows b
    exact ⟨by simpa using hbooted, by simpa using hnmt, by simpa using hrole, raised_notifySend.mpr hraised⟩

theorem resetNode_warm (t node : Nat) :
    Completes (.nmtResetNode t node) t
      (fun b => b.inv = true ∧ b.canUp = true ∧ (node = 0 ∨ node = b.can.nodeId) ∧ b.reg K.NmtNodeResetMode = 1
        ∧ b.sys.deep = false ∧ b.health.latchH = false ∧ b.sys.hold = false ∧ b.sys.warming = false
        ∧ b.islandReady islAON = true)
      fun b u => b.warmlyReset 6 u :=
  completes_of (fun _ => rfl) fun b _ ⟨hinv, hup, hnode, hmode, hdeep, hlatch, hhold, hwarm, haon⟩ => by
    rw [run_nmtCommand hup hnode, Act.run_read, run_ite_of hmode, run_warmTrigger hdeep hlatch hhold hwarm haon]
    exact (warmReset_shows 6 (inv_wf hinv)).sent

/-! ### The error states of the bus -/

/-- What CF makes of its error counters in a state that is not bus-off, given the state that follows. -/
def errorsCounted (old next txe rxe : Nat) : Act :=
  seqs [
    put K.CanTxErrorCount (min 255 txe), put K.CanRxErrorCount (min 255 rxe), put K.CanState next,
    when (next == 1 && old == 0) (netEvent 220 3),
    when (next == 2) (seqs [netEvent 219 3, endCanRole, commError]) ]

theorem calm_errorEvents {P : Nat → Prop} (h : P (K.NetworkEventPort + 3)) (h' : P (K.NetworkEventPort + 4)) (hrole : P K.CanRole)
    (old next : Nat) : (seqs [when (next == 1 && old == 0) (netEvent 220 3),
      when (next == 2) (seqs [netEvent 219 3, endCanRole, commError])]).All (Prim.Calm P) := by
  simp [netEvent, endCanRole, commError, setNmt, h, h', hrole]

theorem errorsCounted_counts (old next txe rxe : Nat) (b : State) :
    ((errorsCounted old next txe rxe).run b).reg K.CanState = next
      ∧ ((errorsCounted old next txe rxe).run b).reg K.CanTxErrorCount = min 255 txe
      ∧ ((errorsCounted old next txe rxe).run b).reg K.CanRxErrorCount = min 255 rxe := by
  rw [errorsCounted, run_seqs_cons, run_seqs_cons, run_seqs_cons]
  refine ⟨?_, ?_, ?_⟩
  all_goals
    rw [(calm_errorEvents (by decide) (by decide) (by decide) old next).reg_other]
    simp (decide := true)

theorem commError_until (s : State) : (commError.run s).can.roleUntil = s.can.roleUntil := by
  rw [commError, Act.run_read, run_when]
  split
  · simp [setNmt]
  · rfl

theorem busOff_shows (old txe rxe : Nat) (b : State) :
    b.raised [219] ((errorsCounted old 2 txe rxe).run b) ∧ ((errorsCounted old 2 txe rxe).run b).reg K.CanRole = 0
      ∧ ((errorsCounted old 2 txe rxe).run b).can.roleUntil = none := by
  refine ⟨?_, ?_, ?_⟩
  · refine raised_among (l₁ := [_, _, _, _]) (l₂ := []) (P := fun _ => True) ?_ (fun s _ => ?_) trivial
    · simp (decide := true) [netEvent]
    · exact raised_head (raised_netEvent (by decide) rfl s) (P := fun _ => True) (by simp [endCanRole, commError, setNmt])
  · have hcalm : commError.All (Prim.Calm (· ≠ K.CanRole)) := by simp [commError, setNmt]
    rw [errorsCounted, run_seqs_cons, run_seqs_cons, run_seqs_cons, run_seqs_cons, run_seqs_cons, beq_self_eq_true, run_when_true,
      run_seqs_nil, run_seqs_cons, run_seqs_cons, run_seqs_cons, run_seqs_nil, hcalm.reg_other]
    simp [endCanRole]
  · rw [errorsCounted, run_seqs_cons, run_seqs_cons, run_seqs_cons, run_seqs_cons, run_seqs_cons, beq_self_eq_true, run_when_true,
      run_seqs_nil, run_seqs_cons, run_seqs_cons, run_seqs_cons, run_seqs_nil, commError_until]
    simp [endCanRole]

theorem passive_raises (txe rxe : Nat) (b : State) : b.raised [220] ((errorsCounted 0 1 txe rxe).run b) := by
  refine raised_among (l₁ := [_, _, _]) (l₂ := [_]) (P := fun _ => True) ?_ (fun s _ => ?_) ?_
  · simp (decide := true)
  · exact raised_netEvent (by decide) rfl s
  · simp [netEvent]

theorem execCanBusOff_eq (t txe rxe : Nat) (s : State) :
    execCanBusOff t txe rxe s = perform t (.read fun s =>
      if !s.islandReady islNET || s.reg K.CanState = 2 then .skip
      else errorsCounted (s.reg K.CanState) (if 256 ≤ txe then 2 else if 128 ≤ txe || 128 ≤ rxe then 1 else 0) txe rxe) s := rfl

theorem errors_counted (t txe rxe : Nat) :
    Completes (.canBusOff t txe rxe) t (fun b => b.islandReady islNET = true ∧ b.reg K.CanState ≠ 2)
      fun b u =>
        u.reg K.CanState = (if 256 ≤ txe then 2 else if 128 ≤ txe ∨ 128 ≤ rxe then 1 else 0)
        ∧ u.reg K.CanTxErrorCount = min 255 txe ∧ u.reg K.CanRxErrorCount = min 255 rxe
        ∧ (256 ≤ txe → b.raised [219] u ∧ u.reg K.CanRole = 0 ∧ u.can.roleUntil = none)
        ∧ (txe < 256 → (128 ≤ txe ∨ 128 ≤ rxe) → b.reg K.CanState = 0 → b.raised [220] u) ∧ b.only [.dict, .ev, .can] u :=
  completes_of (execCanBusOff_eq t txe rxe) fun b _ ⟨hnet, hold⟩ => by
    rw [Act.run_read, run_ite_of_not (by simp [hnet, hold])]
    generalize hnext : (if 256 ≤ txe then 2 else if 128 ≤ txe || 128 ≤ rxe then 1 else 0) = next
    obtain ⟨hstate, htx, hrx⟩ := errorsCounted_counts (b.reg K.CanState) next txe rxe b
    refine ⟨?_, by simpa using htx, by simpa using hrx, fun hoff => ?_, fun hon hpassive hactive => ?_,
      only_sent_of_fits (by simp +contextual [errorsCounted, endCanRole, CanSt.Sized]) b⟩
    · rw [State.notifySend_reg, hstate, ← hnext]
      simp only [Bool.or_eq_true, decide_eq_true_eq]
    · rw [if_pos hoff] at hnext
      subst hnext
      obtain ⟨hraised, hrole, huntil⟩ := busOff_shows (b.reg K.CanState) txe rxe b
      exact ⟨raised_notifySend.mpr hraised, by simpa using hrole, by simpa using huntil⟩
    · rw [if_neg (by omega), if_pos (by simpa using hpassive)] at hnext
      subst hnext
      rw [hactive]
      exact raised_notifySend.mpr (passive_raises txe rxe b)

theorem calm_rejoin : rejoin.All (Prim.Calm (· ∈ [K.CanState, K.CanTxErrorCount, K.CanRxErrorCount])) := by
  simp [rejoin]

theorem recovers_itself (t : Nat) :
    Completes (.canAutoRecover t) t
      (fun b => b.islandReady islNET = true ∧ b.flag K.CanAutoRecover = true ∧ b.reg K.CanState = 2)
      fun b u => u.reg K.CanState = 0 ∧ u.reg K.CanTxErrorCount = 0 ∧ u.reg K.CanRxErrorCount = 0
        ∧ b.regsBut [K.CanState, K.CanTxErrorCount, K.CanRxErrorCount] u ∧ b.only [.dict] u :=
  completes_of (fun _ => rfl) fun b _ ⟨hnet, hauto, hoff⟩ => by
    rw [Act.run_read, hnet, hauto, Bool.and_self, run_when_true]
    exact ⟨by simp (decide := true) [rejoin, hoff], by simp (decide := true) [rejoin, hoff], by simp (decide := true) [rejoin, hoff],
      regsBut_sent calm_rejoin b, only_sent_of_fits (by simp [rejoin]) b⟩

theorem recovers_onRequest (t : Nat) (w : Wr) :
    Completes (.canRecover t w) t (fun b => b.takes 0x2E30 0x0C w 1 ∧ b.reg K.CanState = 2)
      fun b u => u.reg K.CanState = 0 ∧ u.reg K.CanTxErrorCount = 0 ∧ u.reg K.CanRxErrorCount = 0
        ∧ b.regsBut [K.CanState, K.CanTxErrorCount, K.CanRxErrorCount] u ∧ b.only [.dict, .ev] u :=
  completes_write (fun _ => rfl) fun b ⟨htake, hoff⟩ => by
    refine ⟨1, rejoin, htake, rfl, ?_, ?_, ?_, regsBut_write calm_rejoin _ b, only_write (by simp [rejoin]) _ b⟩
    all_goals simp (decide := true) [rejoin, hoff]

/-- Settles O10: Reset Communication clears only communication entries, and bus-off ends the role. -/
theorem canStatesComplete : Obligations.CanStatesComplete :=
  ⟨nmtStart_operates, nmtStop_stops, nmtPreOperational_enters, resetCommunication_completes, resetNode_asCommunication,
    resetNode_warm, errors_counted, recovers_itself, recovers_onRequest⟩

end Sys2Proof.Machine
end

section
/-! # From reset to a reachable dictionary (R84, R86–R92, R438, R440, R463) -/

namespace Sys2Proof.Machine

/-! ### What the records and the islands' starts set -/

/-- The primitive sets and loads only registers that `P` admits, drops none and forgets no event. -/
@[simp] def Prim.Brings (P : Nat → Prop) : Prim → Prop
  | .set k _ => P k
  | .unset _ => False
  | .load m => ∀ x ∈ m, P x.1
  | .evClear _ => False
  | .evReset => False
  | _ => True

theorem Prim.brings_of_calm {P : Nat → Prop} {p : Prim} (h : p.Calm P) : p.Brings P := by
  cases p <;> first | exact h | exact h.elim

theorem Prim.Brings.not_sets {P : Nat → Prop} {p : Prim} (h : p.Brings P) {q : Nat} (hq : ¬P q) : ¬p.sets q := by
  cases p
  case set k v => exact fun e => hq (e ▸ h)
  case unset keep => exact h.elim
  case load m =>
    rintro ⟨x, hx, rfl⟩
    exact hq (h x hx)
  all_goals exact fun e => e

theorem Prim.Brings.forgets {P : Nat → Prop} {p : Prim} (h : p.Brings P) : p.forgets = false := by
  cases p <;> first | rfl | exact h.elim

theorem Prim.Brings.mono {P Q : Nat → Prop} (hpq : ∀ k, P k → Q k) {p : Prim} (h : p.Brings P) : p.Brings Q := by
  cases p
  case set k v => exact hpq _ h
  case load m => exact fun x hx => hpq _ (h x hx)
  all_goals exact h

theorem brings_of_calm {P : Nat → Prop} {a : Act} (h : a.All (Prim.Calm P)) : a.All (Prim.Brings P) :=
  h.mono fun _ => Prim.brings_of_calm

theorem Act.All.reg_brings {P : Nat → Prop} {a : Act} (h : a.All (Prim.Brings P)) {q : Nat} (hq : ¬P q) {s : State}
    (hs : SMap.wf s.dict = true) : (a.run s).reg q = s.reg q :=
  (h.mono fun _ hp => hp.not_sets hq).reg s hs

theorem Act.All.pending_brings {P : Nat → Prop} {a : Act} (h : a.All (Prim.Brings P)) {s : State} {m : Nat}
    (hm : s.ev.pending.getLsbD m = true) : (a.run s).ev.pending.getLsbD m = true :=
  Act.All.pending (h.mono fun _ => Prim.Brings.forgets) hm

/-- Neither AON's record of the islands, nor the pair's, the lifecycle's or the boot's entries. -/
abbrev Started (k : Nat) : Prop := k < 0x220000 ∨ (0x220300 ≤ k ∧ k < 0x300000) ∨ 0x320000 ≤ k

theorem started_high {k : Nat} (h : 0x320000 ≤ k) : Started k := .inr (.inr h)

theorem started_recordKeys (kind : Nat) : ∀ k ∈ recordKeys kind, Started k := by
  have hmap : ∀ {n : Nat} {f : Nat → Nat}, (∀ i < n, Started (f i)) → ∀ k ∈ (List.range n).map f, Started k := by
    intro n f h k hk
    obtain ⟨i, hi, rfl⟩ := List.mem_map.mp hk
    exact h i (List.mem_range.mp hi)
  unfold recordKeys
  split
  · exact hmap fun i hi => .inr (.inl (by simp only [K.SubstituteWeight]; omega))
  · exact hmap fun i hi => started_high (by simp only [stringKey, K.ForwardVoltageRef]; omega)
  · exact hmap fun i hi => started_high (by simp only [linkKey, K.TxPreset]; omega)
  · decide
  · decide
  · exact fun k hk => absurd hk List.not_mem_nil

theorem brings_load (m : SMap) (kind : Nat) : (Act.prim (.load (SMap.keep m (recordKeys kind).contains))).All (Prim.Brings Started) :=
  fun _ hx => started_recordKeys kind _ (by simpa using SMap.mem_keep hx)

theorem calm_applyCoefficients (r : CalRecord) {p : Nat} (h : p < 8) : (applyCoefficients r p).All (Prim.Calm Started) := by
  have hrefusal : Started (K.CoefficientCommitRefusal + p) := by
    simp only [Started, K.CoefficientCommitRefusal]
    omega
  have hversion : ∀ i, 0x5900 ≤ i → Started (versionKey i) := fun i hi => started_high (by rw [versionKey]; omega)
  have hdefects : Started (portKey K.DefectPixelCount p) := started_high (by rw [portKey, K.DefectPixelCount]; omega)
  have hneutral : ∀ w, (neutralBanks p w).All (Prim.Calm Started) := fun w =>
    calm_neutralBanks (hversion _ (by omega)) (hversion _ (by omega)) hdefects w
  refine fun s => all_ite (fun _ => trivial) fun _ => ?_
  simp [hneutral, setPort, calm_pendBlock hrefusal, hrefusal]

theorem brings_applyRecord (kind : Nat) (r : CalRecord) : (applyRecord kind r).All (Prim.Brings Started) := by
  unfold applyRecord
  split
  · exact ⟨trivial, brings_of_calm (calm_applyOverlap (by decide))⟩
  · exact ⟨brings_load _ 2, brings_of_calm (calm_wantBuild _)⟩
  · exact all_each fun p hp => brings_of_calm (calm_applyCoefficients r (List.mem_range.mp hp))
  · trivial
  · exact brings_load _ kind

theorem brings_loadRecords (mask : Nat) (kinds : List Nat) : (loadRecords mask kinds).All (Prim.Brings Started) := fun s =>
  all_each fun k _ => by
    split
    · exact all_when fun _ => brings_applyRecord k _
    · trivial

theorem started_linkKey {k l : Nat} (h : 0x400000 ≤ k) : Started (linkKey k l) := by
  simp only [Started, linkKey]
  omega

theorem brings_islandStarts (i : Nat) : (islandStarts i).All (Prim.Brings Started) := fun s => by
  dsimp only
  split
  · exact brings_loadRecords _ _
  · exact ⟨trivial, all_each fun _ _ => trivial⟩
  · exact all_each fun sc hsc => by
      have := List.mem_range.mp (List.mem_filter.mp hsc).1
      exact .inr (.inl (by simp only [K.SubchannelState]; omega))
  · trivial
  · exact ⟨brings_loadRecords _ _, all_each fun l _ => brings_of_calm
      (calm_startLink (started_linkKey (by decide)) (started_linkKey (by decide)) (by decide))⟩
  · exact ⟨trivial, trivial, all_each fun k _ => ⟨trivial, trivial, trivial⟩, trivial, trivial⟩
  · trivial

theorem started_loopKeys : ∀ k ∈ loopKeys, Started k := by decide

/-! ### An island reports ready -/

theorem run_setReady_up {i : Nat} {s : State} (h : s.islandReady i = false) :
    (setReady i true).run s
      = (seqs [put (K.IslandReady + (i - 1)) 1, when s.sys.dictReady (raise 8), syncFunctions i]).run s := by
  rw [setReady, Act.run_read, run_ite_of_not (by simp [h])]
  rfl

theorem calm_readyTail {P : Nat → Prop} (h : ∀ k < 0x220000, P k) (ready : Bool) (i : Nat) :
    (seqs [when ready (raise 8), syncFunctions i]).All (Prim.Calm P) :=
  ⟨all_when fun _ => trivial, calm_syncFunctions h i, trivial⟩

theorem setReady_rises {i : Nat} {s : State} (h : s.islandReady i = false) : ((setReady i true).run s).islandReady i = true := by
  have hrest := calm_readyTail (P := (· ≠ K.IslandReady + (i - 1))) (fun k hk => by simp only [K.IslandReady]; omega)
    s.sys.dictReady i
  rw [run_setReady_up h, State.islandReady, State.flag, run_seqs_cons, hrest.reg_other]
  simp

theorem setReady_raises {i : Nat} {s : State} (h : s.islandReady i = false) (hready : s.sys.dictReady = true) :
    s.raised [8] ((setReady i true).run s) := fun hctl => by
  have hne : K.IslandReady + (i - 1) ≠ ctlKey := fun e => by
    rw [State.islandReady, State.flag, e] at h
    exact absurd (hctl.symm.trans h) (by decide)
  rw [run_setReady_up h, hready]
  exact raised_tail (l := [when true (raise 8), syncFunctions i]) (by simp [hne])
    (raised_head (raised_raise rfl _) (P := fun _ => True) ⟨calm_syncFunctions (fun _ _ => trivial) i, trivial⟩) hctl

theorem brings_setReady {i : Nat} {P : Nat → Prop} (hi : P (K.IslandReady + (i - 1))) (h : ∀ k < 0x220000, P k) :
    (setReady i true).All (Prim.Brings P) := fun s =>
  all_ite (fun _ => trivial) fun _ => ⟨hi, brings_of_calm (calm_readyTail h _ i)⟩

/-- What an island that reports ready does, in the state where it reports. -/
def islandUp (b : State) (i : Nat) : Act :=
  seqs [
    put (K.IslandReadyTime + (i - 1)) (min (b.now - b.sys.releaseAt) 0xFFFFFFFF),
    setReady i true, islandStarts i, syncLoop ]

theorem brings_islandUp_tail (i : Nat) : (seqs [islandStarts i, syncLoop]).All (Prim.Brings Started) :=
  ⟨brings_islandStarts i, brings_of_calm (calm_syncLoop started_loopKeys), trivial⟩

theorem islandUp_shows {b : State} {i : Nat} (hs : SMap.wf b.dict = true) (h : 1 ≤ i) (h' : i ≤ 12) (hdown : b.islandReady i = false) :
    ((islandUp b i).run b).islandReady i = true
      ∧ ((islandUp b i).run b).reg (K.IslandReadyTime + (i - 1)) = min (b.now - b.sys.releaseAt) 0xFFFFFFFF
      ∧ (b.sys.dictReady = true → b.raised [8] ((islandUp b i).run b)) := by
  have hflag : ¬Started (K.IslandReady + (i - 1)) := by
    simp only [Started, K.IslandReady]
    omega
  have htime : ¬Started (K.IslandReadyTime + (i - 1)) := by
    simp only [Started, K.IslandReadyTime]
    omega
  rw [islandUp, run_seqs_cons, run_seqs_cons]
  have hput : ∀ q, q ≠ K.IslandReadyTime + (i - 1) →
      ((put (K.IslandReadyTime + (i - 1)) (min (b.now - b.sys.releaseAt) 0xFFFFFFFF)).run b).reg q = b.reg q := fun q hq => by
    simp [hq]
  have hmine : ((put (K.IslandReadyTime + (i - 1)) (min (b.now - b.sys.releaseAt) 0xFFFFFFFF)).run b).reg
      (K.IslandReadyTime + (i - 1)) = min (b.now - b.sys.releaseAt) 0xFFFFFFFF := by simp
  have hsys : ((put (K.IslandReadyTime + (i - 1)) (min (b.now - b.sys.releaseAt) 0xFFFFFFFF)).run b).sys = b.sys := by simp
  have hwf := wf_run (put (K.IslandReadyTime + (i - 1)) (min (b.now - b.sys.releaseAt) 0xFFFFFFFF)) b hs
  generalize (put (K.IslandReadyTime + (i - 1)) (min (b.now - b.sys.releaseAt) 0xFFFFFFFF)).run b = u at *
  have hlow : u.islandReady i = false := by
    rw [State.islandReady, State.flag, hput _ (by simp only [K.IslandReady, K.IslandReadyTime]; omega)]
    exact hdown
  have hwf' := wf_run (setReady i true) u hwf
  have hrest := brings_islandUp_tail i
  refine ⟨?_, ?_, fun hready => ?_⟩
  · rw [State.islandReady, State.flag, hrest.reg_brings hflag hwf']
    exact setReady_rises hlow
  · rw [hrest.reg_brings htime hwf', (brings_setReady (P := (· ≠ K.IslandReadyTime + (i - 1))) (by
      simp only [K.IslandReady, K.IslandReadyTime]; omega) (fun k hk => by simp only [K.IslandReadyTime]; omega)).reg_brings
      (by simp) hwf, hmine]
  · intro hctl n hn
    refine hrest.pending_brings ?_
    have hraised := setReady_raises hlow (hsys ▸ hready)
    refine raised_after (hput ctlKey ?_) hraised hctl n hn
    simp only [ctlKey, K.IslandReadyTime]
    omega

theorem execIslandReady_eq (t isl : Nat) (s : State) :
    execIslandReady t isl s = perform t (.read fun s =>
      let may := isl == islAON || (s.islandReady islAON && !s.sys.deep && !s.thermalHold)
      if isl < 1 || 12 < isl || s.islandReady isl || !may || s.now < s.sys.releaseAt then .skip else islandUp s isl) s := rfl

theorem island_reports (t isl : Nat) :
    1 ≤ isl → isl ≤ 12 →
    Completes (.islandReady t isl) t
      (fun b => b.inv = true ∧ b.islandReady isl = false ∧ b.sys.releaseAt ≤ b.now
        ∧ (isl = islAON ∨ (b.islandReady islAON = true ∧ b.sys.deep = false ∧ b.thermalHold = false)))
      fun b u => u.islandReady isl = true
        ∧ u.reg (K.IslandReadyTime + (isl - 1)) = min (b.now - b.sys.releaseAt) 0xFFFFFFFF
        ∧ (b.sys.dictReady = true → b.raised [8] u)
        ∧ b.only [.dict, .ev, .mem, .cam, .time, .pos, .health, .tone, .link, .loop] u :=
  fun hlow hhigh => completes_of (execIslandReady_eq t isl) fun b _ ⟨hinv, hdown, hat, hmay⟩ => by
    have hgate : (isl == islAON || (b.islandReady islAON && !b.sys.deep && !b.thermalHold)) = true := by
      rcases hmay with h | ⟨haon, hdeep, hhold⟩
      · simp [h]
      · simp [haon, hdeep, hhold]
    obtain ⟨hup, htime, hraised⟩ := islandUp_shows (inv_wf hinv) hlow hhigh hdown
    have hfits : (islandUp b isl).All
        (Prim.Fits [.dict, .ev, .mem, .cam, .time, .pos, .health, .tone, .link, .loop]) := by simp [islandUp]
    rw [Act.run_read]
    dsimp only
    rw [hgate, run_ite_of_not (by simp [hdown, Nat.not_lt.mpr hat]; omega)]
    have honly := only_sent_of_fits hfits b
    exact ⟨by simpa [State.islandReady, State.flag] using hup, by simpa using htime,
      fun hready => raised_notifySend.mpr (hraised hready), honly⟩

/-! ### Firmware verification -/

theorem calm_loadSaved_rest {P : Nat → Prop} (h : ∀ k < 0x220000, P k) (routes : SMap) (mask : BitVec 256) :
    (seqs [each routes (fun r => .prim (.evRoute r.1 r.2)), .prim (.evMask mask),
      each [1, 2, 3, 4, 5, 6, 7, 8, 9, 10, 11, 12] syncFunctions]).All (Prim.Calm P) :=
  ⟨all_each fun _ _ => trivial, trivial, all_each fun i _ => calm_syncFunctions h i, trivial⟩

/-- A register above the functions' that no path may write stays at the loading of the saved values (R76). -/
theorem reg_loadSaved {q : Nat} (hq : 0x220000 ≤ q)
    (hro : ((entriesOfPage (q / 256 / 256)).all fun r => !(r.has (q / 256) (q % 256)) || r.acc != .rw) = true) {s : State}
    (hs : SMap.wf s.dict = true) : (loadSaved.run s).reg q = s.reg q := by
  have hall : loadSaved.All fun p => ¬p.sets q := fun s =>
    ⟨not_sets_saved s _ hro, (calm_loadSaved_rest (P := (· ≠ q)) (fun k hk => by omega) _ _).mono fun p hp =>
      (Prim.brings_of_calm hp).not_sets (by simp)⟩
  exact hall.reg s hs

/-- The three ends of the boot ROM's choice (R463). -/
def bootChoice (v pref c0 c1 : Nat) (image : Nat → Image) : Act :=
  if v ≠ 0 then noImage 3 v
  else if c0 = 0 then runImage 0 pref (image pref)
  else if c1 = 0 then runImage 1 (1 - pref) (image (1 - pref))
  else noImage 2 c1

/-- What the boot ROM does, in the state in which it has judged its images. -/
def verifyWork (b : State) (vendor slotA slotB : Image) : Act :=
  let pref := b.reg K.BootSlotPreferred
  let image := fun (n : Nat) => if n = 0 then slotA else slotB
  let v := b.imageRefusal 0x80 vendor
  seqs [
    when (b.reg K.LifecycleState == 3) returnedSteps,
    .prim (.sec fun x => { x with vendorVersion := if v = 0 then vendor.version else 0 }),
    bootChoice v pref (b.imageRefusal 1 (image pref)) (b.imageRefusal 1 (image (1 - pref))) image,
    .prim (.sys fun x => { x with verified := true }),
    loadSaved ]

theorem execFirmwareVerified_eq (t : Nat) (vendor slotA slotB : Image) (s : State) :
    execFirmwareVerified t vendor slotA slotB s = perform t (.read fun s =>
      if !s.islandReady islCTL || s.sys.verified then .skip else verifyWork s vendor slotA slotB) s := rfl

theorem noImage_shows (status code : Nat) (s : State) :
    ((noImage status code).run s).reg K.BootStatus = status ∧ ((noImage status code).run s).reg K.BootSlotRun = 0xFF
      ∧ ((noImage status code).run s).reg K.PackageRefusal = code
      ∧ ((noImage status code).run s).sys.served = s.sys.served := by
  simp (decide := true) [noImage]

theorem runImage_shows (status slot : Nat) (x : Image) (s : State) :
    ((runImage status slot x).run s).reg K.BootStatus = status ∧ ((runImage status slot x).run s).reg K.BootSlotRun = slot
      ∧ ((runImage status slot x).run s).reg K.FirmwareSecurityVersion = x.version
      ∧ ((runImage status slot x).run s).sys.served = true := by
  have hraise : ∀ u : State, (∀ q, ((when (x.keyId != 0xFF) (raise 9)).run u).reg q = u.reg q)
      ∧ ((when (x.keyId != 0xFF) (raise 9)).run u).sys = u.sys := fun u => by
    rw [run_when]
    split <;> simp
  simp only [runImage, run_seqs_cons, run_seqs_nil, (hraise _).1, (hraise _).2]
  simp (decide := true)

/-- What the choice made is left by the loading of the saved values. -/
theorem verified_shows {s : State} (hs : SMap.wf s.dict = true) :
    (∀ q ∈ [K.BootStatus, K.BootSlotRun, K.FirmwareSecurityVersion, K.PackageRefusal],
        ((seqs [.prim (.sys fun x => { x with verified := true }), loadSaved]).run s).reg q = s.reg q)
      ∧ ((seqs [.prim (.sys fun x => { x with verified := true }), loadSaved]).run s).sys = { s.sys with verified := true } := by
  rw [run_seqs_cons, run_seqs_cons, run_seqs_nil]
  constructor
  · intro q hq
    have hro : 0x220000 ≤ q
        ∧ ((entriesOfPage (q / 256 / 256)).all fun r => !(r.has (q / 256) (q % 256)) || r.acc != .rw) = true := by
      simp only [List.mem_cons, List.not_mem_nil, or_false] at hq
      rcases hq with rfl | rfl | rfl | rfl <;> decide +kernel
    rw [reg_loadSaved hro.1 hro.2 (wf_run _ s hs)]
    simp
  · rw [sys_kept (by simp)]
    simp

theorem returnedSteps_served (s : State) : (returnedSteps.run s).sys.served = s.sys.served := by
  rw [returnedSteps, Act.run_read, run_seqs_cons, run_seqs_cons, sys_kept (by simp [Health.Sized])]
  simp only [Act.run_prim, Prim.apply_sys]
  rw [sys_kept (by simp)]

/-- What firmware verification leaves, by the choice it makes in the state in which the image is chosen. -/
theorem verifyWork_shows {b : State} (vendor slotA slotB : Image) (hs : SMap.wf b.dict = true) :
    ∃ w : State, w.sys.served = b.sys.served ∧
      let pref := b.reg K.BootSlotPreferred
      let image := fun (n : Nat) => if n = 0 then slotA else slotB
      let chosen := (bootChoice (b.imageRefusal 0x80 vendor) pref (b.imageRefusal 1 (image pref))
        (b.imageRefusal 1 (image (1 - pref))) image).run w
      ((verifyWork b vendor slotA slotB).run b).sys = { chosen.sys with verified := true }
        ∧ ∀ q ∈ [K.BootStatus, K.BootSlotRun, K.FirmwareSecurityVersion, K.PackageRefusal],
          ((verifyWork b vendor slotA slotB).run b).reg q = chosen.reg q := by
  rw [verifyWork, run_seqs_cons, run_seqs_cons, run_seqs_cons]
  generalize hu : (when (b.reg K.LifecycleState == 3) returnedSteps).run b = u
  have hserved : u.sys.served = b.sys.served := by
    rw [← hu, run_when]
    split
    · exact returnedSteps_served b
    · rfl
  have hwf : SMap.wf u.dict = true := hu ▸ wf_run _ b hs
  refine ⟨_, ?_, (verified_shows (wf_run _ _ (wf_run _ u hwf))).2, (verified_shows (wf_run _ _ (wf_run _ u hwf))).1⟩
  simpa using hserved

theorem fits_verifyWork (b : State) (vendor slotA slotB : Image) :
    (verifyWork b vendor slotA slotB).All (Prim.Fits [.dict, .ev, .sys, .health, .sec]) := by
  simp [verifyWork, bootChoice, all_ite_iff]

theorem firmware_verified (t : Nat) (vendor slotA slotB : Image) :
    Completes (.firmwareVerified t vendor slotA slotB) t
      (fun b => b.inv = true ∧ b.islandReady islCTL = true ∧ b.sys.verified = false)
      fun b u =>
        let pref := b.reg K.BootSlotPreferred
        let image := fun (n : Nat) => if n = 0 then slotA else slotB
        let v := b.imageRefusal 0x80 vendor
        let c := b.imageRefusal 1 (image pref)
        let d := b.imageRefusal 1 (image (1 - pref))
        u.sys.verified = true
        ∧ (v ≠ 0 → u.reg K.BootStatus = 3 ∧ u.reg K.BootSlotRun = 0xFF ∧ u.reg K.PackageRefusal = v
          ∧ u.sys.served = b.sys.served)
        ∧ (v = 0 → c = 0 → u.reg K.BootStatus = 0 ∧ u.reg K.BootSlotRun = pref
          ∧ u.reg K.FirmwareSecurityVersion = (image pref).version ∧ u.sys.served = true)
        ∧ (v = 0 → c ≠ 0 → d = 0 → u.reg K.BootStatus = 1 ∧ u.reg K.BootSlotRun = 1 - pref
          ∧ u.reg K.FirmwareSecurityVersion = (image (1 - pref)).version ∧ u.sys.served = true)
        ∧ (v = 0 → c ≠ 0 → d ≠ 0 → u.reg K.BootStatus = 2 ∧ u.reg K.BootSlotRun = 0xFF
          ∧ u.reg K.PackageRefusal = d ∧ u.sys.served = b.sys.served)
        ∧ b.only [.dict, .ev, .sys, .health, .sec] u :=
  completes_of (execFirmwareVerified_eq t vendor slotA slotB) fun b _ ⟨hinv, hctl, hnew⟩ => by
    rw [Act.run_read, run_ite_of_not (by simp [hctl, hnew])]
    have honly := only_sent_of_fits (fits_verifyWork b vendor slotA slotB) b
    obtain ⟨w, hserved, hsys, hregs⟩ := verifyWork_shows vendor slotA slotB (inv_wf hinv)
    have hstatus := hregs K.BootStatus (by simp)
    have hslot := hregs K.BootSlotRun (by simp)
    have hversion := hregs K.FirmwareSecurityVersion (by simp)
    have hrefusal := hregs K.PackageRefusal (by simp)
    simp only [State.notifySend_sys, State.notifySend_reg, hstatus, hslot, hversion, hrefusal, hsys]
    refine ⟨trivial, fun hv => ?_, fun hv hc => ?_, fun hv hc hd => ?_, fun hv hc hd => ?_, honly⟩
    · obtain ⟨hs, hr, hp, hserve⟩ := noImage_shows 3 (b.imageRefusal 0x80 vendor) w
      rw [bootChoice, if_pos hv]
      exact ⟨hs, hr, hp, hserve.trans hserved⟩
    · rw [bootChoice, if_neg (by simp [hv]), if_pos hc]
      exact runImage_shows 0 _ _ w
    · rw [bootChoice, if_neg (by simp [hv]), if_neg hc, if_pos hd]
      exact runImage_shows 1 _ _ w
    · rw [bootChoice, if_neg (by simp [hv]), if_neg hc, if_neg hd]
      obtain ⟨hs, hr, hp, hserve⟩ := noImage_shows 2 _ w
      exact ⟨hs, hr, hp, hserve.trans hserved⟩

/-! ### The dictionary opens -/

theorem inner_applyOverlap : applyOverlap.All Prim.Inner := fun s => by
  dsimp only
  split
  · simp [bumpVersion, wantBuild]
  · trivial

theorem inner_applyCoefficients (r : CalRecord) (p : Nat) : (applyCoefficients r p).All Prim.Inner := by
  refine fun s => all_ite (fun _ => trivial) fun _ => ?_
  simp [setPort, neutralBanks, pendBlock, bumpVersion, apply_ite (Act.All Prim.Inner)]

theorem inner_loadRecords (mask : Nat) (kinds : List Nat) : (loadRecords mask kinds).All Prim.Inner := fun s =>
  all_each fun k _ => by
    split
    · refine all_when fun _ => ?_
      unfold applyRecord
      split
      · exact ⟨trivial, inner_applyOverlap⟩
      · simp [wantBuild]
      · exact all_each fun p _ => inner_applyCoefficients _ p
      · trivial
      · trivial
    · trivial

theorem inner_startIllumination : (startEffects fnIllum).All Prim.Inner := by
  simp [startEffects, undiagnose, settleRunning, inner_syncLoop, inner_setString, inner_illEvent]

theorem brings_startIllumination : (startEffects fnIllum).All (Prim.Brings Started) := by
  have hsync := calm_syncLoop started_loopKeys
  have hdiag := fun n => calm_undiagnose (P := Started) (n := n) (started_high (by simp only [stringKey, K.StringState]; omega)) (by decide)
  exact brings_of_calm (by simp (decide := true) [startEffects, settleRunning, hsync, hdiag])

/-- The dictionary opens. -/
def openingActs (b : State) : List Act := [
  when b.sys.bootRefused (raise 254),
  .prim (.sys fun x => { x with dictReady := true, warming := false, bootRefused := false }),
  .prim .route ]

/-- What follows the opening: the records are applied and the illumination starts. -/
def openedActs (b : State) : List Act := [
  loadRecords (b.reg K.CalibrationRecordLoadMask) [1, 2, 3, 4, 5, 7, 8],
  when (b.ill.conf.isSome && b.fnOn fnIllum) (startEffects fnIllum),
  when (b.reg K.LifecycleState == 3) (put K.DebugLevelActual 1) ]

theorem execDictionaryReady_eq (t : Nat) (s : State) :
    execDictionaryReady t s = perform t (.read fun s =>
      if !s.sys.verified || s.sys.dictReady || !s.islandReady islCTL then .skip
      else seqs (openingActs s ++ (openedActs s ++ [bridleBegin]))) s := rfl

theorem opening_shows (b s : State) :
    ((seqs (openingActs b)).run s).sys.dictReady = true ∧ ((seqs (openingActs b)).run s).sys.warming = false
      ∧ ((seqs (openingActs b)).run s).now = s.now ∧ ((seqs (openingActs b)).run s).dict = s.dict := by
  simp only [openingActs, run_seqs_cons, run_seqs_nil, run_when]
  split <;> simp [Act.run_prim, Prim.apply]

theorem opened_shows {b s : State} (hs : SMap.wf s.dict = true) :
    ((seqs (openedActs b)).run s).sys = s.sys ∧ ((seqs (openedActs b)).run s).now = s.now
      ∧ (∀ q, 0x300000 ≤ q → q < 0x310000 → ((seqs (openedActs b)).run s).reg q = s.reg q)
      ∧ (b.reg K.LifecycleState = 3 → ((seqs (openedActs b)).run s).reg K.DebugLevelActual = 1) := by
  refine ⟨sys_kept (by simp [openedActs]) s, ?_, fun q hq hq' => ?_, fun hlife => ?_⟩
  · refine run_now (a := seqs (openedActs b)) ?_ s
    exact ⟨inner_loadRecords _ _, all_when fun _ => inner_startIllumination, all_when fun _ => trivial, trivial⟩
  · have hall : (seqs (openedActs b)).All (Prim.Brings fun k => Started k ∨ k = K.DebugLevelActual) :=
      ⟨(brings_loadRecords _ _).mono fun _ => Prim.Brings.mono fun _ => .inl,
        all_when fun _ => brings_startIllumination.mono fun _ => Prim.Brings.mono fun _ => .inl,
        all_when fun _ => .inr rfl, trivial⟩
    refine hall.reg_brings ?_ hs
    simp only [Started, K.DebugLevelActual]
    omega
  · simp [openedActs, hlife]

theorem bridleBegin_shows (s : State) :
    (s.flag K.BridleEnable = true → (bridleBegin.run s).reg K.BridleRole = 1 ∧ (bridleBegin.run s).reg K.ClaimActual = 0
        ∧ .ball .claimOut 0 ∈ (bridleBegin.run s).out ∧ (bridleBegin.run s).bridle.startAt = s.now)
      ∧ (s.flag K.BridleEnable = false → (bridleBegin.run s).reg K.BridleRole = 0
        ∧ (bridleBegin.run s).reg K.ClaimActual = s.reg K.ConfiguredClaim ∧ .ball .claimOut 1 ∈ (bridleBegin.run s).out) := by
  constructor
  · intro h
    simp (decide := true) [bridleBegin, h]
  · intro h
    simp (decide := true) [bridleBegin, h]

theorem bridleBegin_spares {q : Nat} (h : q < 0x300000 ∨ 0x310000 ≤ q) (s : State) : (bridleBegin.run s).reg q = s.reg q := by
  have hcalm : bridleBegin.All (Prim.Calm (· ≠ q)) := by
    have hne : K.BridleRole ≠ q ∧ K.ClaimActual ≠ q := by
      simp only [K.BridleRole, K.ClaimActual]
      omega
    simp [bridleBegin, hne]
  exact hcalm.reg_other s

theorem dictionary_opens (t : Nat) :
    Completes (.dictionaryReady t) t
      (fun b => b.inv = true ∧ b.sys.verified = true ∧ b.sys.dictReady = false ∧ b.islandReady islCTL = true)
      fun b u => u.sys.dictReady = true ∧ u.sys.warming = false
        ∧ (b.flag K.BridleEnable = true →
          u.reg K.BridleRole = 1 ∧ u.reg K.ClaimActual = 0 ∧ .ball .claimOut 0 ∈ u.out ∧ u.bridle.startAt = b.now)
        ∧ (b.flag K.BridleEnable = false →
          u.reg K.BridleRole = 0 ∧ u.reg K.ClaimActual = b.reg K.ConfiguredClaim ∧ .ball .claimOut 1 ∈ u.out)
        ∧ (b.reg K.LifecycleState = 3 → u.reg K.DebugLevelActual = 1)
        ∧ b.only [.dict, .ev, .mem, .sys, .cam, .loop, .bridle, .health, .tone, .ill] u :=
  completes_of (execDictionaryReady_eq t) fun b _ ⟨hinv, hver, hnew, hctl⟩ => by
    rw [Act.run_read, run_ite_of_not (by simp [hver, hnew, hctl])]
    have honly := only_sent_of_fits (a := seqs (openingActs b ++ (openedActs b ++ [bridleBegin])))
      (l := [.dict, .ev, .mem, .sys, .cam, .loop, .bridle, .health, .tone, .ill]) (by simp [openingActs, openedActs]) b
    rw [run_seqs_append, run_seqs_append, run_seqs_cons, run_seqs_nil] at honly ⊢
    obtain ⟨hready, hwarm, hnow, hdict⟩ := opening_shows b b
    obtain ⟨hsys, hnow', hregs, hdebug⟩ := opened_shows (b := b) (s := (seqs (openingActs b)).run b) (hdict ▸ inv_wf hinv)
    generalize hu : (seqs (openedActs b)).run ((seqs (openingActs b)).run b) = u at *
    have hreg : ∀ q, 0x300000 ≤ q → q < 0x310000 → u.reg q = b.reg q := fun q hq hq' =>
      (hregs q hq hq').trans (State.reg_congr hdict (part_run _ _) q)
    have hflag : u.flag K.BridleEnable = b.flag K.BridleEnable := by
      rw [State.flag, hreg _ (by decide) (by decide), State.flag]
    obtain ⟨hpair, hsingle⟩ := bridleBegin_shows u
    have hkept : (bridleBegin.run u).sys = u.sys := sys_kept (by simp) u
    refine ⟨by simp [hkept, hsys, hready], by simp [hkept, hsys, hwarm], fun hon => ?_, fun hoff => ?_, fun hlife => ?_, honly⟩
    · obtain ⟨hrole, hclaim, hsent, hat⟩ := hpair (hflag.trans hon)
      exact ⟨by simpa using hrole, by simpa using hclaim, mem_out_notifySend hsent, by simp [hat, hnow', hnow]⟩
    · obtain ⟨hrole, hclaim, hsent⟩ := hsingle (hflag.trans hoff)
      exact ⟨by simpa using hrole, by rw [State.notifySend_reg, hclaim, hreg _ (by decide) (by decide)], mem_out_notifySend hsent⟩
    · rw [State.notifySend_reg, bridleBegin_spares (by decide), hdebug hlife]

theorem can_boots (t : Nat) :
    Completes (.canBootUp t) t
      (fun b => b.reachable = true ∧ b.islandReady islNET = true ∧ b.can.booted = false)
      fun b u => u.can.booted = true ∧ u.can.nmt = .preOperational ∧ u.can.nodeId = b.reg K.CanNodeId
        ∧ u.can.timing = b.canTiming ∧ .can (0x700 + b.reg K.CanNodeId) [0] ∈ u.out ∧ b.only [.can, .ev] u :=
  completes_of (fun _ => rfl) fun b _ ⟨hreach, hnet, hboot⟩ => by
    rw [Act.run_read, hreach, hnet, hboot]
    obtain ⟨hbooted, hnmt, hid, htiming, -, hregs, hsent⟩ := bootUp_shows b
    have hkept : (bootUp.run b).canTiming = b.canTiming := by simp only [State.canTiming, hregs]
    rw [hregs] at hid
    rw [hid] at hsent
    have honly := only_sent_of_fits (a := bootUp) (l := [.can, .ev]) (by simp +contextual [bootUp, CanSt.Sized]) b
    exact ⟨by simpa using hbooted, by simpa using hnmt, by simpa using hid, by simpa [hkept] using htiming,
      mem_out_notifySend hsent, honly⟩

/-- Settles O2: neither the saved values nor the records of calibration set what the bring-up reports. -/
theorem bringupCompletes : Obligations.BringupCompletes :=
  ⟨island_reports, firmware_verified, dictionary_opens, can_boots⟩

end Sys2Proof.Machine
end

section
/-! # Strips on the decode lanes (R149–R166) -/

namespace Sys2Proof.Machine

/-! ### What stays of the codec's state -/

/-- What a tree leaves of the codec's state, it leaves of any reading of that state. -/
theorem leaves_codec {α : Type} (g : Codec → α) {a : Act} (h : a.All (Prim.Fits (Piece.but .codec))) :
    a.All (Prim.Leaves fun u => g u.codec) := h.mono fun p hp s =>
  congrArg g (Prim.only_touches p s .codec fun hm => by simpa using hp.1 _ hm)

/-- The streams, the decoding records and the lanes, which no change of a chain touches. -/
def Codec.decoding (c : Codec) : List Stream × List DecStream × List Lane := (c.streams, c.decs, c.lanes)

theorem leaves_setChain (x : Chain) : (setChain x).All (Prim.Leaves fun u => u.codec.decoding) := fun _ => rfl

theorem leaves_mirrorBufs (l : List (Nat × Nat × Nat)) : (mirrorBufs l).All (Prim.Leaves fun u => u.codec.decoding) :=
  leaves_codec Codec.decoding (by simp)

theorem leaves_placeChains : placeChains.All (Prim.Leaves fun u => u.codec.decoding) := fun s => all_each fun c _ u => by
  dsimp only
  split
  · trivial
  · exact all_ite (fun _ => trivial) fun _ => ⟨leaves_codec Codec.decoding (by simp), leaves_setChain _, leaves_mirrorBufs _, trivial⟩

theorem leaves_doneBufs (l : List (Nat × Nat)) : (each l fun b => doneBuf b.1 b.2).All (Prim.Leaves fun u => u.codec.decoding) :=
  leaves_codec Codec.decoding (by simp [doneBuf])

theorem leaves_popStrip (stream : Nat) : (popStrip stream).All (Prim.Leaves fun u => u.codec.decoding) := fun s => by
  dsimp only
  split
  · split
    · refine ⟨leaves_setChain _, fun u => ?_⟩
      dsimp only
      split
      · trivial
      · exact ⟨leaves_doneBufs _, leaves_setChain _, leaves_mirrorBufs _, leaves_placeChains, trivial⟩
    · trivial
  · trivial

/-! ### The lanes -/

theorem lane_mk (s : State) (n : Nat) : s.lane n = s.codec.lanes.getD n {} := rfl

theorem codec_syncLane (n : Nat) (s : State) : ((syncLane n).run s).codec = s.codec := codec_kept (by simp) s

theorem lane_setLane {n : Nat} {s : State} (h : n < s.codec.lanes.length) (f : Lane → Lane) :
    ((setLane n f).run s).lane n = f (s.lane n) := by
  rw [setLane, Act.run_seq, lane_mk, codec_syncLane]
  simp [State.lane, List.getD_eq_getElem?_getD, h]

theorem lane_setLane_ne {k n : Nat} {s : State} (h : k ≠ n) (f : Lane → Lane) : ((setLane n f).run s).lane k = s.lane k := by
  rw [setLane, Act.run_seq, lane_mk, codec_syncLane]
  simp [State.lane, List.getD_eq_getElem?_getD, getElem?_modAt, h]

theorem lanes_setLane (n : Nat) (f : Lane → Lane) (s : State) :
    ((setLane n f).run s).codec.lanes.length = s.codec.lanes.length := by
  rw [setLane, Act.run_seq, codec_syncLane]
  simp [length_modAt]

theorem decs_setLane (n : Nat) (f : Lane → Lane) (s : State) : ((setLane n f).run s).codec.decs = s.codec.decs := by
  rw [setLane, Act.run_seq, codec_syncLane]
  rfl

theorem streams_setLane (n : Nat) (f : Lane → Lane) (s : State) : ((setLane n f).run s).codec.streams = s.codec.streams := by
  rw [setLane, Act.run_seq, codec_syncLane]
  rfl

theorem calm_syncLane {P : Nat → Prop} {n : Nat} (h : P (K.DecodeLaneStatus + n)) (h' : P (K.DecodeLaneStream + n)) :
    (syncLane n).All (Prim.Calm P) := fun _ => ⟨h, h'⟩

theorem calm_setLane {P : Nat → Prop} {n : Nat} (h : P (K.DecodeLaneStatus + n)) (h' : P (K.DecodeLaneStream + n))
    (f : Lane → Lane) : (setLane n f).All (Prim.Calm P) := ⟨trivial, calm_syncLane h h'⟩

theorem setLane_stream {n : Nat} {s : State} (h : n < s.codec.lanes.length) {f : Lane → Lane} {w : LaneWork}
    (hw : (f (s.lane n)).work = some w) : ((setLane n f).run s).reg (K.DecodeLaneStream + n) = w.stream := by
  have hlane : ((Act.prim (.codec fun c => { c with lanes := modAt c.lanes n f })).run s).codec.lanes.getD n {} = f (s.lane n) := by
    simp [State.lane, List.getD_eq_getElem?_getD, getElem?_modAt, h]
  rw [setLane, Act.run_seq, syncLane, Act.run_read]
  simp only [hlane, hw]
  simp

theorem calm_retireLaneNow {P : Nat → Prop} {n : Nat} (h : P (K.DecodeLaneStatus + n)) (h' : P (K.DecodeLaneStream + n))
    (hw : P K.DecodeLanesWorking) (hc : P K.DecodeCapacity) : (retireLaneNow n).All (Prim.Calm P) :=
  ⟨calm_setLane h h' _, fun _ => hw, fun _ => hc, trivial, trivial⟩

theorem calm_leaveLane {P : Nat → Prop} {n : Nat} (h : P (K.DecodeLaneStatus + n)) (h' : P (K.DecodeLaneStream + n))
    (hw : P K.DecodeLanesWorking) (hc : P K.DecodeCapacity) (live : Option (Nat × JlsState)) :
    (leaveLane n live).All (Prim.Calm P) :=
  ⟨calm_setLane h h' _, fun _ => all_when fun _ => calm_retireLaneNow h h' hw hc⟩

theorem calm_retireLane {P : Nat → Prop} {n : Nat} (h : P (K.DecodeLaneStatus + n)) (h' : P (K.DecodeLaneStream + n))
    (hw : P K.DecodeLanesWorking) (hc : P K.DecodeCapacity) : (retireLane n).All (Prim.Calm P) := fun s =>
  all_ite (fun _ => trivial) fun _ => all_ite (fun _ => calm_setLane h h' _) fun _ => calm_retireLaneNow h h' hw hc

theorem work_setLane {f : Lane → Lane} (h : ∀ l, (f l).work = l.work) (k n : Nat) (s : State) :
    (((setLane n f).run s).lane k).work = (s.lane k).work := by
  rw [setLane, Act.run_seq, lane_mk, codec_syncLane]
  simp only [State.lane, List.getD_eq_getElem?_getD, Act.run_prim, Prim.apply_codec, getElem?_modAt]
  split
  · cases s.codec.lanes[k]? with
    | none => rfl
    | some l => exact h l
  · rfl

theorem leaves_work_of_fits {a : Act} (h : a.All (Prim.Fits (Piece.but .codec))) (k : Nat) (s : State) :
    ((a.run s).lane k).work = (s.lane k).work := by
  rw [State.lane, State.lane, codec_kept h]

/-- No retirement changes what a lane works at. -/
theorem work_retireLaneNow (k n : Nat) (s : State) : (((retireLaneNow n).run s).lane k).work = (s.lane k).work := by
  rw [retireLaneNow, run_seqs_cons, leaves_work_of_fits (by simp)]
  exact work_setLane (by intro l; rfl) k n s

theorem work_retireLane (k n : Nat) (s : State) : (((retireLane n).run s).lane k).work = (s.lane k).work := by
  rw [retireLane, Act.run_read]
  dsimp only
  split
  · rfl
  · split
    · exact work_setLane (by intro l; rfl) k n s
    · exact work_retireLaneNow k n s

theorem leaveLane_idle {n : Nat} {s : State} (h : n < s.codec.lanes.length) (live : Option (Nat × JlsState)) :
    (((leaveLane n live).run s).lane n).work = none := by
  have hset : (((setLane n fun l => { l with work := none, live := live }).run s).lane n).work = none := by
    rw [lane_setLane h]
  rw [leaveLane, Act.run_seq, Act.run_read, run_when]
  split
  · rw [work_retireLaneNow, hset]
  · exact hset

theorem leaves_setLane {α : Type} (g : Codec → α) (h : ∀ c l, g { c with lanes := l } = g c) (n : Nat) (f : Lane → Lane) :
    (setLane n f).All (Prim.Leaves fun u => g u.codec) :=
  ⟨fun s => h s.codec _, leaves_codec g (by simp)⟩

theorem leaves_retireLaneNow {α : Type} (g : Codec → α) (h : ∀ c l, g { c with lanes := l } = g c) (n : Nat) :
    (retireLaneNow n).All (Prim.Leaves fun u => g u.codec) :=
  ⟨leaves_setLane g h n _, leaves_codec g (by simp)⟩

theorem leaves_leaveLane {α : Type} (g : Codec → α) (h : ∀ c l, g { c with lanes := l } = g c) (n : Nat)
    (live : Option (Nat × JlsState)) : (leaveLane n live).All (Prim.Leaves fun u => g u.codec) :=
  ⟨leaves_setLane g h n _, fun _ => all_when fun _ => leaves_retireLaneNow g h n⟩

theorem leaves_retireLane {α : Type} (g : Codec → α) (h : ∀ c l, g { c with lanes := l } = g c) (n : Nat) :
    (retireLane n).All (Prim.Leaves fun u => g u.codec) := fun s =>
  all_ite (fun _ => trivial) fun _ => all_ite (fun _ => leaves_setLane g h n _) fun _ => leaves_retireLaneNow g h n

/-! ### The decoding records -/

theorem find_map_of_id {l : List DecStream} {id : Nat} {f : DecStream → DecStream} (hf : ∀ d, (f d).id = d.id) :
    ((l.map fun d => if d.id = id then f d else d).find? fun d => d.id == id) = (l.find? fun d => d.id == id).map f := by
  induction l with
  | nil => rfl
  | cons d l ih =>
    by_cases hd : d.id = id
    · simp [hd, hf]
    · simp [hd, ih]

theorem dec_setDec {id : Nat} {f : DecStream → DecStream} (hf : ∀ d, (f d).id = d.id) (s : State) :
    ((setDec id f).run s).dec? id = (s.dec? id).map f := find_map_of_id hf

/-! ### A stalled lane -/

theorem dec_congr {s u : State} (h : u.codec.decs = s.codec.decs) (id : Nat) : u.dec? id = s.dec? id := by
  rw [State.dec?, State.dec?, h]

theorem stream_congr {s u : State} (h : u.codec.streams = s.codec.streams) (id : Nat) : u.stream? id = s.stream? id := by
  rw [State.stream?, State.stream?, h]

/-- A lane whose bytes are less than a header stalls (R159). -/
def stallLane (n : Nat) (w : LaneWork) : Act :=
  seqs [setLane n (fun l => { l with work := some { w with verdict := none } }), raise 37]

theorem run_advanceLane_short {n : Nat} {s : State} {w : LaneWork} {x : Stream} {d : DecStream} (hw : (s.lane n).work = some w)
    (hx : s.stream? w.stream = some x) (hd : s.dec? w.stream = some d) (hlen : w.got.length < 32) (poisoned : Bool) :
    (advanceLane n poisoned).run s = (stallLane n w).run s := by
  rw [advanceLane, Act.run_read]
  simp only [hw, hx, hd]
  rw [run_ite_of hlen]
  rfl

theorem laneKey_ne_ctl (n : Nat) : K.DecodeLaneStatus + n ≠ ctlKey ∧ K.DecodeLaneStream + n ≠ ctlKey := by
  simp only [K.DecodeLaneStatus, K.DecodeLaneStream, ctlKey]
  omega

theorem raises_stallLane (n : Nat) (w : LaneWork) (s : State) : s.raised [37] ((stallLane n w).run s) :=
  raised_tail (calm_setLane (laneKey_ne_ctl n).1 (laneKey_ne_ctl n).2 _) (raised_head (raised_raise rfl _) (P := fun _ => True) trivial)

theorem work_stallLane {n : Nat} {s : State} (h : n < s.codec.lanes.length) (w : LaneWork) :
    (((stallLane n w).run s).lane n).work = some { w with verdict := none } := by
  rw [stallLane, run_seqs_cons, leaves_work_of_fits (by simp), lane_setLane h]

/-- What a chain gives up to a lane. -/
def takeChain (y : List Nat × List (Nat × Nat) × Chain) : Act :=
  seqs [each y.2.1 (fun b => doneBuf b.1 b.2), setChain y.2.2, mirrorBufs y.2.2.bufs, placeChains]

theorem leaves_takeChain (y : List Nat × List (Nat × Nat) × Chain) : (takeChain y).All (Prim.Leaves fun u => u.codec.decoding) :=
  ⟨leaves_doneBufs _, leaves_setChain _, leaves_mirrorBufs _, leaves_placeChains, trivial⟩

theorem run_resumeLane {n : Nat} {b : State} {w : LaneWork} {c : Chain} (hw : (b.lane n).work = some w) (hopen : w.verdict = none)
    (hretry : w.refetch = false) (hc : b.chain? w.stream = some c) (hgot : (b.takeStrip c).1 ≠ []) :
    (resumeLane n).run b = (advanceLane n false).run ((setLane n fun l =>
      { l with work := some { w with got := w.got ++ (b.takeStrip c).1 } }).run ((takeChain (b.takeStrip c)).run b)) := by
  have hgate : (!(b.takeStrip c).1.isEmpty && !w.refetch) = true := by simp [hgot, hretry]
  rw [resumeLane, Act.run_read]
  simp only [hw, hopen, hc]
  rw [hgate, run_when_true, takeChain]
  simp only [run_seqs_cons, run_seqs_nil]

theorem resumeLane_stalls {n : Nat} {b : State} {w : LaneWork} {x : Stream} {d : DecStream} {c : Chain} (hn : n < b.codec.lanes.length)
    (hw : (b.lane n).work = some w) (hopen : w.verdict = none) (hretry : w.refetch = false)
    (hx : b.stream? w.stream = some x) (hd : b.dec? w.stream = some d) (hc : b.chain? w.stream = some c)
    (hgot : (b.takeStrip c).1 ≠ []) (hshort : (w.got ++ (b.takeStrip c).1).length < 32) :
    (((resumeLane n).run b).lane n).work = some { w with got := w.got ++ (b.takeStrip c).1 }
      ∧ b.raised [37] ((resumeLane n).run b) := by
  have hkept := (leaves_takeChain (b.takeStrip c)).leaves b
  obtain ⟨hstreams, hdecs, hlanes⟩ : ((takeChain (b.takeStrip c)).run b).codec.streams = b.codec.streams
      ∧ ((takeChain (b.takeStrip c)).run b).codec.decs = b.codec.decs
      ∧ ((takeChain (b.takeStrip c)).run b).codec.lanes = b.codec.lanes := by
    simpa [Codec.decoding] using hkept
  have hctl : ((takeChain (b.takeStrip c)).run b).reg ctlKey = b.reg ctlKey :=
    reg_of_fits (l := [.mem, .codec]) (by simp [takeChain, doneBuf]) (by decide) b ctlKey
  rw [run_resumeLane hw hopen hretry hc hgot]
  generalize (takeChain (b.takeStrip c)).run b = u at *
  have hn' : n < u.codec.lanes.length := by rwa [hlanes]
  generalize hv : (setLane n fun l => { l with work := some { w with got := w.got ++ (b.takeStrip c).1 } }).run u = v
  have hwork : (v.lane n).work = some { w with got := w.got ++ (b.takeStrip c).1 } := by rw [← hv, lane_setLane hn']
  have hlen : n < v.codec.lanes.length := by rwa [← hv, lanes_setLane]
  have hctl' : v.reg ctlKey = b.reg ctlKey := by
    rw [← hv, (calm_setLane (laneKey_ne_ctl n).1 (laneKey_ne_ctl n).2 _).reg_other, hctl]
  rw [run_advanceLane_short hwork (x := x) (d := d) ((stream_congr (by rw [← hv, streams_setLane, hstreams]) _).trans hx)
    ((dec_congr (by rw [← hv, decs_setLane, hdecs]) _).trans hd) hshort]
  refine ⟨?_, raised_after hctl' (raises_stallLane n _ v)⟩
  rw [work_stallLane hlen]
  simp [hopen]

/-! ### A strip that ends -/

theorem survivesBook_codec (T : Codec → Prop) : SurvivesBook fun s => T s.codec := fun a _ ha s hs => by
  show T (a.run s).codec
  rwa [show (a.run s).codec = s.codec from only_of_fits ha s .codec (by simp)]

/-- What a good strip leaves once its lane is free: the host's copy, and the lane that failed it before (R154, R407). -/
def passedRest (n : Nat) (w : LaneWork) (x : Stream) : List Act := [
  when x.streamed (.seq
    (.prim (.net fun m => { m with refetches := m.refetches.filter fun r => !(r.stream == w.stream && r.strip == w.strip) }))
    (sendRelease w.stream w.strip)),
  when (w.refetch && n != w.first)
    (.seq (addTo (K.DecodeLaneFaults + w.first) 4 1)
      (faultOccurrence (faultSource 5 w.first) 34 (w.stream * 2 ^ 32 + w.strip) (retireLane w.first))) ]

/-- What a good strip does once it is counted: its history is kept and the stream goes on to the next (R151). -/
def passedActs (n : Nat) (w : LaneWork) (x : Stream) (d : DecStream) : List Act := [
  writeSlot d.slot w.stream (w.strip + 1) w.endLine x.params w.final false,
  setDec w.stream (fun d => { d with
    next := w.strip + 1, retry := none, tail := some (w.endLine, field w.got 16 1 < 16 && !bit (field w.got 17 1) 1),
    failed := d.failed.filter (· != (w.pass, w.strip)) }),
  .prim (.codec fun c => { c with
    lanes := c.lanes.map fun l => if l.live.any (fun v => v.1 == w.stream) then { l with live := none } else l }),
  leaveLane n (some (w.stream, w.final)) ]

theorem run_stripPasses {n : Nat} {s : State} {w : LaneWork} {x : Stream} {d : DecStream} (hx : s.stream? w.stream = some x)
    (hd : s.dec? w.stream = some d) :
    (stripPasses n w).run s = (seqs (passedRest n w x)).run ((seqs (passedActs n w x d)).run ((addTo K.StripsDecoded 8 1).run s)) := by
  rw [stripPasses, Act.run_read]
  simp only [hx, hd]
  rw [← run_seqs_append, ← run_seqs_cons]
  rfl

/-- The codec's keys that a lane's end changes. -/
theorem strips_keys {q : Nat} (hq : q = K.StripsDecoded ∨ q = K.RawLinesDecoded) (n : Nat) :
    K.DecodeLaneStatus + n ≠ q ∧ K.DecodeLaneStream + n ≠ q ∧ K.DecodeLaneFaults + n ≠ q ∧ K.DecodeLanesWorking ≠ q
      ∧ K.DecodeCapacity ≠ q ∧ ∀ k ∈ faultKeys, k ≠ q := by
  have hfault : ∀ k ∈ faultKeys, k ≠ K.StripsDecoded ∧ k ≠ K.RawLinesDecoded := by decide
  rcases hq with rfl | rfl
  · exact ⟨by simp only [K.DecodeLaneStatus, K.StripsDecoded]; omega, by simp only [K.DecodeLaneStream, K.StripsDecoded]; omega,
      by simp only [K.DecodeLaneFaults, K.StripsDecoded]; omega, by decide, by decide, fun k hk => (hfault k hk).1⟩
  · exact ⟨by simp only [K.DecodeLaneStatus, K.RawLinesDecoded]; omega, by simp only [K.DecodeLaneStream, K.RawLinesDecoded]; omega,
      by simp only [K.DecodeLaneFaults, K.RawLinesDecoded]; omega, by decide, by decide, fun k hk => (hfault k hk).2⟩

theorem calm_sendRelease (P : Nat → Prop) (stream strip : Nat) : (sendRelease stream strip).All (Prim.Calm P) := fun s => by
  dsimp only
  split
  · simp [sendIngest]
  · trivial

theorem calm_passedRest {q : Nat} (hq : q = K.StripsDecoded ∨ q = K.RawLinesDecoded) (n : Nat) (w : LaneWork) (x : Stream) :
    (seqs (passedRest n w x)).All (Prim.Calm (· ≠ q)) := by
  obtain ⟨hstatus, hstream, hfaults, hworking, hcapacity, hbook⟩ := strips_keys hq w.first
  have hretire := calm_retireLane (P := (· ≠ q)) hstatus hstream hworking hcapacity
  exact ⟨all_when fun _ => ⟨trivial, calm_sendRelease _ _ _⟩,
    all_when fun _ => ⟨fun _ => hfaults, calm_faultOccurrence hbook hretire _ _ _⟩, trivial⟩

theorem calm_passedActs {q : Nat} (hq : q = K.StripsDecoded ∨ q = K.RawLinesDecoded) (n : Nat) (w : LaneWork) (x : Stream)
    (d : DecStream) : (seqs (passedActs n w x d)).All (Prim.Calm (· ≠ q)) := by
  obtain ⟨hstatus, hstream, hfaults, hworking, hcapacity, hbook⟩ := strips_keys hq n
  have hversion : versionKey 0x5402 ≠ q := by
    rcases hq with rfl | rfl <;> decide
  exact ⟨⟨trivial, trivial, calm_bumpVersion hversion, trivial⟩, trivial, trivial, calm_leaveLane hstatus hstream hworking hcapacity _,
    trivial⟩

/-- The decoding records stay, and what a lane works at. -/
theorem passedRest_codec (n : Nat) (w : LaneWork) (x : Stream) (s : State) :
    (((seqs (passedRest n w x)).run s).lane n).work = (s.lane n).work
      ∧ ((seqs (passedRest n w x)).run s).codec.decs = s.codec.decs := by
  let T : Codec → Prop := fun c => (c.lanes.getD n {}).work = (s.lane n).work ∧ c.decs = s.codec.decs
  have hfits : ∀ {a : Act}, a.All (Prim.Fits (Piece.but .codec)) → a.Keeps fun u => T u.codec := fun ha u hu => by
    show T _
    rwa [codec_kept ha]
  have hretire : (retireLane w.first).Keeps fun u => T u.codec := fun u hu =>
    ⟨(work_retireLane n w.first u).trans hu.1, ((leaves_retireLane Codec.decs (fun _ _ => rfl) w.first).leaves u).trans hu.2⟩
  have hrest : (seqs (passedRest n w x)).Keeps fun u => T u.codec := keeps_seqs fun a ha => by
    simp only [passedRest, List.mem_cons, List.not_mem_nil, or_false] at ha
    rcases ha with rfl | rfl
    · exact keeps_when fun _ => hfits (by simp +contextual [Net.Sized])
    · exact keeps_when fun _ => keeps_seq (hfits (by simp))
        (faultOccurrence_keeps (survivesBook_codec T) hretire _ _ _)
  exact hrest s ⟨rfl, rfl⟩

theorem decoding_writeSlot (n stream next line : Nat) (p : JlsParams) (st : JlsState) (lost : Bool) (s : State) :
    ((writeSlot n stream next line p st lost).run s).codec.decoding = s.codec.decoding := by
  have hall : (writeSlot n stream next line p st lost).All (Prim.Leaves fun u => u.codec.decoding) :=
    ⟨leaves_codec Codec.decoding (by simp), fun _ => rfl, leaves_codec Codec.decoding (by simp), trivial⟩
  exact hall.leaves s

theorem passedActs_idle {n : Nat} {s : State} (hn : n < s.codec.lanes.length) (w : LaneWork) (x : Stream) (d : DecStream) :
    (((seqs (passedActs n w x d)).run s).lane n).work = none := by
  rw [passedActs, run_seqs_cons, run_seqs_cons, run_seqs_cons, run_seqs_cons, run_seqs_nil]
  refine leaveLane_idle ?_ _
  have hlanes : ((writeSlot d.slot w.stream (w.strip + 1) w.endLine x.params w.final false).run s).codec.lanes = s.codec.lanes :=
    congrArg (fun c => c.2.2) (decoding_writeSlot d.slot w.stream (w.strip + 1) w.endLine x.params w.final false s)
  simpa [setDec, hlanes] using hn

theorem passedActs_next {n : Nat} {s : State} {w : LaneWork} {x : Stream} {d : DecStream} (hd : s.dec? w.stream = some d) :
    (((seqs (passedActs n w x d)).run s).dec? w.stream).map (·.next) = some (w.strip + 1) := by
  rw [passedActs, run_seqs_cons, run_seqs_cons, run_seqs_cons, run_seqs_cons, run_seqs_nil,
    dec_congr ((leaves_leaveLane Codec.decs (fun _ _ => rfl) n _).leaves _)]
  have hdecs := congrArg (fun c => c.2.1) (decoding_writeSlot d.slot w.stream (w.strip + 1) w.endLine x.params w.final false s)
  have hset := dec_setDec (id := w.stream) (f := fun d => { d with
    next := w.strip + 1, retry := none, tail := some (w.endLine, field w.got 16 1 < 16 && !bit (field w.got 17 1) 1),
    failed := d.failed.filter (· != (w.pass, w.strip)) }) (by intro d; rfl)
    ((writeSlot d.slot w.stream (w.strip + 1) w.endLine x.params w.final false).run s)
  rw [dec_congr (s := s) hdecs, hd] at hset
  rw [dec_congr (s := (setDec _ _).run _) (by rfl), hset]
  rfl

theorem stripPasses_shows {n : Nat} {s : State} {w : LaneWork} {x : Stream} {d : DecStream} (hn : n < s.codec.lanes.length)
    (hx : s.stream? w.stream = some x) (hd : s.dec? w.stream = some d) :
    (((stripPasses n w).run s).lane n).work = none
      ∧ ((stripPasses n w).run s).reg K.StripsDecoded = (s.reg K.StripsDecoded + 1) % 2 ^ 64
      ∧ ((stripPasses n w).run s).reg K.RawLinesDecoded = s.reg K.RawLinesDecoded
      ∧ (((stripPasses n w).run s).dec? w.stream).map (·.next) = some (w.strip + 1) := by
  rw [run_stripPasses hx hd]
  generalize hu : (addTo K.StripsDecoded 8 1).run s = u
  obtain ⟨hwork, hdecs⟩ := passedRest_codec n w x ((seqs (passedActs n w x d)).run u)
  have hcodec : u.codec = s.codec := by rw [← hu]; simp
  have hlen : n < u.codec.lanes.length := by rwa [hcodec]
  refine ⟨hwork.trans ?_, ?_, ?_, ?_⟩
  · exact passedActs_idle hlen w x d
  · rw [(calm_passedRest (.inl rfl) n w x).reg_other, (calm_passedActs (.inl rfl) n w x d).reg_other, ← hu]
    simp
  · rw [(calm_passedRest (.inr rfl) n w x).reg_other, (calm_passedActs (.inr rfl) n w x d).reg_other, ← hu]
    simp (decide := true)
  · rw [dec_congr hdecs, passedActs_next ((dec_congr (by rw [hcodec]) _).trans hd)]

/-- What the end of a strip does. -/
def stripEnds (b : State) (lane v : Nat) (w : LaneWork) : Act :=
  seqs [
    addTo K.RawLinesDecoded 8 w.raws,
    when ((b.stream? w.stream).any (·.streamed) && !w.refetch) (popStrip w.stream),
    (if v = 0 then stripPasses lane w
    else
      seqs [
        leaveLane lane none,
        setDec w.stream (fun d => { d with tail := some (w.endLine, field w.got 16 1 < 16 && !bit (field w.got 17 1) 1) }),
        stripFails lane w.stream w.strip w.pass v w.refetch ]) ]

/-- The end of the strip that a lane works at. -/
def stripEndAct (lane : Nat) : Act := .read fun s =>
  match (s.lane lane).work with
  | none => .skip
  | some w =>
    match w.verdict with
    | none => .skip
    | some v => stripEnds s lane v w

theorem execStripDecodeEnd_eq (t lane : Nat) (s : State) : execStripDecodeEnd t lane s = perform t (stripEndAct lane) s := rfl

theorem run_stripEndAct {b : State} {lane v : Nat} {w : LaneWork} (hw : (b.lane lane).work = some w) (hv : w.verdict = some v) :
    (stripEndAct lane).run b = (stripEnds b lane v w).run b := by
  rw [stripEndAct, Act.run_read]
  simp only [hw, hv]

theorem laneKey_ne_status (n : Nat) : K.DecodeLaneStatus + n ≠ K.FunctionStatus + (fnDecode - 1)
    ∧ K.DecodeLaneStream + n ≠ K.FunctionStatus + (fnDecode - 1) := by
  simp only [K.DecodeLaneStatus, K.DecodeLaneStream, K.FunctionStatus, fnDecode]
  omega

/-! ### A strip that fails -/

/-- The registers of the last failure (R164). -/
abbrev LastFailure (k : Nat) : Prop := k = K.LastFailedStream ∨ k = K.LastFailedStrip ∨ k = K.LastFailReason

theorem calm_decodeBehind {P : Nat → Prop} (h : P K.DecodeBehindCount) (stream pass strip : Nat) :
    (decodeBehind stream pass strip).All (Prim.Calm P) := fun s => by
  dsimp only
  split
  · trivial
  · exact all_when fun _ => ⟨trivial, fun _ => h, all_each fun c _ => by simp [wasteCopy, markWaste, setCopy], trivial⟩

theorem calm_loseHistory {P : Nat → Prop} (h : P (versionKey 0x5402)) (stream strip : Nat) :
    (loseHistory stream strip).All (Prim.Calm P) := fun s => by
  dsimp only
  split
  · exact ⟨trivial, all_when fun _ => ⟨trivial, trivial, calm_bumpVersion h, trivial⟩⟩
  · trivial

theorem calm_sendRefetch (P : Nat → Prop) (r : Refetch) : (sendRefetch r).All (Prim.Calm P) := fun s => by
  dsimp only
  split
  · simp [sendIngest]
  · trivial

theorem calm_mirrorDirectory {P : Nat → Prop} (h0 : P (versionKey 0x5400)) (h1 : P (versionKey 0x5401)) (hf : P K.JobStoreFree)
    (hc : P K.JobCount) : mirrorDirectory.All (Prim.Calm P) := by
  simp [mirrorDirectory, calm_bumpVersion h0, calm_bumpVersion h1, calm_syncJobStore hf hc]

/-- What follows a failure's note: the record of the failure, and the retry, the loss or the end (R162–R166). -/
def failureFollows (lane stream strip pass reason : Nat) (refetch streamed : Bool) : Act :=
  .seq (setDec stream fun d => { d with failed := (pass, strip) :: d.failed.filter (· != (pass, strip)) })
    (.seq (decodeBehind stream pass strip)
      (if reason ≤ 4 && !refetch then
        seqs [
          addTo K.StripsRefetched 4 1,
          setDec stream (fun d => { d with retry := some (strip, lane) }),
          when streamed (startRefetch stream strip),
          raise 34 ]
      else if reason = 7 then
        seqs [setDec stream (fun d => { d with next := strip + 1 }),
          setStream stream (fun x => { x with lost := x.lost + 1 }), mirrorDirectory]
      else
        seqs [loseHistory stream strip,
          when (reason ≤ 4)
            (.seq (setStream stream fun x => { x with lost := x.lost + 1 }) mirrorDirectory)]))

theorem run_stripFails {lane stream strip pass reason : Nat} {refetch : Bool} {s : State} (h : s.fnOn fnDecode = true) :
    (stripFails lane stream strip pass reason refetch).run s
      = (failureFollows lane stream strip pass reason refetch ((s.stream? stream).any (·.streamed))).run
        ((failNote stream strip reason).run s) := by
  rw [stripFails, Act.run_read, run_ite_of_not (by simp [h]), Act.run_seq]
  rfl

theorem calm_failureFollows (lane stream strip pass reason : Nat) (refetch streamed : Bool) :
    (failureFollows lane stream strip pass reason refetch streamed).All (Prim.Calm fun k => ¬LastFailure k) := by
  have hdir : mirrorDirectory.All (Prim.Calm fun k => ¬LastFailure k) :=
    calm_mirrorDirectory (by decide) (by decide) (by decide) (by decide)
  exact ⟨trivial, calm_decodeBehind (by decide) _ _ _, all_ite
    (fun _ => ⟨fun _ => (by decide : ¬LastFailure K.StripsRefetched), trivial,
      all_when fun _ => fun _ => ⟨trivial, calm_sendRefetch _ _⟩, trivial, trivial⟩)
    fun _ => all_ite (fun _ => ⟨trivial, trivial, hdir, trivial⟩)
      fun _ => ⟨calm_loseHistory (by decide) _ _, all_when fun _ => ⟨trivial, hdir⟩, trivial⟩⟩

/-- The counter and the event of a failure (R161, R164). -/
def failEvent (reason : Nat) : Act :=
  match reason with
  | 1 => .seq (addTo K.StripCrcFailures 4 1) (raise 32)
  | 6 => raise 40
  | 7 => .skip
  | _ => .seq (addTo K.StripDecodeFailures 4 1) (raise 33)

theorem failNote_eq (stream strip reason : Nat) : failNote stream strip reason
    = seqs [put K.LastFailedStream stream, put K.LastFailedStrip strip, put K.LastFailReason reason, failEvent reason] := rfl

theorem calm_failEvent (reason : Nat) : (seqs [failEvent reason]).All (Prim.Calm fun k => ¬LastFailure k) := by
  refine ⟨?_, trivial⟩
  unfold failEvent
  split
  · exact ⟨fun _ => (by decide : ¬LastFailure K.StripCrcFailures), trivial⟩
  · trivial
  · trivial
  · exact ⟨fun _ => (by decide : ¬LastFailure K.StripDecodeFailures), trivial⟩

theorem failNote_shows (stream strip reason : Nat) (s : State) :
    ((failNote stream strip reason).run s).reg K.LastFailedStream = stream
      ∧ ((failNote stream strip reason).run s).reg K.LastFailedStrip = strip
      ∧ ((failNote stream strip reason).run s).reg K.LastFailReason = reason := by
  have hkept := fun {q : Nat} (hq : LastFailure q) => (calm_failEvent reason).reg_calm (q := q) (not_not_intro hq)
  rw [failNote_eq, run_seqs_cons, run_seqs_cons, run_seqs_cons, hkept (.inl rfl), hkept (.inr (.inl rfl)), hkept (.inr (.inr rfl))]
  simp (decide := true)

theorem lanes_failureFollows (lane stream strip pass reason : Nat) (refetch streamed : Bool) :
    (failureFollows lane stream strip pass reason refetch streamed).All (Prim.Leaves fun u => u.codec.lanes) := by
  have hfits : ∀ {a : Act}, a.All (Prim.Fits (Piece.but .codec)) → a.All (Prim.Leaves fun u => u.codec.lanes) :=
    leaves_codec Codec.lanes
  have hset : ∀ (id : Nat) (f : DecStream → DecStream), (setDec id f).All (Prim.Leaves fun u => u.codec.lanes) := fun _ _ _ => rfl
  have hstream : ∀ (id : Nat) (f : Stream → Stream), (setStream id f).All (Prim.Leaves fun u => u.codec.lanes) := fun _ _ _ => rfl
  have hlose : (loseHistory stream strip).All (Prim.Leaves fun u => u.codec.lanes) := fun s => by
    dsimp only
    split
    · exact ⟨hset _ _, all_when fun _ => ⟨hfits (by simp), fun _ => rfl, hfits (by simp), trivial⟩⟩
    · trivial
  exact ⟨hset _ _, hfits (by simp), all_ite
    (fun _ => ⟨hfits (by simp), hset _ _, hfits (by simp), hfits (by simp), trivial⟩)
    fun _ => all_ite (fun _ => ⟨hset _ _, hstream _ _, hfits (by simp), trivial⟩)
      fun _ => ⟨hlose, all_when fun _ => ⟨hstream _ _, hfits (by simp)⟩, trivial⟩⟩

/-! ### A strip that starts -/

/-- A stream that has no decoding record takes the lowest free slot. -/
theorem run_openDec {stream n : Nat} {b : State} (hnew : b.dec? stream = none) (hfree : b.freeSlot = some n) :
    (openDec stream).run b = { b with codec := { b.codec with decs := b.codec.decs ++ [{ id := stream, slot := n }] } } := by
  rw [openDec, Act.run_read]
  simp only [hnew, hfree]
  rfl

theorem dec_openDec {stream n : Nat} {b : State} (hnew : b.dec? stream = none) (hfree : b.freeSlot = some n) :
    ((openDec stream).run b).dec? stream = some { id := stream, slot := n } := by
  rw [run_openDec hnew hfree, State.dec?, List.find?_append]
  rw [State.dec?] at hnew
  simp [hnew]

/-- The first strip of a stored stream, which shows Flush, is put on the lane. -/
theorem run_startStrip_first {lane stream n a len : Nat} {s : State} {x : Stream} (hx : s.stream? stream = some x)
    (hd : s.dec? stream = some { id := stream, slot := n }) (hst : x.streamed = false) (hstored : s.storedStrip x 0 = some (a, len))
    (hflush : flushByte (s.bytesAt a len) = true) : ∃ keep, (startStrip lane stream 0).run s
      = (loadLane lane keep (LaneWork.mk stream 0 0 false (s.bytesAt a len) len 0 0 0 none {} 0 0) (s.poisoned a len)).run s := by
  refine ⟨(s.lane lane).live.any fun l => l.1 == stream, ?_⟩
  rw [startStrip, Act.run_read]
  simp [hx, hd, hst, hstored, hflush]

/-- Whether the lane's history is dropped. -/
def dropLive (keep : Bool) (stream : Nat) (l : Lane) : Lane :=
  match l.live with
  | some (id, _) => if id = stream && !keep then { l with live := none } else l
  | none => l

theorem loadLane_eq (n : Nat) (keep : Bool) (w : LaneWork) (poisoned : Bool) : loadLane n keep w poisoned = seqs [
    .prim (.codec fun c => { c with lanes := c.lanes.map (dropLive keep w.stream) }),
    setLane n fun l => { l with work := some w, live := if keep then l.live else none },
    advanceLane n poisoned ] := rfl

/-- A lane given its work, where the stream may stall (R149). -/
theorem laneWorks {n stream strip : Nat} {u : State} {f : Lane → Lane} (hn : n < u.codec.lanes.length)
    (hd : (u.dec? stream).isSome = true) (hf : ((f (u.lane n)).work.map fun v => (v.stream, v.strip)) = some (stream, strip))
    (stalls : Bool) :
    (((((seqs [setLane n f, when stalls (raise 37)]).run u).lane n).work.map fun v => (v.stream, v.strip)) = some (stream, strip))
      ∧ (((seqs [setLane n f, when stalls (raise 37)]).run u).dec? stream).isSome = true
      ∧ ((seqs [setLane n f, when stalls (raise 37)]).run u).reg (K.DecodeLaneStream + n) = stream := by
  have hev : (seqs [when stalls (raise 37)]).All (Prim.Fits [.ev]) := by simp
  have hcodec : ∀ s : State, ((seqs [when stalls (raise 37)]).run s).codec = s.codec := codec_kept (by simp)
  obtain ⟨v, hv, hplace⟩ := Option.map_eq_some_iff.mp hf
  have hstream : v.stream = stream := congrArg Prod.fst hplace
  refine ⟨?_, ?_, ?_⟩
  · rw [run_seqs_cons, State.lane, hcodec]
    rw [show ((setLane n f).run u).codec.lanes.getD n {} = ((setLane n f).run u).lane n from rfl, lane_setLane hn, hf]
  · rw [run_seqs_cons, State.dec?, hcodec, decs_setLane]
    exact hd
  · rw [run_seqs_cons, reg_of_fits hev (by decide), setLane_stream hn hv, hstream]

theorem lanes_restart (flush : Bool) (slot stream strip first : Nat) {p : JlsParams} {st : JlsState} (s : State) :
    ((when flush (.seq (writeSlot slot stream strip first p st false) (setDec stream fun d => { d with lost := false }))).run
      s).codec.lanes.length = s.codec.lanes.length := by
  rw [run_when]
  split
  · exact congrArg (fun c => c.2.2.length) (decoding_writeSlot slot stream strip first p st false s)
  · rfl

theorem dec_restart {stream : Nat} {s : State} {d : DecStream} (hd : s.dec? stream = some d) (flush : Bool) (strip first : Nat)
    {slot : Nat} {p : JlsParams} {st : JlsState} :
    (((when flush (.seq (writeSlot slot stream strip first p st false) (setDec stream fun d => { d with lost := false }))).run
      s).dec? stream).isSome = true := by
  rw [run_when]
  split
  · have hdecs : ((writeSlot slot stream strip first p st false).run s).codec.decs = s.codec.decs :=
      congrArg (fun c => c.2.1) (decoding_writeSlot slot stream strip first p st false s)
    rw [Act.run_seq, dec_setDec (by intro d; rfl), dec_congr hdecs, hd]
    rfl
  · rw [hd]
    rfl

/-- The lines that a lane has decoded go to the compositor, and the lane keeps its place in the strip (R149). -/
theorem advanceLane_goes {n : Nat} {s : State} {w : LaneWork} {x : Stream} {d : DecStream} (hn : n < s.codec.lanes.length)
    (hw : (s.lane n).work = some w) (hx : s.stream? w.stream = some x) (hd : s.dec? w.stream = some d) (hlen : 32 ≤ w.got.length)
    (hheader : s.headerReason x d w.strip w.size w.refetch (w.got.take 32) = 0) (poisoned : Bool) :
    ((((advanceLane n poisoned).run s).lane n).work.map fun v => (v.stream, v.strip)) = some (w.stream, w.strip)
      ∧ (((advanceLane n poisoned).run s).dec? w.stream).isSome = true
      ∧ ((advanceLane n poisoned).run s).reg (K.DecodeLaneStream + n) = w.stream := by
  rw [advanceLane, Act.run_read]
  simp only [hw, hx, hd]
  rw [run_ite_of_not (by omega), run_ite_of_not (by simpa using hheader)]
  rw [run_seqs_cons, run_seqs_cons]
  refine laneWorks ?_ ?_ ?hplace _
  case hplace => rfl
  · exact (lanes_restart _ _ _ _ _ s).symm ▸ hn
  · exact dec_restart hd _ _ _

theorem headerReason_congr {s u : State} (h : u.comp = s.comp) (x : Stream) (d : DecStream) (strip size : Nat) (refetch : Bool)
    (l : List Nat) : u.headerReason x d strip size refetch l = s.headerReason x d strip size refetch l := by
  have hdue : ∀ first count, u.flushDue x first count = s.flushDue x first count := fun first count => by
    rw [State.flushDue, State.flushDue, h]
  simp only [State.headerReason, hdue]

/-- A lane that takes a strip whose header is good goes on with it. -/
theorem loadLane_goes {n : Nat} {s : State} {w : LaneWork} {x : Stream} {d : DecStream} (hn : n < s.codec.lanes.length)
    (hx : s.stream? w.stream = some x) (hd : s.dec? w.stream = some d) (hlen : 32 ≤ w.got.length)
    (hheader : s.headerReason x d w.strip w.size w.refetch (w.got.take 32) = 0) (keep poisoned : Bool) :
    ((((loadLane n keep w poisoned).run s).lane n).work.map fun v => (v.stream, v.strip)) = some (w.stream, w.strip)
      ∧ (((loadLane n keep w poisoned).run s).dec? w.stream).isSome = true
      ∧ ((loadLane n keep w poisoned).run s).reg (K.DecodeLaneStream + n) = w.stream := by
  rw [loadLane_eq, run_seqs_cons, run_seqs_cons, run_seqs_cons, run_seqs_nil]
  generalize hu : (Act.prim (.codec fun c => { c with lanes := c.lanes.map (dropLive keep w.stream) })).run s = u
  have hn' : n < u.codec.lanes.length := by
    rw [← hu]
    simpa using hn
  have hcomp : u.comp = s.comp := by rw [← hu]; simp
  have hstreams : u.codec.streams = s.codec.streams := by rw [← hu]; simp
  have hdecs : u.codec.decs = s.codec.decs := by rw [← hu]; simp
  refine advanceLane_goes (x := x) (d := d) (by rw [lanes_setLane]; exact hn') (by rw [lane_setLane hn'])
    ((stream_congr ((streams_setLane _ _ _).trans hstreams) _).trans hx)
    ((dec_congr ((decs_setLane _ _ _).trans hdecs) _).trans hd) hlen ?_ poisoned
  rw [headerReason_congr ((comp_kept (by simp) u).trans hcomp)]
  exact hheader

theorem strip_starts (t lane stream n a len : Nat) (x : Stream) :
    lane < 32 → x.streamed = false → 32 ≤ len →
    Completes (.stripDecodeStart t lane stream 0) t
      (fun b => b.fnOn fnDecode = true ∧ b.flag K.DramTrained = true ∧ b.codec.lanes.length = 32
        ∧ (b.lane lane).work = none ∧ (b.lane lane).retired = false
        ∧ (∀ k, k < 32 → ∀ w, (b.lane k).work = some w → w.stream ≠ stream)
        ∧ b.stream? stream = some x ∧ b.dec? stream = none ∧ b.freeSlot = some n
        ∧ b.storedStrip x 0 = some (a, len) ∧ flushByte (b.bytesAt a len) = true
        ∧ b.headerReason x { id := stream, slot := n } 0 len false ((b.bytesAt a len).take 32) = 0)
      fun _ u => ((u.lane lane).work.map fun w => (w.stream, w.strip)) = some (stream, 0)
        ∧ (u.dec? stream).isSome = true ∧ u.reg (K.DecodeLaneStream + lane) = stream :=
  fun hl hst hlen => completes_of (fun _ => rfl) fun b _ ⟨hon, htrained, hlanes, hidle, hfit, hbusy, hx, hnew, hfree, hstored, hflush, hheader⟩ => by
    have hbusy' : ((List.range 32).any fun k => (b.lane k).work.any fun w => w.stream == stream) = false := by
      refine List.any_eq_false.mpr fun k hk hw => ?_
      cases hsome : (b.lane k).work with
      | none => simp [hsome] at hw
      | some w => exact hbusy k (List.mem_range.mp hk) w hsome (by simpa [hsome] using hw)
    rw [Act.run_read]
    dsimp only
    rw [run_ite_of_not (by simp [hon, htrained, hidle, hfit, hbusy', hnew]; omega), Act.run_seq]
    have hdec := dec_openDec hnew hfree
    have hrun := run_openDec hnew hfree
    obtain ⟨keep, hstart⟩ := run_startStrip_first (lane := lane) (s := (openDec stream).run b) (x := x) (by rw [hrun]; exact hx)
      hdec hst (by rw [hrun]; exact hstored) (by rw [hrun]; exact hflush)
    rw [hstart]
    have hgot : ((openDec stream).run b).bytesAt a len = b.bytesAt a len := by rw [hrun]; rfl
    rw [hgot]
    obtain ⟨hplace, hrecord, hshown⟩ := loadLane_goes (n := lane) (s := (openDec stream).run b)
      (w := LaneWork.mk stream 0 0 false (b.bytesAt a len) len 0 0 0 none {} 0 0) (x := x) (by rw [hrun]; exact hlanes ▸ hl)
      (by rw [hrun]; exact hx) hdec (by simpa [State.bytesAt] using hlen)
      ((headerReason_congr (by rw [hrun]) ..).trans hheader) keep (((openDec stream).run b).poisoned a len)
    exact ⟨by simpa [State.lane] using hplace, by simpa [State.dec?] using hrecord, by simpa using hshown⟩

theorem strip_passes (t lane : Nat) (w : LaneWork) (x : Stream) (d : DecStream) :
    lane < 32 → w.verdict = some 0 → x.streamed = false →
    Completes (.stripDecodeEnd t lane) t
      (fun b => b.codec.lanes.length = 32 ∧ (b.lane lane).work = some w ∧ b.stream? w.stream = some x
        ∧ b.dec? w.stream = some d)
      fun b u => (u.lane lane).work = none ∧ u.reg K.StripsDecoded = (b.reg K.StripsDecoded + 1) % 2 ^ 64
        ∧ u.reg K.RawLinesDecoded = (b.reg K.RawLinesDecoded + w.raws) % 2 ^ 64
        ∧ (u.dec? w.stream).map (·.next) = some (w.strip + 1) :=
  fun hl hv hst => completes_of (execStripDecodeEnd_eq t lane) fun b _ ⟨hlen, hw, hx, hd⟩ => by
    have hstored : ((b.stream? w.stream).any (·.streamed) && !w.refetch) = false := by simp [hx, hst]
    rw [run_stripEndAct hw hv, stripEnds, run_seqs_cons, run_seqs_cons, hstored, run_when_false, run_seqs_cons, run_seqs_nil,
      if_pos rfl]
    generalize hu : (addTo K.RawLinesDecoded 8 w.raws).run b = u
    have hcodec : u.codec = b.codec := by rw [← hu]; simp
    obtain ⟨hidle, hstrips, hraw, hnext⟩ := stripPasses_shows (n := lane) (s := u) (w := w) (x := x) (d := d)
      (by rw [hcodec]; omega) ((stream_congr (by rw [hcodec]) _).trans hx) ((dec_congr (by rw [hcodec]) _).trans hd)
    refine ⟨by simpa [State.lane] using hidle, ?_, ?_, by simpa [State.dec?] using hnext⟩
    · rw [State.notifySend_reg, hstrips, ← hu]
      simp (decide := true)
    · rw [State.notifySend_reg, hraw, ← hu]
      simp

theorem strip_fails (t lane v : Nat) (w : LaneWork) :
    lane < 32 → w.verdict = some v → v ≠ 0 →
    Completes (.stripDecodeEnd t lane) t
      (fun b => b.codec.lanes.length = 32 ∧ (b.lane lane).work = some w ∧ b.fnOn fnDecode = true)
      fun _ u => (u.lane lane).work = none ∧ u.reg K.LastFailedStream = w.stream ∧ u.reg K.LastFailedStrip = w.strip
        ∧ u.reg K.LastFailReason = v :=
  fun hl hv hbad => completes_of (execStripDecodeEnd_eq t lane) fun b _ ⟨hlen, hw, hon⟩ => by
    rw [run_stripEndAct hw hv, stripEnds, run_seqs_cons, run_seqs_cons, run_seqs_cons, run_seqs_nil, if_neg hbad, run_seqs_cons]
    generalize hu : (when ((b.stream? w.stream).any (·.streamed) && !w.refetch) (popStrip w.stream)).run
      ((addTo K.RawLinesDecoded 8 w.raws).run b) = u
    have hlanes : u.codec.lanes = b.codec.lanes := by
      have hpop : (when ((b.stream? w.stream).any (·.streamed) && !w.refetch) (popStrip w.stream)).All
        (Prim.Leaves fun u => u.codec.decoding) := all_when fun _ => leaves_popStrip _
      rw [← hu]
      have hkept : _ = _ := congrArg (fun c => c.2.2) (hpop.leaves ((addTo K.RawLinesDecoded 8 w.raws).run b))
      exact hkept.trans (by simp [Codec.decoding])
    have hstatus : u.reg (K.FunctionStatus + (fnDecode - 1)) = b.reg (K.FunctionStatus + (fnDecode - 1)) := by
      rw [← hu, reg_of_fits (l := [.mem, .codec]) (by simp) (by decide)]
      simp (decide := true)
    obtain ⟨hstatusNe, hstreamNe⟩ := laneKey_ne_status lane
    rw [run_seqs_cons, run_seqs_cons, run_seqs_nil]
    generalize hv' : (setDec w.stream _).run ((leaveLane lane none).run u) = v'
    have hidle : (v'.lane lane).work = none := by
      rw [← hv']
      exact leaveLane_idle (by rw [hlanes]; omega) none
    have hon' : v'.fnOn fnDecode = true := by
      rw [← hv', State.fnOn]
      show ((leaveLane lane none).run u).reg _ == 1
      rw [(calm_leaveLane hstatusNe hstreamNe (by decide) (by decide) none).reg_other, hstatus]
      exact hon
    rw [run_stripFails hon']
    obtain ⟨hstream, hstrip, hreason⟩ := failNote_shows w.stream w.strip v v'
    have hcalm := calm_failureFollows lane w.stream w.strip w.pass v w.refetch ((v'.stream? w.stream).any (·.streamed))
    refine ⟨?_, ?_, ?_, ?_⟩
    · have hkept := (lanes_failureFollows lane w.stream w.strip w.pass v w.refetch
        ((v'.stream? w.stream).any (·.streamed))).leaves ((failNote w.stream w.strip v).run v')
      have hnote : ((failNote w.stream w.strip v).run v').codec = v'.codec := codec_kept (by simp) v'
      rw [hnote] at hkept
      rw [State.lane, State.notifySend_codec, hkept]
      exact hidle
    · rw [State.notifySend_reg, hcalm.reg_calm (not_not_intro (.inl rfl)), hstream]
    · rw [State.notifySend_reg, hcalm.reg_calm (not_not_intro (.inr (.inl rfl))), hstrip]
    · rw [State.notifySend_reg, hcalm.reg_calm (not_not_intro (.inr (.inr rfl))), hreason]

theorem decode_resumes (t lane : Nat) (w : LaneWork) (x : Stream) (d : DecStream) (c : Chain) :
    lane < 32 → w.verdict = none →
    w.refetch = false →
    Completes (.decodeResume t lane) t
      (fun b => b.islandReady islCODEC = true ∧ b.codec.lanes.length = 32 ∧ (b.lane lane).work = some w
        ∧ b.stream? w.stream = some x ∧ b.dec? w.stream = some d ∧ b.chain? w.stream = some c
        ∧ (b.takeStrip c).1 ≠ [] ∧ (w.got ++ (b.takeStrip c).1).length < 32)
      fun b u => (u.lane lane).work = some { w with got := w.got ++ (b.takeStrip c).1 } ∧ b.raised [37] u :=
  fun hl hopen hretry => completes_of (fun _ => rfl) fun b _ ⟨hcodec, hlen, hw, hx, hd, hc, hgot, hshort⟩ => by
    rw [Act.run_read, hcodec, run_when_true]
    obtain ⟨hwork, hraised⟩ := resumeLane_stalls (by omega) hw hopen hretry hx hd hc hgot hshort
    exact ⟨by simpa [State.lane] using hwork, raised_notifySend.mpr hraised⟩

theorem spool_resumes (t lane : Nat) (wr : Wr) (w : LaneWork) (x : Stream) (d : DecStream) (c : Chain) :
    lane < 32 → w.verdict = none →
    w.refetch = false →
    Completes (.inputSpoolResume t lane wr) t
      (fun b => b.takes 0x2413 (lane + 1) wr 1 ∧ b.codec.lanes.length = 32 ∧ (b.lane lane).work = some w
        ∧ b.stream? w.stream = some x ∧ b.dec? w.stream = some d ∧ b.chain? w.stream = some c
        ∧ (b.takeStrip c).1 ≠ [] ∧ (w.got ++ (b.takeStrip c).1).length < 32)
      fun b u => (u.lane lane).work = some { w with got := w.got ++ (b.takeStrip c).1 } ∧ b.raised [37] u :=
  fun hl hopen hretry => completes_write (fun _ => rfl) fun b ⟨htake, hlen, hw, hx, hd, hc, hgot, hshort⟩ => by
    obtain ⟨hwork, hraised⟩ := resumeLane_stalls (by omega) hw hopen hretry hx hd hc hgot hshort
    exact ⟨1, resumeLane lane, htake, rfl, by simpa [State.lane] using hwork, raised_write hraised _⟩

/-- Settles O16: a strip that starts, ends or resumes leaves the other strips' lanes and records. -/
theorem decodeCompletes : Obligations.DecodeCompletes :=
  ⟨strip_starts, strip_passes, strip_fails, decode_resumes, spool_resumes⟩

end Sys2Proof.Machine
end

section
/-! # Encode lanes: commands, flushes and the resumption of a stalled one (R155–R158) -/

namespace Sys2Proof.Machine

/-! ### An encode lane -/

theorem enc_setEnc {n : Nat} {s : State} (h : n < s.codec.encs.length) (f : Enc → Enc) : ((setEnc n f).run s).enc n = f (s.enc n) := by
  simp [setEnc, State.enc, List.getD_eq_getElem?_getD, h]

/-- What a change of a lane gives it whether the lane is there or not, the default's own value. -/
theorem enc_setEnc_any {α : Type} {g : Enc → α} {f : Enc → Enc} {v : α} (hf : ∀ e, g (f e) = v) (hdef : g {} = v) (n : Nat)
    (s : State) : g (((setEnc n f).run s).enc n) = v := by
  simp only [setEnc, State.enc, List.getD_eq_getElem?_getD, Act.run_prim, Prim.apply_codec, getElem?_modAt, if_pos]
  cases s.codec.encs[n]? with
  | none => exact hdef
  | some e => exact hf e

theorem enc_setEnc_keeps {α : Type} {g : Enc → α} {f : Enc → Enc} (hf : ∀ e, g (f e) = g e) (n : Nat) (s : State) :
    g (((setEnc n f).run s).enc n) = g (s.enc n) := by
  simp only [setEnc, State.enc, List.getD_eq_getElem?_getD, Act.run_prim, Prim.apply_codec, getElem?_modAt, if_pos]
  cases s.codec.encs[n]? with
  | none => rfl
  | some e => exact hf e

theorem enc_congr {s u : State} (h : u.codec = s.codec) (n : Nat) : u.enc n = s.enc n := by rw [State.enc, State.enc, h]

theorem encStatus_setEnc (n : Nat) (f : Enc → Enc) (s : State) : ((setEnc n f).run s).encStatus n = s.encStatus n := by
  simp [setEnc, State.encStatus]

/-- The registers of an encode lane that its work changes. -/
theorem encKeys_ne_ctl (n : Nat) : K.EncodeStatus + n ≠ ctlKey ∧ K.EncodeBitsOut + n ≠ ctlKey ∧ K.EncodeRawLines + n ≠ ctlKey := by
  simp only [K.EncodeStatus, K.EncodeBitsOut, K.EncodeRawLines, ctlKey]
  omega

theorem calm_encodeOut {P : Nat → Prop} {n : Nat} (hs : P (K.EncodeStatus + n)) (hb : P (K.EncodeBitsOut + n)) (l : List Nat) :
    (encodeOut n l).All (Prim.Calm P) := by
  simp [encodeOut, writeDram, clearPoison, setEnc, hs, hb]

theorem calm_emitStrip {P : Nat → Prop} {n : Nat} (hs : P (K.EncodeStatus + n)) (hb : P (K.EncodeBitsOut + n)) :
    (emitStrip n).All (Prim.Calm P) := fun _ => ⟨trivial, calm_encodeOut hs hb _⟩

theorem calm_encodeOne {P : Nat → Prop} {n : Nat} (hs : P (K.EncodeStatus + n)) (hb : P (K.EncodeBitsOut + n))
    (hr : P (K.EncodeRawLines + n)) : (encodeOne n).All (Prim.Calm P) := fun _ =>
  ⟨all_when fun _ => fun _ => hr, trivial, all_when fun _ => calm_emitStrip hs hb, trivial⟩

theorem calm_encodeRun {P : Nat → Prop} {n : Nat} (hs : P (K.EncodeStatus + n)) (hb : P (K.EncodeBitsOut + n))
    (hr : P (K.EncodeRawLines + n)) (fuel : Nat) (until' : Option Nat) : (encodeRun fuel n until').All (Prim.Calm P) := by
  induction fuel with
  | zero => trivial
  | succ fuel ih => exact fun s => all_ite (fun _ => trivial) fun _ => ⟨calm_encodeOne hs hb hr, ih⟩

theorem calm_encodeTo {P : Nat → Prop} {n : Nat} (hs : P (K.EncodeStatus + n)) (hb : P (K.EncodeBitsOut + n))
    (hr : P (K.EncodeRawLines + n)) (until' : Option Nat) : (encodeTo n until').All (Prim.Calm P) :=
  fun _ => calm_encodeRun hs hb hr _ until'

theorem ctl_encodeTo (n : Nat) (until' : Option Nat) (s : State) : ((encodeTo n until').run s).reg ctlKey = s.reg ctlKey := by
  obtain ⟨hs, hb, hr⟩ := encKeys_ne_ctl n
  exact (calm_encodeTo hs hb hr until').reg_other s

/-! ### A command -/

/-- The counters of a lane's command start at 0. -/
def encodeZero (n : Nat) : Act := seqs [put (K.EncodeBitsOut + n) 0, put (K.EncodeRawLines + n) 0]

/-- A command whose state slot does not hold the stream's state faults (R156). -/
def encodeFaults (n : Nat) : Act := seqs [encodeZero n, put (K.EncodeStatus + n) encFault, raise 40]

/-- A command begins (R155). -/
def encodeBegins (n v : Nat) (b : State) : Act :=
  let e : Enc := { cmd := leBytes 48 v }
  let next := if bit e.flags 1 then b.slotNext e.stateSlot else (field e.cmd 36 4, field e.cmd 40 4)
  let st := if bit e.flags 1 && !bit e.flags 0 then b.slotState e.stateSlot else e.params.fresh e.width
  seqs [
    encodeZero n,
    setEnc n (fun _ => { e with
      st := st, strip := next.1, first := next.2, flush := bit e.flags 0, desc := field e.cmd 8 8,
      at' := b.now + if bit e.flags 1 then 320 else 0 }),
    put (K.EncodeStatus + n) encRunning ]

/-- What an accepted command does. -/
def encodeWork (n v : Nat) (b : State) : Act :=
  if bit ({ cmd := leBytes 48 v } : Enc).flags 1 && !b.slotHolds ({ cmd := leBytes 48 v } : Enc).stateSlot
    ({ cmd := leBytes 48 v } : Enc).stream then encodeFaults n else encodeBegins n v b

theorem effEncode_of {b : State} {n v : Nat} {w : Wr} (hw : w.val = v) (hidle : b.encStatus n ≠ encRunning)
    (hstall : b.encStatus n ≠ encStalled) (hon : b.fnOn fnEncode = true) (hvalid : encodeValid { cmd := leBytes 48 v } = true) :
    effEncode n b w = accept (encodeWork n v b) := by
  subst hw
  rw [effEncode]
  dsimp only
  rw [if_neg (by simp [hidle, hstall, hon]), if_neg (by simp [hvalid]), encodeWork]
  split
  · rfl
  · rfl

theorem encKeys_apart (n : Nat) : K.EncodeBitsOut + n ≠ K.EncodeRawLines + n ∧ K.EncodeBitsOut + n ≠ K.EncodeStatus + n
    ∧ K.EncodeRawLines + n ≠ K.EncodeStatus + n := by
  simp only [K.EncodeStatus, K.EncodeBitsOut, K.EncodeRawLines]
  omega

theorem fits_encodeWork (n v : Nat) (b : State) : (encodeWork n v b).All (Prim.Fits [.dict, .ev, .codec]) := by
  unfold encodeWork
  split
  · simp [encodeFaults, encodeZero]
  · simp [encodeBegins, encodeZero]

theorem calm_encodeWork (n v : Nat) (b : State) :
    (encodeWork n v b).All (Prim.Calm (· ∈ [K.EncodeBitsOut + n, K.EncodeRawLines + n, K.EncodeStatus + n])) := by
  unfold encodeWork
  split
  · simp [encodeFaults, encodeZero]
  · simp [encodeBegins, encodeZero, setEnc]

theorem encodeWork_zero (n v : Nat) (b : State) : ((encodeWork n v b).run b).reg (K.EncodeBitsOut + n) = 0
    ∧ ((encodeWork n v b).run b).reg (K.EncodeRawLines + n) = 0 := by
  obtain ⟨hbr, hbs, hrs⟩ := encKeys_apart n
  unfold encodeWork
  split
  · simp [encodeFaults, encodeZero]
  · simp [encodeBegins, encodeZero, setEnc]

theorem encodeFaults_shows (n : Nat) (b : State) : ((encodeFaults n).run b).encStatus n = encFault
    ∧ b.raised [40] ((encodeFaults n).run b) ∧ ((encodeFaults n).run b).codec = b.codec := by
  obtain ⟨hs, hb, hr⟩ := encKeys_ne_ctl n
  refine ⟨by simp [encodeFaults, State.encStatus], ?_, codec_kept (by simp [encodeFaults, encodeZero]) b⟩
  exact raised_among (l₁ := [_, _]) (l₂ := []) (P := fun _ => True) (by simp [encodeZero, hs, hb, hr])
    (fun s _ => raised_raise rfl s) trivial

theorem encodeBegins_shows {n v : Nat} {b : State} (h : n < b.codec.encs.length) :
    ((encodeBegins n v b).run b).encStatus n = encRunning ∧ (((encodeBegins n v b).run b).enc n).cmd = leBytes 48 v
      ∧ (((encodeBegins n v b).run b).enc n).done = 0 := by
  have hlen : n < ((encodeZero n).run b).codec.encs.length := by simpa [encodeZero] using h
  have hput : ∀ u : State, ((put (K.EncodeStatus + n) encRunning).run u).enc n = u.enc n := fun u => rfl
  refine ⟨by simp [encodeBegins, State.encStatus], ?_, ?_⟩
  · rw [encodeBegins, run_seqs_cons, run_seqs_cons, run_seqs_cons, run_seqs_nil, hput, enc_setEnc hlen]
  · rw [encodeBegins, run_seqs_cons, run_seqs_cons, run_seqs_cons, run_seqs_nil, hput, enc_setEnc hlen]

theorem encodeCommand_completes (t lane v : Nat) (w : Wr) :
    lane < 4 →
    Completes (.encodeCommand t lane w) t
      (fun b => b.takes 0x2420 (lane + 1) w v ∧ lane < b.codec.encs.length ∧ b.encStatus lane ≠ encRunning
        ∧ b.encStatus lane ≠ encStalled ∧ b.fnOn fnEncode = true ∧ encodeValid { cmd := leBytes 48 v } = true)
      fun b u =>
        let e : Enc := { cmd := leBytes 48 v }
        let lacks := bit e.flags 1 && !b.slotHolds e.stateSlot e.stream
        u.reg (K.EncodeBitsOut + lane) = 0 ∧ u.reg (K.EncodeRawLines + lane) = 0
        ∧ (lacks = true → u.encStatus lane = encFault ∧ b.raised [40] u ∧ u.codec = b.codec)
        ∧ (lacks = false → u.encStatus lane = encRunning ∧ (u.enc lane).cmd = leBytes 48 v ∧ (u.enc lane).done = 0)
        ∧ b.regsBut [K.EncodeBitsOut + lane, K.EncodeRawLines + lane, K.EncodeStatus + lane] u
        ∧ b.only [.dict, .ev, .codec] u :=
  fun hl => completes_write (fun _ => rfl) fun b ⟨htake, hlen, hidle, hstall, hon, hvalid⟩ => by
    obtain ⟨hbits, hraws⟩ := encodeWork_zero lane v b
    refine ⟨v, encodeWork lane v b, htake, effEncode_of rfl hidle hstall hon hvalid, by simpa using hbits, by simpa using hraws,
      fun hlacks => ?_, fun hholds => ?_, regsBut_write (calm_encodeWork lane v b) _ b, only_write (fits_encodeWork lane v b) _ b⟩
    · obtain ⟨hstatus, hraised, hcodec⟩ := encodeFaults_shows lane b
      rw [encodeWork, if_pos hlacks]
      exact ⟨by simpa [State.encStatus] using hstatus, raised_write hraised _, by simpa using hcodec⟩
    · obtain ⟨hstatus, hcmd, hdone⟩ := encodeBegins_shows (v := v) hlen
      rw [encodeWork, if_neg (by simp [hholds])]
      exact ⟨by simpa [State.encStatus] using hstatus, by simpa [State.enc] using hcmd, by simpa [State.enc] using hdone⟩

/-! ### The end of a command and of a flush -/

/-- A command's lines are all encoded (R156, R158). -/
def encodeEnds (n : Nat) (s : State) : Act :=
  let e := s.enc n
  seqs [
    .prim (.store (e.desc + 24) 1 (setBit (Memory.value s.mem (e.desc + 24) 1) 1 true)),
    when (bit e.flags 2) (writeSlot e.stateSlot e.stream e.strip e.first e.params e.st false),
    put (K.EncodeStatus + n) encDone,
    raise 43 ]

theorem encodeDone_completes (t lane : Nat) :
    lane < 4 →
    Completes (.encodeDone t lane) t
      (fun b =>
        let r := (encodeTo lane none).run b
        b.encStatus lane = encRunning ∧ (b.enc lane).short = false ∧ r.encStatus lane = encRunning
        ∧ (r.enc lane).done = (r.enc lane).lineCount)
      fun b u => u.encStatus lane = encDone ∧ b.raised [43] u ∧ b.only [.mem, .dict, .ev, .codec, .dram] u :=
  fun hl => completes_of (fun _ => rfl) fun b _ ⟨hrun, hshort, hrun', hdone⟩ => by
    have honly := only_sent_of_fits (l := [.mem, .dict, .ev, .codec, .dram]) (a := .seq (encodeTo lane none) (.read (encodeEnds lane)))
      (by simp [encodeEnds]) b
    rw [Act.run_read, run_ite_of_not (by simp [hrun, hshort]; omega), Act.run_seq, Act.run_read]
    dsimp only
    rw [run_ite_of_not (by simp [hrun', hdone])]
    refine ⟨by simp [State.encStatus], raised_notifySend.mpr (raised_after (ctl_encodeTo lane none b) ?_), honly⟩
    have hversion : versionKey 0x5402 ≠ ctlKey := by decide
    exact raised_among (l₁ := [_, _, _]) (l₂ := []) (P := fun _ => True)
      ⟨trivial, all_when fun _ => ⟨trivial, trivial, calm_bumpVersion hversion, trivial⟩, (encKeys_ne_ctl lane).1, trivial⟩
      (fun s _ => raised_raise rfl s) trivial

theorem flushRequest_completes (t lane : Nat) (w : Wr) :
    lane < 4 →
    Completes (.flushRequest t lane w) t
      (fun b =>
        let r := (encodeTo lane (some b.now)).run b
        b.takes 0x2422 (lane + 1) w 1 ∧ b.encStatus lane = encRunning ∧ r.encStatus lane = encRunning
        ∧ lane < r.codec.encs.length)
      fun b u =>
        let e := ((encodeTo lane (some b.now)).run b).enc lane
        u.enc lane = (if e.count = 0 then { e with flush := true, st := e.params.fresh e.width }
          else { e with short := true }) ∧ b.only [.mem, .dict, .ev, .codec, .dram] u :=
  fun hl => completes_write (fun _ => rfl) fun b ⟨htake, hrun, hrun', hlen⟩ => by
    refine ⟨1, .seq (encodeTo lane (some b.now)) (setEnc lane fun e =>
      if e.count = 0 then { e with flush := true, st := e.params.fresh e.width } else { e with short := true }), htake, ?_, ?_,
      only_write (by simp) _ b⟩
    · rw [effFlush]
      dsimp only
      rw [if_neg (by decide), if_neg (by simp [hrun]), if_neg (by simp [hrun'])]
    · rw [enc_congr (State.notifySend_codec _), enc_congr (answer_codec _ _ _), Act.run_seq, enc_setEnc hlen]

theorem flushDone_completes (t lane : Nat) :
    lane < 4 →
    Completes (.flushDone t lane) t
      (fun b =>
        let r := (when ((b.enc lane).count != 0) (emitStrip lane)).run b
        (b.enc lane).short = true ∧ (b.enc lane).held = [] ∧ (r.enc lane).held = [])
      fun b u => (u.enc lane).short = false ∧ b.raised [41] u ∧ b.only [.mem, .dict, .ev, .codec, .dram] u :=
  fun hl => completes_of (fun _ => rfl) fun b _ ⟨hshort, hheld, hheld'⟩ => by
    have honly := only_sent_of_fits (l := [.mem, .dict, .ev, .codec, .dram])
      (a := .seq (when ((b.enc lane).count != 0) (emitStrip lane)) (.seq (setEnc lane fun e => { e with short := false }) (raise 41)))
      (by simp) b
    have hctl : ((when ((b.enc lane).count != 0) (emitStrip lane)).run b).reg ctlKey = b.reg ctlKey := by
      obtain ⟨hs, hb, -⟩ := encKeys_ne_ctl lane
      exact Act.All.reg_other (all_when fun _ => calm_emitStrip hs hb) b
    rw [Act.run_read, run_ite_of_not (by simp [hshort, hheld]; omega), Act.run_seq, Act.run_read, hheld', List.isEmpty_nil, run_when_true]
    refine ⟨?_, raised_notifySend.mpr (raised_after hctl ?_), honly⟩
    · rw [enc_congr (State.notifySend_codec _), Act.run_seq, enc_congr (codec_kept (by simp) _)]
      exact enc_setEnc_any (g := Enc.short) (by intro e; rfl) rfl lane _
    · rw [Act.run_seq]
      exact raised_after (reg_of_fits (l := [.codec]) (by simp) (by decide) _ ctlKey) (raised_raise (by decide) _)

theorem spoolResume_completes (t lane : Nat) (w : Wr) :
    lane < 4 →
    Completes (.spoolResume t lane w) t
      (fun b =>
        let r := (encodeOut lane (b.enc lane).held).run b
        b.takes 0x2423 (lane + 1) w 1 ∧ b.encStatus lane = encStalled ∧ (r.enc lane).held = [])
      fun b u => u.encStatus lane = encRunning ∧ (u.enc lane).held = []
        ∧ b.only [.mem, .dict, .ev, .codec, .dram] u :=
  fun hl => completes_write (fun _ => rfl) fun b ⟨htake, hstall, hheld⟩ => by
    refine ⟨1, .seq (encodeOut lane (b.enc lane).held) (.read fun s => when ((s.enc lane).held.isEmpty)
      (seqs [setEnc lane fun e => { e with at' := max e.at' s.now }, lineWithdrawn (4 + lane),
        put (K.EncodeStatus + lane) encRunning])), htake, ?_, ?_, ?_, only_write (by simp) _ b⟩
    · rw [effSpoolResume, hstall]
      rfl
    all_goals
      rw [Act.run_seq, Act.run_read, hheld, List.isEmpty_nil, run_when_true]
    · simp [State.encStatus]
    · rw [enc_congr (State.notifySend_codec _), enc_congr (answer_codec _ _ _), run_seqs_cons, enc_congr (codec_kept (by simp) _)]
      exact (enc_setEnc_keeps (g := Enc.held) (by intro e; rfl) lane _).trans hheld

/-- Settles O17: what a lane encodes on the way changes its own entries and the spool alone. -/
theorem encodeCompletes : Obligations.EncodeCompletes :=
  ⟨encodeCommand_completes, encodeDone_completes, flushRequest_completes, flushDone_completes, spoolResume_completes⟩

end Sys2Proof.Machine
end

section
/-! # What a sample of the master drives (R20, R47–R49, R234, R295, R348, R454) -/

namespace Sys2Proof.Machine

/-- The register stands outside the pages of the position unit, 0x2300 to 0x23FF. -/
abbrev OffPosition (k : Nat) : Prop := k < 0x230000 ∨ 0x240000 ≤ k

/-- A change that the master drives in another unit: of no register of the position unit, and an inner one. -/
@[simp] def Prim.Driven (p : Prim) : Prop := p.Calm OffPosition ∧ p.Inner

theorem Prim.Driven.calm {p : Prim} (h : p.Driven) : p.Calm OffPosition := h.1

theorem Prim.Driven.inner {p : Prim} (h : p.Driven) : p.Inner := h.2

theorem driven_of {a : Act} (h : a.All (Prim.Calm OffPosition)) (h' : a.All Prim.Inner) : a.All Prim.Driven :=
  Act.All.both (fun _ hp hq => ⟨hp, hq⟩) h h'

theorem driven_syncLoop : syncLoop.All Prim.Driven := driven_of (calm_syncLoop (by decide)) inner_syncLoop

theorem driven_columnFault (c event : Nat) : (columnFault c event).All Prim.Driven :=
  driven_of (calm_columnFault (by decide) c event) (inner_columnFault c event)

theorem driven_illEvent {n : Nat} (h : OffPosition (K.IlluminationEventString + (n - 176))) (place : Nat) :
    (illEvent n place).All Prim.Driven := driven_of (calm_illEvent h place) (inner_illEvent n place)

theorem driven_setString (n : Nat) (f : Str → Str) : (setString n f).All Prim.Driven :=
  driven_of (calm_setString _ n f) (inner_setString n f)

theorem driven_setCopy (m : Int) (f : Copy → Copy) : (setCopy m f).All Prim.Driven :=
  driven_of (calm_setCopy _ m f) (inner_setCopy m f)

/-! ### Prediction errors -/

theorem driven_measureIssued : measureIssued.All Prim.Driven := fun s => by
  dsimp only
  split
  · simp (decide := true) [settleErrors, driven_setCopy]
  · simp
  · trivial

/-! ### Camera lines -/

theorem offPosition_string {k : Nat} (h : 0x240000 ≤ k) (n : Nat) : OffPosition (stringKey k n) :=
  .inr (by simp only [stringKey]; omega)

theorem offPosition_port {k : Nat} (h : 0x240000 ≤ k) (p : Nat) : OffPosition (portKey k p) :=
  .inr (by simp only [portKey]; omega)

theorem driven_illFrame (mode : Nat) : (illFrame mode).All Prim.Driven := fun _ => by
  have hundiag : ∀ n, (undiagnose n).All Prim.Driven := fun n =>
    ⟨⟨offPosition_string (by decide) n, trivial⟩, driven_setString n _, driven_illEvent (by decide) n, trivial⟩
  refine ⟨fun u => ?_, fun u => ?_, fun u => ?_, trivial⟩
  · dsimp only
    split
    · trivial
    · refine ⟨⟨trivial, trivial⟩, all_each fun n _ => all_ite (fun _ => ⟨⟨offPosition_string (by decide) n, trivial⟩, hundiag n⟩)
        fun _ => ⟨offPosition_string (by decide) n, trivial⟩, all_when fun _ => by simp (decide := true), driven_syncLoop, trivial⟩
  · dsimp only
    split
    · trivial
    · exact ⟨all_each fun p _ => ⟨offPosition_string (by decide) p.1, trivial⟩, ⟨trivial, trivial⟩, trivial⟩
  · refine all_each fun n _ => ?_
    split
    · exact ⟨⟨offPosition_string (by decide) n, trivial⟩, driven_setString n _⟩
    · trivial

theorem driven_coefInForce (p : Nat) (label : Int) : (coefInForce p label).All Prim.Driven := fun s => by
  dsimp only
  split
  · trivial
  · refine all_when fun _ => ?_
    have hversion : ∀ i, 0x2400 ≤ i → OffPosition (versionKey i) := fun i hi => .inr (by simp only [versionKey]; omega)
    exact ⟨⟨trivial, trivial⟩, ⟨trivial, trivial⟩, fun _ => ⟨hversion _ (by omega), trivial⟩,
      fun _ => ⟨hversion _ (by omega), trivial⟩, ⟨offPosition_port (by decide) p, trivial⟩,
      ⟨offPosition_port (by decide) p, trivial⟩, ⟨trivial, trivial⟩, trivial⟩

theorem driven_beginFrame (k : Int) : (beginFrame k).All Prim.Driven := fun _ =>
  ⟨⟨trivial, trivial⟩, all_each fun p _ => ⟨driven_coefInForce p _, trivial, trivial⟩, driven_illFrame _, trivial⟩

theorem driven_illLine (r mode : Nat) (label : Int) (nodes : List Nat) : (illLine r mode label nodes).All Prim.Driven := fun _ => by
  refine all_ite (fun _ => trivial) fun _ => all_ite (fun _ => ?_) fun _ => ?_
  · exact ⟨by simp (decide := true), by simp (decide := true), driven_illEvent (by decide) _, all_when fun _ => all_each fun c _ =>
      ⟨by simp (decide := true), driven_columnFault c 183⟩, trivial⟩
  · simp

theorem driven_cameraLine (k : Int) (nodes : List Nat) : (cameraLine k nodes).All Prim.Driven := fun _ => by
  have htrig : ∀ (ps : List Nat) (w : Nat), (each ps fun p => trigPulse p w).All Prim.Driven := fun ps w => by simp [trigPulse]
  refine all_ite (fun _ => fun u => all_when fun _ => ⟨htrig _ _, trivial, trivial⟩) fun _ =>
    ⟨all_when fun _ => driven_beginFrame k, fun u => ⟨htrig _ _, fun v => ⟨trivial, trivial⟩, driven_illLine _ _ _ _, trivial⟩⟩

theorem driven_cameraLines (p0 p1 : Int) (nodes : List Nat) : (cameraLines p0 p1 nodes).All Prim.Driven := fun _ =>
  all_ite (fun _ => trivial) fun _ =>
    ⟨all_when fun _ => all_each fun k _ => driven_cameraLine k nodes, trivial, trivial⟩

/-! ### Reject output, return at a base, lock and speed -/

theorem driven_rejectEnd (total : Int) : (rejectEnd total).All Prim.Driven := fun s => by
  dsimp only
  split <;> simp [rejectLevel]

theorem driven_rejectFollow (total : Int) : (rejectFollow total).All Prim.Driven := fun _ => by
  refine ⟨by simp, all_each fun p _ => ⟨driven_rejectEnd _, fun u => ?_⟩, driven_rejectEnd _, trivial⟩
  dsimp only
  split <;> simp (decide := true) [rejectLevel]

theorem driven_sendClaim : sendClaim.All Prim.Driven :=
  driven_of (calm_sendClaim _) (by simp [sendClaim, sendPacket, setLink])

theorem driven_returnAtBase : returnAtBase.All Prim.Driven := fun s => by
  refine all_ite (fun _ => ?_) fun _ => ?_
  · simp (decide := true) [gainClaim, mirrorLost, syncPair, driven_sendClaim, driven_syncLoop]
  · split
    · refine all_when fun _ => ?_
      simp (decide := true) [yieldClaim, mirrorLost, syncPair, driven_sendClaim, driven_syncLoop]
    · trivial

theorem driven_lockCheck : lockCheck.All Prim.Driven := by simp [lockCheck]

theorem inner_endService (result : Nat) : (endService result).All Prim.Inner := by simp [endService]

theorem inner_deferredStep : deferredStep.All Prim.Inner := fun s => by
  dsimp only
  split <;> simp

theorem driven_endService (result : Nat) : (endService result).All Prim.Driven :=
  driven_of (calm_endService (by decide) (by decide) result) (inner_endService result)

theorem driven_orderlyStop (reason : Nat) : (orderlyStop reason).All Prim.Driven :=
  driven_of (calm_orderlyStop (by decide) reason)
    (by simp [orderlyStop, markInFlight, inner_endService, setMode, inner_deferredStep])

theorem driven_speedWatch (turned : Bool) : (speedWatch turned).All Prim.Driven := fun s => by
  have hstop : ∀ n, (Act.seq (orderlyStop n) syncLoop).All Prim.Driven := fun n => ⟨driven_orderlyStop n, driven_syncLoop⟩
  have hspeed : ∀ above, (speedEvent above).All Prim.Driven := fun above => by simp [speedEvent]
  dsimp only
  split
  · exact ⟨hspeed _, all_ite (fun _ => hstop 3) fun _ => all_when fun _ => hstop 2⟩
  · refine all_ite (fun _ => ⟨hspeed _, all_ite (fun _ => trivial) fun _ => all_ite (fun _ => driven_endService 2) fun _ =>
      all_ite (fun _ => driven_endService 3) fun _ => all_when fun _ => driven_endService 4⟩) fun _ => ⟨trivial, trivial⟩

/-- What the master drives keeps every register of the position unit and everything sent. -/
theorem driven_masterSample (c : Nat) (was : Chan) (wasTotal : Int) (nodes : List Nat) :
    (masterSample c was wasTotal nodes).All Prim.Driven := fun _ => all_when fun _ =>
  ⟨driven_measureIssued, driven_cameraLines _ _ _, driven_rejectFollow _, driven_returnAtBase, driven_lockCheck,
    driven_speedWatch _, trivial⟩

end Sys2Proof.Machine
end

section
/-! # What a sample and a fault leave of their channel (R102–R112, R128) -/

namespace Sys2Proof.Machine

/-! ### What no boundary, limit, speed or reference changes -/

/-- What stays of a channel's record while position, count, speed and references follow a movement. -/
def Chan.lasting (x : Chan) : Bool × Bool × Int × Option Nat × Option Nat × Option Nat × Bool :=
  (x.a, x.b, x.total, x.angle, x.word, x.serialOpen, x.signalFault)

theorem lasting_wrapForward (x : Chan) : x.wrapForward.lasting = x.lasting := by
  unfold Chan.wrapForward
  dsimp only
  split <;> rfl

theorem lasting_wrapBack (x : Chan) : x.wrapBack.lasting = x.lasting := by
  unfold Chan.wrapBack
  dsimp only
  split <;> rfl

theorem lasting_moveWeb (x : Chan) (d : Int) : (x.moveWeb d).lasting = { x with total := x.total + d }.lasting :=
  (lasting_wrapBack _).trans (lasting_wrapForward _)

theorem lasting_place (x : Chan) (web : Bool) (lim : Int × Int) (v : Int) : (x.place web lim v).lasting = x.lasting := by
  cases web <;> rfl

theorem lasting_edge (x : Chan) (dir : Int) (t span timeout : Nat) (fv : Int) :
    (x.edge dir t span timeout fv).chan.lasting = x.lasting := by
  unfold Chan.edge
  dsimp only
  split
  · rfl
  · split <;> rfl

/-! ### Changes that leave the channels -/

theorem leaves_chans {a : Act} (h : a.All (Prim.Fits (Piece.but .pos))) : a.All (Prim.Leaves fun u => u.pos.chans) :=
  h.mono fun p hp s => congrArg Pos.chans (Prim.only_touches p s .pos fun hm => by simpa using hp.1 _ hm)

theorem leaves_posEvent (n v : Nat) : (posEvent n v).All (Prim.Leaves fun u => u.pos.chans) := leaves_chans (by simp)

theorem leaves_limitEvent (c : Nat) (x y : Chan) : (limitEvent c x y).All (Prim.Leaves fun u => u.pos.chans) :=
  leaves_chans (by simp)

theorem leaves_compareFire (c k : Nat) (x : Chan) (t : Nat) : (compareFire c k x t).All (Prim.Leaves fun u => u.pos.chans) :=
  fun s => ⟨leaves_chans (by simp), leaves_chans (by simp), leaves_chans (by simp),
    all_when fun _ => ⟨fun _ => rfl, leaves_chans (by simp)⟩, leaves_chans (by split <;> simp), trivial⟩

theorem leaves_compareAll (c : Nat) (x y : Chan) (moved : Int) (t : Nat) :
    (compareAll c x y moved t).All (Prim.Leaves fun u => u.pos.chans) := fun s => by
  dsimp only
  split
  · trivial
  · exact ⟨all_each fun k _ => leaves_compareFire c k y t, leaves_posEvent _ _⟩

theorem leaves_emuAll (c : Nat) (boundary : Option Int) : (emuAll c boundary).All (Prim.Leaves fun u => u.pos.chans) :=
  fun _ => all_each fun _ _ _ => ⟨fun _ => rfl, leaves_chans (by simp), leaves_chans (by simp), leaves_chans (by simp), trivial⟩

theorem leaves_masterFollow (c : Nat) (x y : Chan) (d : Int) (t : Nat) :
    (masterFollow c x y d t).All (Prim.Leaves fun u => u.pos.chans) := fun _ => all_ite (fun _ => trivial) fun _ _ => rfl

theorem leaves_masterRetired (was : Chan) : (masterRetired was).All (Prim.Leaves fun u => u.pos.chans) := fun _ =>
  ⟨all_when fun _ _ => rfl, leaves_chans (by simp +contextual [markInFlight, Fire.Sized])⟩

theorem leaves_masterSample (c : Nat) (was : Chan) (total : Int) (nodes : List Nat) :
    (masterSample c was total nodes).All (Prim.Leaves fun u => u.pos.chans) := leaves_chans (by simp)

/-- A tree that leaves the channels leaves each of them. -/
theorem chan_of_leaves {a : Act} (h : a.All (Prim.Leaves fun u => u.pos.chans)) (c : Nat) (s : State) :
    (a.run s).chan c = s.chan c := congrArg (fun l : List Chan => l.getD c {}) (h.leaves s)

/-- A change of a channel that keeps what lasts of it, whether or not the channel is there. -/
theorem lasting_setChan {c : Nat} {f : Chan → Chan} {s : State} (h : (f (s.chan c)).lasting = (s.chan c).lasting) :
    (((setChan c f).run s).chan c).lasting = (s.chan c).lasting := by
  by_cases hc : c < s.pos.chans.length
  · rw [chan_setChan hc, h]
  · simp [setChan, State.chan, List.getD_eq_getElem?_getD, hc]

theorem chanCount_setChan (c : Nat) (f : Chan → Chan) (s : State) :
    ((setChan c f).run s).pos.chans.length = s.pos.chans.length := by simp [setChan]

/-! ### A movement -/

/-- What a movement does to its channel's record (R113–R122). -/
def State.advanced (s : State) (c : Nat) (d : Int) (edge : Bool) (t : Nat) : EdgeResult :=
  let ch0 := s.chan c
  let moved := if s.webMode c then ch0.moveWeb d else ch0.moveAxis (s.softLimits c) d
  let ch1 := { moved with copiesMax := max ch0.copiesMax moved.copies, sampleAt := t, signalFault := false }
  if edge then
    ch1.edge (if 0 ≤ d then 1 else -1) t (s.reg (K.SpeedMinSpan + c)) (s.reg (K.StandstillTimeout + c))
      (signedOf 4 (Config.freeValue s.free))
  else { chan := ch1, reversal := false, drew := false }

theorem lasting_advanced (s : State) (c : Nat) (d : Int) (edge : Bool) (t : Nat) : (s.advanced c d edge t).chan.lasting
    = { s.chan c with total := (s.chan c).total + d, signalFault := false }.lasting := by
  have hmoved : (if s.webMode c then (s.chan c).moveWeb d else (s.chan c).moveAxis (s.softLimits c) d).lasting
      = { s.chan c with total := (s.chan c).total + d }.lasting := by
    split
    · exact lasting_moveWeb _ d
    · rfl
  simp only [Chan.lasting, Prod.mk.injEq] at hmoved
  obtain ⟨ha, hb, htotal, hangle, hword, hopen, -⟩ := hmoved
  unfold State.advanced
  cases edge
  · simp [Chan.lasting, *]
  · rw [if_pos rfl, lasting_edge]
    simp [Chan.lasting, *]

/-- The units that follow a movement of a channel. -/
def advanceTail (s : State) (c : Nat) (d : Int) (edge : Bool) (t : Nat) : List Act :=
  let ch0 := s.chan c
  let web := s.webMode c
  let moved := if web then ch0.moveWeb d else ch0.moveAxis (s.softLimits c) d
  let top := max ch0.copiesMax moved.copies
  let ch1 := { moved with copiesMax := top, sampleAt := t, signalFault := false }
  let e := s.advanced c d edge t
  let boundary : Option Int :=
    if ch1.copies = ch0.copies then none
    else if ch0.copies < ch1.copies then some (ch1.total - ch1.pos)
    else some (ch0.total - ch0.pos)
  [ when e.drew (.prim .fresh),
    when (!web) (limitEvent c ch0 ch1),
    when e.reversal (posEvent 23 c),
    when (e.chan.valid != ch0.valid) (posEvent 31 c),
    masterFollow c ch0 e.chan d t,
    when web (each (List.range (top - ch0.copiesMax).toNat) fun _ => posEvent 18 c),
    compareAll c ch0 e.chan d t,
    emuAll c (if web then boundary else none) ]

theorem advance_eq (c : Nat) (d : Int) (edge : Bool) (t : Nat) :
    advance c d edge t = .read fun s => seqs ((setChan c fun _ => (s.advanced c d edge t).chan) :: advanceTail s c d edge t) :=
  rfl

theorem leaves_advanceTail (s : State) (c : Nat) (d : Int) (edge : Bool) (t : Nat) :
    (seqs (advanceTail s c d edge t)).All (Prim.Leaves fun u => u.pos.chans) :=
  ⟨all_when fun _ => leaves_chans (by simp), all_when fun _ => leaves_limitEvent _ _ _, all_when fun _ => leaves_posEvent _ _,
    all_when fun _ => leaves_posEvent _ _, leaves_masterFollow _ _ _ _ _,
    all_when fun _ => all_each fun _ _ => leaves_posEvent _ _, leaves_compareAll _ _ _ _ _, leaves_emuAll _ _, trivial⟩

theorem chanCount_advance (c : Nat) (d : Int) (edge : Bool) (t : Nat) (s : State) :
    ((advance c d edge t).run s).pos.chans.length = s.pos.chans.length := by
  rw [advance_eq, Act.run_read, run_seqs_cons, (leaves_advanceTail s c d edge t).leaves, chanCount_setChan]

theorem chan_advance {c : Nat} {s : State} (hc : c < s.pos.chans.length) (d : Int) (edge : Bool) (t : Nat) :
    ((advance c d edge t).run s).chan c = (s.advanced c d edge t).chan := by
  rw [advance_eq, Act.run_read, run_seqs_cons, chan_of_leaves (leaves_advanceTail s c d edge t), chan_setChan hc]

theorem lasting_advance {c : Nat} {s : State} (hc : c < s.pos.chans.length) (d : Int) (edge : Bool) (t : Nat) :
    (((advance c d edge t).run s).chan c).lasting
      = { s.chan c with total := (s.chan c).total + d, signalFault := false }.lasting := by
  rw [chan_advance hc, lasting_advanced]

/-! ### References and faults -/

/-- Every run of the tree keeps what lasts of the channel. -/
def Act.KeepsLasting (c : Nat) (a : Act) : Prop := ∀ s : State, ((a.run s).chan c).lasting = (s.chan c).lasting

theorem keepsLasting_of_leaves {a : Act} (h : a.All (Prim.Leaves fun u => u.pos.chans)) (c : Nat) : a.KeepsLasting c :=
  fun s => congrArg Chan.lasting (chan_of_leaves h c s)

theorem keepsLasting_setChan (c : Nat) {f : Chan → Chan} (h : ∀ x, (f x).lasting = x.lasting) : (setChan c f).KeepsLasting c :=
  fun _ => lasting_setChan (h _)

theorem keepsLasting_seqs {c : Nat} {l : List Act} (h : ∀ a ∈ l, a.KeepsLasting c) : (seqs l).KeepsLasting c := by
  induction l with
  | nil => exact fun _ => rfl
  | cons a l ih =>
    exact fun s => (ih (fun b hb => h b (List.mem_cons_of_mem a hb)) _).trans (h a List.mem_cons_self s)

theorem keepsLasting_when {c : Nat} {a : Act} (h : a.KeepsLasting c) (b : Bool) : (when b a).KeepsLasting c := by
  cases b
  · exact fun _ => rfl
  · exact h

theorem keepsLasting_noteInterval (c : Nat) (before : Chan) : (noteInterval c before).KeepsLasting c := fun s =>
  keepsLasting_setChan c (f := fun ch => { ch with interval := before.lastEdge.map fun u => s.now - u }) (by intro x; rfl) s

theorem keepsLasting_referenceCount (c : Nat) (counts : Int) : (referenceCount c counts).KeepsLasting c := fun s => by
  rw [referenceCount, Act.run_read, Act.run_seq,
    keepsLasting_of_leaves (all_when fun _ => leaves_posEvent _ _) c]
  exact lasting_setChan rfl

theorem keepsLasting_referencePoint (c : Nat) (at' : Int) : (referencePoint c at').KeepsLasting c := fun s => by
  rw [referencePoint, Act.run_read, run_seqs_cons]
  refine (keepsLasting_of_leaves (a := seqs [_, _])
    ⟨all_when fun _ => leaves_limitEvent _ _ _, leaves_posEvent _ _, trivial⟩ c _).trans (lasting_setChan ?_)
  split
  · rw [lasting_place]
    rfl
  · rfl

theorem keepsLasting_freezeChannel (c : Nat) : (freezeChannel c).KeepsLasting c := fun s => by
  rw [freezeChannel, Act.run_read, run_seqs_cons]
  exact (keepsLasting_of_leaves (a := seqs [_, _, _])
    ⟨leaves_chans (by simp), leaves_posEvent _ _, all_when fun _ => leaves_posEvent _ _, trivial⟩ c _).trans
    (lasting_setChan rfl)

theorem keepsLasting_channelFault (c ev : Nat) : (channelFault c ev).KeepsLasting c := fun s => by
  have hkeep : ∀ {a : Act}, a.KeepsLasting c → a.Keeps fun u => (u.chan c).lasting = (s.chan c).lasting := fun h u hu =>
    (h u).trans hu
  refine faultOccurrence_keeps (R := fun u => (u.chan c).lasting = (s.chan c).lasting)
    (fun a _ ha u hu => (congrArg Chan.lasting (chan_of_pos (only_of_fits ha u .pos (by simp)) c)).trans hu)
    (keeps_seq (hkeep (keepsLasting_freezeChannel c))
      (keeps_when fun _ => hkeep (keepsLasting_of_leaves (leaves_masterRetired _) c))) _ _ _ _ ?_
  exact keepsLasting_of_leaves (leaves_posEvent ev c) c s

/-- The fault that a sample may charge to its channel. -/
def chargeFault (c : Nat) : Option Nat → Act
  | some ev => channelFault c ev
  | none => .skip

theorem sample_eq (c : Nat) (d : Int) (edge : Bool) (at' : Nat) (nodes : List Nat) (after : Act) (fault : Option Nat) :
    sample c d edge at' nodes after fault = .read fun s => seqs [advance c d edge at', after,
      masterSample c (s.chan c) s.master.total nodes, chargeFault c fault] := by
  cases fault <;> rfl

theorem keepsLasting_chargeFault (c : Nat) (fault : Option Nat) : (chargeFault c fault).KeepsLasting c := by
  cases fault with
  | none => exact fun _ => rfl
  | some ev => exact keepsLasting_channelFault c ev

/-- After a sample, what lasts of the channel is what the changes after the movement leave. -/
theorem lasting_sample (c : Nat) (d : Int) (edge : Bool) (at' : Nat) (nodes : List Nat) (after : Act) (fault : Option Nat)
    (s : State) : (((sample c d edge at' nodes after fault).run s).chan c).lasting
      = ((after.run ((advance c d edge at').run s)).chan c).lasting := by
  rw [sample_eq, Act.run_read, run_seqs_cons, run_seqs_cons, run_seqs_cons]
  exact (keepsLasting_seqs (l := [_]) (by simpa using keepsLasting_chargeFault c fault) _).trans
    (keepsLasting_of_leaves (leaves_masterSample _ _ _ _) c _)

/-- A sample without a fault leaves its channel as the changes after the movement do. -/
theorem chan_sample (c : Nat) (d : Int) (edge : Bool) (at' : Nat) (nodes : List Nat) (after : Act) (s : State) :
    ((sample c d edge at' nodes after none).run s).chan c = (after.run ((advance c d edge at').run s)).chan c := by
  rw [sample_eq, Act.run_read, run_seqs_cons, run_seqs_cons, run_seqs_cons]
  exact chan_of_leaves (leaves_masterSample _ _ _ _) c _

end Sys2Proof.Machine
end

section
/-! # Samples of the position channels (R100–R112, R122) -/

namespace Sys2Proof.Machine

/-! ### Registers that follow a movement -/

/-- A register that a movement or a fault of a channel may set: no flag of CTL's readiness, and none of AnalogueRadius. -/
abbrev Following (k : Nat) : Prop := k ≠ ctlKey ∧ (k < 0x233000 ∨ 0x233100 ≤ k)

/-- A register other than AnalogueRadius. -/
abbrev OffAnalogue (k : Nat) : Prop := k < 0x233000 ∨ 0x233100 ≤ k

theorem Following.ne_ctl : ∀ k, Following k → k ≠ ctlKey := fun _ h => h.1

theorem Following.offAnalogue : ∀ k, Following k → OffAnalogue k := fun _ h => h.2

theorem OffPosition.offAnalogue : ∀ k, OffPosition k → OffAnalogue k := fun k h => by omega

theorem calm_follow_posEvent {n : Nat} (h : n < 32) (v : Nat) : (posEvent n v).All (Prim.Calm Following) :=
  calm_posEvent (P := Following) <| by
    simp only [Following, K.PositionEventChannel, ctlKey]; omega

theorem calm_limitEvent (c : Nat) (x y : Chan) : (limitEvent c x y).All (Prim.Calm Following) :=
  all_when fun _ => calm_follow_posEvent (by decide) c

theorem calm_compareFire (c k : Nat) (x : Chan) (t : Nat) : (compareFire c k x t).All (Prim.Calm Following) := fun s => by
  have htime : Following (K.CompareTime + k) := by simp only [Following, ctlKey, K.CompareTime]; omega
  have hvalue : Following (K.CompareValue + k) := by simp only [Following, ctlKey, K.CompareValue]; omega
  refine ⟨htime, by simp (decide := true), by simp (decide := true), by simp [comparePulse], ?_, trivial⟩
  exact all_ite (fun _ => hvalue) fun _ => by simp (decide := true)

theorem calm_compareAll (c : Nat) (x y : Chan) (moved : Int) (t : Nat) :
    (compareAll c x y moved t).All (Prim.Calm Following) := fun s => by
  dsimp only
  split
  · trivial
  · exact ⟨all_each fun k _ => calm_compareFire c k y t, calm_follow_posEvent (by decide) _⟩

theorem calm_emuAll (c : Nat) (boundary : Option Int) : (emuAll c boundary).All (Prim.Calm Following) := fun _ =>
  all_each fun k _ s => by
    have hback : Following (K.EmulationBacklog + k) := by simp only [Following, ctlKey, K.EmulationBacklog]; omega
    have hdrop : Following (K.EmulationDroppedEdges + k) := by simp only [Following, ctlKey, K.EmulationDroppedEdges]; omega
    exact ⟨trivial, hback, fun _ => hdrop, all_when fun _ => calm_follow_posEvent (by decide) _, trivial⟩

theorem calm_advance (c : Nat) (d : Int) (edge : Bool) (t : Nat) : (advance c d edge t).All (Prim.Calm Following) := fun _ =>
  ⟨trivial, all_when fun _ => trivial, all_when fun _ => calm_limitEvent _ _ _,
    all_when fun _ => calm_follow_posEvent (by decide) _, all_when fun _ => calm_follow_posEvent (by decide) _,
    fun _ => all_ite (fun _ => trivial) fun _ => trivial,
    all_when fun _ => all_each fun _ _ => calm_follow_posEvent (by decide) _, calm_compareAll _ _ _ _ _, calm_emuAll _ _, trivial⟩

theorem calm_freezeChannel (c : Nat) : (freezeChannel c).All (Prim.Calm Following) := fun _ =>
  ⟨trivial, by simp (decide := true), calm_follow_posEvent (by decide) c, all_when fun _ => calm_follow_posEvent (by decide) c, trivial⟩

theorem calm_retireChannel (was : Chan) (wasMaster : Bool) (c : Nat) :
    (retireChannel wasMaster was c).All (Prim.Calm Following) :=
  ⟨calm_freezeChannel c, all_when fun _ _ => ⟨all_when fun _ => trivial, by simp [markInFlight]⟩⟩

theorem calm_channelFault {ev : Nat} (h : ev < 32) (c : Nat) : (channelFault c ev).All (Prim.Calm Following) := fun _ =>
  ⟨calm_follow_posEvent h c, calm_faultOccurrence (by decide) (calm_retireChannel _ _ c) _ _ _⟩

theorem calm_referenceCount (c : Nat) (counts : Int) : (referenceCount c counts).All (Prim.Calm Following) := fun _ =>
  ⟨trivial, all_when fun _ => calm_follow_posEvent (by decide) c⟩

theorem calm_referencePoint (c : Nat) (at' : Int) : (referencePoint c at').All (Prim.Calm Following) := fun _ =>
  ⟨trivial, all_when fun _ => calm_limitEvent _ _ _, calm_follow_posEvent (by decide) c, trivial⟩

/-- A sample keeps AnalogueRadius where the changes after its movement do. -/
theorem calm_sample (c : Nat) (d : Int) (edge : Bool) (at' : Nat) (nodes : List Nat) {after : Act}
    (h : after.All (Prim.Calm OffAnalogue)) {fault : Option Nat} (hf : ∀ ev ∈ fault, ev < 32) :
    (sample c d edge at' nodes after fault).All (Prim.Calm OffAnalogue) := by
  rw [sample_eq]
  refine fun s => ⟨(calm_advance c d edge at').mono fun _ => Prim.Calm.mono Following.offAnalogue, h,
    (driven_masterSample _ _ _ _).mono fun _ hp => hp.calm.mono OffPosition.offAnalogue, ?_, trivial⟩
  cases fault with
  | none => trivial
  | some ev => exact (calm_channelFault (hf ev rfl) c).mono fun _ => Prim.Calm.mono Following.offAnalogue

/-! ### Events and outputs -/

theorem posEvent_raises {n : Nat} (hn : reservedEvent n = false) (v : Nat) (s : State) :
    s.raised [n] ((posEvent n v).run s) :=
  raised_after (u := (put _ v).run s)
    (Act.All.reg_other (a := put (K.PositionEventChannel + (n - 16)) v)
      (show K.PositionEventChannel + (n - 16) ≠ ctlKey by simp only [K.PositionEventChannel, ctlKey]; omega) s)
    (raised_raise hn _)

theorem channelFault_raises {ev : Nat} (hn : reservedEvent ev = false) (h : ev < 32) (c : Nat) (s : State) :
    s.raised [ev] ((channelFault c ev).run s) := by
  obtain ⟨-, hrest⟩ := calm_channelFault h c s
  exact raised_before (posEvent_raises hn c s) hrest

theorem inner_posEvent (n v : Nat) : (posEvent n v).All Prim.Inner := by simp [posEvent]

theorem inner_limitEvent (c : Nat) (x y : Chan) : (limitEvent c x y).All Prim.Inner := all_when fun _ => inner_posEvent _ _

theorem inner_compareAll (c : Nat) (x y : Chan) (moved : Int) (t : Nat) : (compareAll c x y moved t).All Prim.Inner := fun s => by
  dsimp only
  split
  · trivial
  · refine ⟨all_each fun k _ _ => ⟨trivial, trivial, trivial, by simp [comparePulse], ?_, trivial⟩, inner_posEvent _ _⟩
    exact all_ite (fun _ => trivial) fun _ => trivial

theorem inner_advance (c : Nat) (d : Int) (edge : Bool) (t : Nat) : (advance c d edge t).All Prim.Inner := fun _ =>
  ⟨trivial, all_when fun _ => trivial, all_when fun _ => inner_limitEvent _ _ _, all_when fun _ => inner_posEvent _ _,
    all_when fun _ => inner_posEvent _ _, fun _ => all_ite (fun _ => trivial) fun _ => trivial,
    all_when fun _ => all_each fun _ _ => inner_posEvent _ _, inner_compareAll _ _ _ _ _,
    fun _ => all_each fun _ _ _ => ⟨trivial, trivial, fun _ => trivial, all_when fun _ => inner_posEvent _ _, trivial⟩, trivial⟩

theorem inner_retireChannel (was : Chan) (wasMaster : Bool) (c : Nat) : (retireChannel wasMaster was c).All Prim.Inner :=
  ⟨fun _ => ⟨trivial, trivial, inner_posEvent _ _, all_when fun _ => inner_posEvent _ _, trivial⟩,
    all_when fun _ _ => ⟨all_when fun _ => trivial, by simp [markInFlight]⟩⟩

theorem inner_channelFault (c ev : Nat) : (channelFault c ev).All Prim.Inner := fun _ =>
  ⟨inner_posEvent _ _, inner_faultOccurrence (inner_retireChannel _ _ c) _ _ _⟩

theorem inner_sample (c : Nat) (d : Int) (edge : Bool) (at' : Nat) (nodes : List Nat) {after : Act} (h : after.All Prim.Inner) :
    (sample c d edge at' nodes after none).All Prim.Inner := fun _ =>
  ⟨inner_advance _ _ _ _, h, (driven_masterSample _ _ _ _).mono fun _ hp => hp.inner, trivial, trivial⟩

end Sys2Proof.Machine
end

section
/-! # The samples complete (R100–R112, R122) -/

namespace Sys2Proof.Machine

/-- What a missing tooth makes of an edge in force of its channel's type (R104). -/
def State.tooth (s : State) (c : Nat) : Nat := if s.reg (K.ChannelType + c) = 3 then 0 else s.toothKind c

/-- A counted edge moves its total by the pitch, twice past a missing tooth, and keeps its levels. -/
theorem lasting_countEdge {c : Nat} {dir : Int} {nodes : List Nat} {s : State} (hc : c < s.pos.chans.length) (h : s.tooth c ≠ 2) :
    (((countEdge c dir nodes).run s).chan c).lasting = { s.chan c with
      total := (s.chan c).total + dir * (if s.tooth c = 1 then 2 else 1) * (s.reg (K.CountPitch + c) : Int)
      signalFault := false }.lasting := by
  rw [countEdge, Act.run_read]
  dsimp only
  rw [← State.tooth, if_neg h, lasting_sample]
  refine Eq.trans (keepsLasting_seqs ?_ _) (lasting_advance hc _ _ _)
  simp only [List.forall_mem_cons, List.not_mem_nil, false_imp_iff, implies_true, and_true]
  exact ⟨keepsLasting_noteInterval c _, keepsLasting_referenceCount c _, keepsLasting_when (keepsLasting_referencePoint c 0) _⟩

theorem inputEdge_completes (t ch : Nat) (a c : Bool) (nodes : List Nat) :
    Completes (.inputEdge t ch a c nodes) t
      (fun b => b.takesSample ch 0 8 = true ∧ ch < b.pos.chans.length
        ∧ edgeCount (b.reg (K.ChannelType + ch)) (b.flag (K.DirectionInvert + ch)) (b.chan ch).a (b.chan ch).b a c ≠ 0
        ∧ (b.reg (K.ChannelType + ch) = 3 ∨ b.toothKind ch ≠ 2))
      fun b u =>
        let n := edgeCount (b.reg (K.ChannelType + ch)) (b.flag (K.DirectionInvert + ch)) (b.chan ch).a (b.chan ch).b a c
        let m : Int := if b.reg (K.ChannelType + ch) ≠ 3 ∧ b.toothKind ch = 1 then 2 else 1
        (u.chan ch).total = (b.chan ch).total + n * m * (b.reg (K.CountPitch + ch) : Int)
        ∧ (u.chan ch).a = a ∧ (u.chan ch).b = c := completes_of (fun _ => rfl) fun b _ ⟨htake, hlen, hn, hkind⟩ => by
  have hch : ch < 8 := by
    simp only [State.takesSample, Bool.and_eq_true, decide_eq_true_eq] at htake
    exact htake.1.1.2
  have hcount : (b.takesSample ch 0 8 && edgeCount (b.reg (K.ChannelType + ch)) (b.flag (K.DirectionInvert + ch))
      (b.chan ch).a (b.chan ch).b a c != 0) = true := by simpa [htake] using hn
  dsimp only
  rw [Act.run_read, run_when, if_pos (by simpa using hch), Act.run_seq, run_when, if_pos hcount]
  have hv : ((setChan ch fun x => { x with a := a, b := c }).run b).chan ch = { b.chan ch with a := a, b := c } :=
    chan_setChan hlen _
  generalize hrun : (setChan ch fun x => { x with a := a, b := c }).run b = v at hv
  have hlen' : ch < v.pos.chans.length := by rwa [← hrun, chanCount_setChan]
  have hreg : ∀ q, v.reg q = b.reg q := by rw [← hrun]; exact fun _ => rfl
  have htooth : v.tooth ch = if b.reg (K.ChannelType + ch) = 3 then 0 else b.toothKind ch := by
    simp only [State.tooth, State.toothKind, hv, hreg, show v.now = b.now by rw [← hrun]; rfl]
  have hmoved := lasting_countEdge (dir := edgeCount (b.reg (K.ChannelType + ch)) (b.flag (K.DirectionInvert + ch))
    (b.chan ch).a (b.chan ch).b a c) (nodes := nodes) hlen' (by rw [htooth]; split <;> simp_all)
  rw [hv, hreg] at hmoved
  simp only [Chan.lasting, Prod.mk.injEq] at hmoved
  obtain ⟨ha, hb, htotal, -⟩ := hmoved
  refine ⟨?_, by rw [chan_notifySend]; exact ha, by rw [chan_notifySend]; exact hb⟩
  rw [chan_notifySend]
  refine htotal.trans ?_
  rw [htooth]
  by_cases htype : b.reg (K.ChannelType + ch) = 3 <;> simp [htype]

/-- A movement moves the total by its distance. -/
theorem total_advance {c : Nat} {s : State} (hc : c < s.pos.chans.length) (d : Int) (edge : Bool) (t : Nat) :
    (((advance c d edge t).run s).chan c).total = (s.chan c).total + d :=
  congrArg (fun x : Bool × Bool × Int × Option Nat × Option Nat × Option Nat × Bool => x.2.2.1) (lasting_advance hc d edge t)

/-- A sample whose changes after the movement note something of the channel leaves that note. -/
theorem lasting_sample_noted {c : Nat} {d : Int} {edge : Bool} {at' : Nat} {nodes : List Nat} {f : Chan → Chan} {l : List Act}
    {fault : Option Nat} {s : State} (hc : c < s.pos.chans.length) (h : ∀ a ∈ l, a.KeepsLasting c) :
    (((sample c d edge at' nodes (seqs (setChan c f :: l)) fault).run s).chan c).lasting
      = (f (((advance c d edge at').run s).chan c)).lasting := by
  rw [lasting_sample, run_seqs_cons, keepsLasting_seqs h, chan_setChan (by rwa [chanCount_advance])]

/-- The note of an analogue sample: the angle, and whether it lies within the mark (R107, R109). -/
def Chan.noteAngle (a : Nat) (here : Bool) (x : Chan) : Chan := { x with angle := some a, inMark := here }

theorem noteAngle_total (a : Nat) (here : Bool) (x : Chan) : (x.noteAngle a here).total = x.total := rfl

/-- The periods that an angle passes on the shorter way from the one before (R107). -/
def periodsOf (a old : Nat) : Int :=
  if (a : Int) - old < -2048 then 1 else if 2048 < (a : Int) - old then -1 else 0

/-- The mark is met in the reference quadrant (R109). -/
def State.markMet (s : State) (n a : Nat) (mark : Bool) : Bool :=
  mark && s.reg (K.ReferenceMode + (8 + n)) == 3 && a / 1024 == s.reg (K.ReferenceQuadrant + n)

/-- The first sample of an analogue channel moves nothing. -/
theorem analogueStep_first {n a : Nat} {mark : Bool} {nodes : List Nat} {s : State} (h : (s.chan (8 + n)).angle = none) :
    ∃ here, (analogueStep n a mark nodes).run s
      = (sample (8 + n) 0 false s.now nodes (seqs [setChan (8 + n) (Chan.noteAngle a here)]) none).run s := by
  refine ⟨s.markMet n a mark, ?_⟩
  rw [analogueStep, Act.run_read]
  simp only [h]
  rfl

/-- Every further one moves the channel from angle to angle (R107). -/
theorem analogueStep_next {n a old : Nat} {mark : Bool} {nodes : List Nat} {s : State} (h : (s.chan (8 + n)).angle = some old) :
    ∃ here passed at' fault, (∀ ev ∈ fault, ev < 32) ∧ (analogueStep n a mark nodes).run s = (sample (8 + n)
      (periodsOf a old * (s.reg (K.CountPitch + (8 + n)) : Int) + angleNm (s.reg (K.CountPitch + (8 + n))) a
        - angleNm (s.reg (K.CountPitch + (8 + n))) old) (a / 1024 != old / 1024) s.now nodes
      (seqs [setChan (8 + n) (Chan.noteAngle a here), referenceCount (8 + n) (periodsOf a old),
        when passed (referencePoint (8 + n) at')]) fault).run s := by
  refine ⟨s.markMet n a mark,
    s.markMet n a mark && !(s.chan (8 + n)).inMark && decide (0 < (a : Int) - old + 4096 * periodsOf a old),
    angleNm (s.reg (K.CountPitch + (8 + n))) a
      - angleNm (s.reg (K.CountPitch + (8 + n))) (1024 * s.reg (K.ReferenceQuadrant + n)),
    if 1024 < ((a : Int) - old + 4096 * periodsOf a old).natAbs then some 28 else none, fun ev => ?_, ?_⟩
  · split
    · rintro ⟨⟩
      decide
    · rintro ⟨⟩
  · rw [analogueStep, Act.run_read]
    simp only [h]
    rfl

/-- What the sample of an analogue channel leaves when its radius is within limits (R107). -/
theorem chan_analogueStep {n a : Nat} {mark : Bool} {nodes : List Nat} {s : State} (h : 8 + n < s.pos.chans.length) :
    (((analogueStep n a mark nodes).run s).chan (8 + n)).angle = some a
      ∧ ∀ old, (s.chan (8 + n)).angle = some old →
        (((analogueStep n a mark nodes).run s).chan (8 + n)).total = (s.chan (8 + n)).total
          + (periodsOf a old * (s.reg (K.CountPitch + (8 + n)) : Int)
            + angleNm (s.reg (K.CountPitch + (8 + n))) a - angleNm (s.reg (K.CountPitch + (8 + n))) old) := by
  cases hangle : (s.chan (8 + n)).angle with
  | none =>
    obtain ⟨here, hrun⟩ := analogueStep_first (a := a) (mark := mark) (nodes := nodes) hangle
    have hlast := lasting_sample_noted (d := 0) (edge := false) (at' := s.now) (nodes := nodes) (fault := none)
      (f := Chan.noteAngle a here) (l := []) h (by simp)
    rw [← hrun] at hlast
    simp only [Chan.lasting, Prod.mk.injEq] at hlast
    obtain ⟨-, -, -, hnoted, -⟩ := hlast
    exact ⟨hnoted, fun old hold => by simp at hold⟩
  | some old =>
    obtain ⟨here, passed, at', fault, -, hrun⟩ := analogueStep_next (a := a) (mark := mark) (nodes := nodes) hangle
    have hlast := lasting_sample_noted (fault := fault) (nodes := nodes) (at' := s.now) (edge := a / 1024 != old / 1024)
      (d := periodsOf a old * (s.reg (K.CountPitch + (8 + n)) : Int) + angleNm (s.reg (K.CountPitch + (8 + n))) a
        - angleNm (s.reg (K.CountPitch + (8 + n))) old) (f := Chan.noteAngle a here)
      (l := [referenceCount (8 + n) (periodsOf a old), when passed (referencePoint (8 + n) at')]) h (by
        simp only [List.forall_mem_cons, List.not_mem_nil, false_imp_iff, implies_true, and_true]
        exact ⟨keepsLasting_referenceCount _ _, keepsLasting_when (keepsLasting_referencePoint _ _) _⟩)
    rw [← hrun] at hlast
    simp only [Chan.lasting, Prod.mk.injEq] at hlast
    obtain ⟨-, -, htotal, hnoted, -⟩ := hlast
    refine ⟨hnoted, fun old' hold => ?_⟩
    obtain rfl : old = old' := by simpa using hold
    rw [htotal, noteAngle_total, total_advance h]

theorem radius_analogueStep {n : Nat} (hn : n < 2) (a : Nat) (mark : Bool) (nodes : List Nat) (s : State) :
    ((analogueStep n a mark nodes).run s).reg (K.AnalogueRadius + n) = s.reg (K.AnalogueRadius + n) := by
  have hoff : ¬OffAnalogue (K.AnalogueRadius + n) := by simp only [OffAnalogue, K.AnalogueRadius]; omega
  have href : ∀ {b : Act}, b.All (Prim.Calm Following) → b.All (Prim.Calm OffAnalogue) := fun h =>
    h.mono fun _ => Prim.Calm.mono Following.offAnalogue
  cases hangle : (s.chan (8 + n)).angle with
  | none =>
    obtain ⟨here, hrun⟩ := analogueStep_first (a := a) (mark := mark) (nodes := nodes) hangle
    rw [hrun]
    refine (calm_sample _ _ _ _ _ ?_ (by simp)).reg_calm hoff s
    exact ⟨trivial, trivial⟩
  | some old =>
    obtain ⟨here, passed, at', fault, hfault, hrun⟩ := analogueStep_next (a := a) (mark := mark) (nodes := nodes) hangle
    rw [hrun]
    refine (calm_sample _ _ _ _ _ ?_ hfault).reg_calm hoff s
    exact ⟨trivial, href (calm_referenceCount _ _), all_when fun _ => href (calm_referencePoint _ _), trivial⟩

/-- The waiting trim's own change is none where none waits (R108). -/
theorem trimInForce_idle {n : Nat} {s : State} (h : s.pos.trimNext.getD n none = none) : (trimInForce n).run s = s := by
  rw [trimInForce, Act.run_read]
  simp only [h]
  rfl

/-- The square of the radius that R106 makes of a sample pair, × 2^30. -/
def State.radiusSq (s : State) (n : Nat) (sin cos : Int) : Nat :=
  ((s.trimmed n sin cos).1 * (s.trimmed n sin cos).1 + (s.trimmed n sin cos).2 * (s.trimmed n sin cos).2).natAbs

/-- What a sample pair drives once its radius is shown (R106). -/
def analogueWork (n : Nat) (sin cos : Int) (mark : Bool) (nodes : List Nat) (b : State) : Act :=
  .seq (put (K.AnalogueRadius + n) (roundRadius (b.radiusSq n sin cos)))
    (if b.radiusSq n sin cos < (2185 * 32768) ^ 2 || (7099 * 32768) ^ 2 < b.radiusSq n sin cos then
      .seq (setChan (8 + n) fun x => { x with signalFault := true }) (channelFault (8 + n) 27)
    else analogueStep n (angleSteps (b.trimmed n sin cos).1 (b.trimmed n sin cos).2) mark nodes)

theorem execAnalogueSample_eq (t n : Nat) (sin cos : Int) (mark : Bool) (nodes : List Nat) (s : State) :
    exec (.analogueSample t n sin cos mark nodes) s = perform t (.seq (when (n < 2) (trimInForce n)) (.read fun b =>
      if !b.takesSample (8 + n) 8 10 then .skip else analogueWork n sin cos mark nodes b)) s := rfl

theorem analogueSample_completes (t n : Nat) (sin cos : Int) (mark : Bool) (nodes : List Nat) :
    Completes (.analogueSample t n sin cos mark nodes) t
      (fun b => b.takesSample (8 + n) 8 10 = true ∧ 8 + n < b.pos.chans.length ∧ b.pos.trimNext.getD n none = none)
      fun b u =>
        let p := b.trimmed n sin cos
        let sq := (p.1 * p.1 + p.2 * p.2).natAbs
        let a := angleSteps p.1 p.2
        let pitch := b.reg (K.CountPitch + (8 + n))
        u.reg (K.AnalogueRadius + n) = roundRadius sq
        ∧ (sq < (2185 * 32768) ^ 2 ∨ (7099 * 32768) ^ 2 < sq → (u.chan (8 + n)).signalFault = true ∧ b.raised [27] u
          ∧ (u.chan (8 + n)).total = (b.chan (8 + n)).total)
        ∧ (¬ (sq < (2185 * 32768) ^ 2 ∨ (7099 * 32768) ^ 2 < sq) → (u.chan (8 + n)).angle = some a
          ∧ ∀ old, (b.chan (8 + n)).angle = some old →
            (u.chan (8 + n)).total = (b.chan (8 + n)).total + angleNm pitch a - angleNm pitch old
              + (if (a : Int) - old < -2048 then (pitch : Int) else if 2048 < (a : Int) - old then -(pitch : Int) else 0)) :=
  completes_of (execAnalogueSample_eq t n sin cos mark nodes) fun b _ ⟨htake, hlen, htrim⟩ => by
  have hn : n < 2 := by
    simp only [State.takesSample, Bool.and_eq_true, decide_eq_true_eq] at htake
    omega
  dsimp only
  rw [Act.run_seq, run_when, if_pos (by simpa using hn), trimInForce_idle htrim, Act.run_read, htake,
    run_ite_of_not (by decide), analogueWork, Act.run_seq, ← State.radiusSq, State.notifySend_reg]
  simp only [chan_notifySend, raised_notifySend]
  generalize hv : (put (K.AnalogueRadius + n) (roundRadius (b.radiusSq n sin cos))).run b = v
  have hchan : v.chan (8 + n) = b.chan (8 + n) := by rw [← hv]; rfl
  have hlen' : 8 + n < v.pos.chans.length := by rw [← hv]; exact hlen
  have hreg : ∀ q, q ≠ K.AnalogueRadius + n → v.reg q = b.reg q := fun q hq => by rw [← hv]; simp [hq]
  have hradius : v.reg (K.AnalogueRadius + n) = roundRadius (b.radiusSq n sin cos) := by rw [← hv]; simp
  by_cases hlim : b.radiusSq n sin cos < (2185 * 32768) ^ 2 ∨ (7099 * 32768) ^ 2 < b.radiusSq n sin cos
  · rw [run_ite_of (by simpa using hlim), Act.run_seq]
    have hlost : (((setChan (8 + n) fun x => { x with signalFault := true }).run v).chan (8 + n)).lasting
        = { b.chan (8 + n) with signalFault := true }.lasting := by rw [chan_setChan hlen', hchan]
    have hlast := (keepsLasting_channelFault (8 + n) 27 _).trans hlost
    simp only [Chan.lasting, Prod.mk.injEq] at hlast
    obtain ⟨-, -, htotal, -, -, -, hsignal⟩ := hlast
    refine ⟨?_, fun _ => ⟨hsignal, ?_, htotal⟩, fun h => absurd hlim h⟩
    · rw [(calm_channelFault (by decide) (8 + n)).reg_calm (by simp only [Following, K.AnalogueRadius]; omega)]
      exact hradius
    · exact raised_after (hreg ctlKey (by simp only [K.AnalogueRadius, ctlKey]; omega))
        (raised_after (u := (setChan (8 + n) _).run v) rfl (channelFault_raises rfl (by decide) _ _))
  · rw [run_ite_of_not (by simpa using hlim)]
    obtain ⟨hangle, htotal⟩ := chan_analogueStep (a := angleSteps (b.trimmed n sin cos).1 (b.trimmed n sin cos).2)
      (mark := mark) (nodes := nodes) hlen'
    refine ⟨by rw [radius_analogueStep hn, hradius], fun h => absurd h hlim, fun _ => ⟨hangle, fun old hold => ?_⟩⟩
    rw [htotal old (by rw [hchan, hold]), hchan, hreg _ (by simp only [K.CountPitch, K.AnalogueRadius]; omega), periodsOf]
    split
    · ring
    · split <;> ring

theorem trimFit_kept (t n : Nat) (fit : SinCosTrim) :
    Completes (.sincosTrimCalibration t n fit) t
      (fun b => b.takesSample (8 + n) 8 10 = true ∧ n < b.pos.trimFirst.length ∧ b.pos.trimFirst.getD n none = none)
      fun b u => u.pos.trimFirst.getD n none = some fit ∧ u.dict = b.dict
        ∧ b.only [.dict, .ev, .pos, .health] u := completes_of (fun _ => rfl) fun b _ ⟨htake, hlen, hfirst⟩ => by
  simp only [Act.run_read, htake, run_when_true, hfirst]
  exact ⟨by simp [hlen], by simp, only_sent_of_fits (by simp [Pos.Sized]) b⟩

theorem leaves_trimInForce {α : Type} (g : Pos → α) (h : ∀ p l, g { p with trimNext := l } = g p) (n : Nat) :
    (trimInForce n).All (Prim.Leaves fun u => g u.pos) := fun s => by
  dsimp only
  split
  · trivial
  · exact all_when fun _ => ⟨fun _ => rfl, fun _ => rfl, fun _ => rfl, fun _ => rfl, fun s => h s.pos _, trivial⟩

/-- A trim comes into force in the pages of the analogue channels. -/
theorem calm_trimInForce {n : Nat} (hn : n < 2) : (trimInForce n).All (Prim.Calm fun k => 0x233000 ≤ k ∧ k < 0x234000) := fun s => by
  dsimp only
  split
  · trivial
  · simp only [all_when_iff, all_seqs_iff, List.forall_mem_cons, K.SinOffset, K.CosOffset, K.CosGain, K.PhaseTrim]
    simp
    omega

/-- A second fit is compared with the first: it leaves none waiting, and waits for its use where the two agree (R108). -/
def fitCompared (n : Nat) (fit : SinCosTrim) (good : Bool) : Act := .prim (.pos fun p => { p with
  trimFirst := modAt p.trimFirst n fun _ => none
  trimNext := if good then modAt p.trimNext n fun _ => some fit else p.trimNext })

/-- What a fit does beside one that waits, or alone (R108). -/
def fitWork (n : Nat) (fit : SinCosTrim) : Option SinCosTrim → Act
  | none => .prim (.pos fun p => { p with trimFirst := modAt p.trimFirst n fun _ => some fit })
  | some f => seqs [fitCompared n fit (fitsAgree f fit), calibrationCounted 7 (fitsAgree f fit), trimInForce n]

theorem execSincosTrimCalibration_eq (t n : Nat) (fit : SinCosTrim) (s : State) :
    exec (.sincosTrimCalibration t n fit) s = perform t (.read fun b =>
      when (b.takesSample (8 + n) 8 10) (fitWork n fit (b.pos.trimFirst.getD n none))) s := rfl

theorem trimFits_compared (t n : Nat) (fit f : SinCosTrim) :
    Completes (.sincosTrimCalibration t n fit) t
      (fun b => b.takesSample (8 + n) 8 10 = true ∧ n < b.pos.trimFirst.length ∧ b.pos.trimFirst.getD n none = some f)
      fun b u => u.pos.trimFirst.getD n none = none ∧ u.health.countsChanged = true
        ∧ (fitsAgree f fit = true → u.reg (K.CalibrationCount + 6) = (b.reg (K.CalibrationCount + 6) + 1) % 2 ^ 32
          ∧ b.raised [243] u)
        ∧ (fitsAgree f fit = false →
          u.reg (K.CalibrationDiscarded + 6) = (b.reg (K.CalibrationDiscarded + 6) + 1) % 2 ^ 32 ∧ b.raised [244] u)
        ∧ b.only [.dict, .ev, .pos, .health] u :=
  completes_of (execSincosTrimCalibration_eq t n fit) fun b _ ⟨htake, hlen, hfirst⟩ => by
  have hn : n < 2 := by
    simp only [State.takesSample, Bool.and_eq_true, decide_eq_true_eq] at htake
    omega
  simp only [Act.run_read, htake, run_when_true, hfirst]
  rw [fitWork]
  generalize fitsAgree f fit = good
  have hcount : ∀ q, 0x240000 ≤ q → ((seqs [fitCompared n fit good, calibrationCounted 7 good, trimInForce n]).run b).reg q
      = ((calibrationCounted 7 good).run ((fitCompared n fit good).run b)).reg q := fun q hq =>
    (calm_trimInForce hn).reg_calm (by omega) _
  have hraise : b.raised [if good then 243 else 244]
      ((seqs [fitCompared n fit good, calibrationCounted 7 good, trimInForce n]).run b) :=
    raised_among (l₁ := [_]) (l₂ := [_]) (by simp [fitCompared]) (fun s _ => calibrationCounted_raises (by decide) good s)
      ⟨calm_trimInForce hn, trivial⟩
  have htrim : ((seqs [fitCompared n fit good, calibrationCounted 7 good, trimInForce n]).run b).pos.trimFirst
      = modAt b.pos.trimFirst n fun _ => none := by
    rw [run_seqs_cons, run_seqs_cons]
    refine ((leaves_trimInForce Pos.trimFirst (fun _ _ => rfl) n).leaves _).trans ?_
    rw [pos_kept (by simp)]
    rfl
  have hnoted : ((seqs [fitCompared n fit good, calibrationCounted 7 good, trimInForce n]).run b).health.countsChanged = true := by
    rw [run_seqs_cons, run_seqs_cons, health_kept (a := seqs [trimInForce n]) (by simp), health_calibrationCounted]
  refine ⟨by rw [State.notifySend_pos, htrim]; simp [hlen], by rw [State.notifySend_health]; exact hnoted, fun hgood => ⟨?_, ?_⟩, fun hbad => ⟨?_, ?_⟩,
    only_sent_of_fits (by simp [fitCompared, Pos.Sized]) b⟩
  · rw [State.notifySend_reg, hcount _ (by decide), hgood]
    exact calibrationCounted_count (by decide) _
  · rw [hgood] at hraise ⊢
    exact raised_notifySend.mpr hraise
  · rw [State.notifySend_reg, hcount _ (by decide), hbad]
    exact calibrationCounted_discard 7 _
  · rw [hbad] at hraise ⊢
    exact raised_notifySend.mpr hraise

/-- A read of a serial channel is due (R110). -/
def State.readDue (s : State) (n : Nat) : Bool :=
  match (s.chan (10 + n)).lastRead with
  | some u => decide (u + s.reg (K.SerialReadPeriod + n) ≤ s.now)
  | none => true

theorem readDue_of {s : State} {n : Nat}
    (h : ∀ v, (s.chan (10 + n)).lastRead = some v → v + s.reg (K.SerialReadPeriod + n) ≤ s.now) : s.readDue n = true := by
  unfold State.readDue
  split
  next u hu => exact decide_eq_true (h u hu)
  next => rfl

theorem execSerialRead_eq (t n : Nat) (datHigh : Bool) (s : State) : exec (.serialRead t n datHigh) s = perform t (.read fun b =>
    if !b.takesSample (10 + n) 10 14 || (b.chan (10 + n)).serialOpen.isSome || !b.readDue n then .skip
    else if !datHigh then .seq (setChan (10 + n) fun x => { x with lastRead := some b.now }) (serialFailed (10 + n) 24)
    else .seq (setChan (10 + n) fun x => { x with lastRead := some b.now, serialOpen := some b.now })
      (send (.ball (.saClk n) 0))) s := rfl

/-- A word that fails marks its channel and raises its event (R111). -/
theorem serialFailed_shows {c ev : Nat} {s : State} (hc : c < s.pos.chans.length) (hn : reservedEvent ev = false) (h : ev < 32) :
    (((serialFailed c ev).run s).chan c).signalFault = true ∧ (((serialFailed c ev).run s).chan c).word = none
      ∧ (((serialFailed c ev).run s).chan c).serialOpen = none ∧ s.raised [ev] ((serialFailed c ev).run s) := by
  have hlast := keepsLasting_channelFault c ev ((setChan c fun x =>
    { x with signalFault := true, word := none, serialOpen := none }).run s)
  rw [chan_setChan hc] at hlast
  simp only [Chan.lasting, Prod.mk.injEq] at hlast
  obtain ⟨-, -, -, -, hword, hopen, hsignal⟩ := hlast
  exact ⟨hsignal, hword, hopen, raised_after (u := (setChan c _).run s) rfl (channelFault_raises hn h c _)⟩

theorem serialRead_opens (t n : Nat) :
    Completes (.serialRead t n true) t
      (fun b => b.takesSample (10 + n) 10 14 = true ∧ 10 + n < b.pos.chans.length
        ∧ (b.chan (10 + n)).serialOpen = none
        ∧ ∀ v, (b.chan (10 + n)).lastRead = some v → v + b.reg (K.SerialReadPeriod + n) ≤ b.now)
      fun b u => (u.chan (10 + n)).serialOpen = some b.now ∧ .ball (.saClk n) 0 ∈ u.out ∧ u.dict = b.dict
        ∧ b.only [.dict, .ev, .mem, .pos, .fire, .health] u :=
  completes_of (execSerialRead_eq t n true) fun b _ ⟨htake, hlen, hopen, hdue⟩ => by
  simp only [Act.run_read, htake, hopen, readDue_of hdue]
  exact ⟨by rw [chan_notifySend]; exact congrArg Chan.serialOpen (chan_setChan hlen _), mem_out_notifySend (sent_send _ _),
    by rw [State.notifySend_dict]; rfl, only_sent_of_fits (by simp) b⟩

theorem serialRead_lineLow (t n : Nat) :
    Completes (.serialRead t n false) t
      (fun b => b.takesSample (10 + n) 10 14 = true ∧ 10 + n < b.pos.chans.length
        ∧ (b.chan (10 + n)).serialOpen = none
        ∧ ∀ v, (b.chan (10 + n)).lastRead = some v → v + b.reg (K.SerialReadPeriod + n) ≤ b.now)
      fun b u => (u.chan (10 + n)).signalFault = true ∧ (u.chan (10 + n)).word = none ∧ b.raised [24] u
        ∧ b.only [.dict, .ev, .mem, .pos, .fire, .health] u :=
  completes_of (execSerialRead_eq t n false) fun b _ ⟨htake, hlen, hopen, hdue⟩ => by
  simp only [Act.run_read, htake, hopen, readDue_of hdue]
  obtain ⟨hsignal, hword, -, hraised⟩ := serialFailed_shows (s := (setChan (10 + n) fun x =>
    { x with lastRead := some b.now }).run b) (c := 10 + n) (ev := 24) (by rwa [chanCount_setChan]) rfl (by decide)
  refine ⟨by rw [chan_notifySend]; exact hsignal, by rw [chan_notifySend]; exact hword, raised_notifySend.mpr ?_,
    only_sent_of_fits (by simp [serialFailed]) b⟩
  exact raised_after (u := (setChan (10 + n) _).run b) rfl hraised

/-- What a completed word does once its position has been taken from its bits (R111, R112). -/
def wordWork (n word : Nat) (nodes : List Nat) (b : State) : Option Nat → Act
  | none => .skip
  | some at' =>
    if !b.takesSample (10 + n) 10 14 then .skip
    else .seq (send (.ball (.saClk n) 1))
      (if !b.serialCrcHolds n (b.reg (K.SerialFrame + n)) word then serialFailed (10 + n) 25
      else if (if bit (b.reg (K.SerialFrame + n)) 15 then 1 else 0) == 1
          && (bit word (bits (b.reg (K.SerialFrame + n)) 20 5) != bit (b.reg (K.SerialFrame + n)) 14) then serialFailed (10 + n) 26
      else .seq (setChan (10 + n) fun x => { x with serialOpen := none }) (serialStep n
        (if bit (b.reg (K.SerialFrame + n)) 16 then fromGray (bits (b.reg (K.SerialFrame + n)) 0 6)
            (bits (word / 2 ^ (bits (b.reg (K.SerialFrame + n)) 20 5 + if bit (b.reg (K.SerialFrame + n)) 15 then 1 else 0)) 0
              (bits (b.reg (K.SerialFrame + n)) 0 6))
          else bits (word / 2 ^ (bits (b.reg (K.SerialFrame + n)) 20 5 + if bit (b.reg (K.SerialFrame + n)) 15 then 1 else 0)) 0
            (bits (b.reg (K.SerialFrame + n)) 0 6)) at' nodes))

theorem execSerialWord_eq (t n word : Nat) (nodes : List Nat) (s : State) : exec (.serialWord t n word nodes) s =
    perform t (.read fun b => wordWork n word nodes b (b.chan (10 + n)).serialOpen) s := rfl

/-- The note of a serial word (R112). -/
def Chan.noteWord (raw : Nat) (x : Chan) : Chan := { x with word := some raw }

/-- The first word sets the channel's position (R111). -/
def placeWord (n raw : Nat) (pitch : Int) : Act := .read fun s =>
  .seq (setChan (10 + n) fun _ =>
      { ((s.chan (10 + n)).place (s.webMode (10 + n)) (s.softLimits (10 + n)) (raw * pitch)) with refFound := true })
    (when (!s.webMode (10 + n)) (limitEvent (10 + n) (s.chan (10 + n))
      { ((s.chan (10 + n)).place (s.webMode (10 + n)) (s.softLimits (10 + n)) (raw * pitch)) with refFound := true }))

/-- What the first word does once its sample has moved nothing (R111). -/
def firstWord (n raw : Nat) (pitch : Int) : List Act :=
  [setChan (10 + n) (Chan.noteWord raw), placeWord n raw pitch, posEvent 16 (10 + n)]

/-- The sample that a word makes beside the word before it (R112). -/
def serialSample (n raw at' : Nat) (nodes : List Nat) (s : State) : Option Nat → Act
  | none => sample (10 + n) 0 false at' nodes (seqs (firstWord n raw (s.reg (K.CountPitch + (10 + n))))) none
  | some old =>
    sample (10 + n)
      ((if (raw + 2 ^ bits (s.reg (K.SerialFrame + n)) 0 6 - old) % 2 ^ bits (s.reg (K.SerialFrame + n)) 0 6
            < 2 ^ (bits (s.reg (K.SerialFrame + n)) 0 6 - 1)
          then (((raw + 2 ^ bits (s.reg (K.SerialFrame + n)) 0 6 - old) % 2 ^ bits (s.reg (K.SerialFrame + n)) 0 6 : Nat) : Int)
          else (((raw + 2 ^ bits (s.reg (K.SerialFrame + n)) 0 6 - old) % 2 ^ bits (s.reg (K.SerialFrame + n)) 0 6 : Nat) : Int)
            - (2 ^ bits (s.reg (K.SerialFrame + n)) 0 6 : Nat)) * (s.reg (K.CountPitch + (10 + n)) : Int))
      (raw != old) at' nodes (setChan (10 + n) (Chan.noteWord raw)) none

theorem serialStep_eq (n raw at' : Nat) (nodes : List Nat) :
    serialStep n raw at' nodes = .read fun s => serialSample n raw at' nodes s (s.chan (10 + n)).word := rfl

theorem inner_serialFailed (c ev : Nat) : (serialFailed c ev).All Prim.Inner := ⟨trivial, inner_channelFault c ev⟩

theorem calm_placeWord (n raw : Nat) (pitch : Int) : (placeWord n raw pitch).All (Prim.Calm Following) := fun _ =>
  ⟨trivial, all_when fun _ => calm_limitEvent _ _ _⟩

theorem inner_serialStep (n raw at' : Nat) (nodes : List Nat) : (serialStep n raw at' nodes).All Prim.Inner := by
  rw [serialStep_eq]
  intro s
  dsimp only
  cases (s.chan (10 + n)).word with
  | none =>
    refine inner_sample _ _ _ _ _ ?_
    exact ⟨trivial, fun _ => ⟨trivial, all_when fun _ => inner_limitEvent _ _ _⟩, inner_posEvent _ _, trivial⟩
  | some old => exact inner_sample _ _ _ _ _ trivial

/-- What lasts of a channel, its first word taken; it has found its reference (R111). -/
theorem placeWord_shows {n : Nat} {s : State} (h : 10 + n < s.pos.chans.length) (raw : Nat) (pitch : Int) :
    (((placeWord n raw pitch).run s).chan (10 + n)).lasting = (s.chan (10 + n)).lasting
      ∧ (((placeWord n raw pitch).run s).chan (10 + n)).refFound = true := by
  rw [placeWord, Act.run_read, Act.run_seq, chan_of_leaves (all_when fun _ => leaves_limitEvent _ _ _), chan_setChan h]
  exact ⟨lasting_place _ _ _ _, rfl⟩

/-- What the note of a word leaves after a movement. -/
theorem lasting_noteWord {n raw : Nat} {d : Int} {edge : Bool} {at' : Nat} {s : State} (h : 10 + n < s.pos.chans.length) :
    (((setChan (10 + n) (Chan.noteWord raw)).run ((advance (10 + n) d edge at').run s)).chan (10 + n)).lasting
      = { s.chan (10 + n) with total := (s.chan (10 + n)).total + d, word := some raw, signalFault := false }.lasting := by
  have hlast := lasting_advance h d edge at'
  rw [chan_setChan (by rwa [chanCount_advance])]
  simp only [Chan.lasting, Prod.mk.injEq] at hlast
  obtain ⟨ha, hb, htotal, hangle, -, hopen, hsignal⟩ := hlast
  simp [Chan.lasting, Chan.noteWord, *]

theorem firstWord_shows {n : Nat} {s : State} (h : 10 + n < s.pos.chans.length) (raw : Nat) (pitch : Int) :
    (((seqs (firstWord n raw pitch)).run s).chan (10 + n)).lasting
        = (((setChan (10 + n) (Chan.noteWord raw)).run s).chan (10 + n)).lasting
      ∧ (((seqs (firstWord n raw pitch)).run s).chan (10 + n)).refFound = true := by
  obtain ⟨hplaced, hfound⟩ := placeWord_shows (s := (setChan (10 + n) (Chan.noteWord raw)).run s)
    (by rwa [chanCount_setChan]) raw pitch
  have hend : (seqs [posEvent 16 (10 + n)]).All (Prim.Leaves fun u => u.pos.chans) := ⟨leaves_posEvent _ _, trivial⟩
  rw [firstWord, run_seqs_cons, run_seqs_cons, chan_of_leaves hend]
  exact ⟨hplaced, hfound⟩

theorem firstWord_raises (n raw : Nat) (pitch : Int) (s : State) : s.raised [16] ((seqs (firstWord n raw pitch)).run s) :=
  raised_among (l₁ := [_, _]) (l₂ := []) (P := fun _ => True)
    (by simpa [setChan] using (calm_placeWord _ _ _).mono fun _ => Prim.Calm.mono Following.ne_ctl)
    (fun v _ => posEvent_raises rfl _ v) trivial

/-- The first word places its channel (R111). -/
theorem serialStep_first {n raw at' : Nat} {nodes : List Nat} {s : State} (h : 10 + n < s.pos.chans.length)
    (hword : (s.chan (10 + n)).word = none) :
    (((serialStep n raw at' nodes).run s).chan (10 + n)).lasting
      = { s.chan (10 + n) with total := (s.chan (10 + n)).total + 0, word := some raw, signalFault := false }.lasting
    ∧ (((serialStep n raw at' nodes).run s).chan (10 + n)).refFound = true
    ∧ s.raised [16] ((serialStep n raw at' nodes).run s) := by
  have hlen : 10 + n < ((advance (10 + n) 0 false at').run s).pos.chans.length := by rwa [chanCount_advance]
  obtain ⟨hnoted, hfound⟩ := firstWord_shows hlen raw (s.reg (K.CountPitch + (10 + n)))
  rw [serialStep_eq, Act.run_read, hword, serialSample, chan_sample]
  refine ⟨hnoted.trans (lasting_noteWord h), hfound, ?_⟩
  rw [sample_eq, Act.run_read]
  exact raised_among (l₁ := [_]) (l₂ := [_, _]) (by simpa using (calm_advance _ _ _ _).mono fun _ => Prim.Calm.mono Following.ne_ctl)
    (fun u _ => firstWord_raises n raw _ u) ⟨(driven_masterSample _ _ _ _).mono fun _ hp => hp.calm, trivial, trivial⟩

/-- A further word moves its channel by the shorter way (R112). -/
theorem serialStep_next {n raw at' old : Nat} {nodes : List Nat} {s : State} (h : 10 + n < s.pos.chans.length)
    (hword : (s.chan (10 + n)).word = some old) :
    ∃ d : Int, (((serialStep n raw at' nodes).run s).chan (10 + n)).lasting
        = { s.chan (10 + n) with total := (s.chan (10 + n)).total + d, word := some raw, signalFault := false }.lasting
      ∧ d = (let width := bits (s.reg (K.SerialFrame + n)) 0 6
        let diff := (raw + 2 ^ width - old) % 2 ^ width
        (if diff < 2 ^ (width - 1) then (diff : Int) else (diff : Int) - (2 ^ width : Nat)) * (s.reg (K.CountPitch + (10 + n)) : Int)) := by
  rw [serialStep_eq, Act.run_read, hword, serialSample]
  refine ⟨_, ?_, rfl⟩
  rw [chan_sample]
  exact lasting_noteWord h

theorem serialWord_completes (t n word at' : Nat) (nodes : List Nat) :
    Completes (.serialWord t n word nodes) t
      (fun b => b.takesSample (10 + n) 10 14 = true ∧ 10 + n < b.pos.chans.length
        ∧ (b.chan (10 + n)).serialOpen = some at')
      fun b u =>
        let frame := b.reg (K.SerialFrame + n)
        let len := bits frame 20 5
        let err := if bit frame 15 then 1 else 0
        let width := bits frame 0 6
        let field := bits (word / 2 ^ (len + err)) 0 width
        let raw := if bit frame 16 then fromGray width field else field
        let holds := b.serialCrcHolds n frame word
        let failed := err == 1 && (bit word len != bit frame 14)
        (u.chan (10 + n)).serialOpen = none ∧ .ball (.saClk n) 1 ∈ u.out
        ∧ (holds = false → b.raised [25] u ∧ (u.chan (10 + n)).word = none)
        ∧ (holds = true → failed = true → b.raised [26] u ∧ (u.chan (10 + n)).word = none)
        ∧ (holds = true → failed = false → (u.chan (10 + n)).word = some raw
          ∧ ((b.chan (10 + n)).word = none → b.raised [16] u ∧ (u.chan (10 + n)).refFound = true
            ∧ (u.chan (10 + n)).total = (b.chan (10 + n)).total)
          ∧ ∀ old, (b.chan (10 + n)).word = some old →
            let diff := (raw + 2 ^ width - old) % 2 ^ width
            (u.chan (10 + n)).total = (b.chan (10 + n)).total
              + (if diff < 2 ^ (width - 1) then (diff : Int) else (diff : Int) - (2 ^ width : Nat))
                * (b.reg (K.CountPitch + (10 + n)) : Int)) :=
  completes_of (execSerialWord_eq t n word nodes) fun b _ ⟨htake, hlen, hopen⟩ => by
  dsimp only
  rw [Act.run_read, hopen, wordWork, htake, run_ite_of_not (by decide), Act.run_seq]
  simp only [chan_notifySend, raised_notifySend]
  have hlen' : 10 + n < ((send (.ball (.saClk n) 1)).run b).pos.chans.length := hlen
  have hsent : ∀ {a : Act}, a.All Prim.Inner →
      Out.ball (.saClk n) 1 ∈ (a.run ((send (.ball (.saClk n) 1)).run b)).notifySend.out :=
    fun ha => mem_out_notifySend (mem_out_inner ha (sent_send _ _))
  have hfail : ∀ {ev}, (serialFailed (10 + n) ev).All Prim.Inner := inner_serialFailed _ _
  by_cases hcrc : b.serialCrcHolds n (b.reg (K.SerialFrame + n)) word = true
  · rw [run_ite_of_not (by simp [hcrc])]
    by_cases hfailed : ((if bit (b.reg (K.SerialFrame + n)) 15 then 1 else 0) == 1
        && (bit word (bits (b.reg (K.SerialFrame + n)) 20 5) != bit (b.reg (K.SerialFrame + n)) 14)) = true
    · obtain ⟨-, hword, hclosed, hraised⟩ := serialFailed_shows (ev := 26) hlen' rfl (by decide)
      rw [run_ite_of hfailed]
      exact ⟨hclosed, hsent hfail, fun h => absurd (hcrc.symm.trans h) (by decide),
        fun _ _ => ⟨raised_after (u := (send _).run b) rfl hraised, hword⟩,
        fun _ h => absurd (hfailed.symm.trans h) (by decide)⟩
    · rw [run_ite_of_not hfailed, Act.run_seq]
      generalize (if bit (b.reg (K.SerialFrame + n)) 16 = true then fromGray _ _ else _) = raw
      have hv : ((setChan (10 + n) fun x => { x with serialOpen := none }).run ((send (.ball (.saClk n) 1)).run b)).chan (10 + n)
          = { b.chan (10 + n) with serialOpen := none } := chan_setChan hlen' _
      have hout : Out.ball (.saClk n) 1
          ∈ ((setChan (10 + n) fun x => { x with serialOpen := none }).run ((send (.ball (.saClk n) 1)).run b)).out :=
        sent_send _ _
      have hreg : ∀ q, ((setChan (10 + n) fun x => { x with serialOpen := none }).run
          ((send (.ball (.saClk n) 1)).run b)).reg q = b.reg q := fun _ => rfl
      have hlen'' : 10 + n < ((setChan (10 + n) fun x => { x with serialOpen := none }).run
          ((send (.ball (.saClk n) 1)).run b)).pos.chans.length := by rwa [chanCount_setChan]
      generalize (setChan (10 + n) fun x => { x with serialOpen := none }).run ((send (.ball (.saClk n) 1)).run b) = v
        at hv hout hreg hlen'' ⊢
      have hsent' := mem_out_notifySend (mem_out_inner (inner_serialStep n raw at' nodes) hout)
      cases hword : (b.chan (10 + n)).word with
      | none =>
        obtain ⟨hlast, hfound, hraised⟩ := serialStep_first (raw := raw) (at' := at') (nodes := nodes) hlen''
          (by rw [hv]; exact hword)
        rw [hv] at hlast
        simp only [Chan.lasting, Prod.mk.injEq, add_zero] at hlast
        obtain ⟨-, -, htotal, -, hnow, hclosed, -⟩ := hlast
        exact ⟨hclosed, hsent', fun h => absurd (hcrc.symm.trans h) (by decide), fun _ h => absurd h hfailed,
          fun _ _ => ⟨hnow, fun _ => ⟨raised_after (hreg _) hraised, hfound, htotal⟩, fun old hold => by simp at hold⟩⟩
      | some old =>
        obtain ⟨d, hlast, hd⟩ := serialStep_next (raw := raw) (at' := at') (nodes := nodes) hlen''
          (by rw [hv]; exact hword)
        rw [hv] at hlast
        simp only [hreg] at hd
        simp only [Chan.lasting, Prod.mk.injEq] at hlast
        obtain ⟨-, -, htotal, -, hnow, hclosed, -⟩ := hlast
        refine ⟨hclosed, hsent', fun h => absurd (hcrc.symm.trans h) (by decide), fun _ h => absurd h hfailed,
          fun _ _ => ⟨hnow, fun h => by simp at h, fun old' hold => ?_⟩⟩
        obtain rfl : old = old' := by simpa using hold
        exact htotal.trans (congrArg _ hd)
  · obtain ⟨-, hword, hclosed, hraised⟩ := serialFailed_shows (ev := 25) hlen' rfl (by decide)
    rw [run_ite_of (by simp [hcrc])]
    exact ⟨hclosed, hsent hfail, fun _ => ⟨raised_after (u := (send _).run b) rfl hraised, hword⟩, fun h => absurd h hcrc,
      fun h => absurd h hcrc⟩

/-- What an open read does at its time-out (R111). -/
def timeoutWork (n : Nat) (b : State) : Option Nat → Act
  | none => .skip
  | some u => when (b.takesSample (10 + n) 10 14 && u + b.reg (K.SerialTimeout + n) ≤ b.now)
    (.seq (send (.ball (.saClk n) 1)) (serialFailed (10 + n) 24))

theorem execSerialTimeout_eq (t n : Nat) (s : State) : exec (.serialTimeout t n) s =
    perform t (.read fun b => timeoutWork n b (b.chan (10 + n)).serialOpen) s := rfl

theorem serialTimeout_completes (t n v : Nat) :
    Completes (.serialTimeout t n) t
      (fun b => b.takesSample (10 + n) 10 14 = true ∧ 10 + n < b.pos.chans.length
        ∧ (b.chan (10 + n)).serialOpen = some v ∧ v + b.reg (K.SerialTimeout + n) ≤ b.now)
      fun b u => (u.chan (10 + n)).serialOpen = none ∧ (u.chan (10 + n)).signalFault = true ∧ b.raised [24] u
        ∧ .ball (.saClk n) 1 ∈ u.out ∧ b.only [.dict, .ev, .mem, .pos, .fire, .health] u :=
  completes_of (execSerialTimeout_eq t n) fun b _ ⟨htake, hlen, hopen, hdue⟩ => by
  obtain ⟨hsignal, -, hclosed, hraised⟩ := serialFailed_shows (s := (send (.ball (.saClk n) 1)).run b) (c := 10 + n) (ev := 24)
    hlen rfl (by decide)
  rw [Act.run_read, hopen, timeoutWork, run_when, if_pos (by simp [htake, hdue])]
  have hfits : (Act.seq (send (.ball (.saClk n) 1)) (serialFailed (10 + n) 24)).All
      (Prim.Fits [.dict, .ev, .mem, .pos, .fire, .health]) := by simp [serialFailed]
  refine ⟨?_, ?_, ?_, ?_, only_sent_of_fits hfits b⟩
  · rw [chan_notifySend, Act.run_seq, hclosed]
  · rw [chan_notifySend, Act.run_seq, hsignal]
  · rw [raised_notifySend, Act.run_seq]
    exact raised_after (u := (send _).run b) rfl hraised
  · rw [Act.run_seq]
    exact mem_out_notifySend (mem_out_inner (inner_serialFailed _ _) (sent_send _ _))

/-- What the master and the trim make of a standstill (R108, R122). -/
def standstillTail (b : State) (ch : Nat) : List Act := [
  when (b.chan ch).valid (posEvent 31 ch),
  when (b.activeMaster == some ch) (.seq (.prim (.pos fun p => { p with samples := [] })) (speedWatch false)),
  when (8 ≤ ch && ch < 10) (trimInForce (ch - 8)) ]

/-- The channel has come to a standstill (R122). -/
def State.standsStill (s : State) (ch : Nat) : Bool :=
  match (s.chan ch).lastEdge with
  | some u => decide (u + s.reg (K.StandstillTimeout + ch) ≤ s.now)
  | none => false

theorem execStandstill_eq (t ch : Nat) (s : State) : exec (.standstill t ch) s = perform t (.read fun b =>
    if ch < 14 && b.counting ch && b.standsStill ch && !(b.chan ch).standing then
      seqs ((setChan ch fun x => { x with standing := true, valid := false, speed := 0, hist := [] })
        :: posEvent 22 ch :: standstillTail b ch)
    else .skip) s := rfl

theorem leaves_speedWatch (turned : Bool) : (speedWatch turned).All (Prim.Leaves fun u => u.pos.chans) := leaves_chans (by simp)

theorem leaves_standstillTail (b : State) (ch : Nat) : (seqs (standstillTail b ch)).All (Prim.Leaves fun u => u.pos.chans) :=
  ⟨all_when fun _ => leaves_posEvent _ _, all_when fun _ => ⟨fun _ => rfl, leaves_speedWatch false⟩,
    all_when fun _ => leaves_trimInForce Pos.chans (fun _ _ => rfl) _, trivial⟩

theorem fits_standstillTail (b : State) (ch : Nat) : (seqs (standstillTail b ch)).All
    (Prim.Fits [.mem, .dict, .ev, .sys, .pos, .tone, .fire, .loop, .dram, .time]) := by
  simp [standstillTail, Pos.Sized]

theorem calm_speedWatch (turned : Bool) : (speedWatch turned).All (Prim.Calm fun _ => True) :=
  (driven_speedWatch turned).mono fun _ hp => hp.calm.mono fun _ _ => trivial

theorem calm_standstillTail (b : State) {ch : Nat} : (seqs (standstillTail b ch)).All (Prim.Calm fun _ => True) :=
  ⟨all_when fun _ => calm_posEvent (P := fun _ => True) trivial, all_when fun _ => ⟨trivial, calm_speedWatch false⟩,
    all_when fun h => (calm_trimInForce (by simp at h; omega)).mono fun _ => Prim.Calm.mono fun _ _ => trivial, trivial⟩

theorem standstill_completes (t ch v : Nat) :
    ch < 14 →
    Completes (.standstill t ch) t
      (fun b => ch < b.pos.chans.length ∧ b.counting ch = true ∧ (b.chan ch).lastEdge = some v
        ∧ v + b.reg (K.StandstillTimeout + ch) ≤ b.now ∧ (b.chan ch).standing = false)
      fun b u => (u.chan ch).standing = true ∧ (u.chan ch).valid = false ∧ (u.chan ch).speed = 0
        ∧ (u.chan ch).total = (b.chan ch).total ∧ b.raised [22] u
        ∧ b.only [.mem, .dict, .ev, .sys, .pos, .tone, .fire, .loop, .dram, .time] u :=
  fun hch => completes_of (execStandstill_eq t ch) fun b _ ⟨hlen, hcounts, hedge, hdue, hstand⟩ => by
  have hstill : b.standsStill ch = true := by simp [State.standsStill, hedge, hdue]
  rw [Act.run_read, run_ite_of (by simp [hch, hcounts, hstill, hstand]), chan_notifySend]
  have hchan : ((seqs ((setChan ch fun x => { x with standing := true, valid := false, speed := 0, hist := [] })
      :: posEvent 22 ch :: standstillTail b ch)).run b).chan ch
        = { b.chan ch with standing := true, valid := false, speed := 0, hist := [] } := by
    have htail : (seqs (posEvent 22 ch :: standstillTail b ch)).All (Prim.Leaves fun u => u.pos.chans) :=
      ⟨leaves_posEvent 22 ch, leaves_standstillTail b ch⟩
    rw [run_seqs_cons, chan_of_leaves htail, chan_setChan hlen]
  rw [hchan]
  refine ⟨rfl, rfl, rfl, rfl, raised_notifySend.mpr ?_, only_sent_of_fits ?_ b⟩
  · exact raised_among (l₁ := [_]) (l₂ := standstillTail b ch) (by simp [setChan]) (fun s _ => posEvent_raises rfl ch s)
      (calm_standstillTail b)
  · exact ⟨by simp, by simp, fits_standstillTail b ch⟩

/-- Settles O11: each sample moves its channel by its rule, and each fault of one marks the channel. -/
theorem samplesComplete : Obligations.SamplesComplete :=
  ⟨inputEdge_completes, analogueSample_completes, trimFit_kept, trimFits_compared, serialRead_opens, serialRead_lineLow,
    serialWord_completes, serialTimeout_completes, standstill_completes⟩

end Sys2Proof.Machine
end

section
/-! # Row lines, heads, tickles and gain curves (R229–R235, R242–R245) -/

namespace Sys2Proof.Machine

/-! ### Heads and rows -/

theorem head_setHead {l sl : Nat} {s : State} (h : 12 * l + sl < s.fire.heads.length) (f : Head → Head) :
    ((setHead l sl f).run s).head l sl = f (s.head l sl) := by
  simp [setHead, State.head, h]

theorem row_setRow {l sl r : Nat} {s : State} (h : 12 * l + sl < s.fire.heads.length) (hr : r < (s.head l sl).rows.length)
    (f : RowAt → RowAt) : ((setRow l sl r f).run s).row l sl r = f (s.row l sl r) := by
  rw [State.row, setRow, head_setHead h]
  simp [State.row, hr]

/-- A tree that leaves the heads leaves each of them. -/
theorem head_of_leaves {a : Act} (h : a.All (Prim.Leaves fun u => u.fire.heads)) (l sl : Nat) (s : State) :
    (a.run s).head l sl = s.head l sl := congrArg (fun x : List Head => x.getD (12 * l + sl) {}) (h.leaves s)

theorem row_of_leaves {a : Act} (h : a.All (Prim.Leaves fun u => u.fire.heads)) (l sl r : Nat) (s : State) :
    (a.run s).row l sl r = s.row l sl r := congrArg (fun x : Head => x.rows.getD r {}) (head_of_leaves h l sl s)

theorem leaves_heads {a : Act} (h : a.All (Prim.Fits (Piece.but .fire))) : a.All (Prim.Leaves fun u => u.fire.heads) :=
  h.mono fun p hp s => congrArg Fire.heads (Prim.only_touches p s .fire fun hm => by simpa using hp.1 _ hm)

theorem head_notifySend (s : State) (l sl : Nat) : s.notifySend.head l sl = s.head l sl := by
  rw [State.head, State.head, State.notifySend_fire]

theorem row_notifySend (s : State) (l sl r : Nat) : s.notifySend.row l sl r = s.row l sl r := by
  rw [State.row, State.row, head_notifySend]

theorem heads_fireEvent (n l sl : Nat) : (fireEvent n l sl).All (Prim.Leaves fun u => u.fire.heads) := leaves_heads (by simp)

theorem heads_wasteCopy (m : Int) (reason : Nat) : (wasteCopy m reason).All (Prim.Leaves fun u => u.fire.heads) := fun _ => rfl

theorem fireEvent_raises {n : Nat} (hn : reservedEvent n = false) (l sl : Nat) (s : State) :
    s.raised [n] ((fireEvent n l sl).run s) :=
  raised_fireEvent (by simp only [ctlKey, K.FiringEventSlot]; omega) hn s

/-- The registers of the head slots stand above those of an event's slot. -/
theorem headState_ne_event (l sl : Nat) {i : Nat} (h : i < 32) : slotKey K.HeadState l sl ≠ K.FiringEventSlot + i := by
  simp only [slotKey, K.HeadState, K.FiringEventSlot]
  omega

theorem headState_ne_ctl (l sl : Nat) : slotKey K.HeadState l sl ≠ ctlKey := by
  simp only [slotKey, K.HeadState, ctlKey]
  omega

theorem reg_fireEvent {n l sl q : Nat} (h : K.FiringEventSlot + (n - 96) ≠ q) (s : State) :
    ((fireEvent n l sl).run s).reg q = s.reg q := (calm_fireEvent (P := (· ≠ q)) h).reg_other s

/-! ### Telemetry, recovery, tickle and gain curves -/

/-- A head's report is late (R244). -/
def State.reportLate (s : State) (l sl : Nat) : Bool :=
  match (s.head l sl).reportAt with
  | some u => decide (u + s.reg K.TelemetryTimeout ≤ s.now)
  | none => true

theorem execTelemetryTimeout_eq (t l slot : Nat) (s : State) : exec (.telemetryTimeout t l slot) s = perform t (.read fun b =>
    when ((b.headState l slot == 2 || b.headState l slot == 3) && b.reportLate l slot)
      (.seq (setHead l slot fun h => { h with lost := true, goodSince := none }) (inhibitHead l slot 4 false))) s := rfl

theorem reportLate_of {s : State} {l sl : Nat}
    (h : ∀ x, (s.head l sl).reportAt = some x → x + s.reg K.TelemetryTimeout ≤ s.now) : s.reportLate l sl = true := by
  unfold State.reportLate
  split
  next u hu => exact decide_eq_true (h u hu)
  next => rfl

theorem reg_put_same (k v : Nat) (s : State) : ((put k v).run s).reg k = v := by simp

theorem run_seqs_one (a : Act) (s : State) : (seqs [a]).run s = a.run s := rfl

/-- What an inhibited head shows (R244). -/
theorem inhibitHead_shows (l sl state : Nat) (s : State) :
    ((inhibitHead l sl state false).run s).headState l sl = state
      ∧ ((inhibitHead l sl state false).run s).head l sl = s.head l sl
      ∧ s.raised [101] ((inhibitHead l sl state false).run s) := by
  refine ⟨?_, ?_, ?_⟩
  · rw [State.headState, inhibitHead, run_seqs_cons, run_seqs_cons, run_seqs_one, reg_put_same]
  · refine head_of_leaves ?_ l sl s
    exact ⟨trivial, heads_fireEvent _ _ _, leaves_heads (by simp), trivial⟩
  · exact raised_among (l₁ := [_]) (l₂ := [_]) (P := fun _ => True) (by simp) (fun s _ => fireEvent_raises rfl l sl s)
      (by simp)

theorem telemetryTimeout_completes (t l slot : Nat) :
    Completes (.telemetryTimeout t l slot) t
      (fun b => (b.headState l slot = 2 ∨ b.headState l slot = 3) ∧ 12 * l + slot < b.fire.heads.length
        ∧ ∀ x, (b.head l slot).reportAt = some x → x + b.reg K.TelemetryTimeout ≤ b.now)
      fun b u => u.headState l slot = 4 ∧ (u.head l slot).lost = true ∧ b.raised [101] u
        ∧ b.regsBut [slotKey K.HeadState l slot, K.FiringEventSlot + 5] u ∧ b.only [.dict, .ev, .fire] u :=
  completes_of (execTelemetryTimeout_eq t l slot) fun b _ ⟨hstate, hlen, hdue⟩ => by
  have hin : ((b.headState l slot == 2 || b.headState l slot == 3) && b.reportLate l slot) = true := by
    simpa [reportLate_of hdue] using hstate
  rw [Act.run_read, run_when, if_pos hin, Act.run_seq]
  obtain ⟨hshown, hhead, hraised⟩ := inhibitHead_shows l slot 4
    ((setHead l slot fun h => { h with lost := true, goodSince := none }).run b)
  refine ⟨by rw [State.headState, State.notifySend_reg]; exact hshown, ?_, raised_notifySend.mpr
    (raised_after (u := (setHead l slot _).run b) rfl hraised), ?_, ?_⟩
  · rw [head_notifySend, hhead, head_setHead hlen]
  · exact regsBut_sent (a := .seq (setHead l slot _) (inhibitHead l slot 4 false)) (by simp [setHead, inhibitHead, fireEvent]) b
  · exact only_sent_of_fits (a := .seq (setHead l slot _) (inhibitHead l slot 4 false)) (by simp) b

theorem headRecovered_completes (t l slot x : Nat) :
    Completes (.headRecovered t l slot) t
      (fun b => (b.headState l slot = 3 ∨ b.headState l slot = 4) ∧ 12 * l + slot < b.fire.heads.length
        ∧ (b.head l slot).goodSince = some x ∧ x + b.reg K.HeadRecoverTime ≤ b.now)
      fun b u => u.headState l slot = 2 ∧ (u.head l slot).hot = false ∧ b.raised [100] u
        ∧ b.regsBut [slotKey K.HeadState l slot, K.FiringEventSlot + 4] u ∧ b.only [.dict, .ev, .fire] u :=
  completes_of (fun _ => rfl) fun b _ ⟨hstate, hlen, hgood, hdue⟩ => by
  have hin : ((b.headState l slot == 3 || b.headState l slot == 4) && decide (x + b.reg K.HeadRecoverTime ≤ b.now)) = true := by
    simpa [hdue] using hstate
  simp only [Act.run_read, hgood, hin, run_when_true]
  refine ⟨?_, ?_, raised_notifySend.mpr ?_, regsBut_sent (by simp [setHead, fireEvent]) b, only_sent_of_fits (by simp) b⟩
  · rw [State.headState, State.notifySend_reg, run_seqs_cons, Act.All.reg_other]
    · exact reg_put_same _ _ _
    · exact ⟨trivial, calm_fireEvent (P := (· ≠ _)) (headState_ne_event l slot (by decide)).symm, trivial⟩
  · rw [head_notifySend, run_seqs_cons, run_seqs_cons, run_seqs_one, head_of_leaves (heads_fireEvent 100 l slot), head_setHead (by rw [fire_kept (by simp)]; exact hlen)]
  · exact raised_among (l₁ := [_, _]) (l₂ := []) (P := fun _ => True)
      ⟨headState_ne_ctl l slot, trivial, trivial⟩ (fun s _ => fireEvent_raises rfl l slot s) trivial

/-- The tickle of one slot (R245). -/
def tickleSlot (b : State) (p : Nat × Nat) : Act :=
  match b.idleBank p.1 p.2 with
  | some bank => when (b.slotSendable p.1 p.2 && (b.factsOf (b.headType p.1 p.2)).tickle != 0xFF)
      (sendFire p.1 p.2 0 0 bank 2 (b.ptp + b.reg K.IssueLead * 65536))
  | none => .skip

/-- The tickle waits: none is asked for, the mode is another, or one has just been sent (R245). -/
def State.tickleWaits (s : State) : Bool :=
  s.reg K.TickleReadyRate = 0 || s.health.shuttingDown
    || !((s.mode == mReady && !s.inTransition) || (s.mode == mService && s.fire.service.isNone))
    || s.now < s.fire.tickleAt + 1000000000 / s.reg K.TickleReadyRate

theorem execTickleReady_eq (t : Nat) (s : State) : exec (.tickleReady t) s = perform t (.read fun b =>
    if b.tickleWaits then .skip
    else .seq (.prim (.fire fun f => { f with tickleAt := b.now })) (each b.slots (tickleSlot b))) s := rfl

theorem inner_sendFire (l sl kind code bank w stamp : Nat) : (sendFire l sl kind code bank w stamp).All Prim.Inner := by
  simp [sendFire, sendPacket, setLink]

theorem inner_tickleSlot (b : State) (p : Nat × Nat) : (tickleSlot b p).All Prim.Inner := by
  unfold tickleSlot
  split
  · exact all_when fun _ => inner_sendFire _ _ _ _ _ _ _
  · trivial

theorem fits_tickleSlot (b : State) (p : Nat × Nat) {l : List Piece} (h : [.dict, .link] ⊆ l) :
    (tickleSlot b p).All (Prim.Fits l) := by
  unfold tickleSlot
  split
  · exact all_when fun _ => fits_sendFire _ _ _ _ _ _ _ h
  · trivial

theorem sent_sendFire (l sl kind code bank w stamp : Nat) (s : State) :
    ∃ d, .packet l pkFIRE d ∈ ((sendFire l sl kind code bank w stamp).run s).out := by
  rw [sendFire, Act.run_read, run_seqs_cons, run_seqs_cons, run_seqs_cons]
  exact mem_out_sendPacket _ _ _ _ _ _ _ _

theorem sent_tickleSlot {b : State} {p : Nat × Nat} (hbank : (b.idleBank p.1 p.2).isSome = true)
    (hsend : b.slotSendable p.1 p.2 = true) (htickle : (b.factsOf (b.headType p.1 p.2)).tickle ≠ 0xFF) (s : State) :
    ∃ d, .packet p.1 pkFIRE d ∈ ((tickleSlot b p).run s).out := by
  obtain ⟨bank, hbank⟩ := Option.isSome_iff_exists.mp hbank
  rw [tickleSlot, hbank, hsend]
  simp only [Bool.true_and, run_when]
  rw [if_pos (by simpa using htickle)]
  exact sent_sendFire _ _ _ _ _ _ _ s

theorem tickleReady_completes (t : Nat) :
    Completes (.tickleReady t) t
      (fun b => b.reg K.TickleReadyRate ≠ 0 ∧ b.health.shuttingDown = false ∧ b.mode = mReady ∧ b.inTransition = false
        ∧ b.fire.tickleAt + 1000000000 / b.reg K.TickleReadyRate ≤ b.now)
      fun b u => u.fire = { b.fire with tickleAt := b.now }
        ∧ (∀ p ∈ b.slots, b.slotSendable p.1 p.2 = true → (b.idleBank p.1 p.2).isSome = true →
          (b.factsOf (b.headType p.1 p.2)).tickle ≠ 0xFF → ∃ d, .packet p.1 pkFIRE d ∈ u.out)
        ∧ b.only [.dict, .fire, .link] u :=
  completes_of (execTickleReady_eq t) fun b _ ⟨hrate, hup, hmode, hstill, hdue⟩ => by
  have hwaits : b.tickleWaits = false := by
    simp [State.tickleWaits, hrate, hup, hmode, hstill, hdue]
  rw [Act.run_read, hwaits, run_ite_of_not (by decide), Act.run_seq]
  refine ⟨?_, fun p hp hsend hbank htickle => ?_, ?_⟩
  · rw [State.notifySend_fire, fire_kept (all_each fun p _ => fits_tickleSlot b p (by decide))]
    rfl
  · obtain ⟨d, hd⟩ := each_makes (P := fun u => ∃ d, Out.packet p.1 pkFIRE d ∈ u.out) hp
      (fun q _ u ⟨d, hd⟩ => ⟨d, mem_out_inner (inner_tickleSlot b q) hd⟩)
      (sent_tickleSlot hbank hsend htickle) ((Act.prim (.fire fun f => { f with tickleAt := b.now })).run b)
    exact ⟨d, mem_out_notifySend hd⟩
  · refine only_sent_of_fits (a := .seq (.prim (.fire _)) (each b.slots (tickleSlot b))) ⟨by simp [Fire.Sized], ?_⟩ b
    exact all_each fun p _ => fits_tickleSlot b p (by decide)

theorem tempCurveWrite_completes (t l slot v : Nat) (w : Wr) :
    slot < 12 →
    Completes (.tempCurveWrite t l slot w) t
      (fun b => l < b.linkCount ∧ b.takes (0x4100 + 12 * l + slot) 0x0F w v ∧ curveAscends v = true)
      fun b u => u.reg (slotKey K.TempCurve l slot) = v ∧ b.regsBut [slotKey K.TempCurve l slot] u ∧ b.only [.dict] u :=
  fun hslot => completes_of (fun _ => rfl) fun b _ ⟨hl, htake, hasc⟩ => by
  have heff : effTempCurve (slotKey K.TempCurve l slot) b { w with val := v } = accept (put (slotKey K.TempCurve l slot) v) :=
    if_pos hasc
  simp only [Act.run_read, hl, hslot, decide_true, Bool.and_self, if_true]
  rw [run_writeBy_takes htake heff]
  exact ⟨by simp, regsBut_write (by simp) _ b, only_write (by simp) _ b⟩

end Sys2Proof.Machine
end

section
/-! # Row lines are issued (R229–R235) -/

namespace Sys2Proof.Machine

/-! ### A command's changes as a list -/

/-- A register is what one change of a list leaves of it where no other sets it. -/
theorem reg_among {q : Nat} {l₁ l₂ : List Act} {a : Act} (h₂ : (seqs l₂).All (Prim.Calm (· ≠ q))) (s : State) :
    ((seqs (l₁ ++ a :: l₂)).run s).reg q = (a.run ((seqs l₁).run s)).reg q := by
  rw [run_seqs_append, run_seqs_cons, h₂.reg_other]

/-- A row is what one change of a list leaves of it where none after it changes a head. -/
theorem row_among {l sl r : Nat} {l₁ l₂ : List Act} {a : Act} (h₂ : (seqs l₂).All (Prim.Leaves fun u => u.fire.heads)) (s : State) :
    ((seqs (l₁ ++ a :: l₂)).run s).row l sl r = (a.run ((seqs l₁).run s)).row l sl r := by
  rw [run_seqs_append, run_seqs_cons, row_of_leaves h₂]

/-! ### The due lines belong to a link of the part -/

theorem planRow_link {s : State} {p : Option Predictor} {total : Int} {l sl r version : Nat}
    {label : Int → Nat → Option (Int ⊕ Unit)} {fuel : Nat} {m : Int} {y : Nat} {last : Option Nat} {d : Due}
    (h : d ∈ s.planRow p total l sl r version label fuel m y last) : d.l = l := by
  induction fuel generalizing m y last with
  | zero => simp [State.planRow] at h
  | succ fuel ih =>
    rw [State.planRow] at h
    split at h
    · simp at h
    · exact ih h
    · dsimp only at h
      split at h
      · split at h
        · rcases List.mem_cons.mp h with rfl | h
          · rfl
          · exact ih h
        · simp at h
      · split at h
        · rcases List.mem_cons.mp h with rfl | h
          · rfl
          · exact ih h
        · split at h
          · simp at h
          · rcases List.mem_cons.mp h with rfl | h
            · rfl
            · exact ih h

theorem slots_link {s : State} {p : Nat × Nat} (h : p ∈ s.slots) : p.1 < s.linkCount := by
  simp only [State.slots, List.mem_filterMap, List.mem_range] at h
  obtain ⟨n, hn, hp⟩ := h
  split at hp
  · obtain rfl := Option.some.inj hp
    exact Nat.div_lt_of_lt_mul (by omega)
  · simp at hp

theorem copyDue_link {s : State} {p : Option Predictor} {d : Due} (h : d ∈ s.copyDue p) : d.l < s.linkCount := by
  simp only [State.copyDue, List.mem_flatMap] at h
  obtain ⟨x, hx, hd⟩ := h
  have hl : x.1 < s.linkCount := by
    simp only [State.firingRows, List.mem_flatMap] at hx
    obtain ⟨q, hq, hx⟩ := hx
    split at hx
    · simp only [List.mem_map] at hx
      obtain ⟨r, -, rfl⟩ := hx
      exact slots_link hq
    · simp at hx
  split at hd
  · simp at hd
  · rw [planRow_link hd]
    exact hl

theorem mem_insertDue {d x : Due} {l : List Due} : x ∈ insertDue d l ↔ x = d ∨ x ∈ l := by
  induction l with
  | nil => simp [insertDue]
  | cons y l ih =>
    rw [insertDue]
    split
    · simp
    · simp only [List.mem_cons, ih]
      tauto

theorem mem_sortDue {x : Due} {l : List Due} : x ∈ l.foldr insertDue [] ↔ x ∈ l := by
  induction l with
  | nil => simp
  | cons y l ih => simp [mem_insertDue, ih]

theorem linkCount_le (s : State) : s.linkCount ≤ 16 := by
  unfold State.linkCount
  split <;> omega

/-! ### The command as a list of changes -/

/-- The predictor had no sample old enough to take its acceleration from (R229). -/
def State.lacksOlder (s : State) : Bool :=
  match s.pos.samples with
  | (ts, _, _) :: rest => (olderSample (s.reg K.PredictionWindow) ts rest).isNone
  | [] => false

/-- The acceleration was clamped (R233). -/
def wasClamped : Option Predictor → Bool
  | some x => x.clamped
  | none => false

/-- The acceleration that a prediction used is shown (R233). -/
def showAccel : Option Predictor → Act
  | some x => put K.AccelerationActual (rawOf 4 (accelActual x.num x.den))
  | none => .skip

/-- The lines that the sequencer issues at a sample, in Service or for copies (R229–R235, R254). -/
def issueLines (b : State) (p : Option Predictor) : Option Service → Act
  | some v => when (v.pattern == 3) (.seq (each ((b.ladderDue p v).foldr insertDue []) dueLadder) ladderDone)
  | none => seqs [each ((b.copyDue p).foldr insertDue []) (dueLine (wasClamped p)), laddersPrinted, settleCopies, settleErrors]

/-- The predictor at this sample. -/
def State.predictorNow (s : State) : Option Predictor := s.predictor (signedOf 4 (Config.freeValue s.free))

theorem execRowLineIssue_eq (t : Nat) (s : State) : exec (.rowLineIssue t) s = perform t (.read fun b => seqs [
    when (b.lacksOlder && b.predictorNow.isSome) (.prim .fresh), showAccel b.predictorNow,
    when (b.fnOn fnFire) (issueLines b b.predictorNow b.fire.service)]) s := rfl

/-- What becomes of one line (R231, R244, R252, R448, R449). -/
def fateAct (d : Due) (c : Copy) : Fate → Act
  | .send => sendRow d c
  | .skip => lineSkipped d.l d.sl d.num
  | .dead => wasteCopy d.num wHead
  | .gap => wasteCopy d.num wBridle
  | .silent => .skip

theorem dueLine_eq (clamped : Bool) (d : Due) {c : Copy} {s : State} (h : s.copy? d.num = some c) :
    (dueLine clamped d).run s = (seqs [when (clamped && d.fate == .send) (clampMark d.num d.l d.sl), fateAct d c d.fate,
      stepRow d]).run s := by
  rw [dueLine, Act.run_read]
  simp only [h]
  cases d.fate <;> rfl

/-- What a sample does before its one due line acts. -/
def issueHead (b : State) (d : Due) : List Act := [
  when (b.lacksOlder && b.predictorNow.isSome) (.prim .fresh), showAccel b.predictorNow,
  when (wasClamped b.predictorNow && d.fate == .send) (clampMark d.num d.l d.sl)]

/-- What a sample does once its one due line has acted. -/
def issueTail (d : Due) : List Act := [stepRow d, laddersPrinted, settleCopies, settleErrors]

/-- A sample with one due line of a copy in flight. -/
theorem run_issueOne {b : State} {d : Due} {c : Copy} (hfire : b.fnOn fnFire = true) (hservice : b.fire.service = none)
    (hdue : (b.copyDue b.predictorNow).foldr insertDue [] = [d]) (hcopy : b.copy? d.num = some c) :
    (seqs [when (b.lacksOlder && b.predictorNow.isSome) (.prim .fresh), showAccel b.predictorNow,
      when (b.fnOn fnFire) (issueLines b b.predictorNow b.fire.service)]).run b
      = (seqs (issueHead b d ++ fateAct d c d.fate :: issueTail d)).run b := by
  have hkept : ∀ (x : Bool) (p : Option Predictor), ((showAccel p).run ((when x (.prim .fresh)).run b)).copy? d.num = some c := by
    intro x p
    refine Eq.trans ?_ hcopy
    have hfits : (Act.seq (when x (.prim .fresh)) (showAccel p)).All (Prim.Fits (Piece.but .fire)) := by
      cases p <;> simp [showAccel]
    exact congrArg (fun f : Fire => f.copies.find? fun k => k.num == d.num) (fire_kept hfits b)
  rw [hfire, hservice, issueLines, hdue]
  simp only [run_seqs_cons, run_when_true, issueHead, issueTail, List.cons_append, List.nil_append]
  rw [show (each [d] (dueLine (wasClamped b.predictorNow))) = .seq (dueLine (wasClamped b.predictorNow) d) .skip from rfl,
    Act.run_seq, dueLine_eq _ d (hkept _ _)]
  rfl

/-! ### What the parts around a line keep -/

/-- A register that a sample sets before its due line acts: the acceleration, and those of a clamp. -/
abbrev Foregone (k : Nat) : Prop := k = K.AccelerationActual ∨ k = K.FiringEventSlot + 2 ∨ k = K.PredictionFaultCount

theorem calm_clampMark (m : Int) (l sl : Nat) : (clampMark m l sl).All (Prim.Calm Foregone) := fun s => by
  dsimp only
  split
  · exact ⟨all_when fun _ => ⟨calm_fireEvent (P := Foregone) (by decide), fun _ => show Foregone _ by decide⟩, calm_setCopy _ _ _⟩
  · trivial

theorem calm_showAccel (p : Option Predictor) : (showAccel p).All (Prim.Calm Foregone) := by
  cases p with
  | none => trivial
  | some x => exact .inl rfl

theorem calm_issueHead (b : State) (d : Due) : (seqs (issueHead b d)).All (Prim.Calm Foregone) :=
  ⟨all_when fun _ => trivial, calm_showAccel _, all_when fun _ => calm_clampMark _ _ _, trivial⟩

theorem heads_clampMark (m : Int) (l sl : Nat) : (clampMark m l sl).All (Prim.Leaves fun u => u.fire.heads) := fun s => by
  dsimp only
  split
  · exact ⟨all_when fun _ => ⟨heads_fireEvent _ _ _, leaves_heads (by simp)⟩, fun _ => rfl⟩
  · trivial

theorem heads_issueHead (b : State) (d : Due) : (seqs (issueHead b d)).All (Prim.Leaves fun u => u.fire.heads) :=
  ⟨all_when fun _ => leaves_heads (by simp), leaves_heads (by cases b.predictorNow <;> simp [showAccel]),
    all_when fun _ => heads_clampMark _ _ _, trivial⟩

theorem calm_laddersPrinted (P : Nat → Prop) : laddersPrinted.All (Prim.Calm P) := fun _ => all_each fun _ _ => by simp

theorem calm_settleErrors {P : Nat → Prop} (h : P K.PredictionErrorMaxCopy) : settleErrors.All (Prim.Calm P) := fun _ =>
  all_each fun _ _ => ⟨h, calm_setCopy _ _ _⟩

theorem calm_issueTail {P : Nat → Prop} (h : P K.PredictionErrorMaxCopy) (d : Due) : (seqs (issueTail d)).All (Prim.Calm P) :=
  ⟨by simp [stepRow, setRow, setHead], calm_laddersPrinted P, fun _ => trivial, calm_settleErrors h, trivial⟩

theorem inner_issueTail (d : Due) : (seqs (issueTail d)).All Prim.Inner :=
  ⟨by simp [stepRow, setRow, setHead], fun _ => all_each fun _ _ => by simp, fun _ => trivial,
    fun _ => all_each fun _ _ => ⟨trivial, inner_setCopy _ _⟩, trivial⟩

theorem heads_settled : (seqs [laddersPrinted, settleCopies, settleErrors]).All (Prim.Leaves fun u => u.fire.heads) :=
  ⟨leaves_heads (by simp), fun _ _ => rfl, fun _ => all_each fun _ _ => ⟨leaves_heads (by simp), fun _ => rfl⟩, trivial⟩

/-- The row's tracker has moved past its line (R235). -/
theorem row_issued {b : State} {d : Due} {a : Act} (ha : a.All (Prim.Leaves fun u => u.fire.heads))
    (hlen : 12 * d.l + d.sl < b.fire.heads.length) (hr : d.r < (b.head d.l d.sl).rows.length) :
    ((seqs (issueHead b d ++ a :: issueTail d)).run b).row d.l d.sl d.r = { b.row d.l d.sl d.r with
      next := some (d.num, d.y + 1), seq := ((b.row d.l d.sl d.r).seq + 1) % 65536,
      last := if d.fate = .send then some d.stamp.toNat else (b.row d.l d.sl d.r).last } := by
  have hheads : (seqs (issueHead b d ++ [a])).All (Prim.Leaves fun u => u.fire.heads) :=
    all_seqs_append.mpr ⟨heads_issueHead b d, ha, trivial⟩
  have hsplit : issueHead b d ++ a :: issueTail d
      = (issueHead b d ++ [a]) ++ stepRow d :: [laddersPrinted, settleCopies, settleErrors] := by simp [issueTail]
  rw [hsplit, row_among heads_settled, stepRow, row_setRow (by rw [hheads.leaves b]; exact hlen)
    (by rw [head_of_leaves hheads]; exact hr), row_of_leaves hheads]

theorem calm_wasteCopy (P : Nat → Prop) (m : Int) (reason : Nat) : (wasteCopy m reason).All (Prim.Calm P) := calm_setCopy P m _

theorem calm_lineSkipped (l sl : Nat) (m : Int) :
    (lineSkipped l sl m).All (Prim.Calm fun k => k = K.FiringEventSlot + 1 ∨ k = K.LinesSkippedCount) :=
  ⟨calm_fireEvent (P := fun k => k = K.FiringEventSlot + 1 ∨ k = K.LinesSkippedCount) (.inl rfl), fun _ => .inr rfl,
    calm_setCopy _ _ _, trivial⟩

theorem heads_lineSkipped (l sl : Nat) (m : Int) : (lineSkipped l sl m).All (Prim.Leaves fun u => u.fire.heads) :=
  ⟨heads_fireEvent _ _ _, leaves_heads (by simp), heads_wasteCopy _ _, trivial⟩

/-- A line not sent is counted, and its event raised (R231). -/
theorem lineSkipped_shows (l sl : Nat) (m : Int) (s : State) :
    ((lineSkipped l sl m).run s).reg K.LinesSkippedCount = (s.reg K.LinesSkippedCount + 1) % 2 ^ 32
      ∧ s.raised [97] ((lineSkipped l sl m).run s) := by
  refine ⟨?_, ?_⟩
  · rw [lineSkipped, run_seqs_cons, run_seqs_cons, run_seqs_one, (calm_wasteCopy (· ≠ K.LinesSkippedCount) _ _).reg_other, run_addTo,
      State.reg_set_same, reg_fireEvent (by decide)]
  · exact raised_among (l₁ := []) (l₂ := [_, _]) (P := fun _ => True) trivial (fun u _ => fireEvent_raises rfl l sl u)
      ⟨fun _ => trivial, calm_setCopy _ _ _, trivial⟩

theorem fits_issueHead (b : State) (d : Due) {l : List Piece} (h : [.dict, .ev, .fire] ⊆ l) :
    (seqs (issueHead b d)).All (Prim.Fits l) :=
  ⟨all_when fun _ => by simp, by cases b.predictorNow <;> simp [showAccel, h (show Piece.dict ∈ _ by simp)],
    all_when fun _ => by simp [h], trivial⟩

theorem fits_issueTail (d : Due) {l : List Piece} (h : [.dict, .ev, .fire, .loop] ⊆ l) : (seqs (issueTail d)).All (Prim.Fits l) := by
  simp only [List.cons_subset, List.nil_subset, and_true] at h
  obtain ⟨hd, he, hf, hl⟩ := h
  simp [issueTail, hd, he, hf, hl]

/-- The pieces of a sample with one due line. -/
theorem fits_issue {a : Act} {l : List Piece} (ha : a.All (Prim.Fits l)) (b : State) (d : Due) (h : [.dict, .ev, .fire, .loop] ⊆ l) :
    (seqs (issueHead b d ++ a :: issueTail d)).All (Prim.Fits l) :=
  all_seqs_append.mpr ⟨fits_issueHead b d fun _ hp => h (by revert hp; simp; tauto), ha, fits_issueTail d h⟩

theorem rowLineIssue_skips (t : Nat) (d : Due) (c : Copy) :
    Completes (.rowLineIssue t) t
      (fun b => b.fnOn fnFire = true ∧ b.fire.service = none
        ∧ (b.copyDue (b.predictor (signedOf 4 (Config.freeValue b.free)))).foldr insertDue [] = [d] ∧ d.fate = .skip
        ∧ b.copy? d.num = some c
        ∧ 12 * d.l + d.sl < b.fire.heads.length ∧ d.r < (b.head d.l d.sl).rows.length)
      fun b u => u.reg K.LinesSkippedCount = (b.reg K.LinesSkippedCount + 1) % 2 ^ 32
        ∧ u.reg K.RowLinesIssued = b.reg K.RowLinesIssued
        ∧ (u.row d.l d.sl d.r).next = some (d.num, d.y + 1) ∧ b.raised [97] u
        ∧ b.only [.dict, .ev, .fire, .loop] u :=
  completes_of (execRowLineIssue_eq t) fun b _ ⟨hfire, hservice, hdue, hfate, hcopy, hlen, hr⟩ => by
  rw [Act.run_read, run_issueOne hfire hservice hdue hcopy, hfate]
  have hhead : ∀ q, ¬Foregone q → ((seqs (issueHead b d)).run b).reg q = b.reg q := fun q hq =>
    (calm_issueHead b d).reg_calm hq b
  refine ⟨?_, ?_, ?_, raised_notifySend.mpr ?_, ?_⟩
  · rw [State.notifySend_reg, reg_among (calm_issueTail (by decide) d), fateAct, (lineSkipped_shows _ _ _ _).1, hhead _ (by decide)]
  · rw [State.notifySend_reg, reg_among (calm_issueTail (by decide) d), fateAct, (calm_lineSkipped _ _ _).reg_calm (by decide),
      hhead _ (by decide)]
  · rw [row_notifySend, fateAct, row_issued (heads_lineSkipped _ _ _) hlen hr]
  · exact raised_among ((calm_issueHead b d).mono fun _ => Prim.Calm.mono (by rintro k (rfl | rfl | rfl) <;> decide))
      (fun u _ => (lineSkipped_shows _ _ _ u).2) (calm_issueTail (P := fun _ => True) trivial d)
  · exact only_sent_of_fits (fits_issue (a := lineSkipped d.l d.sl d.num) (fits_lineSkipped _ _ _ (by decide)) b d (by decide)) b

/-! ### A line that is sent -/

/-- What a tree leaves of the firing unit's state, it leaves of any reading of it. -/
theorem leaves_fire {α : Type} (g : Fire → α) {a : Act} (h : a.All (Prim.Fits (Piece.but .fire))) :
    a.All (Prim.Leaves fun u => g u.fire) := h.mono fun p hp s =>
  congrArg g (Prim.only_touches p s .fire fun hm => by simpa using hp.1 _ hm)

theorem rings_issueHead (b : State) (d : Due) : (seqs (issueHead b d)).All (Prim.Leaves fun u => u.fire.rings) := by
  refine ⟨all_when fun _ => leaves_fire Fire.rings (by simp),
    leaves_fire Fire.rings (by cases b.predictorNow <;> simp [showAccel]), all_when fun _ s => ?_, trivial⟩
  dsimp only
  split
  · exact ⟨all_when fun _ => ⟨leaves_fire Fire.rings (by simp), leaves_fire Fire.rings (by simp)⟩, fun _ => rfl⟩
  · trivial

/-- What a copy names as its versions stays where its record changes in another field. -/
theorem versions_setCopy {f : Copy → Copy} (hnum : ∀ x, (f x).num = x.num) (hver : ∀ x, (f x).versions = x.versions) (m k : Int) :
    (setCopy m f).All (Prim.Leaves fun u => (u.copy? k).map Copy.versions) := fun s => by
  show ((s.fire.copies.map fun c => if c.num = m then f c else c).find? fun c => c.num == k).map Copy.versions = _
  have hpoint : ∀ x : Copy, (if x.num = m then f x else x).num = x.num ∧ (if x.num = m then f x else x).versions = x.versions := by
    intro x
    split
    · exact ⟨hnum x, hver x⟩
    · exact ⟨rfl, rfl⟩
  rw [List.find?_map, Option.map_map]
  have hfind : (fun c : Copy => c.num == k) ∘ (fun c => if c.num = m then f c else c) = fun c : Copy => c.num == k :=
    funext fun x => by simp only [Function.comp, (hpoint x).1]
  have hread : Copy.versions ∘ (fun c => if c.num = m then f c else c) = Copy.versions := funext fun x => (hpoint x).2
  rw [hfind, hread]
  rfl

theorem versions_issueHead (b : State) (d : Due) (k : Int) :
    (seqs (issueHead b d)).All (Prim.Leaves fun u => (u.copy? k).map Copy.versions) := by
  have hfits : ∀ {a : Act}, a.All (Prim.Fits (Piece.but .fire)) → a.All (Prim.Leaves fun u => (u.copy? k).map Copy.versions) :=
    leaves_fire fun f => (f.copies.find? fun c => c.num == k).map Copy.versions
  refine ⟨all_when fun _ => hfits (by simp), hfits (by cases b.predictorNow <;> simp [showAccel]), all_when fun _ s => ?_, trivial⟩
  dsimp only
  split
  · exact ⟨all_when fun _ => ⟨hfits (by simp), hfits (by simp)⟩,
      versions_setCopy (by intro x; rfl) (by intro x; rfl) d.num k⟩
  · trivial

/-- The version that a copy names for a type stays where its record and the version in force do. -/
theorem versionFor_eq {s u : State} {m : Int} {ty : Nat} (hcopy : (u.copy? m).map Copy.versions = (s.copy? m).map Copy.versions)
    (hforce : u.versionInForce ty = s.versionInForce ty) : u.versionFor m ty = s.versionFor m ty := by
  unfold State.versionFor
  cases hu : u.copy? m <;> cases hs : s.copy? m <;> simp_all

/-- What stays for the due line itself of what its choice of ring and bank depended on. -/
theorem ready_issueHead {b : State} {d : Due} (hl : d.l < 16) :
    let v := (seqs (issueHead b d)).run b
    v.linkInk d.l = b.linkInk d.l ∧ (∀ mode ink, v.ring? mode ink = b.ring? mode ink)
      ∧ v.bankOf d.l d.sl (v.versionFor d.num (v.headType d.l d.sl)) = b.bankOf d.l d.sl (b.versionFor d.num (b.headType d.l d.sl)) := by
  intro v
  have hreg : ∀ q, ¬Foregone q → v.reg q = b.reg q := fun q hq => (calm_issueHead b d).reg_calm hq b
  have hhigh : ∀ q, 0x271000 ≤ q → v.reg q = b.reg q := fun q hq =>
    hreg q (by simp only [Foregone, K.AccelerationActual, K.FiringEventSlot, K.PredictionFaultCount]; omega)
  have hslot : ∀ k, 0x271000 ≤ k → v.reg (slotKey k d.l d.sl) = b.reg (slotKey k d.l d.sl) := fun k hk =>
    hhigh _ (by simp only [slotKey]; omega)
  have hversion : v.versionFor d.num (b.headType d.l d.sl) = b.versionFor d.num (b.headType d.l d.sl) :=
    versionFor_eq ((versions_issueHead b d d.num).leaves b) (hhigh _ (by simp only [K.WaveVersionInForce]; omega))
  refine ⟨hreg _ ?_, fun mode ink => ?_, ?_⟩
  · simp only [Foregone, K.LinkInk, K.AccelerationActual, K.FiringEventSlot, K.PredictionFaultCount]
    omega
  · exact congrArg (fun x : List Ring => x.find? fun r => r.mode == mode && r.ink == ink) ((rings_issueHead b d).leaves b)
  · rw [State.headType, hslot _ (by decide), ← State.headType, hversion]
    simp only [State.bankOf, hslot K.BankStatus (by decide), hslot K.Bank0Version (by decide), hslot K.Bank1Version (by decide)]

/-- What one sent line does: late, missing and spoiled lines are counted, the packet goes out, and the line waits to be
measured (R231, R230, R234). -/
def sentRow (s : State) (d : Due) (missing spoiled tickle : Bool) (bank w count : Nat) (codes : List Nat) : List Act := [
  lateCheck d.l d.sl d.num d.stamp,
  when missing (seqs [fireEvent 110 d.l d.sl, addTo K.RingUnderrunCount 4 1, wasteCopy d.num wFiring,
    giveUpLine d.num (s.linkInk d.l) d.y]),
  when spoiled (wasteCopy d.num wFiring),
  sendLine d.l d.sl d.r (s.row d.l d.sl d.r).seq bank w count d.stamp.toNat tickle codes d.num,
  addTo K.RowLinesIssued 8 1,
  .prim (.fire fun f => { f with issued := f.issued ++ [{
    num := d.num, q := d.q, land := d.stamp.toNat + s.reg (slotKey K.LandingDelay d.l d.sl) * 65536 }] }) ]

theorem run_sendRow {d : Due} {c : Copy} {s : State} {ring : Ring} {bank : Nat} (hring : s.ring? c.mode (s.linkInk d.l) = some ring)
    (hbank : s.bankOf d.l d.sl (s.versionFor d.num (s.headType d.l d.sl)) = some bank) :
    ∃ missing spoiled tickle w count codes, (sendRow d c).run s = (seqs (sentRow s d missing spoiled tickle bank w count codes)).run s := by
  rw [sendRow, Act.run_read]
  simp only [hring, hbank]
  exact ⟨_, _, _, _, _, _, rfl⟩

theorem calm_lateCheck {P : Nat → Prop} (he : P K.FiringEventSlot) (hc : P K.FireLateCount) (l sl : Nat) (m stamp : Int) :
    (lateCheck l sl m stamp).All (Prim.Calm P) := fun _ =>
  all_when fun _ => ⟨calm_fireEvent he, fun _ => hc, calm_wasteCopy _ _ _, trivial⟩

theorem calm_sendLine {P : Nat → Prop} {l sl : Nat} (ha : P (slotKey K.AmplitudeScale l sl)) (hb : P (slotKey K.BankStatus l sl))
    (row rowSeq bank w count stamp : Nat) (tickle : Bool) (codes : List Nat) (copy : Int) :
    (sendLine l sl row rowSeq bank w count stamp tickle codes copy).All (Prim.Calm P) := fun _ =>
  ⟨ha, hb, calm_sendPacket _ _ _ _ _ _, trivial⟩

theorem sent_sendLine (l sl row rowSeq bank w count stamp : Nat) (tickle : Bool) (codes : List Nat) (copy : Int) (s : State) :
    ∃ p, .packet l pkLINE p ∈ ((sendLine l sl row rowSeq bank w count stamp tickle codes copy).run s).out := by
  rw [sendLine, Act.run_read, run_seqs_cons, run_seqs_cons, run_seqs_one]
  exact mem_out_sendPacket _ _ _ _ _ _ _ _

theorem heads_giveUpLine (m : Int) (ink y : Nat) : (giveUpLine m ink y).All (Prim.Leaves fun u => u.fire.heads) := fun s => by
  dsimp only
  split
  · trivial
  · exact all_when fun _ _ => rfl

theorem heads_sentRow (s : State) (d : Due) (missing spoiled tickle : Bool) (bank w count : Nat) (codes : List Nat) :
    (seqs (sentRow s d missing spoiled tickle bank w count codes)).All (Prim.Leaves fun u => u.fire.heads) :=
  ⟨fun _ => all_when fun _ => ⟨heads_fireEvent _ _ _, leaves_heads (by simp), heads_wasteCopy _ _, trivial⟩,
    all_when fun _ => ⟨heads_fireEvent _ _ _, leaves_heads (by simp), heads_wasteCopy _ _, heads_giveUpLine _ _ _, trivial⟩,
    all_when fun _ => heads_wasteCopy _ _, leaves_heads (by simp), leaves_heads (by simp), fun _ => rfl, trivial⟩

/-- The lines issued are counted by one (0x2701:01). -/
theorem sentRow_counted (s : State) (d : Due) (missing spoiled tickle : Bool) (bank w count : Nat) (codes : List Nat) (v : State) :
    ((seqs (sentRow s d missing spoiled tickle bank w count codes)).run v).reg K.RowLinesIssued
      = (v.reg K.RowLinesIssued + 1) % 2 ^ 64 := by
  have hslot : ∀ k, 0x400000 ≤ k → slotKey k d.l d.sl ≠ K.RowLinesIssued := fun k hk => by
    simp only [slotKey, K.RowLinesIssued]
    omega
  have hbefore : (seqs [lateCheck d.l d.sl d.num d.stamp,
      when missing (seqs [fireEvent 110 d.l d.sl, addTo K.RingUnderrunCount 4 1, wasteCopy d.num wFiring,
        giveUpLine d.num (s.linkInk d.l) d.y]),
      when spoiled (wasteCopy d.num wFiring),
      sendLine d.l d.sl d.r (s.row d.l d.sl d.r).seq bank w count d.stamp.toNat tickle codes d.num]).All
        (Prim.Calm (· ≠ K.RowLinesIssued)) := by
    refine ⟨calm_lateCheck (by decide) (by decide) _ _ _ _, all_when fun _ => ⟨calm_fireEvent (P := (· ≠ _)) (by decide),
      fun _ => by simp (decide := true), calm_wasteCopy _ _ _, fun _ => ?_, trivial⟩, all_when fun _ => calm_wasteCopy _ _ _,
      calm_sendLine (hslot _ (by decide)) (hslot _ (by decide)) _ _ _ _ _ _ _ _ _, trivial⟩
    dsimp only
    split
    · trivial
    · exact all_when fun _ => calm_setCopy _ _ _
  rw [sentRow, show ∀ a b c d e f : Act, [a, b, c, d, e, f] = [a, b, c, d] ++ e :: [f] from fun _ _ _ _ _ _ => rfl,
    reg_among (by simp), run_addTo, State.reg_set_same, hbefore.reg_other]

/-- The line's packet has gone out on its link (R235). -/
theorem sentRow_sent (s : State) (d : Due) (missing spoiled tickle : Bool) (bank w count : Nat) (codes : List Nat) (v : State) :
    ∃ p, .packet d.l pkLINE p ∈ ((seqs (sentRow s d missing spoiled tickle bank w count codes)).run v).out := by
  rw [sentRow, run_seqs_cons, run_seqs_cons, run_seqs_cons, run_seqs_cons]
  obtain ⟨p, hp⟩ := sent_sendLine d.l d.sl d.r (s.row d.l d.sl d.r).seq bank w count d.stamp.toNat tickle codes d.num _
  exact ⟨p, mem_out_inner (by simp) hp⟩

theorem rowLineIssue_sends (t : Nat) (d : Due) (c : Copy) (ring : Ring) (bank : Nat) :
    Completes (.rowLineIssue t) t
      (fun b => b.fnOn fnFire = true ∧ b.fire.service = none
        ∧ (b.copyDue (b.predictor (signedOf 4 (Config.freeValue b.free)))).foldr insertDue [] = [d] ∧ d.fate = .send
        ∧ b.copy? d.num = some c ∧ b.ring? c.mode (b.linkInk d.l) = some ring
        ∧ b.bankOf d.l d.sl (b.versionFor d.num (b.headType d.l d.sl)) = some bank
        ∧ 12 * d.l + d.sl < b.fire.heads.length ∧ d.r < (b.head d.l d.sl).rows.length)
      fun b u => u.reg K.RowLinesIssued = (b.reg K.RowLinesIssued + 1) % 2 ^ 64
        ∧ (u.row d.l d.sl d.r).next = some (d.num, d.y + 1) ∧ (u.row d.l d.sl d.r).last = some d.stamp.toNat
        ∧ (∃ p, .packet d.l pkLINE p ∈ u.out) ∧ b.only [.dict, .ev, .fire, .link, .loop] u :=
  completes_of (execRowLineIssue_eq t) fun b _ ⟨hfire, hservice, hdue, hfate, hcopy, hring, hbank, hlen, hr⟩ => by
  have hl : d.l < 16 := by
    have hmem : d ∈ b.copyDue b.predictorNow := mem_sortDue.mp (by rw [State.predictorNow, hdue]; simp)
    exact (copyDue_link hmem).trans_le (linkCount_le b)
  obtain ⟨hink, hrings, hbanks⟩ := ready_issueHead (b := b) hl
  obtain ⟨missing, spoiled, tickle, w, count, codes, hsend⟩ := run_sendRow (d := d) (c := c)
    (s := (seqs (issueHead b d)).run b) (by rw [hrings, hink]; exact hring) (by rw [hbanks]; exact hbank)
  have hrun : (seqs (issueHead b d ++ sendRow d c :: issueTail d)).run b = (seqs (issueHead b d
      ++ seqs (sentRow ((seqs (issueHead b d)).run b) d missing spoiled tickle bank w count codes) :: issueTail d)).run b := by
    rw [run_seqs_append, run_seqs_append, run_seqs_cons, run_seqs_cons, hsend]
  have hfits : b.only [.dict, .ev, .fire, .link, .loop] ((seqs (issueHead b d ++ sendRow d c :: issueTail d)).run b).notifySend :=
    only_sent_of_fits (fits_issue (fits_sendRow d c (by decide)) b d (by decide)) b
  rw [Act.run_read, run_issueOne hfire hservice hdue hcopy, hfate, fateAct]
  refine ⟨?_, ?_, ?_, ?_, hfits⟩
  · rw [State.notifySend_reg, hrun, reg_among (calm_issueTail (by decide) d), sentRow_counted,
      (calm_issueHead b d).reg_calm (by decide)]
  · rw [row_notifySend, hrun, row_issued (heads_sentRow _ _ _ _ _ _ _ _ _) hlen hr]
  · rw [row_notifySend, hrun, row_issued (heads_sentRow _ _ _ _ _ _ _ _ _) hlen hr, hfate]
    rfl
  · obtain ⟨p, hp⟩ := sentRow_sent ((seqs (issueHead b d)).run b) d missing spoiled tickle bank w count codes
      ((seqs (issueHead b d)).run b)
    refine ⟨p, mem_out_notifySend ?_⟩
    rw [hrun, run_seqs_append, run_seqs_cons]
    exact mem_out_inner (inner_issueTail d) hp

/-- Settles O22: a due line is sent or skipped and its row moves on, and each report, tickle and curve acts as its rule says. -/
theorem firingCompletes : Obligations.FiringCompletes :=
  ⟨rowLineIssue_sends, rowLineIssue_skips, telemetryTimeout_completes, headRecovered_completes, tickleReady_completes,
    tempCurveWrite_completes⟩

end Sys2Proof.Machine
end
